-- ==== Sys2Proof/Word.lean ====
section
/-!
DEFINITION. The plain number and word types of the model.
Counts and fields are natural numbers; every place that stores one narrows it to the width that the spec states
for it, by `wrap` (the field wraps), `sat` (the field stops at its largest value) or an explicit check.
Wright core registers are 32-bit words (R190).
-/

namespace Sys2Proof

/-- One 32-bit lane register of a wright core (R190). -/
abbrev Word := BitVec 32

/-- One byte of an addressed memory. -/
abbrev Byte := BitVec 8

/-- A run of bytes, each below 256, first byte first. -/
abbrev Bytes := List Nat

/-- A count of `w` bits that wraps from its largest value to 0. -/
def wrap (w n : Nat) : Nat := n % 2 ^ w

/-- A count of `w` bits that stops at its largest value. -/
def sat (w n : Nat) : Nat := min n (2 ^ w - 1)

/-- Two's-complement pattern of `v` in `w` bits. -/
def ofInt (w : Nat) (v : Int) : Nat := (v % (2 ^ w : Int)).toNat

/-- The signed value of the low `w` bits of `n`. -/
def toInt (w n : Nat) : Int :=
  let m := n % 2 ^ w
  if 2 ^ w ≤ 2 * m then (m : Int) - (2 ^ w : Int) else (m : Int)

/-- Division rounded up; 0 when the divisor is 0. -/
def ceilDiv (a b : Nat) : Nat := if b = 0 then 0 else (a + b - 1) / b

end Sys2Proof
end

