-- ==== Sys2Proof/Syntax.lean ====
section
/-!
DEFINITION. The commands of the block: one constructor of `Instr` for each row of spec/opcode_table.json, in the
table's order, with the row's operands; and the plain data types the operands are made of.
A command is either a request of a master (an NVMe command, a Milny frame, an object write), a message of a fabric
neighbour, an instruction of gang code, a sequencer verb, or an event on a pin, a die, a timer or a unit.
Where the outcome of an event is physics and no rule of the spec decides it (does a codeword decode, is a source in
tolerance), the command carries the outcome as an operand.
-/

namespace Sys2Proof

/-- The two masters (Table 0.4). -/
inductive Master where
  | host | sideband
  deriving DecidableEq, Repr

/-- The identity and common fields of an NVMe command (Table 4.6): the submission queue it came from (0 is the admin
queue), its command identifier and NSID, the ordered marker and DEADLINE of CDW15, and whether every reserved field
and the FUSE field are zero. -/
structure HostId where
  sq : Nat
  cid : Nat
  nsid : Nat
  ord : Bool
  deadline : Nat
  reservedOk : Bool
  deriving DecidableEq, Repr

/-- How an object write reaches the drive: the master, the pen serial it gives, and for a host the tunnel command
that carries it (for the side-band master, `h.cid` is the token of the acyclic request). -/
structure Via where
  master : Master
  serial : Nat
  h : HostId
  deriving DecidableEq, Repr

/-- The kind of a command: an I/O command as Table 4.5 sorts them for CLASS, or a command of an opcode, or a Set Features of a feature,
that Tables 4.3 and 4.4 do not list (R88). -/
inductive CmdFamily where
  | search | stream | other | noOpcode | noFeature
  deriving DecidableEq, Repr

/-- A command in a submission queue slot, as far as fetching and admission look at it (R90, R93, R96). -/
structure SqCmd where
  cid : Nat
  nsid : Nat
  fam : CmdFamily
  ord : Bool
  deadline : Nat
  deriving DecidableEq, Repr

/-- Completion statuses the drive posts: the NVMe statuses its chapters name and the Yarwell statuses of
Table 4.11 (status code type 7). -/
inductive Status where
  | success
  | invalidOpcode | invalidField | commandSequenceError | internalError | namespaceNotReady
  | abortRequested | unrecoveredRead | namespaceWriteProtected | sanitizeInProgress | dataTransferError
  | lbaOutOfRange | invalidNamespace | queueFrozenAbort | kernelFault | unitReset | memberLost | memberPaused
  | deadlineMissed | streamParked | tallyFull | penHeld | activationPending | partialResult
  | abortLimit | asyncLimit | invalidQueueId | invalidQueueSize | invalidVector | invalidQueueDeletion
  | completionQueueInvalid | invalidLogPage | invalidFormat | firmwareSlotInvalid | firmwareImageInvalid
  | firmwareProhibited | needsReset | insufficientCapacity | namespaceIdUnavailable | invalidPlacement
  | insufficientResources | programNotFound | programInvalid | overlappingRange | featureNotChangeable
  | featureNotSaveable | firmwareNeedsColdReset | sqDeleted
  deriving DecidableEq, Repr

/-- The bell sources that can be lost or qualified (Table 3.4). -/
inductive BellSource where
  | bellIn | guild
  deriving DecidableEq, Repr

/-- A flash address by its fields (Table 5.3). -/
structure FlashAddr where
  die : Nat
  plane : Nat
  block : Nat
  page : Nat
  cw : Nat
  deriving DecidableEq, Repr

/-- The level source of a READ verb (Table 5.5). -/
inductive LevelSource where
  | tracker | pin | retry (step : Nat)
  deriving DecidableEq, Repr

/-- What one source page of a PROGRAM holds: a staged indirection unit, filler that is never mapped (R137), the
parity of its stripe row (R119), a copy of the page at an old location (R148, R152), or the words of a journal or
checkpoint page (R164). -/
inductive SourcePage where
  | staged (iu : Nat)
  | filler
  | parity
  | copy (iu loc : Nat)
  | cellar (words : List Nat)
  deriving DecidableEq, Repr

/-- What the media and the decoder made of one codeword at the end of a die read. -/
inductive DecodeResult where
  | corrected (bits : Nat) | failed | erased
  deriving DecidableEq, Repr

/-- The outcome of one codeword of a die read. -/
structure CwOutcome where
  cw : Nat
  result : DecodeResult
  deriving DecidableEq, Repr

/-- The outcomes of the checks of a start (R353, R354, R386): whether the pending and the active image pass the
start checks, the part at fault, and whether the cellar, the key store and the hold-up bank pass. -/
structure BootChecks where
  pendingOk : Bool
  activeOk : Bool
  failedPart : Nat
  cellarOk : Bool
  keyStoreOk : Bool
  /-- One copy of the key store could not be read and has been rewritten (Table 17.4). -/
  keyCopyLost : Bool
  holdUpOk : Bool
  markerFound : Bool
  bootMs : Nat
  recoveryMs : Nat
  deriving DecidableEq, Repr

/-- Where the rows of a loom step go in a KV page (R182): the page, the token of the first row, the number of rows, and whether they are
value rows. -/
structure KvPut where
  page : Nat
  token : Nat
  count : Nat
  value : Bool
  deriving DecidableEq, Repr

/-- What a loom hands over when a step has drained (R171, R182): the tally index of the step's entry, and where its rows go in a KV page, if
they do. -/
structure StepEnd where
  index : Nat
  kv : Option KvPut
  deriving DecidableEq, Repr

/-- Where an erase has stopped when its suspension completes (R120, Table 5.5): the die, and the segment reached (1 to 10). -/
structure EraseStop where
  die : Nat
  segment : Nat
  deriving DecidableEq, Repr

/-- A block of one die (Table 5.3). -/
structure DieBlock where
  die : Nat
  block : Nat
  deriving DecidableEq, Repr

/-- Message type and status of a reply (Table 12.5, Table 12.7). -/
structure ReplyHead where
  kind : Nat
  status : Nat
  deriving DecidableEq, Repr

/-- A gang: a gang slot of a wright core, the core named by its unit number (Table 1.4). -/
structure GangRef where
  unit : Nat
  slot : Nat
  deriving DecidableEq, Repr

/-- The fields of an R-form instruction (Table 9.14). -/
structure RFields where
  rd : Nat
  ra : Nat
  rb : Nat
  rc : Nat
  modifier : Nat
  deriving DecidableEq, Repr

/-- The fields of an M-form instruction (Table 9.14). -/
structure MemFields where
  rd : Nat
  ra : Nat
  rb : Nat
  space : Nat
  width : Nat
  sx : Bool
  order : Nat
  offset : Int
  deriving DecidableEq, Repr

/-- The command dwords of a Sift or Guild Sift query (Table 11.8). -/
structure SiftFields where
  slot : Nat
  k : Nat
  contexts : Nat
  length : Nat
  partialOk : Bool
  deriving DecidableEq, Repr

/-- A fabric transaction header (Table 12.5). -/
structure Txn where
  port : Nat
  reply : Bool
  detour : Bool
  cls : Nat
  hops : Nat
  tryNo : Nat
  guildId : Nat
  src : Nat
  srcEpoch : Nat
  dst : Nat
  dstEpoch : Nat
  tag : Nat
  length : Nat
  addr : Nat
  bell : Nat
  group : Nat
  deriving DecidableEq, Repr

/-- A flit as its receiver meets it (Table 12.4): the header fields, whether it passed correction, whether its tag
verified, and the message it begins when it is a HEAD flit. -/
structure Flit where
  vl : Nat
  kind : Nat
  last : Bool
  seq : Nat
  ack : Nat
  cvl : Nat
  credits : Nat
  reservedOk : Bool
  corrected : Bool
  tagOk : Bool
  msg : Nat
  deriving DecidableEq, Repr

/-- An acyclic request of the side-band master (Table 13.10). -/
structure AcyReq where
  token : Nat
  index : Nat
  sub : Nat
  allsub : Bool
  force : Bool
  serial : Nat
  offset : Nat
  length : Nat
  reservedOk : Bool
  lengthOk : Bool
  data : Bytes
  deriving DecidableEq, Repr

/-- The commands of the block, one constructor for each row of spec/opcode_table.json. -/
inductive Instr where
  /-- BELL_EDGE (R65). At every bell edge the bell keeper adds 1 to the bell count, whatever the device or power state. -/
  | bellEdge (overruns : List (Nat × Nat)) (planLateNs : Nat) (bellInPs : Option Int)
  /-- CHIME_BOUNDARY (R20). At each chime boundary the drive admits new work, fetches commands, serves the steward queue and amends the plan. -/
  | chimeBoundary
  /-- HARD_OVERRUN (R74). A bell task still unfinished after the hard overrun limit of edges resets its unit and writes a sticky record. -/
  | hardOverrun (unit : Nat)
  /-- CHILD_WAIT_LIMIT (R23). A child refused at 4 × 8 consecutive chime boundaries completes its parent with Tally Full. -/
  | childWaitLimit (tag : Nat)
  /-- UNIT_REPLY (R31). A reply from a unit is applied to its entry, or is discarded and counted late if its epoch differs. -/
  | unitReply (unit epoch index : Nat) (status : Status)
  /-- WRITE_APPLY (R41). Accepted object writes are applied in service order at the next bell edge, and their completions are posted. -/
  | writeApply
  /-- OD_READ (R59). The host reads bytes of an object value from a byte offset through the tunnel. -/
  | odRead (h : HostId) (idx sub : Nat) (allsub : Bool) (off len : Nat)
  /-- OD_WRITE (R39). The host writes an object that has no behaviour of its own, checked for writer, state, pen, encoding and range. -/
  | odWrite (h : HostId) (idx sub : Nat) (allsub : Bool) (serial : Nat) (data : Bytes)
  /-- PEN_TAKE (R52). The host takes the pen, with or without FORCE, and receives a new serial. -/
  | penTake (h : HostId) (force : Bool)
  /-- PEN_GIVE (R57). The host gives back the pen with its current serial. -/
  | penGive (h : HostId) (serial : Nat)
  /-- PEN_IDLE_TIMEOUT (R55). The idle count of a held pen reaches its timeout, the pen is released and a sticky record is written. -/
  | penIdleTimeout
  /-- STATE_REQUEST_CONFIG (R47). A write of 2 to OD 0x1011 starts a drain towards CONFIG from RUN. -/
  | stateRequestConfig (v : Via)
  /-- STATE_REQUEST_RUN (R47). A write of 3 to OD 0x1011 moves the drive from CONFIG, or from a drain towards CONFIG, to RUN. -/
  | stateRequestRun (v : Via)
  /-- CONFIG_LINGER_EXPIRED (R50). The pen stays free in CONFIG for the linger time and the drive moves to RUN with cause 4. -/
  | configLingerExpired
  /-- DRAIN_COMPLETE (R48). A drain towards CONFIG ends at the first bell edge with no I/O, search, stream or fabric entry left. -/
  | drainComplete
  /-- TALLY_QUOTA_WRITE (R24). A write of a tally minimum or ceiling is refused if the minimums would exceed 131,072 or a minimum its ceiling. -/
  | tallyQuotaWrite (v : Via) (ceiling : Bool) (sub value : Nat)
  /-- BELL_PERIOD_WRITE (R66). A write of the bell period takes effect at an edge of the old period, and fails unless the membership is SOLO. -/
  | bellPeriodWrite (v : Via) (code : Nat)
  /-- SOURCE_QUALIFIED (R75). A source that has stayed qualified for the hold-off becomes selectable, and the keeper follows it if its precedence is higher. -/
  | sourceQualified (src : BellSource) (srcCount : Nat) (phaseNs : Int)
  /-- BELL_IN_FRAME (R82). A 64-bell frame of the BELL_IN code is decoded, qualifying BELL_IN or logging a frame error. -/
  | bellInFrame (count : Nat) (intervalsOk : Bool)
  /-- BELL_IN_LOST (R76). BELL_IN loses qualification after 4 missed edges, and the keeper falls back to the next selectable source or HOLDOVER. -/
  | bellInLost (overCorrection : Bool)
  /-- GUILD_SOURCE_LOST (R76). A guild source delivers no offset measurement for 64 bells and loses qualification. -/
  | guildSourceLost (overCorrection : Bool)
  /-- ALIGNMENT_LOCKED (R80). 16 consecutive measurements within the bound move the keeper from ACQUIRE to LOCKED. -/
  | alignmentLocked
  /-- ALIGNMENT_UNLOCKED (R80). 16 consecutive measurements outside the bound move the keeper from LOCKED to ACQUIRE, with a sticky record. -/
  | alignmentUnlocked
  /-- DOORBELL_WRITE (R447). The host writes a submission queue doorbell, and the command is fetched at the next chime boundary. -/
  | doorbellWrite (sq tail : Nat) (cmds : List SqCmd)
  /-- NVM_READ (R447). A Read command is looked up, its flash work placed, its data sent by DMA and its completion posted. -/
  | nvmRead (h : HostId) (slbaLow slbaHigh nlb : Nat)
  /-- NVM_WRITE (R136). A Write command stages its IUs against credit and completes once its word lines are programmed and mapped. -/
  | nvmWrite (h : HostId) (slba nlb : Nat) (pid : Option Nat) (data : List Nat)
  /-- FLUSH (R107). A Flush completes at the chime boundary after admission, since completed writes are already safe. -/
  | flush (h : HostId)
  /-- DATASET_MANAGEMENT (R157). Deallocate clears MAPPED and POISON of wholly covered IUs as a hint. -/
  | datasetManagement (h : HostId) (deallocate : Bool) (ranges : List (Nat × Nat))
  /-- FORMAT_NVM (R401). Format NVM clears the namespace's map and replaces its data key, possibly changing its LBA format. -/
  | formatNvm (h : HostId) (lbaf ses : Nat)
  /-- SANITIZE_CRYPTO_ERASE (R402). Sanitize crypto erase replaces every data key, clears the map and poison list, and releases bound streams. -/
  | sanitizeCryptoErase (h : HostId)
  /-- SANITIZE_BLOCK_ERASE (R402). Sanitize block erase does what crypto erase does and also erases every data band. -/
  | sanitizeBlockErase (h : HostId)
  /-- NAMESPACE_CREATE (R138). Namespace Management create assigns extents, clears their map entries and gives the namespace a new key. -/
  | namespaceCreate (h : HostId) (nsze ncap lbaf : Nat)
  /-- NAMESPACE_DELETE (R138). Namespace Management delete clears the entries, returns the extents, destroys the key and releases bound streams. -/
  | namespaceDelete (h : HostId)
  /-- IO_MANAGEMENT_SEND (R145). A Reclaim Unit Handle Update closes the handle's band in each named reclaim group. -/
  | ioManagementSend (h : HostId) (pids : List Nat)
  /-- IO_MANAGEMENT_RECEIVE (R141). I/O Management Receive returns the FDP reclaim unit handle status. -/
  | ioManagementReceive (h : HostId)
  /-- ABORT (R89). Abort completes a target command that is still ADMITTED or PLANNED with Command Abort Requested. -/
  | abort (h : HostId) (targetSq targetCid : Nat)
  /-- IDENTIFY (R88). Identify returns controller and namespace data, including the power state descriptors. -/
  | identify (h : HostId) (cns : Nat)
  /-- GET_FEATURES (R337). Get Features returns feature values, Power Management returning the value the host set. -/
  | getFeatures (h : HostId) (fid : Nat)
  /-- SET_FEATURES_POWER_MANAGEMENT (R337). The host requests a power state, which becomes a candidate for the target state. -/
  | setFeaturesPowerManagement (h : HostId) (ps wh : Nat)
  /-- SET_FEATURES_APST (R337). The host sets the autonomous power state transition table. -/
  | setFeaturesApst (h : HostId) (enable : Bool) (table : List (Nat × Nat))
  /-- SET_FEATURES_NOPPME (R341). The host enables or disables non-operational power state permissive mode. -/
  | setFeaturesNoppme (h : HostId) (enable : Bool)
  /-- SET_FEATURES_ARBITRATION (R92). The host sets the arbitration burst and the weighted round robin weights. -/
  | setFeaturesArbitration (h : HostId) (burst low medium high : Nat)
  /-- SET_FEATURES_FDP (R141). The host enables or disables Flexible Data Placement. -/
  | setFeaturesFdp (h : HostId) (enable : Bool)
  /-- ASYNCHRONOUS_EVENT_REQUEST (R106). The host posts a request that a pending vendor or standard asynchronous event completes. -/
  | asynchronousEventRequest (h : HostId)
  /-- CREATE_IO_SQ (R92). The host creates an I/O submission queue with its priority and bound completion queue. -/
  | createIoSq (h : HostId) (qid size prio cqid : Nat) (contiguous : Bool)
  /-- CREATE_IO_CQ (R88). The host creates an I/O completion queue with its MSI-X vector. -/
  | createIoCq (h : HostId) (qid size vector : Nat) (ien contiguous : Bool)
  /-- DELETE_IO_SQ (R105). Deleting an I/O submission queue clears its freeze state and Freeze log entry. -/
  | deleteIoSq (h : HostId) (qid : Nat)
  /-- DELETE_IO_CQ (R88). The host deletes an I/O completion queue. -/
  | deleteIoCq (h : HostId) (qid : Nat)
  /-- GET_LOG_PAGE (R445). Get Log Page returns a standard page as it stood at the last bell edge. -/
  | getLogPage (h : HostId) (lid off len : Nat) (rae : Bool)
  /-- STICKY_SUMMARY_LOG (R385). Reading log 0xC0 returns the sticky record slots and the poison list, re-arming event 0x03. -/
  | stickySummaryLog (h : HostId) (off len : Nat) (rae : Bool)
  /-- FREEZE_LOG (R445). Reading log 0xC1 returns the Freeze log header and one entry per submission queue. -/
  | freezeLog (h : HostId) (off len : Nat) (rae : Bool)
  /-- BELL_LOG (R84). Reading log 0xC2 returns the Bell log header and its ring of 256 entries. -/
  | bellLog (h : HostId) (off len : Nat) (rae : Bool)
  /-- GUILD_LOG (R312). Reading log 0xC3 returns the Guild log header and ring. -/
  | guildLog (h : HostId) (off len : Nat) (rae : Bool)
  /-- KERNEL_FAULT_LOG (R209). Reading log 0xC4 returns the Kernel Fault log header and its ring of 64 entries. -/
  | kernelFaultLog (h : HostId) (off len : Nat) (rae : Bool)
  /-- QUEUE_THAW (R104). Queue Thaw with the current freeze serial reopens a frozen queue, discarding its queued commands if DISCARD is set. -/
  | queueThaw (h : HostId) (serial sqid : Nat) (discard : Bool)
  /-- QUEUE_QUIET (R103). The last dispatched command of a draining queue completes, the queue becomes QUIET and event 0x02 is raised. -/
  | queueQuiet (sq : Nat)
  /-- QUEUE_REOPEN (R104). A Thaw that waited on a draining queue opens it at the chime boundary after the queue becomes QUIET. -/
  | queueReopen (sq : Nat)
  /-- DEADLINE_EDGE (R99). A command not completed at ADMIT + DEADLINE completes with Deadline Missed or Partial Result, and its work stops. -/
  | deadlineEdge (index : Nat)
  /-- UNIT_RESET (R100). The Unit Reset command, with the pen, resets one unit and completes once its old-epoch entries are done and it reads IDLE. -/
  | unitReset (h : HostId) (unit serial : Nat)
  /-- UNIT_IDLE (R361). A unit in reset reads IDLE again after its reset time, and the reset is recorded in OD 0x2B02. -/
  | unitIdle (unit : Nat)
  /-- SNAPSHOT_FETCH (R396). Snapshot Fetch returns bytes of the stored snapshot from a byte offset. -/
  | snapshotFetch (h : HostId) (off len : Nat)
  /-- CC_EN_CLEAR (R359). Clearing CC.EN is a controller reset that frees HOST entries and their children, deletes I/O queues and releases a host pen. -/
  | ccEnClear
  /-- CC_EN_SET (R358). Setting CC.EN makes the controller ready once the drive has reached CONFIG. -/
  | ccEnSet (ams asq acq : Nat)
  /-- FUNCTION_LEVEL_RESET (R359). A function-level reset acts as a controller reset and also resets PCIe configuration. -/
  | functionLevelReset
  /-- PERST_ASSERT (R87). PERST# asserted takes the link down and performs a controller-level reset. -/
  | perstAssert
  /-- PERST_DEASSERT (R434). PERST# deasserted lets the drive train the PCIe link. -/
  | perstDeassert (speed width : Nat)
  /-- NVME_MI_BASIC_MANAGEMENT (R88). The NVMe-MI basic management command at SMBus address 0x6A returns health data. -/
  | nvmeMiBasicManagement
  /-- HEALTH_STATUS_POLL (R88). NVMe-MI Health Status Poll over MCTP returns subsystem health. -/
  | healthStatusPoll
  /-- CONTROLLER_HEALTH_STATUS_POLL (R88). NVMe-MI Controller Health Status Poll over MCTP returns controller health. -/
  | controllerHealthStatusPoll
  /-- READ_NVME_MI_DATA_STRUCTURE (R88). NVMe-MI Read NVMe-MI Data Structure returns a management data structure. -/
  | readNvmeMiDataStructure (dtyp : Nat)
  /-- READ (R123). The sequencer verb READ senses a page, transfers the selected codewords and hard-decodes them. -/
  | read (a : FlashAddr) (mask : Nat) (level : LevelSource) (slc : Bool) (index : Nat)
  /-- READ_SOFT (R123). The sequencer verb READ_SOFT takes three senses around the tracked levels and soft-decodes. -/
  | readSoft (a : FlashAddr) (mask : Nat) (slc : Bool) (index : Nat)
  /-- READ_CANCEL (R116). The sequencer verb READ_CANCEL ends a sense within 5 µs and the READ ends CANCELLED. -/
  | readCancel (die : Nat)
  /-- PROGRAM (R449). The sequencer verb PROGRAM moves its pages over the channel and programs one word line, subject to the fence. -/
  | program (die block wl : Nat) (slc : Bool) (pages : List SourcePage)
  /-- ERASE (R116). The sequencer verb ERASE erases a block on all four planes in ten segments. -/
  | erase (die block : Nat) (slc : Bool)
  /-- ERASE_SUSPEND (R120). The sequencer verb ERASE_SUSPEND suspends an erase within 25 µs so that reads can be served. -/
  | eraseSuspend (die : Nat)
  /-- ERASE_RESUME (R120). The sequencer verb ERASE_RESUME resumes a suspended erase segment where it stopped. -/
  | eraseResume (die : Nat)
  /-- ERASE_LOCK (R121). The sequencer verb ERASE_LOCK makes the erase of a die unsuspendable until it ends. -/
  | eraseLock (die : Nat)
  /-- SET_LEVELS (R126). The sequencer verb SET_LEVELS loads read-level offsets for a group of 64 blocks. -/
  | setLevels (die group : Nat) (offsets : List Int)
  /-- SENSE_VALLEY (R126). The sequencer verb SENSE_VALLEY measures the valley around one read level. -/
  | senseValley (a : FlashAddr) (level : Nat) (sweep counts : List Int)
  /-- DIE_STATUS (R116). The sequencer verb DIE_STATUS returns the die state. -/
  | dieStatus (die : Nat)
  /-- DIE_RESET (R116). The sequencer verb DIE_RESET ends any operation on the die. -/
  | dieReset (die : Nat) (ended : Bool)
  /-- CHANNEL_TRAIN (R116). The sequencer verb CHANNEL_TRAIN trains drive strength, termination and DQ timing of a channel. -/
  | channelTrain (channel : Nat) (trained : Bool)
  /-- READ_PARAMS (R116). The sequencer verb READ_PARAMS returns the die's parameter page. -/
  | readParams (die : Nat)
  /-- DIE_READ_COMPLETE (R446). A die read ends its sense, transfer and decode, and the next rung or the result follows. -/
  | dieReadComplete (die : Nat) (outcomes : List CwOutcome)
  /-- PROGRAM_COMPLETE (R448). tPROG of a word line ends DONE or PROGRAM_FAIL, and the die becomes readable again. -/
  | programComplete (die : Nat) (ok : Bool)
  /-- ERASE_COMPLETE (R153). An erase ends DONE or ERASE_FAIL, and a failing block is retired and replaced from spares. -/
  | eraseComplete (die : Nat) (ok : Bool)
  /-- ERASE_SUSPENDED (R120). Suspension completes and the die serves the reads placed on it. -/
  | eraseSuspended (stop : EraseStop)
  /-- DIE_TIMEOUT (R115). A die busy for more than twice its operation's maximum is reset, and the verb ends DIE_TIMEOUT. -/
  | dieTimeout (die : Nat)
  /-- TRACKER_RUN (R126). The threshold tracker runs SENSE_VALLEY on a group and moves its offsets by at most 2 steps. -/
  | trackerRun (die group : Nat) (minima : List Int)
  /-- THRESHOLD_PIN_WRITE (R128). A write of the threshold pin or pinned offsets switches the levels in force and re-arms the divergence record. -/
  | thresholdPinWrite (v : Via) (idx sub : Nat) (value : Int)
  /-- DECODE_FAIL (R161). The ledger receives DECODE_FAIL, poisons the codewords, writes a sticky record and raises event 0x03. -/
  | decodeFail (unit : Nat) (a : FlashAddr)
  /-- WRITE_COMPLETE (R136). A write completes once all its word lines ended DONE and the map and journal show the new locations. -/
  | writeComplete (h : HostId)
  /-- GATHER_TIMEOUT (R137). A program slot waits the gather limit for IUs and then fills the word line with filler pages. -/
  | gatherTimeout (die : Nat)
  /-- RECLAIM_JOB (R146). Reclaim copies the valid IUs of the victim band when free bands fall below the watermarks. -/
  | reclaimJob (rg job : Nat) (dst : DieBlock)
  /-- WEAR_LEVEL_JOB (R150). A closed band whose erase count lags the group mean is reclaimed at CLASS 3. -/
  | wearLevelJob (rg : Nat)
  /-- SCRUB_PASS (R159). The scrubber reads every programmed codeword within the scrub period and triggers refreshes. -/
  | scrubPass (stripe block : Nat)
  /-- CHECKPOINT_SEGMENT (R164). The ledger rewrites dirty map segments into the cellar to keep the journal under 1 GiB. -/
  | checkpointSegment (segment : Nat)
  /-- MAIN_POWER_LOST (R166). The hold-up monitor reports main power lost and the drive saves parity, abandoned word lines and the journal tail to the cellar. -/
  | mainPowerLost (durationUs : Nat) (markerOk : Bool)
  /-- MAIN_POWER_GOOD (R431). Card-edge 12 V stays at or above 11.0 V for 10 ms, and the drive moves from OFF to BOOT. -/
  | mainPowerGood
  /-- POWER_RESTART (R436). After a save, with the rails off 20 ms, main power good and PWRDIS deasserted, the drive starts again. -/
  | powerRestart
  /-- PWRDIS_ASSERT (R435). PWRDIS held high for 5 µs acts as loss of main power, running the save and turning the rails off. -/
  | pwrdisAssert (durationUs : Nat) (markerOk : Bool)
  /-- BOOT_COMPLETE (R353). The loader finishes the journal, checks and loads an image, runs the self-check, and the drive enters CONFIG or FAULT. -/
  | bootComplete (checks : BootChecks)
  /-- LOOM_DIRECT (R187). Loom Direct checks its descriptor and multiplies host matrices over the looms, writing C after every tile drains. -/
  | loomDirect (h : HostId) (length : Nat) (desc matrices : Bytes)
  /-- LOOM_STEP_COMPLETE (R171). A loom plan step drains both accumulator sets, and its ticket or tile ends. -/
  | loomStepComplete (loom : Nat) (done : StepEnd)
  /-- LOAD_PROGRAM (R219). Load Program stores a part of a kernel package at an offset of one program index. -/
  | loadProgram (h : HostId) (pind off : Nat) (data : Bytes)
  /-- PROGRAM_ACTIVATE (R220). Program Activation Management activate checks, translates and allocates partitions for a package. -/
  | programActivate (h : HostId) (pind : Nat)
  /-- PROGRAM_DEACTIVATE (R222). Program Activation Management deactivate frees partitions when no invocation is in flight. -/
  | programDeactivate (h : HostId) (pind : Nat)
  /-- EXECUTE_PROGRAM (R229). Execute Program starts an invocation with the manifest gang count, returning results through the memory range set. -/
  | executeProgram (h : HostId) (pind ptype rsid : Nat) (data : Bytes)
  /-- MEMORY_RANGE_SET_MANAGEMENT (R230). Memory Range Set Management creates or deletes a set of up to 8 SLM ranges. -/
  | memoryRangeSetManagement (h : HostId) (create : Bool) (rsid : Nat) (ranges : List (Nat × Nat))
  /-- RUN_KERNEL (R226). Run Kernel checks its block and starts an invocation of an active program. -/
  | runKernel (h : HostId) (pind rsid gangs length : Nat) (buf : Bytes)
  /-- INVOCATION_START (R227). Once below 64 invocations and its window fits, an invocation takes and zeroes its window, copies input and reads staged LBAs. -/
  | invocationStart (inv : Nat)
  /-- GANG_PLACEMENT (R191). Waiting gangs are placed on free slots in gang-index order at the chime boundary after room frees. -/
  | gangPlacement
  /-- INVOCATION_END (R228). When every lane has exited, tickets are cancelled, output copied and Successful Completion posted. -/
  | invocationEnd (inv : Nat)
  /-- GANG_STALL (R201). A gang without progress for the stall window is faulted with STALL at the next chime boundary. -/
  | gangStall (g : GangRef)
  /-- BARRIER_TIMEOUT (R202). A barrier that waits longer than its limit faults every gang waiting at it. -/
  | barrierTimeout (inv scope ident : Nat)
  /-- GANG_FAULT (R208). A gang fault ends every gang of the invocation, writes a Kernel Fault log entry and completes the parent with Kernel Fault. -/
  | gangFault (inv : Nat)
  /-- IADD (R232). rd = ra + rb, wrapping at 32 bits. -/
  | iadd (g : GangRef) (r : RFields)
  /-- ISUB (R232). rd = ra − rb. -/
  | isub (g : GangRef) (r : RFields)
  /-- IMUL (R232). rd = low 32 bits of ra × rb. -/
  | imul (g : GangRef) (r : RFields)
  /-- IMULHI (R232). rd = high 32 bits of ra × rb, signed or unsigned. -/
  | imulhi (g : GangRef) (r : RFields)
  /-- IMAD (R232). rd = low 32 bits of ra × rb + rc. -/
  | imad (g : GangRef) (r : RFields)
  /-- IADDI (R232). rd = ra + imm32. -/
  | iaddi (g : GangRef) (rd ra imm : Nat)
  /-- AND (R232). rd = ra and rb, with rb optionally inverted. -/
  | andOp (g : GangRef) (r : RFields)
  /-- OR (R232). rd = ra or rb. -/
  | orOp (g : GangRef) (r : RFields)
  /-- XOR (R232). rd = ra xor rb. -/
  | xorOp (g : GangRef) (r : RFields)
  /-- SHL (R232). rd = ra shifted left by rb [4:0]. -/
  | shl (g : GangRef) (r : RFields)
  /-- SHR (R232). Logical right shift of ra by rb [4:0]. -/
  | shr (g : GangRef) (r : RFields)
  /-- SAR (R232). Arithmetic right shift of ra by rb [4:0]. -/
  | sar (g : GangRef) (r : RFields)
  /-- IMIN (R232). rd = the smaller of ra and rb, signed or unsigned. -/
  | imin (g : GangRef) (r : RFields)
  /-- IMAX (R232). rd = the larger of ra and rb, signed or unsigned. -/
  | imax (g : GangRef) (r : RFields)
  /-- POPC (R232). rd = number of 1 bits in ra. -/
  | popc (g : GangRef) (r : RFields)
  /-- CLZ (R232). rd = leading zero bits of ra. -/
  | clz (g : GangRef) (r : RFields)
  /-- ICMP (R232). rd = 1 if the integer comparison holds, else 0. -/
  | icmp (g : GangRef) (r : RFields)
  /-- SEL (R232). rd = rb if ra ≠ 0, else rc. -/
  | sel (g : GangRef) (r : RFields)
  /-- MOV (R232). rd = ra. -/
  | mov (g : GangRef) (r : RFields)
  /-- MOVI (R232). rd = imm32. -/
  | movi (g : GangRef) (rd imm : Nat)
  /-- BFE (R232). rd = a bit field of ra, optionally sign-extended. -/
  | bfe (g : GangRef) (r : RFields)
  /-- SREG (R232). rd = a special value such as lane, gang index or bell count. -/
  | sreg (g : GangRef) (rd imm : Nat)
  /-- FADD (R232). rd = ra + rb in FP32. -/
  | fadd (g : GangRef) (r : RFields)
  /-- FSUB (R232). rd = ra − rb in FP32. -/
  | fsub (g : GangRef) (r : RFields)
  /-- FMUL (R232). rd = ra × rb in FP32. -/
  | fmul (g : GangRef) (r : RFields)
  /-- FFMA (R232). rd = ra × rb + rc, rounded once. -/
  | ffma (g : GangRef) (r : RFields)
  /-- FMIN (R232). rd = IEEE 754-2019 minimum of ra and rb. -/
  | fmin (g : GangRef) (r : RFields)
  /-- FMAX (R232). rd = IEEE 754-2019 maximum of ra and rb. -/
  | fmax (g : GangRef) (r : RFields)
  /-- FCMP (R232). rd = 1 if the FP32 comparison holds, NaN comparing false except NE. -/
  | fcmp (g : GangRef) (r : RFields)
  /-- FRND (R232). Rounds ra to an integral FP32 in the selected mode. -/
  | frnd (g : GangRef) (r : RFields)
  /-- FCLASS (R232). rd = bit mask classifying ra. -/
  | fclass (g : GangRef) (r : RFields)
  /-- CVT (R232). Converts ra between formats with the fuller's rounding and saturation. -/
  | cvt (g : GangRef) (r : RFields)
  /-- FDIV (R232). rd = ra ÷ rb in FP32. -/
  | fdiv (g : GangRef) (r : RFields)
  /-- FSQRT (R232). rd = square root of ra. -/
  | fsqrt (g : GangRef) (r : RFields)
  /-- FRCP (R232). rd = 1 ÷ ra. -/
  | frcp (g : GangRef) (r : RFields)
  /-- FEXP2 (R232). rd = 2^ra, correctly rounded. -/
  | fexp2 (g : GangRef) (r : RFields)
  /-- FLOG2 (R232). rd = log2 ra, correctly rounded. -/
  | flog2 (g : GangRef) (r : RFields)
  /-- IDIV (R232). rd = ra ÷ rb toward zero, with defined results for division by zero. -/
  | idiv (g : GangRef) (r : RFields)
  /-- IREM (R232). rd = remainder of ra ÷ rb with the sign of ra. -/
  | irem (g : GangRef) (r : RFields)
  /-- SHFL (R232). rd = ra of a source lane chosen by the mode. -/
  | shfl (g : GangRef) (r : RFields)
  /-- VOTE (R232). rd = all, any or ballot over the active lanes of ra ≠ 0. -/
  | vote (g : GangRef) (r : RFields)
  /-- LD (R233). Loads from a memory space, zero- or sign-extending narrow loads. -/
  | ld (g : GangRef) (m : MemFields)
  /-- ST (R233). Stores rb to a memory space. -/
  | st (g : GangRef) (m : MemFields)
  /-- ATOM (R233). Atomically applies an operation to a memory word and returns the old value. -/
  | atom (g : GangRef) (m : MemFields) (op : Nat)
  /-- CAS (R203). Compare-and-swap of a memory word, lowest lane winning within an instruction. -/
  | cas (g : GangRef) (m : MemFields)
  /-- FENCE (R204). Orders the thread's earlier accesses before its later ones at CORE or KERNEL scope. -/
  | fence (g : GangRef) (scope : Nat)
  /-- BRA (R234). Jumps to the target. -/
  | bra (g : GangRef) (target : Nat)
  /-- BRZ (R234). Lanes with ra = 0 jump, pushing the reconvergence index in CONVERGE mode when lanes disagree. -/
  | brz (g : GangRef) (ra target reconv : Nat)
  /-- BRNZ (R234). Lanes with ra ≠ 0 jump, with the same divergence handling. -/
  | brnz (g : GangRef) (ra target reconv : Nat)
  /-- RECONV (R198). Marks a reconvergence point where diverged lanes rejoin. -/
  | reconv (g : GangRef)
  /-- BAR (R202). Arrives at a barrier of a scope and identifier, which completes when every participant has arrived. -/
  | bar (g : GangRef) (scope ident : Nat)
  /-- TICKET (R205). One lane submits a loom plan entry, creating an INTERNAL child and returning a ticket number. -/
  | ticket (g : GangRef) (rd ra rb : Nat)
  /-- WAIT (R206). Blocks until a ticket ends and returns its end state, releasing the number. -/
  | waitOp (g : GangRef) (rd ra : Nat)
  /-- POLL (R206). Returns a ticket's state without blocking. -/
  | pollOp (g : GangRef) (rd ra : Nat)
  /-- PULSE (R201). Records a progress event for the stall monitor. -/
  | pulse (g : GangRef)
  /-- EXIT (R228). The lane exits with the value of ra. -/
  | exitOp (g : GangRef) (ra : Nat)
  /-- TRAP (R208). Faults the gang with TRAP and the given detail. -/
  | trapOp (g : GangRef) (imm : Nat)
  /-- NOP (R231). Has no effect. -/
  | nopOp (g : GangRef)
  /-- STREAM_FEED (R245). Stream Feed admits one chunk of an OPEN stream as a Run Kernel of its program. -/
  | streamFeed (h : HostId) (sid rsid gangs length : Nat) (check : Option Nat) (buf : Bytes)
  /-- STREAM_PARK (R246). Stream Park without NOW makes the stream PARKING and evicts it once earlier chunks complete. -/
  | streamPark (h : HostId) (sid : Nat) (release save : Bool) (slba : Nat)
  /-- STREAM_PARK_NOW (R247). Stream Park with NOW stops the dispatched chunk, aborts queued chunks with Stream Parked and evicts the stream. -/
  | streamParkNow (h : HostId) (sid : Nat) (release save : Bool) (slba : Nat)
  /-- STREAM_RESUME_HOME (R249). Stream Resume HOME moves a PARKED stream to OPEN from its home. -/
  | streamResumeHome (h : HostId) (sid : Nat)
  /-- STREAM_RESUME_INIT (R249). Stream Resume INIT checks an image from the host buffer, writes it home and opens the stream. -/
  | streamResumeInit (h : HostId) (sid length : Nat) (image : Bytes)
  /-- STREAM_RESUME_LOAD (R249). Stream Resume LOAD reads an image from LBAs, checks it, writes it home and opens the stream. -/
  | streamResumeLoad (h : HostId) (sid slba nlb : Nat)
  /-- CHUNK_DISPATCH (R242). A stream's next chunk is dispatched after the previous one completes, loading records into the state store. -/
  | chunkDispatch (sid : Nat)
  /-- STREAM_EVICTION (R248). The committed records are written home, optionally saved to LBAs and the home released. -/
  | streamEviction (sid : Nat)
  /-- SLICE_SEAL (R250). At the first bell edge after a chunk's gangs exit, the sender seals its slice as STREAM messages and a SEAL. -/
  | sliceSeal (inv : Nat)
  /-- SLICE_ADMIT (R250). A sealed slice is admitted as a chunk of the target stream at chime 0 of bell n + Λ. -/
  | sliceAdmit (sid : Nat)
  /-- SIFT_QUERY (R264). Sift QUERY checks its query block and runs a FLAT, BINNED or GRAPH search on a mounted slot. -/
  | siftQuery (h : HostId) (q : SiftFields) (buf : Bytes)
  /-- SIFT_MOUNT (R256). Sift MOUNT checks an index header and copies the parts searched at random into DRAM. -/
  | siftMount (h : HostId) (slot slba : Nat) (resident : Bool)
  /-- SIFT_UNMOUNT (R257). Sift UNMOUNT frees a slot's DRAM when no search of it is in flight. -/
  | siftUnmount (h : HostId) (slot : Nat)
  /-- GUILD_SIFT (R271). Guild Sift sends a SIFT to each listed member that can reply by its reply-by bell. -/
  | guildSift (h : HostId) (q : SiftFields) (buf : Bytes)
  /-- YIELD_POINT (R255). A context reaches a yield point, where it may be ended, shelved or seized. -/
  | yieldPoint (sifter ctx : Nat)
  /-- SEARCH_FINALISE (R267). At chime 0 of the finalise bell the search stops its contexts, merges and completes before its deadline edge. -/
  | searchFinalise (search : Nat)
  /-- REPLY_BY_FINALISE (R272). A member serving a SIFT finalises at chime 0 of its reply-by bell and replies with its best k. -/
  | replyByFinalise (search : Nat)
  /-- GUILD_MERGE (R273). At chime 0 of F the originator merges the replies it holds and completes the Guild Sift. -/
  | guildMerge (search : Nat)
  /-- FLIT_RECEIVED (R279). A flit arrives and is decrypted and authenticated, returning credits and ACKs. -/
  | flitReceived (port : Nat) (f : Flit)
  /-- NAK (R283). A NAK makes a near-mode sender replay from the failed flit. -/
  | nak (port seq : Nat)
  /-- PORT_PROTECTION_DOWN (R277). More than 16 flits failing correction in a bell take the port DOWN to retrain. -/
  | portProtectionDown (port : Nat)
  /-- LINK_DOWN (R278). A link goes DOWN on loss of block lock or 64 consecutive failing flits. -/
  | linkDown (port : Nat)
  /-- ALIVE_TIMEOUT (R278). No CONTROL ALIVE on a link for 64 bells takes it DOWN. -/
  | aliveTimeout (port : Nat)
  /-- RATE_ADAPT (R277). Adaptation steps an unpinned port's rate one code slower or faster on its error rate. -/
  | rateAdapt (port ber12 : Nat)
  /-- PORT_TRAINED (R277). Lane training ends and the port moves to SECURING, or to FAILED after three failures when pinned. -/
  | portTrained (port : Nat) (ok : Bool)
  /-- RATE_PIN_WRITE (R278). A write of a port's rate pin fixes its training rate, re-arms the pin record and clears FAILED. -/
  | ratePinWrite (v : Via) (port value : Nat)
  /-- PORT_MODE_WRITE (R281). A write of a port mode sets OFF, NEAR or LONG_HAUL, taking SLM for long-haul buffers. -/
  | portModeWrite (v : Via) (port value : Nat)
  /-- WINDOW_WRITE (R296). A write of an exported window defines it, and a RING window has its head, tail and slot count set. -/
  | windowWrite (v : Via) (window : Nat) (fields : List Nat)
  /-- GET (R293). A target serves a GET against an exported window and returns the data. -/
  | getOp (x : Txn)
  /-- PUT (R294). A target lands PUT data in receive staging of its group and answers ACCEPT. -/
  | putOp (x : Txn) (data : Bytes)
  /-- SEAL (R294). A target commits a staged group whose counts match and replies OK after the commit. -/
  | sealOp (x : Txn) (messages bytes : Nat)
  /-- SEND (R296). A target deposits a message into the next free slot of a RING window. -/
  | sendOp (x : Txn) (data : Bytes)
  /-- SIFT (R272). A member serves a remote SIFT as a FABRIC entry with SEARCH children. -/
  | siftOp (x : Txn) (k index : Nat) (block : Bytes)
  /-- STREAM (R297). A target stages slice rows of a STREAM message, refusing a wrong source or a stream not OPEN. -/
  | streamOp (x : Txn) (data : Bytes)
  /-- SYNC (R299). A TIME Sync message carries t1 from the upstream neighbour. -/
  | syncOp (x : Txn) (port : Nat) (t1 t2 : Int)
  /-- DELAY_REQ (R299). A TIME Delay_Req message carries t3 to the upstream neighbour. -/
  | delayReq (x : Txn) (port : Nat) (t3 t4 : Int)
  /-- DELAY_RESP (R299). A TIME Delay_Resp returns t4, and the member computes delay and offset. -/
  | delayResp (x : Txn) (port : Nat) (t3 t4 : Int)
  /-- TIME_TRANSFER_INTERVAL (R299). Every 16 bells a member starts a time exchange with its upstream neighbour. -/
  | timeTransferInterval
  /-- CONTROL_ALIVE (R278). A CONTROL ALIVE message keeps a link from timing out. -/
  | controlAlive (port : Nat)
  /-- CONTROL_PROBE (R306). A CONTROL PROBE to a member is answered, showing that it is still present. -/
  | controlProbe (x : Txn)
  /-- CONTROL_LOST (R307). A LOST notice marks the member LOST, ends entries waiting on it and discards its staging. -/
  | controlLost (port member epoch : Nat)
  /-- CONTROL_PAUSED (R304). A PAUSED notice makes peers answer requests to the member with PAUSED until its resume bell. -/
  | controlPaused (port member epoch resume : Nat)
  /-- CONTROL_RESUMED (R304). A RESUMED notice marks the member ACTIVE again in the peer table. -/
  | controlResumed (port member epoch : Nat)
  /-- CONTROL_JOINED (R302). A JOINED notice records the member ACTIVE with its new epoch. -/
  | controlJoined (port member epoch : Nat)
  /-- CONTROL_PERIOD (R308). A PERIOD notice schedules a bell period change at the effective bell. -/
  | controlPeriod (port code bell : Nat)
  /-- CONTROL_IDENTITY (R289). The neighbour identity exchange makes the port UP or MISWIRED. -/
  | controlIdentity (port guild member epoch digest : Nat)
  /-- CONTROL_TABLE (R302). A joining member loads the peer table from a neighbour, applied once every part has arrived. -/
  | controlTable (port part : Nat) (last : Bool) (code : Nat) (entries : List (Nat × Nat × Nat × Nat))
  /-- CONTROL_DELAYS (R300). A DELAYS notice updates the link delays used to compute d. -/
  | controlDelays (port part : Nat) (last : Bool) (entries : List (Nat × Nat × Nat))
  /-- PART_SEQUENCE_TIMEOUT (R280). A multipart CONTROL sequence still incomplete 64 bells after its first part is discarded. -/
  | partSequenceTimeout (port : Nat)
  /-- TRANSACTION_REPLY (R284). An ACCEPT or final reply reaches the originator, and its status ends or holds the entry. -/
  | transactionReply (x : Txn) (head : ReplyHead) (data : Bytes)
  /-- E2E_RETRY_TIMEOUT (R284). With no reply T bells after sending, the originator resends, and after the retry limit ends the entry as lost. -/
  | e2eRetryTimeout (tag : Nat)
  /-- REPEAT_RECORD_EXPIRY (R284). A target drops its record of a request 4T bells after its final reply. -/
  | repeatRecordExpiry (source epoch tag : Nat)
  /-- DETOUR_DISCARD (R287). A detoured message waiting more than one bell for credits at a hop is discarded. -/
  | detourDiscard (port : Nat)
  /-- STAGING_TIMEOUT (R294). A staged group with no SEAL for the staging timeout is discarded. -/
  | stagingTimeout (source epoch group : Nat)
  /-- HELD_RESEND (R305). An entry HELD by a PAUSED reply is sent again at the resume bell. -/
  | heldResend (tag : Nat)
  /-- PROBE_WINDOW_EXPIRY (R306). With no probe reply by the probe window, the neighbour floods LOST for the member. -/
  | probeWindowExpiry (port : Nat)
  /-- NO_PORT_UP_EXPIRY (R307). A member with no port UP for the probe window ends its entries and joins again. -/
  | noPortUpExpiry
  /-- HOLDOVER_PAUSE (R301). An ACTIVE member in HOLDOVER for the pause limit becomes PAUSED. -/
  | holdoverPause
  /-- JOIN_COMPLETE (R302). A joining member with a port UP, alignment, tables and RUN becomes ACTIVE and floods JOINED. -/
  | joinComplete
  /-- PERIOD_CHANGE_AT_E (R308). Every member holding the PERIOD notice changes period at the edge of the effective bell. -/
  | periodChangeAtE
  /-- LEAVE_COMPLETE (R309). A LEAVING member becomes SOLO once no FABRIC entry remains. -/
  | leaveComplete
  /-- GUILD_SET_GEOMETRY (R310). Guild Control SET_GEOMETRY checks and stores the geometry and its digest. -/
  | guildSetGeometry (h : HostId) (serial length : Nat) (block : Bytes)
  /-- GUILD_JOIN (R302). Guild Control JOIN moves SOLO to JOINING and raises the membership epoch. -/
  | guildJoin (h : HostId) (serial : Nat)
  /-- GUILD_LEAVE (R309). Guild Control LEAVE floods PAUSED and moves the member to LEAVING. -/
  | guildLeave (h : HostId) (serial : Nat)
  /-- GUILD_SET_PERIOD (R308). Guild Control SET_PERIOD floods PERIOD with a new code and effective bell. -/
  | guildSetPeriod (h : HostId) (serial code bell : Nat)
  /-- GUILD_PING (R310). Guild Control PING probes a member and returns the round trip and hops. -/
  | guildPing (h : HostId) (member : Nat)
  /-- MEMORY_READ (R292). Memory Read reads SLM, or becomes GETs for a guild aperture address. -/
  | memoryRead (h : HostId) (addr len : Nat)
  /-- MEMORY_WRITE (R292). Memory Write writes SLM, or becomes PUTs and a SEAL for a guild aperture address. -/
  | memoryWrite (h : HostId) (addr : Nat) (data : Bytes)
  /-- MEMORY_COPY (R291). Memory Copy copies within SLM, or between local SLM and a remote window. -/
  | memoryCopy (h : HostId) (dst src len : Nat)
  /-- HANDOFF_HANDLE_WRITE (R297). A write of a hand-off handle names a target member and stream, taking hand-off staging while any is non-zero. -/
  | handoffHandleWrite (v : Via) (handle value : Nat)
  /-- CYC_OUT (R323). A valid CYC_OUT applies the output image, re-arms the watchdog and is answered with a CYC_IN. -/
  | cycOut (dst src cycle period : Nat) (image : Bytes)
  /-- DISCOVER (R319). A DISCOVER round makes unassigned drives answer DISCOVER_RSP in slots from their serial CRC. -/
  | discover (round slots : Nat) (all : Bool)
  /-- ASSIGN (R320). ASSIGN gives the drive with the matching serial a new address and terminator setting. -/
  | assignOp (serial : Nat) (address : Nat) (setTerm term : Bool)
  /-- ACY_OD_READ (R329). The Milny OD READ service reads an object as the host tunnel does. -/
  | acyOdRead (r : AcyReq)
  /-- ACY_OD_WRITE (R329). The Milny OD WRITE service writes an object as the host tunnel does. -/
  | acyOdWrite (r : AcyReq)
  /-- ACY_PEN_TAKE (R329). The Milny PEN TAKE service takes the pen for the side-band master. -/
  | acyPenTake (r : AcyReq)
  /-- ACY_PEN_GIVE (R329). The Milny PEN GIVE service gives the pen back. -/
  | acyPenGive (r : AcyReq)
  /-- ACY_POLL (R330). POLL returns the held answer to the request with this token, or PENDING. -/
  | acyPoll (token : Nat)
  /-- ACY_SNAPSHOT_READ (R334). SNAPSHOT READ returns bytes of the snapshot in FROZEN. -/
  | acySnapshotRead (r : AcyReq)
  /-- MILNY_WATCHDOG_EXPIRY (R327). 3.5 periods without a valid CYC_OUT set safe values, discard the held answer and release a side-band pen. -/
  | milnyWatchdogExpiry
  /-- APST_IDLE_EXPIRY (R337). An APST idle time runs out and its state becomes the host's requested state. -/
  | apstIdleExpiry
  /-- POWER_STATE_ENTRY (R338). At the first bell edge at which every entry condition holds, the drive begins the transition to its target state. -/
  | powerStateEntry
  /-- PS0_REACHED (R339). The drive reaches PS0 after its exit latency and fetches from the next chime boundary. -/
  | ps0Reached
  /-- MEDIA_CARE_WAKE (R341). A band nearing the scrub period wakes the drive from a deep state for media care. -/
  | mediaCareWake (hoursLeft : Nat)
  /-- POWER_FLOOR_WRITE (R339). A write of the deepest state permitted or memory loss permit changes the target and may wake the drive. -/
  | powerFloorWrite (v : Via) (memoryPermit : Bool) (value : Nat)
  /-- HOST_CAP_WRITE (R342). A write of the host power cap changes the effective limit and re-arms the thermal record. -/
  | hostCapWrite (v : Via) (value : Nat)
  /-- THERMAL_EVALUATION (R346). Every 25 bells the sensors are read and the composite temperature and thermal limit set. -/
  | thermalEvaluation (readings : List Int) (drawn : Nat)
  /-- REAR_12V_LOST (R349). Loss of rear 12 V drops the supply limit to 70 W and writes a sticky record. -/
  | rear12vLost
  /-- REAR_12V_RETURN (R349). Rear 12 V present for 25,000 bells restores the 130 W limit. -/
  | rear12vReturn
  /-- RESET_REQUEST_WARM (R356). A write of 1 to OD 0x2B01 orders a warm reset that keeps DRAM and parks streams. -/
  | resetRequestWarm (v : Via)
  /-- RESET_REQUEST_COLD (R352). A write of 2 to OD 0x2B01 orders a cold reset through the save. -/
  | resetRequestCold (v : Via)
  /-- RESET_REQUEST_GUILD (R365). A write of 3 to OD 0x2B01 orders a guild reset of the member. -/
  | resetRequestGuild (v : Via)
  /-- FIRMWARE_IMAGE_DOWNLOAD (R369). Firmware Image Download places a piece of an image into the download buffer. -/
  | firmwareImageDownload (h : HostId) (off : Nat) (piece : Bytes)
  /-- FIRMWARE_COMMIT_ACTION_0 (R370). Firmware Commit action 0 writes the buffer into the inactive slot. -/
  | firmwareCommitAction0 (h : HostId) (slot : Nat)
  /-- FIRMWARE_COMMIT_ACTION_1 (R370). Firmware Commit action 1 writes the buffer and marks it pending for the next reset. -/
  | firmwareCommitAction1 (h : HostId) (slot : Nat)
  /-- FIRMWARE_COMMIT_ACTION_2 (R370). Firmware Commit action 2 marks a slot's image pending for the next reset. -/
  | firmwareCommitAction2 (h : HostId) (slot : Nat)
  /-- FIRMWARE_COMMIT_ACTION_3 (R371). Firmware Commit action 3 activates the slot's image now through drain and pause. -/
  | firmwareCommitAction3 (h : HostId) (slot : Nat)
  /-- ACTIVATION_START (R371). At the first bell edge after the checks pass, the drive enters DRAIN, or PAUSED from CONFIG. -/
  | activationStart
  /-- ACTIVATION_PAUSE (R372). Two bells after the start the drive enters PAUSED and the loader swaps the parts in turn. -/
  | activationPause (failedPart : Option Nat) (pauseUs : Nat)
  /-- ACTIVATION_END (R374). The drive leaves PAUSED at the bell edge after the last step, HELD entries run on and the commit completes. -/
  | activationEnd
  /-- IMAGE_COPY_PART (R377). The loader copies one part from scratch over the active slot and journals it. -/
  | imageCopyPart
  /-- FREEZE_PIN (R391). A qualified falling edge on FREEZE# stops every clock but the always-on domain and enters FROZEN. -/
  | freezePin (lowNs : Nat)
  /-- STICKY_RECORD_CLEAR (R384). Writing true to a record slot's Uncleared bit clears that record. -/
  | stickyRecordClear (v : Via) (slot : Nat)
  /-- CLEAR_THROUGH (R384). Writing a sequence number to OD 0x5001 clears every record at or below it. -/
  | clearThrough (v : Via) (seq : Nat)
  /-- COUNTER_CLEAR (R389). Writing 0 to a Stick or Event counter zeroes it and re-arms its record. -/
  | counterClear (v : Via) (idx sub value : Nat)
  /-- DISCARD_SNAPSHOT (R395). Writing true to OD 0x7001 discards the stored snapshot. -/
  | discardSnapshot (v : Via)
  /-- MEMBER_CERTIFICATE_WRITE (R403). A member certificate write is accepted only if its signature, key and serial match. -/
  | memberCertificateWrite (v : Via) (cert : Nat)
  /-- KERNEL_KEY_WRITE (R409). A kernel signing key slot is written with a P-384 point or emptied with zeros. -/
  | kernelKeyWrite (v : Via) (slot key : Nat)
  /-- SESSION_HELLO (R404). A CONTROL SESSION HELLO carries the certificate, an ephemeral key and a random value. -/
  | sessionHello (port : Nat) (cert ephemeral random : Nat)
  /-- SESSION_PROOF (R404). A PROOF is verified, the session keys are derived and the port moves to CHECKING. -/
  | sessionProof (port signature : Nat)
  /-- SECURING_TIMEOUT (R404). Agreement not complete within 250 bells of SECURING makes the port FAILED. -/
  | securingTimeout (port : Nat)
  /-- REKEY_THRESHOLD (R407). A direction's flit counter reaching the rekey exponent starts a rekey by sending REKEY_REQ. -/
  | rekeyThreshold (port : Nat)
  /-- REKEY_REQ (R407). A received REKEY_REQ is verified, a new session derived and REKEY_RSP sent with its switch slot. -/
  | rekeyReq (port ephemeral random slot signature : Nat)
  /-- REKEY_RSP (R407). A received REKEY_RSP gives the initiator the new session and the peer's switch slot. -/
  | rekeyRsp (port ephemeral random slot signature : Nat)
  /-- REKEY_SWITCH (R407). At the announced switch slot a direction changes key and its counter restarts at 0. -/
  | rekeySwitch (port : Nat) (transmit : Bool)
  /-- REKEY_RETRY (R407). A REKEY_REQ unanswered for 25,000 bells is sent again. -/
  | rekeyRetry (port : Nat)
  /-- NONCE_HARD_STOP (R408). A counter reaching 2^52 before a rekey stops the port, which trains into a new session. -/
  | nonceHardStop (port : Nat)
  /-- ALWAYS_ON_POWER_UP (R65). The always-on domain gains power: bell 0 begins with the count at 0, the station address reads 0x7E, the terminator is off and the Milny watchdog is unarmed. -/
  | alwaysOnPowerUp
  /-- ALWAYS_ON_POWER_LOSS (R432). All three always-on sources are absent at once, so the bell count, station address, terminator, watchdog and Bell log are lost. -/
  | alwaysOnPowerLoss
  /-- UNCORRECTABLE_ERROR (R386). An uncorrectable DRAM error in the ledger reserve (fault class 3) enters FAULT, and one in the tally or loft (fault class 6) takes a warm reset, each writing record 0x1002. -/
  | uncorrectableError (cls : Nat)
  /-- INVALID_MILNY_FRAME (R316). A Milny frame with a bad start byte, a failing CRC, an excess length, a short end or an unknown type is discarded without effect and counted. -/
  | invalidMilnyFrame (frame : Bytes)
  /-- OWN_ADDRESS_FRAME (R321). A valid frame whose source is the drive's own address, not sent by the drive, sets OD 0x1104 and input-image bit [6] and writes a sticky record. -/
  | ownAddressFrame (ftype src : Nat)
  /-- FREEZE_PIN_RELEASE (R392). FREEZE# rises: OD 0x7002 reads false and the pin is armed so that its next qualified falling edge can freeze the drive. -/
  | freezePinRelease
  /-- POWER_STATE_ENTRY_COMPLETE (R338). The entry latency that began at the transition edge runs out, and the target state is in force with what Table 14.2 keeps and loses (OD 0x2A00.01). -/
  | powerStateEntryComplete
  deriving DecidableEq, Repr

end Sys2Proof
end

