-- ==== Sys2Proof/Decode.lean ====
section
/-!
DEFINITION. The command that a word spells by the bits of spec/opcode_table.json. No row of that table gives bits: the
commands of the block are requests, messages and events, not words that the block decodes.
-/

namespace Sys2Proof

/-- The command that the low `nbits` bits of `w` spell: none, since no row of the opcode table gives bits. -/
def decodeTableWord (_nbits _w : Nat) : Option Instr := none

end Sys2Proof
end

