-- ==== Sys2Proof/Config.lean ====
section
/-!
DEFINITION. What the spec leaves to an implementation or to a published standard that it does not restate: opaque
constants with no body. No proof can see what they are, so a statement that mentions one holds whatever it is.
-/

namespace Sys2Proof.Config

/-- A free value: the n-th value that the spec leaves open. `State.free` numbers them. -/
opaque freeValue : Nat → Nat

/-- SHA-384 of a byte string, as a number of 384 bits (R211, R310, R366, R404). -/
opaque sha384 : List Nat → Nat

/-- Does an ECDSA P-384 signature verify: public key, digest, signature (R218, R367, R403, R404). -/
opaque ecdsaVerifies : Nat → Nat → Nat → Bool

/-- Is the DNR bit set with a status of a type other than 7, for which the spec gives none: status code type × 256 + status
code (R101). -/
opaque dnrBit : Nat → Bool

/-- The bytes of the sealed vendor part of a snapshot (R394): number of the freeze, offset. -/
opaque sealedByte : Nat → Nat → Nat

/-- The physical register count that the translator gives a program (R190, R195, R224): package digest. -/
opaque translatedRegs : Nat → Nat

/-- Bytes that the translated image of a package takes in the kernel store (R224, Table 9.9): package digest. -/
opaque translatedBytes : Nat → Nat

/-- The parameter page of a die (READ_PARAMS): die, byte. -/
opaque paramByte : Nat → Nat → Nat

/-- The offset of a retry step from the level in use, in DAC steps, by step (1 to 8) and level (0 to 6): the table of the sequencer
parameters (R452). -/
opaque retryOffset : Nat → Nat → Int

/-- The firmware keys and the fabric public key that are set at manufacture (OD 0x2C01, OD 0x2C21): slot (0 to 3
firmware keys, 4 the fabric key). -/
opaque factoryKey : Nat → Nat

/-- Whether the link at port p of another member m is a long-haul link (1), by m × 16 + p: no notice of the spec tells it
(OD 0x2904.02). -/
opaque farLongHaul : Nat → Nat

/-- Format of the residual rows of a loom plan entry, taken modulo 7: a plan entry has no field for it (R177, Table 9.5). -/
opaque residualFormat : Nat

end Sys2Proof.Config
end

