-- ==== Sys2Proof/Machine/OdTable.lean ====
section
/-!
DEFINITION. The object dictionary's tables (R37): one row for each member, or run of members alike, of the object
tables of the spec, in rising order of index. Heads of records and arrays are not listed; R442 gives their value.
The counters of chapter 16 and their thresholds follow R388 to R390 and stand in Machine/Od.lean.
-/

namespace Sys2Proof

/-- Object types (Table 2.2). -/
inductive OdType where
  | bool | u8 | u16 | u32 | u64 | i8 | i16 | i32 | i64 | f32
  | octet (n : Nat) | text (n : Nat) | record | array
  deriving DecidableEq, Repr

/-- Access codes (Table 2.3). -/
inductive Access where
  | ro | rw | cfg | pen | w1c | wo
  deriving DecidableEq, Repr

/-- The Writers column (Table 0.5). -/
inductive Writers where
  | none | h | s | hs
  deriving DecidableEq, Repr

/-- What a written value is checked against (R11, R441): the object's range or listed values (result code 0x07), and
the reserved encodings and bits (result code 0x08). `point` is a P-384 point or zeros (R409), and `certificate` the
reserved bytes of Table 17.3. -/
inductive Check where
  | any
  | range (lo hi : Nat)
  | signed (lo hi : Int)
  | oneOf (vs : List Nat)
  | mask (bits : Nat)
  | codes (last : Nat)
  | notReserved (v : Nat)
  | point
  | certificate
  deriving DecidableEq, Repr

/-- A row of an object table: the indices and subindices it names, type, access, writers, the defaults in subindex
order (the last one repeats), the check, and whether the object exists on the M variant only. -/
structure OdRow where
  lo : Nat
  hi : Nat
  subLo : Nat
  subHi : Nat
  ty : OdType
  acc : Access
  wr : Writers
  dflt : List Nat
  chk : Check
  mOnly : Bool
  deriving DecidableEq, Repr

/-- Rows of the object tables, part 1. -/
def odRows0 : List OdRow := [
  ⟨0x1000, 0x1000, 0x00, 0x00, .text 16, .ro, .none, [0], .any, false⟩,
  ⟨0x1001, 0x1001, 0x00, 0x00, .text 16, .ro, .none, [0], .any, false⟩,
  ⟨0x1002, 0x1002, 0x00, 0x00, .text 20, .ro, .none, [0], .any, false⟩,
  ⟨0x1003, 0x1003, 0x00, 0x00, .text 4, .ro, .none, [0], .any, false⟩,
  ⟨0x1004, 0x1004, 0x01, 0x01, .u8, .ro, .none, [7], .any, false⟩,
  ⟨0x1004, 0x1004, 0x02, 0x02, .u8, .ro, .none, [2], .any, false⟩,
  ⟨0x1004, 0x1004, 0x03, 0x03, .u16, .ro, .none, [0], .any, false⟩,
  ⟨0x1005, 0x1005, 0x00, 0x00, .u8, .ro, .none, [0], .any, false⟩,
  ⟨0x1006, 0x1006, 0x00, 0x00, .u16, .ro, .none, [0], .any, false⟩,
  ⟨0x1007, 0x1007, 0x00, 0x00, .u64, .ro, .none, [0], .any, false⟩,
  ⟨0x1008, 0x1008, 0x00, 0x00, .u16, .ro, .none, [1794], .any, false⟩,
  ⟨0x1009, 0x1009, 0x00, 0x00, .u8, .ro, .none, [0], .any, false⟩,
  ⟨0x1010, 0x1010, 0x00, 0x00, .u8, .ro, .none, [1], .any, false⟩,
  ⟨0x1011, 0x1011, 0x00, 0x00, .u8, .pen, .hs, [0], .oneOf [2, 3], false⟩,
  ⟨0x1012, 0x1012, 0x00, 0x00, .u16, .cfg, .hs, [1000], .range 100 60000, false⟩,
  ⟨0x1013, 0x1013, 0x01, 0x01, .u8, .ro, .none, [0], .any, false⟩,
  ⟨0x1013, 0x1013, 0x02, 0x02, .u8, .ro, .none, [1], .any, false⟩,
  ⟨0x1013, 0x1013, 0x03, 0x03, .u8, .ro, .none, [0], .any, false⟩,
  ⟨0x1013, 0x1013, 0x04, 0x04, .u64, .ro, .none, [0], .any, false⟩,
  ⟨0x1020, 0x1020, 0x00, 0x00, .u8, .ro, .none, [0], .any, false⟩,
  ⟨0x1021, 0x1021, 0x00, 0x00, .u16, .ro, .none, [0], .any, false⟩,
  ⟨0x1022, 0x1022, 0x00, 0x00, .u32, .pen, .hs, [30000], .range 1000 600000, false⟩,
  ⟨0x1023, 0x1023, 0x00, 0x00, .u8, .cfg, .s, [2], .mask 0x3, false⟩,
  ⟨0x1024, 0x1024, 0x00, 0x00, .u32, .ro, .none, [0], .any, false⟩]

/-- Rows of the object tables, part 2. -/
def odRows1 : List OdRow := [
  ⟨0x1100, 0x1100, 0x00, 0x00, .u8, .pen, .hs, [126], .range 1 0x7E, false⟩,
  ⟨0x1101, 0x1101, 0x00, 0x00, .bool, .rw, .s, [0], .any, false⟩,
  ⟨0x1102, 0x1102, 0x01, 0x01, .u8, .ro, .none, [0], .any, false⟩,
  ⟨0x1102, 0x1102, 0x02, 0x02, .u32, .ro, .none, [0], .any, false⟩,
  ⟨0x1102, 0x1102, 0x03, 0x03, .u16, .ro, .none, [0], .any, false⟩,
  ⟨0x1102, 0x1102, 0x04, 0x04, .u64, .ro, .none, [0], .any, false⟩,
  ⟨0x1103, 0x1103, 0x00, 0x00, .octet 16, .ro, .none, [0], .any, false⟩,
  ⟨0x1104, 0x1104, 0x00, 0x00, .bool, .w1c, .hs, [0], .any, false⟩,
  ⟨0x1105, 0x1105, 0x00, 0x00, .octet 32, .ro, .none, [0], .any, false⟩,
  ⟨0x1180, 0x1180, 0x00, 0x00, .u16, .ro, .none, [4096], .any, false⟩,
  ⟨0x2000, 0x2000, 0x00, 0x00, .u64, .ro, .none, [0], .any, false⟩,
  ⟨0x2001, 0x2001, 0x00, 0x00, .u8, .cfg, .hs, [1], .codes 2, false⟩,
  ⟨0x2002, 0x2002, 0x00, 0x00, .u8, .cfg, .hs, [3], .mask 0x3, false⟩,
  ⟨0x2003, 0x2003, 0x00, 0x00, .u8, .ro, .none, [0], .any, false⟩,
  ⟨0x2004, 0x2004, 0x00, 0x00, .u8, .ro, .none, [0], .any, false⟩,
  ⟨0x2005, 0x2005, 0x00, 0x00, .u16, .cfg, .hs, [2500], .range 16 65535, false⟩,
  ⟨0x2006, 0x2006, 0x00, 0x00, .bool, .pen, .hs, [0], .any, false⟩,
  ⟨0x2007, 0x2007, 0x00, 0x00, .u16, .pen, .hs, [0], .range 0 10000, false⟩,
  ⟨0x2008, 0x2008, 0x00, 0x00, .i16, .ro, .none, [0], .any, false⟩,
  ⟨0x2009, 0x2009, 0x00, 0x00, .i32, .ro, .none, [0], .any, false⟩,
  ⟨0x200A, 0x200A, 0x00, 0x00, .i32, .ro, .none, [0], .any, false⟩,
  ⟨0x200B, 0x200B, 0x00, 0x00, .u64, .ro, .none, [0], .any, false⟩,
  ⟨0x200C, 0x200C, 0x00, 0x00, .u8, .cfg, .hs, [50], .range 1 100, false⟩,
  ⟨0x200D, 0x200D, 0x01, 0x01, .bool, .ro, .none, [0], .any, false⟩]

/-- Rows of the object tables, part 3. -/
def odRows2 : List OdRow := [
  ⟨0x200D, 0x200D, 0x02, 0x02, .u64, .ro, .none, [0], .any, false⟩,
  ⟨0x2010, 0x2010, 0x01, 0x0A, .i32, .pen, .hs, [0], .any, true⟩,
  ⟨0x2011, 0x2011, 0x01, 0x0A, .i32, .ro, .none, [0], .any, true⟩,
  ⟨0x2012, 0x2012, 0x01, 0x01, .u32, .ro, .none, [25000], .any, false⟩,
  ⟨0x2012, 0x2012, 0x02, 0x02, .u32, .ro, .none, [150000], .any, false⟩,
  ⟨0x2040, 0x2040, 0x01, 0x05, .u32, .cfg, .hs, [8192, 8192, 4096, 2048, 1024], .any, false⟩,
  ⟨0x2041, 0x2041, 0x01, 0x05, .u32, .cfg, .hs, [65536, 32768, 131072, 65536, 8192], .any, false⟩,
  ⟨0x2042, 0x2042, 0x01, 0x05, .u32, .ro, .none, [0], .any, false⟩,
  ⟨0x2042, 0x2042, 0x06, 0x06, .u32, .ro, .none, [0], .any, false⟩,
  ⟨0x2043, 0x2043, 0x00, 0x00, .u32, .ro, .none, [107520, 115712], .any, false⟩,
  ⟨0x2044, 0x2044, 0x00, 0x00, .u16, .cfg, .hs, [12500], .any, false⟩,
  ⟨0x2045, 0x2045, 0x00, 0x00, .u32, .cfg, .hs, [4096], .any, false⟩,
  ⟨0x2046, 0x2046, 0x00, 0x00, .u8, .cfg, .hs, [4], .notReserved 0, false⟩,
  ⟨0x2060, 0x2060, 0x01, 0xF6, .u8, .ro, .none, [0], .any, false⟩,
  ⟨0x2080, 0x2080, 0x00, 0x00, .u8, .ro, .none, [7], .any, false⟩,
  ⟨0x2081, 0x2081, 0x00, 0x00, .u8, .cfg, .hs, [4], .range 2 16, false⟩,
  ⟨0x2082, 0x2082, 0x01, 0x01, .u8, .ro, .none, [0], .any, false⟩,
  ⟨0x2082, 0x2082, 0x02, 0x02, .u64, .ro, .none, [0], .any, false⟩,
  ⟨0x2082, 0x2082, 0x03, 0x03, .u32, .ro, .none, [0], .any, false⟩,
  ⟨0x2101, 0x2101, 0x01, 0x01, .u8, .ro, .none, [0], .any, false⟩,
  ⟨0x2101, 0x2101, 0x02, 0x02, .u8, .ro, .none, [0], .any, false⟩,
  ⟨0x2101, 0x2101, 0x03, 0x03, .bool, .ro, .none, [0], .any, false⟩,
  ⟨0x2102, 0x2102, 0x00, 0x00, .u16, .ro, .none, [256], .any, false⟩,
  ⟨0x2103, 0x2103, 0x01, 0x01, .u8, .ro, .none, [0], .any, false⟩]

/-- Rows of the object tables, part 4. -/
def odRows3 : List OdRow := [
  ⟨0x2103, 0x2103, 0x02, 0x02, .u8, .ro, .none, [8], .any, false⟩,
  ⟨0x2103, 0x2103, 0x03, 0x05, .u8, .ro, .none, [32, 16, 4], .any, false⟩,
  ⟨0x2120, 0x2120, 0x01, 0x80, .u8, .rw, .h, [0], .mask 0x3, false⟩,
  ⟨0x2121, 0x2121, 0x01, 0x80, .u8, .ro, .none, [0], .any, false⟩,
  ⟨0x2122, 0x2122, 0x01, 0x80, .u16, .ro, .none, [0], .any, false⟩,
  ⟨0x2140, 0x2140, 0x00, 0x00, .u8, .rw, .h, [63], .mask 0x3F, false⟩,
  ⟨0x2200, 0x2200, 0x01, 0x01, .u8, .ro, .none, [32], .any, false⟩,
  ⟨0x2200, 0x2200, 0x02, 0x02, .u8, .ro, .none, [0], .any, false⟩,
  ⟨0x2200, 0x2200, 0x03, 0x03, .u8, .ro, .none, [4], .any, false⟩,
  ⟨0x2200, 0x2200, 0x04, 0x04, .u16, .ro, .none, [1840], .any, false⟩,
  ⟨0x2200, 0x2200, 0x05, 0x05, .u16, .ro, .none, [2304], .any, false⟩,
  ⟨0x2200, 0x2200, 0x06, 0x06, .u32, .ro, .none, [16384], .any, false⟩,
  ⟨0x2200, 0x2200, 0x07, 0x07, .u16, .ro, .none, [2048], .any, false⟩,
  ⟨0x2201, 0x2201, 0x01, 0x09, .u32, .ro, .none, [45, 20, 900, 550, 25, 50, 5, 2, 10], .any, false⟩,
  ⟨0x2202, 0x2202, 0x00, 0x00, .u8, .ro, .none, [64], .any, false⟩,
  ⟨0x2203, 0x2203, 0x00, 0x00, .u8, .ro, .none, [0], .any, false⟩,
  ⟨0x2205, 0x2205, 0x00, 0x00, .u8, .cfg, .hs, [0], .range 0 3, false⟩,
  ⟨0x2206, 0x2206, 0x00, 0x00, .u8, .ro, .none, [2], .any, false⟩,
  ⟨0x2207, 0x2207, 0x00, 0x00, .u8, .ro, .none, [8], .any, false⟩,
  ⟨0x2210, 0x2210, 0x00, 0x00, .u8, .pen, .hs, [0], .oneOf [0, 1], false⟩,
  ⟨0x2211, 0x2211, 0x01, 0x07, .i8, .pen, .hs, [0], .signed (-64) 63, false⟩,
  ⟨0x2212, 0x2212, 0x00, 0x00, .u32, .cfg, .hs, [250000], .range 2500 25000000, false⟩,
  ⟨0x2213, 0x2213, 0x00, 0x00, .u8, .pen, .hs, [4], .range 1 64, false⟩,
  ⟨0x2214, 0x2214, 0x00, 0x00, .u8, .ro, .none, [0], .any, false⟩]

/-- Rows of the object tables, part 5. -/
def odRows4 : List OdRow := [
  ⟨0x2220, 0x2220, 0x01, 0x80, .octet 8, .ro, .none, [0], .any, false⟩,
  ⟨0x2221, 0x2221, 0x01, 0x80, .octet 8, .ro, .none, [0], .any, false⟩,
  ⟨0x2300, 0x2300, 0x01, 0x01, .u32, .ro, .none, [16384], .any, false⟩,
  ⟨0x2300, 0x2300, 0x02, 0x02, .u64, .ro, .none, [0], .any, false⟩,
  ⟨0x2300, 0x2300, 0x03, 0x03, .u32, .ro, .none, [0], .any, false⟩,
  ⟨0x2300, 0x2300, 0x04, 0x04, .u8, .ro, .none, [0], .any, false⟩,
  ⟨0x2300, 0x2300, 0x05, 0x05, .u16, .ro, .none, [291], .any, false⟩,
  ⟨0x2300, 0x2300, 0x06, 0x06, .u32, .ro, .none, [0], .any, false⟩,
  ⟨0x2301, 0x2301, 0x01, 0x01, .u16, .cfg, .hs, [96], .any, false⟩,
  ⟨0x2301, 0x2301, 0x02, 0x02, .u16, .cfg, .hs, [48], .any, false⟩,
  ⟨0x2301, 0x2301, 0x03, 0x03, .u16, .cfg, .hs, [16], .any, false⟩,
  ⟨0x2302, 0x2302, 0x01, 0x08, .u32, .ro, .none, [0], .any, false⟩,
  ⟨0x2303, 0x2303, 0x01, 0x08, .u16, .ro, .none, [0], .any, false⟩,
  ⟨0x2304, 0x2304, 0x01, 0x08, .u32, .ro, .none, [0], .any, false⟩,
  ⟨0x2305, 0x2305, 0x00, 0x00, .u8, .ro, .none, [0], .any, false⟩,
  ⟨0x2306, 0x2306, 0x00, 0x00, .u32, .ro, .none, [0], .any, false⟩,
  ⟨0x2307, 0x2307, 0x00, 0x00, .u8, .cfg, .hs, [2], .range 0 25, false⟩,
  ⟨0x2308, 0x2308, 0x00, 0x00, .u32, .ro, .none, [262144], .any, false⟩,
  ⟨0x2310, 0x2310, 0x00, 0x00, .u16, .cfg, .hs, [336], .range 24 336, false⟩,
  ⟨0x2311, 0x2311, 0x01, 0x01, .u64, .ro, .none, [0], .any, false⟩,
  ⟨0x2311, 0x2311, 0x02, 0x02, .u32, .ro, .none, [0], .any, false⟩,
  ⟨0x2312, 0x2312, 0x00, 0x00, .u8, .cfg, .hs, [75], .range 50 95, false⟩,
  ⟨0x2320, 0x2320, 0x01, 0x01, .u64, .ro, .none, [0], .any, false⟩,
  ⟨0x2320, 0x2320, 0x02, 0x02, .u32, .ro, .none, [0], .any, false⟩]

/-- Rows of the object tables, part 6. -/
def odRows5 : List OdRow := [
  ⟨0x2320, 0x2320, 0x03, 0x03, .u64, .ro, .none, [0], .any, false⟩,
  ⟨0x2320, 0x2320, 0x04, 0x04, .u64, .ro, .none, [0], .any, false⟩,
  ⟨0x2330, 0x2330, 0x01, 0x01, .u32, .ro, .none, [0], .any, false⟩,
  ⟨0x2330, 0x2330, 0x02, 0x02, .u32, .ro, .none, [0], .any, false⟩,
  ⟨0x2330, 0x2330, 0x03, 0x03, .u8, .ro, .none, [8], .any, false⟩,
  ⟨0x2330, 0x2330, 0x04, 0x04, .bool, .ro, .none, [0], .any, false⟩,
  ⟨0x2340, 0x2340, 0x01, 0x01, .u16, .cfg, .hs, [500], .range 50 3000, false⟩,
  ⟨0x2340, 0x2340, 0x02, 0x02, .u16, .cfg, .hs, [200], .range 20 1000, false⟩,
  ⟨0x2341, 0x2341, 0x01, 0x08, .u32, .ro, .none, [0], .any, false⟩,
  ⟨0x2342, 0x2342, 0x00, 0x00, .u32, .ro, .none, [0], .any, false⟩,
  ⟨0x2350, 0x2350, 0x01, 0x01, .u32, .ro, .none, [0], .any, false⟩,
  ⟨0x2350, 0x2350, 0x02, 0x02, .u64, .ro, .none, [0], .any, false⟩,
  ⟨0x2350, 0x2350, 0x03, 0x03, .u32, .ro, .none, [0], .any, false⟩,
  ⟨0x2360, 0x2360, 0x01, 0x01, .u64, .ro, .none, [0], .any, false⟩,
  ⟨0x2360, 0x2360, 0x02, 0x02, .u32, .ro, .none, [0], .any, false⟩,
  ⟨0x2360, 0x2360, 0x03, 0x03, .u32, .ro, .none, [0], .any, false⟩,
  ⟨0x2360, 0x2360, 0x04, 0x04, .u8, .ro, .none, [0], .any, false⟩,
  ⟨0x2400, 0x2400, 0x01, 0x01, .u8, .ro, .none, [16], .any, false⟩,
  ⟨0x2400, 0x2400, 0x02, 0x02, .u8, .ro, .none, [64], .any, false⟩,
  ⟨0x2400, 0x2400, 0x03, 0x03, .u32, .ro, .none, [262144], .any, false⟩,
  ⟨0x2400, 0x2400, 0x04, 0x04, .u16, .ro, .none, [128], .any, false⟩,
  ⟨0x2400, 0x2400, 0x05, 0x05, .u8, .ro, .none, [64], .any, false⟩,
  ⟨0x2400, 0x2400, 0x06, 0x06, .u8, .ro, .none, [12], .any, false⟩,
  ⟨0x2400, 0x2400, 0x07, 0x07, .u16, .ro, .none, [0], .any, false⟩]

/-- Rows of the object tables, part 7. -/
def odRows6 : List OdRow := [
  ⟨0x2401, 0x2401, 0x01, 0x05, .u16, .ro, .none, [4096, 8192, 4096, 4096, 1024], .any, false⟩,
  ⟨0x2402, 0x2402, 0x00, 0x00, .u8, .cfg, .hs, [8], .range 1 8, false⟩,
  ⟨0x2403, 0x2403, 0x00, 0x00, .bool, .cfg, .hs, [1], .any, false⟩,
  ⟨0x2404, 0x2404, 0x01, 0x01, .u8, .ro, .none, [4], .any, false⟩,
  ⟨0x2404, 0x2404, 0x02, 0x02, .u16, .ro, .none, [4096], .any, false⟩,
  ⟨0x2404, 0x2404, 0x03, 0x03, .u8, .ro, .none, [2], .any, false⟩,
  ⟨0x2404, 0x2404, 0x04, 0x04, .u8, .ro, .none, [16], .any, false⟩,
  ⟨0x2500, 0x2500, 0x01, 0x01, .u8, .ro, .none, [48], .any, false⟩,
  ⟨0x2500, 0x2500, 0x02, 0x02, .u8, .ro, .none, [16], .any, false⟩,
  ⟨0x2500, 0x2500, 0x03, 0x03, .u8, .ro, .none, [32], .any, false⟩,
  ⟨0x2500, 0x2500, 0x04, 0x04, .u16, .ro, .none, [2048], .any, false⟩,
  ⟨0x2500, 0x2500, 0x05, 0x05, .u32, .ro, .none, [65536], .any, false⟩,
  ⟨0x2500, 0x2500, 0x06, 0x06, .u8, .ro, .none, [8], .any, false⟩,
  ⟨0x2501, 0x2501, 0x00, 0x00, .u8, .cfg, .hs, [1], .range 1 16, false⟩,
  ⟨0x2502, 0x2502, 0x00, 0x00, .u16, .cfg, .hs, [250], .range 25 65535, false⟩,
  ⟨0x2503, 0x2503, 0x00, 0x00, .u8, .cfg, .hs, [2], .range 0 8, false⟩,
  ⟨0x2504, 0x2504, 0x00, 0x00, .u8, .ro, .none, [8], .any, false⟩,
  ⟨0x2505, 0x2505, 0x00, 0x00, .u16, .ro, .none, [256], .any, false⟩,
  ⟨0x2506, 0x2506, 0x00, 0x00, .u8, .ro, .none, [4], .any, false⟩,
  ⟨0x2600, 0x2600, 0x01, 0x01, .u8, .ro, .none, [32], .any, false⟩,
  ⟨0x2600, 0x2600, 0x02, 0x02, .u32, .ro, .none, [67108864], .any, false⟩,
  ⟨0x2600, 0x2600, 0x03, 0x03, .u32, .ro, .none, [262144], .any, false⟩,
  ⟨0x2600, 0x2600, 0x04, 0x04, .u16, .ro, .none, [4096], .any, false⟩,
  ⟨0x2600, 0x2600, 0x05, 0x05, .u32, .ro, .none, [65536], .any, false⟩]

/-- Rows of the object tables, part 8. -/
def odRows7 : List OdRow := [
  ⟨0x2600, 0x2600, 0x06, 0x06, .u8, .ro, .none, [64], .any, false⟩,
  ⟨0x2600, 0x2600, 0x07, 0x07, .u32, .ro, .none, [33554432], .any, false⟩,
  ⟨0x2600, 0x2600, 0x08, 0x08, .u64, .ro, .none, [4294967296], .any, false⟩,
  ⟨0x2601, 0x2601, 0x00, 0x00, .u8, .ro, .none, [192], .any, false⟩,
  ⟨0x2602, 0x2602, 0x00, 0x00, .bool, .cfg, .hs, [0], .any, false⟩,
  ⟨0x2610, 0x2610, 0x01, 0x20, .u8, .ro, .none, [0], .any, false⟩,
  ⟨0x2611, 0x2611, 0x01, 0x20, .u16, .ro, .none, [0], .any, false⟩,
  ⟨0x2612, 0x2612, 0x01, 0x20, .u8, .ro, .none, [0], .any, false⟩,
  ⟨0x2613, 0x2613, 0x01, 0x01, .u8, .ro, .none, [0], .any, false⟩,
  ⟨0x2613, 0x2613, 0x02, 0x02, .u8, .ro, .none, [0], .any, false⟩,
  ⟨0x2613, 0x2613, 0x03, 0x03, .u32, .ro, .none, [0], .any, false⟩,
  ⟨0x2614, 0x2614, 0x00, 0x00, .u64, .ro, .none, [0], .any, false⟩,
  ⟨0x2615, 0x2615, 0x01, 0x20, .octet 48, .ro, .none, [0], .any, false⟩,
  ⟨0x2700, 0x2700, 0x01, 0x01, .u32, .ro, .none, [65536], .any, false⟩,
  ⟨0x2700, 0x2700, 0x02, 0x02, .u16, .ro, .none, [4096], .any, false⟩,
  ⟨0x2700, 0x2700, 0x03, 0x03, .u16, .ro, .none, [2048], .any, false⟩,
  ⟨0x2700, 0x2700, 0x04, 0x04, .u16, .ro, .none, [8192], .any, false⟩,
  ⟨0x2700, 0x2700, 0x05, 0x05, .u64, .ro, .none, [34359738368], .any, false⟩,
  ⟨0x2701, 0x2701, 0x01, 0x01, .u32, .ro, .none, [0], .any, false⟩,
  ⟨0x2701, 0x2701, 0x02, 0x02, .u32, .ro, .none, [0], .any, false⟩,
  ⟨0x2701, 0x2701, 0x03, 0x03, .u16, .ro, .none, [0], .any, false⟩,
  ⟨0x2701, 0x2701, 0x04, 0x04, .u64, .ro, .none, [0], .any, false⟩,
  ⟨0x2710, 0x2710, 0x01, 0x01, .u16, .rw, .h, [0], .any, false⟩,
  ⟨0x2710, 0x2710, 0x02, 0x02, .u16, .rw, .s, [0], .any, false⟩]

/-- Rows of the object tables, part 9. -/
def odRows8 : List OdRow := [
  ⟨0x2711, 0x2711, 0x01, 0x01, .u8, .ro, .none, [0], .any, false⟩,
  ⟨0x2711, 0x2711, 0x02, 0x02, .u16, .ro, .none, [0], .any, false⟩,
  ⟨0x2711, 0x2711, 0x03, 0x03, .u8, .ro, .none, [0], .any, false⟩,
  ⟨0x2711, 0x2711, 0x04, 0x04, .u32, .ro, .none, [0], .any, false⟩,
  ⟨0x2711, 0x2711, 0x05, 0x05, .bool, .ro, .none, [0], .any, false⟩,
  ⟨0x2711, 0x2711, 0x06, 0x06, .u32, .ro, .none, [0], .any, false⟩,
  ⟨0x2711, 0x2711, 0x07, 0x07, .u32, .ro, .none, [0], .any, false⟩,
  ⟨0x2711, 0x2711, 0x08, 0x08, .u32, .ro, .none, [0], .any, false⟩,
  ⟨0x2712, 0x2712, 0x01, 0x01, .u8, .ro, .none, [0], .any, false⟩,
  ⟨0x2712, 0x2712, 0x02, 0x02, .u16, .ro, .none, [0], .any, false⟩,
  ⟨0x2712, 0x2712, 0x03, 0x03, .u8, .ro, .none, [0], .any, false⟩,
  ⟨0x2712, 0x2712, 0x04, 0x04, .u32, .ro, .none, [0], .any, false⟩,
  ⟨0x2712, 0x2712, 0x05, 0x05, .bool, .ro, .none, [0], .any, false⟩,
  ⟨0x2712, 0x2712, 0x06, 0x06, .u32, .ro, .none, [0], .any, false⟩,
  ⟨0x2712, 0x2712, 0x07, 0x07, .u32, .ro, .none, [0], .any, false⟩,
  ⟨0x2712, 0x2712, 0x08, 0x08, .u32, .ro, .none, [0], .any, false⟩,
  ⟨0x2800, 0x2800, 0x01, 0x01, .u8, .ro, .none, [128], .any, false⟩,
  ⟨0x2800, 0x2800, 0x02, 0x02, .u16, .ro, .none, [1024], .any, false⟩,
  ⟨0x2800, 0x2800, 0x03, 0x03, .u8, .ro, .none, [64], .any, false⟩,
  ⟨0x2800, 0x2800, 0x04, 0x04, .u8, .ro, .none, [16], .any, false⟩,
  ⟨0x2800, 0x2800, 0x05, 0x05, .u16, .ro, .none, [4096], .any, false⟩,
  ⟨0x2800, 0x2800, 0x06, 0x06, .u16, .ro, .none, [1024], .any, false⟩,
  ⟨0x2801, 0x2801, 0x00, 0x00, .u16, .cfg, .hs, [64], .range 1 1024, false⟩,
  ⟨0x2802, 0x2802, 0x00, 0x00, .u64, .cfg, .hs, [68719476736], .range 0 111669149696, false⟩]

/-- Rows of the object tables, part 10. -/
def odRows9 : List OdRow := [
  ⟨0x2803, 0x2803, 0x00, 0x00, .u64, .ro, .none, [2147483648], .any, false⟩,
  ⟨0x2804, 0x2804, 0x00, 0x00, .u16, .ro, .none, [2048], .any, false⟩,
  ⟨0x2810, 0x2810, 0x00, 0x00, .u16, .cfg, .hs, [16], .range 1 1024, false⟩,
  ⟨0x2820, 0x2820, 0x01, 0x10, .u8, .ro, .none, [0], .any, false⟩,
  ⟨0x2821, 0x2821, 0x01, 0x10, .u64, .ro, .none, [0], .any, false⟩,
  ⟨0x2822, 0x2822, 0x01, 0x10, .u32, .ro, .none, [0], .any, false⟩,
  ⟨0x2823, 0x2823, 0x01, 0x10, .u64, .ro, .none, [0], .any, false⟩,
  ⟨0x2824, 0x2824, 0x01, 0x10, .u8, .ro, .none, [0], .any, false⟩,
  ⟨0x2825, 0x2825, 0x01, 0x10, .u16, .ro, .none, [0], .any, false⟩,
  ⟨0x2830, 0x2830, 0x01, 0x01, .u32, .ro, .none, [0], .any, false⟩,
  ⟨0x2830, 0x2830, 0x02, 0x02, .u32, .ro, .none, [0], .any, false⟩,
  ⟨0x2830, 0x2830, 0x03, 0x03, .u32, .ro, .none, [0], .any, false⟩,
  ⟨0x2830, 0x2830, 0x04, 0x04, .u64, .ro, .none, [0], .any, false⟩,
  ⟨0x2900, 0x2900, 0x01, 0x01, .u32, .ro, .none, [0], .any, true⟩,
  ⟨0x2900, 0x2900, 0x02, 0x02, .u32, .ro, .none, [0], .any, true⟩,
  ⟨0x2900, 0x2900, 0x03, 0x07, .u8, .ro, .none, [1], .any, true⟩,
  ⟨0x2900, 0x2900, 0x08, 0x08, .u8, .ro, .none, [0], .any, true⟩,
  ⟨0x2900, 0x2900, 0x09, 0x09, .u8, .ro, .none, [0], .any, true⟩,
  ⟨0x2900, 0x2900, 0x0A, 0x0A, .u32, .ro, .none, [1], .any, true⟩,
  ⟨0x2900, 0x2900, 0x0B, 0x0B, .u8, .ro, .none, [0], .any, true⟩,
  ⟨0x2900, 0x2900, 0x0C, 0x0C, .octet 8, .ro, .none, [0], .any, true⟩,
  ⟨0x2901, 0x2901, 0x01, 0x10, .u32, .ro, .none, [0], .any, true⟩,
  ⟨0x2902, 0x2902, 0x01, 0x01, .u8, .cfg, .hs, [4], .range 2 64, true⟩,
  ⟨0x2902, 0x2902, 0x02, 0x02, .u8, .cfg, .hs, [3], .range 1 15, true⟩]

/-- Rows of the object tables, part 11. -/
def odRows10 : List OdRow := [
  ⟨0x2902, 0x2902, 0x03, 0x03, .u16, .cfg, .hs, [25000], .any, true⟩,
  ⟨0x2902, 0x2902, 0x04, 0x04, .u32, .cfg, .hs, [25000], .any, true⟩,
  ⟨0x2902, 0x2902, 0x05, 0x05, .u8, .cfg, .hs, [16], .range 1 160, true⟩,
  ⟨0x2902, 0x2902, 0x06, 0x06, .u32, .pen, .hs, [0], .any, true⟩,
  ⟨0x2902, 0x2902, 0x07, 0x07, .u16, .cfg, .hs, [3100], .any, true⟩,
  ⟨0x2902, 0x2902, 0x08, 0x08, .u32, .cfg, .hs, [25000], .any, true⟩,
  ⟨0x2903, 0x2903, 0x01, 0x01, .u32, .rw, .h, [0], .any, true⟩,
  ⟨0x2903, 0x2903, 0x02, 0x02, .u32, .rw, .s, [0], .any, true⟩,
  ⟨0x2904, 0x2904, 0x01, 0x01, .u16, .ro, .none, [0], .any, true⟩,
  ⟨0x2904, 0x2904, 0x02, 0x02, .u8, .ro, .none, [0], .any, true⟩,
  ⟨0x2904, 0x2904, 0x03, 0x03, .u32, .ro, .none, [0], .any, true⟩,
  ⟨0x2904, 0x2904, 0x04, 0x04, .u8, .ro, .none, [0], .any, true⟩,
  ⟨0x2904, 0x2904, 0x05, 0x05, .u8, .ro, .none, [0], .any, true⟩,
  ⟨0x2904, 0x2904, 0x06, 0x06, .u64, .ro, .none, [0], .any, true⟩,
  ⟨0x2905, 0x2905, 0x01, 0x01, .u16, .ro, .none, [0], .any, true⟩,
  ⟨0x2905, 0x2905, 0x02, 0x02, .u8, .ro, .none, [0], .any, true⟩,
  ⟨0x2905, 0x2905, 0x03, 0x03, .u32, .ro, .none, [0], .any, true⟩,
  ⟨0x2905, 0x2905, 0x04, 0x04, .u8, .ro, .none, [0], .any, true⟩,
  ⟨0x2905, 0x2905, 0x05, 0x05, .u8, .ro, .none, [0], .any, true⟩,
  ⟨0x2905, 0x2905, 0x06, 0x06, .u64, .ro, .none, [0], .any, true⟩,
  ⟨0x2910, 0x2910, 0x01, 0x0A, .u8, .cfg, .hs, [1], .range 0 2, true⟩,
  ⟨0x2911, 0x2911, 0x01, 0x0A, .u8, .pen, .hs, [0], .range 0 3, true⟩,
  ⟨0x2912, 0x2912, 0x01, 0x0A, .u8, .ro, .none, [0], .any, true⟩,
  ⟨0x2913, 0x2913, 0x01, 0x0A, .u8, .ro, .none, [0], .any, true⟩]

/-- Rows of the object tables, part 12. -/
def odRows11 : List OdRow := [
  ⟨0x2914, 0x2914, 0x01, 0x0A, .u32, .ro, .none, [0], .any, true⟩,
  ⟨0x2915, 0x2915, 0x01, 0x0A, .u32, .ro, .none, [0], .any, true⟩,
  ⟨0x2916, 0x2916, 0x00, 0x00, .u8, .ro, .none, [0], .any, true⟩,
  ⟨0x2920, 0x2920, 0x01, 0xFF, .u64, .cfg, .hs, [0], .mask 0x1FFFF0000FFFF, true⟩,
  ⟨0x2940, 0x294F, 0x01, 0x01, .u8, .cfg, .hs, [0], .range 0 3, true⟩,
  ⟨0x2940, 0x294F, 0x02, 0x02, .u8, .cfg, .hs, [0], .mask 0x3, true⟩,
  ⟨0x2940, 0x294F, 0x03, 0x03, .u32, .cfg, .hs, [0], .any, true⟩,
  ⟨0x2940, 0x294F, 0x04, 0x04, .u64, .cfg, .hs, [0], .any, true⟩,
  ⟨0x2940, 0x294F, 0x05, 0x05, .u64, .cfg, .hs, [0], .range 4096 4398046511104, true⟩,
  ⟨0x2A00, 0x2A00, 0x01, 0x01, .u8, .ro, .none, [0], .any, false⟩,
  ⟨0x2A00, 0x2A00, 0x02, 0x02, .u8, .ro, .none, [0], .any, false⟩,
  ⟨0x2A00, 0x2A00, 0x03, 0x03, .u8, .ro, .none, [0], .any, false⟩,
  ⟨0x2A01, 0x2A01, 0x01, 0x01, .u16, .ro, .none, [1000], .any, false⟩,
  ⟨0x2A02, 0x2A02, 0x01, 0x01, .u16, .pen, .h, [0], .any, false⟩,
  ⟨0x2A02, 0x2A02, 0x02, 0x02, .u16, .ro, .none, [0], .any, false⟩,
  ⟨0x2A03, 0x2A03, 0x00, 0x00, .u16, .ro, .none, [0], .any, false⟩,
  ⟨0x2A04, 0x2A04, 0x00, 0x00, .u8, .ro, .none, [0], .any, false⟩,
  ⟨0x2A05, 0x2A05, 0x00, 0x00, .bool, .ro, .none, [0], .any, false⟩,
  ⟨0x2A06, 0x2A06, 0x00, 0x00, .u16, .ro, .none, [0], .any, false⟩,
  ⟨0x2A10, 0x2A10, 0x00, 0x00, .u8, .pen, .hs, [5], .range 0 5, false⟩,
  ⟨0x2A11, 0x2A11, 0x00, 0x00, .bool, .cfg, .hs, [0], .any, false⟩,
  ⟨0x2A20, 0x2A20, 0x01, 0x0E, .i8, .ro, .none, [0], .any, false⟩,
  ⟨0x2A21, 0x2A21, 0x00, 0x00, .i8, .ro, .none, [0], .any, false⟩,
  ⟨0x2A22, 0x2A22, 0x00, 0x00, .u16, .ro, .none, [0], .any, false⟩]

/-- Rows of the object tables, part 13. -/
def odRows12 : List OdRow := [
  ⟨0x2A23, 0x2A23, 0x00, 0x00, .u8, .ro, .none, [0], .any, false⟩,
  ⟨0x2B00, 0x2B00, 0x01, 0x01, .u8, .ro, .none, [1], .any, false⟩,
  ⟨0x2B00, 0x2B00, 0x02, 0x02, .u8, .ro, .none, [0], .any, false⟩,
  ⟨0x2B00, 0x2B00, 0x03, 0x03, .u64, .ro, .none, [0], .any, false⟩,
  ⟨0x2B00, 0x2B00, 0x04, 0x04, .u32, .ro, .none, [0], .any, false⟩,
  ⟨0x2B01, 0x2B01, 0x00, 0x00, .u8, .pen, .hs, [0], .oneOf [1, 2, 3], false⟩,
  ⟨0x2B02, 0x2B02, 0x01, 0x01, .u8, .ro, .none, [0], .any, false⟩,
  ⟨0x2B02, 0x2B02, 0x02, 0x02, .u8, .ro, .none, [0], .any, false⟩,
  ⟨0x2B02, 0x2B02, 0x03, 0x03, .u64, .ro, .none, [0], .any, false⟩,
  ⟨0x2B10, 0x2B10, 0x01, 0x01, .u8, .ro, .none, [0], .any, false⟩,
  ⟨0x2B10, 0x2B10, 0x02, 0x02, .u8, .ro, .none, [0], .any, false⟩,
  ⟨0x2B10, 0x2B10, 0x03, 0x03, .u8, .ro, .none, [0], .any, false⟩,
  ⟨0x2B11, 0x2B11, 0x01, 0x02, .u32, .ro, .none, [0], .any, false⟩,
  ⟨0x2B12, 0x2B12, 0x01, 0x02, .u8, .ro, .none, [0], .any, false⟩,
  ⟨0x2B13, 0x2B13, 0x01, 0x08, .u16, .ro, .none, [0], .any, false⟩,
  ⟨0x2B14, 0x2B14, 0x01, 0x08, .u16, .ro, .none, [0], .any, false⟩,
  ⟨0x2B20, 0x2B20, 0x01, 0x01, .u8, .ro, .none, [0], .any, false⟩,
  ⟨0x2B20, 0x2B20, 0x02, 0x02, .u8, .ro, .none, [0], .any, false⟩,
  ⟨0x2B20, 0x2B20, 0x03, 0x03, .u8, .ro, .none, [0], .any, false⟩,
  ⟨0x2B20, 0x2B20, 0x04, 0x04, .u64, .ro, .none, [0], .any, false⟩,
  ⟨0x2B20, 0x2B20, 0x05, 0x05, .u32, .ro, .none, [0], .any, false⟩,
  ⟨0x2B21, 0x2B21, 0x00, 0x00, .u8, .ro, .none, [0], .any, false⟩,
  ⟨0x2C00, 0x2C00, 0x01, 0x01, .u8, .ro, .none, [0], .any, false⟩,
  ⟨0x2C00, 0x2C00, 0x02, 0x02, .u32, .ro, .none, [0], .any, false⟩]

/-- Rows of the object tables, part 14. -/
def odRows13 : List OdRow := [
  ⟨0x2C01, 0x2C01, 0x01, 0x04, .octet 97, .ro, .none, [0], .any, false⟩,
  ⟨0x2C02, 0x2C02, 0x01, 0x08, .octet 97, .cfg, .hs, [0], .point, false⟩,
  ⟨0x2C10, 0x2C10, 0x01, 0x40, .u32, .ro, .none, [0], .any, false⟩,
  ⟨0x2C20, 0x2C20, 0x00, 0x00, .octet 97, .cfg, .s, [0], .point, true⟩,
  ⟨0x2C21, 0x2C21, 0x00, 0x00, .octet 97, .ro, .none, [0], .any, true⟩,
  ⟨0x2C22, 0x2C22, 0x00, 0x00, .octet 256, .cfg, .hs, [0], .certificate, true⟩,
  ⟨0x2C23, 0x2C23, 0x00, 0x00, .u32, .cfg, .s, [0], .any, true⟩,
  ⟨0x2C24, 0x2C24, 0x00, 0x00, .u8, .cfg, .hs, [48], .range 32 48, true⟩,
  ⟨0x2C30, 0x2C30, 0x01, 0x0A, .u32, .ro, .none, [0], .any, true⟩,
  ⟨0x2C31, 0x2C31, 0x01, 0x0A, .u64, .ro, .none, [0], .any, true⟩,
  ⟨0x2C32, 0x2C32, 0x01, 0x0A, .u8, .ro, .none, [0], .any, true⟩,
  ⟨0x3000, 0x30F5, 0x01, 0x01, .u8, .ro, .none, [1], .any, false⟩,
  ⟨0x3000, 0x30F5, 0x02, 0x02, .u32, .ro, .none, [0], .any, false⟩,
  ⟨0x31C8, 0x31E7, 0x01, 0x01, .u8, .ro, .none, [0], .any, false⟩,
  ⟨0x31C8, 0x31E7, 0x02, 0x02, .u8, .ro, .none, [0], .any, false⟩,
  ⟨0x31C8, 0x31E7, 0x03, 0x03, .u8, .ro, .none, [0], .any, false⟩,
  ⟨0x31C8, 0x31E7, 0x04, 0x04, .u8, .ro, .none, [0], .any, false⟩,
  ⟨0x3208, 0x3217, 0x01, 0x01, .u8, .ro, .none, [0], .any, false⟩,
  ⟨0x3208, 0x3217, 0x02, 0x02, .u32, .ro, .none, [0], .any, false⟩,
  ⟨0x3208, 0x3217, 0x03, 0x03, .u32, .ro, .none, [0], .any, false⟩,
  ⟨0x3318, 0x3347, 0x01, 0x01, .u8, .ro, .none, [0], .any, false⟩,
  ⟨0x3318, 0x3347, 0x02, 0x02, .u8, .ro, .none, [0], .any, false⟩,
  ⟨0x3318, 0x3347, 0x03, 0x03, .u16, .ro, .none, [2048], .any, false⟩,
  ⟨0x3318, 0x3347, 0x04, 0x04, .u32, .ro, .none, [65536], .any, false⟩]

/-- Rows of the object tables, part 15. -/
def odRows14 : List OdRow := [
  ⟨0x3448, 0x34C7, 0x01, 0x01, .u16, .ro, .none, [0], .any, false⟩,
  ⟨0x3448, 0x34C7, 0x02, 0x02, .u16, .ro, .none, [0], .any, false⟩,
  ⟨0x5000, 0x5000, 0x01, 0x01, .u64, .ro, .none, [0], .any, false⟩,
  ⟨0x5000, 0x5000, 0x02, 0x02, .u16, .ro, .none, [0], .any, false⟩,
  ⟨0x5000, 0x5000, 0x03, 0x03, .u16, .ro, .none, [0], .any, false⟩,
  ⟨0x5000, 0x5000, 0x04, 0x04, .u32, .ro, .none, [0], .any, false⟩,
  ⟨0x5000, 0x5000, 0x05, 0x05, .u16, .ro, .none, [0], .any, false⟩,
  ⟨0x5000, 0x5000, 0x06, 0x06, .u64, .ro, .none, [0], .any, false⟩,
  ⟨0x5001, 0x5001, 0x00, 0x00, .u64, .wo, .hs, [0], .any, false⟩,
  ⟨0x5100, 0x53FF, 0x01, 0x01, .bool, .w1c, .hs, [0], .any, false⟩,
  ⟨0x5100, 0x53FF, 0x02, 0x02, .octet 64, .ro, .none, [0], .any, false⟩,
  ⟨0x7000, 0x7000, 0x01, 0x01, .bool, .ro, .none, [0], .any, false⟩,
  ⟨0x7000, 0x7000, 0x02, 0x02, .u32, .ro, .none, [0], .any, false⟩,
  ⟨0x7000, 0x7000, 0x03, 0x03, .u64, .ro, .none, [0], .any, false⟩,
  ⟨0x7000, 0x7000, 0x04, 0x04, .u8, .ro, .none, [0], .any, false⟩,
  ⟨0x7001, 0x7001, 0x00, 0x00, .bool, .wo, .hs, [0], .any, false⟩,
  ⟨0x7002, 0x7002, 0x00, 0x00, .bool, .ro, .none, [0], .any, false⟩]

/-- The object tables of the spec. -/
def odTable : List OdRow :=
  odRows0 ++ odRows1 ++ odRows2 ++ odRows3 ++ odRows4 ++ odRows5 ++ odRows6 ++ odRows7 ++ odRows8 ++ odRows9 ++ odRows10 ++ odRows11 ++ odRows12 ++ odRows13 ++ odRows14

end Sys2Proof
end

