-- ==== Sys2Proof/Machine/StateCore.lean ====
section
/-!
DEFINITION. The state records of the tally, the object dictionary, the pen, the bell, the host side, the sticky
store, the counters and the snapshot (chapters 1 to 4 and 16).
Everything is plain data. Sparse tables are lists of (key, value) pairs with rising keys; a key that is not listed
reads as the table's default.
-/

namespace Sys2Proof.Machine

/-- A sparse table: (key, value) pairs, keys rising. -/
abbrev Table (α : Type) := List (Nat × α)

/-- Tally kinds (Table 1.6). -/
inductive Kind where
  | host | fabric | search | stream | internal
  deriving DecidableEq, Repr

/-- Entry states (Table 1.8). A FREE entry is one that the tally does not list. -/
inductive EState where
  | admitted | planned | running | waiting | replying | held
  deriving DecidableEq, Repr

/-- ORIGIN of a tally entry, by kind (Table 1.9). -/
inductive Origin where
  | host (sq cid : Nat)
  | fabric (peer tag : Nat)
  | search (sifter ctx parent : Nat)
  | stream (sid seq : Nat)
  | internal (job tag : Nat)
  deriving DecidableEq, Repr

/-- The kind that an origin belongs to. -/
def Origin.kind : Origin → Kind
  | .host _ _ => .host
  | .fabric _ _ => .fabric
  | .search _ _ _ => .search
  | .stream _ _ => .stream
  | .internal _ _ => .internal

/-- A tally entry that is not FREE (Table 1.7, R19). `admitBell` is the whole bell count at admission, of which the
layout shows bits [23:0]. `parent` is the parent's tally index (R18). `dispatched` says that the entry or a child of
it has been RUNNING (R103). `notReady` marks an I/O command fetched in CONFIG or in a drain towards CONFIG (R108).
`unlisted` is the status of a command that the drive does not list (R88). `since` is the bell at which the present wait of the entry
began, `no` the number of a HOST entry's command in
order of fetching, `uid` the number of the entry in order of admission, and `admitChime` the chime boundary that admitted it. -/
structure Entry where
  origin : Origin
  no : Nat
  uid : Nat
  admitChime : Nat
  cls : Nat
  state : EState
  ordered : Bool
  promoted : Bool
  unit : Nat
  epoch : Nat
  age : Nat
  deadline : Nat
  admitBell : Nat
  parent : Option Nat
  dispatched : Bool
  notReady : Bool
  unlisted : Option Status
  since : Nat
  deriving DecidableEq, Repr

/-- A request waiting for admission (R20 to R23): what its entry will hold, and at how many consecutive chime
boundaries it has been refused. -/
structure Request where
  origin : Origin
  no : Nat
  cls : Nat
  unit : Nat
  parent : Option Nat
  deadline : Nat
  ordered : Bool
  notReady : Bool
  refusals : Nat
  unlisted : Option Status
  deriving DecidableEq, Repr

/-- The tally (R18 to R31) and the requests that wait for it, in order of arrival. `issued` numbers the admissions. -/
structure Tally where
  entries : Table Entry
  waiting : List Request
  issued : Nat
  deriving DecidableEq, Repr

/-- Unit states (OD 0x3000+u.01, Table 2.13). -/
inductive UState where
  | off | idle | busy | reset | fault
  deriving DecidableEq, Repr

/-- A unit of Table 1.4: its epoch (R29), its state, how many consecutive bell edges its bell task has crossed
(R73, R74), and, while it is in RESET, the epoch before that reset and the Unit Reset commands that wait for it. -/
structure UnitSt where
  epoch : Nat
  state : UState
  crossed : Nat
  withdrawn : Bool
  epochBefore : Nat
  resetWaiters : List (Nat × Nat)
  deriving DecidableEq, Repr

/-- Device states (Table 2.5). -/
inductive DevState where
  | off | boot | config | run | drain | paused | frozen | fault
  deriving DecidableEq, Repr

/-- The device state machine (R45 to R50): the state, the last transition (OD 0x1013), the edge at which the last
transition at a bell edge was made (R46), whether the drain is an activation drain, the bell at which the drain
started, and the µs that the pen has been free in CONFIG; `lingerFresh` says that this count began in the course of the
present bell, whose rest it does not count. `faultDue` says that a fault class has been detected whose transition into FAULT
waits for a bell edge (R46). `movedAt` and `drainBell` count bell edges since power-up. -/
structure Device where
  state : DevState
  lastFrom : Nat
  lastTo : Nat
  lastCause : Nat
  lastBell : Nat
  movedAt : Option Nat
  drainForActivation : Bool
  drainBell : Nat
  lingerUs : Nat
  lingerFresh : Bool
  faultDue : Bool
  deriving DecidableEq, Repr

/-- The pen (R52 to R57). `idleFresh` says that the idle count began in the course of the present bell. -/
structure Pen where
  holder : Option Master
  serial : Nat
  idleUs : Nat
  idleFresh : Bool
  deriving DecidableEq, Repr

/-- A request that the steward serves (R43). -/
inductive StewOp where
  | read (idx sub : Nat) (allsub : Bool) (off len : Nat)
  | write (idx sub : Nat) (allsub : Bool) (data : Bytes)
  | take (force : Bool)
  | give
  deriving DecidableEq, Repr

/-- A steward request in the queue, with the master it came from and the serial it carries, and the chime boundary at which it
arrives, counted since power-up (R43). -/
structure StewReq where
  via : Via
  op : StewOp
  arrival : Nat
  deriving DecidableEq, Repr

/-- A write that the steward has accepted and that waits for the bell edge that applies it (R41): the object members
to write, in order, who gets the answer, and the bell in which it was accepted. `mute` says that a controller-level reset has deleted
the queue that carried it: it is applied and not answered. -/
structure Accepted where
  via : Via
  idx : Nat
  values : List (Nat × Nat)
  len : Nat
  ty : Nat
  bell : Nat
  mute : Bool
  deriving DecidableEq, Repr

/-- The steward: its request queue in order of arrival, the requests it has served since the last chime boundary,
the accepted writes, and the tunnel requests that an activation pause holds (R61). -/
structure Steward where
  queue : List StewReq
  served : Nat
  accepted : List Accepted
  held : List StewReq
  deriving DecidableEq, Repr

/-- One entry of the Bell log (Table 3.9). The sequence number of an entry is its place in the list of all entries
written since power-up (R84). -/
structure BellLogEntry where
  bell : Nat
  code : Nat
  unit : Nat
  old : Nat
  new : Nat
  detail : Int
  deriving DecidableEq, Repr

/-- A bell source as the keeper judges it (R75, R76): whether it is qualified and for how many bells. -/
structure SourceSt where
  qualified : Bool
  bells : Nat
  deriving DecidableEq, Repr

/-- Alignment states (Table 3.5). -/
inductive Align where
  | free | acquire | locked | holdover
  deriving DecidableEq, Repr

/-- The bell keeper and planner (chapter 3). `chime` is the number of the next chime boundary of this bell, 8 when
all are past. `ticks` is the model's own count of the bell edges since power-up, which no step of the bell count moves, and `edgeNs` the time of
the last of them in ns since power-up. `slewPs` is the phase that the keeper still has to slew, in ps, and `step` a step that the present bell
is stretched for: the ns by which it is longer and the count that its end loads (R77). `bellInGood` says that the intervals of the last
BELL_IN frame were within their bound. `log` holds the newest 256 Bell log entries, oldest first, and `logWritten` all entries ever written. -/
structure Bell where
  count : Nat
  ticks : Nat
  edgeNs : Nat
  chime : Nat
  followed : Nat
  align : Align
  inBound : Nat
  outBound : Nat
  hadSource : Bool
  trim : Int
  trimPending : Option Int
  freq : Int
  phase : Int
  slewPs : Int
  step : Option (Nat × Nat)
  holdover : Nat
  bellIn : SourceSt
  bellInLast : Option Nat
  bellInGood : Bool
  bellInCount : Nat
  bellInAhead : Int
  guild : SourceSt
  guildSince : Nat
  overUnit : Nat
  overBell : Nat
  overLate : Nat
  log : List BellLogEntry
  logWritten : Nat
  deriving DecidableEq, Repr

/-- Queue freeze states (Table 4.12). -/
inductive FreezeSt where
  | opened | draining | quiet
  deriving DecidableEq, Repr

/-- The Freeze log entry of one queue (Table 4.14), apart from its SQID and state. -/
structure FreezeEntry where
  policy : Nat
  serial : Nat
  cid : Nat
  code : Nat
  sct : Nat
  head : Nat
  aborted : Nat
  outstanding : Nat
  failures : Nat
  bell : Nat
  quietBell : Nat
  entry : Nat
  deriving DecidableEq, Repr

/-- A Queue Thaw that waits for its queue to be QUIET, or for the next chime boundary (R104). -/
structure Thaw where
  sq : Nat
  cid : Nat
  discard : Bool
  deriving DecidableEq, Repr

/-- An I/O or admin submission queue. `slots` are the commands between head and tail, oldest first. `justOpened` is
true from the opening of a thawed queue until the next chime boundary (R104). `deleting` is the identifier of the Delete I/O
Submission Queue command that waits for the dispatched commands of the queue (R105). -/
structure Sq where
  size : Nat
  head : Nat
  tail : Nat
  prio : Nat
  cq : Nat
  slots : List SqCmd
  freeze : FreezeSt
  serial : Nat
  log : Option FreezeEntry
  thaws : List Thaw
  justOpened : Bool
  deleting : Option Nat
  deriving DecidableEq, Repr

/-- A completion queue. -/
structure Cq where
  size : Nat
  vector : Nat
  ien : Bool
  head : Nat
  tail : Nat
  deriving DecidableEq, Repr

/-- A command that has ended and whose completion is posted at a chime boundary (R447): its queue and identifier, its HOST entry, which is
REPLYING until then (131,072, which is no tally index, where it never had one), its status and result, and the data that goes to host
memory. `dma` says that the data's DMA has still to run: it starts at the next chime boundary, and the completion is posted one boundary
later. -/
structure Posting where
  sq : Nat
  cid : Nat
  entry : Nat
  st : Status
  dw0 : Nat
  dw1 : Nat
  data : List Nat
  dma : Bool
  deriving DecidableEq, Repr

/-- The NVMe controller and the PCIe link (chapter 4). `posting` are the completions that wait for their boundary, in the order in which
the commands ended, and `stopping` the dispatched entries that a controller-level reset stops at the next boundary (Table 4.17). `rr`
holds, for each arbitration round (0 urgent, 1 high, 2 medium, 3 low), the queue that was served last. `warning` is the SMART/Health
critical warning byte, `warnUs` and `critUs` the time in µs at or above the warning and the critical composite temperature (R345). -/
structure HostSide where
  perst : Bool
  speed : Nat
  width : Nat
  flit : Bool
  en : Bool
  rdy : Bool
  ams : Nat
  burst : Nat
  wHigh : Nat
  wMed : Nat
  wLow : Nat
  enClearDeferred : Bool
  sqs : Table Sq
  cqs : Table Cq
  rr : Table Nat
  fetchNo : Nat
  posting : List Posting
  stopping : List Nat
  aers : List Nat
  pendingEvents : List Nat
  masked : List Nat
  warning : Nat
  warnUs : Nat
  critUs : Nat
  deriving DecidableEq, Repr

/-- A sticky record (Table 16.2). `hasEntry` says that detail A is a tally entry, `hasAddr` that detail B is a flash
address. -/
structure Record where
  seq : Nat
  bell : Nat
  code : Nat
  winner : Nat
  loser : Nat
  unit : Option Nat
  hasEntry : Bool
  hasAddr : Bool
  a : Nat
  b : Nat
  c : Nat
  fw : Nat
  deriving DecidableEq, Repr

/-- One slot of the sticky store (R383, R384). -/
structure StickySlot where
  record : Record
  cleared : Bool
  deriving DecidableEq, Repr

/-- The sticky store (R383, R453): the slots, the number of records ever written, the lost records, the records
raised since the last chime boundary, and the records held by the always-on domain in FROZEN. -/
structure Sticky where
  slots : Table StickySlot
  written : Nat
  lost : Nat
  lostCode : Nat
  lostBell : Nat
  pending : List Record
  heldFrozen : List Record
  deriving DecidableEq, Repr

/-- A snapshot (R393): its documented bytes as pieces (offset, bytes), every other byte of them 0. The sealed vendor part is
opaque (R394). -/
structure SnapCopy where
  bell : Nat
  chime : Nat
  cause : Nat
  devBefore : Nat
  body : List (Nat × Bytes)
  deriving DecidableEq, Repr

/-- The freeze (chapter 16): the snapshot of the present freeze, the stored snapshot, and the FREEZE# pin. -/
structure Freeze where
  live : Option SnapCopy
  stored : Option SnapCopy
  pinLow : Bool
  armed : Bool
  deriving DecidableEq, Repr

/-- What leaves the block at its edges. The list of outputs is the model's own record of what the drive sent. -/
inductive Out where
  | completion (sq cid : Nat) (st : Status) (dnr : Bool) (dw0 dw1 sqhd : Nat)
  | msix (vector : Nat)
  | toHost (sq cid : Nat) (data : List Nat)
  | event (cid info page sqhd : Nat)
  | milny (data : List Nat)
  | milnyAt (slot : Nat) (data : List Nat)
  | fabric (port : Nat) (x : Txn) (kind status : Nat) (data : List Nat)
  | nak (port seq : Nat)
  | flits (port slots ack : Nat) (credits : List Nat)
  | bellOut (symbol : Nat)
  | mi (data : List Nat)
  | die (die verb code : Nat) (data : List Nat)
  | pin (name level : Nat)
  deriving DecidableEq, Repr

/-- What the drive is: its part and what the part fixes (Table 0.2, Table 2.12). `meshed` is the M variant. -/
structure Ident where
  meshed : Bool
  dies : Nat
  serialNo : Nat
  patch : Nat
  deriving DecidableEq, Repr

end Sys2Proof.Machine
end

