-- ==== Sys2Proof/Machine/StateFlash.lean ====
section
/-!
DEFINITION. The state records of the flash array and of the ledger (chapters 5 and 6).
-/

namespace Sys2Proof.Machine

/-- Die states (Table 5.6). -/
inductive DieSt where
  | idle | sensing | programming | erasing | suspended | lockedErase
  deriving DecidableEq, Repr

/-- A die read in progress (READ, READ_SOFT): the page, the codewords wanted, the rung's step (0 the first read, 1 to 8 the retry
steps, 9 the soft read), the tally entry that reads, and the seven level offsets that it started with (R127, R452). `crossing` says that
its sense has ended: what follows is the transfer, which is never cut (R446). -/
structure DieRead where
  addr : FlashAddr
  mask : Nat
  soft : Bool
  step : Nat
  slc : Bool
  entry : Nat
  levels : List Int
  crossing : Bool
  deriving DecidableEq, Repr

/-- A program in progress (PROGRAM): block, word line, source pages, its tally entry (R448), and how many of the pages have crossed the
channel; tPROG begins with the last (R449). -/
structure DieProgram where
  block : Nat
  wl : Nat
  slc : Bool
  pages : List SourcePage
  entry : Nat
  crossed : Nat
  deriving DecidableEq, Repr

/-- An erase in progress or suspended (R118, R120, R121): block, segment reached (1 to 10), suspensions counted,
whether ERASE_LOCK has been accepted while suspended, and the ns that it has run before its last suspension. -/
structure DieErase where
  block : Nat
  slc : Bool
  segment : Nat
  suspensions : Nat
  lockPending : Bool
  spentNs : Nat
  deriving DecidableEq, Repr

/-- A program or an erase that the call gate has accepted and that waits for its tally entry and a chime boundary (R20, R68). -/
inductive Pending where
  | program (p : DieProgram)
  | erase (e : DieErase)
  deriving DecidableEq, Repr

/-- A die (R112, R115 to R121): its state, the operations on it and the one that waits, when its operation began and when its
reservation ends, both in ns since power-up, whether a suspension is asked for, and the bell of its last tracker run. `placed` is the
entry whose read, program or erase is placed on the die in this bell, `plan` the one that the plan for the next bell has there (R70,
R71). -/
structure Die where
  st : DieSt
  read : Option DieRead
  program : Option DieProgram
  erase : Option DieErase
  pending : Option Pending
  suspendAsked : Bool
  sinceNs : Nat
  endNs : Nat
  placed : Option Nat
  plan : Option Nat
  trackedBell : Nat
  deriving DecidableEq, Repr

/-- Where the ladder of a codeword stands: it waits for its die, reads, waits for a rebuild alone, or is exhausted, so that DECODE_FAIL
goes to the ledger (R123). -/
inductive LadderSt where
  | waiting | reading | rebuilding | failed
  deriving DecidableEq, Repr

/-- The recovery ladder (R123, Table 5.8) of one codeword for the tally entry that reads it, or for an entry with a read job. `step` is
that of the next or present read, `rebuildLeft` the siblings still to come while a rebuild runs, `around` says that this rebuild goes
around an unreadable die (R124), `spent` that the read of the present step has failed, `counted` that the read has been counted as one
beyond the urgent bound (R125). `lost` are the stripe positions whose own failure made the rebuild fail (R161). -/
structure Ladder where
  entry : Nat
  addr : FlashAddr
  slc : Bool
  urgent : Bool
  st : LadderSt
  step : Nat
  rebuildLeft : Option Nat
  rebuildTried : Bool
  around : Bool
  spent : Bool
  counted : Bool
  lost : List Nat
  deriving DecidableEq, Repr

/-- What a read of flash is for: the data of a host read (R447), the staged read of an invocation (R227), a GET (R293), the load of a
stream image (R249), the check or copy of a Mount (R256), the codewords that a context waits for (R255), the old codewords of a merge
(R134), the copies of a reclaim job (R148), or the scrub of a band (R159). -/
inductive ReadUse where
  | host
  | staged (inv : Nat)
  | get
  | load (sid : Nat)
  | mount (slot : Nat)
  | context
  | merge (iu : Nat)
  | copy (band : Nat)
  | scrub (band : Nat)
  deriving DecidableEq, Repr

/-- A codeword that a read job still waits for: its place in the job, its page and its number in the page. -/
structure Want where
  place : Nat
  loc : Nat
  cw : Nat
  deriving DecidableEq, Repr

/-- A read of flash (R123, R447): the entry that it is for, its data units, the codewords still wanted, the pages of them that no entry
reads yet, what has come, by place, and the places that are lost. It goes on at a chime boundary once nothing is wanted. -/
structure ReadJob where
  entry : Nat
  use : ReadUse
  nsid : Nat
  units : List Nat
  wants : List Want
  pages : List Nat
  got : Table Nat
  lost : List Nat
  deriving DecidableEq, Repr

/-- Ledger metadata of a codeword (R131): the owning namespace, the LBA and the write sequence. -/
structure CwMeta where
  nsid : Nat
  lba : Nat
  seq : Nat
  deriving DecidableEq, Repr

/-- What is written on one flash page (R122, R130): its four codewords with their metadata, and the IU and key generation that it holds.
The codewords stand for the ciphertext together with the namespace key generation that opens it; the parity bytes of the code are a
function of the rest. -/
structure FlashPage where
  cws : List Nat
  info : List CwMeta
  iu : Option Nat
  gen : Nat
  deriving DecidableEq, Repr

/-- The flash array. Levels and proposals are keyed by die × 32 + group, the pages by the location field of a map
entry (Table 6.2). `meanBits` holds, by die and group, the
reads of the present window of 256 and the sum of their corrected bits, and `hot` the groups whose last full window was above the limit
(R126). -/
structure Flash where
  dies : Table Die
  pages : Table FlashPage
  levels : Table (List Int)
  proposals : Table (List Int)
  meanBits : Table (Nat × Nat)
  hot : List Nat
  trained : List Nat
  ladders : List Ladder
  jobs : List ReadJob
  pinRecordArmed : Bool
  pinWriter : Nat
  deriving DecidableEq, Repr

/-- A map entry (Table 6.2). -/
structure MapEntry where
  poison : Nat
  mapped : Bool
  loc : Nat
  deriving DecidableEq, Repr

/-- A namespace (R138): its format, size in LBAs, the map extents it owns in order, and its key generation (R398). -/
structure Namespace where
  lbaf : Nat
  nsze : Nat
  extents : List Nat
  gen : Nat
  deriving DecidableEq, Repr

/-- The state of a band (R140 to R155). -/
inductive BandSt where
  | free | open | parked | closed | retired
  deriving DecidableEq, Repr

/-- A band: its state, the handle it takes host data from (none for a reclaim band), the valid IUs in it, its mean
erase count, the word lines programmed on all its dies, whether a program failure or a save closed
it (R148), whether it is to be refreshed (R160) or levelled (R150), what it becomes once its word-line group is filled (R144, R145), the
stripe positions whose die block is to be retired (R152, R154), those still to be erased, the codewords of it that needed rung 3
per position, the bell of its last write, and the blocks that stand in for retired blocks. -/
structure Band where
  st : BandSt
  handle : Option Nat
  valid : Nat
  erases : Nat
  pagesWritten : Nat
  closedFirst : Bool
  refresh : Bool
  level : Bool
  fillTo : Option BandSt
  retireAt : List Nat
  erasing : List Nat
  rung3 : Table (List Nat)
  lastWrite : Nat
  standIn : Table Nat
  deriving DecidableEq, Repr

/-- A staged IU of a host write (R134 to R137): the IU, its four new codewords with their metadata, the writing entry, the handle and the
group it goes to, its place in the order of dispatch, and the die on whose word line it has been placed, if any. -/
structure Staged where
  iu : Nat
  cws : List Nat
  info : List CwMeta
  poison : Nat
  entry : Nat
  nsid : Nat
  gen : Nat
  handle : Nat
  rg : Nat
  seq : Nat
  placed : Option Nat
  deriving DecidableEq, Repr

/-- A write in the ledger (R136, R147): its tally entry, the (handle, reclaim group) pair it goes to, its namespace, its place in the order
of dispatch (R135), and its IUs that are not staged yet: IU, new codewords, mask of the codewords that the write covers. -/
structure WriteJob where
  entry : Nat
  handle : Nat
  rg : Nat
  nsid : Nat
  seq : Nat
  waiting : List (Nat × List Nat × Nat)
  deriving DecidableEq, Repr

/-- A page that a reclaim job has read (R148): the IU, the place it was copied from, the page, the job's entry, and the die on whose word
line it has been placed, if any. -/
structure Copied where
  iu : Nat
  loc : Nat
  page : FlashPage
  entry : Nat
  placed : Option Nat
  deriving DecidableEq, Repr

/-- A job of the ledger on a band (R146, R150, R159, R160): its INTERNAL job type (1 reclaim, 2 refresh, 3 scrub, 4 wear levelling), its
entry once it is admitted, and the band. -/
structure CareJob where
  job : Nat
  entry : Option Nat
  band : Nat
  deriving DecidableEq, Repr

/-- A reclaim group (R140, R146, R147): its write credit as an exact fraction. -/
structure Group where
  credit : Rat
  deriving DecidableEq, Repr

/-- FDP events (R143, R145). -/
structure FdpEvent where
  code : Nat
  bell : Nat
  handle : Nat
  rg : Nat
  deriving DecidableEq, Repr

/-- A map change in the journal (R164). -/
structure JournalRec where
  iu : Nat
  entry : MapEntry
  deriving DecidableEq, Repr

/-- A word line that a save wrote to the cellar (R166): the band, and the pages with the IUs and the POISON bits that they bring. -/
structure SavedLine where
  band : Nat
  die : Nat
  wl : Nat
  pages : List (Nat × FlashPage × Nat)
  deriving DecidableEq, Repr

/-- The ledger (chapter 6). The map is keyed by IU index, bands by stripe × 2048 + block. `openRows` are the
locations whose pages the ledger still keeps in DRAM (R119), `gatherFrom` the bell at which each die's program slot
opened (R137), `spares` the spare blocks that each die has left, and `rowClass` the lowest class and the PROMOTED bit among the
programs of the data pages of a word-line group whose parity is not programmed (R448), by band × 1024 + word line; `allErases` counts the
block-erase sanitizes, each of which erased every data band once. `writeNo` numbers the writes in order of dispatch (R135). `checkpoint`
is the map as its segments stand in the cellar, `journal` the changes since, oldest first, and `tail` how many of them the cellar does
not hold yet (R164). `scrubbed` are the bands of the present scrub cycle that have been read (R159), `saved` the word lines, and
`eraseLater` the die blocks whose erase was abandoned, as a save left them (R166). -/
structure Ledger where
  map : Table MapEntry
  nss : Table Namespace
  bands : Table Band
  groups : Table Group
  staged : List Staged
  writes : List WriteJob
  writeNo : Nat
  copies : List Copied
  care : List CareJob
  openRows : List Nat
  gatherFrom : Table Nat
  rowClass : Table (Nat × Bool)
  spares : Table (List Nat)
  dieBlocksRetired : Nat
  bandsRetired : Nat
  readOnly : Bool
  fdp : Bool
  fdpEvents : List FdpEvent
  allErases : Nat
  wearArmed : Bool
  dirty : List Nat
  checkpoint : Table MapEntry
  journal : List JournalRec
  tail : Nat
  scrubStart : Nat
  scrubbed : List Nat
  poisonNsid : Nat
  poisonLba : Nat
  poisonBell : Nat
  recoveryMs : Nat
  saved : List SavedLine
  eraseLater : List (Nat × Nat)
  saveBell : Nat
  saveLines : Nat
  saveUs : Nat
  saveResult : Nat
  deriving DecidableEq, Repr

end Sys2Proof.Machine
end

