-- ==== Sys2Proof/Machine/StateCompute.lean ====
section
/-!
DEFINITION. The state records of the looms, the wright cores, the kernel packages, the streams and the sifters
(chapters 7 to 11).
-/

namespace Sys2Proof.Machine

/-- A byte-addressed memory: (address, byte) pairs, addresses rising, no entry of value 0. A byte that is not listed
reads 0. -/
abbrev Mem := List (Nat × Byte)

/-- What a loom plan step runs (R171): one output tile of a Loom Direct, or the plan entry of a ticket. -/
inductive StepKind where
  | direct (tile : Nat)
  | ticket (inv number plan : Nat)
  deriving DecidableEq, Repr

/-- A plan step in progress on a loom: its INTERNAL child entry, what it runs, the operand bytes that its west and north
creels hold, the output address and residual offset that its argument block gives (R215), and the chime boundary by which its worst
case has drained (R68). -/
structure LoomStep where
  child : Nat
  kind : StepKind
  west : Bytes
  north : Bytes
  outAddr : Nat
  residual : Nat
  by_ : Nat
  deriving DecidableEq, Repr

/-- A plan step that the planner has placed and that has not started (R18, R70, R71): what it runs, the entry whose work it is and that
entry's number in order of admission, and the chime boundary at which it starts, counted since power-up. -/
structure Placed where
  kind : StepKind
  entry : Nat
  uid : Nat
  start : Nat
  deriving DecidableEq, Repr

/-- A loom with its creels and fuller (chapter 7): the kind, the entry and the entry number of the holder for this bell (R184), the slots
that hold a table (Table 7.12), the plan step in progress, the step placed for a boundary of this bell (R71), and the one that the
plan for the next bell holds (R70). The accumulator sets are empty between steps (R171). -/
structure Loom where
  holder : Nat
  holderEntry : Nat
  holderUid : Nat
  slots : Nat
  step : Option LoomStep
  next : Option Placed
  plan : Option Placed
  deriving DecidableEq, Repr

/-- A Loom Direct in progress (R187, R188): its entry and buffer, the tiles not yet placed and the number not yet drained,
the bytes of C so far, what was saturated, the looms used and how many are wanted. -/
structure Direct where
  entry : Nat
  buf : Bytes
  tilesLeft : List Nat
  undrained : Nat
  out : Mem
  saturated : Nat
  loomsUsed : List Nat
  wanted : Nat
  deriving DecidableEq, Repr

/-- A divergence stack entry (R198): the reconvergence instruction, the lanes that still have to run their path and
where it begins, and all lanes of the branch. -/
structure Diverge where
  point : Nat
  pendMask : Nat
  pendPc : Nat
  union : Nat
  deriving DecidableEq, Repr

/-- Why a lane is blocked: 1 a barrier, 2 a WAIT for a ticket, 3 a WAIT whose ticket has ended while other lanes of the
instruction still wait, 4 a TICKET that waits for a ticket slot; with the registers of the instruction and the ticket. -/
structure Blocked where
  kind : Nat
  rd : Nat
  ra : Nat
  rb : Nat
  ticket : Nat
  deriving DecidableEq, Repr

/-- A divergence of a lane in PROGRESS mode that it has not come back from (R199): the reconvergence point of the branch, the branch, and
whether the lane took it. -/
structure Split where
  point : Nat
  branch : Nat
  taken : Bool
  deriving DecidableEq, Repr

/-- A gang fault that has been detected (R208): code, faulting lanes, address, detail. -/
structure GangFault where
  code : Nat
  lanes : Nat
  addr : Nat
  detail : Nat
  deriving DecidableEq, Repr

/-- A resident gang (chapter 8). Registers are keyed lane × 256 + register, program counters and blocking by lane.
`active` is the active-lane mask of CONVERGE mode. `current` is the lowest lane of the issuing splinter of PROGRESS mode
and `slotsUsed` its consecutive issue slots, `splits` the divergence history of each lane (R199) and `waited` the issue slots of the
gang since each lane last issued (R200). `quiet` counts core cycles since the last progress event, by whole chimes (R201), and
`quietFresh` says that this event lies in the present chime. `outstanding` are its ticket numbers that have not ended. `urgent` is CLASS
0. `faultNo` numbers the faults of all gangs in order of detection and `faultChime` is the chime boundary passed last before it (R208). -/
structure Gang where
  inv : Nat
  index : Nat
  regs : Table Word
  pcs : Table Nat
  live : Nat
  active : Nat
  stack : List Diverge
  current : Nat
  slotsUsed : Nat
  splits : Table (List Split)
  waited : Table Nat
  blocked : Table Blocked
  quiet : Nat
  quietFresh : Bool
  outstanding : List Nat
  urgent : Bool
  physRegs : Nat
  fault : Option GangFault
  faultNo : Nat
  faultChime : Nat
  deriving DecidableEq, Repr

/-- A wright core: its gangs by slot, the bytes of its local-memory partitions by program index, and their contents
(R196). -/
structure Core where
  gangs : Table Gang
  parts : Table Nat
  localMem : Table Mem
  deriving DecidableEq, Repr

/-- A barrier that has been arrived at (R202): scope, identifier, the core and gang index it belongs to (CORE and GANG
scope), the participants counted (lanes at GANG scope, gang indices at CORE scope, none listed at KERNEL scope), the
arrivals (gang index, lane), and the bell of the first one, counted since power-up. -/
structure Barrier where
  scope : Nat
  ident : Nat
  core : Nat
  gang : Nat
  members : List Nat
  arrived : List (Nat × Nat)
  since : Nat
  deriving DecidableEq, Repr

/-- A ticket (R205 to R207): number, the unit and the index of the gang that took it, plan entry and argument block, and its state
(0 QUEUED, 1 DONE, 2 FAILED_RESET, 3 FAILED_DEADLINE). Once its step is placed its child is the INTERNAL entry of job 0x0D and this
number under the invocation's entry (R18). -/
structure Ticket where
  number : Nat
  unit : Nat
  gang : Nat
  plan : Nat
  arg : Nat
  state : Nat
  deriving DecidableEq, Repr

/-- A token of which one row has been written into a KV page (R182): the space and place of the page, the token, and whether the row
written is the value row. -/
structure KvRow where
  dram : Bool
  page : Nat
  token : Nat
  value : Bool
  deriving DecidableEq, Repr

/-- An invocation (R227, R228): its parent entry, program and gangs, how many gangs have been placed and how many have
exited, whether it has started, its loft window, input, staged read and output, exit values, tickets and barriers.
`kvRows` are the tokens of KV pages of which one row has been written. `stream` is the stream whose chunk the invocation runs, `viewAt`
the offset of its state view, `readyAt` the chime boundary passed last when the last step before the placing of its gangs was done, and `exited` the bell in which its
last gang exited, as the bell count and as the model's own count of edges. -/
structure Invocation where
  entry : Nat
  program : Nat
  gangs : Nat
  nextGang : Nat
  gangsDone : Nat
  started : Bool
  rsid : Nat
  nsid : Nat
  window : Mem
  windowSize : Nat
  input : Bytes
  inputAt : Nat
  stagedLba : Nat
  stagedLen : Nat
  stagedAt : Nat
  outAt : Nat
  outLen : Nat
  outBuf : Nat
  exitOr : Nat
  exitCount : Nat
  nextTicket : Nat
  tickets : List Ticket
  barriers : List Barrier
  kvRows : List KvRow
  stream : Option Nat
  viewAt : Option Nat
  readyAt : Option Nat
  exited : Option (Nat × Nat)
  deriving DecidableEq, Repr

/-- One entry of the Kernel Fault log (Table 8.8). -/
structure KernelFaultEntry where
  bell : Nat
  code : Nat
  mode : Nat
  unit : Nat
  slot : Nat
  lanes : Nat
  live : Nat
  pc : Nat
  program : Nat
  gang : Nat
  addr : Nat
  detail : Nat
  parent : Nat
  quiet : Nat
  others : Nat
  deriving DecidableEq, Repr

/-- A program slot (R219 to R225). `cores` are the core numbers (0 to 47) that hold a partition. `stored` is one more than the highest
byte offset received, and `parts` the runs of bytes received, as (start, end), rising and apart. -/
structure Program where
  pkg : Mem
  stored : Nat
  parts : List (Nat × Nat)
  state : Nat
  cores : List Nat
  physRegs : Nat
  digest : Nat
  deriving DecidableEq, Repr

/-- The compute units and kernels (chapters 7, 8, 9). -/
structure Compute where
  looms : Table Loom
  directs : List Direct
  cores : Table Core
  programs : Table Program
  cache : List (Nat × Nat)
  invs : Table Invocation
  nextInv : Nat
  faultLog : List KernelFaultEntry
  faultsWritten : Nat
  faultNo : Nat
  actProgram : Nat
  actResult : Nat
  actDetail : Nat
  rangeSets : Table (List (Nat × Nat))
  slm : Mem
  deriving DecidableEq, Repr

end Sys2Proof.Machine
end

