-- ==== Sys2Proof/Machine/StateFabric.lean ====
section
/-!
DEFINITION. The state records of the fabric, the guild, the port sessions and the Milny station
(chapters 12, 13 and 17).
-/

namespace Sys2Proof.Machine

/-- Port states (Table 12.3). -/
inductive PortSt where
  | down | training | securing | checking | up | miswired | failed
  deriving DecidableEq, Repr

/-- The session of a port (R404 to R408): what the handshake has seen, the flit counters of the two directions, the
key generations, and the rekey in progress. -/
structure Session where
  helloSent : Bool
  helloSeen : Bool
  proofSeen : Bool
  since : Nat
  keyTx : Nat
  keyRx : Nat
  txCount : Nat
  rxCount : Nat
  rekey : Nat
  rekeySince : Nat
  rekeyTries : Nat
  switchTx : Option Nat
  switchRx : Option Nat
  peerCert : Nat
  peerEphemeral : Nat
  peerRandom : Nat
  ownEphemeral : Nat
  ownRandom : Nat
  deriving DecidableEq, Repr

/-- A message that waits on a port or is being sent (R279, R282, R288): its header, type, status and payload, its lane, the flits still to
send, whether the first has been sent, the free credits that it needs to start, and when it was queued. -/
structure TxMsg where
  x : Txn
  type : Nat
  status : Nat
  data : List Nat
  vl : Nat
  left : Nat
  started : Bool
  need : Nat
  since : Nat
  deriving DecidableEq, Repr

/-- A fabric port (R276 to R283). `tx` are the messages to send, oldest first, `gaps` the slots since the last TIME and the last CONTROL flit,
`turns` what VL1 to VL3 may still send in their round (R282). `creditsTx` are the credits that the receiver has returned, by lane and with
the shared pool of a long-haul port last, `creditsDue` those that this port has to return, `buffered` the flits in its receive buffer
(R281). `fastBells` counts the bells below the bound of the rate (R277), `alive` those since the last ALIVE; `probing` is the bell at
which the port last went DOWN with its neighbour still to be probed (R306). -/
structure Port where
  st : PortSt
  rate : Nat
  fails : Nat
  badFlits : Nat
  badRun : Nat
  seqTx : Nat
  seqRx : Nat
  ackRx : Nat
  creditsTx : List Nat
  buffered : List Nat
  creditsDue : List Nat
  tx : List TxMsg
  gaps : Nat × Nat
  turns : List Nat
  alive : Nat
  fastBells : Nat
  pinArmed : Bool
  oneWay : Nat
  offset : Int
  calib : Int
  neighbour : Nat
  probing : Option Nat
  probeSent : Bool
  syncT : Option (Int × Int)
  discardMsg : Bool
  session : Session
  deriving DecidableEq, Repr

/-- Peer states (R301 to R307). -/
inductive PeerSt where
  | absent | active | paused | lost
  deriving DecidableEq, Repr

/-- A peer table entry. `links` are the link delays that its DELAYS notices gave, by port. -/
structure Peer where
  st : PeerSt
  epoch : Nat
  resume : Nat
  links : Table Nat
  deriving DecidableEq, Repr

/-- Membership states (Table 12.9). -/
inductive MemberSt where
  | solo | joining | active | paused | leaving
  deriving DecidableEq, Repr

/-- A fabric transaction of this member, originator's side (R284): the request as it would be sent again, its tally
entry, the bell at which it was last sent, whether ACCEPT has come, and what it serves. `purpose`: 0 window GET, 1
PUT, 2 SEAL, 3 SIFT, 4 STREAM, 5 STREAM SEAL, 6 PING, 7 other. `full` counts the
TALLY_FULL replies to it. `entry` is 131,072, which is no tally index, while the
entry waits for admission; `parent` is the entry that the request serves. -/
structure OrigTxn where
  entry : Nat
  parent : Nat
  x : Txn
  type : Nat
  data : Bytes
  sentBell : Nat
  accepted : Bool
  heldUntil : Option Nat
  tries : Nat
  full : Nat
  purpose : Nat
  deriving DecidableEq, Repr

/-- A transaction that this member serves or has served (R284): who asked, its tally entry while it is served, and the
reply last sent, kept until `expiry`. -/
structure TargetTxn where
  src : Nat
  epoch : Nat
  tag : Nat
  type : Nat
  entry : Option Nat
  status : Nat
  replied : Bool
  expiry : Nat
  data : Bytes
  x : Txn
  deriving DecidableEq, Repr

/-- A request of another member that waits for its first chime boundary (R20, R23): its header, type, operands and, for a SIFT, k. -/
structure Arrived where
  x : Txn
  type : Nat
  data : Bytes
  k : Nat
  deriving DecidableEq, Repr

/-- A staging group (R294): source, epoch, group, its messages (window address or slice place, bytes), and the bell at
which its first message came. -/
structure StageGroup where
  src : Nat
  epoch : Nat
  group : Nat
  msgs : List (Nat × Bytes)
  stream : Option (Nat × Nat × Nat)
  since : Nat
  deriving DecidableEq, Repr

/-- A Memory Read, Write or Copy that works through the aperture (R292): the HOST entry, the transactions it still
waits for, the SEAL that is to follow, and the data gathered. -/
structure Remote where
  entry : Nat
  left : List Nat
  accepts : List Nat
  sealMsg : Option (Nat × Nat × Nat × Nat)
  got : Table Byte
  dst : Option Nat
  deriving DecidableEq, Repr

/-- A multi-part CONTROL payload that is being received (R280): port, sub-kind, next part, the bell of the first part,
and the entries so far. -/
structure PartSeq where
  port : Nat
  kind : Nat
  next : Nat
  since : Nat
  rows : List (Nat × Nat × Nat × Nat)
  deriving DecidableEq, Repr

/-- One entry of the Guild log (Table 12.12). -/
structure GuildLogEntry where
  bell : Nat
  code : Nat
  port : Nat
  old : Nat
  new : Nat
  member : Nat
  detail : Int
  deriving DecidableEq, Repr

/-- The fabric and the guild (chapter 12). `rejoin` says that a guild reset waits for RUN after a warm reset (Table 15.3),
or that a member that holds a geometry is to join again. `sifts` are the SIFT requests, as (member, tag), whose reply has not
come. -/
structure Fabric where
  ports : Table Port
  peers : Table Peer
  member : MemberSt
  epoch : Nat
  resumeBell : Nat
  holdoverPaused : Bool
  leavingBell : Nat
  guildId : Nat
  memberId : Nat
  dims : List Nat
  roots : List Nat
  digest : Nat
  hasGeometry : Bool
  tableLoaded : Bool
  delaysLoaded : Bool
  joinPeriod : Option Nat
  originated : List OrigTxn
  targets : List TargetTxn
  arrived : List Arrived
  staging : List StageGroup
  remotes : List Remote
  parts : List PartSeq
  periodNotice : Option (Nat × Nat)
  seenLost : List (Nat × Nat)
  /-- LOST notices that the next chime boundary acts on, as (member, epoch) (R307). -/
  lostDue : List (Nat × Nat)
  noPortUpSince : Option Nat
  rejoin : Bool
  sifts : List (Nat × Nat)
  lastTransfer : Nat
  nextTag : Nat
  nextGroup : Nat
  pinWriter : Nat
  log : List GuildLogEntry
  logWritten : Nat
  deriving DecidableEq, Repr

/-- Watchdog states (OD 0x1102.01). -/
inductive WatchSt where
  | unarmed | running | expired
  deriving DecidableEq, Repr

/-- The acyclic request that the drive holds (R330): its service and bytes, the answer once there is one, and an answer of the
steward that is ready at the next chime boundary (R331). -/
structure HeldReq where
  service : Nat
  req : AcyReq
  answer : Option Bytes
  coming : Option Bytes
  delivered : Bool
  waking : Bool
  deriving DecidableEq, Repr

/-- The Milny station (chapter 13), in the always-on domain. `lastNs` is the time of the last CYC_OUT in ns since power-up. `periodUs` is 0 until a CYC_OUT has carried a period in
range. -/
structure Milny where
  address : Nat
  term : Bool
  watch : WatchSt
  periodUs : Nat
  lastCycle : Nat
  lastBell : Nat
  lastNs : Nat
  image : Bytes
  cap : Nat
  capPending : Option Nat
  imageCycle : Nat
  rejected : Bool
  expiredFlag : Bool
  /-- The watchdog has expired, and the next chime boundary does what R327 asks. -/
  expiryDue : Bool
  conflict : Bool
  lastInput : Bytes
  held : Option HeldReq
  deriving DecidableEq, Repr

end Sys2Proof.Machine
end

