-- ==== Sys2Proof/Machine/StateRest.lean ====
section
/-!
DEFINITION. The state records of the streams, the sifters, the power ladder, resets and firmware update, the keys and
the rails (chapters 10, 11, 14, 15, 17, 19).
-/

namespace Sys2Proof.Machine

/-- A channel record (Table 10.4): kind, taps, coefficients c0 to c15 and history h0 to h14 as FP32 words. -/
structure Channel where
  kind : Nat
  taps : Nat
  coef : List Nat
  hist : List Nat
  deriving DecidableEq, Repr

/-- Stream states other than ABSENT (Table 10.2). A stream that is not listed is ABSENT. -/
inductive StreamSt where
  | opened | parking | parked
  deriving DecidableEq, Repr

/-- A chunk admitted to a stream (R242): its STREAM entry, sequence number, the carrying entry, whether it has been
dispatched and the invocation that runs it, and the run block it was fed with. -/
structure Chunk where
  entry : Nat
  seq : Nat
  carrier : Nat
  dispatched : Bool
  inv : Option Nat
  gangs : Nat
  rsid : Nat
  buf : Bytes
  viewAt : Nat
  sliceAt : Option Nat
  deriving DecidableEq, Repr

/-- A Stream Park that waits for its eviction (R246 to R248): its entry, the SLBA of a SAVE, RELEASE, NOW, whether it still has to stop the
chunks at the next chime boundary (R247), and how many it completed with Stream Parked. -/
structure Park where
  entry : Nat
  save : Option Nat
  release : Bool
  now : Bool
  due : Bool
  stopped : Nat
  deriving DecidableEq, Repr

/-- A stream that is not ABSENT (R235 to R252). `home` are the committed records in its home, `store` the committed
records in the state store while it is resident, and `working` the working copy of the dispatched chunk. `ended` is the chunk that has
ended and commits at the boundary that posts its completion (R243): the carrying entry and the sequence number. -/
structure Stream where
  st : StreamSt
  channels : Nat
  nsid : Nat
  program : Nat
  remoteFed : Bool
  source : Nat
  handle : Nat
  lag : Nat
  rsid : Nat
  gangs : Nat
  sliceAt : Nat
  viewAt : Nat
  last : Nat
  home : List Channel
  store : Option (List Channel)
  working : Option (List Channel)
  chunks : List Chunk
  ended : Option (Nat × Nat)
  parks : List Park
  failures : Nat
  doneBell : Nat
  deriving DecidableEq, Repr

/-- A delivered slice that waits for its bell (R250): stream, the bell at whose chime 0 it is admitted, its FABRIC
entry, its bytes. -/
structure Slice where
  sid : Nat
  due : Nat
  sealOrder : Nat
  target : Nat
  data : Bytes
  deriving DecidableEq, Repr

/-- The streams that are not ABSENT, the slices that wait for their bell, and how many slices have been sealed (R250). `handRows` are rows
of this member's invocations that wait for their SEAL or for its acknowledgement: invocation, handle, rows. -/
structure Streams where
  table : Table Stream
  slices : List Slice
  sealedN : Nat
  handRows : List (Nat × Nat × Bytes)
  deriving DecidableEq, Repr

/-- An index slot that is not EMPTY (R256): 1 MOUNTING or 2 MOUNTED, the entry of its Mount, what its header says, and the parts of the
index that the Mount copied to DRAM, by byte offset in the index. -/
structure IndexSlot where
  st : Nat
  entry : Nat
  nsid : Nat
  slba : Nat
  resident : Bool
  format : Nat
  codeKind : Nat
  metric : Nat
  records : Bool
  dim : Nat
  subspaces : Nat
  indexId : Nat
  count : Nat
  bins : Nat
  header : Bytes
  charged : Nat
  copy : Mem
  deriving DecidableEq, Repr

/-- Context states (Table 11.3), with the shelved entries of R255. -/
inductive CtxSt where
  | ready | running | memwait | shelved
  deriving DecidableEq, Repr

/-- A context of a search: its SEARCH entry, its place, its state, whether it has been seized and is shelved at its next yield point
(R255, R268), and what it has taken up: a block and the records in it, or a GRAPH node and 0. A flash read of that is its entry's. -/
structure Context where
  entry : Nat
  sifter : Nat
  ctx : Nat
  st : CtxSt
  leave : Bool
  task : Option (Nat × Nat)
  deriving DecidableEq, Repr

/-- A result of a search: score as an FP32 word, member, vector ID, attribute word, and the node number in a GRAPH index. -/
structure Hit where
  score : Nat
  member : Nat
  vid : Nat
  attr : Nat
  node : Nat
  deriving DecidableEq, Repr

/-- A member asked by a Guild Sift (R271 to R273): the member, its reason while missing (0 not missing yet asked, 1 to
6 as the result block reports), whether it has answered, and what it answered. -/
structure Asked where
  member : Nat
  reason : Nat
  answered : Bool
  replyBy : Nat
  resume : Nat
  deriving DecidableEq, Repr

/-- A search in flight (R259 to R273): the entry that carries it, slot, k, whether it is a Guild Sift of this member or
served for another member, PARTIAL_OK, its finalise bell (0 none; the reply-by bell where it is served for another member),
its buffer and the buffer's length, the contexts it is to have, the bytes of its work area, whether it has started, its
contexts. What is left to do: (first block, blocks, vectors) of the codes region for FLAT and BINNED; for GRAPH the list as
(score, node, expanded), the nodes seen, those scored on the upper levels, the batch, the nodes of the batch not yet taken up, and the
neighbours that its pages list. What it has: its own best results, results of other members, vectors scored, hops, blocks or pages
skipped, flags of Table 11.10, the members asked, and whether its own part has ended. -/
structure Search where
  entry : Nat
  slot : Nat
  k : Nat
  guild : Bool
  remote : Bool
  partialOk : Bool
  finalise : Nat
  buf : Bytes
  wanted : Nat
  work : Nat
  started : Bool
  contexts : List Context
  ranges : List (Nat × Nat × Nat)
  cand : List (Nat × Nat × Bool)
  seen : List Nat
  upper : List Nat
  batch : List Nat
  todo : List Nat
  lists : Table (List Nat)
  found : List Hit
  hits : List Hit
  scored : Nat
  hops : Nat
  skipped : Nat
  flags : Nat
  asked : List Asked
  finished : Bool
  deriving DecidableEq, Repr

/-- A Mount that reads the header of its index (R256): entry, slot, first LBA, RESIDENT. -/
structure MountReq where
  entry : Nat
  slot : Nat
  slba : Nat
  resident : Bool
  deriving DecidableEq, Repr

/-- The sifters (chapter 11): the index slots, the Mounts that read a header, the searches in flight, and the context that each sifter ran
last (R253). -/
structure Sifters where
  slots : Table IndexSlot
  mounts : List MountReq
  searches : List Search
  ranLast : Table Nat
  deriving DecidableEq, Repr

/-- The power ladder (chapter 14). `hostPs` and `hostWh` are the state and the workload hint that the host set, `request` its request while no host wake has
ended it. `care` says that a media care wake keeps the drive in PS0 (R341). `rear12` says that rear 12 V counts towards the supply
limit, `rearWas` that it is sensed. `idleFresh` says that the idle count of APST began in the course of the present bell. `budget` is how many placements the energy budget of this bell still takes, `urgentBudget` how many of
CLASS 0, and `deferred` the CLASS 0 entries that it has turned away in this bell (R343, R344). -/
structure Power where
  inForce : Nat
  target : Nat
  hostPs : Nat
  hostWh : Nat
  request : Nat
  apst : Bool
  apstTable : List (Nat × Nat)
  idleUs : Nat
  idleFresh : Bool
  apstPs : Nat
  wake : Nat
  waking : Bool
  preparing : Bool
  transition : Bool
  noppme : Bool
  care : Bool
  mapResident : Nat
  sensors : List Int
  composite : Int
  thermalLimit : Nat
  hold : Bool
  drawn : Nat
  capRecHost : Bool
  capRecSide : Bool
  rear12 : Bool
  rearBells : Nat
  rearWas : Bool
  budget : Nat
  urgentBudget : Nat
  deferred : List Nat
  deriving DecidableEq, Repr

/-- A firmware image in a slot or in scratch: its version, the security version of each part, its state (0 empty,
1 valid, 2 below floor, 3 invalid), and the digests of its parts. -/
structure Image where
  version : Nat
  security : List Nat
  state : Nat
  digests : List Nat
  deriving DecidableEq, Repr

/-- A write of the download buffer into slot `slot` (R370), in progress: the image, whether the slot is pending after it, and the tally
entry of its Firmware Commit, where that still stands. -/
structure SlotWrite where
  slot : Nat
  image : Image
  pend : Bool
  entry : Option Nat
  deriving DecidableEq, Repr

/-- Resets and firmware update (chapter 15). `writing` are the slot writes in progress, the first to end first. `scratch` and `pending` are those of OD 0x2B10. `requested` is the slot whose image is to
be activated at the next edge that allows it, `commit` the Firmware Commit (queue, identifier) that waits for the end of the pause,
`loaderDone` that the loader's steps of R372 have ended, `switched` that the SWITCH record of R376 is written, `copied` and `copySlot`
the parts copied so far and the slot they go to (R377), `warmDeferred` a warm reset that waits for the end of the pause (R350). -/
structure Update where
  resetKind : Nat
  resetCause : Nat
  resetBell : Nat
  bootMs : Nat
  unitReset : Nat
  unitCause : Nat
  unitBell : Nat
  cfs : Bool
  lastClass : Nat
  active : Nat
  pending : Nat
  scratch : Nat
  slots : Table Image
  scratchImage : Option Image
  floors : List Nat
  activeSec : List Nat
  buffer : List (Nat × Bytes)
  writing : List SlotWrite
  actSlot : Nat
  actResult : Nat
  actPart : Nat
  actBell : Nat
  actPause : Nat
  phase : Nat
  fromConfig : Bool
  commit : Option (Nat × Nat)
  requested : Option Nat
  copied : Nat
  copySlot : Nat
  switched : Bool
  warmDeferred : Option Nat
  loaderDone : Bool
  deriving DecidableEq, Repr

/-- Keys (chapter 17): generations, whether a copy of the key store had to be rewritten, the generator's reseeds and the draws since the
last one, a Sanitize in progress (1 crypto erase, 2 block erase) and its command's entry, apart from the sessions of the ports and the
key objects of the dictionary. -/
structure Keys where
  gens : Table Nat
  store : Nat
  reseeds : Nat
  sanitize : Nat
  sanitizeEntry : Option Nat
  sessionGen : Table Nat
  draws : Nat
  deriving DecidableEq, Repr

/-- The rails and pins of chapter 19, and the FROZEN and save conditions that follow from them. -/
structure Rails where
  main : Bool
  pwrdis : Bool
  alwaysOn : Bool
  offSince : Option Nat
  locate : Nat
  deriving DecidableEq, Repr

end Sys2Proof.Machine
end

