-- ==== Sys2Proof/Machine/State.lean ====
section
/-!
DEFINITION. The state of the block, its faults and refusals, and the state after reset.
-/

namespace Sys2Proof.Machine

/-- Values sampled at the last chime boundary: the parts of the state from which the objects that the spec calls
sampled are computed, and the input image of the Milny station as its sources then gave it (R325). -/
structure Sampled where
  tally : Tally
  units : Table UnitSt
  flash : Flash
  ledger : Ledger
  compute : Compute
  streams : Streams
  sifters : Sifters
  fabric : Fabric
  power : Power
  keys : Keys
  counters : Table Nat
  capNow : Nat
  limitNow : Nat × Nat
  image : Bytes
  deriving DecidableEq, Repr

/-- What the log pages read from: the parts of the state as they stood at the last bell edge (R445), and the code of the bell period. -/
structure EdgeCopy where
  count : Nat
  period : Nat
  bell : Bell
  host : HostSide
  sticky : Sticky
  fabric : Fabric
  compute : Compute
  flash : Flash
  ledger : Ledger
  power : Power
  update : Update
  deriving DecidableEq, Repr

/-- The state of the block. `od` holds the values of the writable objects that differ from their defaults, keyed
index × 256 + subindex; `counters` the counters of chapter 16 by the same key; `sampled` the values sampled at the last
chime boundary. `free` is the model's own counter: it numbers the free values drawn so far and has no meaning on the
hardware. `out` lists what the drive has sent at its edges, newest last, and is the model's own record. `pending` is
the queue of the commands that are waiting, first in, first out. -/
structure State where
  ident : Ident
  od : Table Nat
  tally : Tally
  units : Table UnitSt
  dev : Device
  pen : Pen
  steward : Steward
  bell : Bell
  host : HostSide
  sticky : Sticky
  counters : Table Nat
  freeze : Freeze
  flash : Flash
  ledger : Ledger
  compute : Compute
  streams : Streams
  sifters : Sifters
  fabric : Fabric
  milny : Milny
  power : Power
  update : Update
  keys : Keys
  rails : Rails
  sampled : Sampled
  edge : EdgeCopy
  free : Nat
  out : List Out
  pending : List Instr
  deriving DecidableEq, Repr

/-- Reasons for a fault. No command of the present table raises one: an event whose conditions do not hold has no
effect on the block, and that is a next state. -/
inductive Fault where
  /-- Raised by no meaning. It stands for an access to storage that the spec says does not exist. Safe: a fault only
  stops the model. -/
  | absentStorage
  deriving DecidableEq, Repr

/-- Reasons for a refusal. -/
inductive Refusal where
  /-- Raised by an arm of `exec` whose command has no meaning yet. Safe: a refusal only stops the model. -/
  | notModelled (mnemonic : String)
  deriving DecidableEq, Repr

/-- The tally with every entry FREE. -/
def Tally.reset : Tally := ⟨[], [], 0⟩

/-- The steward with nothing asked of it. -/
def Steward.reset : Steward := ⟨[], 0, [], []⟩

/-- The bell keeper at power-up of the always-on domain (R65, Table 3.7). -/
def Bell.reset : Bell where
  count := 0
  ticks := 0
  edgeNs := 0
  chime := 0
  followed := 0
  align := .free
  inBound := 0
  outBound := 0
  hadSource := false
  trim := 0
  trimPending := none
  freq := 0
  phase := 0
  slewPs := 0
  step := none
  holdover := 0
  bellIn := ⟨false, 0⟩
  bellInLast := none
  bellInGood := false
  bellInCount := 0
  bellInAhead := 0
  guild := ⟨false, 0⟩
  guildSince := 0
  overUnit := 0
  overBell := 0
  overLate := 0
  log := []
  logWritten := 0

/-- The host side at a cold start (Table 4.19): link down, controller disabled, no queue. -/
def HostSide.reset : HostSide where
  perst := true
  speed := 0
  width := 0
  flit := false
  en := false
  rdy := false
  ams := 0
  burst := 8
  wHigh := 32
  wMed := 16
  wLow := 4
  enClearDeferred := false
  sqs := []
  cqs := []
  rr := []
  fetchNo := 0
  posting := []
  stopping := []
  aers := []
  pendingEvents := []
  masked := []
  warning := 0
  warnUs := 0
  critUs := 0

/-- The flash array at a start: every die IDLE, every level offset 0. -/
def Flash.reset : Flash where
  dies := []
  pages := []
  levels := []
  proposals := []
  meanBits := []
  hot := []
  trained := []
  ladders := []
  jobs := []
  pinRecordArmed := true
  pinWriter := 0

/-- The ledger of a drive as shipped: nothing mapped, every band free, each group's credit at its cap (R147). -/
def Ledger.reset : Ledger where
  map := []
  nss := []
  bands := []
  groups := []
  staged := []
  writes := []
  writeNo := 0
  copies := []
  care := []
  openRows := []
  gatherFrom := []
  rowClass := []
  spares := []
  dieBlocksRetired := 0
  bandsRetired := 0
  readOnly := false
  fdp := false
  fdpEvents := []
  allErases := 0
  wearArmed := true
  dirty := []
  checkpoint := []
  journal := []
  tail := 0
  scrubStart := 0
  scrubbed := []
  poisonNsid := 0
  poisonLba := 0
  poisonBell := 0
  recoveryMs := 0
  saved := []
  eraseLater := []
  saveBell := 0
  saveLines := 0
  saveUs := 0
  saveResult := 0

/-- The compute units and kernels after a cold reset (Table 15.3). -/
def Compute.reset : Compute where
  looms := []
  directs := []
  cores := []
  programs := []
  cache := []
  invs := []
  nextInv := 0
  faultLog := []
  faultsWritten := 0
  faultNo := 0
  actProgram := 0
  actResult := 0
  actDetail := 0
  rangeSets := []
  slm := []

/-- The fabric after a cold reset of a drive that has never joined (Table 12.13). -/
def Fabric.reset : Fabric where
  ports := []
  peers := []
  member := .solo
  epoch := 0
  resumeBell := 0
  holdoverPaused := false
  leavingBell := 0
  guildId := 0
  memberId := 0
  dims := [1, 1, 1, 1, 1]
  roots := []
  digest := 0
  hasGeometry := false
  tableLoaded := false
  delaysLoaded := false
  joinPeriod := none
  originated := []
  targets := []
  arrived := []
  staging := []
  remotes := []
  parts := []
  periodNotice := none
  seenLost := []
  lostDue := []
  noPortUpSince := none
  rejoin := false
  sifts := []
  lastTransfer := 0
  nextTag := 0
  nextGroup := 0
  pinWriter := 0
  log := []
  logWritten := 0

/-- The Milny station at power-up of the always-on domain (R318, Table 13.14). -/
def Milny.reset : Milny where
  address := 0x7E
  term := false
  watch := .unarmed
  periodUs := 0
  lastCycle := 0
  lastBell := 0
  lastNs := 0
  image := List.replicate 16 0
  cap := 0
  capPending := none
  imageCycle := 0
  rejected := false
  expiredFlag := false
  expiryDue := false
  conflict := false
  lastInput := List.replicate 32 0
  held := none

/-- The power ladder at a cold start of an M drive with rear 12 V present (Table 14.5). -/
def Power.reset : Power where
  inForce := 0
  target := 0
  hostPs := 0
  hostWh := 0
  request := 0
  apst := false
  apstTable := []
  idleUs := 0
  idleFresh := true
  apstPs := 0
  wake := 0
  waking := false
  preparing := false
  transition := false
  noppme := true
  care := false
  mapResident := 1000
  sensors := List.replicate 14 0
  composite := 0
  thermalLimit := 1300
  hold := false
  drawn := 0
  capRecHost := true
  capRecSide := true
  rear12 := true
  rearBells := 25000
  rearWas := true
  budget := 0
  urgentBudget := 0
  deferred := []

/-- Resets and update as a drive ships (Table 15.9). -/
def Update.reset : Update where
  resetKind := 1
  resetCause := 0
  resetBell := 0
  bootMs := 0
  unitReset := 0
  unitCause := 0
  unitBell := 0
  cfs := false
  lastClass := 0
  active := 1
  pending := 0
  scratch := 0
  slots := [(1, ⟨0x07020000, List.replicate 8 0, 1, List.replicate 8 0⟩)]
  scratchImage := none
  floors := List.replicate 8 0
  activeSec := List.replicate 8 0
  buffer := []
  writing := []
  actSlot := 0
  actResult := 0
  actPart := 0
  actBell := 0
  actPause := 0
  phase := 0
  fromConfig := false
  commit := none
  requested := none
  copied := 0
  copySlot := 0
  switched := false
  warmDeferred := none
  loaderDone := false

/-- The sampled values of a drive on which no chime boundary has passed. -/
def Sampled.reset : Sampled where
  tally := .reset
  units := []
  flash := .reset
  ledger := .reset
  compute := .reset
  streams := ⟨[], [], 0, []⟩
  sifters := ⟨[], [], [], []⟩
  fabric := .reset
  power := .reset
  keys := ⟨[], 0, 0, 0, none, [], 0⟩
  counters := []
  capNow := 0
  limitNow := (1300, 0)
  image := List.replicate 32 0

/-- The log pages of a drive on which no bell edge has passed. -/
def EdgeCopy.reset : EdgeCopy where
  count := 0
  period := 1
  bell := .reset
  host := .reset
  sticky := ⟨[], 0, 0, 0, 0, [], []⟩
  fabric := .reset
  compute := .reset
  flash := .reset
  ledger := .reset
  power := .reset
  update := .reset

/-- The state right after a cold reset of an NBL7-M-51 as it ships: BOOT (Table 2.12), every object at its default,
nothing in flight, nothing written. -/
def State.reset : State where
  ident := ⟨true, 256, 0, 0⟩
  od := []
  tally := .reset
  units := []
  dev := ⟨.boot, 0, 1, 0, 0, none, false, 0, 0, false, false⟩
  pen := ⟨none, 0, 0, false⟩
  steward := .reset
  bell := .reset
  host := .reset
  sticky := ⟨[], 0, 0, 0, 0, [], []⟩
  counters := []
  freeze := ⟨none, none, false, true⟩
  flash := .reset
  ledger := .reset
  compute := .reset
  streams := ⟨[], [], 0, []⟩
  sifters := ⟨[], [], [], []⟩
  fabric := .reset
  milny := .reset
  power := .reset
  update := .reset
  keys := ⟨[], 0, 0, 0, none, [], 0⟩
  rails := ⟨true, false, true, none, 0⟩
  sampled := .reset
  edge := .reset
  free := 0
  out := []
  pending := []

end Sys2Proof.Machine
end

