-- ==== Sys2Proof/Machine/Tables.lean ====
section
/-!
DEFINITION. Sparse tables and memories in their canonical form, byte strings, bit fields and the CRC that the other definitions use.
-/

namespace Sys2Proof.Machine

/-! ## Sparse tables and memories -/

/-- The value of key `k`, if it is listed. -/
def tget {α : Type} : Table α → Nat → Option α
  | [], _ => none
  | (k', v) :: t, k => if k = k' then some v else tget t k

/-- The value of key `k`, or `d`. -/
def tgetD {α : Type} (t : Table α) (k : Nat) (d : α) : α := (tget t k).getD d

/-- Write key `k`; keys stay rising. -/
def tput {α : Type} : Table α → Nat → α → Table α
  | [], k, v => [(k, v)]
  | (k', v') :: t, k, v =>
    if k < k' then (k, v) :: (k', v') :: t
    else if k = k' then (k, v) :: t
    else (k', v') :: tput t k v

/-- Remove key `k`. -/
def tdel {α : Type} (t : Table α) (k : Nat) : Table α := t.filter (fun p => p.1 ≠ k)

/-- Change the value of key `k`, which reads `d` where it is not listed. -/
def tmod {α : Type} (t : Table α) (k : Nat) (d : α) (f : α → α) : Table α := tput t k (f (tgetD t k d))

/-- Keys strictly rising. -/
def keysRising {α : Type} : Table α → Bool
  | [] => true
  | [_] => true
  | (a, _) :: (b, y) :: t => decide (a < b) && keysRising ((b, y) :: t)

/-- Read one byte; an unlisted byte reads 0. -/
def mget (m : Mem) (a : Nat) : Byte := tgetD m a 0

/-- Write one byte and keep the canonical form: a byte of value 0 is not listed. -/
def mput (m : Mem) (a : Nat) (b : Byte) : Mem := if b = 0 then tdel m a else tput m a b

/-- The canonical form of a memory: addresses rising, no listed byte of value 0. -/
def Mem.wf (m : Mem) : Bool := keysRising m && m.all (fun p => decide (p.2 ≠ 0))

/-- Write a run of bytes from address `a` up. -/
def mwrite : Mem → Nat → Bytes → Mem
  | m, _, [] => m
  | m, a, b :: bs => mwrite (mput m a (BitVec.ofNat 8 b)) (a + 1) bs

/-- Read `n` bytes from address `a` up. -/
def mread (m : Mem) (a n : Nat) : Bytes := (List.range n).map (fun i => (mget m (a + i)).toNat)

/-! ## Byte strings -/

/-- `n` bytes of `v`, least significant first (R10). -/
def leBytes : Nat → Nat → Bytes
  | 0, _ => []
  | n + 1, v => v % 256 :: leBytes n (v / 256)

/-- The value of a byte string, least significant byte first (R10). -/
def leNat : Bytes → Nat
  | [] => 0
  | b :: bs => b % 256 + 256 * leNat bs

/-- The value of a byte string, most significant byte first. -/
def beNat (bs : Bytes) : Nat := bs.foldl (fun a b => a * 256 + b % 256) 0

/-- `n` bytes of `v`, most significant first: how a digest, an integer of its standard, stands in bytes (R10). -/
def beBytes (n v : Nat) : Bytes := (leBytes n v).reverse

/-- A SHA-384 digest as the value of an octet string, whose byte 0 the model holds lowest (R10). -/
def digestOctets (n d : Nat) : Nat := leNat ((beBytes 48 d).take n)

/-- Bytes `off` to `off + n - 1` of a byte string; bytes past its end are 0. -/
def slice (bs : Bytes) (off n : Nat) : Bytes := (List.range n).map (fun i => bs.getD (off + i) 0)

/-- The little-endian field of `n` bytes at offset `off`. -/
def fieldAt (bs : Bytes) (off n : Nat) : Nat := leNat (slice bs off n)

/-- Replace the bytes from `off` up by `new`. -/
def patch (bs : Bytes) (off : Nat) (new : Bytes) : Bytes :=
  bs.take off ++ new ++ bs.drop (off + new.length)

/-- Bits [hi:lo] of `n` (R9). -/
def bits (n hi lo : Nat) : Nat := n / 2 ^ lo % 2 ^ (hi + 1 - lo)

/-- Bit `i` of `n`. -/
def bit (n i : Nat) : Bool := n / 2 ^ i % 2 = 1

/-- `n` with bit `i` set. -/
def setBit (n i : Nat) : Nat := if bit n i then n else n + 2 ^ i

/-- `n` with bit `i` clear. -/
def clearBit (n i : Nat) : Nat := if bit n i then n - 2 ^ i else n

/-- One step of the CRC-32 of R315 on one bit, in its reflected form. -/
def crcBit (c : Nat) : Nat := if c % 2 = 1 then Nat.xor (c / 2) 0xEDB88320 else c / 2

/-- One byte into the CRC-32 of R315. -/
def crcByte (c b : Nat) : Nat :=
  let x := Nat.xor c (b % 256)
  crcBit (crcBit (crcBit (crcBit (crcBit (crcBit (crcBit (crcBit x)))))))

/-- The CRC-32 of R315 over a byte string. -/
def crc32 (bs : Bytes) : Nat := Nat.xor (bs.foldl crcByte 0xFFFFFFFF) 0xFFFFFFFF

/-! ## Orders -/

/-- Insert into a sorted list. -/
def insertBy {α : Type} (le : α → α → Bool) (x : α) : List α → List α
  | [] => [x]
  | y :: ys => if le x y then x :: y :: ys else y :: insertBy le x ys

/-- Sort by a comparison, keeping the order of equals. -/
def sortBy {α : Type} (le : α → α → Bool) (l : List α) : List α := l.foldr (insertBy le) []

end Sys2Proof.Machine
end

