-- ==== Sys2Proof/Machine/Torus.lean ====
section
/-!
DEFINITION. The torus of a guild (R285 to R288): members, neighbours and routes, the ports and the peer table as they are looked up, and
the port by which a message leaves.
-/

namespace Sys2Proof.Machine

/-! ## The torus -/

/-- Dimension size n_d. -/
def dimSize (s : State) (d : Nat) : Nat := max 1 (s.fabric.dims.getD d 1)

/-- Product of the first `d` dimension sizes. -/
def dimStride (s : State) (d : Nat) : Nat := ((List.range d).map (dimSize s)).foldl (· * ·) 1

/-- Members of the geometry (R285). -/
def memberCount (s : State) : Nat := dimStride s 5

/-- Coordinate x_d of a member (R285). -/
def coordOf (s : State) (m d : Nat) : Nat := m / dimStride s d % dimSize s d

/-- The member at the far end of port `p` of member `m` (R285). -/
def neighbourOf (s : State) (m p : Nat) : Nat :=
  let d := p / 2
  let n := dimSize s d
  let x := coordOf s m d
  let x' := if p % 2 = 0 then (x + n - 1) % n else (x + 1) % n
  m - x * dimStride s d + x' * dimStride s d

/-- The port of member `m` that the next hop toward `y` leaves by (R286); none at the target. -/
def nextPort (s : State) (m y : Nat) : Option Nat :=
  ((List.range 5).find? (fun d => coordOf s m d ≠ coordOf s y d)).map (fun d =>
    let n := dimSize s d
    let plus := (coordOf s y d + n - coordOf s m d) % n
    if plus ≤ n - plus then 2 * d + 1 else 2 * d)

/-- The other port of the same dimension. -/
def otherWay (p : Nat) : Nat := if p % 2 = 0 then p + 1 else p - 1

/-- The route of R286 as (member, port) hops. A route has at most 160 hops. -/
def routeFrom (s : State) : Nat → Nat → Nat → List (Nat × Nat)
  | 0, _, _ => []
  | n + 1, m, y =>
    match nextPort s m y with
    | none => []
    | some p => (m, p) :: routeFrom s n (neighbourOf s m p) y

/-- Hops from `m` to `y`. -/
def hopsBetween (s : State) (m y : Nat) : Nat := (routeFrom s 161 m y).length

/-- The root of a member and its depth (R298): nearest by hops, the lower member ID in ties. -/
def rootOfMember (s : State) (m : Nat) : Nat × Nat :=
  match sortBy (fun (a b : Nat × Nat) => decide (a.2 < b.2) || (a.2 = b.2 && decide (a.1 ≤ b.1)))
      (s.fabric.roots.map (fun r => (r, hopsBetween s m r))) with
  | [] => (m, 0)
  | x :: _ => x

/-- Is this member a time root (R298). -/
def isRoot (s : State) : Bool := s.fabric.roots.contains s.fabric.memberId

/-- The port that faces the upstream neighbour (R298). -/
def upstreamPort (s : State) : Option Nat :=
  if isRoot s || !s.fabric.hasGeometry then none
  else nextPort s s.fabric.memberId (rootOfMember s s.fabric.memberId).1

/-! ## Ports and peers -/

/-- A port session that is not agreed. -/
def Session.reset : Session := ⟨false, false, false, 0, 0, 0, 0, 0, 0, 0, 0, none, none, 0, 0, 0, 0, 0⟩

/-- A port that is DOWN with nothing in flight. -/
def Port.reset : Port where
  st := .down
  rate := 0
  fails := 0
  badFlits := 0
  badRun := 0
  seqTx := 0
  seqRx := 0
  ackRx := 0
  creditsTx := [0, 0, 0, 0, 0, 0, 0]
  buffered := [0, 0, 0, 0, 0, 0]
  creditsDue := [0, 0, 0, 0, 0, 0]
  tx := []
  gaps := (15, 15)
  turns := [4, 4, 1]
  alive := 0
  fastBells := 0
  pinArmed := true
  oneWay := 0
  offset := 0
  calib := 0
  neighbour := 0
  probing := none
  probeSent := false
  syncT := none
  discardMsg := false
  session := .reset

/-- Fabric port `p` (0 to 9). -/
def portOf (s : State) (p : Nat) : Port := tgetD s.fabric.ports p .reset

/-- Change port `p`. -/
def portMod (s : State) (p : Nat) (f : Port → Port) : State :=
  { s with fabric := { s.fabric with ports := tmod s.fabric.ports p .reset f } }

/-- Is port `p` UP. -/
def portUp (s : State) (p : Nat) : Bool := (portOf s p).st = .up

/-- The ports that are UP. -/
def upPorts (s : State) : List Nat := (List.range 10).filter (portUp s)

/-- Peer table entry of a member; one that is not listed is ABSENT. -/
def Peer.reset : Peer := ⟨.absent, 0, 0, []⟩

/-- Peer `m`. -/
def peerOf (s : State) (m : Nat) : Peer := tgetD s.fabric.peers m .reset

/-- May a message leave by a port: it is UP, and the neighbour behind it is not LOST (R287). -/
def portOpen (s : State) (p : Nat) : Bool := portUp s p && (peerOf s (neighbourOf s s.fabric.memberId p)).st ≠ .lost

/-- The direction of R286 at this member for a message to `y`. One with DETOUR set that came in by port `via` goes on the other way round
the ring until its coordinate matches (R287). -/
def wayTo (s : State) (y : Nat) (via : Option (Nat × Bool)) : Option Nat :=
  (nextPort s s.fabric.memberId y).map (fun p => match via with
    | some (q, true) => if q / 2 = p / 2 then otherWay q else p
    | _ => p)

/-- The port by which a message to `y` leaves this member, and whether it takes a detour there (R286, R287). -/
def choosePort (s : State) (y : Nat) (via : Option (Nat × Bool)) : Option (Nat × Bool) :=
  match wayTo s y via with
  | none => none
  | some p =>
    if portOpen s p then some (p, false)
    else if portOpen s (otherWay p) then some (otherWay p, true)
    else ((List.range 10).find? (fun q => decide (p / 2 < q / 2) && portUp s q)).map (fun q => (q, true))

end Sys2Proof.Machine
end

