-- ==== Sys2Proof/Machine/Ops.lean ====
section
/-!
DEFINITION. The named operations every command is written with: stored object values, time, counters, sticky records, logs, messages of
the fabric, the tally, completions with freeze-on-error, asynchronous events, and device transitions.
-/

namespace Sys2Proof.Machine

/-! ## Stored object values -/

/-- The key of an object member: index × 256 + subindex. -/
def odKey (idx sub : Nat) : Nat := idx * 256 + sub

/-- The row of the object tables that names a member, on the variant and capacity of this drive (R37, R63). -/
def odRow (s : State) (idx sub : Nat) : Option OdRow :=
  odTable.find? (fun r => decide (r.lo ≤ idx) && decide (idx ≤ r.hi) && decide (r.subLo ≤ sub) && decide (sub ≤ r.subHi)
    && (s.ident.meshed || !r.mOnly) && !(idx = 0x2221 && s.ident.dies ≤ 128))

/-- The default of a member of a row. -/
def rowDefault (r : OdRow) (sub : Nat) : Nat := r.dflt.getD (sub - r.subLo) (r.dflt.getLastD 0)

/-- The default of an object member (R13), with the values that the S variant has of its own (R26, Table 3.7). -/
def odDefault (s : State) (idx sub : Nat) : Nat :=
  if !s.ident.meshed && sub = 2 && (idx = 0x2040 || idx = 0x2041) then 0
  else if !s.ident.meshed && idx = 0x2002 then 1
  else match odRow s idx sub with
    | some r => rowDefault r sub
    | none => if idx = 0x6200 ∨ idx = 0x6201 then 1
              else if idx = 0x6207 then 256
              else if 0x6300 + 200 ≤ idx ∧ idx ≤ 0x6300 + 231 ∧ sub = 0x0A then 16
              else if 0x6300 + 233 ≤ idx ∧ idx ≤ 0x6300 + 242 ∧ sub = 6 ∧ s.ident.meshed then 1
              else 0

/-- The stored value of a writable object member: what was last applied, or the default. -/
def odVal (s : State) (idx sub : Nat) : Nat := (tget s.od (odKey idx sub)).getD (odDefault s idx sub)

/-- Store a value in an object member. -/
def odSet (s : State) (idx sub v : Nat) : State := { s with od := tput s.od (odKey idx sub) v }

/-! ## Time -/

/-- The bell period of a code, in ns (Table 3.2). -/
def periodOf (code : Nat) : Nat :=
  match code with
  | 0 => 20000
  | 2 => 80000
  | _ => 40000

/-- The bell period in force, in ns. -/
def periodNs (s : State) : Nat := periodOf (odVal s 0x2001 0)

/-- Has this bell just begun: its edge is the present moment, chime boundary 0 not yet passed. What an edge alone allows is done
then (R41, R46, R66). -/
def atEdge (s : State) : Bool := s.bell.chime = 0

/-- Has part of the present bell passed since its edge; chime boundary 0 lies at the edge itself. -/
def midBell (s : State) : Bool := decide (1 < s.bell.chime)

/-- The chime boundary passed last, counted since power-up. -/
def chimeNow (s : State) : Nat := 8 * s.bell.ticks + s.bell.chime

/-- The bell period in force, in µs. -/
def periodUs (s : State) : Nat := periodNs s / 1000

/-- One chime, in ns. -/
def chimeNs (s : State) : Nat := periodNs s / 8

/-- The time of the chime boundary passed last, in ns since power-up. -/
def nowNs (s : State) : Nat := s.bell.edgeNs + (s.bell.chime - 1) * chimeNs s

/-- The core clock in MHz (R15). -/
def clockMHz (s : State) : Nat := if s.ident.meshed then 1600 else 1200

/-- Draw the next free value. -/
def drawFree (s : State) : Nat × State := (Config.freeValue s.free, { s with free := s.free + 1 })

/-- `n` free bytes, for an output that the spec leaves undefined. -/
def drawBytes (s : State) (n : Nat) : Bytes × State :=
  ((List.range n).map (fun i => Config.freeValue (s.free + i) % 256), { s with free := s.free + n })

/-! ## Outputs -/

/-- Append an output. -/
def emit (s : State) (o : Out) : State := { s with out := s.out ++ [o] }

/-! ## Sticky records and logs -/

/-- The firmware version that runs, in the layout of OD 0x2B11 (Table 16.2). -/
def fwVersion (s : State) : Nat := 7 * 2 ^ 24 + 2 * 2 ^ 16 + s.ident.patch % 2 ^ 16

/-- Code of a device state (Table 2.5). -/
def DevState.code : DevState → Nat
  | .off => 0 | .boot => 1 | .config => 2 | .run => 3 | .drain => 4 | .paused => 5 | .frozen => 6 | .fault => 7

/-- Raise a sticky record (R379 to R383). It is stored at the next chime boundary; in FROZEN the always-on domain
holds it, up to 16 records, and further ones are lost (R453). -/
def raiseRecord (s : State) (r : Record) : State :=
  let r := { r with bell := s.bell.count, fw := fwVersion s }
  if s.dev.state = .frozen ∨ s.dev.state = .off then
    if s.sticky.heldFrozen.length < 16 then
      { s with sticky := { s.sticky with heldFrozen := s.sticky.heldFrozen ++ [r] } }
    else
      { s with sticky := { s.sticky with written := s.sticky.written + 1, lost := sat 32 (s.sticky.lost + 1),
                                         lostCode := r.code, lostBell := r.bell } }
  else { s with sticky := { s.sticky with pending := s.sticky.pending ++ [r] } }

/-- A record with a code and nothing else; fields are added by record update. -/
def Record.of (code : Nat) : Record := ⟨0, 0, code, 0, 0, none, false, false, 0, 0, 0, 0⟩

/-- Write a Bell log entry (R84); the ring keeps the newest 256. -/
def bellLog (s : State) (code unit old new : Nat) (detail : Int) : State :=
  let l := s.bell.log ++ [⟨s.bell.count, code, unit, old, new, detail⟩]
  { s with bell := { s.bell with log := l.drop (l.length - 256), logWritten := s.bell.logWritten + 1 } }

/-! ## Counters -/

/-- Counter classes (R388). -/
inductive CounterClass where
  | wraps | stick | event
  deriving DecidableEq, Repr

/-- The class of a counter object member (Tables 16.8 and 16.9), or none where no counter stands. -/
def counterClass (idx sub : Nat) : Option CounterClass :=
  if idx = 0x6000 ∨ idx = 0x6001 ∨ idx = 0x6007 then (if sub = 0 then some .event else none)
  else if idx = 0x600A then (if sub = 0 then some .stick else none)
  else if 0x6002 ≤ idx ∧ idx ≤ 0x600F ∧ idx ≠ 0x600C ∧ idx ≠ 0x600D ∧ idx ≠ 0x600A then
    (if sub = 0 then some .wraps else none)
  else if idx = 0x600C ∨ idx = 0x600D ∨ idx = 0x6014 ∨ idx = 0x6015 then
    (if 1 ≤ sub ∧ sub ≤ 4 then some .wraps else none)
  else if idx = 0x6010 ∨ idx = 0x6011 then (if 1 ≤ sub ∧ sub ≤ 6 then some .wraps else none)
  else if idx = 0x6012 ∨ idx = 0x6017 then (if sub = 0 then some .wraps else none)
  else if idx = 0x6013 then (if 1 ≤ sub ∧ sub ≤ 2 then some .wraps else none)
  else if idx = 0x6016 then (if 1 ≤ sub ∧ sub ≤ 3 then some .wraps else none)
  else if 0x6100 ≤ idx ∧ idx ≤ 0x61F5 then
    let u := idx - 0x6100
    if sub = 1 then some .stick
    else if sub = 2 ∨ sub = 3 then some .wraps
    else if 1 ≤ u ∧ u ≤ 4 then (if sub = 4 then some .wraps else none)
    else if 5 ≤ u ∧ u ≤ 6 then (if sub = 4 ∨ sub = 5 then some .wraps else none)
    else if 8 ≤ u ∧ u ≤ 23 then
      (if sub = 4 then some .stick else if 5 ≤ sub ∧ sub ≤ 7 then some .wraps else none)
    else if 24 ≤ u ∧ u ≤ 71 then
      (if sub = 4 then some .event else if 5 ≤ sub ∧ sub ≤ 7 then some .wraps
       else if sub = 8 then some .stick else none)
    else if 72 ≤ u ∧ u ≤ 199 then (if 4 ≤ sub ∧ sub ≤ 6 then some .wraps else none)
    else if 200 ≤ u ∧ u ≤ 231 then
      (if 4 ≤ sub ∧ sub ≤ 9 then some .wraps else if sub = 0x0A then some .event else none)
    else if u = 232 then (if sub = 4 ∨ sub = 5 then some .wraps else none)
    else if 233 ≤ u ∧ u ≤ 242 then
      (if sub = 4 ∨ sub = 5 ∨ sub = 7 ∨ sub = 8 then some .wraps else if sub = 6 then some .event else none)
    else none
  else none

/-- Is the counter one that reads zero on the S variant (R390). -/
def counterDead (s : State) (idx : Nat) : Bool :=
  !s.ident.meshed && (idx = 0x600E || idx = 0x6014 || idx = 0x6105 || idx = 0x6106 || (0x61E9 ≤ idx && idx ≤ 0x61F2))

/-- The present value of a counter. -/
def counterVal (s : State) (idx sub : Nat) : Nat := tgetD s.counters (odKey idx sub) 0

/-- Add `n` to a counter by the rule of its class (R388), with the record that saturation or the threshold writes. -/
def count (s : State) (idx sub n : Nat) : State :=
  if counterDead s idx then s else
  match counterClass idx sub with
  | none => s
  | some .wraps => { s with counters := tput s.counters (odKey idx sub) (wrap 64 (counterVal s idx sub + n)) }
  | some .stick =>
    let old := counterVal s idx sub
    let new := sat 32 (old + n)
    let s' := { s with counters := tput s.counters (odKey idx sub) new }
    if old < 2 ^ 32 - 1 ∧ new = 2 ^ 32 - 1 then
      raiseRecord s' { Record.of 0x1003 with a := idx + 2 ^ 16 * sub }
    else s'
  | some .event =>
    let old := counterVal s idx sub
    let new := sat 32 (old + n)
    let thr := odVal s (idx + 0x200) sub
    let s' := { s with counters := tput s.counters (odKey idx sub) new }
    if thr ≠ 0 ∧ old < thr ∧ thr ≤ new then
      raiseRecord s' { Record.of 0x1004 with a := idx + 2 ^ 16 * sub, b := thr }
    else s'

/-! ## Units -/

/-- A unit that has never been reset: epoch 0, IDLE. -/
def UnitSt.reset : UnitSt := ⟨0, .idle, 0, false, 0, []⟩

/-- Unit `u`. -/
def unitOf (s : State) (u : Nat) : UnitSt := tgetD s.units u .reset

/-- Change unit `u`. -/
def unitMod (s : State) (u : Nat) (f : UnitSt → UnitSt) : State := { s with units := tmod s.units u .reset f }

/-- The epoch that an entry issued to unit `u` takes: the unit's own, or for a remote member the membership epoch of
the peer (R443). -/
def epochFor (s : State) (u peer : Nat) : Nat :=
  if u = 255 then ((tget s.fabric.peers peer).map (fun p => p.epoch)).getD 0 else (unitOf s u).epoch

/-- The task of a unit that crossed an edge has ended: the planner may place work on the unit again, and a later task that crosses an edge
is a new case (R73). -/
def taskEnds (s : State) (u : Nat) : State :=
  let x := unitOf s u
  if x.withdrawn || x.crossed ≠ 0 then unitMod s u (fun x => { x with withdrawn := false, crossed := 0 }) else s

/-- May the planner place work on a unit: it is not in RESET and not withdrawn from the plan (R73). -/
def unitOpen (s : State) (u : Nat) : Bool := (unitOf s u).state ≠ .reset && !(unitOf s u).withdrawn

/-- Unit numbers that this drive has powered (R16, R64, Table 1.4). -/
def unitPresent (s : State) (u : Nat) : Bool :=
  decide (u ≤ 245) && (s.ident.meshed || !(u = 5 || u = 6 || (233 ≤ u && u ≤ 242)))

/-! ## Messages of the fabric (R279, R280, R286 to R288) -/

/-- A header of this member (Table 12.5). -/
def ownTxn (s : State) (dst cls tag len addr bell group : Nat) : Txn where
  port := 0
  reply := false
  detour := false
  cls := cls
  hops := 0
  tryNo := 0
  guildId := s.fabric.guildId
  src := s.fabric.memberId
  srcEpoch := s.fabric.epoch
  dst := dst
  dstEpoch := (peerOf s dst).epoch
  tag := tag
  length := len
  addr := addr
  bell := bell
  group := group

/-- Bytes of payload that a message carries (Table 12.6). The values of a CONTROL or TIME payload count 8 bytes each and a SESSION message
256, for the spec gives them no layout (PRESUMED, log entry 32). -/
def payloadBytes (type sub : Nat) (data : List Nat) : Nat :=
  if type = 8 ∧ sub = 7 then 256 else if type = 7 ∨ type = 8 then 8 * data.length else data.length

/-- Flits of a message (R279): 192 bytes of payload in its HEAD flit, 240 in each BODY flit. -/
def flitsOf (bytes : Nat) : Nat := 1 + ceilDiv (bytes - 192) 240

/-- The virtual lane of a message (R290): 5 for TIME, 4 for CONTROL, else its class. -/
def laneOf (type cls : Nat) : Nat := if type = 7 then 5 else if type = 8 then 4 else cls % 4

/-- Flits of the two longest messages of a lane (R288). -/
def bubble (vl : Nat) : Nat := if vl < 4 then 548 else 32

/-- Queue a message on a port, in the order of its lane (R282). `onRing` says that it goes on along the ring that it came by, and needs
credits for its own length only (R288). -/
def queueMsg (s : State) (p : Nat) (onRing : Bool) (x : Txn) (type status : Nat) (data : List Nat) : State :=
  let n := flitsOf (payloadBytes type x.addr data)
  let vl := laneOf type x.cls
  portMod s p (fun y => { y with tx := y.tx ++ [⟨{ x with port := p }, type, status, data, vl, n, false, if onRing then n else bubble vl,
    s.bell.ticks⟩] })

/-- Send a message toward its destination (R286, R287); with no way open it is discarded and counted. `via` is the port that it came in by,
none for one of this member. -/
def routeMsg (s : State) (via : Option Nat) (x : Txn) (type status : Nat) (data : List Nat) : State :=
  match choosePort s x.dst (via.map (fun q => (q, x.detour))) with
  | some (p, d) => queueMsg s p (via = some (otherWay p) && !d) { x with detour := x.detour || d } type status data
  | none => count s 0x6014 4 1

/-- Send a message of this member. -/
def sendMsg (s : State) (x : Txn) (type status : Nat) (data : List Nat) : State := routeMsg s none x type status data

/-- Send a reply of this member to the source of a request (R284, R286). -/
def sendReply (s : State) (x : Txn) (type status bell : Nat) (data : List Nat) : State :=
  sendMsg s { x with reply := true, detour := false, hops := 0, tryNo := 0, src := s.fabric.memberId, dst := x.src, srcEpoch := s.fabric.epoch,
                     dstEpoch := x.srcEpoch, bell := bell, length := data.length } type status data

/-! ## The tally -/

/-- The kinds in the order of the quota subindices. -/
def Kind.code : Kind → Nat
  | .host => 0 | .fabric => 1 | .search => 2 | .stream => 3 | .internal => 4

/-- Occupancy of a kind. -/
def occ (t : Tally) (k : Kind) : Nat := (t.entries.filter (fun p => decide (p.2.origin.kind = k))).length

/-- Entries of CLASS 0. -/
def urgentOcc (t : Tally) : Nat := (t.entries.filter (fun p => p.2.cls = 0)).length

/-- The kinds of Table 1.6. -/
def kinds : List Kind := [.host, .fabric, .search, .stream, .internal]

/-- Minimum of a kind (OD 0x2040). -/
def minOf (s : State) (k : Kind) : Nat := odVal s 0x2040 (k.code + 1)

/-- Ceiling of a kind (OD 0x2041). -/
def ceilOf (s : State) (k : Kind) : Nat := odVal s 0x2041 (k.code + 1)

/-- shared_free of R21. -/
def sharedFree (s : State) : Nat :=
  131072 - (kinds.map (occ s.tally)).sum - (kinds.map (fun k => minOf s k - occ s.tally k)).sum

/-- The admission test of R21. -/
def admits (s : State) (k : Kind) (cls : Nat) : Bool :=
  if ceilOf s k ≤ occ s.tally k then false
  else if cls = 0 ∧ odVal s 0x2045 0 ≤ urgentOcc s.tally then false
  else if occ s.tally k < minOf s k then true
  else decide (0 < sharedFree s)

/-- A number that is no tally index, for work that no entry waits for. -/
def noEntry : Nat := 131072

/-- The lowest tally index that is FREE. -/
def freeIndex : Table Entry → Nat → Nat
  | [], n => n
  | (k, _) :: t, n => if k = n then freeIndex t (n + 1) else if k < n then freeIndex t n else n

/-- Admit a request: a new entry in state ADMITTED at the lowest free index. Answers the index. -/
def admitEntry (s : State) (r : Request) : Nat × State :=
  let i := freeIndex s.tally.entries 0
  let peer := match r.origin with | .fabric p _ => p | _ => 0
  let e : Entry := ⟨r.origin, r.no, s.tally.issued, chimeNow s, r.cls, .admitted, r.ordered, false, r.unit, epochFor s r.unit peer, 0,
    r.deadline, s.bell.count, r.parent, false, r.notReady, r.unlisted, s.bell.count⟩
  (i, { s with tally := { s.tally with entries := tput s.tally.entries i e, issued := s.tally.issued + 1 } })

/-- The entry at a tally index. -/
def entryAt (s : State) (i : Nat) : Option Entry := tget s.tally.entries i

/-- Change the entry at a tally index, where there is one. -/
def entryMod (s : State) (i : Nat) (f : Entry → Entry) : State :=
  { s with tally := { s.tally with
      entries := s.tally.entries.map (fun p => if p.1 = i then (p.1, f p.2) else p) } }

/-- The effective class of an entry (R32). -/
def effClass (e : Entry) : Nat := if e.promoted then min e.cls 1 else e.cls

/-- Does R32 place the first entry before the second. -/
def before (a b : Nat × Entry) : Bool :=
  if effClass a.2 ≠ effClass b.2 then decide (effClass a.2 < effClass b.2)
  else if a.2.age ≠ b.2.age then decide (b.2.age < a.2.age)
  else decide (a.1 < b.1)

/-- Set an entry RUNNING; it and its ancestors count as dispatched (R103). The depth of the family is at most 4. -/
def markDispatched (s : State) : Nat → Nat → State
  | 0, _ => s
  | n + 1, i =>
    match entryAt s i with
    | none => s
    | some e =>
      let s := entryMod s i (fun e => { e with dispatched := true })
      match e.parent with
      | none => s
      | some p => markDispatched s n p

/-- Set an entry RUNNING on its unit. -/
def setRunning (s : State) (i : Nat) : State :=
  markDispatched (entryMod s i (fun e => { e with state := .running })) 4 i

/-- Set an entry's state. -/
def setState (s : State) (i : Nat) (st : EState) : State := entryMod s i (fun e => { e with state := st })

/-- An entry whose work has been placed is PLANNED where it has not run yet (R70); `st` is WAITING for one that is displaced (R71). -/
def replan (s : State) (entry : Nat) (st : EState) : State :=
  entryMod s entry (fun e => { e with state := if e.state = .running || e.state = .replying || e.state = .held then e.state else st })

/-! ## The energy budget -/

/-- Is an entry one of effective class 0. -/
def urgentEntry (s : State) (i : Nat) : Bool := (entryAt s i).any (fun e => effClass e = 0)

/-- Does the energy budget of the bell take one more placement for an entry (R343): CLASS 0 is deferred only by CLASS 0 (R344). The spec gives
no energies, so how many placements the budget of a bell takes is a free value, drawn at the bell edge (log entry 19). -/
def affords (s : State) (i : Nat) : Bool :=
  if urgentEntry s i then decide (0 < s.power.urgentBudget) else decide (0 < s.power.budget)

/-- Charge one placement for an entry. -/
def charge (s : State) (i : Nat) : State :=
  { s with power := { s.power with
      budget := s.power.budget - 1, urgentBudget := if urgentEntry s i then s.power.urgentBudget - 1 else s.power.urgentBudget } }

/-- The budget turns an entry away in this bell: an entry of CLASS 0 is counted, once (R344). -/
def defer (s : State) (i : Nat) : State :=
  if urgentEntry s i && !s.power.deferred.contains i then
    count { s with power := { s.power with deferred := s.power.deferred ++ [i] } } 0x6001 0 1
  else s

/-- Place work for an entry where the budget takes it. -/
def withBudget (s : State) (i : Nat) (place : State → State) : State := if affords s i then place (charge s i) else defer s i

/-- A child request of entry `p` (R18, R93): CLASS inherited. -/
def childReq (s : State) (p : Nat) (o : Origin) (unit : Nat) : Request :=
  let e := entryAt s p
  ⟨o, 0, (e.map (fun e => e.cls)).getD 3, unit, some p, 0, false, false, 0, none⟩

/-- A request that has become ready (R20): it waits for the next chime boundary, which admits or refuses it. -/
def await (s : State) (r : Request) : State := { s with tally := { s.tally with waiting := s.tally.waiting ++ [r] } }

/-- An INTERNAL job of a class with no parent. -/
def jobReq (job tag cls unit : Nat) : Request := ⟨.internal job tag, 0, cls, unit, none, 0, false, false, 0, none⟩

/-- Is `a` the entry `i`, or does it descend from it. -/
def descends (es : Table Entry) : Nat → Nat → Nat → Bool
  | 0, i, a => i = a
  | n + 1, i, a =>
    if i = a then true else
    match tget es a with
    | none => false
    | some e => match e.parent with
      | none => false
      | some p => descends es n i p

/-- The tally indices of an entry and all its descendants. -/
def family (s : State) (i : Nat) : List Nat :=
  (s.tally.entries.filter (fun p => descends s.tally.entries 4 i p.1)).map (fun p => p.1)

/-- The root of an entry's family. -/
def rootOf (s : State) : Nat → Nat → Nat
  | 0, i => i
  | n + 1, i =>
    match entryAt s i with
    | none => i
    | some e => match e.parent with
      | none => i
      | some p => rootOf s n p

/-- Take the gangs of the invocations in `ids` from every core (R191). -/
def dropGangs (c : Compute) (ids : List Nat) : Compute :=
  { c with cores := c.cores.map (fun p =>
      (p.1, { p.2 with gangs := p.2.gangs.filter (fun g => !ids.contains g.2.inv) })) }

/-- A loom with nothing on it. -/
def Loom.reset : Loom := ⟨0, 0, 0, 0, none, none, none⟩

/-- A loom whose steps for the freed entries have gone. It stays held for the rest of the bell (R184). -/
def Loom.without (gone : List Nat) (x : Loom) : Loom :=
  let cut := x.step.any (fun st => gone.contains st.child)
  { x with
    step := if cut then none else x.step
    slots := if cut then 0 else x.slots
    next := x.next.filter (fun p => !gone.contains p.entry)
    plan := x.plan.filter (fun p => !gone.contains p.entry) }

/-- End the work that the freed entries stood for, wherever a unit keeps a record of it. -/
def dropWork (s : State) (gone : List Nat) : State :=
  let has (i : Nat) : Bool := gone.contains i
  let c := s.compute
  let ended := (c.invs.filter (fun p => has p.2.entry)).map (fun p => p.1)
  let c := dropGangs { c with
      invs := c.invs.filter (fun p => !has p.2.entry),
      directs := c.directs.filter (fun d => !has d.entry),
      looms := c.looms.map (fun p => (p.1, p.2.without gone)) } ended
  { s with
    compute := c
    tally := { s.tally with
      entries := s.tally.entries.filter (fun p => !has p.1),
      waiting := s.tally.waiting.filter (fun r => match r.parent with | some p => !has p | none => true) }
    host := { s.host with
      posting := s.host.posting.filter (fun p => !has p.entry)
      stopping := s.host.stopping.filter (fun i => !has i) }
    flash := { s.flash with
      ladders := s.flash.ladders.filter (fun l => !has l.entry)
      jobs := s.flash.jobs.filter (fun j => !has j.entry) }
    ledger := { s.ledger with
      writes := s.ledger.writes.filter (fun w => !has w.entry),
      staged := (s.ledger.staged.filter (fun g => !(has g.entry && g.placed.isNone))).map (fun g =>
        if has g.entry then { g with entry := noEntry } else g)
      copies := s.ledger.copies.filter (fun c => !(has c.entry && c.placed.isNone))
      care := s.ledger.care.filter (fun c => !(match c.entry with | some i => has i | none => false)) }
    sifters := { s.sifters with
      slots := s.sifters.slots.filter (fun p => !(p.2.st = 1 && has p.2.entry))
      mounts := s.sifters.mounts.filter (fun m => !has m.entry)
      searches := (s.sifters.searches.filter (fun q => !has q.entry)).map (fun q =>
        { q with contexts := q.contexts.filter (fun x => !has x.entry) }) }
    streams := { s.streams with
      slices := s.streams.slices.filter (fun x => !has x.target)
      handRows := s.streams.handRows.filter (fun x => !ended.contains x.1)
      table := s.streams.table.map (fun p => (p.1,
        { p.2 with
          failures := if p.2.remoteFed then
              p.2.failures + (p.2.chunks.filter (fun k => has k.carrier || has k.entry)).length else p.2.failures,
          chunks := p.2.chunks.filter (fun k => !(has k.carrier || has k.entry)),
          working := if p.2.chunks.any (fun k => k.dispatched && (has k.carrier || has k.entry)) || p.2.ended.any (fun x => has x.1) then none
                     else p.2.working,
          ended := p.2.ended.filter (fun x => !has x.1),
          parks := p.2.parks.filter (fun k => !has k.entry) })) }
    fabric := { s.fabric with
      originated := s.fabric.originated.filter (fun o => !(has o.entry || has o.parent)),
      remotes := s.fabric.remotes.filter (fun r => !has r.entry) } }

/-- Free an entry with all its descendants. -/
def freeFamily (s : State) (i : Nat) : State := dropWork s (family s i)

/-! ## Asynchronous events -/

/-- The log page of an event (Table 4.15). A Yarwell event is its information code; a standard event of NVMe Base 2.1 is
256 × its type + its information code: type 1 SMART/Health, whose page is 0x02, and type 2, the notices, whose one here is Firmware
Activation Starting, page 0x03. -/
def eventPage (info : Nat) : Nat :=
  match info with
  | 1 => 0xC1 | 2 => 0xC1 | 3 => 0xC0 | 4 => 0xC2 | 5 => 0xC3 | 6 => 0xC4
  | n => if 0x200 ≤ n then 0x03 else 0x02

/-- Raise an asynchronous event (R106): nothing where its code is disabled in OD 0x2140, or masked. It is reported at a chime boundary
(R447). -/
def raiseEvent (s : State) (info : Nat) : State :=
  if (decide (0x100 ≤ info) || bit (odVal s 0x2140 0) (info - 1)) && !s.host.masked.contains info && !s.host.pendingEvents.contains info then
    { s with host := { s.host with pendingEvents := s.host.pendingEvents ++ [info] } }
  else s

/-- Set bit `k` of the critical warning byte of SMART/Health. A bit that rises raises the standard event (R106): information code
0 reliability, 1 temperature, 2 spare. -/
def warnHost (s : State) (k info : Nat) : State :=
  if bit s.host.warning k then s
  else raiseEvent { s with host := { s.host with warning := setBit s.host.warning k } } (0x100 + info)

/-- A log page has been read (R106): with Retain Asynchronous Event clear its codes are armed again, and events of them that have
not been reported are discarded. -/
def pageRead (s : State) (page : Nat) (rae : Bool) : State :=
  if rae then s
  else { s with host := { s.host with masked := s.host.masked.filter (fun c => eventPage c ≠ page)
                                      pendingEvents := s.host.pendingEvents.filter (fun c => eventPage c ≠ page) } }

/-! ## The layout of a tally entry -/

/-- Code of an entry state (Table 1.8). -/
def EState.code : EState → Nat
  | .admitted => 1 | .planned => 2 | .running => 3 | .waiting => 4 | .replying => 5 | .held => 6

/-- ORIGIN (Table 1.9). -/
def Origin.pack : Origin → Nat
  | .host sq cid => sq % 256 * 2 ^ 32 + cid % 2 ^ 16 * 2 ^ 16
  | .fabric peer tag => peer % 2 ^ 17 * 2 ^ 23 + tag % 2 ^ 23
  | .search sf cx p => sf % 256 * 2 ^ 32 + cx % 1024 * 2 ^ 22 + p % 2 ^ 17
  | .stream sid seq => sid % 2 ^ 16 * 2 ^ 24 + seq % 2 ^ 24
  | .internal job tag => job % 256 * 2 ^ 32 + tag % 2 ^ 32

/-- The 128-bit layout of Table 1.7 (R19). -/
def Entry.pack (e : Entry) : Nat :=
  e.origin.kind.code * 2 ^ 125 + e.cls % 8 * 2 ^ 122 + e.state.code * 2 ^ 118 + (if e.ordered then 2 ^ 117 else 0)
    + (if e.promoted then 2 ^ 116 else 0) + e.unit % 256 * 2 ^ 104 + e.epoch % 256 * 2 ^ 96 + e.age % 2 ^ 16 * 2 ^ 80
    + e.deadline % 2 ^ 16 * 2 ^ 64 + e.admitBell % 2 ^ 24 * 2 ^ 40 + e.origin.pack

/-! ## Completions and freeze-on-error -/

/-- A status as (status code type, status code) where the spec gives it (Table 4.11), else by the generic code of
NVMe Base 2.1 that its name stands for. -/
def statusCode : Status → Nat × Nat
  | .success => (0, 0x00)
  | .invalidOpcode => (0, 0x01)
  | .invalidField => (0, 0x02)
  | .dataTransferError => (0, 0x04)
  | .internalError => (0, 0x06)
  | .abortRequested => (0, 0x07)
  | .sqDeleted => (0, 0x08)
  | .invalidNamespace => (0, 0x0B)
  | .commandSequenceError => (0, 0x0C)
  | .sanitizeInProgress => (0, 0x1D)
  | .namespaceWriteProtected => (0, 0x20)
  | .lbaOutOfRange => (0, 0x80)
  | .namespaceNotReady => (0, 0x82)
  | .insufficientCapacity => (0, 0x81)
  | .unrecoveredRead => (2, 0x81)
  | .queueFrozenAbort => (7, 0x80)
  | .kernelFault => (7, 0x81)
  | .unitReset => (7, 0x82)
  | .memberLost => (7, 0x83)
  | .memberPaused => (7, 0x84)
  | .deadlineMissed => (7, 0x85)
  | .streamParked => (7, 0x86)
  | .tallyFull => (7, 0x87)
  | .penHeld => (7, 0x88)
  | .activationPending => (7, 0x89)
  | .partialResult => (7, 0x8A)
  | .completionQueueInvalid => (1, 0x00)
  | .invalidQueueId => (1, 0x01)
  | .invalidQueueSize => (1, 0x02)
  | .abortLimit => (1, 0x03)
  | .asyncLimit => (1, 0x05)
  | .firmwareSlotInvalid => (1, 0x06)
  | .firmwareImageInvalid => (1, 0x07)
  | .invalidVector => (1, 0x08)
  | .invalidLogPage => (1, 0x09)
  | .invalidFormat => (1, 0x0A)
  | .invalidQueueDeletion => (1, 0x0C)
  | .featureNotSaveable => (1, 0x0D)
  | .featureNotChangeable => (1, 0x0E)
  | .needsReset => (1, 0x0B)
  | .firmwareNeedsColdReset => (1, 0x10)
  | .firmwareProhibited => (1, 0x13)
  | .overlappingRange => (1, 0x14)
  | .namespaceIdUnavailable => (1, 0x16)
  | .invalidPlacement => (0, 0x2A)
  | .insufficientResources => (0, 0x1E)
  | .programNotFound => (0, 0x02)
  | .programInvalid => (0, 0x02)

/-- Is a status a failing one under a freeze policy (R102). -/
def failing (policy : Nat) : Status → Bool
  | .success => false
  | .partialResult => false
  | .queueFrozenAbort => false
  | .namespaceNotReady => bit policy 1
  | .unitReset => bit policy 1
  | .memberPaused => bit policy 1
  | .tallyFull => bit policy 1
  | _ => true

/-- Head of a submission queue as a completion reports it. -/
def sqHead (s : State) (sq : Nat) : Nat := ((tget s.host.sqs sq).map (fun q => q.head)).getD 0

/-- The DNR bit of a status (Table 4.11); of a type other than 7 the spec gives none. -/
def statusDnr : Status → Bool
  | .kernelFault => true
  | .deadlineMissed => true
  | .penHeld => true
  | st => if (statusCode st).1 = 7 then false else Config.dnrBit ((statusCode st).1 * 256 + (statusCode st).2)

/-- The MSI-X message that follows an entry of a queue's completion queue (R447). -/
def interrupt (s : State) (sq : Nat) : State :=
  match tget s.host.sqs sq with
  | none => if sq = 0 then emit s (.msix 0) else s
  | some q => match tget s.host.cqs q.cq with
    | some c => if c.ien then emit s (.msix c.vector) else s
    | none => if sq = 0 then emit s (.msix 0) else s

/-- Post one completion with its MSI-X message (R91, R101). -/
def postOnly (s : State) (sq cid : Nat) (st : Status) (dw0 dw1 : Nat) : State :=
  interrupt (emit s (.completion sq cid st (statusDnr st) dw0 dw1 (sqHead s sq))) sq

/-- Report the pending events through the outstanding requests, oldest first (R106), each by a completion on the admin queue with its
head (R91). Every report masks its code. -/
def reportEvents (s : State) : List Nat → List Nat → State
  | cid :: aers, info :: events =>
    reportEvents (interrupt (emit { s with host := { s.host with aers := aers, pendingEvents := events, masked := info :: s.host.masked } }
      (.event cid info (eventPage info) (sqHead s 0))) 0) aers events
  | _, _ => s

/-- The asynchronous events at a chime boundary. -/
def postEvents (s : State) : State := reportEvents s s.host.aers s.host.pendingEvents

/-- Entries of a queue that have been dispatched. -/
def dispatchedOf (s : State) (sq : Nat) : Nat :=
  (s.tally.entries.filter (fun p => match p.2.origin with
    | .host q _ => decide (q = sq) && p.2.dispatched
    | _ => false)).length

/-- The commands of a queue that have been fetched and not dispatched, as (fetch number, command identifier, tally
index if admitted), in fetch order. -/
def undispatchedOf (s : State) (sq : Nat) : List (Nat × Nat × Option Nat) :=
  let es := s.tally.entries.filterMap (fun p => match p.2.origin with
    | .host q cid => if q = sq ∧ p.2.dispatched = false then some (p.2.no, cid, some p.1) else none
    | _ => none)
  let ws := s.tally.waiting.filterMap (fun r => match r.origin with
    | .host q cid => if q = sq then some (r.no, cid, none) else none
    | _ => none)
  sortBy (fun a b => decide (a.1 ≤ b.1)) (es ++ ws)

/-- A fetched command waits for admission no more. -/
def unwait (s : State) (sq cid : Nat) : State :=
  { s with tally := { s.tally with waiting := s.tally.waiting.filter (fun r => r.origin ≠ .host sq cid) } }

/-- Complete one undispatched command with Queue Frozen Abort at the boundary that freezes its queue (R103). -/
def abortOne (sq : Nat) (s : State) (c : Nat × Nat × Option Nat) : State :=
  let s := match c.2.2 with
    | some i => freeFamily s i
    | none => unwait s sq c.2.1
  count (postOnly s sq c.2.1 .queueFrozenAbort 0 0) 0x600B 0 1

/-- Change a submission queue. -/
def sqMod (s : State) (sq : Nat) (f : Sq → Sq) : State :=
  { s with host := { s.host with sqs := s.host.sqs.map (fun p => if p.1 = sq then (p.1, f p.2) else p) } }

/-- The queue enters QUIET (R103): the bell goes into its Freeze log entry and event 0x02 is raised. -/
def enterQuiet (s : State) (sq : Nat) : State :=
  raiseEvent (sqMod s sq (fun q => { q with
    freeze := .quiet
    log := q.log.map (fun l => { l with quietBell := s.bell.count, outstanding := 0 }) })) 2

/-- Freeze a queue after its failing completion has been posted: steps 1 and 3 to 6 of R103. `packed` is the failing
command's tally entry. -/
def freezeQueue (s : State) (sq cid : Nat) (st : Status) (policy packed : Nat) : State :=
  let victims := undispatchedOf s sq
  let s := sqMod s sq (fun q => { q with freeze := .draining })
  let s := victims.foldl (abortOne sq) s
  let out := dispatchedOf s sq
  let s := sqMod s sq (fun q =>
    let n := if q.serial = 65535 then 1 else q.serial + 1
    { q with serial := n, log := some ⟨policy, n, cid, (statusCode st).2, (statusCode st).1, q.head, victims.length, out, 0,
        s.bell.count, 0, packed⟩ })
  let s := raiseEvent s 1
  if out = 0 then enterQuiet s sq else s

/-- The HOST entry of a command that has not ended. -/
def findHost (s : State) (sq cid : Nat) : Option Nat :=
  (s.tally.entries.find? (fun p => p.2.origin = .host sq cid && p.2.state ≠ .replying)).map (fun p => p.1)



/-- Judge a posted completion for freeze-on-error (R102, R103). The entry has been freed before. -/
def judge (s : State) (sq cid : Nat) (st : Status) (dispatched : Bool) (packed : Nat) : State :=
  match tget s.host.sqs sq with
  | none => s
  | some q =>
    let policy := odVal s 0x2120 sq
    if sq = 0 then s else
    if q.deleting.isSome then s else
    match q.freeze with
    | .opened => if bit policy 0 && failing policy st then freezeQueue s sq cid st policy packed else s
    | .draining =>
      if !dispatched then s else
      let s := sqMod s sq (fun q => { q with log := q.log.map (fun l => { l with
        outstanding := l.outstanding - 1,
        failures := if failing policy st then l.failures + 1 else l.failures }) })
      if dispatchedOf s sq = 0 then enterQuiet s sq else s
    | .quiet => s

/-- A completion waits for its chime boundary (R447). -/
def queuePosting (s : State) (p : Posting) : State := { s with host := { s.host with posting := s.host.posting ++ [p] } }

/-- A HOST entry has its completion to post (R447): it is REPLYING until the boundary that posts it. -/
def conclude (s : State) (i sq cid : Nat) (e : Entry) (st : Status) (dw0 dw1 : Nat) (data : List Nat) (dma : Bool) : State :=
  queuePosting { s with tally := { s.tally with entries := tput s.tally.entries i { e with state := .replying } } }
    ⟨sq, cid, i, st, dw0, dw1, data, dma⟩

/-- End a request whose data goes to host memory: its children are freed (R18), and a HOST entry waits for the chime boundary that
posts its completion. Any other root is freed without one. -/
def finishData (s : State) (i : Nat) (st : Status) (dw0 dw1 : Nat) (data : List Nat) (dma : Bool) : State :=
  match entryAt s i with
  | none => s
  | some e =>
    match e.origin with
    | .host sq cid => if e.state = .replying then s else conclude (freeFamily s i) i sq cid e st dw0 dw1 data dma
    | _ => freeFamily s i

/-- End a request (R18, R447). -/
def finish (s : State) (i : Nat) (st : Status) (dw0 dw1 : Nat) : State := finishData s i st dw0 dw1 [] false

/-- A command completes while its work still stands: the boundary that posts its completion stops the work (R99). -/
def finishStopping (s : State) (i : Nat) (st : Status) (dw0 dw1 : Nat) (data : List Nat) : State :=
  match entryAt s i with
  | none => s
  | some e => match e.origin with
    | .host sq cid => if e.state = .replying then s else conclude s i sq cid e st dw0 dw1 data false
    | _ => s

/-- One posting at a chime boundary (R447): the DMA of a read's data first, at the next boundary the completion. The entry is freed and
the completion judged for freeze-on-error (R102). A posting that a freeze has taken away meanwhile is passed over. -/
def postOne (s : State) (p : Posting) : State :=
  if !s.host.posting.contains p then s
  else
    let t := if p.data = [] then s else emit s (.toHost p.sq p.cid p.data)
    if p.dma then
      { t with host := { t.host with posting := t.host.posting.map (fun x => if x = p then { p with data := [], dma := false } else x) } }
    else
      let e := entryAt s p.entry
      let t := freeFamily { t with host := { t.host with posting := t.host.posting.erase p } } p.entry
      judge (postOnly t p.sq p.cid p.st p.dw0 p.dw1) p.sq p.cid p.st ((e.map (fun e => e.dispatched)).getD false)
        ((e.map (fun e => e.pack)).getD 0)

/-- Does any command of a queue still stand, in the tally or with its completion to post. -/
def queueStands (s : State) (sq : Nat) : Bool :=
  s.tally.entries.any (fun p => match p.2.origin with
    | .host q _ => q = sq
    | _ => false) || s.host.posting.any (fun p => p.sq = sq)

/-- A queue that is being deleted is gone once none of its commands stands (R105); its Delete command completes. -/
def closeDeleted (s : State) (p : Nat × Nat) : State :=
  if queueStands s p.1 then s
  else
    let s := { s with host := { s.host with sqs := tdel s.host.sqs p.1, rr := s.host.rr.filter (fun r => r.2 ≠ p.1) } }
    match findHost s 0 p.2 with
    | some i => finish s i .success 0 0
    | none => s

/-- The queues that are being deleted, each with its Delete command. -/
def deletions (s : State) : List (Nat × Nat) := s.host.sqs.filterMap (fun p => p.2.deleting.map (fun c => (p.1, c)))

/-- The completions of a chime boundary (R447), in the order in which the commands ended, and then those of the Delete commands whose
queue they have emptied. -/
def postAll (s : State) : State :=
  let s := s.host.posting.foldl postOne s
  let t := (deletions s).foldl closeDeleted s
  (t.host.posting.drop s.host.posting.length).foldl postOne t

/-- The reply status that a member sends to an originator for a request that it ends (Table 12.7). -/
def fabricCode : Status → Nat
  | .success => 0x00
  | .memberPaused => 0x02
  | .tallyFull => 0x03
  | .unrecoveredRead => 0x07
  | .streamParked => 0x09
  | .unitReset => 0x0A
  | .commandSequenceError => 0x08
  | .namespaceWriteProtected => 0x05
  | _ => 0x06

/-- Answer a transaction that this member serves (R284): the reply goes out and is kept for repeats. -/
def replyTarget (s : State) (t : TargetTxn) (status : Nat) (data : Bytes) (final : Bool) : State :=
  let s := sendReply s t.x t.type status 0 data
  { s with fabric := { s.fabric with targets := s.fabric.targets.map (fun u =>
      if u.src = t.src ∧ u.epoch = t.epoch ∧ u.tag = t.tag then
        { u with status := status, replied := true, data := data, entry := if final then none else u.entry,
                 expiry := if final then s.bell.ticks else u.expiry }
      else u) } }

/-- End the request that entry `i` belongs to with a failing status: its root completes with it (R18, R30). A FABRIC
root answers its originator, unless its final reply has gone out. -/
def failRequest (s : State) (i : Nat) (st : Status) (dw0 : Nat) : State :=
  let r := rootOf s 4 i
  match entryAt s r with
  | none => s
  | some e => match e.origin with
    | .fabric _ _ =>
      match s.fabric.targets.find? (fun t => t.entry = some r) with
      | some t => if t.replied && t.status ≠ 1 then freeFamily s r
                  else freeFamily (replyTarget s t (fabricCode st) [] true) r
      | none => freeFamily s r
    | _ => finish s r st dw0 0

/-! ## Device transitions -/

/-- Make a transition: record it (R46). -/
def transition (s : State) (dst : DevState) (cause : Nat) (edge : Bool) : State :=
  { s with dev := { s.dev with
      state := dst, lastFrom := s.dev.state.code, lastTo := dst.code, lastCause := cause, lastBell := s.bell.count,
      movedAt := if edge then some s.bell.ticks else s.dev.movedAt,
      lingerUs := 0, lingerFresh := midBell s } }

/-- May a transition be made now: the moment is a bell edge, and none has been made at it (R46). -/
def mayMove (s : State) : Bool := atEdge s && s.dev.movedAt ≠ some s.bell.ticks

/-- Is an accepted write due at the present edge: it was accepted in an earlier bell (R41). -/
def dueWrite (s : State) (a : Accepted) : Bool := decide (a.bell < s.bell.ticks)

/-- Does a state request wait for the present edge: it is applied before a transition of the drive's own accord (R47). -/
def requestDue (s : State) : Bool := s.steward.accepted.any (fun a => a.idx = 0x1011 && dueWrite s a)

/-- May the drive make a transition of its own accord now (R46, R47). -/
def ownMove (s : State) : Bool := mayMove s && !requestDue s

/-- Are the host side and the units stopped: no main power, or FROZEN. -/
def stopped (s : State) : Bool := s.dev.state = .frozen || s.dev.state = .off

/-! ## The warden's random bits -/

/-- The warden draws `n` keys or random values (R401): its generator takes new entropy every 2^20 requests (log entry 41). -/
def drbg (s : State) (n : Nat) : State :=
  let d := s.keys.draws + n
  { s with keys := { s.keys with reseeds := wrap 32 (s.keys.reseeds + d / 2 ^ 20), draws := d % 2 ^ 20 } }

/-- The warden at a start (R353, R401, Table 17.4): what counts since the last start is 0. -/
def Keys.started (k : Keys) : Keys := { k with reseeds := 0, draws := 0, sessionGen := [] }

/-! ## The pen -/

/-- Code of a pen holder (OD 0x1020). -/
def holderCode : Option Master → Nat
  | none => 0
  | some .host => 1
  | some .sideband => 2

/-- Party code of a master (Table 16.3). -/
def partyOf : Master → Nat
  | .host => 1
  | .sideband => 2

/-- Release the pen (R56, Table 2.7): nothing in FROZEN. The linger of R50 starts again from 0. -/
def releasePen (s : State) : State :=
  if s.dev.state = .frozen then s
  else { s with pen := { s.pen with holder := none, idleUs := 0 }, dev := { s.dev with lingerUs := 0, lingerFresh := midBell s } }

/-- Release the pen if `m` holds it. -/
def releasePenOf (s : State) (m : Master) : State := if s.pen.holder = some m then releasePen s else s

end Sys2Proof.Machine
end

