-- ==== Sys2Proof/Machine/HostOps.lean ====
section
/-!
DEFINITION. How an NVMe command reaches its meaning: fetching and admission, CLASS (R93), what the device state lets it
do (Table 2.5), the ordered marker (R96), and its completion.
-/

namespace Sys2Proof.Machine

/-- Is a submission queue urgent: weighted round robin is selected and its priority is urgent (R92). -/
def urgentSq (s : State) (sq : Nat) : Bool :=
  s.host.ams = 1 && sq ≠ 0 && ((tget s.host.sqs sq).map (fun q => decide (q.prio = 0))).getD false

/-- CLASS of a host command (Table 4.5). -/
def classOf (s : State) (sq : Nat) (fam : CmdFamily) : Nat :=
  if sq = 0 then 1
  else if urgentSq s sq then 0
  else match fam with
    | .search => 1
    | .stream => 2
    | _ => 3

/-- The status of a command that Tables 4.3 and 4.4 do not list (R88). -/
def unlistedStatus : CmdFamily → Option Status
  | .noOpcode => some .invalidOpcode
  | .noFeature => some .invalidField
  | _ => none

/-- Is a command fetched now to be completed with Namespace Not Ready (R108). -/
def fetchNotReady (s : State) (sq : Nat) : Bool :=
  sq ≠ 0 && (s.dev.state = .config || (s.dev.state = .drain && !s.dev.drainForActivation))

/-- Is an I/O queue open for fetching: it exists, is OPEN (R103), has not just been opened (R104), and is not being deleted. -/
def queueOpen (s : State) (sq : Nat) : Bool :=
  ((tget s.host.sqs sq).map (fun q => q.freeze = .opened && !q.justOpened && q.deleting.isNone)).getD false

/-- May the drive fetch from a queue at all: the controller is ready, the queue is open, and an
activation drain fetches no I/O (R108); nothing is fetched in a power state below PS0 (R339). -/
def mayFetch (s : State) (sq : Nat) : Bool :=
  s.host.rdy && s.host.en && !s.host.enClearDeferred && s.power.inForce = 0 && !s.power.transition && !s.power.waking &&
  match s.dev.state with
  | .off => false | .boot => false | .frozen => false
  | .drain => if sq = 0 then true else !s.dev.drainForActivation &&
      queueOpen s sq
  | .paused => sq = 0
  | _ => if sq = 0 then true else queueOpen s sq

/-- The admission request of a fetched command (R18, R93, R99). -/
def hostRequest (s : State) (sq cid : Nat) (fam : CmdFamily) (ord : Bool) (deadline : Nat) : Request :=
  ⟨.host sq cid, s.host.fetchNo, classOf s sq fam, 232, none, deadline, ord, fetchNotReady s sq, 0, unlistedStatus fam⟩

/-- The HOST entry of a command, once it has been fetched and admitted and while it has not ended. -/
def hostEntry (s : State) (h : HostId) : Option (Nat × Entry) :=
  (findHost s h.sq h.cid).bind (fun i => (entryAt s i).map (fun e => (i, e)))

/-- Does a command still wait to be served: it is not HELD and nothing of it has run. -/
def unserved (e : Entry) : Bool := e.state ≠ .held && !e.dispatched

/-- Does an earlier marked command of the same queue still stand (R96). -/
def heldByMarker (s : State) (i : Nat) : Bool :=
  match entryAt s i with
  | some e => match e.origin with
    | .host sq _ => e.ordered &&
        (s.tally.entries.any (fun p => match p.2.origin with
          | .host q _ => q = sq && p.2.ordered && decide (p.2.no < e.no)
          | _ => false) ||
         s.tally.waiting.any (fun r => match r.origin with
          | .host q _ => q = sq && r.ordered && decide (r.no < e.no)
          | _ => false))
    | _ => false
  | none => false

/-- Is the drive in an activation drain or pause (R107). -/
def activating (s : State) : Bool := s.dev.state = .paused || (s.dev.state = .drain && s.dev.drainForActivation)

/-- Serve an I/O command: the ordered marker (R96), then what its entry meets by the device state (Table 2.5, R108), a running Sanitize
(R402) and thermal hold (R347); then `act` on the entry, still ADMITTED. The reserved fields of a Yarwell command (R98) are looked at
last: which of these statuses a command with several grounds gets is the model's choice, for the spec gives no order (DESIGN CHOICE,
log entry 15). -/
def meetIo (s : State) (h : HostId) (act : State → Nat → State) : State :=
  if stopped s || s.dev.state = .boot || !s.host.rdy || h.sq = 0 || (tget s.host.sqs h.sq).isNone then s else
  match hostEntry s h with
  | none => s
  | some (i, e) =>
    if !unserved e then s
    else if s.dev.state = .paused then setState s i .held
    else if heldByMarker s i then s
    else if s.dev.state = .fault then finish s i .internalError 0 0
    else if e.notReady then finish s i .namespaceNotReady 0 0
    else if s.keys.sanitize ≠ 0 then finish s i .sanitizeInProgress 0 0
    else if s.power.hold then s
    else act s i

/-- Serve an I/O command whose work starts at once: `act` on the RUNNING entry. -/
def serveIo (s : State) (h : HostId) (act : State → Nat → State) : State :=
  meetIo s h (fun s i => act (setRunning s i) i)

/-- Complete the commands that the drive does not list (R88), and what else meets them first (R44, R108). -/
def rejectUnlisted (s : State) : State :=
  if s.dev.state = .paused then s
  else (s.tally.entries.filter (fun p => p.2.unlisted.isSome && p.2.state ≠ .replying)).foldl (fun s p =>
    finish s p.1 (if s.dev.state = .fault then .internalError else if p.2.notReady then .namespaceNotReady
      else p.2.unlisted.getD .invalidOpcode) 0 0) s

/-- Serve an admin command (R44): in FAULT only those that Table 2.5 lists. -/
def serveAdmin (s : State) (h : HostId) (inFault : Bool) (act : State → Nat → State) : State :=
  if stopped s || s.dev.state = .boot || !s.host.rdy || h.sq ≠ 0 then s else
  match hostEntry s h with
  | none => s
  | some (i, e) =>
    if !unserved e then s
    else if s.dev.state = .paused then setState s i .held
    else if s.dev.state = .fault ∧ inFault = false then finish s i .internalError 0 0
    else act (setRunning s i) i

/-- Serve one of the admin commands that an activation drain or pause answers with Activation Pending (R107, R223). -/
def serveQuietAdmin (s : State) (h : HostId) (act : State → Nat → State) : State :=
  if activating s && s.host.rdy && h.sq = 0 then
    match hostEntry s h with
    | none => s
    | some (i, e) => if e.dispatched then s else finish (setRunning s i) i .activationPending 0 0
  else serveAdmin s h false act

/-- Serve an admin command that keeps R98: non-zero reserved fields give Invalid Field in Command. -/
def serveVendorAdmin (s : State) (h : HostId) (inFault : Bool) (act : State → Nat → State) : State :=
  serveAdmin s h inFault (fun s i => if h.reservedOk then act s i else finish s i .invalidField 0 0)

/-- Serve a Yarwell I/O command (R98). -/
def serveVendorIo (s : State) (h : HostId) (act : State → Nat → State) : State :=
  serveIo s h (fun s i => if h.reservedOk then act s i else finish s i .invalidField 0 0)

/-- Meet a Yarwell I/O command whose entry does not run at once (R98): `act` on the entry, still ADMITTED. -/
def meetVendorIo (s : State) (h : HostId) (act : State → Nat → State) : State :=
  meetIo s h (fun s i => if h.reservedOk then act s i else finish s i .invalidField 0 0)

/-- Is this the current serial of the master that holds the pen (R54). -/
def holdsPen (s : State) (m : Master) (serial : Nat) : Bool :=
  s.pen.holder = some m && s.pen.serial = serial

end Sys2Proof.Machine
end

