-- ==== Sys2Proof/Machine/FlashOps.lean ====
section
/-!
DEFINITION. Operations over dies, flash locations, the map, namespaces, bands and the write credit
(chapters 5 and 6).
-/

namespace Sys2Proof.Machine

/-! ## Dies -/

/-- An IDLE die with nothing on it. -/
def Die.reset : Die := ⟨.idle, none, none, none, none, false, 0, 0, none, none, 0⟩

/-- Die `d`. -/
def dieOf (s : State) (d : Nat) : Die := tgetD s.flash.dies d .reset

/-- Change die `d`. -/
def dieMod (s : State) (d : Nat) (f : Die → Die) : State :=
  { s with flash := { s.flash with dies := tmod s.flash.dies d .reset f } }

/-- Unit number of a die's channel engine (R112, Table 1.4). -/
def channelUnit (d : Nat) : Nat := 200 + d % 32

/-- Die stripe of a die (R112). -/
def stripeOf (d : Nat) : Nat := 2 * (d / 32) + d % 32 / 16

/-- Stripe position of a die (R112). -/
def positionOf (d : Nat) : Nat := d % 16

/-- The die at position `p` of stripe `st` (R112). -/
def dieAt (st p : Nat) : Nat := 32 * (st / 2) + 16 * (st % 2) + p

/-- The 16 dies of a stripe. -/
def stripeDies (st : Nat) : List Nat := (List.range 16).map (dieAt st)

/-- Unreadable (Table 5.6, R117, R121): PROGRAMMING, LOCKED_ERASE, or suspended with a lock accepted. -/
def unreadable (d : Die) : Bool :=
  d.st = .programming || d.st = .lockedErase || (d.erase.map (fun e => e.lockPending)).getD false

/-- Readable for the read path (R124): not unreadable, and the channel engine not in RESET. -/
def readable (s : State) (d : Nat) : Bool :=
  !unreadable (dieOf s d) && (unitOf s (channelUnit d)).state ≠ .reset

/-- Would a PROGRAM or ERASE_LOCK of die `d` break the program fence (R117). -/
def fenced (s : State) (d : Nat) : Bool :=
  (stripeDies (stripeOf d)).any (fun q => q ≠ d && unreadable (dieOf s q))

/-- LOCATION of a map entry (Table 6.2). -/
def locOf (a : FlashAddr) : Nat := a.die * 2 ^ 26 + a.plane * 2 ^ 24 + a.block * 2 ^ 12 + a.page

/-- The flash address of a location, codeword `cw`. -/
def addrOf (loc cw : Nat) : FlashAddr := ⟨loc / 2 ^ 26, loc / 2 ^ 24 % 4, loc / 2 ^ 12 % 2 ^ 12, loc % 2 ^ 12, cw⟩

/-- The 48-bit flash address of Table 5.3. -/
def packAddr (a : FlashAddr) : Nat := locOf a * 2 ^ 14 + a.cw % 4 * 2 ^ 12

/-- Does an address lie within Table 5.3 on this drive. -/
def addrOk (s : State) (a : FlashAddr) (slc : Bool) : Bool :=
  decide (a.die < s.ident.dies) && decide (a.plane < 4) && decide (a.block < 1840) &&
  decide (a.page < (if slc then 768 else 2304)) && decide (a.cw < 4)

/-! ## Namespaces and the map -/

/-- An IU that holds nothing. -/
def MapEntry.empty : MapEntry := ⟨0, false, 0⟩

/-- The map entry of an IU. -/
def mapAt (s : State) (iu : Nat) : MapEntry := tgetD s.ledger.map iu .empty

/-- Segment of the map that an IU's entry lies in (R164). -/
def segmentOf (iu : Nat) : Nat := iu / 2 ^ 18

/-- Put a segment on the dirty list. -/
def markDirty (l : List Nat) (seg : Nat) : List Nat := if l.contains seg then l else l ++ [seg]

/-- Put an entry into a map; an IU that holds nothing is not listed. -/
def mapPut (m : Table MapEntry) (iu : Nat) (e : MapEntry) : Table MapEntry := if e = .empty then tdel m iu else tput m iu e

/-- Write a map entry; the change goes to the journal and its segment is dirty (R164). -/
def mapSet (s : State) (iu : Nat) (e : MapEntry) : State :=
  { s with ledger := { s.ledger with
      map := mapPut s.ledger.map iu e
      dirty := markDirty s.ledger.dirty (segmentOf iu)
      journal := s.ledger.journal ++ [⟨iu, e⟩]
      tail := s.ledger.tail + 1 } }

/-- Bytes of a journal record; the spec gives none (log entry 22). -/
def journalBytes : Nat := 16

/-- The map that the journal makes of the checkpoint (R165). -/
def replay (m : Table MapEntry) (rs : List JournalRec) : Table MapEntry := rs.foldl (fun m r => mapPut m r.iu r.entry) m

/-- A segment of the map is rewritten into the cellar (R164): the checkpoint has it as the map has it now, and no record of it is left to
replay. -/
def checkpointSegment (s : State) (seg : Nat) : State :=
  { s with ledger := { s.ledger with
      checkpoint := (s.ledger.map.filter (fun p => segmentOf p.1 = seg)).foldl (fun m p => tput m p.1 p.2)
        (s.ledger.checkpoint.filter (fun p => segmentOf p.1 ≠ seg))
      journal := s.ledger.journal.filter (fun r => segmentOf r.iu ≠ seg)
      tail := min s.ledger.tail (s.ledger.journal.filter (fun r => segmentOf r.iu ≠ seg)).length
      dirty := s.ledger.dirty.filter (fun x => x ≠ seg) } }

/-- LBA size of a format (R133). -/
def lbaSize (lbaf : Nat) : Nat := if lbaf = 0 then 4096 else 16384

/-- Data units of 4,096 bytes in one LBA. -/
def unitsPerLba (lbaf : Nat) : Nat := if lbaf = 0 then 1 else 4

/-- The IU of the drive that holds IU `n` of a namespace (R138). -/
def nsIu (ns : Namespace) (n : Nat) : Nat := ns.extents.getD (n / 2 ^ 20) 0 * 2 ^ 20 + n % 2 ^ 20

/-- The data unit `u` of a namespace as (IU, codeword) (R133). -/
def unitPlace (ns : Namespace) (u : Nat) : Nat × Nat := (nsIu ns (u / 4), u % 4)

/-- The data units of an LBA range. -/
def unitsOf (ns : Namespace) (slba nlb : Nat) : List Nat :=
  (List.range (nlb * unitsPerLba ns.lbaf)).map (fun i => slba * unitsPerLba ns.lbaf + i)

/-- The LBA of data unit `u`. -/
def lbaOfUnit (ns : Namespace) (u : Nat) : Nat := u / unitsPerLba ns.lbaf

/-- Namespace `n`. -/
def nsOf (s : State) (n : Nat) : Option Namespace := tget s.ledger.nss n

/-- Poisoned LBAs (R385): (NSID, LBA) in ascending order. -/
def poisonList (s : State) : List (Nat × Nat) :=
  s.ledger.nss.flatMap (fun p =>
    let per := 4 / unitsPerLba p.2.lbaf
    (List.range (ceilDiv p.2.nsze per)).flatMap (fun n =>
      let e := tget s.ledger.map (nsIu p.2 n)
      match e with
      | none => []
      | some e =>
        if e.poison = 0 then [] else
        if p.2.lbaf = 0 then ((List.range 4).filter (fun k => bit e.poison k)).map (fun k => (p.1, 4 * n + k))
        else [(p.1, n)]))

/-- The namespace and IU number within it that own an IU of the drive. -/
def ownerOf (s : State) (iu : Nat) : Option (Nat × Namespace × Nat) :=
  (s.ledger.nss.find? (fun p => p.2.extents.contains (iu / 2 ^ 20))).map (fun p =>
    (p.1, p.2, p.2.extents.idxOf (iu / 2 ^ 20) * 2 ^ 20 + iu % 2 ^ 20))

/-- LBAs that are poisoned in an IU's entry. -/
def poisonedLbas (s : State) (iu : Nat) (mask : Nat) : List (Nat × Nat) :=
  match ownerOf s iu with
  | none => []
  | some (n, ns, k) =>
    if ns.lbaf = 0 then ((List.range 4).filter (fun c => bit mask c)).map (fun c => (n, 4 * k + c))
    else if mask = 0 then [] else [(n, k)]

/-- LBAs now poisoned (OD 0x2320.01). -/
def poisonCount (s : State) : Nat :=
  (s.ledger.map.map (fun p => (poisonedLbas s p.1 p.2.poison).length)).sum

/-! ## Bands and groups -/

/-- Key of the band at a block of a stripe. -/
def bandKey (stripe block : Nat) : Nat := stripe * 2048 + block

/-- A free band. -/
def Band.reset : Band := ⟨.free, none, 0, 0, 0, false, false, false, none, [], [], [], 0, []⟩

/-- Band by key. -/
def bandOf (s : State) (k : Nat) : Band := tgetD s.ledger.bands k .reset

/-- Change a band. -/
def bandMod (s : State) (k : Nat) (f : Band → Band) : State :=
  { s with ledger := { s.ledger with bands := tmod s.ledger.bands k .reset f } }

/-- The die block that a band uses at a stripe position: its own number, or that of the spare that stands in (R152). -/
def dieBlock (s : State) (k pos : Nat) : Nat := (tget (bandOf s k).standIn pos).getD (k % 2048)

/-- The band that a die block belongs to. -/
def bandAt (s : State) (die block : Nat) : Nat :=
  let st := stripeOf die
  match s.ledger.bands.find? (fun p => p.1 / 2048 = st && tget p.2.standIn (positionOf die) = some block) with
  | some p => p.1
  | none => bandKey st block

/-- The band that a location lies in. -/
def bandOfLoc (s : State) (loc : Nat) : Nat := bandAt s (loc / 2 ^ 26) (loc / 2 ^ 12 % 2 ^ 12)

/-- Die stripes on this drive (Table 5.2). -/
def stripeCount (s : State) : Nat := s.ident.dies / 16

/-- Stripes in a reclaim group (R140). -/
def stripesPerRg (s : State) : Nat := stripeCount s / 8

/-- Reclaim group of a stripe (R140). -/
def rgOfStripe (s : State) (st : Nat) : Nat := st / stripesPerRg s

/-- Reclaim group of a band key. -/
def rgOfBand (s : State) (k : Nat) : Nat := rgOfStripe s (k / 2048)

/-- Is a block number that of a data band (R140). -/
def dataBlock (b : Nat) : Bool := decide (8 ≤ b) && decide (b < 1832)

/-- Listed data bands of a group. -/
def bandsOfRg (s : State) (g : Nat) : List (Nat × Band) :=
  s.ledger.bands.filter (fun p => rgOfBand s p.1 = g && dataBlock (p.1 % 2048))

/-- Free bands of a group (OD 0x2302): all its data bands less those in use or retired. -/
def freeBands (s : State) (g : Nat) : Nat :=
  stripesPerRg s * 1824 - ((bandsOfRg s g).filter (fun p => p.2.st ≠ .free)).length

/-- Data bands present (OD 0x2300.03). -/
def dataBands (s : State) : Nat :=
  stripeCount s * 1824 - (s.ledger.bands.filter (fun p => p.2.st = .retired && dataBlock (p.1 % 2048))).length

/-- The read-only floor (Table 6.3). -/
def roFloor (s : State) : Nat := if s.ident.dies = 256 then 23118 else 11559

/-- Data IUs of a band: 15 dies, 4 planes, 2,304 pages. -/
def bandIus : Nat := 138240

/-- Does R148 prefer the first band as a victim. -/
def victimBefore (a b : Nat × Band) : Bool :=
  if a.2.closedFirst ≠ b.2.closedFirst then a.2.closedFirst
  else if a.2.valid ≠ b.2.valid then decide (a.2.valid < b.2.valid)
  else if a.2.erases ≠ b.2.erases then decide (a.2.erases < b.2.erases)
  else decide (a.1 ≤ b.1)

/-- The reclaim victim of a group (R148): the closed band with the fewest valid IUs. -/
def victimOf (s : State) (g : Nat) : Option (Nat × Band) :=
  (sortBy victimBefore ((bandsOfRg s g).filter (fun p => p.2.st = .closed))).head?

/-- Program capacity of a group (Table 6.3). -/
def progCapacity (s : State) : Nat := if s.ident.dies = 256 then 37500 else 18750

/-- rate_g of R147 in IUs per second, as an exact fraction. Where the group has no closed band, hence no victim, v is 0: the spec gives no
value (DESIGN CHOICE, log entry 22). -/
def hostRate (s : State) (g : Nat) : Rat :=
  let f := freeBands s g
  let thr := odVal s 0x2301 2
  let floor := odVal s 0x2301 3
  if thr < f then (progCapacity s : Rat)
  else if floor < f then
    let v : Rat := match victimOf s g with
      | some p => (p.2.valid : Rat) / (bandIus : Rat)
      | none => 0
    (progCapacity s : Rat) * (1 - v) * ((f - floor : Nat) : Rat) / ((thr - floor : Nat) : Rat)
  else 0

/-- Credit of a group. -/
def creditOf (s : State) (g : Nat) : Rat := (tgetD s.ledger.groups g ⟨64⟩).credit

/-- One bell edge of credit for one group (R147): the rate times the period, capped at 64 IUs. -/
def accrueOne (s : State) (g : Nat) : State :=
  let c := creditOf s g + hostRate s g * ((periodUs s : Nat) : Rat) / 1000000
  { s with ledger := { s.ledger with groups := tput s.ledger.groups g ⟨if 64 < c then 64 else c⟩ } }

/-- Credit accrual at a bell edge (R147). A group whose credit stands at its cap of 64 IUs stays there. -/
def accrueCredit (s : State) : State :=
  (List.range 8).foldl (fun s g => if creditOf s g = 64 then s else accrueOne s g) s

/-- Mean erase count of a group over its data bands (OD 0x2341). -/
def meanErases (s : State) (g : Nat) : Nat :=
  s.ledger.allErases + ((bandsOfRg s g).map (fun p => p.2.erases)).sum / (stripesPerRg s * 1824)

/-- The spread of the groups' mean erase counts (OD 0x2342). -/
def wearSpread (s : State) : Nat :=
  let ms := (List.range 8).map (meanErases s)
  ms.foldl max 0 - ms.foldl min (ms.headD 0)

/-- Record the wear spread once while FDP is enabled (R151). -/
def wearCheck (s : State) : State :=
  let lim := odVal s 0x2340 1
  let sp := wearSpread s
  if s.ledger.fdp && s.ledger.wearArmed && decide (lim ≤ sp) then
    let ms := (List.range 8).map (meanErases s)
    let hi := ms.foldl max 0
    let lo := ms.foldl min (ms.headD 0)
    raiseRecord { s with ledger := { s.ledger with wearArmed := false } }
      { Record.of 0x0604 with winner := 1, loser := 8, a := ms.idxOf hi + 256 * ms.idxOf lo, b := hi, c := lo }
  else if decide (sp * 10 < lim * 9) then { s with ledger := { s.ledger with wearArmed := true } }
  else s

/-- Take one valid IU from the band of a location. -/
def lowerValid (s : State) (loc : Nat) : State := bandMod s (bandOfLoc s loc) (fun b => { b with valid := b.valid - 1 })

/-- Clear the map entry of an IU (R157, R138). -/
def unmapIu (s : State) (iu : Nat) : State :=
  let e := mapAt s iu
  if e = .empty then s
  else mapSet (if e.mapped then lowerValid s e.loc else s) iu .empty

/-- Clear every listed entry of an extent. -/
def unmapExtent (s : State) (x : Nat) : State :=
  ((s.ledger.map.map (fun p => p.1)).filter (fun iu => iu / 2 ^ 20 = x)).foldl unmapIu s

/-- The four codewords of the IU that a map entry points to. -/
def pageCws (s : State) (loc : Nat) : List Nat :=
  ((tget s.flash.pages loc).map (fun p => p.cws)).getD []

/-- Codeword `cw` of a page. -/
def pageCw (s : State) (loc cw : Nat) : Nat := (pageCws s loc).getD cw 0

/-- The write sequence of a page (R131): the highest of its codewords. -/
def FlashPage.seq (p : FlashPage) : Nat := (p.info.map (fun m => m.seq)).foldl max 0

/-- The pages of the stripe row of a location on the other 15 dies (R119, R124): the same page and plane of the same band. -/
def rowMates (s : State) (loc : Nat) : List Nat :=
  let k := bandOfLoc s loc
  ((List.range 16).filter (fun p => p ≠ positionOf (loc / 2 ^ 26))).map (fun p =>
    dieAt (k / 2048) p * 2 ^ 26 + loc / 2 ^ 24 % 4 * 2 ^ 24 + dieBlock s k p * 2 ^ 12 + loc % 2 ^ 12)

/-- The XOR of a codeword of the other 15 pages of a stripe row (R119, R124). -/
def rowXor (s : State) (loc cw : Nat) : Nat := (rowMates s loc).foldl (fun x m => Nat.xor x (pageCw s m cw)) 0

end Sys2Proof.Machine
end

