-- ==== Sys2Proof/Machine/BandOps.lean ====
section
/-!
DEFINITION. Operations over stripe rows and word lines of bands (chapters 5 and 6): what a source page of a program is, what a finished
program does to the array and the map, and what becomes of a word line that fails or is abandoned.
-/

namespace Sys2Proof.Machine

/-! ## Places -/

/-- Is SLC the mode of a die block (R140): blocks 0 to 7 are cellar blocks in SLC, data blocks are TLC; a spare has the mode of what it
stands in for. -/
def modeOk (s : State) (die block : Nat) (slc : Bool) : Bool :=
  let b := bandAt s die block % 2048
  if b < 8 then slc else if b < 1832 then !slc else true

/-- Word lines of all dies of a band. -/
def bandLines : Nat := 12288

/-- Parity position of a word line of a band (R119): from the block at position 0 and the row's page ÷ 3, which is the word line. -/
def parityPos (s : State) (k wl : Nat) : Nat := (dieBlock s k 0 + wl) % 16

/-- Source page `k` of a PROGRAM: its plane and page number. -/
def pagePlace (slc : Bool) (wl k : Nat) : Nat × Nat := if slc then (k % 4, wl) else (k / 3 % 4, 3 * wl + k % 3)

/-- Location of source page `k`. -/
def pageLoc (die block wl : Nat) (slc : Bool) (k : Nat) : Nat :=
  let p := pagePlace slc wl k
  locOf ⟨die, p.1, block, p.2, 0⟩

/-- Pages of a word line on the four planes. -/
def linePages (slc : Bool) : Nat := if slc then 4 else 12

/-- The locations of a word line. -/
def lineLocs (die block wl : Nat) (slc : Bool) : List Nat := (List.range (linePages slc)).map (pageLoc die block wl slc)

/-- Key of a word-line group of a band. -/
def rowKey (k wl : Nat) : Nat := k * 1024 + wl

/-- The word line that a band's current group programs next. -/
def currentLine (b : Band) : Nat := b.pagesWritten / 16

/-- Has a die programmed its part of a band's current word-line group. -/
def lineWritten (s : State) (k pos : Nat) : Bool :=
  (tget s.flash.pages (pageLoc (dieAt (k / 2048) pos) (dieBlock s k pos) (currentLine (bandOf s k)) (k % 2048 < 8) 0)).isSome

/-- Is a position the parity position of a band's current word-line group (R119). -/
def onParity (s : State) (k pos : Nat) : Bool := parityPos s k (currentLine (bandOf s k)) = pos

/-- Have the other positions programmed theirs, so that the parity can follow (R119). -/
def parityDue (s : State) (k pos : Nat) : Bool := ((List.range 16).filter (fun p => p ≠ pos)).all (lineWritten s k)

/-! ## What waits to be programmed -/

/-- The oldest of the staged IUs that a test takes (R135). -/
def oldestStaged (s : State) (p : Staged → Bool) : Option Staged :=
  (sortBy (fun (a b : Staged) => decide (a.seq ≤ b.seq)) (s.ledger.staged.filter p)).head?

/-- The staged IU that a source page names: the oldest one of the IU that waits for a program, where it belongs to the open band of the
block (R135, R142, R144). -/
def eligible (s : State) (die block iu : Nat) : Option Staged :=
  let k := bandAt s die block
  let b := bandOf s k
  (oldestStaged s (fun g => g.iu = iu && g.placed.isNone)).filter (fun g =>
    b.st = .open && b.fillTo.isNone && b.handle = some g.handle && rgOfBand s k = g.rg)

/-- The page read for reclaim that a source page names, where the block is one of the open reclaim band of its group (R142, R148). -/
def eligibleCopy (s : State) (die block iu loc : Nat) : Option Copied :=
  let k := bandAt s die block
  let b := bandOf s k
  (s.ledger.copies.find? (fun c => c.iu = iu && c.loc = loc && c.placed.isNone)).filter (fun c =>
    b.st = .open && b.fillTo.isNone && b.handle.isNone && rgOfBand s k = rgOfBand s (bandOfLoc s c.loc))

/-- A source page as the program takes it: the parity position of a word line takes parity and no other takes any (R119), and one that
names what the band does not wait for is filler. -/
def sourceOf (s : State) (die block wl : Nat) (p : SourcePage) : SourcePage :=
  if parityPos s (bandAt s die block) wl = positionOf die then .parity
  else match p with
    | .staged iu => if (eligible s die block iu).isSome then p else .filler
    | .copy iu loc => if (eligibleCopy s die block iu loc).isSome then p else .filler
    | .parity => .filler
    | _ => p

/-- The IUs and copies that a program takes are placed on its die. -/
def placePages (s : State) (die block : Nat) (pages : List SourcePage) : State :=
  pages.foldl (fun s p => match p with
    | .staged iu => match eligible s die block iu with
      | some g => { s with ledger := { s.ledger with staged := s.ledger.staged.map (fun h =>
          if h = g then { h with placed := some die } else h) } }
      | none => s
    | .copy iu loc => match eligibleCopy s die block iu loc with
      | some c => { s with ledger := { s.ledger with copies := s.ledger.copies.map (fun h =>
          if h = c then { h with placed := some die } else h) } }
      | none => s
    | _ => s) s

/-- The IUs and copies placed on a die wait for a program again (R129, R152). -/
def unplace (s : State) (d : Nat) : State :=
  { s with ledger := { s.ledger with
      staged := s.ledger.staged.map (fun g => if g.placed = some d then { g with placed := none } else g)
      copies := s.ledger.copies.map (fun g => if g.placed = some d then { g with placed := none } else g) } }

/-! ## What a finished program leaves -/

/-- Does a staged IU still belong to its namespace as it was encrypted (R139, R401). -/
def stillOwned (s : State) (g : Staged) : Bool := (nsOf s g.nsid).map (fun n => n.gen) = some g.gen

/-- Is the data that an IU holds now of a later write than `seq` (R135, R167). -/
def holdsNewer (s : State) (iu seq : Nat) : Bool :=
  let e := mapAt s iu
  e.mapped && decide (seq < ((tget s.flash.pages e.loc).map FlashPage.seq).getD 0)

/-- Point an IU at a new location with new POISON bits (R136, R149); the old place is no longer valid. -/
def mapTo (s : State) (iu loc poison : Nat) : State :=
  let e := mapAt s iu
  let s := if e.mapped then lowerValid s e.loc else s
  let s := { s with ledger := { s.ledger with openRows := s.ledger.openRows.filter (fun l => !(e.mapped && l = e.loc)) } }
  bandMod (mapSet s iu ⟨poison, true, loc⟩) (bandOfLoc s loc) (fun b => { b with valid := b.valid + 1 })

/-- Put a page into the array, and into the open rows while its row has no parity (R119). -/
def putPage (s : State) (loc : Nat) (p : FlashPage) (openRow : Bool) : State :=
  { s with
    flash := { s.flash with pages := tput s.flash.pages loc p }
    ledger := { s.ledger with openRows := if openRow then s.ledger.openRows ++ [loc] else s.ledger.openRows } }

/-- A page that no map entry points to. -/
def blankPage : FlashPage := ⟨[0, 0, 0, 0], [], none, 0⟩

/-- The parity page of a stripe row (R119): the XOR, codeword by codeword, of the 15 data pages. -/
def parityPage (s : State) (loc : Nat) : FlashPage := ⟨(List.range 4).map (rowXor s loc), [], none, 0⟩

/-- A staged IU has reached a page: it is mapped there, unless its namespace has let it go or the IU holds a later write (R135, R136,
R139). -/
def landStaged (s : State) (loc : Nat) (g : Staged) : State :=
  let newer := holdsNewer s g.iu g.seq
  let s := { s with ledger := { s.ledger with staged := s.ledger.staged.filter (fun h => h ≠ g) } }
  let s := putPage s loc ⟨g.cws, g.info, some g.iu, g.gen⟩ true
  if stillOwned s g && !newer then mapTo s g.iu loc g.poison else s

/-- A copy has reached a page: the map follows it where it still points at the place copied from (R149). -/
def landCopy (s : State) (loc : Nat) (c : Copied) : State :=
  let e := mapAt s c.iu
  let s := { s with ledger := { s.ledger with copies := s.ledger.copies.filter (fun h => h ≠ c) } }
  let s := putPage s loc c.page true
  if e.mapped && e.loc = c.loc then mapTo (count s 0x6003 0 1) c.iu loc e.poison else count s 0x6004 0 1

/-- What one source page of a finished program does to the array and the map (R130, R136, R148, R149). -/
def landPage (die : Nat) (s : State) (loc : Nat) (p : SourcePage) : State :=
  match p with
  | .staged iu => match s.ledger.staged.find? (fun g => g.iu = iu && g.placed = some die) with
    | none => putPage s loc blankPage true
    | some g => landStaged s loc g
  | .copy iu old => match s.ledger.copies.find? (fun c => c.iu = iu && c.loc = old && c.placed = some die) with
    | none => putPage s loc blankPage true
    | some c => landCopy s loc c
  | .filler => putPage s loc blankPage true
  | .parity => putPage s loc (parityPage s loc) false
  | .cellar words => putPage s loc ⟨words, [], none, 0⟩ true

/-- The row of a location: stripe, band, plane and page. -/
def rowOfLoc (s : State) (loc : Nat) : Nat × Nat × Nat × Nat :=
  (stripeOf (loc / 2 ^ 26), bandOfLoc s loc, loc / 2 ^ 24 % 4, loc % 2 ^ 12)

/-- Journal records that a cellar page set takes (R164): 65,536 bytes. -/
def recordsPerSet : Nat := 65536 / journalBytes

/-- Land every page of a program; once the parity pages are programmed their rows need no copy in DRAM (R119). A page set of the cellar
takes the journal's tail (R164). -/
def landProgram (s : State) (die : Nat) (p : DieProgram) : State :=
  let locs := (List.range p.pages.length).map (pageLoc die p.block p.wl p.slc)
  let s := (locs.zip p.pages).foldl (fun s x => landPage die s x.1 x.2) s
  let rows := ((locs.zip p.pages).filter (fun x => x.2 = .parity)).map (fun x => rowOfLoc s x.1)
  let s := if p.pages.any (fun x => match x with | .cellar _ => true | _ => false) then
      { s with ledger := { s.ledger with tail := s.ledger.tail - recordsPerSet } } else s
  if rows = [] then s
  else { s with ledger := { s.ledger with
    openRows := s.ledger.openRows.filter (fun l => !rows.contains (rowOfLoc s l))
    rowClass := tdel s.ledger.rowClass (rowKey (bandAt s die p.block) p.wl) } }

/-- A word line of a band has been programmed. Once its word-line group is complete a band that was being filled is what it was filled
for, and a full band is closed. -/
def lineDone (s : State) (k : Nat) : State :=
  bandMod s k (fun b =>
    let n := b.pagesWritten + 1
    let b := { b with pagesWritten := n, lastWrite := s.bell.ticks }
    if b.st = .open && n % 16 = 0 then
      { b with st := if bandLines ≤ n then .closed else b.fillTo.getD .open, fillTo := none }
    else b)

/-! ## Word lines that fail or are abandoned -/

/-- The DRAM copy of an open-row page, as what must be programmed elsewhere (R119, R152): a staged IU of the pair of its band, or a copy
for the reclaim band. -/
def restageLoc (k : Nat) (s : State) (loc : Nat) : State :=
  match (tget s.flash.pages loc).bind (fun p => p.iu.map (fun iu => (iu, p))) with
  | none => s
  | some (iu, p) =>
    let e := mapAt s iu
    if !(e.mapped && e.loc = loc) then s
    else match (bandOf s k).handle with
      | some h => { s with ledger := { s.ledger with staged := s.ledger.staged ++
          [⟨iu, p.cws, p.info, e.poison, noEntry, (p.info.headD ⟨0, 0, 0⟩).nsid, p.gen, h, rgOfBand s k, p.seq, none⟩] } }
      | none => { s with ledger := { s.ledger with copies := s.ledger.copies ++ [⟨iu, loc, p, noEntry, none⟩] } }

/-- Pages of a band that the ledger keeps in DRAM. -/
def openRowsOf (s : State) (k : Nat) : List Nat := s.ledger.openRows.filter (fun l => bandOfLoc s l = k)

/-- The word line of an interrupted program is abandoned, without retiring its block (R129): it holds nothing, and its data waits to be
programmed again from DRAM, the data of its rows where it was their parity. -/
def abandonLine (s : State) (die : Nat) (p : DieProgram) : State :=
  let k := bandAt s die p.block
  let s := unplace s die
  let s := if p.pages.any (fun x => x = .parity) then
      ((openRowsOf s k).filter (fun l => l % 2 ^ 12 / 3 = p.wl)).foldl (restageLoc k) s else s
  lineDone ((lineLocs die p.block p.wl p.slc).foldl (fun s l => putPage s l blankPage false) s) k

/-! ## FDP events -/

/-- Add an FDP event. -/
def fdpEvent (s : State) (code handle rg : Nat) : State :=
  { s with ledger := { s.ledger with fdpEvents := s.ledger.fdpEvents ++ [⟨code, s.bell.count, handle, rg⟩] } }

end Sys2Proof.Machine
end

