-- ==== Sys2Proof/Machine/Resets.lean ====
section
/-!
DEFINITION. Resets: the store of the sticky records (R383), the unit reset procedure (R361), the controller-level reset
(R359, R360), the power-loss save (R166), the warm reset (R356, R444), the cold reset and the loss of main power
(Table 15.3), and the guild reset (R365).
-/

namespace Sys2Proof.Machine

/-! ## The sticky store -/

/-- The slot that a new record takes (R383): the lowest empty slot, else the one of the cleared record with the lowest
sequence number, else none. -/
def stickySlotFor (slots : Table StickySlot) : Option Nat :=
  match (List.range 768).find? (fun i => (tget slots i).isNone) with
  | some i => some i
  | none =>
    ((sortBy (fun (a b : Nat × StickySlot) => decide (a.2.record.seq ≤ b.2.record.seq))
      (slots.filter (fun p => p.2.cleared))).head?).map (fun p => p.1)

/-- Store one record (R383). -/
def storeOne (s : State) (r : Record) : State :=
  let n := s.sticky.written + 1
  let r := { r with seq := n }
  let s := match stickySlotFor s.sticky.slots with
    | some i => { s with sticky := { s.sticky with written := n, slots := tput s.sticky.slots i ⟨r, false⟩ } }
    | none => { s with sticky := { s.sticky with written := n, lost := sat 32 (s.sticky.lost + 1), lostCode := r.code,
                                                 lostBell := r.bell } }
  raiseEvent s 3

/-- Store every pending record, oldest first. Nothing is stored in FROZEN (R453). -/
def storeRecords (s : State) : State :=
  if s.dev.state = .frozen then s
  else
    let rs := s.sticky.pending
    rs.foldl storeOne { s with sticky := { s.sticky with pending := [] } }

/-- Uncleared records (OD 0x5000.03). -/
def uncleared (s : State) : Nat := (s.sticky.slots.filter (fun p => !p.2.cleared)).length

/-! ## Unit resets -/

/-- Entries of unit `u` under another epoch than its present one (R30). -/
def oldEpochEntries (s : State) (u : Nat) : List Nat :=
  (s.tally.entries.filter (fun p => p.2.unit = u && p.2.epoch ≠ (unitOf s u).epoch)).map (fun p => p.1)

/-- Is a lane's block one of a WAIT for ticket `n`. -/
def waitsFor (n : Nat) (b : Blocked) : Bool := b.kind = 2 && b.ticket = n

/-- The lanes of a gang that wait for ticket `n` have its end state in their registers (R206). In CONVERGE mode lanes of
one instruction go on together, so a lane waits until no lane of the gang waits for a ticket any more. -/
def wakeGang (converge : Bool) (n st : Nat) (g : Gang) : Gang :=
  let hit := g.blocked.filter (fun p => waitsFor n p.2)
  if hit = [] then { g with outstanding := g.outstanding.filter (· ≠ n) }
  else
    let regs := hit.foldl (fun r p => tput r (p.1 * 256 + p.2.rd) (BitVec.ofNat 32 st)) g.regs
    let bl := g.blocked.map (fun p => if waitsFor n p.2 then (p.1, { p.2 with kind := 3 }) else p)
    let hold := converge && bl.any (fun p => p.2.kind = 2)
    let free := if hold then [] else bl.filter (fun p => p.2.kind = 3)
    { g with
      regs := regs
      blocked := if hold then bl else bl.filter (fun p => p.2.kind ≠ 3)
      pcs := free.foldl (fun t p => tmod t p.1 0 (· + 1)) g.pcs
      outstanding := g.outstanding.filter (· ≠ n)
      quiet := 0
      quietFresh := true }

/-- Change every gang of an invocation. -/
def gangsMod (s : State) (inv : Nat) (f : Gang → Gang) : State :=
  { s with compute := { s.compute with cores := s.compute.cores.map (fun c =>
      (c.1, { c.2 with gangs := c.2.gangs.map (fun g => if g.2.inv = inv then (g.1, f g.2) else g) })) } }

/-- Change an invocation. -/
def invMod (s : State) (inv : Nat) (f : Invocation → Invocation) : State :=
  { s with compute := { s.compute with
      invs := s.compute.invs.map (fun p => if p.1 = inv then (p.1, f p.2) else p) } }

/-- The manifest field of `n` bytes at offset `off` of a stored package (Table 9.4), from the first section that the
section table gives the type MANIFEST. -/
def sectionOf (pkg : Mem) (ty : Nat) : Option (Nat × Nat) :=
  ((List.range (leNat (mread pkg 6 2))).find? (fun i => leNat (mread pkg (64 + 32 * i) 2) = ty)).map (fun i =>
    (leNat (mread pkg (64 + 32 * i + 8) 8), leNat (mread pkg (64 + 32 * i + 16) 8)))

/-- A field of a program's manifest. -/
def manifestField (p : Program) (off n : Nat) : Nat :=
  match sectionOf p.pkg 1 with
  | some sec => leNat (mread p.pkg (sec.1 + off) n)
  | none => 0

/-- An empty program slot. -/
def Program.reset : Program := ⟨[], 0, [], 0, [], 0, 0⟩

/-- Program `p`. -/
def programOf (s : State) (p : Nat) : Program := tgetD s.compute.programs p .reset

/-- Does a program diverge in PROGRESS mode. -/
def progressMode (s : State) (prog : Nat) : Bool := manifestField (programOf s prog) 38 1 = 1

/-- A ticket that is QUEUED ends (R206, R207): its state is set, the lanes that wait for it go on, and its number is released where
one waited. -/
def endTicket (s : State) (inv n st : Nat) : State :=
  match tget s.compute.invs inv with
  | none => s
  | some v =>
    if !v.tickets.any (fun t => t.number = n && t.state = 0) then s else
    let waited := s.compute.cores.any (fun c => c.2.gangs.any (fun g => g.2.inv = inv && g.2.blocked.any (fun p => waitsFor n p.2)))
    let s := gangsMod s inv (wakeGang (!progressMode s v.program) n st)
    let ts := if waited then v.tickets.filter (fun t => t.number ≠ n)
      else v.tickets.map (fun t => if t.number = n then { t with state := st } else t)
    invMod s inv (fun v => { v with tickets := ts })

/-- The invocation that an INTERNAL entry of job 0x0D belongs to, and its ticket number. -/
def ticketOf (s : State) (i : Nat) : Option (Nat × Nat) :=
  match entryAt s i with
  | some e => match e.origin, e.parent with
    | .internal 0x0D n, some p => (s.compute.invs.find? (fun v => v.2.entry = p)).map (fun v => (v.1, n))
    | _, _ => none
  | none => none

/-- End the ticket whose loom step child is entry `i` FAILED_RESET (R207), leaving its invocation to run on. -/
def failTicket (s : State) (i : Nat) : State :=
  match ticketOf s i with
  | some p => freeFamily (endTicket s p.1 p.2 2) i
  | none => freeFamily s i

/-- Complete one entry of an old epoch with Unit Reset (R30). The loom step of a ticket passes it to the ticket (R207);
a program or erase job of a channel engine is taken up again by the ledger (R129), so only its entry ends. -/
def endOldEntry (s : State) (i : Nat) : State :=
  match entryAt s i with
  | none => s
  | some e => match e.origin with
    | .internal 0x0D _ => failTicket s i
    | .internal 0x09 _ => freeFamily s i
    | .internal 0x0A _ => freeFamily s i
    | _ => failRequest s i .unitReset 0

/-- What waits on a die for its entry, after its entry has gone: it asks for another (R20). -/
def askAgain (s : State) (d : Nat) (p : Pending) : State :=
  match p with
  | .program x => await s (jobReq 0x09 (d * 2 ^ 12 + x.block) (((entryAt s x.entry).map (fun e => e.cls)).getD 3) (channelUnit d))
  | .erase x => await s (jobReq 0x0A (d * 2 ^ 12 + x.block) 3 (channelUnit d))

/-- DIE_RESET of one die at a channel reset (R129): the word line of a program is abandoned and its data waits for
programming again, an erase starts again from segment 1 with no suspension counted, under an entry of the new epoch, and reads end. -/
def resetDie (s : State) (d : Nat) : State :=
  match tget s.flash.dies d with
  | none => s
  | some x =>
    let s := match x.program with
      | some p => abandonLine s d p
      | none => s
    let again := match x.erase with
      | some e => some (.erase { e with segment := 1, suspensions := 0, lockPending := false, spentNs := 0 })
      | none => x.pending
    let s := dieMod s d (fun _ => { Die.reset with pending := again, trackedBell := x.trackedBell })
    match again with
    | some p => askAgain s d p
    | none => s

/-- Retrain a port from DOWN (R311): its link, session and counts start afresh, flits in flight are lost. -/
def retrainPort (s : State) (p : Nat) : State :=
  if (portOf s p).st = .down then s
  else portMod s p (fun x => { Port.reset with st := .training, rate := x.rate, pinArmed := x.pinArmed,
                                               calib := x.calib, neighbour := x.neighbour })

/-- Invocations that have a gang on a core. -/
def invsOnCore (s : State) (core : Nat) : List Nat :=
  (((tget s.compute.cores core).map (fun c => c.gangs.map (fun g => g.2.inv))).getD []).dedup

/-- End the request that an invocation serves. -/
def failInvocation (st : Status) (s : State) (inv : Nat) : State :=
  match tget s.compute.invs inv with
  | none => s
  | some v => failRequest s v.entry st 0

/-- What the chapter of a unit's kind clears at its reset (Table 15.4). -/
def clearUnit (s : State) (u : Nat) : State :=
  if 5 ≤ u ∧ u ≤ 6 then (List.range 5).foldl (fun s k => retrainPort s (5 * (u - 5) + k)) s
  else if 8 ≤ u ∧ u ≤ 23 then
    { s with
      compute := { s.compute with looms := tput s.compute.looms (u - 8) .reset }
      tally := { s.tally with waiting := s.tally.waiting.filter (fun r => r.unit ≠ u) } }
  else if 24 ≤ u ∧ u ≤ 71 then
    let s := (invsOnCore s (u - 24)).foldl (failInvocation .unitReset) s
    { s with compute := { s.compute with
        cores := (tmod s.compute.cores (u - 24) ⟨[], [], []⟩ (fun c => { c with gangs := [], localMem := [] })) } }
  else if 72 ≤ u ∧ u ≤ 199 then
    let qs := (s.sifters.searches.filter (fun q => q.contexts.any (fun x => x.sifter = u - 72 && x.st ≠ .shelved))).map
      (fun q => q.entry)
    qs.foldl (fun s i => failRequest s i .unitReset 0) s
  else if 200 ≤ u ∧ u ≤ 231 then
    ((s.flash.dies.map (fun p => p.1)).filter (fun d => d % 32 = u - 200)).foldl resetDie s
  else if 233 ≤ u ∧ u ≤ 242 then retrainPort s (u - 233)
  else s

/-- The unit reset procedure (R361). `cause`: 1 Unit Reset command, 2 hard overrun, 3 unit recovery. -/
def resetUnit (s : State) (u cause : Nat) : State :=
  let old := (unitOf s u).epoch
  let s := unitMod s u (fun x => { x with epoch := (old + 1) % 256, state := .reset, epochBefore := old, crossed := 0 })
  let s := (oldEpochEntries s u).foldl endOldEntry s
  let s := clearUnit s u
  count { s with update := { s.update with unitReset := u, unitCause := cause, unitBell := s.bell.count } }
    (0x6100 + u) 3 1

/-! ## Controller-level resets -/

/-- The roots of the HOST entries. -/
def hostEntries (s : State) : List Nat :=
  (s.tally.entries.filter (fun p => decide (p.2.origin.kind = .host))).map (fun p => p.1)

/-- Take what the host asked of the steward and has not been served; what it wrote and the steward accepted is applied
at its edge, and has no completion (R41). -/
def dropHostRequests (q : Steward) : Steward :=
  { q with
    queue := q.queue.filter (fun r => r.via.master ≠ .host)
    held := []
    accepted := q.accepted.map (fun a => if a.via.master = .host then { a with mute := true } else a) }

/-- NVMe features at their defaults (R360). -/
def featuresReset (s : State) : State :=
  { s with
    host := { s.host with burst := 8, wHigh := 32, wMed := 16, wLow := 4 }
    power := { s.power with hostPs := 0, hostWh := 0, request := 0, apst := false, apstTable := [], apstPs := 0, idleUs := 0, idleFresh := true, noppme := true } }

/-- HOST entries that a controller-level reset frees at once: nothing of them has been dispatched (Table 4.17). -/
def idleHostEntries (s : State) : List Nat :=
  (s.tally.entries.filter (fun p => decide (p.2.origin.kind = .host) && !p.2.dispatched)).map (fun p => p.1)

/-- The HOST entries of a controller-level reset (Table 4.17): those not dispatched are freed with no completion; the work of the others
is stopped at the next chime boundary, until when they are REPLYING, and their commands have no completion either. -/
def dropHostWork (s : State) : State :=
  let s := dropWork s ((idleHostEntries s).flatMap (family s))
  let left := hostEntries s
  { s with
    tally := { s.tally with
      entries := s.tally.entries.map (fun p => if p.2.origin.kind = .host then (p.1, { p.2 with state := .replying }) else p)
      waiting := s.tally.waiting.filter (fun r => decide (r.origin.kind ≠ .host)) }
    host := { s.host with posting := [], stopping := left } }

/-- The work that a controller-level reset stops is ended at a chime boundary (Table 4.17, R359). -/
def stopWork (s : State) : State := dropWork s (s.host.stopping.flatMap (family s))

/-- Every freeze policy is 0 again (R105). -/
def policiesReset (s : State) : State := { s with od := s.od.filter (fun p => p.1 / 256 ≠ 0x2120) }

/-- The effects of a controller-level reset (Table 4.17, Table 15.3, R105, R359, R360). `kind` is that of OD 0x2B00.01:
3 CC.EN cleared, 4 function-level reset, 5 PERST#. -/
def controllerReset (s : State) (kind : Nat) : State :=
  let s := policiesReset (dropHostWork s)
  let s := { s with
    steward := dropHostRequests s.steward
    host := { s.host with sqs := [], cqs := [], rr := [], aers := [], pendingEvents := [], masked := [], en := false,
                          rdy := false, ams := 0, enClearDeferred := false }
    units := s.units.map (fun p => (p.1, { p.2 with resetWaiters := [] }))
    keys := { s.keys with sanitizeEntry := none }
    update := { s.update with resetKind := kind, resetCause := 2, resetBell := s.bell.count, cfs := false, buffer := [],
                              commit := none, writing := s.update.writing.map (fun w => { w with entry := none }) } }
  let s := featuresReset s
  let s := unitMod s 232 (fun x => { x with epoch := (x.epoch + 1) % 256 })
  count (releasePenOf s .host) 0x6015 3 1

/-! ## Streams at resets -/

/-- The image that a stream's home holds after its working copy has been discarded and its committed records copied
home (R248, R356). -/
def parkStream (st : Stream) : Stream :=
  { st with st := .parked, home := st.store.getD st.home, store := none, working := none, chunks := [], parks := [] }

/-! ## The guild reset -/

/-- Guild log entry (Table 12.12); the ring keeps the newest 256. -/
def guildLogWrite (s : State) (code port old new member : Nat) (detail : Int) : State :=
  let l := s.fabric.log ++ [⟨s.bell.count, code, port, old, new, member, detail⟩]
  { s with fabric := { s.fabric with log := l.drop (l.length - 256), logWritten := s.fabric.logWritten + 1 } }

/-- Code of a membership state (Table 12.9). -/
def MemberSt.code : MemberSt → Nat
  | .solo => 0 | .joining => 1 | .active => 2 | .paused => 3 | .leaving => 4

/-- FABRIC entries that this member serves. -/
def servedEntries (s : State) : List Nat := s.fabric.targets.filterMap (fun t => t.entry)

/-- Entries with UNIT 255. -/
def remoteEntries (s : State) : List Nat :=
  (s.tally.entries.filter (fun p => p.2.unit = 255)).map (fun p => p.1)

/-- The steps of a guild reset (R365). -/
def guildReset (s : State) (cause : Nat) : State :=
  let s := (servedEntries s).foldl freeFamily s
  let s := (remoteEntries s).foldl (fun s i => failRequest s i .memberLost 0) s
  let old := s.fabric.member.code
  let s := { s with
    fabric := { s.fabric with targets := [], originated := [], remotes := [], staging := [], peers := [], parts := [],
                              seenLost := [], lostDue := [], sifts := [], periodNotice := none, tableLoaded := false, delaysLoaded := false,
                              member := .solo, rejoin := s.fabric.hasGeometry }
    streams := { s.streams with slices := [], handRows := [] } }
  let s := { s with update := { s.update with resetKind := 6, resetCause := cause, resetBell := s.bell.count } }
  count (raiseEvent (guildLogWrite s 1 255 old 0 s.fabric.memberId 0) 5) 0x6015 4 1

/-! ## The save -/

/-- The pages of a word line whose program was in progress, with their IUs and POISON bits, as a save writes them to the cellar (R166).
A page of copies needs none, for its IU has its old place. -/
def savedPages (s : State) (die : Nat) (p : DieProgram) : List (Nat × FlashPage × Nat) :=
  p.pages.filterMap (fun x => match x with
    | .staged iu => (s.ledger.staged.find? (fun g => g.iu = iu && g.placed = some die)).map (fun g =>
        (iu, ⟨g.cws, g.info, some iu, g.gen⟩, g.poison))
    | _ => none)

/-- The word lines whose programs are in progress, as a save writes them (R166). -/
def linesRunning (s : State) : List SavedLine :=
  s.flash.dies.filterMap (fun d => d.2.program.map (fun p => ⟨bandAt s d.1 p.block, d.1, p.wl, savedPages s d.1 p⟩))

/-- The erases in progress, which restart at boot (R166). -/
def erasesRunning (s : State) : List (Nat × Nat) := s.flash.dies.filterMap (fun d => d.2.erase.map (fun e => (d.1, e.block)))

/-- The power-loss save (R166). What is dropped and abandoned is gone whatever follows; the marker's outcome is an
operand, for it depends on the hold-up bank (R168). -/
def save (s : State) (durationUs : Nat) (markerOk : Bool) : State :=
  let left := s.ledger.saved ++ linesRunning s
  let s := { s with
    flash := { s.flash with dies := [], ladders := [], jobs := [] }
    ledger := { s.ledger with saved := left, eraseLater := (s.ledger.eraseLater ++ erasesRunning s).dedup, tail := 0,
                              saveBell := s.bell.count, saveLines := left.length,
                              saveUs := durationUs, saveResult := if markerOk then 1 else 2 } }
  let held := s.sticky.heldFrozen ++ s.sticky.pending
  held.foldl storeOne { s with sticky := { s.sticky with heldFrozen := [], pending := [] } }

/-! ## Warm, cold and power-off -/

/-- Object indices whose values are kept in the cellar or the always-on domain across a cold reset (Table 6.9's
chapter, R318, R410). -/
def keptIndex (idx : Nat) : Bool :=
  idx / 256 = 0x23 || idx = 0x2C02 || idx = 0x2C20 || idx = 0x2C22 || idx = 0x2C23

/-- What both warm and cold resets end. -/
def endEverything (s : State) : State :=
  { s with
    tally := { Tally.reset with issued := s.tally.issued }
    dev := { s.dev with faultDue := false, drainForActivation := false }
    pen := ⟨none, 0, 0, false⟩
    steward := .reset
    host := { HostSide.reset with perst := s.host.perst, speed := s.host.speed, width := s.host.width,
                                  flit := s.host.flit, warning := s.host.warning, warnUs := s.host.warnUs,
                                  critUs := s.host.critUs }
    bell := { s.bell with overUnit := 0, overBell := 0, overLate := 0 }
    ledger := { s.ledger with writes := [], gatherFrom := [], copies := [], care := [], groups := []
                              eraseLater := (s.ledger.eraseLater ++ erasesRunning s).dedup }
    flash := { s.flash with dies := [], ladders := [], jobs := [] }
    streams := { s.streams with slices := [], handRows := [] }
    sifters := { s.sifters with searches := [], mounts := [], ranLast := [] }
    power := { Power.reset with rear12 := s.power.rear12, rearBells := s.power.rearBells, rearWas := s.power.rearWas
                                thermalLimit := if s.ident.meshed && s.power.rear12 then 1300 else 700 }
    milny := { s.milny with held := none }
    keys := { s.keys.started with sanitizeEntry := none }
    sampled := { Sampled.reset with counters := s.counters } }

/-- The fabric after a warm or cold reset: ports DOWN, no session, no peer, SOLO; what the cellar holds is kept. -/
def fabricOff (f : Fabric) (keepGeometry : Bool) : Fabric :=
  let base := { Fabric.reset with epoch := f.epoch, log := f.log, logWritten := f.logWritten, pinWriter := f.pinWriter }
  if keepGeometry then
    { base with guildId := f.guildId, memberId := f.memberId, dims := f.dims, roots := f.roots, digest := f.digest,
                hasGeometry := f.hasGeometry, rejoin := f.hasGeometry }
  else base

/-- The staged IUs that a warm reset keeps in DRAM (R356): those of word lines whose program was in progress, which wait to be programmed
again, and those of failed word lines (R152). No tally entry waits for them any more. -/
def lineStaged (s : State) : List Staged :=
  (s.ledger.staged.filter (fun g => g.placed.isSome || g.entry = noEntry)).map (fun g => { g with entry := noEntry, placed := none })

/-- Abandon every program in progress (R356): its word line holds nothing. -/
def abandonLines (s : State) : State :=
  s.flash.dies.foldl (fun s d => match d.2.program with
    | some p => abandonLine s d.1 p
    | none => s) s

/-- A warm reset (R356, R357, Table 15.3, R444). `cause` is that of OD 0x2B00.02 and `cls` the fault class, or 0. The link and the PCIe
configuration stay, CC.EN among it, and CSTS.CFS is 1 until the host clears CC.EN (R358). -/
def warmReset (s : State) (cause cls : Nat) : State :=
  let s := raiseRecord s { Record.of 0x0F01 with a := cause + 256 * cls }
  let enabled := s.host.en
  let kept := lineStaged s
  let s := endEverything (abandonLines s)
  let s := { s with
    host := { s.host with en := enabled }
    ledger := { s.ledger with staged := kept }
    units := (List.range 246).map (fun u => (u, { UnitSt.reset with epoch := ((unitOf s u).epoch + 1) % 256 }))
    streams := { s.streams with table := s.streams.table.map (fun p => (p.1, parkStream p.2)) }
    sifters := { s.sifters with slots := s.sifters.slots.filter (fun p => p.2.st = 2) }
    compute := { Compute.reset with
      programs := s.compute.programs.map (fun p => (p.1, if 2 ≤ p.2.state then { p.2 with state := 1, cores := [] } else p.2))
      cache := s.compute.cache
      faultLog := s.compute.faultLog
      faultsWritten := s.compute.faultsWritten
      rangeSets := s.compute.rangeSets
      slm := s.compute.slm }
    fabric := fabricOff s.fabric true
    update := { s.update with resetKind := 2, resetCause := cause, resetBell := s.bell.count, cfs := true, phase := 0,
                              commit := none, requested := none, loaderDone := false, switched := false, warmDeferred := none, buffer := [], writing := [],
                              lastClass := cls } }
  count (transition s .boot 11 false) 0x6015 2 1

/-- The PCIe link is down (R87). -/
def linkDown (s : State) : State := { s with host := { s.host with speed := 0, width := 0, flit := false } }

/-- Everything that a cold reset or a loss of main power takes away (Table 15.3); unlike a warm reset (R358) neither keeps the link. -/
def loseVolatile (s : State) : State :=
  let s := linkDown (endEverything s)
  { s with
    od := s.od.filter (fun p => keptIndex (p.1 / 256))
    units := []
    counters := []
    streams := ⟨[], [], 0, []⟩
    sifters := ⟨[], [], [], []⟩
    compute := .reset
    flash := { s.flash with levels := [], proposals := [], meanBits := [], hot := [], trained := [], pinRecordArmed := true,
                            pinWriter := 0 }
    ledger := { s.ledger with map := [], staged := [] }
    fabric := fabricOff s.fabric false
    update := { s.update with phase := 0, commit := none, requested := none, loaderDone := false, switched := false, warmDeferred := none, buffer := [],
                              writing := [], cfs := false, lastClass := 0 }
    sampled := .reset }

/-- A cold reset ordered through OD 0x2B01 or at the end of FROZEN: the save, then BOOT. `cause` is that of
OD 0x2B00.02. -/
def coldReset (s : State) (cause durationUs : Nat) (markerOk : Bool) : State :=
  let s := loseVolatile (save s durationUs markerOk)
  let s := { s with update := { s.update with resetKind := 1, resetCause := cause, resetBell := s.bell.count } }
  count (transition s .boot 0 false) 0x6015 1 1

/-! ## Faults -/

/-- Every fabric port DOWN (R417). -/
def portsDown (s : State) : State :=
  { s with fabric := { s.fabric with ports := s.fabric.ports.map (fun p =>
      (p.1, { Port.reset with rate := p.2.rate, pinArmed := p.2.pinArmed, calib := p.2.calib })) } }

/-- A warm reset is ordered: at once, or at the end of an activation's drain or pause (R350). -/
def orderWarm (s : State) (cause cls : Nat) : State :=
  if activating s then { s with update := { s.update with warmDeferred := some (cause + 16 * cls) } }
  else warmReset s cause cls

/-- HELD entries are no longer held: they are met as FAULT meets commands. -/
def releaseHeld (s : State) : State :=
  { s with tally := { s.tally with entries := s.tally.entries.map (fun p =>
      if p.2.state = .held then (p.1, { p.2 with state := if p.2.dispatched then .running else .admitted }) else p) } }

/-- The drive enters FAULT (Table 2.6, R417): its ports go down, and the controller of an enabled host is ready there (R44). A pause that
was in progress is over: what waited for its end (R350, R110) follows. -/
def enterFault (s : State) : State :=
  let s := releaseHeld (transition (portsDown s) .fault 10 true)
  let s := { s with
    dev := { s.dev with faultDue := false, drainForActivation := false }
    host := { s.host with rdy := s.host.en && !s.update.cfs }
    update := { s.update with requested := none, loaderDone := false, switched := false } }
  match s.update.warmDeferred with
  | some c => warmReset { s with update := { s.update with warmDeferred := none } } (c % 16) (c / 16)
  | none => if s.host.enClearDeferred then controllerReset s 3 else s

/-- The transition into FAULT that waits, made at a bell edge (R46) after the state requests of that edge (R47). -/
def settleFault (s : State) : State :=
  if s.dev.faultDue && !stopped s && ownMove s then enterFault s else s

/-- A fault class is detected (R386): record 0x1002, then FAULT at the bell edge that allows it, or a warm reset for classes 5 and 6. A
warm reset that meets the same class again before CONFIG enters FAULT. -/
def faultClass (s : State) (cls : Nat) (unit : Option Nat) : State :=
  if stopped s || s.dev.state = .fault then s else
  let s := raiseRecord s { Record.of 0x1002 with a := cls, unit := unit }
  let again := s.dev.state = .boot && s.update.resetKind = 2 && s.update.lastClass = cls
  if (cls = 5 ∨ cls = 6) ∧ again = false then orderWarm s (if cls = 5 then 4 else 5) cls
  else settleFault { s with dev := { s.dev with faultDue := true } }

end Sys2Proof.Machine
end

