-- ==== Sys2Proof/Machine/PowerOps.lean ====
section
/-!
DEFINITION. Operations of the power ladder (chapter 14): limits, the target state, wake events.
-/

namespace Sys2Proof.Machine

/-- Supply limit in 0.1 W (R342, R349): 130 W on M while rear 12 V counts as present, else 70 W. -/
def supplyLimit (s : State) : Nat := if s.ident.meshed && s.power.rear12 then 1300 else 700

/-- A cap as it is applied (R342): within 20.0 W to the supply limit. -/
def capApplied (s : State) (cap : Nat) : Nat := min (supplyLimit s) (max 200 cap)

/-- The effective limit and the term that sets it (R342, OD 0x2A03, OD 0x2A04): on a tie the term named first. -/
def limitAndTerm (s : State) : Nat × Nat :=
  let terms := [(supplyLimit s, 0), (min s.power.thermalLimit (supplyLimit s), 1)]
    ++ (if odVal s 0x2A02 1 = 0 then [] else [(capApplied s (odVal s 0x2A02 1), 2)])
    ++ (if s.milny.cap = 0 then [] else [(capApplied s s.milny.cap, 3)])
  terms.foldl (fun (a b : Nat × Nat) => if b.1 < a.1 then b else a) (supplyLimit s, 0)

/-- The target state (R337). The host's request is the deeper of the state it set and the APST state whose idle time has run
out. -/
def targetState (s : State) : Nat :=
  let asked := max s.power.request (if s.power.apst then s.power.apstPs else 0)
  let t := min asked (odVal s 0x2A10 0)
  let t := if odVal s 0x2A11 0 = 0 then min t 3 else t
  if t = 2 && s.ident.meshed && s.fabric.member ≠ .solo then 1 else t

/-- Is the host idle: it has no entry and no command waits (R337). -/
def hostIdle (s : State) : Bool :=
  s.tally.entries.all (fun p => decide (p.2.origin.kind ≠ .host)) && s.tally.waiting.all (fun r => decide (r.origin.kind ≠ .host))

/-- The APST idle time counts from the chime boundary at which the last HOST entry is freed (R337): until then there is none. -/
def idleTick (s : State) : State :=
  if hostIdle s then s else { s with power := { s.power with idleUs := 0, idleFresh := true, apstPs := 0 } }

/-- Are no transitions between power states made (R339's chapter): FROZEN, FAULT, OFF, BOOT. -/
def powerHeld (s : State) : Bool := stopped s || s.dev.state = .fault || s.dev.state = .boot

/-- The record of R348 on one cap: the thermal limit sets the effective limit while the cap is not 0 and above it. -/
def capOverridden (s : State) (cap : Nat) : Bool :=
  (limitAndTerm s).2 = 1 && cap ≠ 0 && decide (s.power.thermalLimit < cap)

/-- The records of R348, once after each write of a cap. -/
def checkCaps (s : State) : State :=
  let host := odVal s 0x2A02 1
  let s := if s.power.capRecHost && capOverridden s host then
      raiseRecord { s with power := { s.power with capRecHost := false } }
        { Record.of 0x0E02 with winner := 3, loser := 1, b := host, c := s.power.thermalLimit }
    else s
  if s.power.capRecSide && capOverridden s s.milny.cap then
    raiseRecord { s with power := { s.power with capRecSide := false } }
      { Record.of 0x0E02 with winner := 3, loser := 2, b := s.milny.cap, c := s.power.thermalLimit }
  else s

/-- A wake event (R339): preparation ends, and a drive below PS0 starts to return to it. `cause` is that of OD 0x2A00.03. A
host wake ends the host's request, any other leaves it in place. -/
def wakeEvent (s : State) (cause : Nat) : State :=
  if powerHeld s || s.power.waking || (s.power.inForce = 0 && !s.power.transition && !s.power.preparing) then s
  else
    let low := s.power.inForce ≠ 0 || s.power.transition
    let s := { s with power := { s.power with
      preparing := false
      waking := low
      wake := cause
      request := if cause = 1 then 0 else s.power.request
      apstPs := 0
      idleUs := 0
      idleFresh := true } }
    if low then count s 0x6012 0 1 else s

end Sys2Proof.Machine
end

