-- ==== Sys2Proof/Machine/FabricOps.lean ====
section
/-!
DEFINITION. Operations of the fabric and the guild (chapter 12): ports and sends, the delay figure, floods,
membership, pauses, requests of this member and requests that it serves.
-/

namespace Sys2Proof.Machine

/-! ## Ports and sends -/

/-- Code of a port state (Table 12.3). -/
def PortSt.code : PortSt → Nat
  | .down => 0 | .training => 1 | .securing => 2 | .checking => 3 | .up => 4 | .miswired => 5 | .failed => 6

/-- Change peer `m`. -/
def peerMod (s : State) (m : Nat) (f : Peer → Peer) : State :=
  { s with fabric := { s.fabric with peers := tmod s.fabric.peers m .reset f } }

/-- Code of a peer state. -/
def PeerSt.code : PeerSt → Nat
  | .absent => 0 | .active => 1 | .paused => 2 | .lost => 3

/-- Change a port's state, with Guild log event 0x02. -/
def setPort (s : State) (p : Nat) (st : PortSt) : State :=
  let old := (portOf s p).st
  if old = st then s
  else
    let s := guildLogWrite (portMod s p (fun x => { x with st := st })) 2 p old.code st.code 0 (portOf s p).rate
    let since := if st = .up then none
      else if old = .up && upPorts s = [] then some s.bell.ticks
      else s.fabric.noPortUpSince
    { s with fabric := { s.fabric with noPortUpSince := since } }

/-- Sub-kinds of CONTROL in the order of Table 12.6. -/
inductive Control where
  | alive | probe | lost | paused | resumed | joined | period | session | identity | table | delays
  deriving DecidableEq, Repr

/-- Number of a CONTROL sub-kind. -/
def Control.code : Control → Nat
  | .alive => 0 | .probe => 1 | .lost => 2 | .paused => 3 | .resumed => 4 | .joined => 5 | .period => 6
  | .session => 7 | .identity => 8 | .table => 9 | .delays => 10

/-- Send a CONTROL message out of one port, `part` its place in a sequence (R280). The messages of the session agreement go out at once: in
SECURING no flit can verify, so none returns a credit (DEDUCED, log entry 32). -/
def sendPart (s : State) (p : Nat) (k : Control) (part : Nat) (data : List Nat) : State :=
  let x := { ownTxn s (neighbourOf s s.fabric.memberId p) 4 0 (payloadBytes 8 k.code data) k.code 0 part with port := p }
  if (portOf s p).st = .securing then emit s (.fabric p x 8 0 data) else queueMsg s p false x 8 0 data

/-- Send a CONTROL message that is no sequence. -/
def sendControl (s : State) (p : Nat) (k : Control) (data : List Nat) : State := sendPart s p k 0 data

/-- The rows of a payload in messages of at most 3,792 bytes (R280). -/
def partsOf (perMsg : Nat) : Nat → List (List Nat) → List (List (List Nat))
  | 0, rows => [rows]
  | n + 1, rows => if rows.length ≤ perMsg then [rows] else rows.take perMsg :: partsOf perMsg n (rows.drop perMsg)

/-- Send rows of `width` values as a sequence of CONTROL messages (R280): each bears its part number, and the last one bit 31. `head` stands
before the rows of every part. -/
def sendRows (s : State) (p : Nat) (k : Control) (width : Nat) (head : List Nat) (rows : List (List Nat)) : State :=
  let ps := partsOf ((474 - head.length) / width) rows.length rows
  (ps.zipIdx).foldl (fun s x => sendPart s p k (x.2 + (if x.2 + 1 = ps.length then 2 ^ 31 else 0)) (head ++ x.1.flatten)) s

/-- Flood a notice to every UP port but one (R304, R306). -/
def flood (s : State) (except : Option Nat) (k : Control) (data : List Nat) : State :=
  ((upPorts s).filter (fun p => some p ≠ except)).foldl (fun s p => sendControl s p k data) s

/-- Is a port held down by its mode or by a dimension of size 1 (R276). -/
def portHeldDown (s : State) (p : Nat) : Bool :=
  !s.ident.meshed || odVal s 0x2910 (p + 1) = 0 || dimSize s (p / 2) = 1

/-- A port goes DOWN: its session ends (R405), flits in flight are lost, and the neighbour behind it is to be probed
(R306). -/
def portDown (s : State) (p : Nat) : State :=
  let was := (portOf s p).st
  let s := setPort s p .down
  portMod s p (fun x => { Port.reset with
    rate := x.rate, fails := x.fails, pinArmed := x.pinArmed, calib := x.calib, neighbour := x.neighbour
    probing := if was = .up ∧ s.fabric.member ≠ .solo then some s.bell.ticks else x.probing })

/-- A port goes DOWN and trains again (R277), where it is not held down. -/
def dropPort (s : State) (p : Nat) : State :=
  let s := portDown s p
  if portHeldDown s p then s else setPort s p .training

/-- The rate that a port trains at (R277): the pinned one, else the one in force. -/
def trainRate (s : State) (p : Nat) : Nat :=
  let pin := odVal s 0x2911 (p + 1)
  if pin = 0 then (portOf s p).rate else pin - 1

/-! ## The delay figure -/

/-- One-way delay in ns of the link at port `p` of member `m`: its own, or what DELAYS notices gave. -/
def linkDelay (s : State) (m p : Nat) : Nat :=
  if m = s.fabric.memberId then (portOf s p).oneWay else tgetD (peerOf s m).links p 0

/-- d to member `y` in ns (R300). OD 0x2902.06 is in ps. -/
def delayTo (s : State) (y : Nat) : Nat :=
  let route := routeFrom s 161 s.fabric.memberId y
  let mine := rootOfMember s s.fabric.memberId
  let other := rootOfMember s y
  (route.map (fun h => linkDelay s h.1 h.2)).sum + 600 * (route.length - 1) + 150 * (mine.2 + other.2)
    + (if mine.1 = other.1 then 0 else ceilDiv (odVal s 0x2902 6) 1000)

/-- T of R284 in bells. -/
def retryBells (s : State) (y : Nat) : Nat := ceilDiv (2 * delayTo s y) (periodNs s) + 2

/-! ## Membership -/

/-- Change the membership state, with Guild log event 0x01 and asynchronous event 0x05. -/
def setMember (s : State) (m : MemberSt) : State :=
  if s.fabric.member = m then s
  else raiseEvent (guildLogWrite { s with fabric := { s.fabric with member := m } } 1 0 s.fabric.member.code m.code
    s.fabric.memberId s.fabric.epoch) 5

/-- A member has begun an epoch: a LOST notice of that epoch, from 256 epochs before, is none that has been seen (R306). -/
def forgetLost (s : State) (member epoch : Nat) : State :=
  { s with fabric := { s.fabric with seenLost := s.fabric.seenLost.filter (fun p => p ≠ (member, epoch)) } }

/-- Enter JOINING with the epoch one up (R302). The receive staging of R294 is taken then. -/
def enterJoining (s : State) : State :=
  let epoch := (s.fabric.epoch + 1) % 256
  let s := forgetLost s s.fabric.memberId epoch
  setMember { s with fabric := { s.fabric with
    epoch := epoch, tableLoaded := false, delaysLoaded := false, joinPeriod := none, rejoin := false
    resumeBell := 0, holdoverPaused := false } } .joining

/-- Start a join (R302), where the member is SOLO and holds a geometry. -/
def startJoin (s : State) : State := if s.fabric.member = .solo && s.fabric.hasGeometry then enterJoining s else s

/-- The resume bell that this member gives now (R304). -/
def resumeBellNow (s : State) : Nat :=
  if s.fabric.resumeBell = 0 then s.bell.count + odVal s 0x2902 3 else s.fabric.resumeBell

/-- The member becomes PAUSED and floods it (R304). `resume` 0 stands for the bell of each answer + OD 0x2902.03. -/
def pauseMember (s : State) (resume : Nat) (byHoldover : Bool) : State :=
  if s.fabric.member = .active then
    let s := { s with fabric := { s.fabric with resumeBell := resume, holdoverPaused := byHoldover } }
    let s := setMember s .paused
    flood s none .paused [s.fabric.memberId, s.fabric.epoch, resumeBellNow s]
  else s

/-- Does a reason of R304 to be PAUSED hold. -/
def pauseReason (s : State) : Bool :=
  s.dev.state = .drain || s.dev.state = .config || s.dev.state = .paused || decide (3 ≤ s.power.inForce)
    || ((s.power.preparing || s.power.transition) && decide (3 ≤ s.power.target))
    || s.fabric.holdoverPaused

/-- The member becomes ACTIVE again where no reason to be PAUSED is left, and floods RESUMED (R304, R378). -/
def resumeMember (s : State) : State :=
  if s.fabric.member = .paused && !pauseReason s && (isRoot s || s.bell.align = .locked) then
    let s := setMember { s with fabric := { s.fabric with resumeBell := 0 } } .active
    flood s none .resumed [s.fabric.memberId, s.fabric.epoch]
  else s

/-- A guild reset, and the join that follows it where a geometry is held (R365). -/
def guildResetJoin (s : State) (cause : Nat) : State := startJoin (guildReset s cause)

/-- A transition of the device with what it means to the guild (R304, Table 15.3): PAUSED in DRAIN, CONFIG and PAUSED,
ACTIVE again in RUN, and in RUN the guild reset that a warm reset left open. `resume` is the resume bell, 0 for the
rolling one. -/
def goTo (s : State) (dst : DevState) (cause resume : Nat) : State :=
  let s := transition s dst cause true
  match dst with
  | .drain => pauseMember s resume false
  | .config => pauseMember s resume false
  | .paused => pauseMember s resume false
  | .run => if s.fabric.rejoin then guildResetJoin s 0 else resumeMember s
  | _ => s

/-! ## Requests of this member -/

/-- The retry-after of a resume bell (R304). -/
def retryAfter (s : State) (resume : Nat) : Nat := max 1 (sat 16 (resume - s.bell.count))

/-- Change the record of an originated request. -/
def origMod (s : State) (tag : Nat) (f : OrigTxn → OrigTxn) : State :=
  { s with fabric := { s.fabric with
      originated := s.fabric.originated.map (fun o => if o.x.tag = tag then f o else o) } }

/-- The record of an originated request. -/
def origOf (s : State) (tag : Nat) : Option OrigTxn := s.fabric.originated.find? (fun o => o.x.tag = tag)

/-- Free the FABRIC entry of an originated request and forget the request. -/
def dropOrig (s : State) (o : OrigTxn) : State :=
  let s := { s with fabric := { s.fabric with originated := s.fabric.originated.filter (fun p => p.x.tag ≠ o.x.tag) } }
  if o.entry = noEntry then
    { s with tally := { s.tally with waiting := s.tally.waiting.filter (fun r =>
        !(r.unit = 255 && r.origin = .fabric o.x.dst o.x.tag)) } }
  else freeFamily s o.entry

/-- A member asked by a Guild Sift is missing with a reason (R273). -/
def markMissing (s : State) (parent member reason : Nat) : State :=
  { s with sifters := { s.sifters with searches := s.sifters.searches.map (fun q =>
      if q.entry = parent then
        { q with asked := q.asked.map (fun a => if a.member = member ∧ a.answered = false then { a with reason := reason } else a) }
      else q) } }

/-- The resume bell of a member that a Guild Sift found paused (R265). -/
def noteResume (s : State) (parent member resume : Nat) : State :=
  { s with sifters := { s.sifters with searches := s.sifters.searches.map (fun q =>
      if q.entry = parent then
        { q with asked := q.asked.map (fun a => if a.member = member then { a with resume := resume } else a) }
      else q) } }

/-- End an originated request without success: its parent completes with `st` (Table 12.7, R18); a member asked by a
Guild Sift is counted missing with `reason` instead (R273). -/
def failOrig (s : State) (o : OrigTxn) (st : Status) (dw0 reason : Nat) : State :=
  let s := dropOrig s o
  if o.purpose = 3 then markMissing s o.parent o.x.dst reason
  else failRequest s o.parent st dw0

/-- What PAUSED with resume bell `r` does to a request (R305): HELD, or the parent completes with Member Paused. -/
def holdOrig (s : State) (o : OrigTxn) (r : Nat) : State :=
  let e := entryAt s (rootOf s 4 o.parent)
  let late := match e with
    | some e => e.deadline ≠ 0 && decide (e.admitBell + e.deadline < r)
    | none => false
  let s := if o.purpose = 3 then noteResume s o.parent o.x.dst r else s
  if decide (odVal s 0x2902 7 < r - s.bell.count) || late || o.purpose = 3 then failOrig s o .memberPaused (retryAfter s r) 2
  else setState (origMod s o.x.tag (fun o => { o with heldUntil := some r })) o.entry .held

/-- Send an admitted request for the first time. -/
def sendFirst (s : State) (o : OrigTxn) : State :=
  let s := setState (setRunning s o.entry) o.entry .waiting
  let s := origMod s o.x.tag (fun o => { o with sentBell := s.bell.ticks })
  sendMsg s o.x o.type 0 o.data

/-- Send an admitted request, or meet it here as the peer table has it (R303, R304). A PING probes a PAUSED member too. -/
def launch (s : State) (o : OrigTxn) : State :=
  let p := peerOf s o.x.dst
  match p.st with
  | .absent => failOrig s o .memberLost 0 1
  | .lost => failOrig s o .memberLost 0 1
  | .paused => if o.purpose = 6 then sendFirst s o else holdOrig s o p.resume
  | .active => sendFirst s o

/-- Originate a request as a FABRIC child of `parent` (R18, R290, R292), while that entry stands: it goes out once it has been admitted.
Answers its tag. -/
def originate (s : State) (parent type dst addr bell group purpose : Nat) (data : Bytes) (len : Nat) : Nat × State :=
  let tag := s.fabric.nextTag
  if (entryAt s parent).isNone then (tag, s) else
  let r := childReq s parent (.fabric dst tag) 255
  let x := ownTxn s dst r.cls tag len addr bell group
  let s := { s with fabric := { s.fabric with
      nextTag := (tag + 1) % 2 ^ 23
      sifts := if purpose = 3 then s.fabric.sifts.filter (fun p => p.2 ≠ tag) ++ [(dst, tag)] else s.fabric.sifts
      originated := s.fabric.originated ++ [⟨noEntry, parent, x, type, data, s.bell.ticks, false, none, 0, 0, purpose⟩] } }
  (tag, await s r)

/-! ## Requests that this member serves -/

/-- The porter of a port (units 5 and 6). -/
def porterOf (p : Nat) : Nat := if p < 5 then 5 else 6

/-- Send a reply without serving: a refusal. -/
def refuseTxn (s : State) (x : Txn) (type status bell : Nat) : State :=
  sendReply s x type status bell []

/-- The record of a request that this member serves or has served. -/
def targetOf (s : State) (src epoch tag : Nat) : Option TargetTxn :=
  s.fabric.targets.find? (fun t => t.src = src && t.epoch = epoch && t.tag = tag)

/-- The ACCEPT or final reply to a served request. -/
def answer (s : State) (x : Txn) (status : Nat) (data : Bytes) (final : Bool) : State :=
  match targetOf s x.src x.srcEpoch x.tag with
  | none => s
  | some t =>
    let s := replyTarget s t status data final
    if final then match t.entry with
      | some i => freeFamily s i
      | none => s
    else s

/-- Pass a message for another member on (R286, R287): one hop more, discarded and counted at 255. -/
def forward (s : State) (x : Txn) (type : Nat) (data : Bytes) : State :=
  if 255 ≤ x.hops + 1 then count s 0x6014 4 1
  else routeMsg s (some x.port) { x with hops := x.hops + 1 } type 0 data

/-- A FABRIC request or a CONTROL message other than ALIVE wakes a drive in PS1 (R339). -/
def wakeInPs1 (s : State) : State := if s.power.inForce = 1 then wakeEvent s 3 else s

/-- Meet a request (R49, R284, R290, R304): no answer while SOLO or JOINING or to another guild, STALE_EPOCH, a repeat
answered with the reply last sent, PAUSED, or it waits for the next chime boundary, which admits or refuses it (R20, R23). A request for
another member goes on with its data. The port must be UP. -/
def meetTxn (s : State) (x : Txn) (type : Nat) (data : Bytes) (k : Nat) : State :=
  if stopped s || !portUp s x.port || x.guildId ≠ s.fabric.guildId then s else
  let s := wakeInPs1 s
  if x.dst ≠ s.fabric.memberId then forward s x type data else
  match s.fabric.member with
  | .solo => s
  | .joining => s
  | m =>
    if x.dstEpoch ≠ s.fabric.epoch then refuseTxn s x type 4 0 else
    match targetOf s x.src x.srcEpoch x.tag with
    | some t =>
      let s := count s (0x6100 + porterOf x.port) 5 1
      if t.replied then replyTarget s t t.status t.data false else s
    | none =>
      if m ≠ .active then refuseTxn s x type 2 (resumeBellNow s) else
      await { s with fabric := { s.fabric with
          targets := s.fabric.targets ++ [⟨x.src, x.srcEpoch, x.tag, type, none, 0, false, 0, [], x⟩]
          arrived := s.fabric.arrived ++ [⟨x, type, data, k⟩] } }
        ⟨.fabric x.src x.tag, 0, x.cls, porterOf x.port, none, 0, false, false, 0, none⟩

/-- Receive staging (R294). -/
def stagingSize : Nat := 1073741824

/-- Take the arrived request that a waiting request of a peer stands for. -/
def takeArrived (s : State) (src tag : Nat) : Option Arrived × State :=
  let is (a : Arrived) : Bool := a.x.src = src && a.x.tag = tag
  match s.fabric.arrived.find? is with
  | none => (none, s)
  | some a => (some a, { s with fabric := { s.fabric with arrived := s.fabric.arrived.erase a } })

/-- TALLY_FULL at the first chime boundary (R23): the tally, or the receive staging of a PUT or STREAM, has no room. No record of the
request is kept. -/
def refuseArrived (s : State) (a : Arrived) : State :=
  let s := { s with fabric := { s.fabric with targets := s.fabric.targets.filter (fun t =>
      !(t.src = a.x.src && t.epoch = a.x.srcEpoch && t.tag = a.x.tag)) } }
  refuseTxn s a.x a.type 3 0

/-- A request of a peer has its entry `i` (R18, R284): ACCEPT goes out, but for a SIFT, and `act` serves it. -/
def acceptArrived (s : State) (a : Arrived) (i : Nat) (act : State → Nat → State) : State :=
  let s := { s with fabric := { s.fabric with targets := s.fabric.targets.map (fun t =>
      if t.src = a.x.src ∧ t.epoch = a.x.srcEpoch ∧ t.tag = a.x.tag then { t with entry := some i } else t) } }
  let s := if a.type = 5 then s else answer s a.x 1 [] false
  act (setRunning s i) i

/-! ## Aperture requests of the Subsystem Local Memory commands -/

/-- The Memory Read, Write or Copy that a transaction belongs to. -/
def remoteWith (s : State) (tag : Nat) : Option Remote :=
  s.fabric.remotes.find? (fun r => r.left.contains tag || r.accepts.contains tag)

/-- Change the Remote of an entry. -/
def remoteMod (s : State) (entry : Nat) (f : Remote → Remote) : State :=
  { s with fabric := { s.fabric with remotes := s.fabric.remotes.map (fun r => if r.entry = entry then f r else r) } }

/-- Pieces of 65,536 bytes: (offset, length). -/
def pieces : Nat → Nat → List (Nat × Nat)
  | 0, _ => []
  | _, 0 => []
  | n + 1, len =>
    if len ≤ 65536 then [(0, len)]
    else (0, 65536) :: (pieces n (len - 65536)).map (fun p => (p.1 + 65536, p.2))

/-! ## Windows and staging -/

/-- A field of exported window `w` (Table 12.8). -/
def windowField (s : State) (w sub : Nat) : Nat := odVal s (0x2940 + w) sub

/-- Bytes staged for all groups. -/
def stagedBytes (s : State) : Nat :=
  (s.fabric.staging.map (fun g => (g.msgs.map (fun m => m.2.length)).sum)).sum

/-- Is a group the one of a key (R294). -/
def sameGroup (g : StageGroup) (x : Txn) : Bool := g.src = x.src && g.epoch = x.srcEpoch && g.group = x.group

/-- Add a message to its group. -/
def stageMsg (s : State) (x : Txn) (addr : Nat) (data : Bytes) (stream : Option (Nat × Nat × Nat)) : State :=
  let gs := s.fabric.staging
  let gs := if gs.any (fun g => sameGroup g x) then
      gs.map (fun g => if sameGroup g x then { g with msgs := g.msgs ++ [(addr, data)] } else g)
    else gs ++ [⟨x.src, x.srcEpoch, x.group, [(addr, data)], stream, s.bell.ticks⟩]
  { s with fabric := { s.fabric with staging := gs } }

/-- Discard a group. -/
def dropGroup (s : State) (x : Txn) : State :=
  { s with fabric := { s.fabric with staging := s.fabric.staging.filter (fun g => !sameGroup g x) } }

end Sys2Proof.Machine
end

