-- ==== Sys2Proof/Machine/BellOps.lean ====
section
/-!
DEFINITION. Operations of the bell keeper (chapter 3): which source is followed and how it is taken up, the alignment
states, and measurements.
-/

namespace Sys2Proof.Machine

/-- Code of an alignment state (Table 3.5). -/
def Align.code : Align → Nat
  | .free => 0 | .acquire => 1 | .locked => 2 | .holdover => 3

/-- The unit that an alignment record names: the upstream port for a guild source, else the bell keeper (Table 16.4). -/
def alignUnit (s : State) : Nat :=
  if s.bell.followed = 2 then (match upstreamPort s with | some p => 233 + p | none => 244) else 244

/-- The alignment bound in ps (R80). -/
def alignBound (s : State) : Nat :=
  if s.bell.followed = 2 then
    match upstreamPort s with
    | some p => if odVal s 0x2910 (p + 1) = 2 then 150000 else 25000
    | none => 25000
  else 25000

/-- Change the alignment state (R80): Bell log event 0x05, a record and event 0x04 where LOCKED is left for ACQUIRE or
HOLDOVER is entered. `lost` is the code of the source lost. -/
def setAlign (s : State) (a : Align) (lost : Nat) : State :=
  let old := s.bell.align
  if old = a then s else
  let s := bellLog s 5 (alignUnit s) old.code a.code s.bell.phase
  let s := match a with
    | .holdover => raiseRecord s { Record.of 0x0304 with b := lost }
    | .acquire => if old = Align.locked then
        raiseRecord s { Record.of 0x0303 with unit := some (alignUnit s), b := ofInt 64 s.bell.phase } else s
    | _ => s
  let s := { s with bell := { s.bell with align := a, inBound := 0, outBound := 0, holdover := 0 } }
  if a = Align.holdover ∨ old = Align.locked then raiseEvent s 4 else s

/-- Is a source enabled by OD 0x2002; a time root has its guild bit clear (R298). -/
def sourceEnabled (s : State) (src : Nat) : Bool :=
  match src with
  | 0 => true
  | 1 => bit (odVal s 0x2002 0) 0
  | _ => bit (odVal s 0x2002 0) 1 && s.ident.meshed && !isRoot s

/-- Is a source selectable (R75). -/
def selectable (s : State) (src : Nat) : Bool :=
  sourceEnabled s src &&
  match src with
  | 0 => true
  | 1 => s.bell.bellIn.qualified && decide (odVal s 0x2005 0 ≤ s.bell.bellIn.bells)
  | _ => s.bell.guild.qualified && decide (odVal s 0x2005 0 ≤ s.bell.guild.bells)

/-- The selectable source of highest precedence (Table 3.4). -/
def bestSource (s : State) : Nat := if selectable s 2 then 2 else if selectable s 1 then 1 else 0

/-- Take up a source whose count at its edge nearest to the last edge of this drive is `cnt`, and against which this drive is `phaseNs`
early (R77). Where the counts agree and the phase error is at most a quarter of the period the keeper slews. Otherwise it steps: it
stretches the present bell, so that its end lies on an edge of the source, and loads the source's count there. -/
def takeUp (s : State) (cnt : Nat) (phaseNs : Int) : State :=
  if cnt = s.bell.count ∧ phaseNs.natAbs * 4 ≤ periodNs s then
    { s with bell := { s.bell with phase := phaseNs * 1000, slewPs := phaseNs * 1000, step := none } }
  else
    let p : Int := periodNs s
    let stretch := phaseNs % p
    let there := (cnt : Int) + (p + stretch - phaseNs) / p
    bellLog { s with bell := { s.bell with phase := phaseNs * 1000, slewPs := 0, step := some (stretch.toNat, (there % 2 ^ 64).toNat) } }
      8 0 0 0 stretch

/-- The phase of a rising edge of BELL_IN against this drive's edge, in ns, as the keeper takes it: the edge counts as OD 0x2007 ns earlier
(R83). -/
def bellInPhase (s : State) (ns : Int) : Int := ns - (odVal s 0x2007 0 : Int)

/-- What the keeper slews in one bell, in ps: at most OD 0x200C ppm of the period (R77). -/
def slewStep (s : State) : Int :=
  let lim : Int := (periodNs s * odVal s 0x200C 0 / 1000 : Nat)
  max (-lim) (min lim s.bell.slewPs)

/-- The bell edge of a step (R77): the count of the source is loaded, with Bell log event 0x06 and record 0x0302. -/
def loadStep (s : State) (stretch new : Nat) : State :=
  let old := s.bell.count
  let s := { s with bell := { s.bell with
    count := new, edgeNs := s.bell.edgeNs + stretch, step := none, phase := 0, slewPs := 0
    bellInAhead := s.bell.bellInAhead - ((new : Int) - (old : Int)) } }
  raiseRecord (bellLog s 6 0 0 0 ((new : Int) - (old : Int))) { Record.of 0x0302 with b := old, c := new }

/-- Follow another source (R75, R77, R80): Bell log event 0x04; ACQUIRE for a guild or BELL_IN source, HOLDOVER for the
oscillator after any other source, the frequency correction kept (R79). -/
def followSource (s : State) (src cnt : Nat) (phaseNs : Int) : State :=
  let old := s.bell.followed
  if src = old then s else
  let s := bellLog s 4 0 old src 0
  let s := { s with bell := { s.bell with followed := src, hadSource := s.bell.hadSource || decide (src ≠ 0), slewPs := 0 } }
  if src = 0 then setAlign s .holdover old
  else
    let s := takeUp s cnt phaseNs
    setAlign s .acquire old

/-- The followed source is lost: the next selectable source is followed at once (R75). What the count and phase of a
BELL_IN source are then is read from its last frame; its phase is a free value. -/
def fallBack (s : State) : State :=
  let src := bestSource s
  if src = 1 then
    let (f, s) := drawFree s
    followSource s 1 (((s.bell.count : Int) + s.bell.bellInAhead).toNat) (toInt 16 f)
  else followSource s src s.bell.count 0

/-- BELL_IN loses qualification (R76). -/
def loseBellIn (s : State) : State :=
  let s := { s with bell := { s.bell with bellIn := ⟨false, 0⟩, bellInLast := none, bellInGood := false } }
  if s.bell.followed = 1 then fallBack s else s

/-- The guild source loses qualification (R76). -/
def loseGuild (s : State) : State :=
  let s := { s with bell := { s.bell with guild := ⟨false, 0⟩, guildSince := 0 } }
  if s.bell.followed = 2 then fallBack s else s

/-- One measurement of the followed source, in ps (R80): the phase error is kept, the counts of consecutive measurements
within and outside the bound follow, and one outside writes Bell log event 0x0A in LOCKED. The frequency correction that
the loop then demands is a free value within ±100 ppm (R76). -/
def measure (s : State) (ps : Int) : State :=
  let inside := decide (ps.natAbs ≤ alignBound s)
  let (f, s) := drawFree s
  let s := { s with bell := { s.bell with
    phase := ps
    freq := ((f % 200001 : Nat) : Int) - 100000
    inBound := if inside then s.bell.inBound + 1 else 0
    outBound := if inside then 0 else s.bell.outBound + 1 } }
  if !inside && s.bell.align = .locked then bellLog s 0x0A (alignUnit s) 0 0 ps else s

/-- Change the bell period (R66, R67): Bell log event 0x07. Reservations keep their end time, which State holds in ns, and every limit in
bells keeps its count. -/
def changePeriod (s : State) (code : Nat) : State :=
  let old := odVal s 0x2001 0
  if code = old then s else bellLog (odSet s 0x2001 0 code) 7 0 old code 0

end Sys2Proof.Machine
end

