-- ==== Sys2Proof/Machine/Bell.lean ====
section
/-!
DEFINITION. The events of the bell keeper that happen between the edges (chapter 3): hard overruns, sources and
alignment. The bell edge and the chime boundary stand in Machine/Edge.lean and Machine/Chime.lean.
-/

namespace Sys2Proof.Machine

/-- HARD_OVERRUN (R74, R351): a task that crossed OD 0x2081 edges resets its unit; for the steward, the warden and the
host interface that is a warm reset of fault class 5. -/
def execHardOverrun (unit : Nat) (s : State) : Host.Outcome State Fault Refusal :=
  let n := (unitOf s unit).crossed
  if stopped s || !unitPresent s unit || decide (n < odVal s 0x2081 0) then .next s else
  let s := raiseRecord s { Record.of 0x0301 with unit := some unit, b := n }
  let s := bellLog s 2 unit 0 0 n
  if unit = 0 ∨ unit = 7 ∨ unit = 232 then
    .next (faultClass (unitMod s unit (fun x => { x with crossed := 0 })) 5 (some unit))
  else .next (resetUnit s unit 2)

/-- SOURCE_QUALIFIED (R75, R77, R83): a source past the hold-off becomes selectable; the keeper follows it if it is the best. -/
def execSourceQualified (src : BellSource) (srcCount : Nat) (phaseNs : Int) (s : State) :
    Host.Outcome State Fault Refusal :=
  let code := match src with | .guild => 2 | .bellIn => 1
  if !s.rails.alwaysOn || !selectable s code || bestSource s ≠ code then .next s
  else .next (followSource s code srcCount (if code = 1 then bellInPhase s phaseNs else phaseNs))

/-- BELL_IN_FRAME (R76, R82): a decoded frame, whether its edge intervals were within their bound, and its count. One that does not agree
with the frame before it is a frame error and takes the qualification away; two consecutive frames that agree, with their intervals in
bound, qualify BELL_IN. A frame whose intervals are out of bound, or whose count is no multiple of 64, is a frame error too. -/
def execBellInFrame (count : Nat) (intervalsOk : Bool) (s : State) : Host.Outcome State Fault Refusal :=
  if !s.rails.alwaysOn then .next s else
  let good := intervalsOk && count % 64 = 0
  let agrees := s.bell.bellInLast = some (count - 64) && decide (64 ≤ count)
  let errs := !good || (s.bell.bellInLast.isSome && !agrees)
  let lost := s.bell.bellIn.qualified && s.bell.bellInLast.isSome && !agrees
  let both := good && s.bell.bellInGood && agrees
  let s := if errs then bellLog s 9 0 0 0 count else s
  let s := if lost then loseBellIn s else s
  .next { s with bell := { s.bell with
    bellInLast := some count
    bellInGood := good
    bellInCount := count
    bellInAhead := (count : Int) + 64 - (s.bell.count : Int)
    bellIn := if both then { s.bell.bellIn with qualified := true } else s.bell.bellIn } }

/-- BELL_IN_LOST (R76, R75): 4 missed edges, or a correction beyond 100 ppm. -/
def execBellInLost (_overCorrection : Bool) (s : State) : Host.Outcome State Fault Refusal :=
  if !s.rails.alwaysOn || !s.bell.bellIn.qualified then .next s else .next (loseBellIn s)

/-- GUILD_SOURCE_LOST (R76, R75): no measurement for 64 bells, or a correction beyond 100 ppm. -/
def execGuildSourceLost (overCorrection : Bool) (s : State) : Host.Outcome State Fault Refusal :=
  if !s.rails.alwaysOn || !s.bell.guild.qualified || (!overCorrection && decide (s.bell.guildSince < 64)) then .next s
  else .next (loseGuild s)

/-- ALIGNMENT_LOCKED (R80): 16 consecutive measurements within the bound. A member paused by HOLDOVER is ACTIVE again
(R301). -/
def execAlignmentLocked (s : State) : Host.Outcome State Fault Refusal :=
  if !s.rails.alwaysOn || s.bell.align ≠ .acquire || decide (s.bell.inBound < 16) then .next s
  else
    let s := setAlign s .locked 0
    .next (resumeMember { s with fabric := { s.fabric with holdoverPaused := false } })

/-- ALIGNMENT_UNLOCKED (R80): 16 consecutive measurements outside the bound. -/
def execAlignmentUnlocked (s : State) : Host.Outcome State Fault Refusal :=
  if !s.rails.alwaysOn || s.bell.align ≠ .locked || decide (s.bell.outBound < 16) then .next s
  else .next (setAlign s .acquire 0)

end Sys2Proof.Machine
end

