-- ==== Sys2Proof/Machine/Keys.lean ====
section
/-!
DEFINITION. Port sessions (R404 to R408): the agreement in SECURING, rekeying, and the hard stop of the nonce counter.
What the wardens compute (ECDSA, ECDH, HKDF, AES-GCM) is opaque; keys are known by their generation.
-/

namespace Sys2Proof.Machine

/-- Change the session of a port. -/
def sessionMod (s : State) (p : Nat) (f : Session → Session) : State :=
  portMod s p (fun x => { x with session := f x.session })

/-- The 256 bytes of a certificate (Table 17.3); an octet string is held with byte 0 lowest. -/
def certBytes (cert : Nat) : Bytes := leBytes 256 cert

/-- The fabric public key that a certificate holds. -/
def certKey (cert : Nat) : Nat := leNat (slice (certBytes cert) 36 97)

/-- Is a certificate well formed and signed by the guild authority (Table 17.3, OD 0x2C20). -/
def certSigned (s : State) (cert : Nat) : Bool :=
  let b := certBytes cert
  let authority := odVal s 0x2C20 0
  b.take 8 = [0x4E, 0x59, 0x4D, 0x43, 1, 0, 0, 0] && authority ≠ 0
    && Config.ecdsaVerifies authority (Config.sha384 (b.take 160)) (beNat (slice b 160 96))

/-- Is a peer's certificate acceptable (R404): signed by the own authority, of the own guild, its serial at or above
OD 0x2C23. -/
def peerCertOk (s : State) (cert : Nat) : Bool :=
  certSigned s cert && fieldAt (certBytes cert) 8 4 = s.fabric.guildId
    && decide (odVal s 0x2C23 0 ≤ fieldAt (certBytes cert) 32 4)

/-- Does this end's HELLO come first (R404). -/
def helloFirst (s : State) (p : Nat) : Bool :=
  if dimSize s (p / 2) = 2 then p % 2 = 0
  else decide (s.fabric.memberId < neighbourOf s s.fabric.memberId p)

/-- The bytes of a HELLO (R404). -/
def helloBytes (cert ephemeral random : Nat) : Bytes := leBytes 256 cert ++ leBytes 97 ephemeral ++ leBytes 32 random

/-- The digest that a PROOF signs (R404). -/
def proofDigest (s : State) (p : Nat) : Nat :=
  let x := (portOf s p).session
  let mine := helloBytes (odVal s 0x2C22 0) x.ownEphemeral x.ownRandom
  let theirs := helloBytes x.peerCert x.peerEphemeral x.peerRandom
  Config.sha384 (if helloFirst s p then mine ++ theirs else theirs ++ mine)

/-- The digest that a rekey message signs (R407): its fields and the present session of each direction. -/
def rekeyDigest (ephemeral random slot first second : Nat) : Nat :=
  Config.sha384 (leBytes 97 ephemeral ++ leBytes 32 random ++ leBytes 8 slot ++ leBytes 4 first ++ leBytes 4 second)

/-- Enter SECURING (R404): a HELLO with a fresh ephemeral key and random value goes out. -/
def enterSecuring (s : State) (p : Nat) : State :=
  let (e, s) := drawFree (drbg s 2)
  let (r, s) := drawFree s
  let s := setPort s p .securing
  let s := sessionMod s p (fun _ => { Session.reset with
    helloSent := true, since := s.bell.ticks, ownEphemeral := e, ownRandom := r })
  sendControl s p .session [0, odVal s 0x2C22 0, e, r]

/-- The next session or rekey of a port comes into force (OD 0x2C30). -/
def nextSession (s : State) (p : Nat) : State :=
  { s with keys := { s.keys with sessionGen := tmod s.keys.sessionGen p 0 (fun n => wrap 32 (n + 1)) } }

/-- The receive buffer of a port by mode, as the credits that it returns at first (R281): 896 flits on VL0 to VL3 and 256 on VL4 and VL5; in
long-haul mode 548 and 32, and the shared pool, which the credits of VL0 bring. -/
def receiveBuffer (mode : Nat) : List Nat :=
  if mode = 1 then [896, 896, 896, 896, 256, 256] else [548 + 259888, 548, 548, 548, 32, 32]

/-- Enter CHECKING (R289): the identity goes out. -/
def enterChecking (s : State) (p : Nat) : State :=
  let s := nextSession (setPort s p .checking) p
  let g := tgetD s.keys.sessionGen p 0
  let s := sessionMod s p (fun x => { x with keyTx := g, keyRx := g, txCount := 0, rxCount := 0, rekey := 0,
                                             switchTx := none, switchRx := none })
  let s := portMod s p (fun x => { x with
    tx := [], creditsTx := [0, 0, 0, 0, 0, 0, 0], buffered := [0, 0, 0, 0, 0, 0], creditsDue := receiveBuffer (odVal s 0x2910 (p + 1)) })
  sendControl s p .identity [s.fabric.guildId, s.fabric.memberId, s.fabric.epoch, s.fabric.digest]

/-- SESSION_HELLO (R404): the peer's certificate is checked and a PROOF is sent; a failed check makes the port FAILED. -/
def execSessionHello (port cert ephemeral random : Nat) (s : State) : Host.Outcome State Fault Refusal :=
  if stopped s || (portOf s port).st ≠ .securing || (portOf s port).session.helloSeen then .next s
  else if peerCertOk s cert then
    let s := sessionMod s port (fun x => { x with helloSeen := true, peerCert := cert, peerEphemeral := ephemeral,
                                                  peerRandom := random })
    let (sig, s) := drawFree s
    .next (sendControl s port .session [1, sig])
  else .next (setPort s port .failed)

/-- SESSION_PROOF (R404, R405): verified under the certificate's key, the session is derived and the port goes to
CHECKING; else it is FAILED. -/
def execSessionProof (port signature : Nat) (s : State) : Host.Outcome State Fault Refusal :=
  let x := (portOf s port).session
  if stopped s || (portOf s port).st ≠ .securing || !x.helloSeen then .next s
  else if Config.ecdsaVerifies (certKey x.peerCert) (proofDigest s port) signature then
    .next (enterChecking (sessionMod s port (fun x => { x with proofSeen := true })) port)
  else .next (setPort s port .failed)

/-- SECURING_TIMEOUT (R404): agreement not complete within 250 bells of entering SECURING. -/
def execSecuringTimeout (port : Nat) (s : State) : Host.Outcome State Fault Refusal :=
  if stopped s || (portOf s port).st ≠ .securing || decide (s.bell.ticks < (portOf s port).session.since + 250) then .next s
  else .next (setPort s port .failed)

/-- Send REKEY_REQ with switch slot S_i (R407). -/
def sendRekeyReq (s : State) (p : Nat) : State :=
  let (e, s) := drawFree (drbg s 2)
  let (r, s) := drawFree s
  let (sig, s) := drawFree s
  let slot := (portOf s p).session.txCount + 2 ^ 24
  let s := sessionMod s p (fun x => { x with rekey := 1, rekeySince := s.bell.ticks, rekeyTries := x.rekeyTries + 1,
                                             switchTx := some slot, ownEphemeral := e, ownRandom := r })
  sendControl s p .session [2, e, r, slot, sig]

/-- REKEY_THRESHOLD (R407): the transmit counter has reached 2^OD 0x2C24. -/
def execRekeyThreshold (port : Nat) (s : State) : Host.Outcome State Fault Refusal :=
  let x := (portOf s port).session
  if stopped s || !portUp s port || x.rekey ≠ 0 || decide (x.txCount < 2 ^ odVal s 0x2C24 0) then .next s
  else .next (sendRekeyReq s port)

/-- REKEY_REQ (R407): verified, the new session is derived and REKEY_RSP carries this end's switch slot. Of two REQs that cross, the one
of the end of the first HELLO proceeds: a REQ does not say in which bell it started, so those that cross count as started in one bell
(DESIGN CHOICE, log entry 41). -/
def execRekeyReq (port ephemeral random slot signature : Nat) (s : State) : Host.Outcome State Fault Refusal :=
  let x := (portOf s port).session
  if stopped s || !portUp s port || x.rekey = 2 then .next s
  else if x.rekey = 1 && helloFirst s port then .next s
  else if Config.ecdsaVerifies (certKey x.peerCert) (rekeyDigest ephemeral random slot x.keyRx x.keyTx) signature then
    let (e, s) := drawFree (drbg s 2)
    let (r, s) := drawFree s
    let (sig, s) := drawFree s
    let own := x.txCount + 2 ^ 24
    let s := sessionMod s port (fun x => { x with rekey := 2, rekeySince := s.bell.ticks, switchTx := some own,
                                                  switchRx := some slot, peerEphemeral := ephemeral, peerRandom := random,
                                                  ownEphemeral := e, ownRandom := r })
    .next (sendControl s port .session [3, e, r, own, sig])
  else .next s

/-- REKEY_RSP (R407): the initiator holds the new session and the peer's switch slot; one that comes after its own
switch slot leaves the old key in force. -/
def execRekeyRsp (port ephemeral random slot signature : Nat) (s : State) : Host.Outcome State Fault Refusal :=
  let x := (portOf s port).session
  let inTime := match x.switchTx with | some n => decide (x.txCount ≤ n) | none => false
  if stopped s || !portUp s port || x.rekey ≠ 1 || !inTime then .next s
  else if Config.ecdsaVerifies (certKey x.peerCert) (rekeyDigest ephemeral random slot x.keyRx x.keyTx) signature then
    .next (sessionMod s port (fun x => { x with rekey := 2, switchRx := some slot, peerEphemeral := ephemeral,
                                                peerRandom := random }))
  else .next s

/-- A rekey whose two directions have both switched is over. -/
def rekeyDone (s : State) (p : Nat) : State :=
  let x := (portOf s p).session
  if x.switchTx = none ∧ x.switchRx = none then sessionMod s p (fun x => { x with rekey := 0, rekeyTries := 0 }) else s

/-- REKEY_SWITCH (R407): at the announced slot one direction changes key and its counter starts again at 0. -/
def execRekeySwitch (port : Nat) (transmit : Bool) (s : State) : Host.Outcome State Fault Refusal :=
  let x := (portOf s port).session
  let due := match (if transmit then x.switchTx else x.switchRx) with
    | some n => decide (n ≤ (if transmit then x.txCount else x.rxCount))
    | none => false
  if stopped s || !portUp s port || x.rekey ≠ 2 || !due then .next s
  else
    let first := x.switchTx.isSome && x.switchRx.isSome
    let s := if first then nextSession s port else s
    let g := tgetD s.keys.sessionGen port 0
    .next (rekeyDone (sessionMod s port (fun x =>
      if transmit then { x with keyTx := g, txCount := 0, switchTx := none }
      else { x with keyRx := g, rxCount := 0, switchRx := none })) port)

/-- REKEY_RETRY (R407): a REQ with no RSP for 25,000 bells is sent again. -/
def execRekeyRetry (port : Nat) (s : State) : Host.Outcome State Fault Refusal :=
  let x := (portOf s port).session
  if stopped s || !portUp s port || x.rekey ≠ 1 || decide (s.bell.ticks < x.rekeySince + 25000) then .next s
  else .next (sendRekeyReq s port)

/-- NONCE_HARD_STOP (R408): a counter at 2^52 stops the port, which goes DOWN and trains again. -/
def execNonceHardStop (port : Nat) (s : State) : Host.Outcome State Fault Refusal :=
  let x := (portOf s port).session
  if stopped s || !portUp s port || (decide (x.txCount < 2 ^ 52) && decide (x.rxCount < 2 ^ 52)) then .next s
  else .next (sessionMod (dropPort s port) port (fun x => { x with rekey := 3 }))

end Sys2Proof.Machine
end

