-- ==== Sys2Proof/Machine/Transmit.lean ====
section
/-!
DEFINITION. What a port sends (R279 to R282, R288): its flit slots, which lane each of them goes to, and the messages that are complete.
-/

namespace Sys2Proof.Machine

/-- The message of a lane that a port sends next or is sending. -/
def Port.head (x : Port) (vl : Nat) : Option TxMsg := x.tx.find? (fun m => m.vl = vl)

/-- The free credits of a lane: its own and those of the shared pool (R281). -/
def Port.credit (x : Port) (vl : Nat) : Nat := x.creditsTx.getD vl 0 + x.creditsTx.getD 6 0

/-- Can a lane send a flit now: one of a message that has begun needs a credit, the first one what R288 asks for. -/
def Port.canSend (x : Port) (vl : Nat) : Bool :=
  match x.head vl with
  | some m => decide ((if m.started then 1 else m.need) ≤ x.credit vl)
  | none => false

/-- The lane that the next slot goes to (R282), none for an IDLE flit. -/
def Port.nextLane (x : Port) : Option Nat :=
  let data := (List.range 4).any x.canSend
  if x.canSend 5 && (!data || decide (15 ≤ x.gaps.1)) then some 5
  else if x.canSend 4 && (!data || decide (15 ≤ x.gaps.2)) then some 4
  else if x.canSend 0 then some 0
  else match [1, 2, 3].find? (fun v => x.canSend v && decide (0 < x.turns.getD (v - 1) 0)) with
    | some v => some v
    | none => [1, 2, 3].find? x.canSend

/-- Spend a credit of a lane: one of its own first. -/
def spendCredit (xs : List Nat) (vl : Nat) : List Nat :=
  if 0 < xs.getD vl 0 then xs.set vl (xs.getD vl 0 - 1) else xs.set 6 (xs.getD 6 0 - 1)

/-- What VL1 to VL3 may still send after a flit of a lane; a new round has the weights 4, 4 and 1. -/
def takeTurn (turns : List Nat) (vl : Nat) : List Nat :=
  if vl = 0 ∨ 3 < vl then turns
  else
    let t := if turns.getD (vl - 1) 0 = 0 then [4, 4, 1] else turns
    t.set (vl - 1) (t.getD (vl - 1) 0 - 1)

/-- Send one flit of a lane. Answers the message where it was its last. -/
def Port.sendFlit (x : Port) (vl : Nat) : Option TxMsg × Port :=
  match x.head vl with
  | none => (none, x)
  | some m =>
    let y := { x with
      creditsTx := spendCredit x.creditsTx vl
      gaps := (if vl = 5 then 0 else sat 8 (x.gaps.1 + 1), if vl = 4 then 0 else sat 8 (x.gaps.2 + 1))
      turns := takeTurn x.turns vl
      seqTx := (x.seqTx + 1) % 2 ^ 16 }
    if m.left ≤ 1 then (some m, { y with tx := x.tx.erase m })
    else (none, { y with tx := x.tx.replace m { m with left := m.left - 1, started := true } })

/-- `n` flit slots: the messages that are complete, in order, and the port. With nothing to send the slots left are IDLE. -/
def Port.sendSlots : Nat → Port → List TxMsg × Port
  | 0, x => ([], x)
  | n + 1, x => match x.nextLane with
    | none => ([], { x with gaps := (sat 8 (x.gaps.1 + n + 1), sat 8 (x.gaps.2 + n + 1)) })
    | some v =>
      let y := x.sendFlit v
      let z := Port.sendSlots n y.2
      (y.1.toList ++ z.1, z.2)

/-- Line rate after FEC, in tenths of GB/s (Table 12.2). -/
def lineRate (rate : Nat) : Nat :=
  match rate with
  | 0 => 627
  | 1 => 502
  | _ => 251

/-- Flit slots of a port in one chime: 256 bytes each at the line rate. -/
def slotsPerChime (s : State) (p : Nat) : Nat := chimeNs s * lineRate (portOf s p).rate / 2560

/-- The slots of one port in the chime that ends (R279, R282, R406): every slot counts, and the headers return the credits that are due and
the ACK. A message is out with its last flit. -/
def portSlots (s : State) (p : Nat) : State :=
  let x := portOf s p
  if !(x.st = .checking || x.st = .up) then s
  else
    let n := slotsPerChime s p
    let y := x.sendSlots n
    let s := portMod s p (fun _ => { y.2 with
      creditsDue := [0, 0, 0, 0, 0, 0], session := { y.2.session with txCount := y.2.session.txCount + n } })
    let s := if x.creditsDue.all (fun c => c = 0) then s
      else emit s (.flits p n (if odVal s 0x2910 (p + 1) = 1 then x.seqRx else 0) x.creditsDue)
    y.1.foldl (fun s m => emit s (.fabric p m.x m.type m.status m.data)) (count s (0x61E9 + p) 4 n)

/-- The ports in the chime that ends. -/
def portsChime (s : State) : State := (List.range 10).foldl portSlots s

/-- Drop the messages with DETOUR set that have waited more than one bell on a port (R287): each is counted. -/
def dropDetours (s : State) (p : Nat) : State :=
  let late (m : TxMsg) : Bool := m.x.detour && !m.started && decide (m.since + 1 < s.bell.ticks)
  let n := ((portOf s p).tx.filter late).length
  if n = 0 then s else count (portMod s p (fun x => { x with tx := x.tx.filter (fun m => !late m) })) 0x6014 4 n

end Sys2Proof.Machine
end

