-- ==== Sys2Proof/Machine/Link.lean ====
section
/-!
DEFINITION. Ports and links (chapter 12): flits, link retry, the three loops on a port's rate, training and losses of a link,
and the identity exchange that takes a port UP.
-/

namespace Sys2Proof.Machine

open Host (Outcome)

/-! ## Rates and pins -/

/-- The rate pin of a port (OD 0x2911): 0 none, else the pinned code plus 1. -/
def ratePin (s : State) (p : Nat) : Nat := odVal s 0x2911 (p + 1)

/-- Mode of a port (OD 0x2910). -/
def portMode (s : State) (p : Nat) : Nat := odVal s 0x2910 (p + 1)

/-- Does a port have a link: it is past training. -/
def linked (s : State) (p : Nat) : Bool :=
  match (portOf s p).st with
  | .securing => true
  | .checking => true
  | .up => true
  | .miswired => true
  | _ => false

/-- PORT_PROTECTION_DOWN (R277, R278): more than 16 flits that failed correction in this bell take an UP port DOWN; a pinned
one is recorded. -/
def execPortProtectionDown (port : Nat) (s : State) : Outcome State Fault Refusal :=
  let bad := (portOf s port).badFlits
  if stopped s || !portUp s port || decide (bad ≤ 16) then .next s
  else
    let s := if ratePin s port = 0 then s
      else raiseRecord s { Record.of 0x0C02 with winner := 4, loser := s.fabric.pinWriter, unit := some (233 + port), b := bad }
    .next (dropPort s port)

/-- The rate code that adaptation proposes (R277): one slower above 2.4 × 10^-4, one faster after 1,500,000 bells below
1 × 10^-6. `ber12` is the pre-FEC bit error rate × 10^12. -/
def proposedRate (s : State) (p ber12 : Nat) : Option Nat :=
  let x := portOf s p
  if 240000000 < ber12 ∧ x.rate < 2 then some (x.rate + 1)
  else if ber12 < 1000000 ∧ 1500000 ≤ x.fastBells ∧ 0 < x.rate then some (x.rate - 1)
  else none

/-- RATE_ADAPT (R277, R278): a step of an unpinned port retrains it; under a pin the first step withheld after a write of the pin
is recorded. -/
def execRateAdapt (port ber12 : Nat) (s : State) : Outcome State Fault Refusal :=
  if stopped s || !portUp s port then .next s
  else
    let proposal := proposedRate s port ber12
    let s := if ber12 < 1000000 then s else portMod s port (fun x => { x with fastBells := 0 })
    match proposal with
    | none => .next s
    | some r =>
      let pin := ratePin s port
      if pin = 0 then
        let old := (portOf s port).rate
        let s := guildLogWrite s 6 port old r 0 ber12
        .next (portMod (dropPort s port) port (fun x => { x with rate := r }))
      else if (portOf s port).pinArmed then
        let s := portMod s port (fun x => { x with pinArmed := false })
        .next (raiseRecord s { Record.of 0x0C01 with
          winner := s.fabric.pinWriter, loser := 7, unit := some (233 + port), a := pin - 1 + 256 * r })
      else .next s

/-- PORT_TRAINED (R277, R278): the port goes on to SECURING at the rate it trained at; a pinned port that has failed three times in
a row is FAILED. A near-mode port calibrates its asymmetry at training (R81); what it finds is a free value. -/
def execPortTrained (port : Nat) (ok : Bool) (s : State) : Outcome State Fault Refusal :=
  if stopped s || (portOf s port).st ≠ .training then .next s
  else if ok then
    let (c, s) := drawFree s
    let calib := if portMode s port = 1 then toInt 16 c else 0
    let rate := trainRate s port
    .next (enterSecuring (portMod s port (fun x => { x with rate := rate, fails := 0, calib := calib })) port)
  else
    let n := (portOf s port).fails + 1
    let s := portMod s port (fun x => { x with fails := n })
    if ratePin s port ≠ 0 ∧ 3 ≤ n then .next (setPort s port .failed) else .next s

/-- LINK_DOWN (R278, Table 12.3): block lock is lost, or 64 consecutive flits have failed. -/
def execLinkDown (port : Nat) (s : State) : Outcome State Fault Refusal :=
  if stopped s || !linked s port then .next s else .next (dropPort s port)

/-- ALIVE_TIMEOUT: no CONTROL ALIVE has arrived for 64 bells (Table 12.3's chapter). -/
def execAliveTimeout (port : Nat) (s : State) : Outcome State Fault Refusal :=
  if stopped s || !portUp s port || decide ((portOf s port).alive < 64) then .next s else .next (dropPort s port)

/-- CONTROL_ALIVE: the link has shown that it is alive. -/
def execControlAlive (port : Nat) (s : State) : Outcome State Fault Refusal :=
  if stopped s || !portUp s port then .next s else .next (portMod s port (fun x => { x with alive := 0 }))

/-! ## Flits -/

/-- A flit that failed correction or its tag (R279, R283): counted; a near-mode port asks for a replay from the first flit that
failed, a long-haul port gives the message up. -/
def badFlit (s : State) (p : Nat) (tagFailed : Bool) : State :=
  let s := count s (0x61E9 + p) (if tagFailed then 6 else 5) 1
  let s := portMod s p (fun x => { x with badFlits := x.badFlits + 1, badRun := x.badRun + 1, discardMsg := true })
  if portMode s p = 1 then emit s (.nak p (((portOf s p).seqRx + 1) % 65536)) else s

/-- Add to a lane's count. -/
def addLane (xs : List Nat) (lane n : Nat) : List Nat := xs.set lane (xs.getD lane 0 + n)

/-- Credits that the receiver returns for a lane (R281): in long-haul mode what is above the lane's own goes to the shared pool. -/
def returnCredits (near : Bool) (xs : List Nat) (lane n : Nat) : List Nat :=
  let own := if near then n else min n (bubble lane - xs.getD lane 0)
  addLane (addLane xs lane own) 6 (n - own)

/-- A good flit of a message on lane `f.vl` (R279, R281): it takes a place in the receive buffer, which the last flit of the
message gives back. In near mode flits after a gap wait for the replay (R283); in long-haul mode a message with a failed flit
is discarded whole. -/
def goodFlit (s : State) (p : Nat) (f : Flit) : State :=
  let x := portOf s p
  let near := portMode s p = 1
  if near && x.discardMsg && f.seq ≠ (x.seqRx + 1) % 65536 then s
  else
    let lost := !near && x.discardMsg && f.last
    let s := portMod s p (fun x => { x with
      seqRx := if near then f.seq else x.seqRx
      discardMsg := if near || f.last then false else x.discardMsg
      buffered := if f.last then x.buffered.set f.vl 0 else addLane x.buffered f.vl 1
      creditsDue := if f.last then addLane x.creditsDue f.vl (x.buffered.getD f.vl 0 + 1) else x.creditsDue })
    if lost then count s (0x61E9 + p) 8 1 else s

/-- FLIT_RECEIVED (R279, R281, R283, R406): the receive counter counts the slot; a flit that verifies returns credits and ACK.
In SECURING every flit but the session's own is discarded (R404). -/
def execFlitReceived (port : Nat) (f : Flit) (s : State) : Outcome State Fault Refusal :=
  let st := (portOf s port).st
  if stopped s || !(st = .checking || st = .up) then .next s
  else
    let s := sessionMod s port (fun x => { x with rxCount := x.rxCount + 1 })
    if !f.corrected then .next (badFlit s port false)
    else if !f.tagOk then .next (badFlit s port true)
    else
      let s := portMod s port (fun x => { x with badRun := 0 })
      if !f.reservedOk || decide (5 < f.vl) || decide (5 < f.cvl) then .next s
      else
        let s := portMod s port (fun x => { x with
          ackRx := if portMode s port = 1 then f.ack else x.ackRx
          creditsTx := returnCredits (portMode s port = 1) x.creditsTx f.cvl f.credits })
        if f.kind = 1 ∨ f.kind = 2 then .next (goodFlit s port f) else .next s

/-- NAK (R283): a near-mode sender replays from the flit that failed, under new counter values. -/
def execNak (port seq : Nat) (s : State) : Outcome State Fault Refusal :=
  if stopped s || !portUp s port || portMode s port ≠ 1 then .next s
  else
    let n := ((portOf s port).seqTx + 65536 - seq % 65536) % 65536 + 1
    .next (count (sessionMod s port (fun x => { x with txCount := x.txCount + n })) (0x61E9 + port) 7 1)

/-- DETOUR_DISCARD (R287): a message with DETOUR set that has waited more than one bell for credits is discarded. -/
def execDetourDiscard (port : Nat) (s : State) : Outcome State Fault Refusal :=
  if stopped s || !portUp s port then .next s else .next (dropDetours s port)

/-! ## The identity exchange -/

/-- Send the peer table and the delay map to the neighbour of a port (R280, R302). The bell period in force goes with the
table. -/
def sendTables (s : State) (p : Nat) : State :=
  let own := (s.fabric.memberId, 1, s.fabric.epoch, 0)
  let rows := own :: s.fabric.peers.map (fun q => (q.1, q.2.st.code, q.2.epoch, q.2.resume))
  let links := (List.range 10).map (fun k => [s.fabric.memberId, k, (portOf s k).oneWay])
    ++ s.fabric.peers.flatMap (fun q => q.2.links.map (fun l => [q.1, l.1, l.2]))
  let s := sendRows s p .table 4 [odVal s 0x2001 0] (rows.map (fun r => [r.1, r.2.1, r.2.2.1, r.2.2.2]))
  sendRows s p .delays 3 [] links

/-- CONTROL_IDENTITY (R289): the port is UP where guild, digest and member are those of the geometry, else MISWIRED with a
record. An ACTIVE member sends its tables to the neighbour. -/
def execControlIdentity (port guild member _epoch digest : Nat) (s : State) : Outcome State Fault Refusal :=
  if stopped s || (portOf s port).st ≠ .checking then .next s
  else
    let s := portMod s port (fun x => { x with neighbour := member })
    if guild = s.fabric.guildId ∧ digest = s.fabric.digest ∧ member = neighbourOf s s.fabric.memberId port then
      let s := setPort (portMod s port (fun x => { x with alive := 0, probing := none, probeSent := false })) port .up
      .next (if s.fabric.member = .active then sendTables s port else s)
    else
      let s := guildLogWrite (setPort s port .miswired) 7 port 0 0 member member
      .next (raiseRecord s { Record.of 0x0C03 with unit := some (233 + port), b := member })

/-! ## Time transfer -/

/-- Asymmetry of a link in ps (R81): what the master wrote, plus the drive's own calibration on a near-mode port. -/
def asymmetry (s : State) (p : Nat) : Int :=
  toInt 32 (odVal s 0x2010 (p + 1)) + (if portMode s p = 1 then (portOf s p).calib else 0)

/-- Send a TIME message out of one port: kind 0 Sync, 1 Delay_Req, 2 Delay_Resp. -/
def sendTime (s : State) (p kind : Nat) (data : List Nat) : State :=
  queueMsg s p false { ownTxn s (neighbourOf s s.fabric.memberId p) 5 0 (payloadBytes 7 kind data) kind 0 0 with port := p } 7 0 data

/-- TIME_TRANSFER_INTERVAL (R299): every 16 bells a Sync goes out of every UP port; its timestamp is a free value. -/
def execTimeTransferInterval (s : State) : Outcome State Fault Refusal :=
  if stopped s || s.bell.count % 16 ≠ 0 then .next s
  else .next ((upPorts s).foldl (fun s p => let (t, s) := drawFree s; sendTime s p 0 [t]) s)

/-- SYNC (R299): t1 and t2 are kept for the Delay_Resp, and the Delay_Req goes out with t3, a free value. -/
def execSyncOp (_x : Txn) (port : Nat) (t1 t2 : Int) (s : State) : Outcome State Fault Refusal :=
  if stopped s || !portUp s port then .next s
  else
    let (t3, s) := drawFree s
    .next (sendTime (portMod s port (fun x => { x with syncT := some (t1, t2) })) port 1 [t3])

/-- DELAY_REQ (R299): answered with t4. -/
def execDelayReq (_x : Txn) (port : Nat) (t3 t4 : Int) (s : State) : Outcome State Fault Refusal :=
  if stopped s || !portUp s port then .next s
  else .next (sendTime s port 2 [ofInt 64 t3, ofInt 64 t4])

/-- A new one-way delay of a link; one that has changed by more than 1 µs is flooded (R300). -/
def noteDelay (s : State) (p ns : Nat) : State :=
  let old := (portOf s p).oneWay
  let s := portMod s p (fun x => { x with oneWay := ns })
  if (old + 1000 < ns ∨ ns + 1000 < old) ∧ s.fabric.member ≠ .solo then flood s none .delays [s.fabric.memberId, p, ns] else s

/-- DELAY_RESP (R299, R80): one-way delay and offset of the link, in ps; on the port that faces the upstream neighbour the offset is
a measurement of the guild source. -/
def execDelayResp (_x : Txn) (port : Nat) (t3 t4 : Int) (s : State) : Outcome State Fault Refusal :=
  match (portOf s port).syncT with
  | none => .next s
  | some (t1, t2) =>
    if stopped s || !portUp s port then .next s
    else
      let delay := ((t2 - t1) + (t4 - t3)) / 2
      let offset := ((t2 - t1) - (t4 - t3)) / 2 - asymmetry s port / 2
      let s := portMod s port (fun x => { x with offset := offset, syncT := none })
      let s := noteDelay s port (delay / 1000).toNat
      if upstreamPort s = some port then
        let s := { s with bell := { s.bell with guild := { s.bell.guild with qualified := true }, guildSince := 0 } }
        .next (if s.bell.followed = 2 then measure s offset else s)
      else .next s

end Sys2Proof.Machine
end

