-- ==== Sys2Proof/Machine/Fp.lean ====
section
/-!
DEFINITION. The number formats of Table 7.4 and their exact arithmetic (R175, R176, R232): a finite value is a sign and a
dyadic m · 2^e, every operation is computed exactly (or with enough bits to round correctly) and rounded once, to nearest
with ties to even.
-/

namespace Sys2Proof.Machine

/-- A floating value: NaN, an infinity, or ±m · 2^e. -/
inductive Fv where
  | nan
  | inf (neg : Bool)
  | fin (neg : Bool) (m : Nat) (e : Int)
  deriving DecidableEq, Repr

/-- m / 2^k rounded to nearest, ties to even. -/
def roundShift (m k : Nat) : Nat :=
  if k = 0 then m
  else
    let q := m / 2 ^ k
    let r := m % 2 ^ k
    if 2 * r > 2 ^ k ∨ (2 * r = 2 ^ k ∧ q % 2 = 1) then q + 1 else q

/-- The magnitude bits (exponent and mantissa fields) of m · 2^e in a format with `mb` mantissa bits and an exponent bias,
rounded to nearest with ties to even, without an upper limit on the exponent. Subnormals are kept. -/
def packMag (mb bias m : Nat) (e : Int) : Nat :=
  if m = 0 then 0
  else
    let top : Int := (Nat.log2 m : Int) + e
    let low : Int := 1 - (bias : Int) - (mb : Int)
    let q : Int := max (top - (mb : Int)) low
    let sh : Int := q - e
    let r := if sh ≤ 0 then m * 2 ^ (-sh).toNat else roundShift m sh.toNat
    (q - low).toNat * 2 ^ mb + r

/-- The magnitude bits of m · 2^e as m'·2^q of the same format: what `packMag` rounded to. -/
def unpackMag (mb bias x : Nat) : Nat × Int :=
  let ex := x / 2 ^ mb
  let man := x % 2 ^ mb
  if ex = 0 then (man, 1 - (bias : Int) - (mb : Int))
  else (man + 2 ^ mb, (ex : Int) - (bias : Int) - (mb : Int))

/-! ## FP32 -/

/-- The canonical NaN of FP32. -/
def f32Nan : Nat := 0x7FC00000

/-- The value of an FP32 word. -/
def f32Val (w : Nat) : Fv :=
  let w := w % 2 ^ 32
  let neg := decide (2 ^ 31 ≤ w)
  let x := w % 2 ^ 31
  if 0x7F800000 < x then .nan
  else if x = 0x7F800000 then .inf neg
  else let p := unpackMag 23 127 x; .fin neg p.1 p.2

/-- Sign bit of a word of `n` bits. -/
def signBit (neg : Bool) (n : Nat) : Nat := if neg then 2 ^ (n - 1) else 0

/-- The FP32 word of a value: rounded once; too large a magnitude gives an infinity (IEEE 754, R175). -/
def f32Of : Fv → Nat
  | .nan => f32Nan
  | .inf neg => signBit neg 32 + 0x7F800000
  | .fin neg m e => signBit neg 32 + min (packMag 23 127 m e) 0x7F800000

/-- The negative of a value. -/
def fvNeg : Fv → Fv
  | .nan => .nan
  | .inf n => .inf (!n)
  | .fin n m e => .fin (!n) m e

/-- Signed mantissa of a finite value at exponent `q`, which is at most its own. -/
def scaled (neg : Bool) (m : Nat) (e q : Int) : Int :=
  let v : Int := ((m * 2 ^ (e - q).toNat : Nat) : Int)
  if neg then -v else v

/-- Exact sum. An exact zero is +0 unless both addends are negative zeros. -/
def fvAdd : Fv → Fv → Fv
  | .nan, _ => .nan
  | _, .nan => .nan
  | .inf a, .inf b => if a = b then .inf a else .nan
  | .inf a, _ => .inf a
  | _, .inf b => .inf b
  | .fin a m e, .fin b n f =>
    let q := min e f
    let v := scaled a m e q + scaled b n f q
    if v = 0 then .fin (a && b && m = 0 && n = 0) 0 q else .fin (decide (v < 0)) v.natAbs q

/-- Exact product. -/
def fvMul : Fv → Fv → Fv
  | .nan, _ => .nan
  | _, .nan => .nan
  | .inf a, .inf b => .inf (a != b)
  | .inf a, .fin b n _ => if n = 0 then .nan else .inf (a != b)
  | .fin a m _, .inf b => if m = 0 then .nan else .inf (a != b)
  | .fin a m e, .fin b n f => .fin (a != b) (m * n) (e + f)

/-- Quotient with 64 more bits than the divisor and a sticky bit. -/
def fvDiv : Fv → Fv → Fv
  | .nan, _ => .nan
  | _, .nan => .nan
  | .inf _, .inf _ => .nan
  | .inf a, .fin b _ _ => .inf (a != b)
  | .fin a _ _, .inf b => .fin (a != b) 0 0
  | .fin a m e, .fin b n f =>
    if n = 0 then (if m = 0 then .nan else .inf (a != b))
    else
      let k := 64 + Nat.log2 n
      let x := m * 2 ^ k
      .fin (a != b) (2 * (x / n) + (if x % n = 0 then 0 else 1)) (e - f - k - 1)

/-- Integer square root, one bit at a time from bit `b` down. -/
def isqrtGo (n : Nat) : Nat → Nat → Nat
  | 0, r => if (r + 1) * (r + 1) ≤ n then r + 1 else r
  | b + 1, r =>
    let t := r + 2 ^ (b + 1)
    if t * t ≤ n then isqrtGo n b t else isqrtGo n b r

/-- Integer square root. -/
def isqrt (n : Nat) : Nat := isqrtGo n (Nat.log2 n / 2 + 1) 0

/-- Square root with a sticky bit. -/
def fvSqrt : Fv → Fv
  | .nan => .nan
  | .inf true => .nan
  | .inf false => .inf false
  | .fin neg m e =>
    if m = 0 then .fin neg 0 0
    else if neg then .nan
    else
      let k : Nat := if e % 2 = 0 then 64 else 65
      let n := m * 2 ^ k
      let r := isqrt n
      .fin false (2 * r + (if r * r = n then 0 else 1)) ((e - k) / 2 - 1)

/-! ## Fixed-point functions, for the correctly rounded exponential and logarithm -/

/-- Bits of the fixed-point fractions. -/
def fixBits : Nat := 320

/-- atanh(z) for a fixed-point z below 1/2: the sum of z^(2k+1) / (2k+1), `z2` being z². -/
def atanhGo (z2 : Nat) : Nat → Nat → Nat → Nat
  | 0, _, _ => 0
  | n + 1, p, d => p / d + atanhGo z2 n (p * z2 / 2 ^ fixBits) (d + 2)

/-- ln of the fixed-point number (1 + z) / (1 - z), given z. -/
def lnFix (z : Nat) : Nat := 2 * atanhGo (z * z / 2 ^ fixBits) 110 z 1

/-- ln 2. -/
def ln2Fix : Nat := lnFix (2 ^ fixBits / 3)

/-- exp(y) for a fixed-point y below 1: the sum of y^n / n!. -/
def expGo (y : Nat) : Nat → Nat → Nat → Nat
  | 0, _, _ => 0
  | n + 1, t, k => t + expGo y n (t * y / 2 ^ fixBits / k) (k + 1)

/-- 2^f for a fixed-point f below 1. -/
def exp2Fix (f : Nat) : Nat :=
  let y := f * ln2Fix / 2 ^ fixBits
  expGo y 90 (2 ^ fixBits) 1

/-- 2^x (FEXP2): exact for an integer; else to 320 bits, which no tie of FP32 comes near, with a sticky bit. -/
def fvExp2 : Fv → Fv
  | .nan => .nan
  | .inf true => .fin false 0 0
  | .inf false => .inf false
  | .fin neg m e =>
    if m = 0 then .fin false 1 0
    else if 8 < (Nat.log2 m : Int) + e + 1 then
      (if neg then .fin false 0 0 else .inf false)
    else
      let up := (e + fixBits).toNat
      let v : Nat := if 0 ≤ e + fixBits then m * 2 ^ up else m / 2 ^ (-(e + fixBits)).toNat
      let x : Int := if neg then -(v : Int) else v
      let i : Int := x / (2 ^ fixBits : Int)
      let f : Nat := (x - i * (2 ^ fixBits : Int)).toNat
      if f = 0 then .fin false 1 i
      else .fin false (2 * exp2Fix f + 1) (i - fixBits - 1)

/-- log2 x (FLOG2): exact for a power of two; else to 320 bits with a sticky bit. -/
def fvLog2 : Fv → Fv
  | .nan => .nan
  | .inf true => .nan
  | .inf false => .inf false
  | .fin neg m e =>
    if m = 0 then .inf true
    else if neg then .nan
    else
      let l := Nat.log2 m
      let x : Int := (l : Int) + e
      if m = 2 ^ l then .fin (decide (x < 0)) x.natAbs 0
      else
        let one := 2 ^ fixBits
        let a := m * one / 2 ^ l
        let z := (a - one) * one / (a + one)
        let frac := lnFix z * one / ln2Fix
        let t : Int := x * (one : Int) + (frac : Int)
        .fin (decide (t < 0)) (2 * t.natAbs + 1) (-(fixBits : Int) - 1)

/-! ## Comparison and rounding -/

/-- Is a value zero. -/
def fvZero : Fv → Bool
  | .fin _ m _ => m = 0
  | _ => false

/-- a < b on values that are no NaN; zeros of either sign are equal. -/
def fvLt : Fv → Fv → Bool
  | .nan, _ => false
  | _, .nan => false
  | .inf a, .inf b => a && !b
  | .inf a, _ => a
  | _, .inf b => !b
  | .fin a m e, .fin b n f =>
    let q := min e f
    decide (scaled a m e q < scaled b n f q)

/-- Are two values equal; NaN equals nothing. -/
def fvEq : Fv → Fv → Bool
  | .nan, _ => false
  | _, .nan => false
  | .inf a, .inf b => a = b
  | .inf _, _ => false
  | _, .inf _ => false
  | .fin a m e, .fin b n f =>
    let q := min e f
    decide (scaled a m e q = scaled b n f q)

/-- Sign of a value. -/
def fvSign : Fv → Bool
  | .nan => false
  | .inf a => a
  | .fin a _ _ => a

/-- Minimum of IEEE 754-2019: NaN if either is, −0 below +0. -/
def fvMin (a b : Fv) : Fv :=
  match a, b with
  | .nan, _ => .nan
  | _, .nan => .nan
  | a, b => if fvLt a b then a else if fvLt b a then b else if fvSign a then a else b

/-- Maximum of IEEE 754-2019. -/
def fvMax (a b : Fv) : Fv :=
  match a, b with
  | .nan, _ => .nan
  | _, .nan => .nan
  | a, b => if fvLt a b then b else if fvLt b a then a else if fvSign a then b else a

/-- Round to an integral value: 0 nearest even, 1 floor, 2 ceiling, 3 truncate (FRND). The sign of a zero result is the
sign of the operand. -/
def fvRound (mode : Nat) : Fv → Fv
  | .nan => .nan
  | .inf a => .inf a
  | .fin neg m e =>
    if 0 ≤ e then .fin neg m e
    else
      let k := (-e).toNat
      let q := m / 2 ^ k
      let rest := m % 2 ^ k ≠ 0
      let r := match mode with
        | 0 => roundShift m k
        | 1 => if neg && rest then q + 1 else q
        | 2 => if !neg && rest then q + 1 else q
        | _ => q
      .fin neg r 0

/-! ## The formats of Table 7.4 -/

/-- Is a format code one of Table 7.4. -/
def formatOk (f : Nat) : Bool := decide (f ≤ 6)

/-- Width of a format in bits. -/
def formatBits (f : Nat) : Nat :=
  match f with
  | 0 => 4 | 1 => 8 | 2 => 8 | 3 => 8 | 4 => 16 | _ => 32

/-- Is a format an integer one. -/
def formatInt (f : Nat) : Bool := f = 0 || f = 1 || f = 5

/-- The value of an integer. -/
def fvOfInt (v : Int) : Fv := .fin (decide (v < 0)) v.natAbs 0

/-- The value of a code of a format. -/
def formatVal (f c : Nat) : Fv :=
  match f with
  | 0 => fvOfInt (toInt 4 c)
  | 1 => fvOfInt (toInt 8 c)
  | 2 =>
    let x := c % 128
    if x = 127 then .nan else let p := unpackMag 3 7 x; .fin (decide (128 ≤ c % 256)) p.1 p.2
  | 3 =>
    let x := c % 128
    if 0x7C < x then .nan else if x = 0x7C then .inf (decide (128 ≤ c % 256))
    else let p := unpackMag 2 15 x; .fin (decide (128 ≤ c % 256)) p.1 p.2
  | 4 => f32Val (c % 65536 * 65536)
  | 5 => fvOfInt (toInt 32 c)
  | _ => f32Val c

/-- Mantissa bits, bias, largest finite magnitude bits and canonical NaN of a narrow floating format. -/
def formatShape (f : Nat) : Nat × Nat × Nat × Nat :=
  match f with
  | 2 => (3, 7, 0x7E, 0x7F)
  | 3 => (2, 15, 0x7B, 0x7E)
  | 4 => (7, 127, 0x7F7F, 0x7FC0)
  | _ => (23, 127, 0x7F7FFFFF, 0x7FC00000)

/-- Largest value of an integer format. -/
def intMax (f : Nat) : Nat :=
  match f with
  | 0 => 7 | 1 => 127 | _ => 2147483647

/-- Is |m · 2^e| above the number n · 2^k. -/
def magAbove (m : Nat) (e : Int) (n : Nat) (k : Int) : Bool :=
  let q := min e k
  decide (n * 2 ^ (k - q).toNat < m * 2 ^ (e - q).toNat)

/-- Convert an FP32 value to a format (R176): rounded to nearest with ties to even; a NaN is the canonical NaN, or 0 in an
integer format; what lies beyond the largest finite value becomes it, with its sign. Answers the code and whether the
value was saturated or a NaN made 0. FP32 is no narrower format: a value of FP32 keeps its bits, infinities too. A value below minus the
largest finite value becomes minus that value, also where Table 7.4 gives an integer format one code more on the negative side (-8, -128,
-2^31): R176 bounds the magnitude by the largest finite value, and which of the two holds there is the model's choice (DESIGN CHOICE,
log entry 24). -/
def convertTo (f : Nat) (v : Fv) : Nat × Bool :=
  if f = 6 then (f32Of v, false)
  else if formatInt f then
    let w := formatBits f
    match v with
    | .nan => (0, true)
    | .inf neg => (ofInt w (if neg then -(intMax f : Int) else intMax f), true)
    | .fin neg m e =>
      if magAbove m e (intMax f) 0 then (ofInt w (if neg then -(intMax f : Int) else intMax f), true)
      else
        let r := if 0 ≤ e then m * 2 ^ e.toNat else roundShift m (-e).toNat
        (ofInt w (if neg then -(r : Int) else r), false)
  else
    let (mb, bias, largest, qnan) := formatShape f
    let s := formatBits f
    match v with
    | .nan => (qnan, false)
    | .inf neg => (signBit neg s + largest, true)
    | .fin neg m e =>
      let big := unpackMag mb bias largest
      if magAbove m e big.1 big.2 then (signBit neg s + largest, true)
      else (signBit neg s + packMag mb bias m e, false)

/-- A code of one format as an FP32 word (CONVERT of Table 7.6): exact, but for INT32, which rounds. -/
def toF32 (f c : Nat) : Nat := if f = 6 then c % 2 ^ 32 else f32Of (formatVal f c)

/-! ## FP32 operations on words -/

/-- ra + rb. -/
def f32Add (a b : Nat) : Nat := f32Of (fvAdd (f32Val a) (f32Val b))

/-- ra × rb. -/
def f32Mul (a b : Nat) : Nat := f32Of (fvMul (f32Val a) (f32Val b))

/-- ra × rb + rc, rounded once. -/
def f32Fma (a b c : Nat) : Nat := f32Of (fvAdd (fvMul (f32Val a) (f32Val b)) (f32Val c))

/-- −ra. -/
def f32Neg (a : Nat) : Nat := Nat.xor (a % 2 ^ 32) (2 ^ 31)

end Sys2Proof.Machine
end

