-- ==== Sys2Proof/Machine/Operands.lean ====
section
/-!
DEFINITION. The operand forms of gang code (chapter 9): lanes and their virtual registers, register pairs and quads, FP32
source modifiers, memory spaces and addresses, and the encodings that activation refuses.
-/

namespace Sys2Proof.Machine

/-! ## Lanes and registers -/

/-- The lanes of a mask, ascending. -/
def lanesOf (mask : Nat) : List Nat := (List.range 32).filter (fun i => bit mask i)

/-- The mask of a list of lanes. -/
def maskOf (ls : List Nat) : Nat := ls.foldl setBit 0

/-- Lanes of both masks. -/
def maskAnd (a b : Nat) : Nat := maskOf ((lanesOf a).filter (fun i => bit b i))

/-- Lanes of the first mask that are not in the second. -/
def maskSub (a b : Nat) : Nat := maskOf ((lanesOf a).filter (fun i => !bit b i))

/-- The lowest lane of a mask. -/
def lowLane (mask : Nat) : Nat := (lanesOf mask).headD 0

/-- A virtual register of a lane; every register starts at 0 (R228). -/
def regAt (g : Gang) (lane r : Nat) : Word := tgetD g.regs (lane * 256 + r) 0

/-- Write a virtual register of a lane. -/
def regPut (g : Gang) (lane r : Nat) (v : Word) : Gang := { g with regs := tput g.regs (lane * 256 + r) v }

/-- Write the low 32 bits of a number. -/
def regPutNat (g : Gang) (lane r v : Nat) : Gang := regPut g lane r (BitVec.ofNat 32 v)

/-- A value of `n` consecutive registers, low part first. -/
def regsVal (g : Gang) (lane r n : Nat) : Nat :=
  ((List.range n).map (fun i => (regAt g lane (r + i)).toNat * 2 ^ (32 * i))).sum

/-- Write a value over `n` consecutive registers, low part first. -/
def regsPut (g : Gang) (lane r n v : Nat) : Gang :=
  (List.range n).foldl (fun g i => regPutNat g lane (r + i) (v / 2 ^ (32 * i))) g

/-- FP32 source modifiers (R232): absolute value first, then negation. -/
def srcMod (w : Word) (neg abs : Bool) : Nat :=
  let x := if abs then w.toNat % 2 ^ 31 else w.toNat
  if neg then f32Neg x else x

/-- The modified FP32 source ra: modifier bit 0 negates, bit 2 takes the absolute value. -/
def fpA (w : Word) (modifier : Nat) : Fv := f32Val (srcMod w (bit modifier 0) (bit modifier 2))

/-- The modified FP32 source rb: modifier bit 1 negates, bit 3 takes the absolute value. -/
def fpB (w : Word) (modifier : Nat) : Fv := f32Val (srcMod w (bit modifier 1) (bit modifier 3))

/-! ## Static checks (R231, R233) -/

/-- Are the register fields of an R-form word in range, and is no modifier bit set outside `mask`. -/
def rOk (r : RFields) (mask : Nat) : Bool :=
  decide (r.rd < 256) && decide (r.ra < 256) && decide (r.rb < 256) && decide (r.rc < 256) &&
  (List.range 8).all (fun i => !bit r.modifier i || bit mask i) && decide (r.modifier < 256)

/-- Registers that an access of a width code uses. -/
def widthRegs (w : Nat) : Nat := if w = 3 then 2 else if w = 4 then 4 else 1

/-- Bytes of a width code (Table 9.10). -/
def widthBytes (w : Nat) : Nat := 2 ^ w

/-- May register `r` hold an access of a width: pairs are even, quads a multiple of 4. -/
def regAligned (r w : Nat) : Bool := decide (r % widthRegs w = 0) && decide (r + widthRegs w ≤ 256)

/-- Is a memory space code defined (Table 9.11). -/
def spaceOk (sp : Nat) : Bool := decide (sp ≤ 2) || (decide (4 ≤ sp) && decide (sp ≤ 11))

/-- Is the address register of a space in range: the DRAM spaces use a pair. -/
def addrRegOk (ra sp : Nat) : Bool := if 4 ≤ sp then decide (ra < 255) else decide (ra < 256)

/-- Is an LD well formed. -/
def ldOk (m : MemFields) : Bool :=
  spaceOk m.space && addrRegOk m.ra m.space && decide (m.width ≤ 4) && regAligned m.rd m.width &&
  (!m.sx || decide (m.width < 2)) && decide (m.order < 8) && decide (-524288 ≤ m.offset) && decide (m.offset < 524288)

/-- Is an ST well formed. -/
def stOk (m : MemFields) : Bool :=
  spaceOk m.space && addrRegOk m.ra m.space && decide (m.width ≤ 4) && regAligned m.rb m.width &&
  !m.sx && decide (m.order < 8) && decide (-524288 ≤ m.offset) && decide (m.offset < 524288)

/-- Is an ATOM well formed. -/
def atomOk (m : MemFields) (op : Nat) : Bool :=
  spaceOk m.space && m.space ≠ 2 && addrRegOk m.ra m.space && (m.width = 2 || m.width = 3) && regAligned m.rd m.width &&
  regAligned m.rb m.width && !m.sx && decide (m.order < 8) && decide (op ≤ 8) &&
  decide (-32768 ≤ m.offset) && decide (m.offset < 32768)

/-- Is a CAS well formed: width 4 uses rb and rb + 1, width 8 uses rb to rb + 3. -/
def casOk (m : MemFields) : Bool :=
  spaceOk m.space && m.space ≠ 2 && addrRegOk m.ra m.space && (m.width = 2 || m.width = 3) && regAligned m.rd m.width &&
  decide (m.rb + 2 * widthRegs m.width ≤ 256) && (m.width = 2 || m.rb % 2 = 0) &&
  !m.sx && decide (m.order < 8) && decide (-524288 ≤ m.offset) && decide (m.offset < 524288)

/-! ## Addresses -/

/-- The address that a lane names in a space (Table 9.11). -/
def laneAddr (g : Gang) (lane : Nat) (m : MemFields) : Int :=
  let lo := ((regAt g lane m.ra).toNat : Int)
  let hi : Int := if 4 ≤ m.space then (((regAt g lane (m.ra + 1)).toNat % 256 : Nat) : Int) * 2 ^ 32 else 0
  hi + lo + m.offset

end Sys2Proof.Machine
end

