-- ==== Sys2Proof/Machine/Flags.lean ====
section
/-!
DEFINITION. What gang code computes about a value instead of from it: the conditions of ICMP and FCMP, the class mask of
FCLASS, minimum and maximum, and the vote of a gang. The block has no processor flags; its status bits are fields of State.
-/

namespace Sys2Proof.Machine

/-- Condition codes (ICMP): EQ, NE, LT, LE, GT, GE. Answers whether the condition holds of a comparison. -/
def condHolds (code : Nat) (lt eq : Bool) : Bool :=
  match code with
  | 0 => eq
  | 1 => !eq
  | 2 => lt
  | 3 => lt || eq
  | 4 => !(lt || eq)
  | _ => !lt

/-- ICMP: modifier [2:0] the condition, [3] signed. -/
def icmpHolds (modifier : Nat) (a b : Word) : Bool :=
  let lt := if bit modifier 3 then decide (a.toInt < b.toInt) else decide (a.toNat < b.toNat)
  condHolds (modifier % 8) lt (a = b)

/-- FCMP: any comparison with NaN is false except NE. -/
def fcmpHolds (code : Nat) (a b : Fv) : Bool :=
  if a = .nan ∨ b = .nan then code = 1 else condHolds code (fvLt a b) (fvEq a b)

/-- FCLASS: the mask of the one class that a value belongs to. -/
def fclassMask (w : Nat) : Nat :=
  let neg := decide (2 ^ 31 ≤ w % 2 ^ 32)
  let x := w % 2 ^ 31
  if 0x7F800000 < x then 256
  else if x = 0x7F800000 then (if neg then 1 else 128)
  else if x = 0 then (if neg then 8 else 16)
  else if x < 0x800000 then (if neg then 4 else 32)
  else (if neg then 2 else 64)

/-- IMIN and IMAX: does `a` come before `b`. -/
def intBefore (signed : Bool) (a b : Word) : Bool :=
  if signed then decide (a.toInt ≤ b.toInt) else decide (a.toNat ≤ b.toNat)

/-- VOTE: 0 all, 1 any, 2 ballot mask, over the active lanes. -/
def voteVal (mode mask : Nat) (set : Nat → Bool) : Nat :=
  let ls := lanesOf mask
  match mode with
  | 0 => if ls.all set then 1 else 0
  | 1 => if ls.any set then 1 else 0
  | _ => maskOf (ls.filter set)

end Sys2Proof.Machine
end

