-- ==== Sys2Proof/Machine/GangOps.lean ====
section
/-!
DEFINITION. How a resident gang issues one instruction (chapter 8): which lanes issue in CONVERGE and in PROGRESS mode,
reconvergence, gang faults, progress, barriers and the exit of lanes.
-/

namespace Sys2Proof.Machine

/-! ## Places -/

/-- Wright core of a unit number. -/
def coreOf (s : State) (unit : Nat) : Core := tgetD s.compute.cores (unit - 24) ⟨[], [], []⟩

/-- Change the core of a unit number. -/
def coreMod (s : State) (unit : Nat) (f : Core → Core) : State :=
  { s with compute := { s.compute with cores := tmod s.compute.cores (unit - 24) ⟨[], [], []⟩ f } }

/-- The gang in a slot. -/
def gangAt (s : State) (ref : GangRef) : Option Gang :=
  if 24 ≤ ref.unit ∧ ref.unit ≤ 71 then tget (coreOf s ref.unit).gangs ref.slot else none

/-- Put a gang into its slot. -/
def gangPut (s : State) (ref : GangRef) (g : Gang) : State :=
  coreMod s ref.unit (fun c => { c with gangs := tput c.gangs ref.slot g })

/-- Program counter of a lane. -/
def lanePc (g : Gang) (lane : Nat) : Nat := tgetD g.pcs lane 0

/-- Set the program counters of some lanes. -/
def jumpLanes (g : Gang) (lanes : List Nat) (pc : Nat) : Gang :=
  { g with pcs := lanes.foldl (fun t i => tput t i pc) g.pcs }

/-- Some lanes go on to their next instruction. -/
def advance (g : Gang) (lanes : List Nat) : Gang :=
  { g with pcs := lanes.foldl (fun t i => tput t i (tgetD t i 0 + 1)) g.pcs }

/-! ## Which lanes issue -/

/-- Reconvergence in CONVERGE mode (R198): when the running lanes have reached the point of the top entry, the lanes that
wait run; when they have reached it too, the union goes on. Lanes that have exited count as arrived. -/
def settle (g : Gang) : Nat → Gang
  | 0 => g
  | n + 1 =>
    match g.stack with
    | [] => g
    | d :: rest =>
      if (lanesOf (maskAnd g.active g.live)).all (fun i => lanePc g i = d.point) then
        if maskAnd d.pendMask g.live ≠ 0 then
          settle { g with active := d.pendMask, stack := { d with pendMask := 0 } :: rest } n
        else settle { g with active := d.union, stack := rest } n
      else g

/-- The lanes that issue in CONVERGE mode: the live lanes of the active mask. A gang with a blocked lane does not issue. -/
def chooseConverge (g : Gang) : Option (Gang × Nat) :=
  if g.blocked ≠ [] then none
  else
    let g := settle g (2 * g.stack.length + 2)
    let mask := maskAnd g.active g.live
    if mask = 0 then none else some (g, mask)

/-- Lanes that are live and not blocked. -/
def readyLanes (g : Gang) : List Nat := (lanesOf g.live).filter (fun i => (tget g.blocked i).isNone)

/-- Divergence history of a lane (R199): the divergences that it has not come back from. It comes back from one at its reconvergence
point, and from all inside it. -/
def splitsOf (g : Gang) (lane : Nat) : List Split :=
  let h := tgetD g.splits lane []
  match h.findIdx? (fun x => x.point = lanePc g lane) with
  | some n => h.drop (n + 1)
  | none => h

/-- Are two lanes in one splinter (R199): at the same counter with the same divergence history. -/
def sameSplinter (g : Gang) (i j : Nat) : Bool := lanePc g i = lanePc g j && splitsOf g i = splitsOf g j

/-- The ready splinters of a gang, each by its lowest lane. -/
def splinters (g : Gang) : List Nat :=
  let ready := readyLanes g
  ready.filter (fun i => !ready.any (fun j => decide (j < i) && sameSplinter g j i))

/-- Issue slots for which the lanes of a splinter have waited at most. -/
def splinterWait (g : Gang) (i : Nat) : Nat :=
  ((readyLanes g).filter (sameSplinter g i)).foldl (fun a j => max a (tgetD g.waited j 0)) 0

/-- May splinter `i` have the next 8 slots with every other one still served in time (R200): the others, longest wait first, could each
be given 8 slots after it and none of them wait for 256. -/
def servesAll (g : Gang) (i : Nat) : Bool :=
  let waits := (sortBy (fun (a b : Nat) => decide (b ≤ a)) (((splinters g).filter (· ≠ i)).map (splinterWait g))).zipIdx
  waits.all (fun w => decide (w.1 + 8 * (w.2 + 1) ≤ 255))

/-- The splinter whose turn comes next (R199, R200): in ascending order of program counter and wrapping, but the one that has waited
longest where the bound of R200 would else be broken. Splinters at one counter follow each other by their lowest lane. -/
def nextSplinter (g : Gang) : Option Nat :=
  let key (i : Nat) : Nat := lanePc g i * 32 + i
  let here := key g.current
  let order := sortBy (fun (a b : Nat) => decide (key a ≤ key b)) ((splinters g).filter (fun i => !sameSplinter g i g.current))
  let turn := (order.filter (fun i => decide (here < key i)) ++ order.filter (fun i => decide (key i ≤ here))
    ++ (splinters g).filter (fun i => sameSplinter g i g.current)).head?
  match turn with
  | none => none
  | some i => if servesAll g i then some i
      else (sortBy (fun (a b : Nat) => decide (splinterWait g b ≤ splinterWait g a)) (splinters g)).head?

/-- The lanes that issue in PROGRESS mode (R199): the current splinter for at most 8 consecutive slots, then the one whose turn comes
next. Ready lanes of one splinter issue together. -/
def chooseProgress (g : Gang) : Option (Gang × Nat) :=
  let ready := readyLanes g
  let stay := ready.contains g.current && decide (g.slotsUsed < 8)
  match (if stay then some g.current else nextSplinter g) with
  | none => none
  | some i =>
    let lanes := ready.filter (sameSplinter g i)
    let mask := maskOf lanes
    some ({ g with
      current := lowLane mask
      slotsUsed := if stay then g.slotsUsed + 1 else 1
      splits := lanes.foldl (fun t j => tput t j (splitsOf g j)) g.splits
      waited := (lanesOf g.live).foldl (fun t j =>
        tput t j (if ready.contains j && !lanes.contains j then tgetD g.waited j 0 + 1 else 0)) g.waited }, mask)

/-- Instructions of a program, as its manifest states (Table 9.4). -/
def instrCount (s : State) (prog : Nat) : Nat := manifestField (programOf s prog) 56 4

/-- The gang, its invocation and its issuing lanes, where the gang can issue: the drive runs its units, the gang has not
faulted, and a lane is ready. -/
def issuing (s : State) (ref : GangRef) : Option (Invocation × Gang × Nat) :=
  if stopped s || s.dev.state = .paused || s.dev.state = .boot || s.dev.state = .fault then none
  else match gangAt s ref with
    | none => none
    | some g =>
      if g.fault.isSome then none
      else match tget s.compute.invs g.inv with
        | none => none
        | some v =>
          (if progressMode s v.program then chooseProgress g else chooseConverge g).map (fun p => (v, p.1, p.2))

/-! ## Faults, progress and the end of an issue -/

/-- A gang fault is detected (R208): the gang keeps what it holds and issues no more. -/
def faultWith (s : State) (ref : GangRef) (g : Gang) (f : GangFault) : State :=
  let n := s.compute.faultNo
  gangPut { s with compute := { s.compute with faultNo := n + 1 } } ref
    { g with fault := some f, faultNo := n, faultChime := chimeNow s }

/-- A gang fault of a code, with its lanes, address and detail. -/
def faultGang (s : State) (ref : GangRef) (g : Gang) (code lanes addr detail : Nat) : State :=
  faultWith s ref g ⟨code, lanes, addr, detail⟩

/-- A progress event (Table 8.4). -/
def progressed (g : Gang) : Gang := { g with quiet := 0, quietFresh := true }

/-- Issue one instruction of a gang: `act` on the invocation, the gang and the issuing lanes. A word that activation would
have refused (`ok` false) is no instruction of a gang. Lanes past the last instruction fault with ILLEGAL (R231). -/
def gangStep (s : State) (ref : GangRef) (ok : Bool) (act : State → Invocation → Gang → Nat → State) : State :=
  if !ok then s else
  match issuing s ref with
  | none => s
  | some (v, g, mask) =>
    if instrCount s v.program ≤ lanePc g (lowLane mask) then faultGang s ref g 0x0B mask 0 0
    else act (count s (0x6100 + ref.unit) 6 1) v g mask

/-- An instruction that writes `f lane` to register rd of every issuing lane and nothing else. -/
def gangWrite (s : State) (ref : GangRef) (ok : Bool) (rd : Nat) (f : Invocation → Gang → Nat → Nat → Word) : State :=
  gangStep s ref ok (fun s v g mask =>
    let lanes := lanesOf mask
    gangPut s ref (advance (lanes.foldl (fun h i => regPut h i rd (f v g mask i)) g) lanes))

/-- An R-form instruction whose result is a function of the lane's ra, rb and rc. -/
def gangAlu (s : State) (ref : GangRef) (r : RFields) (mask : Nat) (extra : Bool) (f : Word → Word → Word → Word) : State :=
  gangWrite s ref (rOk r mask && extra) r.rd (fun _ g _ i => f (regAt g i r.ra) (regAt g i r.rb) (regAt g i r.rc))

/-! ## Barriers -/

/-- The gangs of an invocation on the cores: unit, slot, gang. -/
def gangsOf (s : State) (inv : Nat) : List (Nat × Nat × Gang) :=
  s.compute.cores.flatMap (fun c => (c.2.gangs.filter (fun g => g.2.inv = inv)).map (fun g => (c.1 + 24, g.1, g.2)))

/-- Has a gang arrived: all its live lanes have. -/
def gangArrived (b : Barrier) (g : Gang) : Bool := (lanesOf g.live).all (fun i => b.arrived.contains (g.index, i))

/-- Is a barrier complete (R202): every participant that is still there has arrived. At KERNEL scope gangs that are not
yet placed take part too. -/
def barrierComplete (s : State) (v : Invocation) (inv : Nat) (b : Barrier) : Bool :=
  let gs := gangsOf s inv
  match b.scope with
  | 0 => gs.all (fun x => x.2.2.index ≠ b.gang ||
      (lanesOf x.2.2.live).all (fun i => !b.members.contains i || b.arrived.contains (x.2.2.index, i)))
  | 1 => gs.all (fun x => x.1 ≠ b.core || !b.members.contains x.2.2.index || gangArrived b x.2.2)
  | _ => decide (v.nextGang = v.gangs) && gs.all (fun x => gangArrived b x.2.2)

/-- Is a lane's block one at this barrier. -/
def waitsAt (b : Barrier) (x : Blocked) : Bool := x.kind = 1 && x.ra = b.scope && x.rb = b.ident

/-- Is a gang one that this barrier may hold. -/
def barrierHolds (b : Barrier) (unit : Nat) (g : Gang) : Bool :=
  match b.scope with
  | 0 => g.index = b.gang
  | 1 => unit = b.core
  | _ => true

/-- Let the lanes of a gang past a completed barrier. -/
def passBarrier (b : Barrier) (g : Gang) : Gang :=
  let hit := (g.blocked.filter (fun p => waitsAt b p.2)).map (fun p => p.1)
  advance { g with blocked := g.blocked.filter (fun p => !waitsAt b p.2) } hit

/-- A barrier completes: every lane that waits at it goes on. -/
def releaseBarrier (s : State) (inv : Nat) (b : Barrier) : State :=
  let s := { s with compute := { s.compute with cores := s.compute.cores.map (fun c =>
      (c.1, { c.2 with gangs := c.2.gangs.map (fun g =>
        if g.2.inv = inv && barrierHolds b (c.1 + 24) g.2 then (g.1, passBarrier b g.2) else g) })) } }
  invMod s inv (fun v => { v with barriers := v.barriers.filter (fun x => x ≠ b) })

/-- Complete every barrier of an invocation that is satisfied. -/
def checkBarriers (s : State) (inv : Nat) : State :=
  match tget s.compute.invs inv with
  | none => s
  | some v => (v.barriers.filter (barrierComplete s v inv)).foldl (fun s b => releaseBarrier s inv b) s

/-- The barrier that an arrival belongs to: scope, identifier, and the core and gang that the scope needs. -/
def sameBarrier (scope ident unit index : Nat) (b : Barrier) : Bool :=
  b.scope = scope && b.ident = ident && (scope ≠ 0 || b.gang = index) && (scope ≠ 1 || b.core = unit)

/-- Who takes part in a barrier, as counted at its first arrival (Table 8.5). -/
def barrierMembers (s : State) (scope unit : Nat) (g : Gang) : List Nat :=
  match scope with
  | 0 => lanesOf g.live
  | 1 => ((gangsOf s g.inv).filter (fun x => x.1 = unit)).map (fun x => x.2.2.index)
  | _ => []

/-- Lanes arrive at a barrier and are blocked (R202); the arrival is progress. -/
def arriveBarrier (s : State) (ref : GangRef) (g : Gang) (lanes : List Nat) (scope ident : Nat) : State :=
  let members := barrierMembers s scope ref.unit g
  let g := progressed { g with blocked := lanes.foldl (fun t i => tput t i ⟨1, 0, scope, ident, 0⟩) g.blocked }
  let mine := lanes.map (fun i => (g.index, i))
  let s := invMod (gangPut s ref g) g.inv (fun v =>
    { v with barriers :=
        if v.barriers.any (sameBarrier scope ident ref.unit g.index) then
          v.barriers.map (fun b => if sameBarrier scope ident ref.unit g.index b then { b with arrived := b.arrived ++ mine } else b)
        else v.barriers ++ [⟨scope, ident, if scope = 1 then ref.unit else 0, if scope = 0 then g.index else 0, members, mine,
          s.bell.ticks⟩] })
  checkBarriers s g.inv

/-! ## The exit of lanes -/

/-- Lanes exit with their values (R228): the invocation gathers the values, the barriers no longer count the lanes, and a
gang with no live lane leaves its slot (R191). -/
def exitLanes (s : State) (ref : GangRef) (g : Gang) (mask : Nat) (value : Nat → Nat) : State :=
  let lanes := lanesOf mask
  let g := progressed { g with live := maskSub g.live mask }
  let s := if g.live = 0 then coreMod s ref.unit (fun c => { c with gangs := tdel c.gangs ref.slot }) else gangPut s ref g
  let s := invMod s g.inv (fun v => { v with
    exitOr := lanes.foldl (fun a i => Nat.lor a (value i)) v.exitOr
    exitCount := v.exitCount + (lanes.filter (fun i => value i ≠ 0)).length
    gangsDone := if g.live = 0 then v.gangsDone + 1 else v.gangsDone
    exited := if g.live = 0 && decide (v.gangs ≤ v.gangsDone + 1) then some (s.bell.count, s.bell.ticks) else v.exited })
  checkBarriers s g.inv

end Sys2Proof.Machine
end

