-- ==== Sys2Proof/Machine/GangMem.lean ====
section
/-!
DEFINITION. Loads, stores, atomics and fences of gang code (R196, R197, R203, R204, R233): memory spaces, alignment and
bounds, local memory replays.
-/

namespace Sys2Proof.Machine

open Host (Outcome)

/-! ## Spaces -/

/-- The local-memory partition of a program on a core, in bytes. -/
def partBytes (s : State) (unit prog : Nat) : Nat := tgetD (coreOf s unit).parts prog 0

/-- The memory ranges of an invocation (R230): (start, length) by slot. -/
def rangesOf (s : State) (v : Invocation) : List (Nat × Nat) := if v.rsid = 0 then [] else tgetD s.compute.rangeSets v.rsid []

/-- Size of a space for an invocation on a core (Table 9.11). -/
def spaceSize (s : State) (unit : Nat) (v : Invocation) (space : Nat) : Nat :=
  match space with
  | 0 => partBytes s unit v.program
  | 1 => v.windowSize
  | 2 => ((sectionOf (programOf s v.program).pkg 5).map (fun x => x.2)).getD 0
  | n => (((rangesOf s v)[n - 4]?).map (fun x => x.2)).getD 0

/-- Read `n` bytes of a space, least significant byte first. -/
def spaceRead (s : State) (unit : Nat) (v : Invocation) (space addr n : Nat) : Nat :=
  match space with
  | 0 => leNat (mread (tgetD (coreOf s unit).localMem v.program []) addr n)
  | 1 => leNat (mread v.window addr n)
  | 2 => leNat (mread (programOf s v.program).pkg (((sectionOf (programOf s v.program).pkg 5).map (fun x => x.1)).getD 0 + addr) n)
  | k => leNat (mread s.compute.slm ((((rangesOf s v)[k - 4]?).map (fun x => x.1)).getD 0 + addr) n)

/-- Write `n` bytes of a space. SCALE is read only. -/
def spaceWrite (s : State) (unit : Nat) (inv : Nat) (v : Invocation) (space addr n value : Nat) : State :=
  match space with
  | 0 => coreMod s unit (fun c => { c with localMem := tmod c.localMem v.program [] (fun m => mwrite m addr (leBytes n value)) })
  | 1 => invMod s inv (fun v => { v with window := mwrite v.window addr (leBytes n value) })
  | 2 => s
  | k => { s with compute := { s.compute with
      slm := mwrite s.compute.slm ((((rangesOf s v)[k - 4]?).map (fun x => x.1)).getD 0 + addr) (leBytes n value) } }

/-! ## Access checks -/

/-- Is a lane's address aligned to the access (R204). -/
def alignedAt (a : Int) (w : Nat) : Bool := decide (a % (widthBytes w : Int) = 0)

/-- Does a lane's access lie in its space. -/
def insideSpace (size : Nat) (a : Int) (w : Nat) : Bool := decide (0 ≤ a) && decide (a + widthBytes w ≤ size)

/-- What an access faults with, if anything (Table 8.6): MISALIGNED before the bounds; the lanes that fault, the address of
the lowest one, the detail. A store to SCALE faults with RANGE (R217). -/
def accessFault (s : State) (unit : Nat) (v : Invocation) (g : Gang) (mask : Nat) (m : MemFields) (store : Bool) :
    Option GangFault :=
  let lanes := lanesOf mask
  let odd := lanes.filter (fun i => !alignedAt (laneAddr g i m) m.width)
  let size := spaceSize s unit v m.space
  let out := lanes.filter (fun i => !insideSpace size (laneAddr g i m) m.width || (store && m.space = 2))
  let addrOf (ls : List Nat) : Nat := ofInt 64 (laneAddr g (ls.headD 0) m)
  if odd ≠ [] then some ⟨0x07, maskOf odd, addrOf odd, widthBytes m.width⟩
  else if out ≠ [] then
    if m.space = 0 then some ⟨0x05, maskOf out, addrOf out, size⟩ else some ⟨0x06, maskOf out, addrOf out, v.rsid⟩
  else none

/-- Cycles that a local access takes beyond its first (R197): the most distinct words of a load, or accesses of a store or
atomic, in one of the 32 banks, less 1. -/
def replays (g : Gang) (mask : Nat) (m : MemFields) (load : Bool) : Nat :=
  let words := (lanesOf mask).flatMap (fun i =>
    let w := (laneAddr g i m).toNat / 4
    (List.range (max 1 (widthBytes m.width / 4))).map (fun k => w + k))
  let words := if load then words.dedup else words
  (((List.range 32).map (fun b => (words.filter (fun w => w % 32 = b)).length)).max?).getD 1 - 1

/-- A memory access of the issuing lanes: the static check, the faults (an access that faults has no effect in any lane),
the replay count of local memory, then `act`. -/
def gangAccess (s : State) (ref : GangRef) (ok : Bool) (m : MemFields) (store load : Bool)
    (act : State → Invocation → Gang → List Nat → State × Gang) : State :=
  gangStep s ref ok (fun s v g mask =>
    match accessFault s ref.unit v g mask m store with
    | some f => faultWith s ref g f
    | none =>
      let s := if m.space = 0 then count s (0x6100 + ref.unit) 7 (replays g mask m load) else s
      let p := act s v g (lanesOf mask)
      gangPut p.1 ref (advance p.2 (lanesOf mask)))

/-- The invocation as it stands now. -/
def invNow (s : State) (g : Gang) (v : Invocation) : Invocation := (tget s.compute.invs g.inv).getD v

/-! ## Atomics -/

/-- The new value of an atomic operation on `n` bits (R233). -/
def atomicOp (op n old x : Nat) : Nat :=
  match op with
  | 0 => (old + x) % 2 ^ n
  | 1 => if toInt n old ≤ toInt n x then old else x
  | 2 => if toInt n old ≤ toInt n x then x else old
  | 3 => if old ≤ x then old else x
  | 4 => if old ≤ x then x else old
  | 5 => Nat.land old x
  | 6 => Nat.lor old x
  | 7 => Nat.xor old x
  | _ => x

/-- One read-modify-write after another in ascending lane order (R203): `f lane old` is the new value, if one is written.
The gang that results holds the old values in rd, and its stall count starts again where memory changed (Table 8.4). -/
def atomicLanes (ref : GangRef) (m : MemFields) (src : Gang) (f : Nat → Nat → Option Nat) (p : State × Gang) (v : Invocation) :
    List Nat → State × Gang
  | [] => p
  | i :: rest =>
    let n := widthBytes m.width
    let a := (laneAddr src i m).toNat
    let old := spaceRead p.1 ref.unit (invNow p.1 src v) m.space a n
    let g := regsPut p.2 i m.rd (widthRegs m.width) old
    let q := match f i old with
      | some new => (spaceWrite p.1 ref.unit src.inv v m.space a n new, if new ≠ old then progressed g else g)
      | none => (p.1, g)
    atomicLanes ref m src f q v rest

/-! ## The commands -/

/-- The value that a load gives: zero-extended, or sign-extended where SX is 1 (R233). -/
def loadValue (m : MemFields) (x : Nat) : Nat := if m.sx then ofInt 32 (toInt (8 * widthBytes m.width) x) else x

/-- LD: rd (pair, quad) = memory. -/
def execLd (g : GangRef) (m : MemFields) (s : State) : Outcome State Fault Refusal :=
  .next (gangAccess s g (ldOk m) m false true (fun s v h lanes =>
    (s, lanes.foldl (fun k i => regsPut k i m.rd (widthRegs m.width)
      (loadValue m (spaceRead s g.unit v m.space (laneAddr h i m).toNat (widthBytes m.width)))) h)))

/-- ST: memory = rb (pair, quad); lanes store in ascending order. -/
def execSt (g : GangRef) (m : MemFields) (s : State) : Outcome State Fault Refusal :=
  .next (gangAccess s g (stOk m) m true false (fun s v h lanes =>
    (lanes.foldl (fun s i => spaceWrite s g.unit h.inv v m.space (laneAddr h i m).toNat (widthBytes m.width)
      (regsVal h i m.rb (widthRegs m.width))) s, progressed h)))

/-- ATOM: rd = old value; memory = old op rb. -/
def execAtom (g : GangRef) (m : MemFields) (op : Nat) (s : State) : Outcome State Fault Refusal :=
  .next (gangAccess s g (atomOk m op) m true false (fun s v h lanes =>
    atomicLanes g m h (fun i old => some (atomicOp op (8 * widthBytes m.width) old (regsVal h i m.rb (widthRegs m.width))))
      (s, h) v lanes))

/-- CAS: where memory holds the expected value, it takes the new one; rd = old value. -/
def execCas (g : GangRef) (m : MemFields) (s : State) : Outcome State Fault Refusal :=
  .next (gangAccess s g (casOk m) m true false (fun s v h lanes =>
    let k := widthRegs m.width
    let p := atomicLanes g m h (fun i old =>
      if old = regsVal h i m.rb k then some (regsVal h i (m.rb + k) k) else none) (s, h) v lanes
    p))

/-- FENCE of a scope (R204): CORE or KERNEL. Instructions of this model take effect in the order in which they issue, so
a fence orders nothing further. -/
def execFence (g : GangRef) (scope : Nat) (s : State) : Outcome State Fault Refusal :=
  .next (gangStep s g (scope = 1 || scope = 2) (fun s _ h mask => gangPut s g (advance h (lanesOf mask))))

end Sys2Proof.Machine
end

