-- ==== Sys2Proof/Machine/LoomOps.lean ====
section
/-!
DEFINITION. Operations of the looms and fullers (chapter 7) and of the STATE stage (R238, R239): operand pairs and cycle
counts, accumulation, the fuller stages, gate tables, plan entries, and where a plan step runs.
-/

namespace Sys2Proof.Machine

/-! ## Pairs and cycles -/

/-- c_K of an operand pair of Table 7.5, none where the pair is not in it (R172, R174). -/
def cK (west north k : Nat) : Option Nat :=
  if (west = 1 ∧ north = 1) ∨ (west = 1 ∧ north = 0) ∨ (west = 0 ∧ north = 1) then some k
  else if west = 0 ∧ north = 0 then some (ceilDiv k 2)
  else if (west = 2 ∨ west = 3) ∧ (north = 2 ∨ north = 3) then some k
  else if west = 4 ∧ north = 4 then some (4 * k)
  else none

/-- Does a pair accumulate in INT32. -/
def intPair (west : Nat) : Bool := west = 0 || west = 1

/-- Core cycles of one chime at the period and clock in force. -/
def chimeCycles (s : State) : Nat := chimeNs s * clockMHz s / 1000

/-- The step cap in core cycles (OD 0x2402). -/
def stepCap (s : State) : Nat := odVal s 0x2402 0 * chimeCycles s

/-- Bytes of `n` elements of a format; two INT4 elements share a byte. -/
def elemBytes (fmt n : Nat) : Nat := ceilDiv (n * formatBits fmt) 8

/-! ## Elements -/

/-- Element `i` of a packed array, by its bytes: element 2n of INT4 lies in bits [3:0] of byte n (Table 7.4). -/
def elemAt (byte : Nat → Nat) (fmt i : Nat) : Nat :=
  match formatBits fmt with
  | 4 => if i % 2 = 0 then byte (i / 2) % 16 else byte (i / 2) / 16 % 16
  | 8 => byte i
  | 16 => byte (2 * i) + 256 * byte (2 * i + 1)
  | _ => byte (4 * i) + 256 * byte (4 * i + 1) + 65536 * byte (4 * i + 2) + 16777216 * byte (4 * i + 3)

/-- Pack a row of codes into bytes. -/
def packCodes (fmt : Nat) (codes : List Nat) : Bytes :=
  match formatBits fmt with
  | 4 => (List.range (ceilDiv codes.length 2)).map (fun i => codes.getD (2 * i) 0 % 16 + 16 * (codes.getD (2 * i + 1) 0 % 16))
  | b => codes.flatMap (leBytes (b / 8))

/-- The signed integer of a code of an integer format. -/
def elemInt (fmt c : Nat) : Int := toInt (formatBits fmt) c

/-! ## Accumulation (R175) -/

/-- One addition of an INT32 accumulator: saturating. -/
def satAdd (a b : Int) : Int := max (-2147483648) (min 2147483647 (a + b))

/-- One accumulator, in ascending order of k: INT32 as its 32-bit pattern, or an FP32 word. -/
def accumulate (west north : Nat) (a b : Nat → Nat) (k : Nat) : Nat :=
  if intPair west then
    ofInt 32 ((List.range k).foldl (fun acc i => satAdd acc (elemInt west (a i) * elemInt north (b i))) 0)
  else
    (List.range k).foldl (fun acc i =>
      f32Of (fvAdd (f32Val acc) (fvMul (formatVal west (a i)) (formatVal north (b i))))) 0

/-! ## Gates (R180) -/

/-- Segments of a gate table. -/
def gateS (t : Bytes) : Nat := fieldAt t 16 2

/-- Is a gate table well formed for a kind of S segments (R216): S, mode and reserved bytes. -/
def gateOk (t : Bytes) (n : Nat) : Bool :=
  gateS t = n && decide (fieldAt t 18 1 ≤ 1) && fieldAt t 19 13 = 0

/-- Is an FP32 word infinite. -/
def isInf (x : Nat) : Bool := x % 2 ^ 31 = 0x7F800000

/-- pwl(t, x) of R180. -/
def pwl (t : Bytes) (x : Nat) : Nat :=
  if f32Val x = .nan then f32Nan
  else
    let u := f32Val (f32Mul (f32Add x (f32Neg (fieldAt t 0 4))) (fieldAt t 4 4))
    let n := gateS t
    let below := fvLt u (fvOfInt 0)
    let outside := isInf x || below || fvLt (fvOfInt n) u || fvEq u (fvOfInt n)
    if outside && (fieldAt t 18 1 = 0 || isInf x) then
      (if below || x % 2 ^ 32 = 0xFF800000 then fieldAt t 8 4 else fieldAt t 12 4)
    else
      let i := match fvRound 1 u with
        | .fin neg m e => if neg then 0 else min (n - 1) (if 0 ≤ e then m * 2 ^ e.toNat else m / 2 ^ (-e).toNat)
        | .inf neg => if neg then 0 else n - 1
        | .nan => 0
      f32Fma (fieldAt t (32 + 8 * i) 4) x (fieldAt t (36 + 8 * i) 4)

/-! ## The STATE stage (R238) -/

/-- Coefficient or history word of a channel record. -/
def coefOf (c : Channel) (i : Nat) : Nat := c.coef.getD i 0

/-- History word of a channel record. -/
def histOf (c : Channel) (i : Nat) : Nat := c.hist.getD i 0

/-- Write a history word. -/
def histPut (c : Channel) (i v : Nat) : Channel := { c with hist := c.hist.set i v }

/-- state_update(x) on a record: the output and the record after it. -/
def stateUpdate (c : Channel) (x : Nat) : Nat × Channel :=
  match c.kind with
  | 0 => (x, histPut c 0 x)
  | 1 =>
    let u := f32Add (histOf c 0) (f32Neg x)
    let y := f32Fma (coefOf c 0) u x
    (y, histPut c 0 y)
  | 2 =>
    let t := f32Mul (coefOf c 2) (histOf c 0)
    let t := f32Fma (coefOf c 1) (histOf c 1) (f32Neg t)
    let y := f32Fma (coefOf c 0) x t
    (y, histPut (histPut c 1 x) 0 y)
  | _ =>
    let acc := (List.range (c.taps - 1)).foldl (fun a j =>
      let i := c.taps - 1 - j
      f32Fma (coefOf c i) (histOf c (i - 1)) a) 0
    let y := f32Fma (coefOf c 0) x acc
    let h := (List.range (c.taps - 2)).foldl (fun h j =>
      let k := c.taps - 2 - j
      histPut h k (histOf h (k - 1))) c
    (y, if 2 ≤ c.taps then histPut h 0 x else h)

/-! ## The fuller (R177) -/

/-- What the fuller does to the rows of one step: whether the accumulators are INT32, scale and bias by column, the residual
FP32 word by row and column, the FUSED table, the channel base of a STATE step, q and the output format. -/
structure Fuller where
  ints : Bool
  rescale : Nat → Option (Nat × Nat)
  residual : Nat → Nat → Option Nat
  gate : Option Bytes
  state : Option Nat
  bypass : Bool
  q : Nat
  outFmt : Nat

/-- QUANTIZE: convert(x × q, output format), and whether it was saturated or a NaN made 0. -/
def quantize (outFmt q x : Nat) : Nat × Bool := convertTo outFmt (f32Val (f32Mul x q))

/-- One lane of the fuller: the output code, whether it counts as saturated, and the channel records after it. -/
def fullerLane (f : Fuller) (chs : List Channel) (row col acc : Nat) : Nat × Bool × List Channel :=
  if f.bypass then (acc, false, chs)
  else
    let x := if f.ints then toF32 5 acc else acc
    let x := match f.rescale col with
      | some p => f32Fma x p.1 p.2
      | none => x
    let x := match f.residual row col with
      | some r => f32Add x r
      | none => x
    let x := match f.gate with
      | some t => pwl t x
      | none => x
    match f.state with
    | some base =>
      match chs[base + col]? with
      | some c =>
        let p := stateUpdate c x
        let y := quantize f.outFmt f.q p.1
        (y.1, y.2, chs.set (base + col) p.2)
      | none => let y := quantize f.outFmt f.q x; (y.1, y.2, chs)
    | none => let y := quantize f.outFmt f.q x; (y.1, y.2, chs)

/-- One row of lanes, column by column. -/
def fullerRow (f : Fuller) (chs : List Channel) (row : Nat) (accs : List Nat) : List Nat × Nat × List Channel :=
  (accs.zipIdx).foldl (fun p x =>
    let y := fullerLane f p.2.2 row x.2 x.1
    (p.1 ++ [y.1], p.2.1 + (if y.2.1 then 1 else 0), y.2.2)) ([], 0, chs)

/-- Rows in ascending order (R239): the codes of each row, the saturated outputs, the channel records. -/
def fullerRows (f : Fuller) (acc : Nat → Nat → Nat) (cols : Nat) (chs : List Channel) (rows : Nat) :
    List (List Nat) × Nat × List Channel :=
  (List.range rows).foldl (fun p r =>
    let y := fullerRow f p.2.2 r ((List.range cols).map (acc r))
    (p.1 ++ [y.1], p.2.1 + y.2.1, y.2.2)) ([], 0, chs)

/-- Does the fuller write the accumulator unchanged (R177): no stage in use, and the output format that of the accumulator. An INT32
accumulator with FP32 output, or an FP32 one with INT32 output, is converted although every stage is bypassed: `unchanged` is read as
the same format (DESIGN CHOICE, log entry 24). -/
def isBypass (ints rescaled residual gated state : Bool) (q outFmt : Nat) : Bool :=
  !rescaled && !residual && !gated && !state && q = 0x3F800000 && ((ints && outFmt = 5) || (!ints && outFmt = 6))

/-! ## Plan entries (Table 9.5) -/

/-- Plan entries of a program, as the header of LOOM_PLANS counts them (R212). -/
def planCount (p : Program) : Nat :=
  match sectionOf p.pkg 3 with
  | some sec => leNat (mread p.pkg sec.1 4)
  | none => 0

/-- The 64 bytes of plan entry `e`. -/
def planEntry (p : Program) (e : Nat) : Bytes :=
  match sectionOf p.pkg 3 with
  | some sec => mread p.pkg (sec.1 + 64 + 64 * e) 64
  | none => []

/-- Start and bytes of table `i` of a kind (0 rescale, 1 FUSED, 2 COARSE) in FULLER_TABLES (R216). -/
def tablePlace (p : Program) (kind i : Nat) : Nat × Nat :=
  match sectionOf p.pkg 4 with
  | none => (0, 0)
  | some sec =>
    let r := leNat (mread p.pkg sec.1 2)
    let f := leNat (mread p.pkg (sec.1 + 2) 2)
    match kind with
    | 0 => (sec.1 + 64 + 32768 * i, 32768)
    | 1 => (sec.1 + 64 + 32768 * r + 576 * i, 576)
    | _ => (sec.1 + 64 + 32768 * r + 576 * f + 192 * i, 192)

/-- Tables of a kind that a package holds. -/
def tableCount (p : Program) (kind : Nat) : Nat :=
  match sectionOf p.pkg 4 with
  | some sec => leNat (mread p.pkg (sec.1 + 2 * kind) 2)
  | none => 0

/-- Is an entry a TILE. -/
def planTile (b : Bytes) : Bool := fieldAt b 0 1 = 0

/-- M of a TILE entry. -/
def planM (b : Bytes) : Nat := fieldAt b 4 2

/-- N of a TILE entry. -/
def planN (b : Bytes) : Nat := fieldAt b 6 2

/-- K of a TILE entry, n of a COARSE entry. -/
def planK (b : Bytes) : Nat := fieldAt b 8 4

/-- Flags of an entry: byte 13. -/
def planFlags (b : Bytes) : Nat := fieldAt b 13 1

/-- Is STATE set. -/
def planState (b : Bytes) : Bool := planTile b && bit (planFlags b) 2

/-- Write target: 0 loft window, 1 DRAM, 2 hand-off staging. -/
def planTarget (b : Bytes) : Nat := planFlags b / 8 % 4

/-- Channel base. -/
def planBase (b : Bytes) : Nat := fieldAt b 16 2

/-- The worst case W of an entry in core cycles (R213); none where its pair is not in Table 7.5. -/
def planW (b : Bytes) : Option Nat :=
  if planTile b then
    (cK (fieldAt b 1 1) (fieldAt b 2 1) (planK b)).map (fun c =>
      let t := planM b / 64 * (planN b / 64)
      let fill := max (ceilDiv (elemBytes (fieldAt b 1 1) (64 * planK b)) 128) (ceilDiv (elemBytes (fieldAt b 2 1) (64 * planK b)) 128)
      1024 + (t - 1) * max (max c (ceilDiv (c + 190) 2)) fill + c + 202)
  else some (256 + ceilDiv (planK b) 64 + 12)

/-- The format of the residual rows; a plan entry has no field for it. -/
def residualFmt : Nat := Config.residualFormat % 7

/-- Elements of the output of an entry. -/
def planOutputs (b : Bytes) : Nat := if planTile b then planM b * planN b else planK b

/-- Bytes of the regions of a step: A or a, B or b, residual, output. -/
def planRegions (b : Bytes) : Nat × Nat × Nat × Nat :=
  let west := fieldAt b 1 1
  let north := fieldAt b 2 1
  if planTile b then
    (elemBytes west (planM b * planK b), elemBytes north (planK b * planN b),
     if bit (planFlags b) 0 then elemBytes residualFmt (planM b * planN b) else 0, elemBytes (fieldAt b 3 1) (planM b * planN b))
  else
    (elemBytes west (planK b), if north = 0xF then 0 else elemBytes north (planK b), 0, elemBytes (fieldAt b 3 1) (planK b))

/-- The argument block of a ticket by its fields (R215): A, B, output address, residual offset. -/
def argField (arg i : Nat) : Nat := arg / 2 ^ (64 * i) % 2 ^ 64

/-! ## Where steps run -/

/-- Loom `l` (0 to 15). -/
def loomOf (s : State) (l : Nat) : Loom := tgetD s.compute.looms l .reset

/-- Change loom `l`. -/
def loomMod (s : State) (l : Nat) (f : Loom → Loom) : State :=
  { s with compute := { s.compute with looms := tmod s.compute.looms l .reset f } }

/-- The code of the bell period that is in force in the next bell, as far as it is known: that of an accepted write of OD 0x2001 (R66), of
a period change of the guild at the next edge (R308), or the present one. -/
def nextPeriodCode (s : State) : Nat :=
  match s.steward.accepted.find? (fun a => a.idx = 0x2001) with
  | some a => ((a.values.head?).map (fun v => v.2)).getD (odVal s 0x2001 0)
  | none => match s.fabric.periodNotice with
    | some n => if n.2 = s.bell.count + 1 then n.1 else odVal s 0x2001 0
    | none => odVal s 0x2001 0

/-- The chimes that a task of `w` core cycles takes at worst in the present bell, or in the next one (R68). -/
def taskChimes (s : State) (nextBell : Bool) (w : Nat) : Nat :=
  if nextBell then ceilDiv w (periodOf (nextPeriodCode s) / 8 * clockMHz s / 1000) else ceilDiv w (chimeCycles s)

/-- Does a task of `n` chimes that starts at a boundary end before the next edge (R68). -/
def fitsBell (start n : Nat) : Bool := decide (start % 8 + n ≤ 8)

/-- Work that asks for a loom: a step, the entry whose work it is, the kind of its holder (1 kernel, 2 Loom Direct, 3 stream), its worst
case in core cycles, and the looms in the order in which it prefers them. -/
structure LoomWork where
  kind : StepKind
  entry : Nat
  e : Entry
  holder : Nat
  cycles : Nat
  looms : List Nat
  deriving DecidableEq, Repr

/-- Effective class of the entry of a number in order of admission; where it has gone, one that no entry has. -/
def uidClass (s : State) (uid : Nat) : Nat := ((s.tally.entries.find? (fun p => p.2.uid = uid)).map (fun p => effClass p.2)).getD 4

/-- May a loom that is held in this bell take a step of this work (R184, R185): a loom that nothing holds, or that the same entry holds;
work of CLASS 0 takes it from a holder of a higher effective class, but a kernel takes none from a kernel. -/
def holdAllows (s : State) (w : LoomWork) (x : Loom) : Bool :=
  x.holder = 0 || x.holderUid = w.e.uid || (w.e.cls = 0 && (w.holder = 2 || x.holder = 2) && uidClass s x.holderUid ≠ 0)

/-- May a step of CLASS 0 take the place of one that is placed and has not started (R71, R184). -/
def displaces (s : State) (w : LoomWork) (p : Placed) : Bool :=
  w.e.cls = 0 && uidClass s p.uid ≠ 0 && (w.holder = 2 || (match p.kind with | .direct _ => true | .ticket _ _ _ => false))

/-- Is a loom between plan steps at a boundary of this bell (R69), open, and not withheld by its holder. -/
def loomFree (s : State) (w : LoomWork) (start l : Nat) : Bool :=
  let x := loomOf s l
  unitOpen s (8 + l) && (match x.step with | some st => decide (st.by_ ≤ start) | none => true) && holdAllows s w x

/-- The work of a step that was placed waits again (R71). -/
def unplaced (s : State) (p : Option Placed) : State :=
  match p with
  | some p => replan s p.entry .waiting
  | none => s

/-- Take what is placed on a loom for a boundary of this bell away. -/
def dropNext (s : State) (l : Nat) : State := unplaced (loomMod s l (fun x => { x with next := none })) (loomOf s l).next

/-- Take what the plan for the next bell has on a loom away. -/
def dropPlan (s : State) (l : Nat) : State := unplaced (loomMod s l (fun x => { x with plan := none })) (loomOf s l).plan

/-- Take every placed step away. -/
def dropPlaced (s : State) : State := (s.compute.looms.map (fun p => p.1)).foldl (fun s l => dropPlan (dropNext s l) l) s

/-- Place work on a loom by amendment, for the boundary `start` of this bell (R71). -/
def putNext (s : State) (w : LoomWork) (start l : Nat) : State :=
  replan (loomMod (dropNext s l) l (fun x => { x with next := some ⟨w.kind, w.entry, w.e.uid, start⟩ })) w.entry .planned

/-- Place work on a loom in the plan for the next bell (R70). -/
def putPlan (s : State) (w : LoomWork) (l : Nat) : State :=
  replan (loomMod s l (fun x => { x with plan := some ⟨w.kind, w.entry, w.e.uid, 8 * (s.bell.ticks + 1)⟩ })) w.entry .planned

/-- Place work by amendment for a boundary (R71): on the first of its looms that is free then and has nothing placed, or, for CLASS 0, in
the place of work of a higher effective class. -/
def amendLoom (s : State) (start : Nat) (w : LoomWork) : Option State :=
  if !fitsBell start (taskChimes s false w.cycles) then none
  else
    let free := w.looms.filter (loomFree s w start)
    match free.find? (fun l => (loomOf s l).next.isNone) with
    | some l => some (putNext s w start l)
    | none => (free.find? (fun l => (loomOf s l).next.any (displaces s w))).map (putNext s w start)

/-- Place work in the plan for the next bell (R70): on the first of its looms that the plan leaves. -/
def planLoom (s : State) (w : LoomWork) : Option State :=
  if 8 < taskChimes s true w.cycles then none
  else (w.looms.find? (fun l => unitOpen s (8 + l) && (loomOf s l).plan.isNone)).map (putPlan s w)

/-- Put a step on a loom: its child runs on that loom's unit and epoch, and the loom is held for the bell (R184, R185). -/
def startStep (s : State) (l holder : Nat) (p : Placed) (slots : Nat) (st : LoomStep) : State :=
  let s := loomMod s l (fun x => { x with
    holder := holder, holderEntry := p.entry, holderUid := p.uid, slots := slots, step := some st, next := none })
  let s := entryMod s st.child (fun e => { e with unit := 8 + l, epoch := (unitOf s (8 + l)).epoch })
  setRunning (replan s p.entry .running) st.child

/-- A loom has ended its step; it stays held for the rest of the bell. -/
def clearStep (s : State) (l : Nat) : State := taskEnds (loomMod s l (fun x => { x with step := none, slots := 0 })) (8 + l)

end Sys2Proof.Machine
end

