-- ==== Sys2Proof/Machine/Package.lean ====
section
/-!
DEFINITION. What Program Activation Management checks (R211 to R218, R220, R231, R233): the container, the manifest, the
signature, the code, the plan entries and the fuller tables. Each check answers the first failure as a result code of
Table 9.6 with its detail, none where it passes. A detail that Table 9.6 gives no value for is left open.
-/

namespace Sys2Proof.Machine

/-- A failed check: result code, and its detail where the spec gives one. -/
abbrev CheckFail := Nat × Option Nat

/-- The first of several failures. -/
def firstFail : List (Option CheckFail) → Option CheckFail
  | [] => none
  | some f :: _ => some f
  | none :: rest => firstFail rest

/-- A failure where a condition holds. -/
def failIf (bad : Bool) (code : Nat) (detail : Option Nat) : Option CheckFail := if bad then some (code, detail) else none

/-! ## The container (R211) -/

/-- One entry of the section table. -/
structure Section where
  ty : Nat
  off : Nat
  len : Nat
  reserved : Bool
  deriving DecidableEq, Repr

/-- The section table of a stored package. -/
def sectionsOf (pkg : Mem) : List Section :=
  (List.range (leNat (mread pkg 6 2))).map (fun i =>
    let at_ := 64 + 32 * i
    ⟨leNat (mread pkg at_ 2), leNat (mread pkg (at_ + 8) 8), leNat (mread pkg (at_ + 16) 8),
      decide (leNat (mread pkg (at_ + 2) 6) = 0) && decide (leNat (mread pkg (at_ + 24) 8) = 0)⟩)

/-- Is section `i` badly placed: unknown or repeated type, off its alignment, outside the package, over the table or another
section, SIGNATURE not last. -/
def sectionBad (secs : List Section) (total : Nat) (i : Nat) (x : Section) : Bool :=
  let tableEnd := 64 + 32 * secs.length
  x.ty = 0 || decide (6 < x.ty) || !x.reserved || (secs.take i).any (fun y => y.ty = x.ty) ||
  x.off % 64 ≠ 0 || decide (x.off < tableEnd) || decide (total < x.off + x.len) ||
  (secs.take i).any (fun y => decide (x.off < y.off + y.len) && decide (y.off < x.off + x.len) && x.len ≠ 0 && y.len ≠ 0) ||
  (x.ty = 6 && secs.any (fun y => decide (x.off < y.off))) || (x.ty = 1 && x.len ≠ 128) || (x.ty = 6 && x.len ≠ 100) ||
  (x.ty = 5 && decide (16777216 < x.len))

/-- Word `i` of the code. -/
def codeWord (p : Program) (i : Nat) : Nat :=
  match sectionOf p.pkg 2 with
  | some sec => leNat (mread p.pkg (sec.1 + 8 * i) 8)
  | none => 0

/-- Opcode of a word. -/
def opOf (w : Nat) : Nat := bits w 63 56

/-- Instructions of the stored code section. -/
def codeLen (p : Program) : Nat := ((sectionOf p.pkg 2).map (fun x => x.2 / 8)).getD 0

/-- Bytes of a package that have been received: the runs of its parts. -/
def receivedBytes (p : Program) : Nat := (p.parts.map (fun x => x.2 - x.1)).sum

/-- Is a section of a type missing. -/
def lacks (secs : List Section) (ty : Nat) : Bool := !secs.any (fun x => x.ty = ty)

/-- Does a plan entry use a table of FULLER_TABLES (Table 9.3): a COARSE pass does, and a TILE entry with rescale TABLE or a FUSED
gate. -/
def usesTable (b : Bytes) : Bool := if planTile b then fieldAt b 12 1 = 2 || bit (planFlags b) 1 else true

/-- The section table entry of LOOM_PLANS, where its header or its length is no list of plan entries (R212): reserved bytes that are not
zero, or no room for the entries that it counts. -/
def plansBad (p : Program) (secs : List Section) : Option Nat :=
  (secs.zipIdx.find? (fun x => x.1.ty = 3 && (decide (x.1.len < 64 + 64 * planCount p) ||
    (mread p.pkg (x.1.off + 4) 60).any (fun b => decide (b ≠ 0))))).map (fun x => x.2)

/-- The container checks (R211, R212). A fault of the header of LOOM_PLANS answers as one of the container (DESIGN CHOICE, log entry
28: Table 9.6 has no code of its own for it). -/
def checkContainer (p : Program) : Option CheckFail :=
  let secs := sectionsOf p.pkg
  let bad := ((secs.zipIdx).find? (fun x => sectionBad secs p.stored x.2 x.1)).map (fun x => (0x01, some x.2))
  firstFail [
    failIf (p.stored < 64 || leNat (mread p.pkg 0 4) ≠ 0x37504B4A || leNat (mread p.pkg 4 2) ≠ 1 || secs.length < 2 ||
      decide (6 < secs.length) || leNat (mread p.pkg 8 8) ≠ p.stored || receivedBytes p ≠ p.stored) 0x01 none,
    bad,
    failIf (lacks secs 1 || lacks secs 2) 0x01 none,
    failIf (lacks secs 3 && (List.range (codeLen p)).any (fun i => opOf (codeWord p i) = 0x55)) 0x01 none,
    (plansBad p secs).map (fun i => (0x01, some i)),
    failIf (lacks secs 4 && (List.range (planCount p)).any (fun e => usesTable (planEntry p e))) 0x01 none]

/-- The bytes that the digest covers: byte 64 to the end, without the SIGNATURE section. -/
def digestBytes (p : Program) : Bytes :=
  match sectionOf p.pkg 6 with
  | some sec => mread p.pkg 64 (sec.1 - 64) ++ mread p.pkg (sec.1 + sec.2) (p.stored - (sec.1 + sec.2))
  | none => mread p.pkg 64 (p.stored - 64)

/-- The digest that the header states. -/
def headerDigest (p : Program) : Nat := beNat (mread p.pkg 16 48)

/-- The digest check (R211). -/
def checkDigest (p : Program) : Option CheckFail := failIf (Config.sha384 (digestBytes p) ≠ headerDigest p) 0x02 (some 0)

/-! ## The manifest (Table 9.4) -/

/-- Is a name byte printable, or padding. -/
def nameByte (b : Nat) : Bool := b = 0 || (decide (0x20 ≤ b) && decide (b ≤ 0x7E))

/-- The manifest checks: fields in ascending order, then the firmware minimum. -/
def checkManifest (p : Program) : Option CheckFail :=
  let f := manifestField p
  let out (bad : Bool) (off : Nat) : Option CheckFail := failIf bad 0x03 (some off)
  let name := ((List.range 32).find? (fun i => !nameByte (f i 1))).map (fun i => ((0x03, some i) : CheckFail))
  firstFail [
    name,
    out (decide (1 < f 38 1)) 38, out (decide (1 < f 39 1)) 39,
    out (decide (f 40 2 < 1) || decide (256 < f 40 2)) 40, out (decide (64 < f 42 2)) 42,
    out (decide (f 44 1 < 1) || decide (48 < f 44 1)) 44, out (decide (f 45 1 < f 44 1) || decide (48 < f 45 1)) 45,
    out (f 46 2 ≠ 0) 46, out (decide (f 48 4 < 1) || decide (65536 < f 48 4)) 48,
    out (decide (f 52 4 < 65536) || decide (33554432 < f 52 4) || f 52 4 % 65536 ≠ 0) 52,
    out (decide (f 56 4 < 1) || decide (262144 < f 56 4) ||
      f 56 4 * 8 ≠ ((sectionOf p.pkg 2).map (fun x => x.2)).getD 0) 56,
    out (decide (4096 < f 60 4) || f 60 4 ≠ planCount p) 60, out (decide (1 < f 64 1)) 64, out (f 65 63 ≠ 0) 65,
    failIf (decide (7 < f 36 1) || (f 36 1 = 7 && decide (2 < f 37 1))) 0x04 (some 0)]

/-! ## The signature (R218, R409) -/

/-- The signature check: required, its slot, and the signature over the header. A key of zeros is an empty slot. -/
def checkSignature (s : State) (p : Program) : Option CheckFail :=
  match sectionOf p.pkg 6 with
  | none => failIf (odVal s 0x2602 0 ≠ 0) 0x05 (some 0)
  | some sec =>
    let slot := leNat (mread p.pkg sec.1 2)
    let key := odVal s 0x2C02 (slot + 1)
    failIf (decide (7 < slot) || key = 0 || leNat (mread p.pkg (sec.1 + 2) 2) ≠ 0 ||
      !Config.ecdsaVerifies key (Config.sha384 (mread p.pkg 0 64)) (beNat (mread p.pkg (sec.1 + 4) 96))) 0x06 (some slot)

/-! ## The code (R231, R233) -/

/-- The M-class fields of a word. -/
def memFieldsOf (w : Nat) : MemFields where
  rd := bits w 55 48
  ra := bits w 47 40
  rb := bits w 39 32
  space := bits w 31 28
  width := bits w 27 24
  sx := bit w 23
  order := bits w 22 20
  offset := toInt 20 w

/-- The R-class fields of a word. -/
def rFieldsOf (w : Nat) : RFields := ⟨bits w 55 48, bits w 47 40, bits w 39 32, bits w 31 24, bits w 23 16⟩

/-- Is a defined opcode one of class R, with the modifier bits that it defines and the sources it reads (ra, rb, rc). -/
def rClass (op : Nat) : Option (Nat × List Nat) :=
  if op = 0x01 ∨ op = 0x02 ∨ op = 0x03 ∨ op = 0x08 ∨ op = 0x09 ∨ op = 0x0A ∨ op = 0x0B ∨ op = 0x0C then some (0, [0, 1])
  else if op = 0x04 ∨ op = 0x07 ∨ op = 0x0D ∨ op = 0x0E ∨ op = 0x15 ∨ op = 0x36 ∨ op = 0x37 then some (1, [0, 1])
  else if op = 0x05 ∨ op = 0x12 then some (0, [0, 1, 2])
  else if op = 0x0F ∨ op = 0x10 ∨ op = 0x13 ∨ op = 0x28 then some (0, [0])
  else if op = 0x11 then some (15, [0, 1])
  else if op = 0x20 ∨ op = 0x21 ∨ op = 0x22 ∨ op = 0x24 ∨ op = 0x25 ∨ op = 0x31 then some (15, [0, 1])
  else if op = 0x23 then some (15, [0, 1, 2])
  else if op = 0x26 then some (7, [0, 1])
  else if op = 0x27 then some (3, [0])
  else if op = 0x30 then some (255, [0])
  else if op = 0x32 ∨ op = 0x33 ∨ op = 0x34 ∨ op = 0x35 then some (5, [0])
  else if op = 0x38 then some (3, [0, 1])
  else if op = 0x39 then some (3, [0])
  else none

/-- Is the modifier of an R word one that its operation defines. -/
def rModOk (op modifier : Nat) : Bool :=
  if op = 0x11 ∨ op = 0x26 then decide (modifier % 8 < 6)
  else if op = 0x39 then decide (modifier % 4 < 3)
  else if op = 0x30 then formatOk (modifier / 16) && formatOk (modifier % 16)
  else true

/-- Undefined opcode or reserved field (code 0x07). -/
def wordReserved (w : Nat) : Bool :=
  let op := opOf w
  let m := memFieldsOf w
  match rClass op with
  | some (mask, _) => !(rOk (rFieldsOf w) mask && rModOk op (bits w 23 16)) || bits w 15 0 ≠ 0
  | none =>
    if op = 0x06 ∨ op = 0x14 then bits w 39 32 ≠ 0
    else if op = 0x16 then bits w 39 32 ≠ 0 || decide (9 < bits w 31 0)
    else if op = 0x40 then !ldOk m
    else if op = 0x41 then !stOk m
    else if op = 0x42 then !atomOk { m with sx := false, offset := toInt 16 w } (bits w 19 16) || bit w 23
    else if op = 0x43 then !casOk m
    else if op = 0x44 then bits w 31 24 ≠ 1 && bits w 31 24 ≠ 2
    else if op = 0x54 then decide (2 < bits w 31 24) || decide (15 < bits w 23 16)
    else !(decide (0x50 ≤ op) && decide (op ≤ 0x5B))

/-- The registers that a word names, each with how many it uses from there. -/
def wordRegs (w : Nat) : List (Nat × Nat) :=
  let op := opOf w
  let m := memFieldsOf w
  let addr := (m.ra, if 4 ≤ m.space then 2 else 1)
  let n := widthRegs m.width
  let src (k : Nat) : Nat := if k = 0 then bits w 47 40 else if k = 1 then bits w 39 32 else bits w 31 24
  match rClass op with
  | some (_, ks) => (bits w 55 48, 1) :: ks.map (fun k => (src k, 1))
  | none =>
    if op = 0x06 then [(bits w 55 48, 1), (bits w 47 40, 1)]
    else if op = 0x14 ∨ op = 0x16 then [(bits w 55 48, 1)]
    else if op = 0x40 then [(m.rd, n), addr]
    else if op = 0x41 then [(m.rb, n), addr]
    else if op = 0x42 then [(m.rd, n), (m.rb, n), addr]
    else if op = 0x43 then [(m.rd, n), (m.rb, 2 * n), addr]
    else if op = 0x51 ∨ op = 0x52 then [(bits w 55 48, 1)]
    else if op = 0x55 then [(bits w 55 48, 1), (bits w 47 40, 1), (bits w 39 32, 1)]
    else if op = 0x56 ∨ op = 0x57 then [(bits w 55 48, 1), (bits w 47 40, 1)]
    else if op = 0x59 then [(bits w 47 40, 1)]
    else []

/-- Branch target or reconvergence index invalid (code 0x09). -/
def wordBranchBad (p : Program) (count w : Nat) : Bool :=
  let op := opOf w
  let point := bits w 23 0
  if op = 0x50 then decide (count ≤ bits w 47 24)
  else if op = 0x51 ∨ op = 0x52 then
    decide (count ≤ bits w 47 24) || decide (count ≤ point) || opOf (codeWord p point) ≠ 0x53
  else false

/-- The code check: the first word that is refused, and why. -/
def checkCode (p : Program) : Option CheckFail :=
  let count := manifestField p 56 4
  let u := manifestField p 40 2
  (List.range count).findSome? (fun i =>
    let w := codeWord p i
    if wordReserved w then some (0x07, some i)
    else if (wordRegs w).any (fun r => decide (u < r.1 + r.2)) then some (0x08, some i)
    else if wordBranchBad p count w then some (0x09, some i)
    else none)

/-! ## Plan entries (Table 9.5, R213) and fuller tables (R216) -/

/-- Is a TILE entry refused. -/
def tileBad (s : State) (p : Program) (b : Bytes) : Bool :=
  let flags := planFlags b
  planM b % 64 ≠ 0 || decide (planM b < 64) || decide (4096 < planM b) ||
  planN b % 64 ≠ 0 || decide (planN b < 64) || decide (4096 < planN b) ||
  decide (planK b < 1) || decide (16384 < planK b) || decide (6 < fieldAt b 3 1) || decide (2 < fieldAt b 12 1) ||
  decide (32 ≤ flags) || planTarget b = 3 || (planTarget b = 2 && !s.ident.meshed) || fieldAt b 32 32 ≠ 0 ||
  decide (4096 < planBase b + planN b) ||
  (fieldAt b 12 1 = 2 && decide (tableCount p 0 ≤ fieldAt b 14 2)) ||
  (bit flags 1 && decide (tableCount p 1 ≤ fieldAt b 18 2)) ||
  (bit flags 2 && manifestField p 64 1 ≠ 1)

/-- Is a COARSE entry refused. -/
def coarseBad (s : State) (p : Program) (b : Bytes) : Bool :=
  decide (planK b < 1) || decide (1048576 < planK b) || decide (6 < fieldAt b 1 1) || decide (6 < fieldAt b 3 1) ||
  decide (2 < fieldAt b 12 1) || (decide (6 < fieldAt b 2 1) && !(fieldAt b 2 1 = 0xF && fieldAt b 12 1 = 0)) ||
  fieldAt b 4 4 ≠ 0 || fieldAt b 14 4 ≠ 0 || fieldAt b 20 8 ≠ 0 || fieldAt b 32 32 ≠ 0 ||
  planFlags b % 8 ≠ 0 || decide (32 ≤ planFlags b) || planTarget b = 3 || (planTarget b = 2 && !s.ident.meshed) ||
  decide (tableCount p 2 ≤ fieldAt b 18 2)

/-- Is a plan entry refused (R213). -/
def planBad (s : State) (p : Program) (b : Bytes) : Bool :=
  decide (1 < fieldAt b 0 1) || (if planTile b then tileBad s p b else coarseBad s p b) ||
  (match planW b with
   | some w => decide (stepCap s < w)
   | none => true)

/-- The plan entries check. -/
def checkPlans (s : State) (p : Program) : Option CheckFail :=
  ((List.range (planCount p)).find? (fun e => planBad s p (planEntry p e))).map (fun e => (0x0A, some e))

/-- Is a gate table of FULLER_TABLES well formed (R216): as its kind asks, and padded with zeros behind its segments. -/
def gatePadded (t : Bytes) (n : Nat) : Bool := gateOk t n && (t.drop (32 + 8 * n)).all (fun b => decide (b = 0))

/-- The fuller tables check: counts, the reserved bytes of the header, the room for all tables, and each gate table. Tables are numbered in their order. -/
def checkTables (p : Program) : Option CheckFail :=
  match sectionOf p.pkg 4 with
  | none => none
  | some sec =>
    let r := tableCount p 0
    let f := tableCount p 1
    let c := tableCount p 2
    let total := r + f + c
    firstFail [
      failIf (decide (64 < r) || decide (32 < f) || decide (64 < c) || (mread p.pkg (sec.1 + 6) 58).any (fun b => decide (b ≠ 0))) 0x0B
        none,
      ((List.range total).find? (fun i =>
        let place := if i < r then tablePlace p 0 i else if i < r + f then tablePlace p 1 (i - r) else tablePlace p 2 (i - r - f)
        decide (sec.1 + sec.2 < place.1 + place.2) ||
        (decide (r ≤ i) && !gatePadded (mread p.pkg place.1 place.2) (if i < r + f then 64 else 16)))).map (fun i => (0x0B, some i))]

/-- Steps 1 to 3 of R220, in order. -/
def checkPackage (s : State) (p : Program) : Option CheckFail :=
  firstFail [checkContainer p, checkDigest p, checkManifest p, checkSignature s p, checkCode p, checkPlans s p, checkTables p]

end Sys2Proof.Machine
end

