-- ==== Sys2Proof/Machine/Gate.lean ====
section
/-!
DEFINITION. The call gate of the channel engines (R116 to R121, R448, R449) and what a codeword's recovery means to its band (R154, R160).
-/

namespace Sys2Proof.Machine

/-- Result codes of the verbs (Table 5.5). -/
inductive VerbResult where
  | done | decodeFail | programFail | eraseFail | fence | dieBusy | cancelled | suspended | badArg | dieTimeout | erased
  | trainFail
  deriving DecidableEq, Repr

/-- Number of a verb result. -/
def VerbResult.code : VerbResult → Nat
  | .done => 0 | .decodeFail => 1 | .programFail => 2 | .eraseFail => 3 | .fence => 4 | .dieBusy => 5 | .cancelled => 6
  | .suspended => 7 | .badArg => 8 | .dieTimeout => 9 | .erased => 10 | .trainFail => 11

/-- The result of a verb goes back to the caller. -/
def verbEnds (s : State) (die verb : Nat) (r : VerbResult) (data : List Nat) : State :=
  emit s (.die die verb r.code data)

/-- A verb failed (record 0x0501, Table 16.9). -/
def verbFailed (s : State) (unit verb : Nat) (r : VerbResult) (a : FlashAddr) : State :=
  count (raiseRecord s { Record.of 0x0501 with
    unit := some unit, hasAddr := true, a := verb + 256 * r.code, b := packAddr a }) (0x6100 + unit) 0x0A 1

/-- Is a channel engine in RESET. -/
def channelInReset (s : State) (d : Nat) : Bool := (unitOf s (channelUnit d)).state = .reset

/-- Effective class of a tally entry; 3 where there is none. -/
def classAt (s : State) (i : Nat) : Nat := ((entryAt s i).map effClass).getD 3

/-- Is an entry an INTERNAL one of a job. -/
def isJob (s : State) (i job : Nat) : Bool :=
  match entryAt s i with
  | some e => match e.origin with
    | .internal j _ => j = job
    | _ => false
  | none => false

/-- An entry runs on a unit: it counts under that unit and its present epoch (R29). -/
def runOn (s : State) (i u : Nat) : State :=
  setRunning (entryMod s i (fun e => { e with unit := u, epoch := (unitOf s u).epoch })) i

/-! ## Levels -/

/-- Group of 64 blocks (R126). -/
def groupOf (block : Nat) : Nat := block / 64

/-- The pinned table (OD 0x2211). -/
def pinnedLevels (s : State) : List Int := (List.range 7).map (fun k => toInt 8 (odVal s 0x2211 (k + 1)))

/-- The levels that rung 1 uses (R127): the pinned table while OD 0x2210 is 1. -/
def levelsInUse (s : State) (die group : Nat) : List Int :=
  if odVal s 0x2210 0 = 1 then pinnedLevels s else tgetD s.flash.levels (die * 32 + group) [0, 0, 0, 0, 0, 0, 0]

/-- The levels of a step of the ladder: those of rung 1, and for a retry step its offsets from them (R127, R452). -/
def levelsAt (base : List Int) (step : Nat) : List Int :=
  if 1 ≤ step ∧ step ≤ 8 then base.zipIdx.map (fun x => x.1 + Config.retryOffset step x.2) else base

/-! ## Reads -/

/-- Bits of a codeword mask. -/
def maskBits (mask : Nat) : List Nat := (List.range 4).filter (fun k => bit mask k)

/-- Change ladders. -/
def ladderMod (s : State) (f : List Ladder → List Ladder) : State :=
  { s with flash := { s.flash with ladders := f s.flash.ladders } }

/-- The ladder of a codeword for an entry. -/
def ladderOf (s : State) (entry : Nat) (a : FlashAddr) : Option Ladder :=
  s.flash.ladders.find? (fun l => l.entry = entry && l.addr = a)

/-- Put a ladder in place of the one for the same entry and codeword. -/
def ladderPut (s : State) (l : Ladder) : State :=
  ladderMod s (fun ls => ls.filter (fun m => !(m.entry = l.entry && m.addr = l.addr)) ++ [l])

/-- Take a ladder away. -/
def ladderDel (s : State) (entry : Nat) (a : FlashAddr) : State :=
  ladderMod s (fun ls => ls.filter (fun m => !(m.entry = entry && m.addr = a)))

/-- Is an entry a sibling read of a rebuild (job 0x08); its ladder has no rebuild rung (R124). -/
def isSibling (s : State) (i : Nat) : Bool := isJob s i 0x08

/-- The ladder of a codeword at rung 1, which waits for its die. -/
def newLadder (s : State) (entry : Nat) (a : FlashAddr) (slc : Bool) : Ladder :=
  ⟨entry, a, slc, classAt s entry = 0, .waiting, 0, none, false, false, false, false, []⟩

/-- Ladders of an entry for codewords of a page that have none yet. -/
def addLadders (s : State) (entry : Nat) (a : FlashAddr) (slc : Bool) (ks : List Nat) : State :=
  ks.foldl (fun s k =>
    let b := { a with cw := k }
    if (ladderOf s entry b).isSome then s else ladderPut s (newLadder s entry b slc)) s

/-- Do two codewords lie on one page. -/
def samePage (a b : FlashAddr) : Bool := { a with cw := b.cw } = b

/-- The codewords of a page that a read of an entry takes: their ladders. -/
def readTakes (r : DieRead) (l : Ladder) : Bool := l.entry = r.entry && samePage l.addr r.addr && bit r.mask l.addr.cw

/-- Nominal time of a read in ns (Table 5.4). -/
def senseNs (r : DieRead) : Nat := if r.soft then 65000 else if 1 ≤ r.step then 18000 else if r.slc then 25000 else 40000

/-- Start a sense on a die, for its nominal time (R115), with the counters of retry steps and soft decodes. A read that was placed there
for the entry has started. -/
def startSense (s : State) (r : DieRead) : State :=
  let u := 0x6100 + channelUnit r.addr.die
  let s := if 1 ≤ r.step ∧ r.step ≤ 8 then count s u 7 1 else s
  let s := if r.soft then count s u 8 1 else s
  let s := ladderMod s (fun ls => ls.map (fun l => if readTakes r l then { l with st := .reading, step := r.step, spent := false } else l))
  let s := dieMod s r.addr.die (fun d => { d with
    st := if d.st = .idle then .sensing else d.st
    read := some r
    placed := if d.placed = some r.entry || d.placed = (entryAt s r.entry).bind (fun e => e.parent) then none else d.placed
    sinceNs := nowNs s
    endNs := nowNs s + senseNs r })
  runOn s r.entry (channelUnit r.addr.die)

/-- Can a die take a read now (Table 5.6): IDLE, or SUSPENDED with no read on it and no lock accepted, its channel engine not in RESET. -/
def takesRead (s : State) (die : Nat) : Bool :=
  let d := dieOf s die
  (d.st = .idle || (d.st = .suspended && d.read.isNone)) && readable s die

/-- READ or READ_SOFT at the gate (R116): its arguments, then the state of its die. A refused read has no effect on the die; the codewords
of a tally entry that asked for it wait, and are read when the planner can place them (R124). -/
def gateRead (s : State) (verb : Nat) (r : DieRead) : State :=
  if !addrOk s r.addr r.slc || !modeOk s r.addr.die r.addr.block r.slc || r.mask = 0 || decide (15 < r.mask) || decide (9 < r.step) then
    verbEnds s r.addr.die verb .badArg []
  else
    let s := if (entryAt s r.entry).isSome then addLadders s r.entry r.addr r.slc (maskBits r.mask) else s
    if takesRead s r.addr.die then startSense s r else verbEnds s r.addr.die verb .dieBusy []

/-- The sense of a die ends without a result: its READ ends CANCELLED, and the codewords wait again (R124). A transfer is never cut (R69,
R446). -/
def cancelRead (s : State) (die : Nat) : State :=
  match (dieOf s die).read with
  | none => s
  | some r =>
    if r.crossing then s
    else
      let s := ladderMod s (fun ls => ls.map (fun l => if readTakes r l && l.st = .reading then { l with st := .waiting } else l))
      let s := dieMod s die (fun d => { d with st := if d.st = .sensing then .idle else d.st, read := none, endNs := nowNs s })
      verbEnds (entryMod s r.entry (fun e => if e.state = .running then { e with state := .waiting } else e)) die
        (if r.soft then 2 else 1) .cancelled []

/-! ## What a recovery means to the band -/

/-- The band of an address is reclaimed at CLASS 3 (R160), once. -/
def refreshBand (s : State) (a : FlashAddr) : State :=
  let k := bandAt s a.die a.block
  let b := bandOf s k
  if !dataBlock (k % 2048) || b.refresh || b.st = .free then s
  else count (bandMod s k (fun b => { b with refresh := true })) 0x6009 0 1

/-- The die block of a band position is retired at its next erase (R152, R154). -/
def retireLater (s : State) (a : FlashAddr) : State :=
  let k := bandAt s a.die a.block
  if (bandOf s k).retireAt.contains (positionOf a.die) then s
  else bandMod s k (fun b => { b with retireAt := b.retireAt ++ [positionOf a.die] })

/-- A codeword of a die block needed rung 3 (R154): once 16 of its codewords have, the block is retired at its next erase. -/
def noteRung3 (s : State) (a : FlashAddr) : State :=
  let k := bandAt s a.die a.block
  let pos := positionOf a.die
  let old := tgetD (bandOf s k).rung3 pos []
  if old.contains (packAddr a) then s
  else
    let s := bandMod s k (fun b => { b with rung3 := tput b.rung3 pos (old ++ [packAddr a]) })
    if 16 ≤ old.length + 1 then retireLater s a else s

/-- Is a count of corrected bits above `pct` percent of the hard-decode limit, 8 × 10^-3 of 36,864 bits (R122). -/
def overLimit (bits pct : Nat) : Bool := decide (pct * 294912 < bits * 100000)

/-- Count a read into the group's window of 256. A full window whose mean is above 60 % of the limit makes the group due for a run of the
tracker (R126). -/
def noteBits (s : State) (a : FlashAddr) (bits : Nat) : State :=
  let k := a.die * 32 + groupOf a.block
  let w := tgetD s.flash.meanBits k (0, 0)
  let full := decide (255 ≤ w.1)
  let s := { s with flash := { s.flash with meanBits := tput s.flash.meanBits k (if full then (0, 0) else (w.1 + 1, w.2 + bits)) } }
  if full && decide (60 * 294912 * 256 < (w.2 + bits) * 100000) && !s.flash.hot.contains k then
    { s with flash := { s.flash with hot := s.flash.hot ++ [k] } }
  else s

/-- A codeword decoded at `rung` (R160, R154, R126). -/
def noteDecoded (s : State) (a : FlashAddr) (rung bits : Nat) : State :=
  let s := noteBits s a bits
  let s := if 3 ≤ rung then noteRung3 (refreshBand s a) a else s
  if overLimit bits (odVal s 0x2312 0) then refreshBand s a else s

/-! ## Programs and erases -/

/-- Class of reclaim work in a group (R146). -/
def reclaimClass (s : State) (g : Nat) : Nat := if freeBands s g ≤ odVal s 0x2301 2 then 1 else 3

/-- CLASS and PROMOTED of a program (R448): the lowest class among the writes whose IUs it holds, that of the rows it completes for parity,
1 for journal and checkpoint pages, and its job's for copies. Where no write and no job is left to take it from (IUs of writes that have
completed already, or filler alone), the spec gives none, and it is the reclaim class of the group (DESIGN CHOICE, log entry 20). -/
def programClass (s : State) (die block wl : Nat) (pages : List SourcePage) : Nat × Bool :=
  let es := pages.filterMap (fun p => match p with
    | .staged iu => (eligible s die block iu).bind (fun g => entryAt s g.entry)
    | .copy iu loc => (eligibleCopy s die block iu loc).bind (fun c => entryAt s c.entry)
    | _ => none)
  if pages.any (fun p => match p with | .cellar _ => true | _ => false) then (1, false)
  else if pages.any (fun p => p = .parity) then
    tgetD s.ledger.rowClass (rowKey (bandAt s die block) wl) (reclaimClass s (rgOfStripe s (stripeOf die)), false)
  else match es with
    | [] => (reclaimClass s (rgOfStripe s (stripeOf die)), false)
    | e :: rest => (rest.foldl (fun c e => min c e.cls) e.cls, (e :: rest).any (fun e => e.promoted))

/-- Filler pages among source pages. -/
def fillers (pages : List SourcePage) : Nat := (pages.filter (fun p => p = .filler)).length

/-- Does a program wait on a die to start. -/
def programWaits (d : Die) : Bool := match d.pending with
  | some (.program _) => true
  | _ => false

/-- The program fence as the gate tests it (R117): another die of the stripe is unreadable, or has a program that the gate has taken
already. -/
def fenceHeld (s : State) (die : Nat) : Bool :=
  fenced s die || (stripeDies (stripeOf die)).any (fun q => q ≠ die && programWaits (dieOf s q))

/-- Is the program slot of a die open (R137): it may program now, for no die of its stripe is unreadable or has a program waiting. -/
def slotOpen (s : State) (die : Nat) : Bool :=
  let d := dieOf s die
  d.st = .idle && d.pending.isNone && !channelInReset s die && !fenceHeld s die

/-- The program slots as they stand now: a slot that opens is counted from the present bell (R137), one that has closed no longer. -/
def noteSlots (s : State) : State :=
  let keys := ((s.ledger.gatherFrom.map (fun p => p.1)) ++ (s.ledger.bands.filter (fun p => p.2.st = .open)).flatMap (fun p =>
    stripeDies (p.1 / 2048))).dedup
  { s with ledger := { s.ledger with gatherFrom := keys.foldl (fun t d =>
      if slotOpen s d then (if (tget t d).isSome then t else tput t d s.bell.ticks) else tdel t d) s.ledger.gatherFrom } }

/-- PROGRAM at the gate (R116 to R118, R448, R449): its arguments, the state of its die, then the fence (DESIGN CHOICE, log entry 20: the
spec gives no order of the refusals). An accepted program waits for its INTERNAL entry of job 0x09 and starts at a chime boundary (R20,
R68). A source page that names an IU which the band does not wait for holds filler. -/
def gateProgram (s : State) (die block wl : Nat) (slc : Bool) (pages : List SourcePage) : State :=
  let d := dieOf s die
  if !decide (die < s.ident.dies) || !decide (block < 1840) || !decide (wl < 768)
      || pages.length ≠ linePages slc || !modeOk s die block slc then verbEnds s die 4 .badArg []
  else if d.st ≠ .idle || d.pending.isSome || channelInReset s die then verbEnds s die 4 .dieBusy []
  else if fenceHeld s die then verbEnds s die 4 .fence []
  else
    let pages := pages.map (sourceOf s die block wl)
    let c := programClass s die block wl pages
    let k := rowKey (bandAt s die block) wl
    let row := tgetD s.ledger.rowClass k c
    let s := count (placePages s die block pages) 0x6006 0 (fillers pages)
    let s := { s with ledger := { s.ledger with rowClass := tput s.ledger.rowClass k (min row.1 c.1, row.2 || c.2) } }
    let s := dieMod s die (fun d => { d with pending := some (.program ⟨block, wl, slc, pages, noEntry, 0⟩) })
    noteSlots (await s (jobReq 0x09 (die * 2 ^ 12 + block) c.1 (channelUnit die)))

/-- CLASS of an erase: that of the ledger job whose band it frees (R146, R150, R160), else 3. -/
def eraseClass (s : State) (k : Nat) : Nat :=
  (((s.ledger.care.find? (fun c => c.band = k)).bind (fun c => c.entry)).bind (entryAt s)).elim 3 (fun e => e.cls)

/-- ERASE at the gate (R116, R118): an accepted erase waits for its INTERNAL entry of job 0x0A and starts at a chime boundary. -/
def gateErase (s : State) (die block : Nat) (slc : Bool) : State :=
  let d := dieOf s die
  if !decide (die < s.ident.dies) || !decide (block < 1840) || !modeOk s die block slc then verbEnds s die 5 .badArg []
  else if d.st ≠ .idle || d.pending.isSome || channelInReset s die then verbEnds s die 5 .dieBusy []
  else
    let s := dieMod s die (fun d => { d with pending := some (.erase ⟨block, slc, 1, 0, false, 0⟩) })
    await s (jobReq 0x0A (die * 2 ^ 12 + block) (eraseClass s (bandAt s die block)) (channelUnit die))

/-- The INTERNAL entry of a program or erase of a die. -/
def dieJob (s : State) (job die : Nat) : Option Nat :=
  (s.tally.entries.find? (fun p => match p.2.origin with
    | .internal j tag => j = job && tag / 2 ^ 12 = die
    | _ => false)).map (fun p => p.1)

/-- Free the INTERNAL entry of a program or erase of a die. -/
def endDieJob (s : State) (job die : Nat) : State :=
  match dieJob s job die with
  | some i => freeFamily s i
  | none => s

/-- A program or erase that waits on a die starts, once its entry is admitted and the die can take it (R117, R118, R449). -/
def startPending (s : State) (die : Nat) : State :=
  let d := dieOf s die
  if d.st ≠ .idle || channelInReset s die then s
  else match d.pending with
    | some (.program p) => match dieJob s 0x09 die with
      | some i =>
        if fenced s die then s
        else runOn (dieMod s die (fun d => { d with
          st := .programming, pending := none, program := some { p with entry := i, crossed := 0 }, sinceNs := nowNs s
          endNs := nowNs s + (if p.slc then 200000 else 600000) })) i (channelUnit die)
      | none => s
    | some (.erase e) => match dieJob s 0x0A die with
      | some i =>
        runOn (dieMod s die (fun d => { d with
          st := .erasing, pending := none, erase := some e, sinceNs := nowNs s, endNs := nowNs s + 500000 })) i (channelUnit die)
      | none => s
    | none => s

/-- Resume a suspended erase (R120, R121): LOCKED_ERASE where a lock was accepted. -/
def resumeErase (s : State) (die : Nat) : State :=
  let d := dieOf s die
  match d.st, d.erase, d.read with
  | .suspended, some e, none =>
    dieMod s die (fun d => { d with
      st := if e.lockPending then .lockedErase else .erasing
      erase := some { e with lockPending := false }
      suspendAsked := false
      sinceNs := nowNs s
      endNs := nowNs s + 530000 })
  | _, _, _ => s

/-- ERASE_LOCK at the gate (R117, R121). It answers FENCE before DIE_BUSY (DESIGN CHOICE, log entry 20: the spec gives no order of the
refusals). -/
def gateLock (s : State) (die : Nat) : State :=
  let d := dieOf s die
  if fenceHeld s die then verbEnds s die 8 .fence []
  else
    let counted := count s (0x6100 + channelUnit die) 6 1
    match d.st, d.erase with
    | .erasing, some _ => verbEnds (dieMod counted die (fun d => { d with st := .lockedErase, suspendAsked := false })) die 8 .done []
    | .suspended, some e =>
      verbEnds (dieMod counted die (fun d => { d with erase := some { e with lockPending := true } })) die 8 .done []
    | .idle, _ => verbEnds s die 8 .done []
    | _, _ => verbEnds s die 8 .dieBusy []

end Sys2Proof.Machine
end

