-- ==== Sys2Proof/Machine/Flash.lean ====
section
/-!
DEFINITION. The sequencer verbs and the events of dies (chapter 5): reads and their ladders, programs and erases at the
call gate, suspension, the erase lock, the threshold tracker and its pin.
-/

namespace Sys2Proof.Machine

/-- Is a die number one of this drive. -/
def dieOk (s : State) (d : Nat) : Bool := decide (d < s.ident.dies)

/-- Do the drive's flash engines run at all: main power, clocks, and a power state that keeps them. -/
def flashRuns (s : State) : Bool := !stopped s

/-! ## Read jobs -/

/-- Is a job one of an entry, or of the entry whose child it is. -/
def jobServes (s : State) (entry : Nat) (j : ReadJob) : Bool := j.entry = entry || (entryAt s entry).bind (fun e => e.parent) = some j.entry

/-- Does a want ask for a codeword. -/
def Want.asks (w : Want) (a : FlashAddr) : Bool := w.loc = locOf a && w.cw = a.cw

/-- A codeword has come for the jobs of an entry that want it. -/
def deliver (s : State) (entry : Nat) (a : FlashAddr) (v : Nat) : State :=
  { s with flash := { s.flash with jobs := s.flash.jobs.map (fun j =>
      if jobServes s entry j then
        { j with
          wants := j.wants.filter (fun w => !w.asks a)
          got := (j.wants.filter (fun w => w.asks a)).foldl (fun t w => tput t w.place v) j.got }
      else j) } }

/-- A codeword is lost to the jobs of an entry that want it. -/
def loseCw (s : State) (entry : Nat) (a : FlashAddr) : State :=
  { s with flash := { s.flash with jobs := s.flash.jobs.map (fun j =>
      if jobServes s entry j then
        { j with
          wants := j.wants.filter (fun w => !w.asks a)
          lost := j.lost ++ (j.wants.filter (fun w => w.asks a)).map (fun w => w.place) }
      else j) } }

/-- A child read (job 0x0F or 0x13) ends with the last of its ladders (R18). -/
def endReader (s : State) (entry : Nat) : State :=
  if (isJob s entry 0x0F || isJob s entry 0x13) && !s.flash.ladders.any (fun l => l.entry = entry) then freeFamily s entry else s

/-! ## Ladders -/

/-- Take codeword `cw` out of the read that runs for an entry on its die; a read with no codeword left is cancelled. A transfer is not cut. -/
def cancelCw (s : State) (entry : Nat) (a : FlashAddr) : State :=
  dieMod s a.die (fun d => match d.read with
    | some r =>
      if r.entry = entry && samePage r.addr a && bit r.mask a.cw && !r.crossing then
        let m := clearBit r.mask a.cw
        if m = 0 then { d with read := none, st := if d.st = .sensing then .idle else d.st }
        else { d with read := some { r with mask := m } }
      else d
    | none => d)

/-- Tag that the sibling reads of one codeword share. -/
def rebuildTag (a : FlashAddr) : Nat := packAddr a / 2 ^ 12 % 2 ^ 32

/-- The sibling reads that an entry's rebuild of a codeword still has. -/
def siblingEntries (s : State) (l : Ladder) : List Nat :=
  (s.tally.entries.filter (fun p => p.2.parent = some l.entry && p.2.origin = .internal 0x08 (rebuildTag l.addr))).map
    (fun p => p.1)

/-- The dies that a read of an entry runs on. -/
def diesReading (s : State) (entry : Nat) : List Nat :=
  (s.flash.dies.filter (fun p => p.2.read.any (fun r => r.entry = entry))).map (fun p => p.1)

/-- A sibling read is given up: its sense is cancelled, its entry freed. -/
def dropSibling (s : State) (i : Nat) : State := freeFamily ((diesReading s i).foldl cancelRead s) i

/-- What a rebuild still has in hand is given up. -/
def dropRebuild (s : State) (l : Ladder) : State :=
  let s := { s with tally := { s.tally with waiting := s.tally.waiting.filter (fun r =>
    !(r.parent = some l.entry && r.origin = .internal 0x08 (rebuildTag l.addr))) } }
  (siblingEntries s l).foldl dropSibling s

/-- A codeword has been recovered as `v`: its ladder ends, and with it a rebuild or a read of it that still runs (R123). -/
def ladderDone (s : State) (l : Ladder) (v : Nat) : State :=
  let s := dropRebuild (ladderDel (cancelCw s l.entry l.addr) l.entry l.addr) l
  endReader (deliver s l.entry l.addr v) l.entry

/-- The codewords of the stripe row of an address on its other 15 dies (R124). -/
def siblings (s : State) (a : FlashAddr) : List FlashAddr := (rowMates s (locOf a)).map (fun m => addrOf m a.cw)

/-- Can the rebuild of a codeword be made now (R124): its ladder has one that has not been tried, and every other die of the row is
readable. -/
def rebuildable (s : State) (l : Ladder) : Bool :=
  !l.rebuildTried && !isSibling s l.entry && (siblings s l.addr).all (fun b => readable s b.die)

/-- Start the rebuild of a codeword (R124): 15 INTERNAL children are asked for, each on its channel. -/
def startRebuild (s : State) (l : Ladder) : State :=
  let u := 0x6100 + channelUnit l.addr.die
  let s := count s u 9 1
  let s := if l.around then count s u 4 1 else s
  let s := ladderPut s { l with rebuildLeft := some 15, rebuildTried := true }
  (siblings s l.addr).foldl (fun s b =>
    await s (childReq s l.entry (.internal 0x08 (rebuildTag l.addr)) (channelUnit b.die))) s

/-- The ladder whose rebuild a sibling read belongs to. -/
def ladderOfSibling (s : State) (child : Nat) : Option Ladder :=
  match entryAt s child with
  | some e => match e.parent, e.origin with
    | some p, .internal 0x08 tag => s.flash.ladders.find? (fun l => l.entry = p && rebuildTag l.addr = tag)
    | _, _ => none
  | none => none

/-- A sibling read has its entry: its codeword is the one on the channel that the entry names, and its ladder follows the class of the
reading entry (R124). -/
def adoptSibling (s : State) (i : Nat) : State :=
  match ladderOfSibling s i, entryAt s i with
  | some l, some e =>
    match (siblings s l.addr).find? (fun b => channelUnit b.die = e.unit) with
    | some b => ladderPut s { newLadder s i b l.slc with urgent := l.urgent }
    | none => s
  | _, _ => freeFamily s i

/-- A read that the urgent bound excludes (R125), counted once for the codeword that was asked for. -/
def noteUrgentOverrun (s : State) (l : Ladder) : State :=
  let l := (ladderOfSibling s l.entry).getD l
  if !l.urgent || l.counted then s
  else count (ladderMod s (fun ls => ls.map (fun m => if m.entry = l.entry && m.addr = l.addr then { m with counted := true } else m)))
    0x6000 0 1

/-- A sibling could not be recovered: the rebuild fails, and the wanted codeword with it unless its ladder has further steps (R123). A read
that goes around an unreadable die has none (R124). -/
def rebuildFails (s : State) (l : Ladder) (position : Nat) : State :=
  let l := { l with rebuildLeft := none, lost := l.lost ++ [position] }
  let s := dropRebuild s l
  if l.around || l.step = 10 then ladderPut s { l with st := .failed }
  else if l.st = .rebuilding then ladderPut s { l with st := .waiting, step := 3, spent := false }
  else ladderPut s l

/-- A ladder is exhausted: DECODE_FAIL goes to the ledger (R123); that of a sibling makes its rebuild fail. -/
def ladderFailed (s : State) (l : Ladder) : State :=
  if isSibling s l.entry then
    match ladderOfSibling s l.entry with
    | some p => rebuildFails s p (positionOf l.addr.die)
    | none => freeFamily s l.entry
  else ladderPut s { l with st := .failed, rebuildLeft := none }

/-- A ladder comes to its rebuild rung, where it has one and it has not been tried (R123, R124, R451). A rebuild that runs already is
waited for. -/
def toRebuild (s : State) (l : Ladder) : State :=
  let l := { l with st := .rebuilding, step := 10, spent := true }
  if l.rebuildLeft.isSome then ladderPut s l
  else if rebuildable s l then startRebuild s l
  else ladderFailed s l

/-- The rung of Table 5.8 that a step of a ladder belongs to. -/
def rungOf (urgent : Bool) (step : Nat) : Nat :=
  if urgent then (if step = 0 then 1 else if step = 1 then 2 else if step = 2 then 3 else if step ≤ 9 then 4 else 5)
  else (if step = 0 then 1 else if step ≤ 8 then 2 else if step = 9 then 3 else 4)

/-- A read of a codeword has failed at the step of its ladder (R123): the next step waits for its die. The rebuild of the urgent ladder
starts with retry step 2, which is waited for by step 3. An ERASED codeword goes straight to the rebuild (R451). -/
def ladderNext (s : State) (l : Ladder) (erased : Bool) : State :=
  if erased || decide (9 ≤ l.step) then toRebuild s l
  else if l.urgent && l.step = 1 then
    let n := { l with st := .waiting, step := 2 }
    if rebuildable s n then startRebuild s n else ladderPut s n
  else if l.urgent && l.step = 2 then
    let s := if isSibling s l.entry || l.rebuildLeft.isNone then noteUrgentOverrun s l else s
    let l := (ladderOf s l.entry l.addr).getD l
    ladderPut s (if l.rebuildLeft.isSome then { l with st := .rebuilding, spent := true } else { l with st := .waiting, step := 3 })
  else ladderPut s { l with st := .waiting, step := l.step + 1 }

/-- The wanted codeword of a rebuild is the XOR of the 15 (R124). A rebuild that its ladder came to is rung 3 or beyond (R154, R160); one
that only goes around an unreadable die is not. -/
def rebuilt (s : State) (l : Ladder) : State :=
  let s := if l.around then s else noteRung3 (refreshBand s l.addr) l.addr
  ladderDone s l (rowXor s (locOf l.addr) l.addr.cw)

/-- One codeword of a rebuild has come. -/
def siblingDone (s : State) (child : Nat) : State :=
  match ladderOfSibling s child with
  | none => freeFamily s child
  | some l =>
    let s := freeFamily s child
    match l.rebuildLeft with
    | some (n + 2) => ladderPut s { l with rebuildLeft := some (n + 1) }
    | some _ => rebuilt s { l with rebuildLeft := none }
    | none => s

/-- The outcome of one codeword of a die read; a read whose ladder has ended meanwhile tells only what the codeword was like. -/
def meetOutcome (r : DieRead) (s : State) (k : Nat) (o : DecodeResult) : State :=
  let a := { r.addr with cw := k }
  match o, (ladderOf s r.entry a).filter (fun l => l.st = .reading) with
  | .corrected n, some l =>
    let s := noteDecoded s a (rungOf l.urgent l.step) n
    if isSibling s r.entry then siblingDone s r.entry else ladderDone s l (pageCw s (locOf a) k)
  | .corrected n, none => noteDecoded s a (rungOf (classAt s r.entry = 0) r.step) n
  | .failed, some l => ladderNext s l false
  | .erased, some l => ladderNext s l true
  | _, none => s

/-! ## Which read a die takes next -/

/-- The read that a waiting ladder asks for: the codewords of its page that wait for the same step. -/
def ladderRead (s : State) (l : Ladder) : DieRead :=
  let ks := (s.flash.ladders.filter (fun m => m.entry = l.entry && m.st = .waiting && m.step = l.step && samePage m.addr l.addr)).map
    (fun m => m.addr.cw)
  ⟨{ l.addr with cw := 0 }, ks.foldl setBit 0, l.step = 9, l.step, l.slc, l.entry,
    levelsAt (levelsInUse s l.addr.die (groupOf l.addr.block)) l.step, false⟩

/-- Does R32 give a die to the first of two waiting ladders; of one entry, to the lower address. -/
def ladderBefore (s : State) (l m : Ladder) : Bool :=
  if l.entry = m.entry then decide (packAddr l.addr ≤ packAddr m.addr)
  else match entryAt s l.entry, entryAt s m.entry with
    | some a, some b => before (l.entry, a) (m.entry, b)
    | some _, none => true
    | none, _ => false

/-- The ladders that wait for a die, in the order of R32. -/
def waitingOn (s : State) (die : Nat) : List Ladder :=
  sortBy (ladderBefore s) (s.flash.ladders.filter (fun l => l.st = .waiting && l.addr.die = die))

/-- Is a die, as the plan and its amendments have placed it, open to a read of an entry: nothing is placed there, or what is placed is of
that entry, or of a higher effective class than its CLASS 0 (R71). -/
def placeAllows (s : State) (die entry : Nat) : Bool :=
  match (dieOf s die).placed with
  | none => true
  | some p => p = entry || (entryAt s entry).bind (fun e => e.parent) = some p || (classAt s entry = 0 && classAt s p ≠ 0)

/-- Start a read for a waiting ladder. -/
def startLadder (s : State) (l : Ladder) : State := startSense s (ladderRead s l)

/-- A die that can take a read begins the first that may be placed there. -/
def startNext (s : State) (die : Nat) : State :=
  if takesRead s die then
    match (waitingOn s die).find? (fun l => placeAllows s die l.entry) with
    | some l => startLadder s l
    | none => s
  else s

/-- The read of a ladder's next step follows at once on the same die (R446), where the die can take it and nothing else is placed there. -/
def continueRead (s : State) (r : DieRead) : State :=
  if takesRead s r.addr.die && placeAllows s r.addr.die r.entry then
    match (waitingOn s r.addr.die).find? (fun l => l.entry = r.entry && samePage l.addr r.addr && l.step ≠ 0) with
    | some l => startLadder s l
    | none => s
  else s

/-- The outcome that an event gives for codeword `k`; one that it does not name has failed. -/
def outcomeOf (os : List CwOutcome) (k : Nat) : DecodeResult :=
  ((os.find? (fun o => o.cw = k)).map (fun o => o.result)).getD .failed

/-- Corrected bits of an outcome. -/
def bitsOf : DecodeResult → Nat
  | .corrected n => n
  | _ => 0

/-! ## The verbs -/

/-- READ (R116, R123, R127, Table 5.5). -/
def execRead (a : FlashAddr) (mask : Nat) (level : LevelSource) (slc : Bool) (index : Nat) (s : State) :
    Host.Outcome State Fault Refusal :=
  let a := { a with cw := 0 }
  let base := levelsInUse s a.die (groupOf a.block)
  if !flashRuns s then .next s else
  match level with
  | .tracker => .next (gateRead s 1 ⟨a, mask, false, 0, slc, index, base, false⟩)
  | .pin => .next (gateRead s 1 ⟨a, mask, false, 0, slc, index, pinnedLevels s, false⟩)
  | .retry n =>
    if n = 0 ∨ 8 < n then .next (verbEnds s a.die 1 .badArg [])
    else .next (gateRead s 1 ⟨a, mask, false, n, slc, index, levelsAt base n, false⟩)

/-- READ_SOFT (R116, R123, Table 5.5). -/
def execReadSoft (a : FlashAddr) (mask : Nat) (slc : Bool) (index : Nat) (s : State) :
    Host.Outcome State Fault Refusal :=
  let a := { a with cw := 0 }
  if !flashRuns s then .next s
  else .next (gateRead s 2 ⟨a, mask, true, 9, slc, index, levelsInUse s a.die (groupOf a.block), false⟩)

/-- READ_CANCEL (R69, R116, Table 5.6): the sense ends, and the READ ends CANCELLED. A read whose transfer has begun is not cut: DIE_BUSY
(DESIGN CHOICE, log entry 20). -/
def execReadCancel (die : Nat) (s : State) : Host.Outcome State Fault Refusal :=
  if !flashRuns s then .next s
  else if !dieOk s die then .next (verbEnds s die 3 .badArg [])
  else if channelInReset s die then .next (verbEnds s die 3 .dieBusy [])
  else
    let d := dieOf s die
    if !(d.st = .sensing || d.st = .suspended || d.st = .idle) || d.read.any (fun r => r.crossing) then .next (verbEnds s die 3 .dieBusy [])
    else .next (verbEnds (cancelRead s die) die 3 .done [])

/-- PROGRAM (R116 to R118, R448, R449). -/
def execProgram (die block wl : Nat) (slc : Bool) (pages : List SourcePage) (s : State) :
    Host.Outcome State Fault Refusal :=
  if !flashRuns s then .next s else .next (gateProgram s die block wl slc pages)

/-- ERASE (R116, R118). -/
def execErase (die block : Nat) (slc : Bool) (s : State) : Host.Outcome State Fault Refusal :=
  if !flashRuns s then .next s else .next (gateErase s die block slc)

/-- ERASE_SUSPEND (R120, Table 5.5): suspension is asked for and its result comes when it completes; DONE where no erase
runs. -/
def execEraseSuspend (die : Nat) (s : State) : Host.Outcome State Fault Refusal :=
  if !flashRuns s then .next s
  else if !dieOk s die then .next (verbEnds s die 6 .badArg [])
  else if channelInReset s die then .next (verbEnds s die 6 .dieBusy [])
  else match (dieOf s die).st with
    | .erasing => .next (dieMod s die (fun d => { d with suspendAsked := true }))
    | .idle => .next (verbEnds s die 6 .done [])
    | _ => .next (verbEnds s die 6 .dieBusy [])

/-- ERASE_RESUME (R120, R121): the suspended segment goes on; a die that still runs a read refuses it. -/
def execEraseResume (die : Nat) (s : State) : Host.Outcome State Fault Refusal :=
  if !flashRuns s then .next s
  else if !dieOk s die then .next (verbEnds s die 7 .badArg [])
  else if channelInReset s die then .next (verbEnds s die 7 .dieBusy [])
  else
    let d := dieOf s die
    match d.st, d.read with
    | .suspended, none => .next (verbEnds (resumeErase s die) die 7 .done [])
    | .idle, _ => .next (verbEnds s die 7 .done [])
    | _, _ => .next (verbEnds s die 7 .dieBusy [])

/-- ERASE_LOCK (R117, R121). -/
def execEraseLock (die : Nat) (s : State) : Host.Outcome State Fault Refusal :=
  if !flashRuns s then .next s
  else if !dieOk s die then .next (verbEnds s die 8 .badArg [])
  else if channelInReset s die then .next (verbEnds s die 8 .dieBusy [])
  else .next (gateLock s die)

/-- SET_LEVELS (R126): seven offsets for a group of 64 blocks. -/
def execSetLevels (die group : Nat) (offsets : List Int) (s : State) : Host.Outcome State Fault Refusal :=
  if !flashRuns s then .next s
  else if !dieOk s die || !decide (group < 29) || offsets.length ≠ 7 then .next (verbEnds s die 9 .badArg [])
  else if (dieOf s die).st ≠ .idle || channelInReset s die then .next (verbEnds s die 9 .dieBusy [])
  else .next (verbEnds { s with flash := { s.flash with levels := tput s.flash.levels (die * 32 + group) offsets } }
    die 9 .done [])

/-- SENSE_VALLEY (R126): the bit counts around one read level. -/
def execSenseValley (a : FlashAddr) (level : Nat) (sweep counts : List Int) (s : State) :
    Host.Outcome State Fault Refusal :=
  let d := dieOf s a.die
  if !flashRuns s then .next s
  else if !addrOk s a false || level = 0 || decide (7 < level) || sweep.length ≠ 16 then .next (verbEnds s a.die 10 .badArg [])
  else if channelInReset s a.die || !(d.st = .idle || (d.st = .suspended && d.read.isNone && readable s a.die)) then
    .next (verbEnds s a.die 10 .dieBusy [])
  else .next (verbEnds s a.die 10 .done ((List.range 16).map (fun i => (counts.getD i 0).toNat)))

/-- Number of a die state, in the order of Table 5.6. -/
def DieSt.code : DieSt → Nat
  | .idle => 0 | .sensing => 1 | .programming => 2 | .erasing => 3 | .suspended => 4 | .lockedErase => 5

/-- DIE_STATUS (Table 5.5). -/
def execDieStatus (die : Nat) (s : State) : Host.Outcome State Fault Refusal :=
  if !flashRuns s then .next s
  else if !dieOk s die then .next (verbEnds s die 11 .badArg [])
  else .next (verbEnds s die 11 .done [(dieOf s die).st.code])

/-- End whatever runs on a die (DIE_RESET): the word line of a program is abandoned and its data waits for programming again, an erase is
over, and a read ends without a result, its codewords waiting again. What has been accepted and not begun stays. -/
def clearDie (s : State) (die : Nat) : State :=
  let d := dieOf s die
  let s := match d.program with
    | some p => freeFamily (abandonLine s die p) p.entry
    | none => s
  let s := if d.erase.isSome then endDieJob s 0x0A die else s
  let s := match d.read with
    | some r => ladderMod s (fun ls => ls.map (fun l => if readTakes r l && l.st = .reading then { l with st := .waiting } else l))
    | none => s
  dieMod s die (fun d => { Die.reset with
    pending := d.pending, placed := d.placed, plan := d.plan, trackedBell := d.trackedBell, sinceNs := nowNs s, endNs := nowNs s })

/-- DIE_RESET (Table 5.5): DONE, or DIE_TIMEOUT where the die does not answer. -/
def execDieReset (die : Nat) (ended : Bool) (s : State) : Host.Outcome State Fault Refusal :=
  if !flashRuns s then .next s
  else if !dieOk s die then .next (verbEnds s die 12 .badArg [])
  else if ended then .next (verbEnds (clearDie s die) die 12 .done [])
  else .next (verbEnds (verbFailed s (channelUnit die) 12 .dieTimeout ⟨die, 0, 0, 0, 0⟩) die 12 .dieTimeout [])

/-- CHANNEL_TRAIN (Table 5.5). -/
def execChannelTrain (channel : Nat) (trained : Bool) (s : State) : Host.Outcome State Fault Refusal :=
  let t := s.flash.trained.filter (fun c => c ≠ channel)
  if !flashRuns s then .next s
  else if 32 ≤ channel then .next (verbEnds s channel 13 .badArg [])
  else if (unitOf s (200 + channel)).state = .reset
      || s.flash.dies.any (fun p => p.1 % 32 = channel && p.2.st ≠ .idle) then .next (verbEnds s channel 13 .dieBusy [])
  else if trained then .next (verbEnds { s with flash := { s.flash with trained := t ++ [channel] } } channel 13 .done [])
  else .next (verbEnds (verbFailed { s with flash := { s.flash with trained := t } } (200 + channel) 13 .trainFail
    ⟨channel, 0, 0, 0, 0⟩) channel 13 .trainFail [])

/-- READ_PARAMS (Table 5.5): the die's parameter page, 256 bytes long as ONFI lays it out. -/
def execReadParams (die : Nat) (s : State) : Host.Outcome State Fault Refusal :=
  if !flashRuns s then .next s
  else if !dieOk s die then .next (verbEnds s die 14 .badArg [])
  else if (dieOf s die).st ≠ .idle || channelInReset s die then .next (verbEnds s die 14 .dieBusy [])
  else .next (verbEnds s die 14 .done ((List.range 256).map (fun i => Config.paramByte die i % 256)))

/-! ## Events of dies -/

/-- The verb result of a die read. -/
def readResult (os : List DecodeResult) : VerbResult :=
  if os.any (fun o => o = .failed) then .decodeFail else if os.any (fun o => o = .erased) then .erased else .done

/-- DIE_READ_COMPLETE (R446, R123): the read ends, each codeword meets its outcome, and the next step of a ladder follows on the die. -/
def execDieReadComplete (die : Nat) (outcomes : List CwOutcome) (s : State) : Host.Outcome State Fault Refusal :=
  if !flashRuns s then .next s else
  match (dieOf s die).read with
  | none => .next s
  | some r =>
    let ks := maskBits r.mask
    let os := ks.map (outcomeOf outcomes)
    let s := dieMod s die (fun d => { d with st := if d.st = .sensing then .idle else d.st, read := none, endNs := nowNs s })
    let s := entryMod s r.entry (fun e => if e.state = .running then { e with state := .waiting } else e)
    let failedMask := (ks.filter (fun k => outcomeOf outcomes k = .failed)).foldl setBit 0
    let res := readResult os
    let s := verbEnds s die (if r.soft then 2 else 1) res
      (match res with | .done => os.map bitsOf | .decodeFail => [failedMask] | _ => [])
    let s := ks.foldl (fun s k => meetOutcome r s k (outcomeOf outcomes k)) s
    .next (continueRead (taskEnds s (channelUnit die)) r)

/-- ERASE_SUSPENDED (R120, R121): the die is SUSPENDED, the suspension is counted, the verb ends SUSPENDED with the segment reached, and the
reads placed on the die begin. -/
def execEraseSuspended (stop : EraseStop) (s : State) : Host.Outcome State Fault Refusal :=
  let die := stop.die
  let d := dieOf s die
  match d.st, d.erase with
  | .erasing, some e =>
    if !flashRuns s || !d.suspendAsked then .next s
    else
      let seg := max e.segment (min 10 stop.segment)
      let s := dieMod s die (fun d => { d with
        st := .suspended, suspendAsked := false, endNs := nowNs s
        erase := some { e with suspensions := e.suspensions + 1, segment := seg, spentNs := e.spentNs + (nowNs s - d.sinceNs) } })
      .next (startNext (verbEnds (count s (0x6100 + channelUnit die) 5 1) die 6 .suspended [seg]) die)
  | _, _ => .next s

/-- Maximum of a read in ns (Table 5.4). -/
def readMaxNs (r : DieRead) : Nat := if r.soft then 74000 else if 1 ≤ r.step then 20000 else if r.slc then 30000 else 45000

/-- The operation on a die: the verb that runs it, its maximum (Table 5.4), and how long it has run, in ns. The whole of an erase counts,
without the time for which it was suspended; tPROG begins with the last page transfer (R449). -/
def operation (s : State) (d : Die) : Option (Nat × Nat × Nat) :=
  let t := nowNs s - d.sinceNs
  match d.read, d.program, d.erase with
  | some r, _, _ => some (if r.soft then 2 else 1, readMaxNs r, t)
  | none, some p, _ => if p.crossed < p.pages.length then none else some (4, if p.slc then 300000 else 900000, t)
  | none, none, some e => if d.st = .suspended then none else some (5, 5500000, e.spentNs + t)
  | none, none, none => none

/-- DIE_TIMEOUT (R115): a die busy for more than twice the maximum of its operation is reset and the verb ends DIE_TIMEOUT. A codeword
whose read it was has failed at that step of its ladder. -/
def execDieTimeout (die : Nat) (s : State) : Host.Outcome State Fault Refusal :=
  let d := dieOf s die
  match operation s d with
  | none => .next s
  | some (verb, most, t) =>
    if !flashRuns s || decide (t ≤ 2 * most) then .next s
    else
      let a : FlashAddr := (d.read.map (fun r => r.addr)).getD
        ⟨die, 0, (d.program.map (fun p => p.block)).getD ((d.erase.map (fun e => e.block)).getD 0), 0, 0⟩
      let s := match d.read with
        | none => s
        | some r => (maskBits r.mask).foldl (fun s k => meetOutcome r s k .failed) s
      .next (verbEnds (verbFailed (clearDie s die) (channelUnit die) verb .dieTimeout a) die verb .dieTimeout [])

/-! ## The threshold tracker -/

/-- The offsets that the tracker keeps for a group (R126, R127): what it proposed last, else the levels loaded. -/
def trackerOffsets (s : State) (k : Nat) : List Int :=
  let loaded := tgetD s.flash.levels k [0, 0, 0, 0, 0, 0, 0]
  if odVal s 0x2210 0 = 1 then tgetD s.flash.proposals k loaded else loaded

/-- One step of at most ±2 towards a valley minimum (R126). -/
def moveOffset (now target : Int) : Int := now + max (-2) (min 2 (target - now))

/-- The first tracker proposal that differs from the pinned table by OD 0x2213 steps or more: die, level, both offsets. -/
def divergence (s : State) : Option (Nat × Nat × Int × Int) :=
  (s.flash.proposals.flatMap (fun p => (List.range 7).filterMap (fun l =>
    let pin := toInt 8 (odVal s 0x2211 (l + 1))
    let prop := p.2.getD l 0
    if odVal s 0x2213 0 ≤ (prop - pin).natAbs then some (p.1 / 32, l + 1, pin, prop) else none))).head?

/-- The record of R128, once after each write of the pin or the pinned table. -/
def checkDivergence (s : State) : State :=
  if odVal s 0x2210 0 ≠ 1 || !s.flash.pinRecordArmed then s
  else match divergence s with
    | none => s
    | some (die, level, pin, prop) =>
      raiseRecord { s with flash := { s.flash with pinRecordArmed := false } } { Record.of 0x0502 with
        winner := s.flash.pinWriter, loser := 6
        a := die % 256 + 2 ^ 8 * (die / 256) + 2 ^ 16 * level + 2 ^ 24 * ofInt 8 pin + 2 ^ 32 * ofInt 8 prop }

/-- Tag of a tracker run. -/
def trackerTag (die group : Nat) : Nat := die * 32 + group

/-- Is a run of the tracker due on a group (R126): a full window of it was above 60 % of the limit, or the interval of its die has passed. A
periodic run covers one group of the die; which one is the sender's choice, and any run of a die begins its interval again (DESIGN CHOICE,
log entry 20). -/
def trackerDue (s : State) (die group : Nat) : Bool :=
  decide ((dieOf s die).trackedBell + odVal s 0x2212 0 ≤ s.bell.ticks) || s.flash.hot.contains (trackerTag die group)

/-- The entry of a run of the tracker. -/
def trackerEntry (s : State) (die group : Nat) : Option Nat :=
  (s.tally.entries.find? (fun p => p.2.origin = .internal 0x07 (trackerTag die group))).map (fun p => p.1)

/-- Does a run of the tracker wait for its entry. -/
def trackerWaits (s : State) (die group : Nat) : Bool :=
  s.tally.waiting.any (fun r => r.origin = .internal 0x07 (trackerTag die group))

/-- May the tracker's sense work run on a die: it is IDLE, and no read or accepted operation waits for it (R126). -/
def trackerMayRun (s : State) (die : Nat) : Bool :=
  let d := dieOf s die
  d.st = .idle && d.pending.isNone && !channelInReset s die && !s.flash.ladders.any (fun l => l.st = .waiting && l.addr.die = die)

/-- TRACKER_RUN (R126, R127, R128): a run that is due first asks for its INTERNAL entry, of CLASS 3 (DESIGN CHOICE, log entry 20). With it,
where no other work wants the die, each offset moves towards its valley by at most 2 steps; the result is loaded, or only proposed while
the table is pinned. -/
def execTrackerRun (die group : Nat) (minima : List Int) (s : State) : Host.Outcome State Fault Refusal :=
  if !flashRuns s || !dieOk s die || !decide (group < 29) then .next s else
  match trackerEntry s die group with
  | none =>
    if trackerWaits s die group || !trackerDue s die group then .next s
    else .next (await s (jobReq 0x07 (trackerTag die group) 3 (channelUnit die)))
  | some i =>
    if !trackerMayRun s die then .next s
    else
      let k := trackerTag die group
      let old := trackerOffsets s k
      let new := (List.range 7).map (fun l => moveOffset (old.getD l 0) (minima.getD l (old.getD l 0)))
      let f := s.flash
      let s := { s with flash := { f with
        proposals := tput f.proposals k new
        levels := if odVal s 0x2210 0 = 1 then f.levels else tput f.levels k new
        meanBits := tput f.meanBits k (0, 0)
        hot := f.hot.filter (fun x => x ≠ k) } }
      .next (checkDivergence (dieMod (freeFamily s i) die (fun d => { d with trackedBell := s.bell.ticks })))

end Sys2Proof.Machine
end

