-- ==== Sys2Proof/Machine/LedgerOps.lean ====
section
/-!
DEFINITION. Operations of the ledger (chapter 6): write staging against credit, open bands, what a finished program or
erase does to the map, retirement, poisoning, and the keys and extents of namespaces.
-/

namespace Sys2Proof.Machine

/-! ## Checks of host commands -/

/-- Is the ledger processor of one of these IUs in RESET (R132, R362). -/
def ledgerDown (s : State) (ius : List Nat) : Bool := ius.any (fun iu => (unitOf s (1 + iu % 4)).state = .reset)

/-- Count one map lookup for each IU (Table 16.9). -/
def countLookups (s : State) (ius : List Nat) : State := ius.foldl (fun s iu => count s (0x6101 + iu % 4) 4 1) s

/-- The IUs of a list of data units, once each, in order. -/
def iusOf (ns : Namespace) (units : List Nat) : List Nat := ((units.map (fun u => u / 4)).dedup).map (nsIu ns)

/-- What is wrong with an LBA range, if anything: no namespace, outside it, or above 2 MiB (Table 4.3). -/
def rangeError (s : State) (nsid slba nlb : Nat) : Option Status :=
  match nsOf s nsid with
  | none => some .invalidNamespace
  | some ns =>
    if ns.nsze < slba + nlb then some .lbaOutOfRange
    else if 2097152 < nlb * lbaSize ns.lbaf then some .invalidField
    else none

/-! ## Reading -/

/-- Is the page at a location served from DRAM (R119). -/
def inOpenRow (s : State) (loc : Nat) : Bool := s.ledger.openRows.contains loc

/-- The value of a data unit: zeros where it is not mapped (R139). -/
def unitValue (s : State) (ns : Namespace) (u : Nat) : Nat :=
  let p := unitPlace ns u
  let e := mapAt s p.1
  if e.mapped then pageCw s e.loc p.2 else 0

/-- Is a data unit poisoned (R162). -/
def unitPoisoned (s : State) (ns : Namespace) (u : Nat) : Bool :=
  let p := unitPlace ns u
  bit (mapAt s p.1).poison p.2

/-- Where a codeword that is to be read stands: at hand, on a flash page, or lost to POISON (R162). -/
inductive Spot where
  | value (v : Nat)
  | flash (loc cw : Nat)
  | lost
  deriving DecidableEq, Repr

/-- A codeword of a flash page that the map points to: from DRAM where its row is open (R119). -/
def pageSpot (s : State) (loc cw : Nat) : Spot := if inOpenRow s loc then .value (pageCw s loc cw) else .flash loc cw

/-- Codeword `cw` of an IU: zeros where it is not mapped (R139). -/
def iuSpot (s : State) (iu cw : Nat) : Spot :=
  let e := mapAt s iu
  if bit e.poison cw then .lost else if e.mapped then pageSpot s e.loc cw else .value 0

/-- A data unit of a namespace (R133). -/
def unitSpot (s : State) (ns : Namespace) (u : Nat) : Spot := iuSpot s (unitPlace ns u).1 (unitPlace ns u).2

/-- A read job with its codewords as they stand: what is at hand or lost is settled at once. -/
def jobFor (entry : Nat) (use : ReadUse) (nsid : Nat) (units : List Nat) (spots : List Spot) : ReadJob :=
  let at_ := spots.zipIdx
  { entry := entry
    use := use
    nsid := nsid
    units := units
    wants := at_.filterMap (fun x => match x.1 with | .flash l c => some ⟨x.2, l, c⟩ | _ => none)
    pages := (spots.filterMap (fun x => match x with | .flash l _ => some l | _ => none)).dedup
    got := at_.foldl (fun t x => match x.1 with | .value v => tput t x.2 v | _ => t) []
    lost := at_.filterMap (fun x => match x.1 with | .lost => some x.2 | _ => none) }

/-- Is the block of a location used in SLC mode. -/
def slcAt (s : State) (loc : Nat) : Bool := decide (bandOfLoc s loc % 2048 < 8)

/-- The INTERNAL job of the children of a read (Table 16.7). -/
def ReadUse.job : ReadUse → Nat
  | .mount _ => 0x13
  | _ => 0x0F

/-- Is a read one whose pages are always read by children (R227, R249, R256). -/
def ReadUse.byChildren : ReadUse → Bool
  | .staged _ => true
  | .load _ => true
  | .mount _ => true
  | _ => false

/-- Start a read of flash for an entry (R18, R447). Where it needs one page and the entry has no other read, the entry reads it itself;
otherwise, and for the reads that the spec gives children, every page gets a child, which the planner asks for as it places the read. -/
def addJob (s : State) (j : ReadJob) : State :=
  let alone := !j.use.byChildren && !s.flash.jobs.any (fun x => x.entry = j.entry)
  let put (s : State) (j : ReadJob) : State := { s with flash := { s.flash with jobs := s.flash.jobs ++ [j] } }
  match j.pages with
  | [loc] =>
    if alone then addLadders (put s { j with pages := [] }) j.entry (addrOf loc 0) (slcAt s loc) (j.wants.map (fun w => w.cw))
    else put s j
  | _ => put s j

/-- A child read (job 0x0F or 0x13) has its entry: it reads the page of its job whose number it bears. -/
def adoptPage (s : State) (i loc : Nat) : State :=
  match (entryAt s i).bind (fun e => e.parent) with
  | none => freeFamily s i
  | some p =>
    let cws := ((s.flash.jobs.filter (fun j => j.entry = p)).flatMap (fun j => j.wants.filter (fun w => w.loc = loc))).map (fun w => w.cw)
    if cws = [] then freeFamily s i else addLadders s i (addrOf loc 0) (slcAt s loc) cws.dedup

/-- A read job has ended. -/
def dropRead (s : State) (j : ReadJob) : State := { s with flash := { s.flash with jobs := s.flash.jobs.filter (fun x => x ≠ j) } }

/-- The codeword that a read job has at a place. -/
def ReadJob.value (j : ReadJob) (k : Nat) : Nat := tgetD j.got k 0

/-- Bytes of a codeword. -/
def cwBytes (v : Nat) : Bytes := leBytes 4096 v

/-- The bytes that a read job has brought, where nothing is lost. -/
def ReadJob.bytes (j : ReadJob) : Bytes := (List.range j.units.length).flatMap (fun k => cwBytes (j.value k))

/-- The status of a read that its codewords give (R162). -/
def ReadJob.status (j : ReadJob) : Status := if j.lost = [] then .success else .unrecoveredRead

/-- A read of the data units of a namespace for an entry: its lookups are counted, and it is one of the ledger processor of its first IU
until a channel serves it (R132). -/
def readUnits (s : State) (entry : Nat) (use : ReadUse) (nsid : Nat) (ns : Namespace) (units : List Nat) : State :=
  addJob (countLookups s (iusOf ns units)) (jobFor entry use nsid units (units.map (unitSpot s ns)))

/-- An entry of the host or of a peer belongs to the ledger processor of its first IU (R132). -/
def toLedger (s : State) (entry : Nat) (ius : List Nat) : State :=
  match ius.head? with
  | none => s
  | some iu => entryMod s entry (fun e => { e with unit := 1 + iu % 4, epoch := (unitOf s (1 + iu % 4)).epoch })

/-! ## Open bands -/

/-- Open bands that take host data. -/
def openHostBands (s : State) : List (Nat × Band) := s.ledger.bands.filter (fun p => p.2.st = .open && p.2.handle.isSome)

/-- Open host bands at most (Table 6.3). -/
def openLimit (s : State) : Nat := if s.ident.dies = 256 then 64 else 32

/-- A band is filled up to the end of its current word-line group, so that every row of it gets its parity, and is then parked or closed
(R144, R145). At the end of a group it is so at once. -/
def padBand (s : State) (k : Nat) (dest : BandSt) : State :=
  bandMod s k (fun b =>
    if b.st ≠ .open then { b with st := dest }
    else if b.pagesWritten % 16 = 0 then { b with st := dest, fillTo := none }
    else { b with fillTo := some dest })

/-- Park the open host band written least recently (R144), unless it is on its way already. -/
def parkOldest (s : State) : State :=
  match (sortBy (fun (a b : Nat × Band) => decide (a.2.lastWrite ≤ b.2.lastWrite)) (openHostBands s)).find? (fun p => p.2.fillTo.isNone) with
  | none => s
  | some (k, _) => count (padBand s k .parked) 0x6005 0 1

/-- Program one more word line of the group that a band is filled to (R144, R145): filler on a data position, parity once the 15 data
positions are programmed. -/
def fillNext (s : State) (k : Nat) : State :=
  let b := bandOf s k
  if b.fillTo.isNone then s
  else
    let due (p : Nat) : Bool :=
      !lineWritten s k p && slotOpen s (dieAt (k / 2048) p) && (!onParity s k p || parityDue s k p)
    match (List.range 16).find? due with
    | none => s
    | some p => gateProgram s (dieAt (k / 2048) p) (dieBlock s k p) (currentLine b) false (List.replicate 12 .filler)

/-- Every band that is being filled (R144). -/
def fillBands (s : State) : State := ((s.ledger.bands.filter (fun p => p.2.fillTo.isSome)).map (fun p => p.1)).foldl fillNext s

/-- The free data band of a group with the lowest mean erase count, the lowest key in ties (R150). -/
def freeBandOf (s : State) (g : Nat) : Option Nat :=
  let n := stripesPerRg s
  let keys := (List.range n).flatMap (fun i => (List.range 1824).map (fun b => bandKey (g * n + i) (b + 8)))
  match keys.find? (fun k => (tget s.ledger.bands k).isNone) with
  | some k => some k
  | none => ((sortBy (fun (a b : Nat × Band) => decide (a.2.erases ≤ b.2.erases))
      ((bandsOfRg s g).filter (fun p => p.2.st = .free))).head?).map (fun p => p.1)

/-- The band of a (handle, group) pair that is open or parked, and is not about to be closed. -/
def bandOfPair (s : State) (handle g : Nat) : Option (Nat × Band) :=
  (bandsOfRg s g).find? (fun p => p.2.handle = some handle && (p.2.st = .open || p.2.st = .parked) && p.2.fillTo ≠ some .closed)

/-- Make the band of a pair open (R144): a parked one opens again, else a free one is taken. At the limit the open band written least
recently is parked first, and the pair waits until it is. Unchanged where no band is free. -/
def openPair (s : State) (handle g : Nat) : State :=
  let go (k : Nat) : State :=
    let s := if openLimit s ≤ (openHostBands s).length then parkOldest s else s
    if openLimit s ≤ (openHostBands s).length then s
    else noteSlots (bandMod s k (fun b => { b with st := .open, handle := some handle, lastWrite := s.bell.ticks }))
  match bandOfPair s handle g with
  | some (k, b) => if b.st = .open then s else go k
  | none => match freeBandOf s g with
    | some k => go k
    | none => s

/-! ## Write staging -/

/-- The group with the most free bands, the lowest number in ties (R143). -/
def widestGroup (s : State) : Nat :=
  (List.range 8).foldl (fun b g => if freeBands s b < freeBands s g then g else b) 0

/-- The pair that a write goes to (R141, R143): its placement identifier's, else handle 0 in the widest group. The event
Invalid Placement Identifier (NVMe type 0x03) is logged for a handle above 63. -/
def placementOf (s : State) (pid : Option Nat) : Nat × Nat × State :=
  match pid with
  | some v =>
    if !s.ledger.fdp then (0, widestGroup s, s)
    else if v % 8192 ≤ 63 then (v % 8192, v / 8192 % 8, s)
    else (0, widestGroup s, fdpEvent s 3 (v % 8192) (v / 8192 % 8))
  | none => (0, widestGroup s, s)

/-- Metadata of a codeword that a write brings (R131): its owner, its LBA, and the place of the write in the order of dispatch. -/
def cwMeta (s : State) (seq iu cw : Nat) : CwMeta :=
  match ownerOf s iu with
  | some (n, ns, k) => ⟨n, if ns.lbaf = 0 then 4 * k + cw else k, seq⟩
  | none => ⟨0, 0, seq⟩

/-- A page as far as a write knows it: codewords, metadata, POISON bits. -/
structure PageParts where
  cws : List Nat
  info : List CwMeta
  poison : Nat
  deriving DecidableEq, Repr

/-- The latest staged copy of an IU (R135). -/
def stagedCopy (s : State) (iu : Nat) : Option PageParts :=
  ((sortBy (fun (a b : Staged) => decide (b.seq ≤ a.seq)) (s.ledger.staged.filter (fun g => g.iu = iu))).head?).map
    (fun g => ⟨g.cws, g.info, g.poison⟩)

/-- The new page of an IU (R134): the written codewords, the old ones that are not poisoned, and the POISON bits that stay. -/
def mergePage (s : State) (seq iu : Nat) (cws : List Nat) (mask : Nat) (old : PageParts) : PageParts where
  cws := (List.range 4).map (fun k => if bit mask k then cws.getD k 0 else if bit old.poison k then 0 else old.cws.getD k 0)
  info := (List.range 4).map (fun k => if bit mask k then cwMeta s seq iu k else old.info.getD k ⟨0, 0, 0⟩)
  poison := ((List.range 4).filter (fun k => !bit mask k && bit old.poison k)).foldl setBit 0

/-- The old codewords that a merge needs and has to read (R134): those that are not written, mapped, and not poisoned. -/
def mergeSpots (s : State) (iu mask : Nat) : List Spot :=
  (List.range 4).map (fun k => if bit mask k || bit (mapAt s iu).poison k then .value 0 else iuSpot s iu k)

/-- Metadata of the page that a map entry points to. -/
def oldInfo (s : State) (e : MapEntry) : List CwMeta := if e.mapped then ((tget s.flash.pages e.loc).map (fun p => p.info)).getD [] else []

/-- The merge read of an IU for a write. -/
def mergeJob (s : State) (entry iu : Nat) : Option ReadJob := s.flash.jobs.find? (fun j => j.entry = entry && j.use = .merge iu)

/-- What becomes of an IU that a write has to stage: the old page is known, it is being read, or its read must be started. -/
inductive OldPage where
  | known (p : PageParts)
  | reading
  | unread
  deriving DecidableEq, Repr

/-- The old page of an IU as a merge has it (R134, R135): a staged copy, else what its read has brought. -/
def oldPage (s : State) (entry iu mask : Nat) : OldPage :=
  let e := mapAt s iu
  if mask = 15 then .known ⟨[], [], 0⟩
  else match stagedCopy s iu with
    | some p => .known p
    | none => match mergeJob s entry iu with
      | some j =>
        if j.wants ≠ [] then .reading
        else .known ⟨(List.range 4).map j.value, oldInfo s e, j.lost.foldl setBit e.poison⟩
      | none =>
        let spots := mergeSpots s iu mask
        if spots.any (fun x => match x with | .flash _ _ => true | _ => false) then .unread
        else .known ⟨spots.map (fun x => match x with | .value v => v | _ => 0), oldInfo s e, e.poison⟩

/-- Does an earlier write still have to stage the same IU (R135). -/
def earlierWaits (s : State) (w : WriteJob) (iu : Nat) : Bool :=
  s.ledger.writes.any (fun v => decide (v.seq < w.seq) && v.waiting.any (fun x => x.1 = iu))

/-- IUs in write staging at most (R147: 256 MiB). -/
def stagingIus : Nat := 16384

/-- Put an IU of a write into write staging (R136, R147): it spends one credit of its group. -/
def putStaged (s : State) (w : WriteJob) (iu mask : Nat) (rest : List (Nat × List Nat × Nat)) (page : PageParts) : State :=
  let gen := ((nsOf s w.nsid).map (fun n => n.gen)).getD 0
  let s := if mask = 15 then s else count s 0x6002 0 1
  let s := match mergeJob s w.entry iu with
    | some j => dropRead s j
    | none => s
  let s := { s with ledger := { s.ledger with
    groups := tput s.ledger.groups w.rg ⟨creditOf s w.rg - 1⟩
    staged := s.ledger.staged ++ [⟨iu, page.cws, page.info, page.poison, w.entry, w.nsid, gen, w.handle, w.rg, w.seq, none⟩]
    writes := s.ledger.writes.map (fun v => if v = w then { v with waiting := rest } else v) } }
  if rest = [] then setRunning s w.entry else s

/-- Stage the next IU of a write, where its group has credit, write staging has room, and no earlier write of the IU waits (R135, R136,
R147). The old codewords of a merge are read first, at the write's class (R134). -/
def stageNext (s : State) (entry : Nat) : Option State :=
  match s.ledger.writes.find? (fun w => w.entry = entry && w.waiting ≠ []) with
  | none => none
  | some w => match w.waiting with
    | [] => none
    | (iu, cws, mask) :: rest =>
      if earlierWaits s w iu || creditOf s w.rg < 1 || decide (stagingIus ≤ s.ledger.staged.length) then none
      else match oldPage s entry iu mask with
        | .reading => none
        | .known p => some (putStaged s w iu mask rest (mergePage s w.seq iu cws mask p))
        | .unread => some (addJob s (jobFor entry (.merge iu) w.nsid [] (mergeSpots s iu mask)))

/-- Stage as many IUs of a write as credit and room allow. -/
def stageWrite (s : State) (entry : Nat) : Nat → State
  | 0 => s
  | n + 1 => match stageNext s entry with
    | some t => stageWrite t entry n
    | none => s

/-- The waiting writes in the order of R32 (R147). -/
def writeOrder (s : State) : List Nat :=
  (sortBy before (s.tally.entries.filter (fun p => s.ledger.writes.any (fun w => w.entry = p.1)))).map (fun p => p.1)

/-- Open a band for every pair that staged IUs wait for (R144). -/
def openForStaged (s : State) : State :=
  (((s.ledger.staged.filter (fun g => g.placed.isNone)).map (fun g => (g.handle, g.rg))).dedup).foldl
    (fun s p => openPair s p.1 p.2) s

/-- Let the waiting writes into write staging, and open the bands that they need (R144, R147). An IU whose old page is being read keeps
those after it in its write waiting. -/
def stageAll (s : State) : State :=
  if s.ledger.writes = [] && s.ledger.staged = [] then s
  else
    let s := (writeOrder s).foldl (fun s i =>
      stageWrite s i (((s.ledger.writes.filter (fun w => w.entry = i)).map (fun w => w.waiting.length + 1)).sum)) s
    openForStaged s

/-- Have all IUs of a write been programmed and mapped (R136). -/
def jobDone (s : State) (entry : Nat) : Bool :=
  s.ledger.writes.any (fun w => w.entry = entry) && (s.ledger.writes.filter (fun w => w.entry = entry)).all (fun w => w.waiting = []) &&
  !s.ledger.staged.any (fun g => g.entry = entry)

/-- Forget a write job. -/
def dropJob (s : State) (entry : Nat) : State :=
  { s with ledger := { s.ledger with writes := s.ledger.writes.filter (fun w => w.entry ≠ entry) } }

/-- The IUs of a write: for each IU of the range its new codewords and the mask that the write covers. -/
def writeIus (ns : Namespace) (units : List Nat) (data : List Nat) : List (Nat × List Nat × Nat) :=
  ((units.map (fun u => u / 4)).dedup).map (fun n =>
    let has (k : Nat) : Bool := units.contains (4 * n + k)
    (nsIu ns n,
     (List.range 4).map (fun k => if has k then data.getD (4 * n + k - units.headD 0) 0 % 2 ^ 32768 else 0),
     ((List.range 4).filter has).foldl setBit 0))

/-- A new write job: units and their data for an entry (R136, R143). -/
def startWrite (s : State) (entry nsid : Nat) (ns : Namespace) (units data : List Nat) (pid : Option Nat) : State :=
  let p := placementOf s pid
  let ius := writeIus ns units data
  let s := countLookups p.2.2 (ius.map (fun x => x.1))
  stageAll { s with ledger := { s.ledger with
    writeNo := s.ledger.writeNo + 1
    writes := s.ledger.writes ++ [⟨entry, p.1, p.2.1, nsid, s.ledger.writeNo + 1, ius⟩] } }

/-! ## Programs that end -/

/-- A program has failed (R152): its data and that of the band's unfinished word-line groups wait for another band of the same pair, the
band is closed and reclaimed first, and the die block is retired at its erase. -/
def programFailed (s : State) (die : Nat) (p : DieProgram) : State :=
  let k := bandAt s die p.block
  let a : FlashAddr := ⟨die, 0, p.block, if p.slc then p.wl else 3 * p.wl, 0⟩
  let s := unplace (verbFailed s (channelUnit die) 4 .programFail a) die
  if !dataBlock (k % 2048) then retireLater s a
  else
    let b := bandOf s k
    let t := (openRowsOf s k).foldl (restageLoc k) s
    let moved := decide (s.ledger.staged.length < t.ledger.staged.length) || decide (s.ledger.copies.length < t.ledger.copies.length)
    let t := if t.ledger.fdp && moved then fdpEvent t 0x80 (b.handle.getD 0) (rgOfBand t k) else t
    let t := bandMod t k (fun b => { b with st := .closed, fillTo := none, closedFirst := true })
    openForStaged (retireLater t a)

/-- The bands whose retirement or refresh a program's copies serve (R145): each is one Media Reallocated event. -/
def movedBands (s : State) (die : Nat) (p : DieProgram) : List Nat :=
  ((p.pages.filterMap (fun x => match x with
    | .copy iu loc => if s.ledger.copies.any (fun c => c.iu = iu && c.loc = loc && c.placed = some die) then some (bandOfLoc s loc) else none
    | _ => none)).dedup).filter (fun k => (bandOf s k).refresh || (bandOf s k).retireAt ≠ [])

/-- The events of host data that retirement or refresh has moved (R145). -/
def noteMoved (s : State) (ks : List Nat) : State :=
  if s.ledger.fdp then ks.foldl (fun s k => fdpEvent s 0x80 ((bandOf s k).handle.getD 0) (rgOfBand s k)) s else s

/-- The FABRIC requests whose write has landed answer OK (R294, R295). -/
def answerSealed (s : State) : State :=
  (s.ledger.writes.map (fun w => w.entry)).foldl (fun s i =>
    if jobDone s i then
      match s.fabric.targets.find? (fun t => t.entry = some i) with
      | some t => answer (dropJob s i) t.x 0 [] true
      | none => s
    else s) s

/-! ## Retirement -/

/-- The read-only floor (R156): warning bit 3 and one record. -/
def checkReadOnly (s : State) : State :=
  if s.ledger.readOnly || decide (roFloor s < dataBands s) then s
  else raiseRecord (warnHost { s with ledger := { s.ledger with readOnly := true } } 3 0)
    { Record.of 0x0603 with b := dataBands s }

/-- The spare blocks that a die has left (R140, R155): at first 1,832 to 1,839. -/
def sparesOf (s : State) (die : Nat) : List Nat := tgetD s.ledger.spares die ((List.range 8).map (· + 1832))

/-- Retire the die block of a band position (R152 to R155): a spare of its die stands in, or the whole band is retired and its 15 healthy
die blocks join the spares of their dies. -/
def retireBlock (s : State) (k pos : Nat) : State :=
  let die := dieAt (k / 2048) pos
  let s := count { s with ledger := { s.ledger with dieBlocksRetired := s.ledger.dieBlocksRetired + 1 } } 0x6007 0 1
  match sparesOf s die with
  | b :: rest =>
    bandMod { s with ledger := { s.ledger with spares := tput s.ledger.spares die rest } } k
      (fun x => { x with standIn := tput x.standIn pos b })
  | [] =>
    let t := ((List.range 16).filter (fun p => p ≠ pos)).foldl (fun t p =>
      let d := dieAt (k / 2048) p
      { t with ledger := { t.ledger with spares := tput t.ledger.spares d (sparesOf t d ++ [dieBlock s k p]) } }) s
    let t := { t with ledger := { t.ledger with bandsRetired := t.ledger.bandsRetired + 1 } }
    let t := bandMod t k (fun b => { b with st := .retired, erasing := [], retireAt := [], standIn := [] })
    checkReadOnly (raiseRecord t { Record.of 0x0602 with
      hasAddr := true, b := packAddr ⟨dieAt (k / 2048) 0, 0, k % 2048, 0, 0⟩ })

/-- The pages of a die block are gone. -/
def dropPages (s : State) (die block : Nat) : State :=
  let hit (l : Nat) : Bool := l / 2 ^ 26 = die && l / 2 ^ 12 % 2 ^ 12 = block
  { s with
    flash := { s.flash with pages := s.flash.pages.filter (fun p => !hit p.1) }
    ledger := { s.ledger with openRows := s.ledger.openRows.filter (fun l => !hit l) } }

/-- The jobs of the ledger on a band have ended. -/
def endCare (s : State) (k : Nat) : State :=
  (s.ledger.care.filter (fun c => c.band = k)).foldl (fun s c =>
    let s := { s with ledger := { s.ledger with care := s.ledger.care.filter (fun x => x ≠ c) } }
    match c.entry with
    | some i => freeFamily s i
    | none => { s with tally := { s.tally with waiting := s.tally.waiting.filter (fun r => r.origin ≠ .internal c.job k) } }) s

/-- One die block of a band has been erased or has failed to: it is retired where R152 to R154 say so, and the band is free once all its
positions are done. -/
def blockErased (s : State) (die block : Nat) (ok : Bool) : State :=
  let k := bandAt s die block
  let pos := positionOf die
  let s := dropPages s die block
  let due := (bandOf s k).retireAt.contains pos
  let waiting := (bandOf s k).erasing.contains pos
  let s := bandMod s k (fun b => { b with
    erasing := b.erasing.filter (· ≠ pos), retireAt := b.retireAt.filter (· ≠ pos), rung3 := tdel b.rung3 pos })
  let s := if due || !ok then retireBlock s k pos else s
  let b := bandOf s k
  if b.st = .retired then endCare s k
  else if waiting && b.erasing = [] then
    wearCheck (bandMod (endCare s k) k (fun b => { Band.reset with erases := b.erases + 1, standIn := b.standIn }))
  else s

/-! ## Poisoning -/

/-- The IU whose valid copy lies at the codeword's page, where its map entry still points there (R161). -/
def iuAt (s : State) (a : FlashAddr) : Option Nat :=
  ((tget s.flash.pages (locOf a)).bind (fun p => p.iu)).filter (fun iu => (mapAt s iu).mapped && (mapAt s iu).loc = locOf a)

/-- Set a POISON bit; answers the LBA that its codeword belongs to, none where the bit stood already (R161, R163). -/
def poisonOne (s : State) (a : FlashAddr) : List (Nat × Nat) × State :=
  match iuAt s a with
  | none => ([], s)
  | some iu =>
    let e := mapAt s iu
    if bit e.poison a.cw then ([], s)
    else (poisonedLbas s iu (setBit 0 a.cw), retireLater (mapSet s iu { e with poison := setBit e.poison a.cw }) a)

/-- Poison several codewords of a stripe row. -/
def poisonRow (s : State) : List FlashAddr → List (Nat × Nat) × State
  | [] => ([], s)
  | a :: rest =>
    let p := poisonOne s a
    let q := poisonRow p.2 rest
    (p.1 ++ q.1, q.2)

/-- The record of a poisoned row (R161, R382). -/
def poisonRecord (a : FlashAddr) (lbas : List (Nat × Nat)) : Record :=
  let sorted := sortBy (fun (x y : Nat × Nat) => decide (x.1 < y.1) || (x.1 = y.1 && decide (x.2 ≤ y.2))) lbas
  let first := sorted.headD (0, 0)
  { Record.of 0x0601 with
    hasAddr := true
    a := first.1 + 2 ^ 32 * first.2 + 2 ^ 96 * lbas.dedup.length
    b := packAddr a
    c := ((lbas.map (fun x => x.1 - 1)).dedup).foldl setBit 0 }

/-! ## Keys, extents and bound streams -/

/-- A namespace gets a new data key (R400, R401): its generation rises by 1. -/
def newKey (s : State) (nsid : Nat) : State :=
  let s := drbg s 1
  { s with keys := { s.keys with gens := tmod s.keys.gens nsid 0 (fun n => wrap 32 (n + 1)) } }

/-- The streams bound to a namespace. -/
def boundStreams (s : State) (nsid : Nat) : List (Nat × Stream) := s.streams.table.filter (fun p => p.2.nsid = nsid)

/-- Has a stream bound to a namespace a chunk admitted (R251). -/
def boundBusy (s : State) (nsid : Nat) : Bool := (boundStreams s nsid).any (fun p => p.2.chunks ≠ [] || p.2.ended.isSome)

/-- Release every stream bound to a namespace (R236, R251). A Park that still waits ends with Command Abort Requested. -/
def releaseBound (s : State) (nsid : Nat) : State :=
  let parks := (boundStreams s nsid).flatMap (fun p => p.2.parks.map (fun k => k.entry))
  let s := { s with streams := { s.streams with table := s.streams.table.filter (fun p => p.2.nsid ≠ nsid) } }
  parks.foldl (fun s i => failRequest s i .abortRequested 0) s

/-- End the reads and writes in flight to a namespace with a status; nothing of theirs is mapped any more. -/
def endWrites (s : State) (nsid : Nat) (st : Status) : State :=
  let es := ((s.ledger.writes.filter (fun w => w.nsid = nsid)).map (fun w => w.entry) ++
    (s.flash.jobs.filter (fun j => j.nsid = nsid)).map (fun j => j.entry)).dedup
  let s := es.foldl (fun s i => failRequest s i st 0) s
  { s with ledger := { s.ledger with staged := s.ledger.staged.filter (fun g => g.nsid ≠ nsid)
                                     writes := s.ledger.writes.filter (fun w => w.nsid ≠ nsid) } }

/-- Full extents and the IUs of the last, partial one (R138). -/
def extentTable (s : State) : Nat × Nat := if s.ident.dies = 256 then (2980, 243520) else (1490, 121760)

/-- Extents that no namespace owns, lowest first, the partial one last. -/
def freeExtents (s : State) : List Nat :=
  let used := s.ledger.nss.flatMap (fun p => p.2.extents)
  (List.range (extentTable s).1).filter (fun x => !used.contains x)

/-- The extents for a namespace of `ius` IUs, where there are enough (R138). The partial extent may hold only its end. -/
def takeExtents (s : State) (ius : Nat) : Option (List Nat) :=
  let full := freeExtents s
  let n := ceilDiv ius (2 ^ 20)
  let tail := ius - (n - 1) * 2 ^ 20
  let last := (extentTable s).1
  let lastFree := !(s.ledger.nss.any (fun p => p.2.extents.contains last))
  if n ≤ full.length then some (full.take n)
  else if n = full.length + 1 ∧ lastFree ∧ tail ≤ (extentTable s).2 then some (full ++ [last])
  else none

/-- The namespaces that a command names: one, or all of them for NSID 0xFFFFFFFF. -/
def namedNs (s : State) (nsid : Nat) : List Nat :=
  if nsid = 0xFFFFFFFF then s.ledger.nss.map (fun p => p.1) else if (nsOf s nsid).isSome then [nsid] else []

/-- Clear a namespace and replace its key; `lbaf` is the format it gets (R138, R139, R401). -/
def wipeNs (s : State) (nsid lbaf : Nat) : State :=
  match nsOf s nsid with
  | none => s
  | some ns =>
    let s := releaseBound (endWrites s nsid .abortRequested) nsid
    let s := newKey (ns.extents.foldl unmapExtent s) nsid
    { s with ledger := { s.ledger with nss := tput s.ledger.nss nsid { ns with
      lbaf := lbaf, nsze := ns.nsze * lbaSize ns.lbaf / lbaSize lbaf, gen := tgetD s.keys.gens nsid 0 } } }

/-- A data band is erased by a block-erase Sanitize (R402): a free band with its retired blocks replaced (R152, R154). -/
def sanitizeBand (s : State) (k : Nat) : State :=
  let b := bandOf s k
  if b.st = .retired then s
  else b.retireAt.foldl (fun s p => retireBlock s k p) (bandMod s k (fun b => { Band.reset with erases := b.erases, standIn := b.standIn }))

/-- The entry of what a die runs or has accepted ends, and the die is IDLE. -/
def quietDie (s : State) (d : Nat) : State :=
  let s := endDieJob (endDieJob (dieMod s d (fun x => { Die.reset with trackedBell := x.trackedBell })) 0x09 d) 0x0A d
  { s with tally := { s.tally with waiting := s.tally.waiting.filter (fun r => match r.origin with
    | .internal j tag => !((j = 0x09 || j = 0x0A) && tag / 2 ^ 12 = d)
    | _ => true) } }

/-- Every data band is erased (R402 step 4): no die keeps an operation, no data page is left, and no job of the ledger on one. -/
def eraseAllBands (s : State) : State :=
  let s := (s.flash.dies.map (fun p => p.1)).foldl quietDie s
  let s := (s.ledger.care.map (fun c => c.band)).foldl endCare s
  let data (l : Nat) : Bool := dataBlock (bandOfLoc s l % 2048)
  let s := { s with
    flash := { s.flash with pages := s.flash.pages.filter (fun p => !data p.1), ladders := [], jobs := [] }
    ledger := { s.ledger with openRows := s.ledger.openRows.filter (fun l => !data l), staged := [], copies := []
                              rowClass := [], gatherFrom := [], allErases := s.ledger.allErases + 1 } }
  (s.ledger.bands.map (fun p => p.1)).foldl (fun s k => if dataBlock (k % 2048) then sanitizeBand s k else s) s

/-- Steps 1 to 4 of a Sanitize (R402). `kind`: 1 crypto erase, 2 block erase. -/
def sanitizeSteps (s : State) (kind : Nat) : State :=
  let ids := s.ledger.nss.map (fun p => p.1)
  let s := ids.foldl (fun s n => endWrites s n .sanitizeInProgress) s
  let s := ids.foldl (fun s n => wipeNs s n (((nsOf s n).map (fun ns => ns.lbaf)).getD 0)) s
  if kind = 2 then eraseAllBands s else s

/-- A start that finds a Sanitize unfinished completes it from step 1 (R402). -/
def resumeSanitize (s : State) : State := if s.keys.sanitize = 0 then s else sanitizeSteps s s.keys.sanitize

/-! ## Recovery after a save -/

/-- One word line of filler, or of parity at the parity position, in the current group of a band. -/
def fillLine (s : State) (k pos : Nat) : State :=
  let wl := currentLine (bandOf s k)
  let par := onParity s k pos
  let locs := lineLocs (dieAt (k / 2048) pos) (dieBlock s k pos) wl (k % 2048 < 8)
  let s := locs.foldl (fun s l => putPage s l (if par then parityPage s l else blankPage) (!par)) s
  let s := if par then
      { s with ledger := { s.ledger with openRows := s.ledger.openRows.filter (fun l => !(bandOfLoc s l = k && l % 2 ^ 12 / 3 = wl)) } }
    else s
  lineDone s k

/-- The rest of a band's current word-line group: filler on the data positions, and the parity that the saved partial parity gives
(R168). -/
def completeGroup (s : State) (k : Nat) : State :=
  let left := (List.range 16).filter (fun p => !lineWritten s k p)
  if (bandOf s k).pagesWritten % 16 = 0 then s
  else (left.filter (fun p => !onParity s k p) ++ left.filter (onParity s k)).foldl (fun s p => fillLine s k p) s

/-- The word line of a program that a save abandoned holds nothing. -/
def blankSaved (s : State) (l : SavedLine) : State :=
  lineDone ((lineLocs l.die (dieBlock s l.band (positionOf l.die)) l.wl (l.band % 2048 < 8)).foldl (fun s x => putPage s x blankPage false) s)
    l.band

/-- Every band that was open is closed, its open rows with their parity, and is reclaimed first (R148, R168). -/
def closeSaved (s : State) : State :=
  ((s.ledger.bands.filter (fun p => p.2.st = .open || p.2.st = .parked)).map (fun p => p.1)).foldl (fun s k =>
    bandMod (completeGroup s k) k (fun b => { b with st := .closed, fillTo := none, closedFirst := true })) s

/-- The IUs of a saved word line as they wait for a program, for the pair of their band. -/
def savedStaged (s : State) (l : SavedLine) : List Staged :=
  l.pages.map (fun x => ⟨x.1, x.2.1.cws, x.2.1.info, x.2.2, noEntry, (x.2.1.info.headD ⟨0, 0, 0⟩).nsid, x.2.1.gen,
    ((bandOf s l.band).handle).getD 0, rgOfBand s l.band, x.2.1.seq, none⟩)

/-- Program a word line of staged IUs at the next data position of an open band, and the parity of its group where it was the last. -/
def landLine (s : State) (k : Nat) (gs : List Staged) : State :=
  match (List.range 16).find? (fun p => !lineWritten s k p && !onParity s k p) with
  | none => { s with ledger := { s.ledger with staged := s.ledger.staged ++ gs } }
  | some p =>
    let locs := lineLocs (dieAt (k / 2048) p) (dieBlock s k p) (currentLine (bandOf s k)) false
    let s := (locs.zipIdx).foldl (fun s x => match gs[x.2]? with
      | some g => landStaged s x.1 g
      | none => putPage s x.1 blankPage true) s
    let s := lineDone s k
    match (List.range 16).find? (onParity s k) with
    | some q => if !lineWritten s k q && parityDue s k q then fillLine s k q else s
    | none => s

/-- A saved word line is mapped and programmed again into TLC, in an open band of its pair (R168). -/
def landSaved (s : State) (l : SavedLine) : State :=
  let gs := savedStaged s l
  if gs = [] then s
  else
    let h := ((bandOf s l.band).handle).getD 0
    let s := openPair s h (rgOfBand s l.band)
    match (bandOfPair s h (rgOfBand s l.band)).filter (fun p => p.2.st = .open) with
    | some (k, _) => landLine s k gs
    | none => { s with ledger := { s.ledger with staged := s.ledger.staged ++ gs } }

/-- Where the save marker is missing, the IUs of the abandoned word lines are poisoned, with record 0x0605 and result 2 (R168). A word
line that was abandoned holds nothing, so codeword metadata confirms the location of none of them (DEDUCED, log entry 23). -/
def poisonSaved (s : State) : State :=
  let ius := (s.ledger.saved.flatMap (fun l => l.pages.map (fun x => x.1))).dedup
  let s := ius.foldl (fun s iu => mapSet s iu { mapAt s iu with poison := 15 }) s
  raiseRecord { s with ledger := { s.ledger with saveResult := 2 } } { Record.of 0x0605 with b := ius.length }

/-- The ledger recovers what a save wrote (R165, R168): the map is that of the checkpoint and the journal, the bands that were open are
closed, and the saved word lines are mapped and programmed again, or poisoned where the marker is missing. -/
def recoverSave (s : State) (markerFound : Bool) : State :=
  let lines := s.ledger.saved
  let s := { s with ledger := { s.ledger with map := replay s.ledger.checkpoint s.ledger.journal } }
  let s := closeSaved (lines.foldl blankSaved s)
  let s := if markerFound then lines.foldl landSaved s else poisonSaved s
  { s with ledger := { s.ledger with saved := [], rowClass := [] } }

/-- The erases that a reset or a save abandoned restart at boot (R129, R166). -/
def restartErases (s : State) : State :=
  (s.ledger.eraseLater).foldl (fun s x => gateErase s x.1 x.2 (bandAt s x.1 x.2 % 2048 < 8)) { s with ledger := { s.ledger with eraseLater := [] } }

end Sys2Proof.Machine
end

