-- ==== Sys2Proof/Machine/TicketOps.lean ====
section
/-!
DEFINITION. Loom tickets (R205 to R207, R214, R215, R240): what a TICKET is checked for, how it is taken, and the tickets
that wait for a ticket slot.
-/

namespace Sys2Proof.Machine

/-- Is `n` bytes from `a` inside a region of `size` bytes. -/
def fits (size a n : Nat) : Bool := decide (a + n ≤ size)

/-- Bytes that an invocation's slice holds or will hold: rows in hand-off staging and outputs of tickets in flight. -/
def sliceBytes (s : State) (inv : Nat) (v : Invocation) : Nat :=
  ((s.streams.handRows.filter (fun x => x.1 = inv)).map (fun x => x.2.2.length)).sum +
  ((v.tickets.filter (fun t => t.state = 0 && planTarget (planEntry (programOf s v.program) t.plan) = 2)).map
    (fun t => (planRegions (planEntry (programOf s v.program) t.plan)).2.2.2)).sum

/-- Is the output region of a ticket in its place (R215, R297). -/
def outputInside (s : State) (inv : Nat) (v : Invocation) (b : Bytes) (arg : Nat) : Bool :=
  let n := (planRegions b).2.2.2
  let o := argField arg 2
  match planTarget b with
  | 0 => fits v.windowSize o n
  | 1 => match (rangesOf s v)[o / 2 ^ 40 % 8]? with
    | some r => fits r.2 (o % 2 ^ 40) n
    | none => false
  | _ => decide (1 ≤ o) && decide (o ≤ 255) && odVal s 0x2920 o ≠ 0 && decide (sliceBytes s inv v + n ≤ 33554432)

/-- What a TICKET faults with, if anything: its plan entry (R205, R213, R214, R240), then its argument block (R215). -/
def ticketFault (s : State) (g : Gang) (v : Invocation) (lane plan at_ : Nat) : Option GangFault :=
  let p := programOf s v.program
  let b := planEntry p plan
  let one := maskOf [lane]
  let refused : Bool :=
    decide (planCount p ≤ plan) ||
    (match planW b with
     | some w => decide (stepCap s < w)
     | none => true) ||
    (planState b && (match v.stream with
     | none => true
     | some sid => match tget s.streams.table sid with
       | some st => decide (st.channels < planBase b + planN b)
       | none => true))
  if refused then some ⟨0x09, one, 0, plan⟩
  else if at_ % 64 ≠ 0 then some ⟨0x07, one, at_, 32⟩
  else if !fits v.windowSize at_ 32 then some ⟨0x06, one, at_, v.rsid⟩
  else
    let arg := leNat (mread v.window at_ 32)
    let r := planRegions b
    if !fits v.windowSize (argField arg 0) r.1 then some ⟨0x06, one, argField arg 0, v.rsid⟩
    else if r.2.1 ≠ 0 && !fits v.windowSize (argField arg 1) r.2.1 then some ⟨0x06, one, argField arg 1, v.rsid⟩
    else if r.2.2.1 ≠ 0 && !fits v.windowSize (argField arg 3) r.2.2.1 then some ⟨0x06, one, argField arg 3, v.rsid⟩
    else if !outputInside s g.inv v b arg then some ⟨0x06, one, argField arg 2, v.rsid⟩
    else none

/-- Ticket numbers count up and wrap from 65,535 to 1 (R205). -/
def nextTicketNo (n : Nat) : Nat := if 65535 ≤ n then 1 else n + 1

/-- Take a ticket for a lane (R205): its number in rd, the lane goes on. The argument block is read now. The ticket's INTERNAL child is
admitted at the boundary at which its step is placed (R18). TICKET accepted is progress. -/
def takeTicket (s : State) (ref : GangRef) (g : Gang) (v : Invocation) (lane rd plan at_ : Nat) : State :=
  let n := if v.nextTicket = 0 then 1 else v.nextTicket
  let arg := leNat (mread v.window at_ 32)
  let g := progressed (advance (regPutNat { g with outstanding := g.outstanding ++ [n], blocked := tdel g.blocked lane } lane rd n)
    [lane])
  let s := invMod (gangPut s ref g) g.inv (fun v =>
    { v with nextTicket := nextTicketNo n, tickets := v.tickets ++ [⟨n, ref.unit, g.index, plan, arg, 0⟩] })
  count s (0x6100 + ref.unit) 5 1

/-- A lane that waits for a ticket slot takes it where its gang has fewer than 4 tickets outstanding. TICKET then issues, and its
argument block is checked as it stands (R215). -/
def retryOne (s : State) (ref : GangRef) : State :=
  match gangAt s ref with
  | none => s
  | some g =>
    match g.blocked.find? (fun p => p.2.kind = 4), tget s.compute.invs g.inv with
    | some (lane, x), some v =>
      if g.fault.isSome || decide (4 ≤ g.outstanding.length) then s
      else
        let plan := (regAt g lane x.ra).toNat
        let at_ := (regAt g lane x.rb).toNat
        match ticketFault s g v lane plan at_ with
        | some f => faultWith s ref g f
        | none => takeTicket s ref g v lane x.rd plan at_
    | _, _ => s

/-- Every gang that waits for a ticket slot. -/
def waitingForSlot (s : State) : List GangRef :=
  s.compute.cores.flatMap (fun c => (c.2.gangs.filter (fun g => g.2.blocked.any (fun p => p.2.kind = 4))).map
    (fun g => ⟨c.1 + 24, g.1⟩))

/-- Let the waiting TICKETs in (R205). -/
def retryTickets (s : State) : State := (waitingForSlot s).foldl retryOne s

/-- The ticket of a number. -/
def ticketNo (v : Invocation) (n : Nat) : Option Ticket := v.tickets.find? (fun t => t.number = n)

/-- Release the numbers of tickets that have ended (R206). -/
def releaseTickets (s : State) (inv : Nat) (ns : List Nat) : State :=
  invMod s inv (fun v => { v with tickets := v.tickets.filter (fun t => !(t.state ≠ 0 && ns.contains t.number)) })

end Sys2Proof.Machine
end

