-- ==== Sys2Proof/Machine/Loom.lean ====
section
/-!
DEFINITION. Loom Direct and the plan steps of the looms (chapter 7): R187, R188, the placing of steps under R184 to R186, and
what a finished step leaves.
-/

namespace Sys2Proof.Machine

/-! ## Loom Direct (Tables 7.9 and 7.10) -/

/-- Do two regions (start, bytes) share a byte. -/
def overlaps (a b : Nat × Nat) : Bool := decide (a.1 < b.1 + b.2) && decide (b.1 < a.1 + a.2) && a.2 ≠ 0 && b.2 ≠ 0

/-- M, N and K of a descriptor. -/
def directDims (b : Bytes) : Nat × Nat × Nat := (fieldAt b 0 2, fieldAt b 2 2, fieldAt b 4 4)

/-- The regions of a descriptor: A, B, rescale table, gate table, C. An absent table is empty. -/
def directRegions (b : Bytes) : List (Nat × Nat) × (Nat × Nat) :=
  let (m, n, k) := directDims b
  let flags := fieldAt b 12 1
  ([(fieldAt b 16 4, elemBytes (fieldAt b 8 1) (m * k)), (fieldAt b 20 4, elemBytes (fieldAt b 9 1) (k * n)),
    (fieldAt b 28 4, if bit flags 0 then 8 * n else 0), (fieldAt b 32 4, if bit flags 1 then 544 else 0)],
   (fieldAt b 24 4, elemBytes (fieldAt b 10 1) (m * n)))

/-- What R187 refuses with Invalid Field in Command. -/
def directBad (s : State) (length : Nat) (b : Bytes) : Bool :=
  let (m, n, k) := directDims b
  let (ins, out) := directRegions b
  length % 64 ≠ 0 || decide (length < 256) || decide (2097152 < length) ||
  m % 64 ≠ 0 || n % 64 ≠ 0 || decide (m < 64) || decide (n < 64) || decide (4096 < m) || decide (4096 < n) ||
  decide (k < 1) || decide (16384 < k) || decide (6 < fieldAt b 10 1) || decide (16 < fieldAt b 11 1) ||
  decide (3 < fieldAt b 12 1) || fieldAt b 13 3 ≠ 0 || fieldAt b 36 220 ≠ 0 ||
  (match cK (fieldAt b 8 1) (fieldAt b 9 1) k with
   | none => true
   | some c => decide (stepCap s < c + 1226)) ||
  (out :: ins).any (fun r => r.1 % 64 ≠ 0 || (r.2 ≠ 0 && decide (length < r.1 + r.2))) ||
  ((0, 256) :: ins).any (overlaps out) ||
  (bit (fieldAt b 12 1) 1 && !gateOk (slice b (fieldAt b 32 4) 544) 64)

/-- The west and north operands of output tile `t`: 64 rows of A, 64 columns of B. -/
def directCreels (b : Bytes) (t : Nat) : Bytes × Bytes :=
  let (_, n, k) := directDims b
  let wf := fieldAt b 8 1
  let nf := fieldAt b 9 1
  let rb := t / (n / 64)
  let cb := t % (n / 64)
  (slice b (fieldAt b 16 4 + elemBytes wf (64 * rb * k)) (elemBytes wf (64 * k)),
   packCodes nf ((List.range k).flatMap (fun i => (List.range 64).map (fun j =>
     elemAt (fun a => b.getD (fieldAt b 20 4 + a) 0) nf (i * n + 64 * cb + j)))))

/-- The fuller of a Loom Direct tile. -/
def directFuller (b : Bytes) (t : Nat) : Fuller :=
  let (_, n, _) := directDims b
  let flags := fieldAt b 12 1
  let ints := intPair (fieldAt b 8 1)
  let base := 64 * (t % (n / 64))
  { ints := ints
    rescale := fun c => if bit flags 0 then
        some (fieldAt b (fieldAt b 28 4 + 8 * (base + c)) 4, fieldAt b (fieldAt b 28 4 + 8 * (base + c) + 4) 4) else none
    residual := fun _ _ => none
    gate := if bit flags 1 then some (slice b (fieldAt b 32 4) 544) else none
    state := none
    bypass := isBypass ints (bit flags 0) false (bit flags 1) false 0x3F800000 (fieldAt b 10 1)
    q := 0x3F800000
    outFmt := fieldAt b 10 1 }

/-- Change the record of a Loom Direct. -/
def directMod (s : State) (entry : Nat) (f : Direct → Direct) : State :=
  { s with compute := { s.compute with directs := s.compute.directs.map (fun d => if d.entry = entry then f d else d) } }

/-- Looms that a Loom Direct may use at once. -/
def directWidth (d : Direct) : Nat := if d.wanted = 0 then 16 else d.wanted

/-- Is a Loom Direct in progress for an entry. -/
def directGoes (s : State) (i : Nat) : Bool := s.compute.directs.any (fun d => d.entry = i)

/-- LOOM_DIRECT (R187, R188): checked at admission; the planner then places its tiles. The buffer is the descriptor (Table 7.10) and what
follows it. -/
def execLoomDirect (h : HostId) (length : Nat) (desc matrices : Bytes) (s : State) : Host.Outcome State Fault Refusal :=
  let buf := desc ++ matrices
  .next (meetVendorIo s h (fun s i =>
    if directGoes s i then s
    else if odVal s 0x2403 0 = 0 then finish s i .invalidOpcode 0 0
    else if directBad s length buf then finish s i .invalidField 0 0
    else
      let (m, n, _) := directDims buf
      let tiles := m / 64 * (n / 64)
      { s with compute := { s.compute with
        directs := s.compute.directs ++ [⟨i, buf, List.range tiles, tiles, [], 0, [], fieldAt buf 11 1⟩] } }))

/-! ## What waits for a loom -/

/-- The steps that are on a loom or placed on one. -/
def stepsOut (s : State) : List (StepKind × Nat) :=
  s.compute.looms.flatMap (fun p =>
    (match p.2.step with | some st => [(st.kind, p.2.holderEntry)] | none => []) ++
    (p.2.next.toList ++ p.2.plan.toList).map (fun x => (x.kind, x.entry)))

/-- The looms on which a Loom Direct has a tile, or has one placed. -/
def directLooms (s : State) (entry : Nat) : List Nat :=
  (s.compute.looms.filter (fun p => (p.2.step.isSome && p.2.holderEntry = entry) ||
    (p.2.next.toList ++ p.2.plan.toList).any (fun x => x.entry = entry))).map (fun p => p.1)

/-- Worst case of a tile of a Loom Direct in core cycles (R187). -/
def tileCycles (buf : Bytes) : Nat :=
  let (_, _, k) := directDims buf
  (cK (fieldAt buf 8 1) (fieldAt buf 9 1) k).getD 0 + 1226

/-- The tiles of a Loom Direct that wait for a loom (R185, R188): at most as many as looms, each on a loom that the command uses already or,
while fewer than the looms wanted are in use, on any. -/
def tileWork (s : State) (d : Direct) : List LoomWork :=
  match entryAt s d.entry with
  | none => []
  | some e =>
    let out := stepsOut s
    let used := (d.loomsUsed ++ directLooms s d.entry).dedup
    let looms := if used.length < directWidth d then List.range 16 else (List.range 16).filter (fun l => used.contains l)
    ((d.tilesLeft.filter (fun t => !out.contains (.direct t, d.entry))).take 16).map (fun t =>
      ⟨.direct t, d.entry, e, 2, tileCycles d.buf, looms⟩)

/-- Do the STATE entries of two tickets share a channel (R240). -/
def sharesChannels (a b : Bytes) : Bool :=
  planState a && planState b && overlaps (planBase a, planN a) (planBase b, planN b)

/-- Must a ticket wait for a STATE step with an earlier ticket (R240). -/
def stateWaits (p : Program) (v : Invocation) (n : Nat) : Bool :=
  match ticketNo v n with
  | none => false
  | some t => ((v.tickets.takeWhile (fun u => u.number ≠ n)).any (fun u =>
      u.state = 0 && sharesChannels (planEntry p u.plan) (planEntry p t.plan)))

/-- The tickets of an invocation that wait for a loom (R206), the loom of the gang's own core first. -/
def ticketWork (s : State) (inv : Nat) (v : Invocation) : List LoomWork :=
  match entryAt s v.entry with
  | none => []
  | some e =>
    let p := programOf s v.program
    let out := stepsOut s
    (v.tickets.filter (fun t => t.state = 0 && !out.contains (.ticket inv t.number t.plan, v.entry) && !stateWaits p v t.number)).map
      (fun t => ⟨.ticket inv t.number t.plan, v.entry, e, if v.stream.isSome then 3 else 1, (planW (planEntry p t.plan)).getD 0,
        (t.unit - 24) / 3 :: (List.range 16).filter (· ≠ (t.unit - 24) / 3)⟩)

/-- Everything that waits for a loom. -/
def loomWork (s : State) : List LoomWork :=
  s.compute.invs.flatMap (fun p => ticketWork s p.1 p.2) ++ s.compute.directs.flatMap (tileWork s)

/-- Does work still wait for a loom: placing a tile of a Loom Direct may have used up the looms that it wants. -/
def stillWaits (s : State) (w : LoomWork) : Bool :=
  !(stepsOut s).contains (w.kind, w.entry) &&
  (match s.compute.directs.find? (fun d => w.holder = 2 && d.entry = w.entry) with
   | some d => decide ((d.loomsUsed ++ directLooms s d.entry).dedup.length < directWidth d) || decide (w.looms.length < 16)
   | none => true)

/-! ## The start of a step -/

/-- The slots that a ticket's step loads (Table 7.12). -/
def planSlots (b : Bytes) : Nat :=
  if planTile b then (if fieldAt b 12 1 = 2 then 1 else 0) + (if bit (planFlags b) 1 then 32 else 0) else 128

/-- The slots that a tile of a Loom Direct loads (R178, Table 7.12): slot 4 for its rescale table, FUSED slot 0 for its gate. -/
def directSlots (buf : Bytes) : Nat :=
  (if bit (fieldAt buf 12 1) 0 then 16 else 0) + (if bit (fieldAt buf 12 1) 1 then 32 else 0)

/-- The job and tag of the child of a placed step. -/
def placedOrigin : StepKind → Origin
  | .direct t => .internal 0x0E t
  | .ticket _ n _ => .internal 0x0D n

/-- The admitted child of a placed step. -/
def placedChild (s : State) (p : Placed) : Option Nat :=
  (s.tally.entries.find? (fun e => e.2.origin = placedOrigin p.kind && e.2.parent = some p.entry)).map (fun e => e.1)

/-- Does the child of a placed step wait for admission (R18). -/
def childWaits (s : State) (p : Placed) : Bool :=
  s.tally.waiting.any (fun r => r.origin = placedOrigin p.kind && r.parent = some p.entry)

/-- Worst case of a placed step in core cycles. -/
def placedCycles (s : State) (p : Placed) : Nat :=
  match p.kind with
  | .direct _ => ((s.compute.directs.find? (fun d => d.entry = p.entry)).map (fun d => tileCycles d.buf)).getD 0
  | .ticket inv _ plan =>
    (((tget s.compute.invs inv).bind (fun v => planW (planEntry (programOf s v.program) plan)))).getD 0

/-- Start a placed step whose child is admitted, at the present boundary (R18): its creels are filled, from the buffer of the Loom Direct
or from the loft window. -/
def startPlaced (s : State) (l : Nat) (p : Placed) (child : Nat) : State :=
  let by_ := chimeNow s - 1 + taskChimes s false (placedCycles s p)
  match p.kind with
  | .direct t => match s.compute.directs.find? (fun d => d.entry = p.entry) with
    | none => s
    | some d =>
      let c := directCreels d.buf t
      let s := directMod s p.entry (fun d => { d with
        tilesLeft := d.tilesLeft.filter (· ≠ t), loomsUsed := if d.loomsUsed.contains l then d.loomsUsed else d.loomsUsed ++ [l] })
      startStep s l 2 p (directSlots d.buf) ⟨child, p.kind, c.1, c.2, 0, 0, by_⟩
  | .ticket inv n plan => match tget s.compute.invs inv with
    | none => s
    | some v => match ticketNo v n with
      | none => s
      | some t =>
        let b := planEntry (programOf s v.program) plan
        let r := planRegions b
        startStep s l (if v.stream.isSome then 3 else 1) p (planSlots b)
          ⟨child, p.kind, mread v.window (argField t.arg 0) r.1, mread v.window (argField t.arg 1) r.2.1, argField t.arg 2,
            argField t.arg 3, by_⟩

/-- Can the step placed on a loom start at the present boundary: its time has come, the loom is between steps and open, and it still
fits (R68, R69). -/
def canStart (s : State) (l : Nat) (p : Placed) : Bool :=
  (loomOf s l).step.isNone && unitOpen s (8 + l) && fitsBell (chimeNow s - 1) (taskChimes s false (placedCycles s p))

/-- A loom at a boundary, before admission (R18): a step whose time has come asks for its child's admission, and starts if it has it
already; one that cannot start waits to be placed again. -/
def loomDue (s : State) (l : Nat) : State :=
  match (loomOf s l).next with
  | none => s
  | some p =>
    if chimeNow s ≤ p.start then s
    else if !canStart s l p then dropNext s l
    else match placedChild s p with
      | some c => startPlaced s l p c
      | none => if childWaits s p then s else await s (childReq s p.entry (placedOrigin p.kind) (8 + l))

/-- The looms at a boundary, before admission. -/
def loomsDue (s : State) : State := (List.range 16).foldl loomDue s

/-- The child of a loom step has been admitted as entry `i`: the step starts at once where its time has come (R18). -/
def adoptStep (s : State) (i : Nat) : State :=
  match (List.range 16).find? (fun l => (loomOf s l).next.any (fun p => decide (p.start < chimeNow s) && placedChild s p = some i)) with
  | none => s
  | some l => match (loomOf s l).next with
    | some p => if canStart s l p then startPlaced s l p i else s
    | none => s

/-! ## The end of a step -/

/-- The accumulator of row `r`, column `c` of a step (R175). -/
def stepAcc (st : LoomStep) (wf nf k n r c : Nat) : Nat :=
  accumulate wf nf (fun i => elemAt (fun a => st.west.getD a 0) wf (r * k + i))
    (fun i => elemAt (fun a => st.north.getD a 0) nf (i * n + c)) k

/-- The fuller of a TILE entry. -/
def planFuller (p : Program) (v : Invocation) (b : Bytes) (st : LoomStep) : Fuller :=
  let mode := fieldAt b 12 1
  let ints := intPair (fieldAt b 1 1)
  let tbl := (tablePlace p 0 (fieldAt b 14 2)).1
  let gate := tablePlace p 1 (fieldAt b 18 2)
  let res := bit (planFlags b) 0
  { ints := ints
    rescale := fun c =>
      if mode = 1 then some (fieldAt b 20 4, fieldAt b 24 4)
      else if mode = 2 then
        some (leNat (mread p.pkg (tbl + 8 * (planBase b + c)) 4), leNat (mread p.pkg (tbl + 8 * (planBase b + c) + 4) 4))
      else none
    residual := fun r c => if res then
        some (toF32 residualFmt (elemAt (fun a => (mget v.window (st.residual + a)).toNat) residualFmt (r * planN b + c))) else none
    gate := if bit (planFlags b) 1 then some (mread p.pkg gate.1 gate.2) else none
    state := if planState b && v.stream.isSome then some (planBase b) else none
    bypass := isBypass ints (mode ≠ 0) res (bit (planFlags b) 1) (planState b) (fieldAt b 28 4) (fieldAt b 3 1)
    q := fieldAt b 28 4
    outFmt := fieldAt b 3 1 }

/-- A COARSE pass (R181): y = pwl(a), pwl(a) × b or pwl(a) + b, then QUANTIZE. -/
def coarsePass (p : Program) (b : Bytes) (st : LoomStep) : List Nat × Nat :=
  let af := fieldAt b 1 1
  let bf := fieldAt b 2 1
  let place := tablePlace p 2 (fieldAt b 18 2)
  let t := mread p.pkg place.1 place.2
  let ys := (List.range (planK b)).map (fun i =>
    let y := pwl t (toF32 af (elemAt (fun a => st.west.getD a 0) af i))
    let z := toF32 bf (elemAt (fun a => st.north.getD a 0) bf i)
    let y := match fieldAt b 12 1 with
      | 1 => f32Mul y z
      | 2 => f32Add y z
      | _ => y
    quantize (fieldAt b 3 1) (fieldAt b 28 4) y)
  (ys.map (fun y => y.1), (ys.filter (fun y => y.2)).length)

/-! ## KV pages (R182, Table 7.8) -/

/-- Is there a KV page in a memory at `a`: its format and head dimension are ones of Table 7.8. -/
def kvPage (m : Mem) (a : Nat) : Bool :=
  let d := leNat (mread m (a + 2) 2)
  decide (leNat (mread m a 1) ≤ 1) && (d = 64 || d = 128 || d = 256)

/-- Write code `c` as element `i` of an array of a narrow integer format (0 INT4, 1 INT8) at `a` (Table 7.4). -/
def putCode (fmt : Nat) (m : Mem) (a i c : Nat) : Mem :=
  if fmt = 1 then mput m (a + i) (BitVec.ofNat 8 c)
  else
    let old := (mget m (a + i / 2)).toNat
    mput m (a + i / 2) (BitVec.ofNat 8 (if i % 2 = 0 then old / 16 * 16 + c % 16 else old % 16 + 16 * (c % 16)))

/-- Write the key or value row of one token: element (dimension i, token t) of the key block at 64 i + t, element (token t, dimension i) of
the value block at d t + i. -/
def kvRow (value : Bool) (a t : Nat) (codes : List Nat) (m : Mem) : Mem :=
  let fmt := leNat (mread m a 1)
  let d := leNat (mread m (a + 2) 2)
  ((codes.take d).zipIdx).foldl (fun m c =>
    if value then putCode fmt m (a + 64 + elemBytes fmt (64 * d)) (d * t + c.2) c.1 else putCode fmt m (a + 64) (64 * c.2 + t) c.1) m

/-- Tokens valid of a page rises by 1. -/
def kvValid (a : Nat) (m : Mem) : Mem := mwrite m (a + 32) (leBytes 2 (leNat (mread m (a + 32) 2) + 1))

/-- The tokens of which one row is written, after a row: a token whose other row is written already is complete. Answers whether it is. -/
def kvNote (rows : List KvRow) (x : KvRow) : List KvRow × Bool :=
  if rows.contains { x with value := !x.value } then (rows.filter (fun y => y ≠ { x with value := !x.value }), true)
  else (if rows.contains x then rows else rows ++ [x], false)

/-- Write the rows of a step as the key or value rows of consecutive tokens of a page, counting each token of which both rows are
written. -/
def kvWrite (dram : Bool) (k : KvPut) (a : Nat) (rows : List KvRow) (m : Mem) (codes : List (List Nat)) : List KvRow × Mem :=
  (codes.zipIdx).foldl (fun p c =>
    let t := k.token + c.2
    if k.count ≤ c.2 ∨ 64 ≤ t then p
    else
      let n := kvNote p.1 ⟨dram, k.page, t, k.value⟩
      let m := kvRow k.value a t c.1 p.2
      (n.1, if n.2 then kvValid a m else m)) (rows, m)

/-- The fuller of a step that writes into a page: the multiplier is q_K or q_V of the page's header as it stands, the format the
page's. -/
def kvFuller (f : Fuller) (m : Mem) (a : Nat) (value : Bool) : Fuller :=
  { f with q := leNat (mread m (a + (if value then 28 else 20)) 4), outFmt := leNat (mread m a 1), bypass := false }

/-- The memory that a write target names, and the place of an address in it: the loft window, or Subsystem Local Memory; none for hand-off
staging. -/
def targetMem (s : State) (v : Invocation) (b : Bytes) (o : Nat) : Option (Mem × Nat) :=
  match planTarget b with
  | 0 => some (v.window, o)
  | 1 => ((rangesOf s v)[o / 2 ^ 40 % 8]?).map (fun r => (s.compute.slm, r.1 + o % 2 ^ 40))
  | _ => none

/-- Put back the memory that a write target names. -/
def putTarget (s : State) (inv : Nat) (b : Bytes) (m : Mem) : State :=
  match planTarget b with
  | 0 => invMod s inv (fun v => { v with window := m })
  | _ => { s with compute := { s.compute with slm := m } }

/-- The page that a step writes into, with its memory, where the command names one and a page is there. -/
def kvTarget (s : State) (v : Invocation) (b : Bytes) (kv : Option KvPut) : Option (KvPut × Mem × Nat) :=
  kv.bind (fun k => (targetMem s v b k.page).bind (fun p => if kvPage p.1 p.2 then some (k, p.1, p.2) else none))

/-- Write the output of a ticket's step: loft window, DRAM range or hand-off staging (Table 7.6, R215, R297). -/
def writeOutput (s : State) (inv : Nat) (v : Invocation) (b : Bytes) (o : Nat) (bytes : Bytes) : State :=
  match planTarget b with
  | 0 => invMod s inv (fun v => { v with window := mwrite v.window o bytes })
  | 1 => match (rangesOf s v)[o / 2 ^ 40 % 8]? with
    | some r => { s with compute := { s.compute with slm := mwrite s.compute.slm (r.1 + o % 2 ^ 40) bytes } }
    | none => s
  | _ => { s with streams := { s.streams with handRows := s.streams.handRows ++ [(inv, o, bytes)] } }

/-- The step of a ticket has drained: its output is written, into a KV page where `kv` names one (R182), its STATE updates take effect
(R241), the ticket is DONE and its child is freed (R206). -/
def ticketDrained (s : State) (l : Nat) (st : LoomStep) (inv n plan : Nat) (kv : Option KvPut) : State :=
  match tget s.compute.invs inv with
  | none => clearStep s l
  | some v =>
    let p := programOf s v.program
    let b := planEntry p plan
    let u := 0x6108 + l
    let s := count (clearStep s l) u 5 1
    let s :=
      if planTile b then
        let page := kvTarget s v b kv
        let stream := v.stream.bind (fun sid => (tget s.streams.table sid).map (fun x => (sid, x)))
        let chs := (stream.bind (fun x => x.2.working)).getD []
        let f := planFuller p v b st
        let f := match page with | some (k, m, a) => kvFuller f m a k.value | none => f
        let y := fullerRows f (stepAcc st (fieldAt b 1 1) (fieldAt b 2 1) (planK b) (planN b)) (planN b) chs (planM b)
        let s := count s u 4 y.2.1
        let s := match stream with
          | some (sid, x) => if planState b then { s with streams := { s.streams with
              table := tput s.streams.table sid { x with working := some y.2.2 } } } else s
          | none => s
        match page with
        | some (k, m, a) =>
          let w := kvWrite (planTarget b = 1) k a v.kvRows m y.1
          invMod (putTarget s inv b w.2) inv (fun v => { v with kvRows := w.1 })
        | none => writeOutput s inv v b st.outAddr (packCodes (fieldAt b 3 1) y.1.flatten)
      else
        let y := coarsePass p b st
        let s := count (count s u 7 1) u 4 y.2
        writeOutput s inv v b st.outAddr (packCodes (fieldAt b 3 1) y.1)
    retryTickets (freeFamily (endTicket s inv n 1) st.child)

/-- A tile of a Loom Direct has drained: its rows join C; after the last one C goes to the host and the command completes (R188). -/
def tileDrained (s : State) (l : Nat) (st : LoomStep) (t : Nat) : State :=
  match (entryAt s st.child).bind (fun e => e.parent) with
  | none => clearStep s l
  | some entry => match s.compute.directs.find? (fun d => d.entry = entry) with
    | none => clearStep s l
    | some d =>
      let (m, n, k) := directDims d.buf
      let f := directFuller d.buf t
      let y := fullerRows f (stepAcc st (fieldAt d.buf 8 1) (fieldAt d.buf 9 1) k 64) 64 [] 64
      let out := (y.1.zipIdx).foldl (fun (o : Mem) x =>
        mwrite o (elemBytes f.outFmt ((64 * (t / (n / 64)) + x.2) * n + 64 * (t % (n / 64)))) (packCodes f.outFmt x.1)) d.out
      let u := 0x6108 + l
      let s := count (count (count (clearStep s l) u 5 1) u 6 1) u 4 y.2.1
      let s := directMod s entry (fun d => { d with out := out, undrained := d.undrained - 1, saturated := d.saturated + y.2.1 })
      let s := freeFamily s st.child
      if d.undrained ≤ 1 then
        finishData s entry .success (sat 32 (d.saturated + y.2.1)) d.loomsUsed.length (mread out 0 (elemBytes f.outFmt (m * n))) true
      else s

/-- LOOM_STEP_COMPLETE (R171, R175 to R182, R188, R206, R238 to R241): the step on a loom has drained. `done.kv` names the KV page into
which the rows of a ticket's step go, if they do: how a kernel's plan tells the fuller so is not stated (log entry 24). -/
def execLoomStepComplete (loom : Nat) (done : StepEnd) (s : State) : Host.Outcome State Fault Refusal :=
  if stopped s then .next s else
  match (loomOf s loom).step with
  | none => .next s
  | some st =>
    if st.child ≠ done.index then .next s
    else .next (match st.kind with
      | .direct t => tileDrained s loom st t
      | .ticket inv n plan => ticketDrained s loom st inv n plan done.kv)

end Sys2Proof.Machine
end

