-- ==== Sys2Proof/Machine/StreamOps.lean ====
section
/-!
DEFINITION. Operations of the streams (chapter 10): groups of the state store, images, commit, and what a chunk's end does.
-/

namespace Sys2Proof.Machine

/-- The stream of a stream ID, none where it is ABSENT. -/
def streamOf (s : State) (sid : Nat) : Option Stream := tget s.streams.table sid

/-- Put a stream. -/
def streamPut (s : State) (sid : Nat) (st : Stream) : State :=
  { s with streams := { s.streams with table := tput s.streams.table sid st } }

/-- Change a stream that is not ABSENT. -/
def streamMod (s : State) (sid : Nat) (f : Stream → Stream) : State :=
  match streamOf s sid with
  | some st => streamPut s sid (f st)
  | none => s

/-- The stream becomes ABSENT. -/
def streamDrop (s : State) (sid : Nat) : State :=
  { s with streams := { s.streams with table := tdel s.streams.table sid } }

/-- Groups of 64 channel records that a stream of E channels uses (R252). -/
def groupsFor (channels : Nat) : Nat := ceilDiv channels 64

/-- Groups of the state store that a stream holds: its records while resident, and the working copy. -/
def groupsHeld (st : Stream) : Nat :=
  (if st.store.isSome then groupsFor st.channels else 0) + (if st.working.isSome then groupsFor st.channels else 0)

/-- Groups of the state store (R252). -/
def storeGroups : Nat := 2048

/-- Groups in use (OD 0x2701.03). -/
def groupsInUse (s : State) : Nat := (s.streams.table.map (fun p => groupsHeld p.2)).sum

/-- Bytes of homes in use (OD 0x2701.04). -/
def homeBytes (s : State) : Nat := (s.streams.table.map (fun p => 8192 * groupsFor p.2.channels)).sum

/-- The committed records of a stream: in the state store while it is resident, else in its home. -/
def committed (st : Stream) : List Channel := st.store.getD st.home

/-- Does a stream still hold a chunk: admitted, or ended and not yet committed. -/
def holdsChunk (st : Stream) : Bool := st.chunks ≠ [] || st.ended.isSome

/-- The sequence number that the next chunk to be admitted receives (R242). -/
def nextSeq (st : Stream) : Nat := (st.last + st.chunks.length + st.ended.toList.length + 1) % 2 ^ 24

/-- Write a resident stream's committed records home and free its groups (R248, R252). -/
def spill (st : Stream) : Stream := { st with home := committed st, store := none, working := none }

/-- The chunk that an invocation runs: stream ID, stream, chunk. -/
def chunkOfInv (s : State) (inv : Nat) : Option (Nat × Stream × Chunk) :=
  s.streams.table.findSome? (fun p => (p.2.chunks.find? (fun k => k.inv = some inv)).map (fun k => (p.1, p.2, k)))

/-- A stream whose working copy becomes the committed state, and whose last completed sequence is `seq` (R243). -/
def Stream.commit (st : Stream) (seq tick : Nat) : Stream :=
  { st with store := some (st.working.getD (committed st)), working := none, last := seq, doneBell := tick, ended := none }

/-- Commit a chunk of a slice (R243). -/
def commitChunk (s : State) (sid : Nat) (k : Chunk) : State :=
  streamMod s sid (fun st => { st.commit k.seq s.bell.ticks with chunks := st.chunks.filter (fun c => c.entry ≠ k.entry) })

/-- Commit the chunks whose completions the present boundary posts, before it posts them (R243). -/
def commitEnded (s : State) : State :=
  let due (i : Nat) : Bool := s.host.posting.any (fun p => p.entry = i && !p.dma)
  { s with streams := { s.streams with table := s.streams.table.map (fun p => match p.2.ended with
    | some (i, seq) => if due i then (p.1, p.2.commit seq s.bell.ticks) else p
    | none => p) } }

/-! ## Images (Tables 10.3 and 10.4) -/

/-- A channel record as 128 bytes. -/
def channelBytes (c : Channel) : Bytes :=
  [c.kind, c.taps, 0, 0] ++ ((List.range 16).flatMap (fun i => leBytes 4 (coefOf c i))) ++
  ((List.range 15).flatMap (fun i => leBytes 4 (histOf c i)))

/-- A channel record from 128 bytes at an offset. -/
def channelAt (b : Bytes) (off : Nat) : Channel :=
  ⟨fieldAt b off 1, fieldAt b (off + 1) 1, (List.range 16).map (fun i => fieldAt b (off + 4 + 4 * i) 4),
   (List.range 15).map (fun i => fieldAt b (off + 68 + 4 * i) 4)⟩

/-- Coefficients and history words that a kind uses (R238). -/
def channelUses (c : Channel) : Nat × Nat :=
  match c.kind with
  | 0 => (0, 1) | 1 => (1, 1) | 2 => (3, 2) | _ => (c.taps, c.taps - 1)

/-- Is a channel record one that R237 accepts: kind and taps of Table 10.4, finite coefficients in use, zeros elsewhere. -/
def channelOk (c : Channel) : Bool :=
  let u := channelUses c
  decide (c.kind ≤ 3) && (if c.kind = 3 then decide (1 ≤ c.taps) && decide (c.taps ≤ 16) else c.taps = 0) &&
  (List.range 16).all (fun i => if i < u.1 then decide (coefOf c i % 2 ^ 31 < 0x7F800000) else coefOf c i = 0) &&
  (List.range 15).all (fun i => decide (i < u.2) || histOf c i = 0)

/-- Bytes of the image of E channels. -/
def imageLen (e : Nat) : Nat := 64 + 128 * e

/-- LBAs that an image takes (R248). -/
def imageLbas (e size : Nat) : Nat := ceilDiv (imageLen e) size

/-- The image of a stream's committed state. -/
def imageOf (st : Stream) : Bytes :=
  leBytes 2 1 ++ leBytes 2 st.channels ++ [st.program, if st.remoteFed then 1 else 0] ++ leBytes 2 st.handle ++
  leBytes 4 st.source ++ leBytes 2 st.lag ++ leBytes 2 st.rsid ++ leBytes 4 st.last ++ leBytes 4 st.gangs ++
  leBytes 4 st.sliceAt ++ leBytes 4 st.viewAt ++ List.replicate 32 0 ++ (committed st).flatMap channelBytes

/-- Bytes as codeword values of 4,096 bytes each, the tail zeroed. -/
def bytesToUnits (b : Bytes) (units : Nat) : List Nat := (List.range units).map (fun i => fieldAt b (4096 * i) 4096)

end Sys2Proof.Machine
end

