-- ==== Sys2Proof/Machine/Kernel.lean ====
section
/-!
DEFINITION. Programs and invocations (chapters 8 and 9): loading and activation, Run Kernel and Execute Program, the start,
placement and end of an invocation, and gang faults.
-/

namespace Sys2Proof.Machine

open Host (Outcome)

/-! ## The kernel store and programs -/

/-- Change a program slot. -/
def programMod (s : State) (p : Nat) (f : Program → Program) : State :=
  { s with compute := { s.compute with programs := tmod s.compute.programs p .reset f } }

/-- Kernel store in use: packages as received and the cached translations (R219, Table 9.9). -/
def storeInUse (s : State) : Nat :=
  (s.compute.programs.map (fun p => receivedBytes p.2)).sum + (s.compute.cache.map (fun c => Config.translatedBytes c.1)).sum

/-- The kernel store limit (OD 0x2600.08). -/
def storeLimit : Nat := 4294967296

/-- Subsystem Local Memory: 104 GiB (Table 1.11). -/
def slmSize : Nat := 104 * 2 ^ 30

/-- Is a program active: translated, or active with its translation due. -/
def programActive (s : State) (p : Nat) : Bool := decide (2 ≤ (programOf s p).state)

/-- Invocations of a program that have started. -/
def runningInvs (s : State) (p : Nat) : Nat := (s.compute.invs.filter (fun v => v.2.program = p && v.2.started)).length

/-- Invocations of a program in flight. -/
def invsOf (s : State) (p : Nat) : Nat := (s.compute.invs.filter (fun v => v.2.program = p)).length

/-- Add a run of bytes to a list of runs that are apart and rising: those that it meets become one with it. -/
def addRun : List (Nat × Nat) → Nat → Nat → List (Nat × Nat)
  | [], a, b => [(a, b)]
  | (c, d) :: t, a, b =>
    if b < c then (a, b) :: (c, d) :: t
    else if d < a then (c, d) :: addRun t a b
    else addRun t (min a c) (max b d)

/-- LOAD_PROGRAM (R219, R223): stores bytes of a package and checks nothing else. -/
def execLoadProgram (h : HostId) (pind off : Nat) (data : Bytes) (s : State) : Outcome State Fault Refusal :=
  .next (serveQuietAdmin s h (fun s i =>
    if 31 < pind ∨ 67108864 < off + data.length then finish s i .invalidField 0 0
    else if programActive s pind then finish s i .commandSequenceError 0 0
    else
      let old := programOf s pind
      let base : Program := if off = 0 then .reset else old
      let next : Program := { base with
        pkg := mwrite base.pkg off data, stored := max base.stored (off + data.length)
        parts := addRun base.parts off (off + data.length), state := 1 }
      if storeLimit < storeInUse s - receivedBytes old + receivedBytes next then finish s i .insufficientCapacity 0 0
      else finish (programMod s pind (fun _ => next)) i .success 0 0))

/-- Write the last activation (OD 0x2613) and count it. -/
def recordActivation (s : State) (pind code detail : Nat) : State :=
  let s := { s with compute := { s.compute with actProgram := pind, actResult := code, actDetail := detail } }
  count s 0x600C (if code = 0 then 1 else 2) 1

/-- The physical register count that translation gives (R190): a multiple of 8 from 16 to 256. -/
def physRegsOf (digest : Nat) : Nat := 16 + 8 * (Config.translatedRegs digest % 31)

/-- Translate a program, or take the translation from the cache (R224, R225). Answers the bytes that the kernel store is
short of, if any. A full cache of 64 images gives up its oldest. -/
def translate (s : State) (pind : Nat) : Nat × State :=
  let digest := headerDigest (programOf s pind)
  let set (s : State) : State := programMod s pind (fun p => { p with digest := digest, physRegs := physRegsOf digest })
  if s.compute.cache.any (fun c => c.1 = digest) then (0, count (set s) 0x600C 4 1)
  else
    let cache := s.compute.cache.drop (s.compute.cache.length - 63)
    let s' := { s with compute := { s.compute with cache := cache ++ [(digest, physRegsOf digest)] } }
    if storeLimit < storeInUse s' then (storeInUse s' - storeLimit, s) else (0, count (set s') 0x600C 3 1)

/-- Bytes of local memory of a core that no partition holds. -/
def freeLocal (s : State) (core : Nat) : Nat := 65536 - ((coreOf s (core + 24)).parts.map (fun p => p.2)).sum

/-- The cores for a program's partitions (R221): most free local memory first, lower number on ties. Answers how many cores
have room, and those that are taken. -/
def partitionCores (s : State) (p : Program) : Nat × List Nat :=
  let size := 1024 * manifestField p 42 2
  let room := (List.range 48).filter (fun c => decide (size ≤ freeLocal s c))
  let order := sortBy (fun a b => decide (freeLocal s b < freeLocal s a) || (freeLocal s a = freeLocal s b && decide (a ≤ b))) room
  (room.length, order.take (manifestField p 45 1))

/-- Give a program its partitions. -/
def allocate (s : State) (pind : Nat) (cores : List Nat) : State :=
  let size := 1024 * manifestField (programOf s pind) 42 2
  let s := cores.foldl (fun s c => coreMod s (c + 24) (fun x => { x with parts := tput x.parts pind size })) s
  programMod s pind (fun p => { p with cores := cores })

/-- Take a program's partitions away, with what they hold. -/
def deallocate (s : State) (pind : Nat) : State :=
  let s := (programOf s pind).cores.foldl (fun s c =>
    coreMod s (c + 24) (fun x => { x with parts := tdel x.parts pind, localMem := tdel x.localMem pind })) s
  programMod s pind (fun p => { p with cores := [] })

/-- The steps of an activation after the checks (R220): translation and partitions. Answers a failure, if any. -/
def activate (s : State) (pind : Nat) : Option (Nat × Nat) × State :=
  let t := translate s pind
  if t.1 ≠ 0 then (some (0x0D, t.1), s)
  else
    let c := partitionCores t.2 (programOf t.2 pind)
    if c.2.length < manifestField (programOf t.2 pind) 44 1 then (some (0x0C, c.1), t.2)
    else (none, programMod (allocate t.2 pind c.2) pind (fun p => { p with state := 2 }))

/-- PROGRAM_ACTIVATE (R211 to R218, R220, R221, R223): the checks in order, translation, partitions. A failing activation
completes with Invalid Field in Command, DW0 holding the result code, and leaves the index loaded. -/
def execProgramActivate (h : HostId) (pind : Nat) (s : State) : Outcome State Fault Refusal :=
  .next (serveQuietAdmin s h (fun s i =>
    if 31 < pind then finish s i .invalidField 0 0
    else if programActive s pind then finish s i .success 0 0
    else
      match checkPackage s (programOf s pind) with
      | some (code, some d) => finish (recordActivation s pind code d) i .invalidField code 0
      | some (code, none) =>
        let f := drawFree s
        finish (recordActivation f.2 pind code (f.1 % 2 ^ 32)) i .invalidField code 0
      | none => match activate s pind with
        | (some (code, d), s) => finish (recordActivation s pind code d) i .invalidField code 0
        | (none, s) => finish (recordActivation s pind 0 0) i .success 0 0))

/-- PROGRAM_DEACTIVATE (R222, R223): only with no invocation of the program in flight. -/
def execProgramDeactivate (h : HostId) (pind : Nat) (s : State) : Outcome State Fault Refusal :=
  .next (serveQuietAdmin s h (fun s i =>
    if 31 < pind then finish s i .invalidField 0 0
    else if invsOf s pind ≠ 0 then finish s i .commandSequenceError 0 0
    else if programActive s pind then
      finish (programMod (deallocate s pind) pind (fun p => { p with state := 1 })) i .success 0 0
    else finish s i .success 0 0))

/-- MEMORY_RANGE_SET_MANAGEMENT (R230): 1 to 8 ranges of Subsystem Local Memory; a set in use cannot be deleted. -/
def execMemoryRangeSetManagement (h : HostId) (create : Bool) (rsid : Nat) (ranges : List (Nat × Nat)) (s : State) :
    Outcome State Fault Refusal :=
  .next (serveAdmin s h false (fun s i =>
    let known := (tget s.compute.rangeSets rsid).isSome
    if create then
      if rsid = 0 || decide (65535 < rsid) || known || ranges = [] || decide (8 < ranges.length) ||
          ranges.any (fun r => decide (slmSize < r.1 + r.2)) then finish s i .invalidField 0 0
      else finish { s with compute := { s.compute with rangeSets := tput s.compute.rangeSets rsid ranges } } i .success rsid 0
    else if !known then finish s i .invalidField 0 0
    else if s.compute.invs.any (fun v => v.2.rsid = rsid) then finish s i .commandSequenceError 0 0
    else finish { s with compute := { s.compute with rangeSets := tdel s.compute.rangeSets rsid } } i .success 0 0))

/-! ## Run Kernel and Execute Program -/

/-- Fields of a run block that break Table 9.7 or 9.8, apart from what the manifest fixes (R226). `tail` is where the
reserved bytes begin: 40 in Run Kernel, 44 in Stream Feed. -/
def runFieldsBad (s : State) (pind rsid gangs length tail : Nat) (b : Bytes) : Bool :=
  let inAt := fieldAt b 16 4
  let inLen := fieldAt b 20 4
  let outLen := fieldAt b 32 4
  let outAt := fieldAt b 36 4
  decide (31 < pind) || decide (65536 < gangs) || length % 64 ≠ 0 || decide (length < 64) || decide (2097152 < length) ||
  decide (inAt < 64) || decide (outAt < 64) || decide (length < inAt + inLen) || decide (length < outAt + outLen) ||
  overlaps (inAt, inLen) (outAt, outLen) || fieldAt b tail (64 - tail) ≠ 0 ||
  (rsid ≠ 0 && (tget s.compute.rangeSets rsid).isNone)

/-- Bytes of a staged read. -/
def stagedBytesOf (s : State) (nsid count : Nat) : Nat := ((nsOf s nsid).map (fun n => count * lbaSize n.lbaf)).getD 0

/-- The regions of the loft window that a run block names: staged data, input, output. -/
def runRegions (s : State) (nsid : Nat) (b : Bytes) : List (Nat × Nat) :=
  [(fieldAt b 12 4, stagedBytesOf s nsid (fieldAt b 8 4)), (fieldAt b 24 4, fieldAt b 20 4), (fieldAt b 28 4, fieldAt b 32 4)]

/-- What of a run block breaks the manifest: the NSID, the staged read, a region outside the loft window (R226). -/
def runManifestBad (s : State) (pind nsid : Nat) (b : Bytes) : Bool :=
  let p := programOf s pind
  let staged := fieldAt b 8 4
  (if manifestField p 39 1 = 1 then (nsOf s nsid).isNone else nsid ≠ 0 || staged ≠ 0) ||
  (runRegions s nsid b).any (fun r => decide (manifestField p 52 4 < r.1 + r.2))

/-- Is a staged read outside its namespace. -/
def stagedOutside (s : State) (nsid : Nat) (b : Bytes) : Bool :=
  fieldAt b 8 4 ≠ 0 && decide (((nsOf s nsid).map (fun n => n.nsze)).getD 0 < fieldAt b 0 8 + fieldAt b 8 4)

/-- A new invocation that has not started, its parent entry WAITING until it does (R227). Answers its number. -/
def addInvocation (s : State) (v : Invocation) : Nat × State :=
  let n := s.compute.nextInv
  (n, setState { s with compute := { s.compute with invs := tput s.compute.invs n v, nextInv := n + 1 } } v.entry .waiting)

/-- The invocation of a run block. -/
def runInvocation (s : State) (entry pind rsid gangs nsid : Nat) (b : Bytes) : Invocation where
  entry := entry
  program := pind
  gangs := if gangs = 0 then manifestField (programOf s pind) 48 4 else gangs
  nextGang := 0
  gangsDone := 0
  started := false
  rsid := rsid
  nsid := nsid
  window := []
  windowSize := manifestField (programOf s pind) 52 4
  input := slice b (fieldAt b 16 4) (fieldAt b 20 4)
  inputAt := fieldAt b 24 4
  stagedLba := fieldAt b 0 8
  stagedLen := fieldAt b 8 4
  stagedAt := fieldAt b 12 4
  outAt := fieldAt b 28 4
  outLen := fieldAt b 32 4
  outBuf := fieldAt b 36 4
  exitOr := 0
  exitCount := 0
  nextTicket := 1
  tickets := []
  barriers := []
  kvRows := []
  stream := none
  viewAt := none
  readyAt := none
  exited := none

/-- RUN_KERNEL (R226, R227): checked before anything is allocated; the invocation then waits for its start. -/
def execRunKernel (h : HostId) (pind rsid gangs length : Nat) (buf : Bytes) (s : State) : Outcome State Fault Refusal :=
  .next (meetVendorIo s h (fun s i =>
    if s.compute.invs.any (fun v => v.2.entry = i) then s
    else if runFieldsBad s pind rsid gangs length 40 buf then finish s i .invalidField 0 0
    else if !programActive s pind then finish s i .commandSequenceError 0 0
    else if runManifestBad s pind h.nsid buf then finish s i .invalidField 0 0
    else if stagedOutside s h.nsid buf then finish s i .lbaOutOfRange 0 0
    else (addInvocation s (runInvocation s i pind rsid gangs h.nsid buf)).2))

/-- EXECUTE_PROGRAM (R229): the data buffer goes into the loft window from offset 0, the default gang count, no output. -/
def execExecuteProgram (h : HostId) (pind ptype rsid : Nat) (data : Bytes) (s : State) : Outcome State Fault Refusal :=
  .next (meetIo s h (fun s i =>
    if s.compute.invs.any (fun v => v.2.entry = i) then s
    else if 31 < pind ∨ ptype ≠ 0xC0 ∨ (rsid ≠ 0 ∧ (tget s.compute.rangeSets rsid).isNone) then finish s i .invalidField 0 0
    else if !programActive s pind then finish s i .commandSequenceError 0 0
    else
      let v := runInvocation s i pind rsid 0 0 []
      (addInvocation s { v with input := data.take v.windowSize }).2))

/-! ## The start of an invocation -/

/-- Loft bytes that the windows of started invocations hold. -/
def loftInUse (s : State) : Nat := ((s.compute.invs.filter (fun v => v.2.started)).map (fun v => v.2.windowSize)).sum

/-- The shared loft: 64 MiB (Table 1.2). -/
def sharedLoft : Nat := 67108864



/-- The state view (R244): h0 of the committed records, 4 bytes each. -/
def stateView (s : State) (v : Invocation) : Bytes :=
  match v.stream.bind (streamOf s) with
  | some st => (committed st).flatMap (fun c => leBytes 4 (histOf c 0))
  | none => []

/-- The first window of an invocation: zeros, then the input and the state view (R227, R244); staged data comes last. -/
def firstWindow (s : State) (v : Invocation) : Mem :=
  let m := mwrite [] v.inputAt v.input
  match v.viewAt with
  | some a => mwrite m a (stateView s v)
  | none => m

/-- The effective class of an invocation. -/
def invClass (s : State) (v : Invocation) : Nat := classAt s v.entry

/-- Free gang slots of a core. -/
def freeSlots (c : Core) : Nat := 16 - c.gangs.length

/-- Free gang registers of a core. -/
def freeRegs (c : Core) : Nat := 2048 - (c.gangs.map (fun g => g.2.physRegs)).sum

/-- May a core take a gang of `regs` registers and effective class `cls` (R190, R192): class 1 and above leave the urgent
reserve intact. A core in RESET takes none (R210), nor does one withdrawn from the plan (R73). -/
def coreTakes (s : State) (cls regs core : Nat) : Bool :=
  let c := coreOf s (core + 24)
  let reserve := if cls = 0 then 0 else odVal s 0x2503 0
  unitOpen s (core + 24) && decide (reserve + 1 ≤ freeSlots c) && decide (128 * reserve + regs ≤ freeRegs c)

/-- The core for the next gang (R191): most free slots, then the lower number. -/
def coreFor (s : State) (cls : Nat) (p : Program) : Option Nat :=
  (sortBy (fun a b =>
      let fa := freeSlots (coreOf s (a + 24))
      let fb := freeSlots (coreOf s (b + 24))
      decide (fb < fa) || (fa = fb && decide (a ≤ b)))
    (p.cores.filter (coreTakes s cls p.physRegs))).head?

/-- A gang that starts: every register 0 (R228), every lane live at instruction 0. -/
def newGang (inv index physRegs : Nat) (urgent : Bool) : Gang where
  inv := inv
  index := index
  regs := []
  pcs := []
  live := 2 ^ 32 - 1
  active := 2 ^ 32 - 1
  stack := []
  current := 0
  slotsUsed := 0
  splits := []
  waited := []
  blocked := []
  quiet := 0
  quietFresh := true
  outstanding := []
  urgent := urgent
  physRegs := physRegs
  fault := none
  faultNo := 0
  faultChime := 0

/-- The lowest gang slot of a core that is free. -/
def freeSlotOf (c : Core) : Nat := ((List.range 16).find? (fun k => (tget c.gangs k).isNone)).getD 0

/-- May the gangs of an invocation be placed at the boundary passed last: the last step of its start was done before it (R227). -/
def gangsDue (s : State) (v : Invocation) : Bool :=
  v.started && decide (v.nextGang < v.gangs) && v.readyAt.any (fun c => decide (c < chimeNow s))

/-- Place up to `n` gangs of an invocation in ascending index (R191). -/
def placeGangs (s : State) (inv : Nat) : Nat → State
  | 0 => s
  | n + 1 =>
    match tget s.compute.invs inv with
    | none => s
    | some v =>
      if !gangsDue s v then s
      else
        let p := programOf s v.program
        let cls := invClass s v
        match coreFor s cls p with
        | none => s
        | some c =>
          let s := coreMod s (c + 24) (fun x => { x with
            gangs := tput x.gangs (freeSlotOf x) (newGang inv v.nextGang p.physRegs (cls = 0)) })
          placeGangs (invMod s inv (fun v => { v with nextGang := v.nextGang + 1 })) inv n

/-- Gang slots of the drive. -/
def allSlots : Nat := 768

/-- The invocations for which a test holds, in the order of R32 of their entries. -/
def invsBy (s : State) (test : Invocation → Bool) : List Nat :=
  let xs := s.compute.invs.filterMap (fun p => if test p.2 then (entryAt s p.2.entry).map (fun e => (p.1, p.2.entry, e)) else none)
  (sortBy (fun a b => before a.2 b.2) xs).map (fun x => x.1)

/-- Has the state store the records that a chunk's invocation needs: while they are being loaded it waits (R252). -/
def recordsLoaded (s : State) (v : Invocation) : Bool :=
  match v.stream with
  | some sid => !s.tally.entries.any (fun p => p.2.origin = .internal 0x12 sid)
  | none => true

/-- Can an invocation start now (R227): its program has fewer than 64 in flight, and its window fits. -/
def canBegin (s : State) (v : Invocation) : Bool :=
  !v.started && recordsLoaded s v && decide (runningInvs s v.program < 64) && decide (loftInUse s + v.windowSize ≤ sharedLoft)

/-- The start of an invocation has come to its last step but one (R225, R227): a translation that is due is made, and its gangs are placed
at the next boundary. `chime` is the boundary passed last when that was so. -/
def beginGangs (s : State) (inv : Nat) (v : Invocation) (chime : Nat) : State :=
  let s := if (programOf s v.program).state = 3 then
      programMod (translate s v.program).2 v.program (fun p => { p with state := 2 }) else s
  setRunning (invMod s inv (fun v => { v with readyAt := some chime })) v.entry

/-- INVOCATION_START (R227): the loft window, the input and the staged read. An invocation that comes first by R32 of those that can
start is the one that does. -/
def execInvocationStart (inv : Nat) (s : State) : Outcome State Fault Refusal :=
  match tget s.compute.invs inv with
  | none => .next s
  | some v =>
    if stopped s || s.dev.state = .paused || (invsBy s (canBegin s)).head? ≠ some inv then .next s
    else
      let s := invMod s inv (fun v => { v with started := true, window := firstWindow s v })
      match nsOf s v.nsid with
      | none => .next (beginGangs s inv v (chimeNow s))
      | some ns =>
        let units := unitsOf ns v.stagedLba v.stagedLen
        if units = [] then .next (beginGangs s inv v (chimeNow s))
        else if ledgerDown s (iusOf ns units) then .next (failRequest s v.entry .unitReset 0)
        else .next (readUnits s v.entry (.staged inv) v.nsid ns units)

/-- The staged read of an invocation has come, before the present boundary (R162, R227). -/
def stagedDone (s : State) (inv : Nat) (j : ReadJob) : State :=
  let s := dropRead s j
  match tget s.compute.invs inv with
  | none => s
  | some v =>
    if j.lost ≠ [] then failRequest s v.entry .unrecoveredRead 0
    else beginGangs (invMod s inv (fun v => { v with window := mwrite v.window v.stagedAt j.bytes })) inv v (chimeNow s - 1)

/-- Place the gangs of one invocation, where a core has room and the energy budget allows (R191, R343). -/
def placeInvocation (s : State) (inv : Nat) : State :=
  match tget s.compute.invs inv with
  | none => s
  | some v =>
    if (coreFor s (invClass s v) (programOf s v.program)).isNone then s
    else withBudget s v.entry (fun s => placeGangs s inv allSlots)

/-- GANG_PLACEMENT (R190 to R192, R227): at a chime boundary, gangs that wait take the slots and registers that are free, in the order of
R32 of their invocations. -/
def execGangPlacement (s : State) : Outcome State Fault Refusal :=
  if stopped s || s.dev.state = .paused || s.power.hold then .next s
  else .next ((invsBy s (gangsDue s)).foldl placeInvocation s)

/-! ## The end of an invocation -/

/-- Have all lanes of all gangs of an invocation exited (R228). -/
def allExited (v : Invocation) : Bool := v.started && decide (v.gangs ≤ v.gangsDone)

/-- Has an invocation rows in hand-off staging whose slice is not yet acknowledged (R250). -/
def sliceOpen (s : State) (inv : Nat) : Bool := s.streams.handRows.any (fun x => x.1 = inv)

/-- An invocation completes the entry of its command (R228): the output region goes to the host buffer first (R447). -/
def endInvocation (s : State) (v : Invocation) (entry dw1 : Nat) : State :=
  finishData s entry .success v.exitOr dw1 (mread v.window v.outAt v.outLen) (v.outLen ≠ 0)

/-- INVOCATION_END (R228, R243, R251): tickets still outstanding are cancelled, and the output goes to the buffer. A chunk commits at the
boundary that posts its completion; that of a slice, which posts none, commits at once. -/
def execInvocationEnd (inv : Nat) (s : State) : Outcome State Fault Refusal :=
  match tget s.compute.invs inv with
  | none => .next s
  | some v =>
    if stopped s || s.dev.state = .paused || !allExited v || sliceOpen s inv then .next s
    else
      match chunkOfInv s inv with
      | some (sid, st, k) =>
        if st.remoteFed then .next (freeFamily (commitChunk s sid k) k.carrier)
        else .next (streamMod (endInvocation s v k.carrier k.seq) sid (fun x => { x with
          ended := some (k.carrier, k.seq), working := st.working }))
      | none => .next (endInvocation s v v.entry (sat 32 v.exitCount))

/-! ## Gang faults -/

/-- Core cycles of `n` bells. -/
def bellCycles (s : State) (n : Nat) : Nat := n * (periodNs s * clockMHz s / 1000)

/-- The lanes of a gang that run: the active mask in CONVERGE mode, the live unblocked lanes in PROGRESS mode. -/
def runningLanes (s : State) (g : Gang) : Nat :=
  let prog := ((tget s.compute.invs g.inv).map (fun v => v.program)).getD 0
  if progressMode s prog then maskOf (readyLanes g)
  else let g := settle g (2 * g.stack.length + 2); maskAnd g.active g.live

/-- GANG_STALL (R201): the stall window passed with no progress event. -/
def execGangStall (ref : GangRef) (s : State) : Outcome State Fault Refusal :=
  match gangAt s ref with
  | none => .next s
  | some g =>
    if stopped s || g.fault.isSome || decide (g.quiet < bellCycles s (odVal s 0x2501 0)) then .next s
    else .next (count (faultGang s ref g 0x01 (runningLanes s g) 0 (odVal s 0x2501 0)) (0x6100 + ref.unit) 8 1)

/-- Fault the gangs that wait at a barrier (R202). -/
def timeOutBarrier (inv : Nat) (s : State) (b : Barrier) : State :=
  (gangsOf s inv).foldl (fun s x =>
    let lanes := (x.2.2.blocked.filter (fun p => waitsAt b p.2)).map (fun p => p.1)
    if lanes = [] || !barrierHolds b x.1 x.2.2 || x.2.2.fault.isSome then s
    else faultGang s ⟨x.1, x.2.1⟩ x.2.2 0x02 (maskOf lanes) 0 (256 * b.scope + b.ident)) s

/-- BARRIER_TIMEOUT (R202): a barrier waited longer than OD 0x2502 bells. -/
def execBarrierTimeout (inv scope ident : Nat) (s : State) : Outcome State Fault Refusal :=
  match tget s.compute.invs inv with
  | none => .next s
  | some v =>
    if stopped s then .next s
    else .next ((v.barriers.filter (fun b =>
      b.scope = scope && b.ident = ident && decide (odVal s 0x2502 0 < s.bell.ticks - b.since))).foldl (timeOutBarrier inv) s)

/-- The log entry of a gang fault (Table 8.8). `part` are the cycles of the present chime in the stall count, which counts whole ones. -/
def faultEntry (s : State) (v : Invocation) (x : Nat × Nat × Gang) (f : GangFault) (others part : Nat) : KernelFaultEntry where
  bell := s.bell.count
  code := f.code
  mode := if progressMode s v.program then 1 else 0
  unit := x.1
  slot := x.2.1
  lanes := f.lanes
  live := x.2.2.live
  pc := lanePc x.2.2 (lowLane f.lanes)
  program := v.program
  gang := x.2.2.index
  addr := f.addr
  detail := f.detail
  parent := ((entryAt s v.entry).map Entry.pack).getD 0
  quiet := sat 32 (x.2.2.quiet + part)
  others := others

/-- GANG_FAULT (R208, R209): at the boundary after a fault was detected the gangs of the invocation end, one log entry is written for the
first faulting gang, event 6 is raised, the core's fault counter grows, and the parent completes with Kernel Fault, DW0 the entry's
sequence number. How far into its chime the stall count stood is a free value (R201). -/
def execGangFault (inv : Nat) (s : State) : Outcome State Fault Refusal :=
  match tget s.compute.invs inv with
  | none => .next s
  | some v =>
    let bad := (gangsOf s inv).filter (fun x => x.2.2.fault.isSome && decide (x.2.2.faultChime < chimeNow s))
    match (sortBy (fun (a b : Nat × Nat × Gang) => decide (a.2.2.faultNo ≤ b.2.2.faultNo)) bad) with
    | [] => .next s
    | x :: _ =>
      if stopped s then .next s
      else
        let f := x.2.2.fault.getD ⟨0, 0, 0, 0⟩
        let (part, s) := drawFree s
        let e := faultEntry s v x f (bad.length - 1) (part % max 1 (chimeCycles s))
        let seq := s.compute.faultsWritten
        let log := s.compute.faultLog ++ [e]
        let s := { s with compute := { s.compute with faultLog := log.drop (log.length - 64), faultsWritten := seq + 1 } }
        let s := count (raiseEvent s 6) (0x6100 + x.1) 4 1
        .next (failRequest s v.entry .kernelFault (seq % 2 ^ 32))

end Sys2Proof.Machine
end

