-- ==== Sys2Proof/Machine/SiftOps.lean ====
section
/-!
DEFINITION. Operations of the sifters (chapter 11): index headers and regions, scores, predicates, the query block, the walk of
a GRAPH search, and the order of results.
-/

namespace Sys2Proof.Machine

/-! ## Index headers (Table 11.4) -/

/-- Format of a header: 0 FLAT, 1 GRAPH, 2 BINNED. -/
def ixFormat (b : Bytes) : Nat := fieldAt b 6 1

/-- Are the codes BINARY. -/
def ixBinary (b : Bytes) : Bool := fieldAt b 7 1 = 1

/-- Metric: 0 L2, 1 IP, 2 COSINE, 3 HAMMING. -/
def ixMetric (b : Bytes) : Nat := fieldAt b 8 1

/-- Does every vector carry an attribute record. -/
def ixRecords (b : Bytes) : Bool := fieldAt b 9 1 = 1

/-- Dimension D, or code bits B. -/
def ixDim (b : Bytes) : Nat := fieldAt b 10 2

/-- Subspaces m. -/
def ixSubs (b : Bytes) : Nat := fieldAt b 12 2

/-- Elements of a subspace. -/
def ixDm (b : Bytes) : Nat := ixDim b / ixSubs b

/-- Vector count N. -/
def ixCount (b : Bytes) : Nat := fieldAt b 24 8

/-- The header's field number `i` of those at bytes 32 to 87: codebook, codes, bin table or nodes, centroids or upper index,
bin count or upper pages, upper node count, entry node. -/
def ixField (b : Bytes) (i : Nat) : Nat := fieldAt b (32 + 8 * i) 8

/-- Bytes of a code. -/
def ixCodeBytes (b : Bytes) : Nat := if ixBinary b then ixDim b / 8 else ixSubs b

/-- Byte of a vector record at which its code begins. -/
def ixCodeAt (b : Bytes) : Nat := if ixRecords b then 48 else 16

/-- The stride S. -/
def ixStride (b : Bytes) : Nat := ceilDiv (ixCodeAt b + ixCodeBytes b) 8 * 8

/-- Records of a block. -/
def ixPerBlock (b : Bytes) : Nat := 4096 / ixStride b

/-- Bytes of the codebook. -/
def ixBookBytes (b : Bytes) : Nat := if ixBinary b then 0 else 1024 * ixDim b

/-- Bytes of a BINNED centroid. -/
def ixCentroidBytes (b : Bytes) : Nat := if ixBinary b then ixDim b / 8 else 4 * ixDim b

/-- Does a header keep Table 11.4 (R256). -/
def headerKept (b : Bytes) : Bool :=
  let f := ixFormat b
  let bin := ixBinary b
  leNat (slice b 0 4) = 0x5853594E && fieldAt b 4 2 = 1 && decide (f ≤ 2) && decide (fieldAt b 7 1 ≤ 1) && decide (ixMetric b ≤ 3) &&
  (decide (ixMetric b = 3) = bin) && decide (fieldAt b 9 1 ≤ 1) &&
  (if bin then ixDim b % 64 = 0 && decide (64 ≤ ixDim b) && decide (ixDim b ≤ 4096) && ixSubs b = 0
   else decide (1 ≤ ixDim b) && decide (ixDim b ≤ 4096) && decide (1 ≤ ixSubs b) && decide (ixSubs b ≤ 256) &&
     ixDim b % ixSubs b = 0 && decide (ixDm b ≤ 64)) &&
  fieldAt b 14 2 = 0 && decide (1 ≤ ixCount b) && decide (ixCount b ≤ 2 ^ 40) && decide (ixStride b ≤ 4096) &&
  ((List.range 5).all (fun i => (f = 2 && i = 4) || ixField b i % 4096 = 0)) &&
  (if f = 2 then decide (1 ≤ ixField b 4) && decide (ixField b 4 ≤ 65536) else true) &&
  (if f = 1 then decide (ixField b 6 < ixCount b) && decide (fieldAt b 88 1 ≤ 15)
   else ixField b 5 = 0 && ixField b 6 = 0 && fieldAt b 88 1 = 0) &&
  (List.range 4007).all (fun i => b.getD (89 + i) 0 = 0)

/-! ## Reading an index -/

/-- The first data unit of an index in its namespace. -/
def ixUnit (ns : Namespace) (slba : Nat) : Nat := slba * unitsPerLba ns.lbaf

/-- Bytes of an index as flash holds them. -/
def flashBytes (s : State) (ns : Namespace) (slba off n : Nat) : Bytes :=
  (List.range n).map (fun i =>
    unitValue s ns (ixUnit ns slba + (off + i) / 4096) / 2 ^ (8 * ((off + i) % 4096)) % 256)



/-- Upper pages of a GRAPH index: one more than the last that its upper index names. -/
def upperPages (read : Nat → Nat → Nat) (b : Bytes) : Nat :=
  (((List.range (ixField b 5)).map (fun i => let a := ixField b 3 + 16 * i; read (a + 12) 4 + read (a + 8) 1)).max?).getD 0

/-- Blocks of the codes region of a FLAT or GRAPH index. -/
def codeBlocks (b : Bytes) : Nat := ceilDiv (ixCount b) (ixPerBlock b)

/-- The data units that hold some parts of an index. -/
def unitsAt (ns : Namespace) (slba : Nat) (regions : List (Nat × Nat)) : List Nat :=
  (regions.flatMap (fun r => if r.2 = 0 then [] else
    (List.range ((r.1 + r.2 - 1) / 4096 + 1 - r.1 / 4096)).map (fun i => ixUnit ns slba + r.1 / 4096 + i))).dedup

/-- Bytes of an index as a read job has brought them. -/
def jobBytes (j : ReadJob) (unit0 off n : Nat) : Bytes :=
  (List.range n).map (fun i => j.value (j.units.idxOf (unit0 + (off + i) / 4096)) / 2 ^ (8 * ((off + i) % 4096)) % 256)

/-- The parts that a Mount copies (R256), as (offset, bytes): `pages` is the number of upper pages. -/
def copyRegions (b : Bytes) (resident : Bool) (pages : Nat) : List (Nat × Nat) :=
  let book := (ixField b 0, ixBookBytes b)
  match ixFormat b with
  | 0 => book :: (if resident then [(ixField b 1, 4096 * codeBlocks b)] else [])
  | 1 => [book, (ixField b 1, 4096 * codeBlocks b), (ixField b 3, 16 * ixField b 5), (ixField b 4, 4096 * pages)]
  | _ => [book, (ixField b 2, 16 * ixField b 4), (ixField b 3, ixCentroidBytes b * ixField b 4)]

/-- DRAM that a slot is charged: the copies; for GRAPH the attribute word and code of every node. -/
def slotCharge (b : Bytes) (resident : Bool) (pages : Nat) : Nat :=
  match ixFormat b with
  | 1 => ixBookBytes b + (8 + ixCodeBytes b) * ixCount b + 16 * ixField b 5 + 4096 * pages
  | _ => ((copyRegions b resident pages).map (fun r => r.2)).sum

/-- The upper pages of a mounted slot. -/
def slotPages (x : IndexSlot) : Nat := upperPages (fun a n => leNat (mread x.copy a n)) x.header

/-- Is a byte of an index read from the slot's DRAM copy. -/
def inCopy (x : IndexSlot) (off : Nat) : Bool :=
  (copyRegions x.header x.resident (if x.format = 1 then slotPages x else 0)).any (fun r => decide (r.1 ≤ off) && decide (off < r.1 + r.2))

/-- Bytes of a mounted index as a search reads them: from the copy where the Mount made one, else from flash (R258). -/
def ixBytes (s : State) (x : IndexSlot) (off n : Nat) : Bytes :=
  if inCopy x off then mread x.copy off n
  else match nsOf s x.nsid with
    | some ns => flashBytes s ns x.slba off n
    | none => List.replicate n 0

/-- A little-endian field of a mounted index. -/
def ixNat (s : State) (x : IndexSlot) (off n : Nat) : Nat := leNat (ixBytes s x off n)

/-- Offset of record `r` of block `blk`. -/
def recordAt (b : Bytes) (blk r : Nat) : Nat := ixField b 1 + 4096 * blk + ixStride b * r

/-- Offset of the record of node `n`. -/
def nodeRecord (b : Bytes) (n : Nat) : Nat := recordAt b (n / ixPerBlock b) (n % ixPerBlock b)

/-! ## Scores (R259) -/

/-- Word `i` of a query of FP32 values. -/
def queryWord (q : Bytes) (i : Nat) : Nat := fieldAt q (4 * i) 4

/-- Distance terms of `n` elements: L2, or the negated inner product (IP and COSINE), fma by fma. -/
def sumTerms (metric n : Nat) (q c : Nat → Nat) : Nat :=
  if metric = 0 then
    (List.range n).foldl (fun a i => let d := f32Add (q i) (f32Neg (c i)); f32Fma d d a) 0
  else f32Neg ((List.range n).foldl (fun a i => f32Fma (q i) (c i) a) 0)

/-- Bits in which two byte strings differ. -/
def hamming (a b : Bytes) : Nat :=
  ((a.zip b).map (fun p => ((List.range 8).filter (fun i => bit p.1 i ≠ bit p.2 i)).length)).sum

/-- The FP32 word of a count. -/
def f32Count (n : Nat) : Nat := f32Of (fvOfInt n)

/-- The score of a code against a query. -/
def codeScore (s : State) (x : IndexSlot) (q code : Bytes) : Nat :=
  let b := x.header
  if ixBinary b then f32Count (hamming code q)
  else
    (List.range (ixSubs b)).foldl (fun a k =>
      f32Add a (sumTerms (ixMetric b) (ixDm b) (fun i => queryWord q (k * ixDm b + i))
        (fun i => ixNat s x (ixField b 0 + 4 * ((256 * k + code.getD k 0) * ixDm b + i)) 4))) 0

/-- The score of a BINNED centroid (R260): one subspace of D elements, or by Hamming. -/
def centroidScore (s : State) (x : IndexSlot) (q : Bytes) (bin : Nat) : Nat :=
  let b := x.header
  let at_ := ixField b 3 + ixCentroidBytes b * bin
  if ixBinary b then f32Count (hamming (ixBytes s x at_ (ixCentroidBytes b)) q)
  else sumTerms (ixMetric b) (ixDim b) (queryWord q) (fun i => ixNat s x (at_ + 4 * i) 4)

/-- Does one score come before another; a NaN comes last. -/
def scoreLt (a b : Nat) : Bool :=
  if f32Val a = .nan then false else if f32Val b = .nan then true else fvLt (f32Val a) (f32Val b)

/-- Order of (score, node). -/
def pairLe (a b : Nat × Nat) : Bool := if scoreLt a.1 b.1 then true else if scoreLt b.1 a.1 then false else decide (a.2 ≤ b.2)

/-- Order of results (R262): score, then member, then vector ID. -/
def hitLe (a b : Hit) : Bool :=
  if scoreLt a.score b.score then true
  else if scoreLt b.score a.score then false
  else if a.member ≠ b.member then decide (a.member < b.member)
  else decide (a.vid ≤ b.vid)

/-- Order of the results of a GRAPH search while it runs (R261): score, then node. -/
def nodeLe (a b : Hit) : Bool := pairLe (a.score, a.node) (b.score, b.node)

/-- Add a result and keep the best k of an order. -/
def addHit (le : Hit → Hit → Bool) (k : Nat) (hits : List Hit) (h : Hit) : List Hit := (insertBy le h hits).take k

/-! ## Predicates (Table 11.7, R263) -/

/-- Compare two integers by a compare code. -/
def cmpInt (code : Nat) (a b : Int) : Bool := condHolds code (decide (a < b)) (decide (a = b))

/-- Bytes of a REC_CMP type. -/
def recBytes (ty : Nat) : Nat :=
  match ty with
  | 0 => 1 | 1 => 2 | 2 => 4 | 3 => 8 | 4 => 4 | 5 => 8 | _ => 4

/-- One clause on an attribute word and a record, before NOT. -/
def clauseRaw (c : Bytes) (w : Nat) (rec_ : Bytes) : Bool :=
  let cmp := fieldAt c 1 1 % 8
  let a := fieldAt c 8 8
  let p := fieldAt c 2 1
  let q := fieldAt c 3 1
  match fieldAt c 0 1 with
  | 0 => Nat.land w a = fieldAt c 16 8
  | 1 => Nat.land w a ≠ 0
  | 2 =>
    let v := w / 2 ^ p % 2 ^ q
    if fieldAt c 4 1 = 1 then cmpInt cmp (toInt q v) (toInt 64 a) else cmpInt cmp v a
  | _ =>
    let n := recBytes q
    let v := fieldAt rec_ p n
    let k := a % 2 ^ (8 * n)
    if q = 6 then fcmpHolds cmp (f32Val v) (f32Val k)
    else if q = 4 ∨ q = 5 then cmpInt cmp (toInt (8 * n) v) (toInt (8 * n) k)
    else cmpInt cmp v k

/-- One clause with its NOT. -/
def clauseHolds (c : Bytes) (w : Nat) (rec_ : Bytes) : Bool :=
  if bit (fieldAt c 1 1) 7 then !clauseRaw c w rec_ else clauseRaw c w rec_

/-- The predicate: left to right, each later clause joined by its JOIN; none passes every vector. -/
def predicate (cs : List Bytes) (w : Nat) (rec_ : Bytes) : Bool :=
  match cs with
  | [] => true
  | c :: rest => rest.foldl (fun r c =>
      if bit (fieldAt c 1 1) 6 then r || clauseHolds c w rec_ else r && clauseHolds c w rec_) (clauseHolds c w rec_)

/-- Does a clause keep Table 11.7; REC_CMP needs an index with records (R264). -/
def clauseKept (records : Bool) (c : Bytes) : Bool :=
  let op := fieldAt c 0 1
  let p := fieldAt c 2 1
  let q := fieldAt c 3 1
  decide (op ≤ 3) && fieldAt c 1 1 / 8 % 8 = 0 && decide (fieldAt c 1 1 % 8 ≤ 5) && fieldAt c 5 3 = 0 &&
  (match op with
   | 2 => decide (p ≤ 63) && decide (1 ≤ q) && decide (q ≤ 64) && decide (fieldAt c 4 1 ≤ 1)
   | 3 => decide (p ≤ 31) && decide (q ≤ 6) && fieldAt c 4 1 = 0 && records
   | _ => p = 0 && q = 0 && fieldAt c 4 1 = 0)

/-! ## The query block (Table 11.9) -/

/-- The clauses of a query. -/
def clausesOf (b : Bytes) : List Bytes := (List.range (fieldAt b 4 2)).map (fun i => slice b (fieldAt b 8 4 + 24 * i) 24)

/-- The query vector or code. -/
def queryOf (x : IndexSlot) (b : Bytes) : Bytes := slice b (fieldAt b 0 4) (ixCentroidBytes x.header)

/-- nprobe, W, Ls, H and member count. -/
def qProbe (b : Bytes) : Nat := fieldAt b 20 2
/-- Beam width W. -/
def qBeam (b : Bytes) : Nat := fieldAt b 22 1
/-- List size Ls. -/
def qList (b : Bytes) : Nat := fieldAt b 24 2
/-- Hop limit H. -/
def qHops (b : Bytes) : Nat := fieldAt b 26 2
/-- Member count. -/
def qMembers (b : Bytes) : Nat := fieldAt b 32 4

/-- Member `i` of the member list. -/
def qMember (b : Bytes) (i : Nat) : Nat := fieldAt b (fieldAt b 28 4 + 4 * i) 4

/-- Regions of a query buffer (offset, bytes): query, clauses, member list, result. -/
def queryRegions (x : IndexSlot) (b : Bytes) : List (Nat × Nat) :=
  [(fieldAt b 0 4, ixCentroidBytes x.header), (fieldAt b 8 4, 24 * fieldAt b 4 2), (fieldAt b 28 4, 4 * qMembers b),
   (fieldAt b 12 4, fieldAt b 16 4)]

/-- Does a list of regions overlap. -/
def anyOverlap : List (Nat × Nat) → Bool
  | [] => false
  | r :: rest => rest.any (overlaps r) || anyOverlap rest

/-- What R264 refuses with Invalid Field in Command, apart from the deadline. -/
def queryBad (x : IndexSlot) (guild : Bool) (k contexts length : Nat) (b : Bytes) : Bool :=
  let f := ixFormat x.header
  decide (k < 1) || decide (1024 < k) || decide (1024 < contexts) || length % 64 ≠ 0 || decide (length < 64) ||
  decide (2097152 < length) || fieldAt b 6 2 ≠ 0 || fieldAt b 23 1 ≠ 0 || fieldAt b 36 28 ≠ 0 || decide (16 < fieldAt b 4 2) ||
  (if f = 2 then decide (qProbe b < 1) || decide (ixField x.header 4 < qProbe b) else qProbe b ≠ 0) ||
  (if f = 1 then decide (qBeam b < 1) || decide (16 < qBeam b) || decide (qList b < k) || decide (4096 < qList b) ||
      decide (qHops b < 1) || decide (256 < qHops b)
   else qBeam b ≠ 0 || qList b ≠ 0 || qHops b ≠ 0) ||
  (if guild then decide (qMembers b < 1) || decide (4096 < qMembers b) ||
      (List.range (qMembers b)).any (fun i => decide (2 ^ 17 ≤ qMember b i))
   else qMembers b ≠ 0) ||
  (queryRegions x b).any (fun r => r.2 ≠ 0 && (r.1 % 8 ≠ 0 || decide (length < r.1 + r.2))) ||
  anyOverlap ((0, 64) :: queryRegions x b) ||
  !(clausesOf b).all (clauseKept (ixRecords x.header)) ||
  decide (fieldAt b 16 4 < 64 + 32 * k + (if guild then 4 * qMembers b else 0))

/-- f of R264 in bells. -/
def siftLead (s : State) : Nat := ceilDiv 40000 (periodNs s)

/-- Contexts that a search is to have (R269). -/
def contextsFor (s : State) (x : IndexSlot) (cls wanted : Nat) (b : Bytes) : Nat :=
  let c := if ixFormat x.header = 1 then qBeam b else if wanted = 0 then odVal s 0x2801 0 else wanted
  if cls = 0 then min c (odVal s 0x2810 0) else c

/-- Bytes of a work area (R264). -/
def workBytes (x : IndexSlot) (c k : Nat) (b : Bytes) : Nat :=
  ixSubs x.header * 1024 + c * k * 16 + (if ixFormat x.header = 1 then 8 * (qList b + qHops b * qBeam b * 256) else 0)

/-- Bytes of work areas in use (OD 0x2830.04). -/
def workInUse (s : State) : Nat := ((s.sifters.searches.filter (fun q => q.started)).map (fun q => q.work)).sum

/-! ## What is to be done -/

/-- Score of a GRAPH node from its DRAM code. -/
def nodeScore (s : State) (x : IndexSlot) (q : Bytes) (n : Nat) : Nat :=
  codeScore s x q (ixBytes s x (nodeRecord x.header n + ixCodeAt x.header) (ixCodeBytes x.header))

/-- The upper index entry of a node: level and first upper page. -/
def upperEntry (s : State) (x : IndexSlot) (n : Nat) : Option (Nat × Nat) :=
  ((List.range (ixField x.header 5)).find? (fun i => ixNat s x (ixField x.header 3 + 16 * i) 8 = n)).map (fun i =>
    let a := ixField x.header 3 + 16 * i
    (ixNat s x (a + 8) 1, ixNat s x (a + 12) 4))

/-- The neighbours that a node page lists, in page order (Table 11.6). -/
def pageNeighbours (s : State) (x : IndexSlot) (page : Nat) : List Nat :=
  (List.range (min 256 (ixNat s x (page + 8) 2))).map (fun i => ixNat s x (page + 64 + 8 * i) 8 % 2 ^ 40)

/-- The best of some nodes by (score, node). -/
def bestNode (s : State) (x : IndexSlot) (q : Bytes) (ns : List Nat) : Option (Nat × Nat) :=
  (sortBy pairLe (ns.map (fun n => (nodeScore s x q n, n)))).head?

/-- The walk of one upper level (R261): go to the best neighbour while it is below the present node. Answers the node and the nodes that
have been scored. -/
def descendLevel (s : State) (x : IndexSlot) (q : Bytes) (lv : Nat) : Nat → (Nat × Nat) × List Nat → (Nat × Nat) × List Nat
  | 0, w => w
  | fuel + 1, w =>
    match upperEntry s x w.1.2 with
    | none => w
    | some (level, first) =>
      if level < lv then w
      else
        let ns := pageNeighbours s x (ixField x.header 4 + 4096 * (first + lv - 1))
        let scored := (w.2 ++ ns).dedup
        match bestNode s x q ns with
        | none => w
        | some b => if pairLe b w.1 && b ≠ w.1 then descendLevel s x q lv fuel (b, scored) else (w.1, scored)

/-- The node at which the walk of level 0 begins, and the nodes scored on the way (R261). -/
def descent (s : State) (x : IndexSlot) (q : Bytes) : (Nat × Nat) × List Nat :=
  let e := ixField x.header 6
  ((List.range (fieldAt x.header 88 1)).reverse).foldl (fun w i => descendLevel s x q (i + 1) (ixCount x.header) w)
    ((nodeScore s x q e, e), [e])

/-- The bins of a BINNED search (R260): the nprobe lowest centroid scores, the lower bin on ties. -/
def chosenBins (s : State) (x : IndexSlot) (q b : Bytes) : List Nat :=
  ((sortBy pairLe ((List.range (ixField x.header 4)).map (fun i => (centroidScore s x q i, i)))).take (qProbe b)).map (fun p => p.2)

/-- The blocks of a FLAT or BINNED search: (first block, blocks, vectors). -/
def searchRanges (s : State) (x : IndexSlot) (b : Bytes) : List (Nat × Nat × Nat) :=
  match ixFormat x.header with
  | 0 => [(0, codeBlocks x.header, ixCount x.header)]
  | 2 => ((chosenBins s x (queryOf x b) b).map (fun i =>
      let a := ixField x.header 2 + 16 * i
      (ixNat s x a 8, ixNat s x (a + 8) 4, ixNat s x (a + 12) 4))).filter (fun r => r.2.1 ≠ 0)
  | _ => []

/-- Order of the list of a GRAPH search. -/
def candLe (a b : Nat × Nat × Bool) : Bool := pairLe (a.1, a.2.1) (b.1, b.2.1)

/-- The next batch (R261): the best min(W, unexpanded) unexpanded nodes among the best Ls. -/
def nextBatch (b : Bytes) (cand : List (Nat × Nat × Bool)) : List Nat :=
  (((cand.take (qList b)).filter (fun c => !c.2.2)).take (qBeam b)).map (fun c => c.2.1)

/-- Begin the work of a search. -/
def beginWork (s : State) (x : IndexSlot) (q : Search) : Search :=
  if ixFormat x.header = 1 then
    let w := descent s x (queryOf x q.buf)
    let e := w.1
    { q with cand := [(e.1, e.2, false)], seen := [e.2], upper := w.2, batch := [e.2], todo := [e.2], scored := w.2.length }
  else { q with ranges := searchRanges s x q.buf }

/-- Score the records of one block that pass the predicate (R260, R263). -/
def scanBlock (s : State) (x : IndexSlot) (member : Nat) (q : Search) (block : Bytes) (n : Nat) : Search :=
  let query := queryOf x q.buf
  let cs := clausesOf q.buf
  (List.range n).foldl (fun q r =>
    let a := ixStride x.header * r
    let w := fieldAt block (a + 8) 8
    let rec_ := if ixRecords x.header then slice block (a + 16) 32 else []
    if predicate cs w rec_ then
      { q with
        scored := q.scored + 1
        found := addHit hitLe q.k q.found ⟨codeScore s x query (slice block (a + ixCodeAt x.header) (ixCodeBytes x.header)), member,
          fieldAt block a 8 % 2 ^ 40, w, 0⟩ }
    else q) q

/-- Skip a poisoned block or page (R266). -/
def skipPoisoned (q : Search) : Search := { q with skipped := q.skipped + 1, flags := setBit q.flags 2 }

/-- What a context of a search takes up next: a block with its records, or a node of the batch with 0; and the search after it. -/
def takeTask (x : IndexSlot) (q : Search) : Option (Nat × Nat) × Search :=
  if ixFormat x.header = 1 then
    match q.todo with
    | [] => (none, q)
    | n :: rest => (some (n, 0), { q with todo := rest })
  else match q.ranges with
    | [] => (none, q)
    | (blk, blocks, vecs) :: rest =>
      let n := min vecs (ixPerBlock x.header)
      (some (blk, n), { q with ranges := if blocks ≤ 1 then rest else (blk + 1, blocks - 1, vecs - n) :: rest })

/-- Mark a node expanded. -/
def markExpanded (cand : List (Nat × Nat × Bool)) (n : Nat) : List (Nat × Nat × Bool) :=
  cand.map (fun c => if c.2.1 = n then (c.1, c.2.1, true) else c)

/-- Offset of the level-0 page of a node. -/
def nodePage (b : Bytes) (n : Nat) : Nat := ixField b 2 + 4096 * n

/-- Byte offset in the index of what a context has taken up. -/
def taskAt (b : Bytes) (t : Nat × Nat) : Nat := if ixFormat b = 1 then nodePage b t.1 else ixField b 1 + 4096 * t.1

/-- Expand one node whose page has been read: it joins the results if it passes the predicate. -/
def expandNode (s : State) (x : IndexSlot) (member : Nat) (q : Search) (n : Nat) (page : Bytes) : Search :=
  let q := { q with lists := tput q.lists n ((List.range (min 256 (fieldAt page 8 2))).map (fun i => fieldAt page (64 + 8 * i) 8 % 2 ^ 40)) }
  let a := nodeRecord x.header n
  let w := ixNat s x (a + 8) 8
  if predicate (clausesOf q.buf) w (slice page 16 32) then
    { q with found := addHit nodeLe q.k q.found ⟨nodeScore s x (queryOf x q.buf) n, member, ixNat s x a 8 % 2 ^ 40, w, n⟩ }
  else q

/-- What a context has taken up has been scanned or expanded, or skipped for poison (R260, R261, R266). -/
def taskDone (s : State) (x : IndexSlot) (member : Nat) (q : Search) (t : Nat × Nat) (data : Option Bytes) : Search :=
  let graph := decide (ixFormat x.header = 1)
  let q := if graph then { q with cand := markExpanded q.cand t.1 } else q
  match data with
  | none => skipPoisoned q
  | some b => if graph then expandNode s x member q t.1 b else scanBlock s x member q b t.2

/-- Add the neighbours of one expanded node that have not been seen. -/
def addNeighbours (s : State) (x : IndexSlot) (q : Search) (n : Nat) : Search :=
  (tgetD q.lists n []).foldl (fun q v =>
    if q.seen.contains v then q
    else { q with seen := q.seen ++ [v], cand := insertBy candLe (nodeScore s x (queryOf x q.buf) v, v, false) q.cand
                  scored := if q.upper.contains v then q.scored else q.scored + 1 }) q

/-- The end of a hop (R261): neighbours of the batch, best first; the best Ls and every expanded node stay; the next batch. -/
def endHop (s : State) (x : IndexSlot) (q : Search) : Search :=
  let q := q.batch.foldl (addNeighbours s x) q
  let kept := q.cand.take (qList q.buf) ++ (q.cand.drop (qList q.buf)).filter (fun c => c.2.2)
  let hops := q.hops + 1
  let next := nextBatch q.buf kept
  let stop := decide (qHops q.buf ≤ hops)
  { q with
    cand := kept
    lists := []
    hops := hops
    batch := if stop then [] else next
    todo := if stop then [] else next
    flags := if stop && next ≠ [] then setBit q.flags 1 else q.flags }

/-- Has a search nothing left that no context has taken up, and nothing under way. -/
def workDone (q : Search) : Bool := q.ranges = [] && q.todo = [] && q.contexts.all (fun c => c.task.isNone)

/-- The hop of a GRAPH search ends once the last node of its batch has been expanded. -/
def hopStep (s : State) (x : IndexSlot) (q : Search) : Search :=
  if ixFormat x.header = 1 && q.batch ≠ [] && workDone q then endHop s x q else q

/-! ## The result block (Table 11.10) -/

/-- A result record. -/
def hitBytes (h : Hit) : Bytes := leBytes 8 h.vid ++ leBytes 4 h.score ++ leBytes 4 h.member ++ leBytes 8 h.attr ++ List.replicate 8 0

/-- Members that are missing: not answered and with a reason. -/
def missingOf (q : Search) : List Asked := q.asked.filter (fun a => !a.answered)

/-- The results of a search in their order (R262): its own and those of other members, the best k. -/
def finalHits (q : Search) : List Hit := (sortBy hitLe (q.found ++ q.hits)).take q.k

/-- The result block of a search, with `pad` in place of the records that it does not fill: the block of k results is written whole
(Table 11.14), and the spec gives those bytes no value. -/
def resultBlock (q : Search) (pad : Bytes) : Bytes :=
  let hits := finalHits q
  leBytes 2 hits.length ++ leBytes 2 q.flags ++ leBytes 4 (sat 32 q.scored) ++ leBytes 4 q.hops ++ leBytes 4 q.skipped ++
  leBytes 4 q.asked.length ++ leBytes 4 (q.asked.filter (fun a => a.answered)).length ++ leBytes 4 (missingOf q).length ++
  List.replicate 4 0 ++ leBytes 8 q.finalise ++ List.replicate 24 0 ++ hits.flatMap hitBytes ++
  (missingOf q).flatMap (fun a => leBytes 4 (a.member % 2 ^ 17 + 2 ^ 24 * a.reason)) ++ pad

/-- Bytes of the records that a result block does not fill. -/
def padBytes (q : Search) : Nat := 32 * (q.k - (finalHits q).length)

/-- A result record read back from a reply. -/
def hitAt (b : Bytes) (i : Nat) : Hit :=
  let a := 64 + 32 * i
  ⟨fieldAt b (a + 8) 4, fieldAt b (a + 12) 4, fieldAt b a 8, fieldAt b (a + 16) 8, 0⟩

end Sys2Proof.Machine
end

