-- ==== Sys2Proof/Machine/Sifter.lean ====
section
/-!
DEFINITION. Searches on the sifters (chapter 11): contexts, mounting, Sift and Guild Sift, yield points, finalising and merging.
-/

namespace Sys2Proof.Machine

open Host (Outcome)

/-! ## Contexts -/

/-- The contexts that hold a place, of all searches. -/
def placedContexts (s : State) : List Context :=
  s.sifters.searches.flatMap (fun q => q.contexts.filter (fun c => c.st ≠ .shelved))

/-- Contexts in use on sifter `sf` (0 to 127). -/
def contextsOn (s : State) (sf : Nat) : List Nat :=
  ((placedContexts s).filter (fun c => c.sifter = sf)).map (fun c => c.ctx)

/-- The sifter with the fewest contexts in use that has room, the lower number on ties (R254). One in RESET, or withdrawn
from the plan (R73), takes none. -/
def sifterFor (s : State) : Option Nat :=
  ((sortBy (fun (a b : Nat × Nat) => decide (a.1 < b.1) || (a.1 = b.1 && decide (a.2 ≤ b.2)))
    (((List.range 128).filter (fun i => unitOpen s (72 + i))).map (fun i => ((contextsOn s i).length, i)))).find?
    (fun p => decide (p.1 < 1024))).map (fun p => p.2)

/-- The lowest free context of a sifter. -/
def freeContext (s : State) (sf : Nat) : Nat := ((List.range 1024).find? (fun c => !(contextsOn s sf).contains c)).getD 0

/-- Change the search of an entry. -/
def searchMod (s : State) (entry : Nat) (f : Search → Search) : State :=
  { s with sifters := { s.sifters with searches := s.sifters.searches.map (fun q => if q.entry = entry then f q else q) } }

/-- The search of an entry. -/
def searchOf (s : State) (entry : Nat) : Option Search := s.sifters.searches.find? (fun q => q.entry = entry)

/-- Change one context, named by its SEARCH entry. -/
def contextMod (s : State) (search entry : Nat) (f : Context → Context) : State :=
  searchMod s search (fun q => { q with contexts := q.contexts.map (fun c => if c.entry = entry then f c else c) })

/-- The READY contexts of a sifter, as (context, search, SEARCH entry, its CLASS). -/
def readyOn (s : State) (sf : Nat) : List (Nat × Nat × Nat × Nat) :=
  s.sifters.searches.flatMap (fun q => (q.contexts.filter (fun c => c.sifter = sf && c.st = .ready)).map (fun c =>
    (c.ctx, q.entry, c.entry, ((entryAt s c.entry).map (fun e => e.cls)).getD 3)))

/-- The context that a sifter runs next (R253): of the READY ones those of CLASS 0 entries first, and of these the next in turn. -/
def nextOn (s : State) (sf : Nat) : Option (Nat × Nat × Nat × Nat) :=
  let all := sortBy (fun (a b : Nat × Nat × Nat × Nat) => decide (a.1 ≤ b.1)) (readyOn s sf)
  let urgent := all.filter (fun c => c.2.2.2 = 0)
  let xs := if urgent = [] then all else urgent
  let last := tgetD s.sifters.ranLast sf 0
  (xs.find? (fun c => decide (last < c.1))).orElse (fun _ => xs.head?)

/-- A sifter that runs no context takes the next (R253). -/
def runNext (s : State) (sf : Nat) : State :=
  if (placedContexts s).any (fun c => c.sifter = sf && c.st = .running) then s
  else match nextOn s sf with
    | none => s
    | some (c, q, e, _) =>
      contextMod { s with sifters := { s.sifters with ranLast := tput s.sifters.ranLast sf c } } q e (fun x => { x with st := .running })

/-- Does a context wait for flash. -/
def awaitsFlash (s : State) (c : Context) : Bool := s.flash.jobs.any (fun j => j.entry = c.entry && j.wants ≠ [])

/-- Give a shelved context a place, where there is one and the energy budget allows (R255, R343): its ORIGIN names sifter and context
(Table 1.9). -/
def placeContext (s : State) (search entry : Nat) : State :=
  match sifterFor s with
  | none => s
  | some sf => withBudget s entry (fun s =>
    let k := freeContext s sf
    let s := contextMod s search entry (fun x => { x with
      sifter := sf, ctx := k, st := if awaitsFlash s x then .memwait else .ready, leave := false })
    let s := entryMod s entry (fun e => { e with
      origin := .search sf k search, unit := 72 + sf, epoch := (unitOf s (72 + sf)).epoch })
    runNext (setRunning s entry) sf)

/-- The shelved contexts in the order of R32, as (search, SEARCH entry). -/
def shelvedOrder (s : State) : List (Nat × Nat) :=
  let xs := s.sifters.searches.flatMap (fun q => (q.contexts.filter (fun c => c.st = .shelved)).filterMap (fun c =>
    (entryAt s c.entry).map (fun e => (q.entry, c.entry, e))))
  (sortBy (fun a b => before a.2 b.2) xs).map (fun x => (x.1, x.2.1))

/-- Place shelved contexts while contexts are free (R268); none in an activation pause or in thermal hold (R347). -/
def placeShelved (s : State) : State :=
  if s.dev.state = .paused || s.power.hold then s else (shelvedOrder s).foldl (fun s p => placeContext s p.1 p.2) s

/-- A context is shelved (R255): its descriptor is in the work area, its SEARCH entry WAITING, and it holds no place. Its reads go on. -/
def shelve (s : State) (search : Nat) (c : Context) : State :=
  let s := contextMod s search c.entry (fun x => { x with st := .shelved, leave := false })
  let s := entryMod s c.entry (fun e => { e with state := .waiting, unit := 0 })
  runNext (count s (0x6100 + 72 + c.sifter) 6 1) c.sifter

/-- The placed context that R32 ranks last among entries of effective class 1 or above and that is not yet to leave. -/
def seizeVictim (s : State) : Option (Nat × Context) :=
  let xs := s.sifters.searches.flatMap (fun q => (q.contexts.filter (fun c => c.st ≠ .shelved && !c.leave)).filterMap (fun c =>
    (entryAt s c.entry).bind (fun e => if effClass e = 0 then none else some (q.entry, c, e))))
  ((sortBy (fun a b => before (a.2.1.entry, a.2.2) (b.2.1.entry, b.2.2)) xs).getLast?).map (fun x => (x.1, x.2.1))

/-- Seize `n` contexts (R268): each is shelved at its next yield point, which a context that is not RUNNING is at already. -/
def seize (s : State) : Nat → State
  | 0 => s
  | n + 1 => match seizeVictim s with
    | none => s
    | some (q, c) =>
      let s := count s (0x6100 + 72 + c.sifter) 4 1
      seize (if c.st = .running then contextMod s q c.entry (fun x => { x with leave := true }) else shelve s q c) n

/-- Shelved contexts of CLASS 0 searches for which no context is being seized yet. -/
def urgentShelved (s : State) : Nat :=
  ((shelvedOrder s).filter (fun p => ((entryAt s p.2).map (fun e => e.cls)).getD 3 = 0)).length -
    ((placedContexts s).filter (fun c => c.leave)).length

/-- The contexts at a chime boundary (R268): free places are taken in the order of R32, and a CLASS 0 search seizes what it still needs. -/
def placeContexts (s : State) : State :=
  let s := placeShelved s
  if s.dev.state = .paused || s.power.hold then s else placeShelved (seize s (urgentShelved s))

/-- One more context of a search: its SEARCH entry is asked for (R254). -/
def askContext (search : Nat) (s : State) (_k : Nat) : State := await s (childReq s search (.search 0 0 search) 0)

/-- A context of a search has its SEARCH entry; it waits for a place. -/
def adoptContext (s : State) (i search : Nat) : State :=
  if (searchOf s search).any (fun q => q.started && !q.finished) then
    setState (searchMod s search (fun q => { q with contexts := q.contexts ++ [⟨i, 0, 0, .shelved, false, none⟩] })) i .waiting
  else freeFamily s i

/-- Start a search whose work area fits (R254, R264, R269): its contexts are asked for. -/
def startSearch (s : State) (entry : Nat) : State :=
  match searchOf s entry with
  | none => s
  | some q =>
    match tget s.sifters.slots q.slot with
    | none => s
    | some x =>
      if q.started || decide (2147483648 < workInUse s + q.work) then s
      else
        let s := searchMod s entry (fun q => { beginWork s x q with started := true })
        (List.range q.wanted).foldl (askContext entry) (setRunning s entry)

/-- The searches that wait for a work area, in the order of R32. -/
def waitingSearches (s : State) : List Nat :=
  let xs := (s.sifters.searches.filter (fun q => !q.started)).filterMap (fun q => (entryAt s q.entry).map (fun e => (q.entry, e)))
  (sortBy before xs).map (fun x => x.1)

/-- The searches that can start at a chime boundary, before admission. -/
def startSearches (s : State) : State := (waitingSearches s).foldl startSearch s

/-! ## Mounting -/

/-- Subsystem Local Memory that the drive itself holds: kernel store, homes, index slots, hand-off staging, receive staging
(R294), LONG_HAUL buffers (R281). -/
def slmHeld (s : State) : Nat :=
  storeInUse s + homeBytes s + (s.sifters.slots.map (fun p => p.2.charged)).sum +
  (if (List.range 255).any (fun i => odVal s 0x2920 (i + 1) ≠ 0) then 268435456 else 0) +
  (if s.fabric.member = .solo then 0 else 1073741824) +
  67108864 * ((List.range 10).filter (fun p => odVal s 0x2910 (p + 1) = 2)).length



/-- Does a region of an index lie outside its namespace. -/
def regionsOutside (ns : Namespace) (slba : Nat) (regions : List (Nat × Nat)) : Bool :=
  regions.any (fun r => decide (ns.nsze * lbaSize ns.lbaf < slba * lbaSize ns.lbaf + r.1 + r.2))

/-- A read of parts of an index for its Mount (R256); none while a ledger processor that it needs is in RESET (R132). -/
def readIndex (s : State) (i slot nsid : Nat) (ns : Namespace) (slba : Nat) (regions : List (Nat × Nat)) : State :=
  let units := unitsAt ns slba regions
  if ledgerDown s (iusOf ns units) then failRequest s i .unitReset 0 else readUnits s i (.mount slot) nsid ns units

/-- The Mounts that still read the header of their index: entry, first LBA, RESIDENT. -/
def mountAsked (s : State) (i slot slba : Nat) (resident : Bool) : State :=
  { s with sifters := { s.sifters with mounts := s.sifters.mounts ++ [⟨i, slot, slba, resident⟩] } }

/-- SIFT_MOUNT (R256): the header is read. -/
def execSiftMount (h : HostId) (slot slba : Nat) (resident : Bool) (s : State) : Outcome State Fault Refusal :=
  .next (serveVendorIo s h (fun s i =>
    match nsOf s h.nsid with
    | none => finish s i .invalidNamespace 0 0
    | some ns =>
      if 15 < slot ∨ ns.nsze * lbaSize ns.lbaf < slba * lbaSize ns.lbaf + 4096 then finish s i .invalidField 0 0
      else if (tget s.sifters.slots slot).isSome then finish s i .commandSequenceError 0 0
      else readIndex (mountAsked s i slot slba resident) i slot h.nsid ns slba [(0, 4096)]))

/-- The header of an index has been read (R256): it is checked, the slot is MOUNTING, and the parts that a search reads at random are
copied to DRAM. The number of upper pages is taken from the upper index as it stands. -/
def headerRead (s : State) (m : MountReq) (j : ReadJob) : State :=
  match nsOf s j.nsid with
  | none => finish s m.entry .invalidNamespace 0 0
  | some ns =>
    let b := j.bytes.take 4096
    let pages := if ixFormat b = 1 then upperPages (fun a n => leNat (flashBytes s ns m.slba a n)) b else 0
    let regions := copyRegions b m.resident pages
    let charge := slotCharge b m.resident pages
    let all := (s.sifters.slots.map (fun p => p.2.charged)).sum
    if (tget s.sifters.slots m.slot).isSome then finish s m.entry .commandSequenceError 0 0
    else if !headerKept b || regionsOutside ns m.slba regions then finish s m.entry .invalidField 0 0
    else if odVal s 0x2802 0 < all + charge ∨ slmSize < slmHeld s + charge then finish s m.entry .insufficientCapacity 0 0
    else
      let x : IndexSlot := ⟨1, m.entry, j.nsid, m.slba, m.resident, ixFormat b, fieldAt b 7 1, ixMetric b, ixRecords b, ixDim b, ixSubs b,
        fieldAt b 16 8, ixCount b, ixField b 4, b, charge, []⟩
      readIndex { s with sifters := { s.sifters with slots := tput s.sifters.slots m.slot x } } m.entry m.slot j.nsid ns m.slba regions

/-- The copy of a Mount has been read: the slot is MOUNTED. -/
def copyRead (s : State) (slot : Nat) (x : IndexSlot) (j : ReadJob) : State :=
  let unit0 := ((nsOf s x.nsid).map (fun ns => ixUnit ns x.slba)).getD 0
  let pages := if x.format = 1 then upperPages (fun a n => leNat (jobBytes j unit0 a n)) x.header else 0
  let copy := (copyRegions x.header x.resident pages).foldl (fun m r => mwrite m r.1 (jobBytes j unit0 r.1 r.2)) []
  finish { s with sifters := { s.sifters with slots := tput s.sifters.slots slot { x with st := 2, copy := copy } } } j.entry
    .success (ceilDiv x.charged 1048576) 0

/-- A read of a Mount has come (R162, R256). -/
def mountDone (s : State) (slot : Nat) (j : ReadJob) : State :=
  let m := s.sifters.mounts.find? (fun m => m.entry = j.entry)
  let s := dropRead s j
  let s := { s with sifters := { s.sifters with mounts := s.sifters.mounts.filter (fun m => m.entry ≠ j.entry) } }
  if j.lost ≠ [] then finish s j.entry .unrecoveredRead 0 0
  else match m, (tget s.sifters.slots slot).filter (fun x => x.entry = j.entry) with
    | some m, _ => headerRead s m j
    | none, some x => copyRead s slot x j
    | none, none => s

/-- Searches of a slot in flight, local and remote. -/
def slotSearches (s : State) (slot : Nat) : Nat := (s.sifters.searches.filter (fun q => q.slot = slot)).length

/-- The slot of a number, where it is MOUNTED. -/
def mounted (s : State) (slot : Nat) : Option IndexSlot := (tget s.sifters.slots slot).filter (fun x => x.st = 2)

/-- SIFT_UNMOUNT (R257): refused while a search of the slot is in flight. A slot that is MOUNTING is refused like one that is EMPTY: the
spec gives no status (DESIGN CHOICE, log entry 30). -/
def execSiftUnmount (h : HostId) (slot : Nat) (s : State) : Outcome State Fault Refusal :=
  .next (serveVendorIo s h (fun s i =>
    if 15 < slot then finish s i .invalidField 0 0
    else match mounted s slot with
      | none => finish s i .commandSequenceError 0 0
      | some x =>
        if h.nsid ≠ x.nsid then finish s i .invalidField 0 0
        else if slotSearches s slot ≠ 0 then finish s i .commandSequenceError 0 0
        else finish { s with sifters := { s.sifters with slots := tdel s.sifters.slots slot } } i .success 0 0))

/-! ## Queries -/

/-- A search that begins: fields from its command, nothing found yet. -/
def newSearch (s : State) (entry : Nat) (x : IndexSlot) (f : SiftFields) (guild remote : Bool) (finalise : Nat) (buf : Bytes)
    (local_ : Bool) : Search where
  entry := entry
  slot := f.slot
  k := f.k
  guild := guild
  remote := remote
  partialOk := f.partialOk
  finalise := finalise
  buf := buf
  wanted := if local_ then contextsFor s x (((entryAt s entry).map (fun e => e.cls)).getD 3) f.contexts buf else 0
  work := workBytes x (contextsFor s x (((entryAt s entry).map (fun e => e.cls)).getD 3) f.contexts buf) f.k buf
  started := false
  contexts := []
  ranges := []
  cand := []
  seen := []
  upper := []
  batch := []
  todo := []
  lists := []
  found := []
  hits := []
  scored := 0
  hops := 0
  skipped := 0
  flags := 0
  asked := []
  finished := !local_

/-- Add a search: it waits for the next chime boundary, at which it starts where its work area fits. -/
def addSearch (s : State) (q : Search) : State :=
  setState { s with sifters := { s.sifters with searches := s.sifters.searches ++ [q] } } q.entry .waiting

/-- The finalise bell of a command with a deadline (R267): ADMIT + DEADLINE − f. -/
def finaliseBell (s : State) (entry : Nat) : Nat :=
  match entryAt s entry with
  | some e => if e.deadline = 0 then 0 else e.admitBell + e.deadline - siftLead s
  | none => 0

/-- Is a DEADLINE one that R264 refuses. -/
def deadlineBad (s : State) (guild : Bool) (deadline : Nat) : Bool :=
  (deadline ≠ 0 && decide (deadline ≤ siftLead s)) || (guild && deadline = 0)

/-- SIFT_QUERY (R254, R260, R264): checked at admission; the search then starts at a chime boundary. -/
def execSiftQuery (h : HostId) (q : SiftFields) (buf : Bytes) (s : State) : Outcome State Fault Refusal :=
  .next (meetVendorIo s h (fun s i =>
    if (searchOf s i).isSome then s
    else if 15 < q.slot then finish s i .invalidField 0 0
    else match mounted s q.slot with
      | none => finish s i .commandSequenceError 0 0
      | some x =>
        if queryBad x false q.k q.contexts q.length buf || deadlineBad s false h.deadline then finish s i .invalidField 0 0
        else if h.nsid ≠ x.nsid then finish s i .commandSequenceError 0 0
        else addSearch s (newSearch s i x q false false (finaliseBell s i) buf true)))

/-- The path of a reply in bells (R271): ⌈(d + P ÷ 8) ÷ P⌉, d with the alignment bound. -/
def pathBells (s : State) (member : Nat) : Nat :=
  ceilDiv (delayTo s member + ceilDiv (alignBound s) 1000 + chimeNs s) (periodNs s)

/-- Ask one member of a Guild Sift (R271): not where its reply-by bell does not lie after its arrival bell (reason 6). -/
def askMember (entry slot index k finalise admitBell : Nat) (buf : Bytes) (s : State) (m : Nat) : State :=
  let n := pathBells s m
  let rb := finalise - n
  if rb ≤ admitBell + n then searchMod s entry (fun q => { q with asked := q.asked ++ [⟨m, 6, false, 0, 0⟩] })
  else
    let s := searchMod s entry (fun q => { q with asked := q.asked ++ [⟨m, 3, false, rb, 0⟩] })
    (originate s entry 5 m slot rb 0 3 (leBytes 8 index ++ leBytes 2 k ++ buf) buf.length).2

/-- GUILD_SIFT (R264, R271): one SIFT to each listed member, the local search with d = 0 where the member lists itself. On S non-zero
reserved fields give Invalid Field in Command before Invalid Command Opcode (DESIGN CHOICE, log entry 33). -/
def execGuildSift (h : HostId) (q : SiftFields) (buf : Bytes) (s : State) : Outcome State Fault Refusal :=
  .next (meetVendorIo s h (fun s i =>
    if !s.ident.meshed then finish s i .invalidOpcode 0 0
    else if (searchOf s i).isSome then s
    else if 15 < q.slot then finish s i .invalidField 0 0
    else match mounted s q.slot with
      | none => finish s i .commandSequenceError 0 0
      | some x =>
        if queryBad x true q.k q.contexts q.length buf || deadlineBad s true h.deadline then finish s i .invalidField 0 0
        else if h.nsid ≠ x.nsid then finish s i .commandSequenceError 0 0
        else
          let f := finaliseBell s i
          let members := (List.range (qMembers buf)).map (qMember buf)
          let here := members.contains s.fabric.memberId
          let s := addSearch s (newSearch s i x q true false f buf here)
          let s := setRunning s i
          let admitBell := ((entryAt s i).map (fun e => e.admitBell)).getD 0
          (members.filter (fun m => m ≠ s.fabric.memberId)).foldl (askMember i q.slot x.indexId q.k f admitBell (buf.take q.length)) s))

/-! ## The end of a search -/

/-- The shortest retry-after of the paused members (R265). -/
def shortestRetry (s : State) (q : Search) : Nat :=
  ((((missingOf q).filter (fun a => a.reason = 2)).map (fun a => retryAfter s a.resume)).min?).getD 0

/-- The status that a search completes with, and DW0 (R265). -/
def searchStatus (s : State) (q : Search) : Status × Nat :=
  let dw0 := (finalHits q).length + 65536 * q.flags
  let partial_ := bit q.flags 0 || bit q.flags 2 || bit q.flags 3 || bit q.flags 4
  if !partial_ then (.success, dw0)
  else if q.partialOk then (.partialResult, dw0)
  else if (missingOf q).any (fun a => a.reason = 1) then (.memberLost, dw0)
  else if (missingOf q).any (fun a => a.reason = 2) then (.memberPaused, shortestRetry s q)
  else if bit q.flags 2 then (.unrecoveredRead, dw0)
  else (.deadlineMissed, dw0)

/-- Set SHORT where fewer than k vectors passed and the search was otherwise complete (R265); a search that the hop limit cut is not
(Table 11.14). -/
def withShort (q : Search) : Search :=
  if (finalHits q).length < q.k && Nat.land q.flags 31 = 0 then { q with flags := setBit q.flags 5 } else q

/-- Complete a search: the result block goes to the buffer, or the reply to the originator (R265, R272). -/
def completeSearch (s : State) (entry : Nat) : State :=
  match searchOf s entry, entryAt s entry with
  | some q, some e =>
    let q := withShort q
    let (pad, s) := drawBytes s (padBytes q)
    match e.origin with
    | .host _ _ =>
      let st := searchStatus s q
      finishData s entry st.1 st.2 (sat 32 q.scored) (resultBlock q pad) true
    | _ => match s.fabric.targets.find? (fun t => t.entry = some entry) with
      | some t => answer s t.x 0 (resultBlock q pad) true
      | none => freeFamily s entry
  | _, _ => s

/-- Free every context of a search, and take back the SEARCH entries that it still asks for. -/
def freeContexts (s : State) (entry : Nat) : State :=
  let cs := ((searchOf s entry).map (fun q => q.contexts)).getD []
  let s := (cs.map (fun c => c.entry)).foldl freeFamily s
  let s := { s with tally := { s.tally with waiting := s.tally.waiting.filter (fun r => !(r.parent = some entry && r.origin.kind = .search)) } }
  ((cs.filter (fun c => c.st = .running)).map (fun c => c.sifter)).foldl runNext s

/-- Have all members of a Guild Sift answered, or are they missing for good. -/
def allAnswered (q : Search) : Bool := q.asked.all (fun a => a.answered || a.reason ≠ 3)

/-- The own part of a search has ended: its contexts are freed; a local Sift completes, and a search for another member
replies. A Guild Sift waits for its merge. -/
def ownPartDone (s : State) (entry : Nat) : State :=
  let s := searchMod (freeContexts s entry) entry (fun q => { q with finished := true })
  match searchOf s entry with
  | some q => placeShelved (if q.guild then s else completeSearch s entry)
  | none => s

/-- The member ID that results of this drive carry (Table 11.10): 0 on the S variant. -/
def ownMember (s : State) : Nat := if s.ident.meshed then s.fabric.memberId else 0

/-- The block or page that a context has taken up, as far as it is in hand: its bytes, or none where it is poisoned (R162, R266). -/
def taskData (s : State) (x : IndexSlot) (c : Context) (t : Nat × Nat) : Option Bytes :=
  match s.flash.jobs.find? (fun j => j.entry = c.entry) with
  | some j => if j.lost = [] then some j.bytes else none
  | none => some (mread x.copy (taskAt x.header t) 4096)

/-- The running context finishes what it has taken up: it scans the block or expands the node. -/
def scanTask (s : State) (x : IndexSlot) (q : Search) (c : Context) : State :=
  match c.task with
  | none => s
  | some t =>
    let q' := taskDone s x (ownMember s) q t (taskData s x c t)
    let q' := { q' with contexts := q'.contexts.map (fun y => if y.entry = c.entry then { y with task := none } else y) }
    let q' := hopStep s x q'
    let s := { s with flash := { s.flash with jobs := s.flash.jobs.filter (fun j => j.entry ≠ c.entry) } }
    let s := searchMod s q.entry (fun _ => q')
    count (count s (0x6100 + 72 + c.sifter) 5 (q'.scored - q.scored)) 0x600F 0 (q'.skipped - q.skipped)

/-- A context takes up its next block or node; what is not in the slot's copy is read from flash (R255, R258). -/
def takeUpTask (s : State) (x : IndexSlot) (q : Search) (c : Context) : State :=
  match takeTask x q with
  | (none, _) => s
  | (some t, q') =>
    let s := contextMod (searchMod s q.entry (fun _ => q')) q.entry c.entry (fun y => { y with task := some t, st := .memwait })
    let off := taskAt x.header t
    if inCopy x off then s
    else match nsOf s x.nsid with
      | none => s
      | some ns =>
        let u := ixUnit ns x.slba + off / 4096
        if ledgerDown s (iusOf ns [u]) then failRequest s q.entry .unitReset 0 else readUnits s c.entry .context x.nsid ns [u]

/-- A context that has left the datapath is READY again once what it asked for is in hand: DRAM answers at once (log entry 30), and a
context with nothing taken up has something to run while its search has a block or node left. -/
def readyAgain (s : State) (q : Search) (c : Context) : Bool :=
  if c.task.isSome then !awaitsFlash s c else q.ranges ≠ [] || q.todo ≠ []

/-- Make READY what of a search can run, and let the sifters that run nothing take it up. -/
def readySearch (s : State) (entry : Nat) : State :=
  match searchOf s entry with
  | none => s
  | some q =>
    let s := searchMod s entry (fun q => { q with
      contexts := q.contexts.map (fun c => if c.st = .memwait && readyAgain s q c then { c with st := .ready } else c) })
    ((q.contexts.filter (fun c => c.st ≠ .shelved)).map (fun c => c.sifter)).foldl runNext s

/-- The flash read of a context has come: it is READY again. -/
def contextRead (s : State) (j : ReadJob) : State :=
  match s.sifters.searches.find? (fun q => q.contexts.any (fun c => c.entry = j.entry)) with
  | some q => readySearch s q.entry
  | none => dropRead s j

/-- What the context that leaves the datapath does next: seized, it is shelved and its place taken; with nothing left in a FLAT or BINNED
search it ends; else it takes up its next block or node (R255, R268). -/
def yieldOn (s : State) (x : IndexSlot) (entry : Nat) (c : Context) : State :=
  match searchOf s entry with
  | none => s
  | some q =>
    if c.leave then placeShelved (shelve s entry c)
    else if q.ranges = [] && q.todo = [] then
      if ixFormat x.header = 1 then contextMod s entry c.entry (fun y => { y with st := .memwait })
      else placeShelved (freeFamily s c.entry)
    else takeUpTask s x q c

/-- The search of the context that a sifter runs, with that context and its slot. -/
def runningContext (s : State) (sifter ctx : Nat) : Option (Search × Context × IndexSlot) :=
  s.sifters.searches.findSome? (fun q => (q.contexts.find? (fun c => c.sifter = sifter && c.ctx = ctx && c.st = .running)).bind (fun c =>
    (tget s.sifters.slots q.slot).map (fun x => (q, c, x))))

/-- YIELD_POINT (R253, R255, R259 to R261, R266, R268): the context that a sifter runs has scanned a block or expanded a node, asks for its
next, and leaves the datapath to the next READY context. -/
def execYieldPoint (sifter ctx : Nat) (s : State) : Outcome State Fault Refusal :=
  match runningContext s sifter ctx with
  | none => .next s
  | some (q, c, x) =>
    if stopped s || s.dev.state = .paused then .next s
    else
      let s := scanTask (taskEnds s (72 + sifter)) x q c
      if (searchOf s q.entry).any workDone then .next (ownPartDone s q.entry)
      else .next (readySearch (runNext (yieldOn s x q.entry c) sifter) q.entry)

/-- Finalise a search that has not ended: every context stops, FINALISED is set (R267). -/
def finaliseSearch (s : State) (entry flag : Nat) : State :=
  match searchOf s entry with
  | none => s
  | some q =>
    if q.finished then s
    else placeShelved (searchMod (freeContexts s entry) entry (fun q => { q with finished := true, flags := setBit q.flags flag }))

/-- Chime 0 of a bell has come, or a later boundary. -/
def bellReached (s : State) (bell : Nat) : Bool := bell ≠ 0 && decide (bell ≤ s.bell.count)

/-- SEARCH_FINALISE (R267): at chime 0 of the finalise bell a local Sift ends with what its contexts hold. -/
def execSearchFinalise (search : Nat) (s : State) : Outcome State Fault Refusal :=
  match searchOf s search with
  | none => .next s
  | some q =>
    if stopped s || q.guild || q.remote || !bellReached s q.finalise then .next s
    else .next (completeSearch (finaliseSearch s search 0) search)

/-- REPLY_BY_FINALISE (R272): at chime 0 of the reply-by bell a search served for another member replies with its best k. A
Guild Sift's own search ends one bell before its finalise bell, for d = 0 (R271). -/
def execReplyByFinalise (search : Nat) (s : State) : Outcome State Fault Refusal :=
  match searchOf s search with
  | none => .next s
  | some q =>
    if stopped s then .next s
    else if q.remote then
      if bellReached s q.finalise then .next (completeSearch (finaliseSearch s search 0) search) else .next s
    else if q.guild && bellReached s (q.finalise - 1) then .next (finaliseSearch s search 4)
    else .next s

/-- GUILD_MERGE (R265, R273): at chime 0 of F, or when every member has answered, the replies held make the best k. A member
that has not answered is missing. -/
def execGuildMerge (search : Nat) (s : State) : Outcome State Fault Refusal :=
  match searchOf s search with
  | none => .next s
  | some q =>
    let early := q.finished && allAnswered q
    if stopped s || !q.guild || !(early || bellReached s q.finalise) then .next s
    else
      let s := finaliseSearch s search 4
      let s := searchMod s search (fun q =>
        let q := if early then q else { q with flags := setBit q.flags 0 }
        if missingOf q = [] then q else { q with flags := setBit q.flags 3 })
      .next (completeSearch s search)

/-- A SIFT reply with results is merged into a Guild Sift (R262, R273): best k, counts, HOPS and partial flags. -/
def mergeReply (s : State) (entry member : Nat) (data : Bytes) : State :=
  let n := fieldAt data 0 2
  let flags := fieldAt data 2 2
  let hits := (List.range n).map (hitAt data)
  searchMod s entry (fun q =>
    let f := if bit flags 1 then setBit q.flags 1 else q.flags
    let f := if bit flags 0 || bit flags 2 || bit flags 4 then setBit f 4 else f
    { q with
      hits := hits.foldl (addHit hitLe q.k) q.hits
      scored := q.scored + fieldAt data 4 4
      hops := max q.hops (fieldAt data 8 4)
      skipped := q.skipped + fieldAt data 12 4
      flags := f
      asked := q.asked.map (fun a => if a.member = member then { a with answered := true } else a) })

end Sys2Proof.Machine
end

