-- ==== Sys2Proof/Machine/Stream.lean ====
section
/-!
DEFINITION. The stream commands and the life of chunks and slices (chapter 10).
-/

namespace Sys2Proof.Machine

open Host (Outcome)

/-! ## Feeding -/

/-- Is a state view out of the loft window or over another region (R245). -/
def viewBad (s : State) (st : Stream) (b : Bytes) (at_ : Nat) : Bool :=
  at_ ≠ 0xFFFFFFFF &&
  (decide (manifestField (programOf s st.program) 52 4 < at_ + 4 * st.channels) ||
   (runRegions s st.nsid b).any (overlaps (at_, 4 * st.channels)))

/-- A chunk joins its stream (R242): its STREAM child is asked for, and it waits for that and for its dispatch. -/
def addChunk (s : State) (sid : Nat) (st : Stream) (carrier gangs rsid viewAt : Nat) (sliceAt : Option Nat) (buf : Bytes) : State :=
  let seq := nextSeq st
  let s := await s (childReq s carrier (.stream sid seq) 0)
  setState (streamPut s sid { st with chunks := st.chunks ++ [⟨noEntry, seq, carrier, false, none, gangs, rsid, buf, viewAt, sliceAt⟩] })
    carrier .waiting

/-- The STREAM child of a chunk has its entry (R242). -/
def adoptChunk (s : State) (i sid seq : Nat) : State :=
  match (streamOf s sid).bind (fun st => st.chunks.find? (fun k => k.seq = seq && k.entry = noEntry)) with
  | none => freeFamily s i
  | some k => setState (streamMod s sid (fun st => { st with
      chunks := st.chunks.map (fun c => if c = k then { c with entry := i } else c) })) i .waiting

/-- STREAM_FEED (R242, R245): all checks at admission, in the order of R245; then the chunk waits for its dispatch. -/
def execStreamFeed (h : HostId) (sid rsid gangs length : Nat) (check : Option Nat) (buf : Bytes) (s : State) :
    Outcome State Fault Refusal :=
  .next (meetVendorIo s h (fun s i =>
    if s.streams.table.any (fun p => p.2.chunks.any (fun k => k.carrier = i)) then s
    else match streamOf s sid with
      | none =>
        if 65535 < sid ∨ runFieldsBad s 0 rsid gangs length 44 buf then finish s i .invalidField 0 0
        else finish s i .commandSequenceError 0 0
      | some st =>
        let view := fieldAt buf 40 4
        if runFieldsBad s st.program rsid gangs length 44 buf || h.nsid ≠ st.nsid || viewBad s st buf view ||
            (manifestField (programOf s st.program) 39 1 ≠ 1 && fieldAt buf 8 4 ≠ 0) ||
            (runRegions s st.nsid buf).any (fun r => decide (manifestField (programOf s st.program) 52 4 < r.1 + r.2)) then
          finish s i .invalidField 0 0
        else if st.st ≠ .opened || st.remoteFed || !programActive s st.program then finish s i .commandSequenceError 0 0
        else if check.isSome && check ≠ some (nextSeq st) then finish s i .commandSequenceError 0 0
        else if stagedOutside s st.nsid buf then finish s i .lbaOutOfRange 0 0
        else addChunk s sid st i gangs rsid view none buf))

/-! ## Dispatch -/

/-- The resident streams without a dispatched chunk other than `sid`, the one that completed least recently first (R252). -/
def evictable (s : State) (sid : Nat) : List (Nat × Stream) :=
  sortBy (fun (a b : Nat × Stream) => decide (a.2.doneBell ≤ b.2.doneBell))
    (s.streams.table.filter (fun p => p.1 ≠ sid && p.2.store.isSome && p.2.ended.isNone && !p.2.chunks.any (fun k => k.dispatched)))

/-- Evict until `need` groups are free, at most `n` streams (R252). -/
def makeRoom (s : State) (sid need : Nat) : Nat → State
  | 0 => s
  | n + 1 =>
    if groupsInUse s + need ≤ storeGroups then s
    else match (evictable s sid).head? with
      | none => s
      | some (k, st) => makeRoom (count (streamPut s k (spill st)) 0x600D 2 1) sid need n

/-- Groups that the dispatch of a stream's chunk takes: those of the working copy, and of the records unless they are resident. -/
def groupsNeeded (st : Stream) : Nat := if st.store.isSome then groupsFor st.channels else 2 * groupsFor st.channels

/-- The chunk of a stream that is next to be dispatched, where it has its entry (R242). -/
def nextChunk (st : Stream) : Option Chunk :=
  if st.ended.isSome || st.chunks.any (fun c => c.dispatched) then none else st.chunks.head?.filter (fun k => k.entry ≠ noEntry)

/-- Is there room in the state store for a chunk of a stream, once every stream that may be is evicted (R252). -/
def roomFor (s : State) (sid : Nat) (st : Stream) : Bool :=
  decide (groupsInUse s - ((evictable s sid).map (fun p => groupsHeld p.2)).sum + groupsNeeded st ≤ storeGroups)

/-- The streams whose next chunk can be dispatched, in the order of R32 of the chunks (R252). -/
def dispatchOrder (s : State) : List Nat :=
  let xs := s.streams.table.filterMap (fun p => match nextChunk p.2 with
    | some k => if roomFor s p.1 p.2 then (entryAt s k.entry).map (fun e => (p.1, k.entry, e)) else none
    | none => none)
  (sortBy (fun a b => before a.2 b.2) xs).map (fun x => x.1)

/-- The invocation of a chunk (R245, R251): a feed runs its block, a slice the image's settings. -/
def chunkInvocation (s : State) (sid : Nat) (st : Stream) (k : Chunk) : Invocation :=
  let v := runInvocation s k.entry st.program k.rsid k.gangs st.nsid (if k.sliceAt.isSome then [] else k.buf)
  let v := { v with stream := some sid, viewAt := if k.viewAt = 0xFFFFFFFF then none else some k.viewAt }
  match k.sliceAt with
  | some a => { v with input := k.buf, inputAt := a }
  | none => v

/-- Dispatch the next chunk of a stream, where the state store has room for what it takes (R242, R252). -/
def dispatchChunk (s : State) (sid : Nat) (st : Stream) (k : Chunk) : State :=
  let s := makeRoom s sid (groupsNeeded st) s.streams.table.length
  if storeGroups < groupsInUse s + groupsNeeded st then s
  else
    let s := if st.store.isSome then s else count s 0x600D 1 1
    let p := addInvocation s (chunkInvocation s sid st k)
    streamMod p.2 sid (fun st => { st with
      store := some (committed st), working := some (committed st)
      chunks := st.chunks.map (fun c => if c.entry = k.entry then { c with dispatched := true, inv := some p.1 } else c) })

/-- CHUNK_DISPATCH (R242 to R244, R252): the next chunk in sequence, once no chunk is dispatched and the state store has room for the records
and a working copy, in the order of R32. Records that are not resident are loaded first, by a child of the chunk. -/
def execChunkDispatch (sid : Nat) (s : State) : Outcome State Fault Refusal :=
  match streamOf s sid with
  | none => .next s
  | some st =>
    match nextChunk st with
    | none => .next s
    | some k =>
      if stopped s || s.dev.state = .paused then .next s
      else if !programActive s st.program then .next (failRequest s k.entry .commandSequenceError 0)
      else if (dispatchOrder s).head? ≠ some sid then .next s
      else if st.store.isSome then .next (dispatchChunk s sid st k)
      else if s.tally.waiting.any (fun r => r.origin = .internal 0x12 sid) then .next s
      else .next (await s (childReq s k.entry (.internal 0x12 sid) 0))

/-- The load of a stream's records (job 0x12) has its entry: it is a bell task of one chime, and the chunk is dispatched (R252). -/
def adoptLoad (s : State) (i sid : Nat) : State :=
  match (streamOf s sid).bind (fun st => (nextChunk st).map (fun k => (st, k))) with
  | none => freeFamily s i
  | some (st, k) =>
    let t := dispatchChunk s sid st k
    if ((streamOf t sid).any (fun st => st.working.isSome)) then setRunning t i else freeFamily s i

/-- The loads that began at an earlier boundary are over. -/
def endLoads (s : State) : State :=
  ((s.tally.entries.filter (fun p => (match p.2.origin with | .internal 0x12 _ => true | _ => false) &&
    decide (p.2.admitChime < chimeNow s))).map (fun p => p.1)).foldl freeFamily s

/-! ## Parking -/

/-- Add a Park to a stream. -/
def addPark (s : State) (sid : Nat) (st : Stream) (p : Park) (to_ : StreamSt) : State :=
  setState (streamPut s sid { st with st := to_, parks := st.parks ++ [p] }) p.entry .waiting

/-- Start the SAVE of a Park (R248): the image goes through the ledger as an ordinary write at the Park's class. A write
that cannot start ends the Park with its status. -/
def startSave (sid : Nat) (s : State) (k : Park) : State :=
  match k.save, streamOf s sid with
  | some slba, some st =>
    if s.ledger.writes.any (fun w => w.entry = k.entry) then s
    else match nsOf s st.nsid with
      | none => failRequest s k.entry .invalidNamespace 0
      | some ns =>
        let nlb := imageLbas st.channels (lbaSize ns.lbaf)
        let units := unitsOf ns slba nlb
        if ns.nsze < slba + nlb then failRequest s k.entry .lbaOutOfRange 0
        else if s.ledger.readOnly then failRequest s k.entry .namespaceWriteProtected 0
        else if ledgerDown s (iusOf ns units) then failRequest s k.entry .unitReset 0
        else startWrite s k.entry st.nsid ns units (bytesToUnits (imageOf st) units.length) none
  | _, _ => s

/-- Is a Park's SAVE, if it has one, done. -/
def saveDone (s : State) (k : Park) : Bool := k.save.isNone || jobDone s k.entry

/-- End a Park (R248): DW0 the last completed sequence, DW1 the chunks it stopped. -/
def endPark (last : Nat) (s : State) (k : Park) : State := finish (dropJob s k.entry) k.entry .success last k.stopped

/-- The eviction of a stream as far as it goes now (R248): home, SAVE, RELEASE, and the ends of the Parks. -/
def evict (s : State) (sid : Nat) : State :=
  match streamOf s sid with
  | none => s
  | some st =>
    if holdsChunk st || st.st = .opened || st.parks.any (fun k => k.due) then s
    else
      let s := if st.st = .parking then
          count (streamPut s sid { spill st with st := .parked }) 0x600D 2 1 else s
      let s := st.parks.foldl (startSave sid) s
      let parks := ((streamOf s sid).map (fun st => st.parks)).getD []
      if parks = [] || !parks.all (saveDone s) then s
      else
        let s := streamMod s sid (fun st => { st with parks := [] })
        let s := if parks.any (fun k => k.release) then streamDrop s sid else s
        parks.foldl (endPark st.last) s

/-- STREAM_PARK (R246, R248): an OPEN stream becomes PARKING; a Park of a PARKED stream does steps 2 and 3 of R248. -/
def execStreamPark (h : HostId) (sid : Nat) (release save : Bool) (slba : Nat) (s : State) : Outcome State Fault Refusal :=
  .next (meetVendorIo s h (fun s i =>
    if s.streams.table.any (fun p => p.2.parks.any (fun k => k.entry = i)) then s
    else match streamOf s sid with
      | none => finish s i .commandSequenceError 0 0
      | some st =>
        let p : Park := ⟨i, if save then some slba else none, release, false, false, 0⟩
        if h.nsid ≠ st.nsid then finish s i .invalidField 0 0
        else match st.st with
          | .parking => finish s i .commandSequenceError 0 0
          | .opened => addPark s sid st p .parking
          | .parked => evict (addPark s sid st p .parked) sid))

/-- Stop every chunk of a stream with Stream Parked, the dispatched one first; the working copy goes with it (R247). -/
def stopChunks (s : State) (st : Stream) : State :=
  (st.chunks.map (fun k => k.carrier)).foldl (fun s i => failRequest s i .streamParked 0) s

/-- The Parks with NOW that were admitted before this boundary (R247): the chunks of the stream stop, and it is evicted. -/
def parkNow (s : State) (sid : Nat) : State :=
  match streamOf s sid with
  | none => s
  | some st =>
    if !st.parks.any (fun k => k.due) then s
    else
      let s := stopChunks s st
      evict (streamMod s sid (fun st' => { st' with
        parks := st'.parks.map (fun k => if k.due then { k with due := false, stopped := st.chunks.length } else k) })) sid

/-- Every stream with such a Park. -/
def parkTick (s : State) : State := (s.streams.table.map (fun p => p.1)).foldl parkNow s

/-- STREAM_PARK_NOW (R247): at the next chime boundary it stops the dispatched chunk, completes the others with Stream Parked in sequence
order, discards the working copy, and evicts. Of a PARKED stream it does what a Park without NOW does. -/
def execStreamParkNow (h : HostId) (sid : Nat) (release save : Bool) (slba : Nat) (s : State) : Outcome State Fault Refusal :=
  .next (meetVendorIo s h (fun s i =>
    if s.streams.table.any (fun p => p.2.parks.any (fun k => k.entry = i)) then s
    else match streamOf s sid with
      | none => finish s i .commandSequenceError 0 0
      | some st =>
        if h.nsid ≠ st.nsid then finish s i .invalidField 0 0
        else
          let p : Park := ⟨i, if save then some slba else none, release, true, st.st ≠ .parked, 0⟩
          if st.st = .parked then evict (addPark s sid st p .parked) sid else addPark s sid st p .parking))

/-- STREAM_EVICTION (R246, R248): goes on with the eviction of a stream whose last chunk has completed. -/
def execStreamEviction (sid : Nat) (s : State) : Outcome State Fault Refusal :=
  if stopped s || s.dev.state = .paused then .next s else .next (evict s sid)

/-! ## Resuming -/

/-- The smallest delivery lag that R250 allows for a source member. -/
def minLag (s : State) (source : Nat) : Nat :=
  1 + ceilDiv (delayTo s source + ceilDiv (alignBound s) 1000 + chimeNs s) (periodNs s)

/-- Is an image header one that R237 accepts. -/
def headerOk (s : State) (b : Bytes) : Bool :=
  let e := fieldAt b 2 2
  let prog := fieldAt b 4 1
  let remote := fieldAt b 5 1 = 1
  fieldAt b 0 2 = 1 && decide (1 ≤ e) && decide (e ≤ 4096) && decide (prog ≤ 31) && decide (fieldAt b 5 1 ≤ 1) &&
  programActive s prog && manifestField (programOf s prog) 64 1 = 1 && decide (fieldAt b 16 4 < 2 ^ 24) && fieldAt b 32 32 = 0 &&
  decide (fieldAt b 8 4 < 2 ^ 17) && decide (fieldAt b 20 4 ≤ 65536) &&
  (if remote then s.ident.meshed && decide (minLag s (fieldAt b 8 4) ≤ fieldAt b 12 2)
   else fieldAt b 6 2 = 0 && fieldAt b 8 4 = 0 && fieldAt b 12 2 = 0)

/-- The channel records of an image. -/
def imageChannels (b : Bytes) : List Channel := (List.range (fieldAt b 2 2)).map (fun i => channelAt b (64 + 128 * i))

/-- Is an image one that R237 accepts. -/
def imageOk (s : State) (b : Bytes) : Bool :=
  headerOk s b && (imageChannels b).all channelOk &&
  (List.range (fieldAt b 2 2)).all (fun i => fieldAt b (64 + 128 * i + 2) 2 = 0)

/-- The OPEN stream of an image bound to a namespace. -/
def streamFrom (nsid : Nat) (b : Bytes) : Stream where
  st := .opened
  channels := fieldAt b 2 2
  nsid := nsid
  program := fieldAt b 4 1
  remoteFed := fieldAt b 5 1 = 1
  source := fieldAt b 8 4
  handle := fieldAt b 6 2
  lag := fieldAt b 12 2
  rsid := fieldAt b 14 2
  gangs := fieldAt b 20 4
  sliceAt := fieldAt b 24 4
  viewAt := fieldAt b 28 4
  last := fieldAt b 16 4
  home := imageChannels b
  store := none
  working := none
  chunks := []
  ended := none
  parks := []
  failures := 0
  doneBell := 0

/-- Bytes of homes that the drive can hold (OD 0x2700.05). -/
def homeLimit : Nat := 34359738368

/-- Is a stream in a state in which Stream Resume fails (R249): OPEN or PARKING, or a Park of it is still writing its image. -/
def resumeBusy (s : State) (sid : Nat) : Bool :=
  match streamOf s sid with
  | some st => decide (st.st ≠ .parked) || decide (st.parks ≠ [])
  | none => false

/-- Resume a stream from an image (R249): checked, written to a home, OPEN. -/
def resumeFrom (s : State) (i sid nsid : Nat) (b : Bytes) : State :=
  let old := ((streamOf s sid).map (fun st => 8192 * groupsFor st.channels)).getD 0
  if !imageOk s b then finish s i .invalidField 0 0
  else if homeLimit < homeBytes s - old + 8192 * groupsFor (fieldAt b 2 2) then finish s i .insufficientCapacity 0 0
  else
    let st := streamFrom nsid b
    finish (streamPut s sid st) i .success (nextSeq st) 0

/-- STREAM_RESUME_HOME (R249): a PARKED stream opens from its home. -/
def execStreamResumeHome (h : HostId) (sid : Nat) (s : State) : Outcome State Fault Refusal :=
  .next (serveVendorIo s h (fun s i =>
    match streamOf s sid with
    | none => finish s i .commandSequenceError 0 0
    | some st =>
      if resumeBusy s sid then finish s i .commandSequenceError 0 0
      else if h.nsid ≠ st.nsid then finish s i .invalidField 0 0
      else finish (streamPut s sid { st with st := .opened, failures := 0 }) i .success (nextSeq st) 0))

/-- STREAM_RESUME_INIT (R237, R249): an image from the host buffer. -/
def execStreamResumeInit (h : HostId) (sid length : Nat) (image : Bytes) (s : State) : Outcome State Fault Refusal :=
  .next (serveVendorIo s h (fun s i =>
    if resumeBusy s sid then finish s i .commandSequenceError 0 0
    else if (nsOf s h.nsid).isNone then finish s i .invalidNamespace 0 0
    else if 65535 < sid ∨ length ≠ imageLen (fieldAt image 2 2) then finish s i .invalidField 0 0
    else resumeFrom s i sid h.nsid image))

/-- STREAM_RESUME_LOAD (R249): an image from LBAs of the namespace, which are read first. -/
def execStreamResumeLoad (h : HostId) (sid slba nlb : Nat) (s : State) : Outcome State Fault Refusal :=
  .next (serveVendorIo s h (fun s i =>
    if resumeBusy s sid then finish s i .commandSequenceError 0 0
    else match nsOf s h.nsid with
      | none => finish s i .invalidNamespace 0 0
      | some ns =>
        let units := unitsOf ns slba nlb
        if 65535 < sid then finish s i .invalidField 0 0
        else if ns.nsze < slba + nlb then finish s i .lbaOutOfRange 0 0
        else if ledgerDown s (iusOf ns units) then finish s i .unitReset 0 0
        else readUnits s i (.load sid) h.nsid ns units))

/-- The image of a Stream Resume has come from flash (R162, R249). -/
def loadDone (s : State) (sid : Nat) (j : ReadJob) : State :=
  let s := dropRead s j
  let size := ((nsOf s j.nsid).map (fun ns => lbaSize ns.lbaf)).getD 4096
  if j.lost ≠ [] then finish s j.entry .unrecoveredRead 0 0
  else if resumeBusy s sid then finish s j.entry .commandSequenceError 0 0
  else if 4096 * j.units.length ≠ size * imageLbas (fieldAt j.bytes 2 2) size then finish s j.entry .invalidField 0 0
  else resumeFrom s j.entry sid j.nsid j.bytes

/-! ## Slices -/

/-- The handles that an invocation's rows name, once each. -/
def handlesOf (s : State) (inv : Nat) : List Nat := ((s.streams.handRows.filter (fun x => x.1 = inv)).map (fun x => x.2.1)).dedup

/-- The slice of an invocation for a handle: its rows in the order in which they were written. -/
def sliceOf (s : State) (inv handle : Nat) : Bytes :=
  (s.streams.handRows.filter (fun x => x.1 = inv && x.2.1 = handle)).flatMap (fun x => x.2.2)

/-- Send one slice (R250, R297): STREAM messages of at most 65,536 bytes, then a SEAL carrying bell n. -/
def sendSlice (v : Invocation) (inv seq n : Nat) (s : State) (handle : Nat) : State :=
  let od := odVal s 0x2920 handle
  let dst := od / 2 ^ 32 % 2 ^ 17
  let addr := od % 2 ^ 16 + 2 ^ 16 * handle
  let data := sliceOf s inv handle
  let parts := pieces (data.length / 65536 + 1) data.length
  let s := parts.foldl (fun s p => (originate s v.entry 6 dst addr 0 seq 4 (slice data p.1 p.2) p.2).2) s
  (originate s v.entry 3 dst addr n seq 5 (leBytes 4 parts.length ++ leBytes 8 data.length) 12).2

/-- Has the slice of an invocation been sealed already. -/
def sealSent (s : State) (entry : Nat) : Bool :=
  s.fabric.originated.any (fun o => o.parent = entry && (o.purpose = 4 || o.purpose = 5))

/-- SLICE_SEAL (R250): at the first bell edge after the chunk's gangs have all exited, its slice is sealed for the bell in
which they did. -/
def execSliceSeal (inv : Nat) (s : State) : Outcome State Fault Refusal :=
  match tget s.compute.invs inv with
  | none => .next s
  | some v =>
    match v.exited with
    | none => .next s
    | some (bell, tick) =>
      if stopped s || !s.ident.meshed || decide (s.bell.ticks ≤ tick) || !sliceOpen s inv || sealSent s v.entry then .next s
      else
        let seq := ((chunkOfInv s inv).map (fun x => x.2.2.seq)).getD 0
        .next ((handlesOf s inv).foldl (sendSlice v inv seq bell) s)

/-- SLICE_ADMIT (R242, R250): the slice of a stream that was sealed first is admitted as a chunk at its bell. -/
def execSliceAdmit (sid : Nat) (s : State) : Outcome State Fault Refusal :=
  let mine := s.streams.slices.filter (fun x => x.sid = sid && decide (x.due ≤ s.bell.count))
  match (sortBy (fun (a b : Slice) => decide (a.sealOrder ≤ b.sealOrder)) mine).head? with
  | none => .next s
  | some x =>
    if stopped s || s.dev.state = .paused then .next s
    else
      let s := { s with streams := { s.streams with slices := s.streams.slices.filter (fun y => y ≠ x) } }
      match streamOf s sid with
      | none => .next (freeFamily (count s 0x600D 4 1) x.target)
      | some st =>
        if st.st ≠ .opened then
          .next (freeFamily (count (streamPut s sid { st with failures := sat 32 (st.failures + 1) }) 0x600D 4 1) x.target)
        else .next (addChunk s sid st x.target st.gangs st.rsid st.viewAt (some st.sliceAt) x.data)

end Sys2Proof.Machine
end

