-- ==== Sys2Proof/Machine/Guild.lean ====
section
/-!
DEFINITION. Transactions of the guild (chapter 12): what a target serves, staging and seals, and the originator's side.
-/

namespace Sys2Proof.Machine

open Host (Outcome)

/-! ## Windows -/

/-- Window and byte offset that an aperture address names (R291). -/
def windowOf (addr : Nat) : Nat × Nat := (addr / 2 ^ 42 % 16, addr % 2 ^ 42)

/-- LBA size of a window's namespace, none where it does not exist. -/
def windowLba (s : State) (w : Nat) : Option Nat := (nsOf s (windowField s w 3)).map (fun n => lbaSize n.lbaf)

/-- The status with which a GET or PUT of `len` bytes is refused (R293), none where it is served. An SLM range past the end of
Subsystem Local Memory is refused as RANGE. -/
def windowRefusal (s : State) (addr len : Nat) (write : Bool) : Option Nat :=
  let (w, off) := windowOf addr
  let kind := windowField s w 1
  if kind = 0 ∨ 3 < kind ∨ bit (windowField s w 2) (if write then 1 else 0) = false ∨ (write && kind = 3) = true then some 5
  else if 65536 < len ∨ windowField s w 5 < off + len then some 6
  else if kind = 2 then
    match windowLba s w with
    | none => some 5
    | some b => if off % b ≠ 0 ∨ len % b ≠ 0 then some 6 else none
  else if slmSize < windowField s w 4 + off + len then some 6 else none

/-- First LBA and number of LBAs of a place in a namespace window. -/
def windowLbas (s : State) (w off len : Nat) : Nat × Nat :=
  let b := (windowLba s w).getD 4096
  ((windowField s w 4 + off) / b, len / b)

/-- Serve a GET (R293): data of the window; poison of a namespace window answers UNRECOVERED, and a read outside the namespace RANGE. -/
def serveGet (x : Txn) (s : State) (i : Nat) : State :=
    let (w, off) := windowOf x.addr
    match windowRefusal s x.addr x.length false with
    | some st => answer s x st [] true
    | none =>
      if windowField s w 1 = 2 then
        let nsid := windowField s w 3
        let (slba, nlb) := windowLbas s w off x.length
        match rangeError s nsid slba nlb, nsOf s nsid with
        | some e, _ => answer s x (fabricCode e) [] true
        | none, none => answer s x 5 [] true
        | none, some ns =>
          let units := unitsOf ns slba nlb
          if ledgerDown s (iusOf ns units) then answer s x 10 [] true
          else readUnits (toLedger s i (iusOf ns units)) i .get nsid ns units
      else answer s x 0 (mread s.compute.slm (windowField s w 4 + off) x.length) true

/-- The data of a GET of a namespace window has come (R162, R293): it is answered. -/
def getDone (s : State) (j : ReadJob) : State :=
  match s.fabric.targets.find? (fun t => t.entry = some j.entry) with
  | some t => answer (dropRead s j) t.x (if j.lost = [] then 0 else fabricCode .unrecoveredRead) (if j.lost = [] then j.bytes else []) true
  | none => freeFamily (dropRead s j) j.entry

/-- GET (R293): it is served once it has been admitted. -/
def execGetOp (x : Txn) (s : State) : Outcome State Fault Refusal := .next (meetTxn s x 1 [] 0)

/-- Serve a PUT (R293, R294): it lands in the staging of its group; nothing is visible before the SEAL. -/
def servePut (x : Txn) (data : Bytes) (s : State) : State :=
    match windowRefusal s x.addr data.length true with
    | some st => answer s x st [] true
    | none =>
      if s.fabric.staging.any (fun g => sameGroup g x && g.stream.isSome) then answer s x 6 [] true
      else answer (stageMsg s x x.addr data none) x 0 [] true

/-- PUT (R293, R294). -/
def execPutOp (x : Txn) (data : Bytes) (s : State) : Outcome State Fault Refusal := .next (meetTxn s x 2 data 0)

/-- Is a slice one that its stream takes (R297): remote-fed, OPEN, of this source member and handle. -/
def sliceWelcome (s : State) (x : Txn) : Bool :=
  match streamOf s (x.addr % 2 ^ 16) with
  | some st => st.st = .opened && st.remoteFed && st.source = x.src && st.handle = x.addr / 2 ^ 16 % 2 ^ 16
  | none => false

/-- Serve a STREAM (R297): it stages slice rows; a wrong source or handle, or a stream that is not OPEN, is refused. ACCEPT is the only
answer to rows that are staged (Table 12.6). -/
def serveStream (x : Txn) (data : Bytes) (s : State) (i : Nat) : State :=
    if !sliceWelcome s x then answer s x 9 [] true
    else if 65536 < data.length || s.fabric.staging.any (fun g => sameGroup g x && g.stream.isNone) then answer s x 6 [] true
    else
      let s := stageMsg s x x.addr data (some (x.addr % 2 ^ 16, x.addr / 2 ^ 16 % 2 ^ 16, x.group))
      freeFamily { s with fabric := { s.fabric with targets := s.fabric.targets.map (fun t =>
        if t.entry = some i then { t with entry := none, expiry := s.bell.ticks } else t) } } i

/-- STREAM (R297). -/
def execStreamOp (x : Txn) (data : Bytes) (s : State) : Outcome State Fault Refusal := .next (meetTxn s x 6 data 0)

/-! ## Seals -/

/-- The group of a SEAL. -/
def groupOfSeal (s : State) (x : Txn) : Option StageGroup := s.fabric.staging.find? (fun g => sameGroup g x)

/-- Copy one staged message into a range of Subsystem Local Memory (R294). -/
def commitSlm (s : State) (m : Nat × Bytes) : State :=
  let (w, off) := windowOf m.1
  if windowField s w 1 = 1 then
    { s with compute := { s.compute with slm := mwrite s.compute.slm (windowField s w 4 + off) m.2 } }
  else s

/-- The namespace writes of a group, as (NSID, first LBA, LBAs, bytes). -/
def groupWrites (s : State) (g : StageGroup) : List (Nat × Nat × Nat × Bytes) :=
  g.msgs.filterMap (fun m =>
    let (w, off) := windowOf m.1
    if windowField s w 1 = 2 then
      let l := windowLbas s w off m.2.length
      some (windowField s w 3, l.1, l.2, m.2)
    else none)

/-- Why a namespace write of a group cannot be done, as a reply status. -/
def groupRefusal (s : State) (ws : List (Nat × Nat × Nat × Bytes)) : Option Nat :=
  ws.findSome? (fun w =>
    match rangeError s w.1 w.2.1 w.2.2.1, nsOf s w.1 with
    | some e, _ => some (fabricCode e)
    | none, none => some 5
    | none, some ns =>
      if s.ledger.readOnly then some 5
      else if ledgerDown s (iusOf ns (unitsOf ns w.2.1 w.2.2.1)) then some 10
      else none)

/-- Start one namespace write of a sealed group (R294, R135), at the class of the SEAL's entry. -/
def commitNs (entry : Nat) (s : State) (w : Nat × Nat × Nat × Bytes) : State :=
  match nsOf s w.1 with
  | none => s
  | some ns =>
    let units := unitsOf ns w.2.1 w.2.2.1
    startWrite s entry w.1 ns units (bytesToUnits w.2.2.2 units.length) none

/-- Has the plan for a bell been fixed, or has the bell begun. -/
def planFixedFor (s : State) (bell : Nat) : Bool :=
  decide (bell ≤ s.bell.count) || (bell = s.bell.count + 1 && decide (odVal s 0x2080 0 < s.bell.chime))

/-- Commit a sealed slice (R250, R294): the OK reply goes out, and the slice is held for admission at chime 0 of bell n + Λ under
its FABRIC entry; one that comes after that bell's plan is fixed is late. -/
def commitSlice (s : State) (x : Txn) (i : Nat) (g : StageGroup) : State :=
  match g.stream, streamOf s ((g.stream.map (fun k => k.1)).getD 0) with
  | some (sid, _, _), some st =>
    let due := x.bell + st.lag
    let s := if planFixedFor s due then count s 0x600D 3 1 else s
    let slice : Slice := ⟨sid, due, s.streams.sealedN, i, g.msgs.flatMap (fun m => m.2)⟩
    let s := { s with streams := { s.streams with slices := s.streams.slices ++ [slice], sealedN := s.streams.sealedN + 1 } }
    let s := answer (setState s i .waiting) x 0 [] false
    { s with fabric := { s.fabric with targets := s.fabric.targets.map (fun t =>
      if t.entry = some i then { t with expiry := s.bell.ticks } else t) } }
  | _, _ => answer s x 9 [] true

/-- Serve a SEAL (R294, R295, R251): a group whose counts match is committed, and OK follows the commit; otherwise RANGE, and the group is
discarded. A SEAL that carries a bell is one of a slice; where its rows were refused so is the slice. -/
def serveSeal (x : Txn) (messages bytes : Nat) (s : State) (i : Nat) : State :=
    match groupOfSeal s x with
    | none =>
      if x.bell ≠ 0 then answer (count s 0x600D 4 1) x 9 [] true
      else answer s x (if messages = 0 ∧ bytes = 0 then 0 else 6) [] true
    | some g =>
      let s := dropGroup s x
      if g.msgs.length ≠ messages ∨ (g.msgs.map (fun m => m.2.length)).sum ≠ bytes then answer s x 6 [] true
      else match g.stream with
        | some k =>
          if sliceWelcome s { x with addr := k.1 + 2 ^ 16 * k.2.1 } then commitSlice s x i g
          else answer (count s 0x600D 4 1) x 9 [] true
        | none =>
          let ws := groupWrites s g
          match groupRefusal s ws with
          | some st => answer s x st [] true
          | none =>
            let s := g.msgs.foldl commitSlm s
            if ws = [] then answer s x 0 [] true else ws.foldl (commitNs i) s

/-- SEAL (R294): its counts travel as the message's operands. -/
def execSealOp (x : Txn) (messages bytes : Nat) (s : State) : Outcome State Fault Refusal :=
  .next (meetTxn s x 3 (leBytes 4 messages ++ leBytes 8 bytes) 0)

/-! ## RING windows -/

/-- A RING window's head, tail and slot count (R296). -/
def ringFields (s : State) (w : Nat) : Nat × Nat × Nat :=
  let b := windowField s w 4
  (leNat (mread s.compute.slm b 8), leNat (mread s.compute.slm (b + 8) 8), leNat (mread s.compute.slm (b + 16) 4))

/-- Is a ring full (R296): so is one whose head the host has set out of place. -/
def ringFull (head tail slots : Nat) : Bool := decide (tail < head) || decide (slots ≤ tail - head)

/-- Write to Subsystem Local Memory. -/
def slmWrite (s : State) (a : Nat) (b : Bytes) : State := { s with compute := { s.compute with slm := mwrite s.compute.slm a b } }

/-- The header page of a RING window as the edge that applies the window leaves it (R296). -/
def ringInit (s : State) (w : Nat) : State :=
  slmWrite s (windowField s w 4) (leBytes 8 0 ++ leBytes 8 0 ++ leBytes 4 (windowField s w 5 / 4096 - 1))

/-- Serve a SEND (R293, R296): the message goes to the next free slot, with its source, length and bell of commit. -/
def serveSend (x : Txn) (data : Bytes) (s : State) : State :=
    let w := (windowOf x.addr).1
    if windowField s w 1 ≠ 3 ∨ bit (windowField s w 2) 1 = false then answer s x 5 [] true
    else if 4032 < data.length ∨ slmSize < windowField s w 4 + windowField s w 5 then answer s x 6 [] true
    else
      let (head, tail, slots) := ringFields s w
      if slots = 0 || ringFull head tail slots then answer s x 11 [] true
      else
        let at_ := windowField s w 4 + 4096 * (tail % slots + 1)
        let s := slmWrite s at_ (leBytes 4 x.src ++ leBytes 4 data.length ++ leBytes 8 s.bell.count ++ List.replicate 48 0 ++ data)
        let s := slmWrite s (windowField s w 4 + 8) (leBytes 8 (tail + 1))
        answer s x 0 [] true

/-- SEND (R293, R296). -/
def execSendOp (x : Txn) (data : Bytes) (s : State) : Outcome State Fault Refusal := .next (meetTxn s x 4 data 0)

/-! ## SIFT -/

/-- Serve a SIFT (R272): a search of this member with the query of another, under its reply-by bell. A slot that is not MOUNTED, or
another index, answers NOT_MOUNTED; a query that R264 would refuse answers RANGE. -/
def serveSift (x : Txn) (k index : Nat) (block : Bytes) (s : State) (i : Nat) : State :=
    match mounted s x.addr with
    | none => answer s x 8 [] true
    | some slot =>
      if slot.indexId ≠ index then answer s x 8 [] true
      else if queryBad slot true k 0 block.length block then answer s x 6 [] true
      else addSearch s (newSearch s i slot ⟨x.addr, k, 0, block.length, true⟩ false true x.bell block true)

/-- SIFT (R272). -/
def execSiftOp (x : Txn) (k index : Nat) (block : Bytes) (s : State) : Outcome State Fault Refusal :=
  .next (meetTxn s x 5 (leBytes 8 index ++ block) k)

/-! ## Admission of the requests of peers -/

/-- Serve an arrived request by its type (Table 12.6). -/
def serveArrived (a : Arrived) (s : State) (i : Nat) : State :=
  match a.type with
  | 1 => serveGet a.x s i
  | 2 => servePut a.x a.data s
  | 3 => serveSeal a.x (fieldAt a.data 0 4) (fieldAt a.data 4 8) s i
  | 4 => serveSend a.x a.data s
  | 5 => serveSift a.x a.k (fieldAt a.data 0 8) (a.data.drop 8) s i
  | _ => serveStream a.x a.data s i

/-- Is there room in the receive staging for what a PUT or STREAM brings (R294). -/
def receiveRoom (s : State) (a : Arrived) : Bool :=
  !(a.type = 2 || a.type = 6) || decide (stagedBytes s + a.data.length ≤ stagingSize)

/-- A request of a peer has been admitted under entry `i` (R20, R294): it is served, or answered TALLY_FULL for want of staging. -/
def adoptArrived (s : State) (src tag i : Nat) : State :=
  let p := takeArrived s src tag
  match p.1 with
  | none => freeFamily s i
  | some a =>
    if receiveRoom s a then acceptArrived p.2 a i (serveArrived a)
    else refuseArrived (freeFamily p.2 i) a

/-- A request of a peer has been refused at its first chime boundary (R23). -/
def dropArrived (s : State) (src tag : Nat) : State :=
  let p := takeArrived s src tag
  match p.1 with
  | none => s
  | some a => refuseArrived p.2 a

/-! ## Probes -/

/-- CONTROL_PROBE (R306, R310): answered by a member that is ACTIVE, PAUSED or LEAVING; passed on toward another. -/
def execControlProbe (x : Txn) (s : State) : Outcome State Fault Refusal :=
  if stopped s || !portUp s x.port || x.guildId ≠ s.fabric.guildId then .next s
  else
    let s := wakeInPs1 s
    if x.dst ≠ s.fabric.memberId then .next (forward s x 8 [])
    else match s.fabric.member with
      | .solo => .next s
      | .joining => .next s
      | _ => .next (refuseTxn s x 8 (if x.dstEpoch = s.fabric.epoch then 0 else 4) 0)

/-! ## The originator's side -/

/-- The transfers of a Memory Read, Write or Copy are over: its data goes to the host or to local memory, and it completes. -/
def remoteDone (s : State) (r : Remote) : State :=
  let s := { s with fabric := { s.fabric with remotes := s.fabric.remotes.filter (fun q => q.entry ≠ r.entry) } }
  let data := r.got.map (fun p => p.2.toNat)
  match r.dst with
  | some a => finish (slmWrite s a data) r.entry .success 0 0
  | none => finishData s r.entry .success 0 0 data false

/-- After every PUT has been accepted the SEAL is sent; after every final reply the command completes (R292). -/
def remoteGoesOn (s : State) (entry : Nat) : State :=
  match s.fabric.remotes.find? (fun r => r.entry = entry) with
  | none => s
  | some r =>
    match r.sealMsg with
    | some m =>
      if r.accepts ≠ [] then s
      else
        let p := originate s entry 3 m.1 0 0 m.2.1 2 (leBytes 4 m.2.2.1 ++ leBytes 8 m.2.2.2) 12
        remoteMod p.2 entry (fun r => { r with left := r.left ++ [p.1], sealMsg := none })
    | none => if r.left = [] then remoteDone s r else s

/-- ACCEPT of an originated request: it waits for its final reply. STREAM rows are done with it (Table 12.6). -/
def accepted (s : State) (o : OrigTxn) : State :=
  let s := origMod s o.x.tag (fun o => { o with accepted := true, full := 0 })
  if o.purpose = 4 then dropOrig s o
  else if o.purpose = 1 then
    remoteGoesOn (remoteMod s o.parent (fun r => { r with accepts := r.accepts.filter (· ≠ o.x.tag) })) o.parent
  else s

/-- Bytes of a GET reply by their aperture address. -/
def gather (t : Table Byte) (a : Nat) : Bytes → Table Byte
  | [] => t
  | b :: bs => gather (tput t a (BitVec.ofNat 8 b)) (a + 1) bs

/-- The OK reply of an originated request, by what it served. -/
def okReply (s : State) (o : OrigTxn) (data : Bytes) : State :=
  let tag := o.x.tag
  match o.purpose with
  | 0 =>
    let s := remoteMod (dropOrig s o) o.parent (fun r => { r with
      left := r.left.filter (· ≠ tag), got := gather r.got o.x.addr (data.take o.x.length) })
    remoteGoesOn s o.parent
  | 1 =>
    let s := remoteMod (dropOrig s o) o.parent (fun r => { r with
      left := r.left.filter (· ≠ tag), accepts := r.accepts.filter (· ≠ tag) })
    remoteGoesOn s o.parent
  | 2 => remoteGoesOn (remoteMod (dropOrig s o) o.parent (fun r => { r with left := r.left.filter (· ≠ tag) })) o.parent
  | 3 =>
    let late := (s.sifters.searches.find? (fun q => q.entry = o.parent)).map (fun q => bellReached s q.finalise)
    if late = some false then mergeReply (dropOrig s o) o.parent o.x.dst data
    else count (dropOrig s o) 0x600E 0 1
  | 5 =>
    let ended := (s.compute.invs.filter (fun v => v.2.entry = o.parent)).map (fun v => v.1)
    let s := dropOrig s o
    { s with streams := { s.streams with handRows := s.streams.handRows.filter (fun h =>
        !(ended.contains h.1 && h.2.1 = o.x.addr / 2 ^ 16)) } }
  | 6 =>
    let (ns, s) := drawFree s
    let hops := hopsBetween s s.fabric.memberId o.x.dst
    finish (dropOrig s o) o.parent .success (ns % 2 ^ 32) hops
  | 7 =>
    let s := dropOrig s o
    { s with fabric := { s.fabric with ports := s.fabric.ports.map (fun p =>
        if neighbourOf s s.fabric.memberId p.1 = o.x.dst then (p.1, { p.2 with probing := none, probeSent := false }) else p) } }
  | _ => dropOrig s o

/-- A TALLY_FULL reply (Table 12.7, R23): the request is sent again at the next bell edge, up to OD 0x2046 bells. -/
def fullReply (s : State) (o : OrigTxn) : State :=
  if odVal s 0x2046 0 ≤ o.full then count (failOrig s o .tallyFull 0 3) 0x600A 0 1
  else origMod s o.x.tag (fun o => { o with full := o.full + 1, heldUntil := some (s.bell.count + 1) })

/-- What a reply status does to an originated request (Table 12.7). A reserved status has no effect. -/
def applyReply (s : State) (o : OrigTxn) (status bell : Nat) (data : Bytes) : State :=
  match status with
  | 0 => okReply s o data
  | 1 => accepted s o
  | 2 => holdOrig s o bell
  | 3 => fullReply s o
  | 4 => failOrig s o .memberLost 0 1
  | 5 => failOrig s o .invalidField 0 3
  | 6 => failOrig s o .invalidField 0 3
  | 7 => failOrig s o .unrecoveredRead 0 3
  | 8 => failOrig s o .invalidField 0 4
  | 9 => failOrig s o .streamParked 0 3
  | 10 => failOrig s o .unitReset 0 5
  | 11 => failOrig s o .dataTransferError 0 3
  | _ => s

/-- TRANSACTION_REPLY (R31, R273, R284, R443, Table 12.7): a reply under another epoch than the peer table's, or to a request that no
longer stands (R359), is discarded and counted as late, with the porter of its port (log entry 32); a SIFT reply that no search waits
for has a counter of its own. -/
def execTransactionReply (x : Txn) (head : ReplyHead) (data : Bytes) (s : State) : Outcome State Fault Refusal :=
  if stopped s || !portUp s x.port || x.guildId ≠ s.fabric.guildId then .next s
  else if x.dst ≠ s.fabric.memberId then
    .next (if 255 ≤ x.hops + 1 then count s 0x6014 4 1 else routeMsg s (some x.port) { x with hops := x.hops + 1 } head.kind head.status data)
  else
    let sift := s.fabric.sifts.contains (x.src, x.tag)
    let s := { s with fabric := { s.fabric with sifts := s.fabric.sifts.filter (fun p => p ≠ (x.src, x.tag)) } }
    let late (s : State) : State := count s (0x6100 + porterOf x.port) 2 1
    match origOf s x.tag with
    | none => .next (if sift then count s 0x600E 0 1 else late s)
    | some o =>
      if o.x.dst ≠ x.src || (peerOf s x.src).epoch ≠ x.srcEpoch then .next (late s)
      else .next (applyReply s o head.status x.bell data)

/-- Send an originated request again, with its try number raised or not. -/
def resend (s : State) (o : OrigTxn) (raise : Bool) : State :=
  let x := if raise then { o.x with tryNo := o.x.tryNo + 1 } else o.x
  let s := setState s o.entry .waiting
  let s := origMod s o.x.tag (fun o => { o with
    x := x, heldUntil := none, sentBell := s.bell.ticks, tries := if raise then o.tries + 1 else o.tries })
  sendMsg s x o.type 0 o.data

/-- E2E_RETRY_TIMEOUT (R284): neither reply within T bells; sent again, and after OD 0x2902.02 tries the entry ends as lost. -/
def execE2eRetryTimeout (tag : Nat) (s : State) : Outcome State Fault Refusal :=
  match origOf s tag with
  | none => .next s
  | some o =>
    if stopped s || o.accepted || o.heldUntil.isSome || o.entry = noEntry
        || decide (s.bell.ticks < o.sentBell + retryBells s o.x.dst) then .next s
    else if odVal s 0x2902 2 ≤ o.tries + 1 then .next (failOrig (count s 0x6014 2 1) o .memberLost 0 1)
    else
      let unit := match choosePort s o.x.dst none with | some (p, _) => porterOf p | none => 5
      .next (resend (count s (0x6100 + unit) 4 1) o true)

/-- HELD_RESEND (R305): at the resume bell a HELD entry is sent again, as a try that is not counted. -/
def execHeldResend (tag : Nat) (s : State) : Outcome State Fault Refusal :=
  match origOf s tag with
  | none => .next s
  | some o =>
    match o.heldUntil with
    | none => .next s
    | some r =>
      if stopped s || s.dev.state = .paused || decide (s.bell.count < r) then .next s
      else match (peerOf s o.x.dst).st with
        | .absent => .next (failOrig s o .memberLost 0 1)
        | .lost => .next (failOrig s o .memberLost 0 1)
        | _ => .next (resend s o false)

/-- REPEAT_RECORD_EXPIRY (R284): the record of a request goes 4T bells after its final reply. -/
def execRepeatRecordExpiry (source epoch tag : Nat) (s : State) : Outcome State Fault Refusal :=
  match targetOf s source epoch tag with
  | none => .next s
  | some t =>
    let served := match t.entry with | some i => (entryAt s i).isSome | none => false
    if stopped s || served || !t.replied || decide (s.bell.ticks < t.expiry + 4 * retryBells s source) then .next s
    else .next { s with fabric := { s.fabric with targets := s.fabric.targets.filter (fun u => u ≠ t) } }

/-- STAGING_TIMEOUT (R294): a group with no SEAL for OD 0x2902.08 bells is discarded and counted. -/
def execStagingTimeout (source epoch group : Nat) (s : State) : Outcome State Fault Refusal :=
  let mine (g : StageGroup) : Bool := g.src = source && g.epoch = epoch && g.group = group
  match s.fabric.staging.find? mine with
  | none => .next s
  | some g =>
    if stopped s || decide (s.bell.ticks < g.since + odVal s 0x2902 8) then .next s
    else
      let s := { s with fabric := { s.fabric with staging := s.fabric.staging.filter (fun g => !mine g) } }
      .next (count s 0x6014 3 1)

end Sys2Proof.Machine
end

