-- ==== Sys2Proof/Machine/Member.lean ====
section
/-!
DEFINITION. The guild's members (chapter 12): notices, loss, joining, pausing and leaving, Guild Control, and the Subsystem
Local Memory commands with guild aperture addresses.
-/

namespace Sys2Proof.Machine

open Host (Outcome)

/-! ## The peer table -/

/-- End every originated request that waits on a member (R307, R443). -/
def failWaiting (s : State) (member : Nat) (st : Status) (reason : Nat) : State :=
  (s.fabric.originated.filter (fun o => o.x.dst = member)).foldl (fun s o => failOrig s o st 0 reason) s

/-- The peer table takes an epoch for a member (R443): where it is new, entries that wait under the old one end as R30 says. -/
def takeEpoch (s : State) (member epoch : Nat) : State :=
  if (peerOf s member).epoch = epoch then s
  else
    let s := failWaiting s member .unitReset 5
    peerMod (forgetLost s member epoch) member (fun p => { p with epoch := epoch })

/-- Stop what this member serves for others where `mine` holds, without reply; what has had its final reply goes on (R295). -/
def stopServing (s : State) (mine : Nat → Bool) : State :=
  let es := (s.fabric.targets.filter (fun t => mine t.src && !(t.replied && t.status ≠ 1))).filterMap (fun t => t.entry)
  es.foldl freeFamily s

/-- A member is LOST at an epoch (R307): the table, the entries that wait on it, what is served for it, its staging, the log. -/
def markLost (s : State) (member epoch : Nat) : State :=
  let s := peerMod s member (fun p => { p with st := .lost })
  let s := failWaiting s member .memberLost 1
  let s := stopServing s (fun m => m = member)
  let s := { s with fabric := { s.fabric with staging := s.fabric.staging.filter (fun g => g.src ≠ member) } }
  raiseEvent (guildLogWrite s 3 0 0 0 member epoch) 5

/-- This member's own membership is ended by the guild (R307): it ends its FABRIC entries with Member Lost, writes a record and
joins again. `why`: 0 declared lost, 1 no port UP. -/
def loseMembership (s : State) (why : Nat) : State :=
  let old := s.fabric.epoch
  let s := s.fabric.originated.foldl (fun s o => failOrig s o .memberLost 0 1) s
  let s := stopServing s (fun _ => true)
  let s := raiseRecord s { Record.of 0x0C04 with b := old, c := why }
  let s := raiseEvent (guildLogWrite s 9 0 0 0 s.fabric.memberId old) 5
  enterJoining { s with fabric := { s.fabric with noPortUpSince := none } }

/-- Is the drive a member that takes part in the guild's notices. -/
def inGuild (s : State) : Bool := s.fabric.member ≠ .solo

/-- Meet a notice on a port: nothing where the block is stopped or the port is not UP; it wakes a drive in PS1 (R339). -/
def meetNotice (s : State) (port : Nat) (act : State → State) : State :=
  if stopped s || !portUp s port then s else act (wakeInPs1 s)

/-- The LOST notices that have come since the last chime boundary take effect (R307), where the peer table still has that epoch. -/
def settleLost (s : State) : State :=
  s.fabric.lostDue.foldl (fun s m => if (peerOf s m.1).epoch = m.2 then markLost s m.1 m.2 else s)
    { s with fabric := { s.fabric with lostDue := [] } }

/-- CONTROL_LOST (R306, R307): forwarded once; a repeat has no effect. What it does here comes at the next chime boundary. -/
def execControlLost (port member epoch : Nat) (s : State) : Outcome State Fault Refusal :=
  .next (meetNotice s port (fun s =>
    if !inGuild s || s.fabric.seenLost.contains (member, epoch) then s
    else
      let s := count { s with fabric := { s.fabric with seenLost := s.fabric.seenLost ++ [(member, epoch)] } } 0x6014 1 1
      let s := flood s (some port) .lost [member, epoch]
      if member = s.fabric.memberId then (if epoch = s.fabric.epoch then loseMembership s 0 else s)
      else { s with fabric := { s.fabric with lostDue := s.fabric.lostDue ++ [(member, epoch)] } }))

/-- CONTROL_PAUSED (R304): peers answer requests to the member themselves until it is ACTIVE again. -/
def execControlPaused (port member epoch resume : Nat) (s : State) : Outcome State Fault Refusal :=
  .next (meetNotice s port (fun s =>
    let p := peerOf s member
    let same : Bool := p.st = .paused && p.epoch = epoch && p.resume = resume
    if !inGuild s || member = s.fabric.memberId || same || (p.st = .lost && p.epoch = epoch) then s
    else
      let s := takeEpoch s member epoch
      let s := peerMod s member (fun p => { p with st := .paused, resume := resume })
      flood (guildLogWrite s 4 0 0 0 member resume) (some port) .paused [member, epoch, resume]))

/-- A member is ACTIVE at an epoch: RESUMED and JOINED. -/
def peerActive (s : State) (port member epoch : Nat) (k : Control) : State :=
  let s := takeEpoch s member epoch
  let s := peerMod s member (fun p => { p with st := .active, resume := 0 })
  flood (guildLogWrite s 5 0 0 0 member epoch) (some port) k [member, epoch]

/-- CONTROL_RESUMED (R304): the member is ACTIVE again. -/
def execControlResumed (port member epoch : Nat) (s : State) : Outcome State Fault Refusal :=
  .next (meetNotice s port (fun s =>
    let p := peerOf s member
    if !inGuild s || member = s.fabric.memberId || (p.st = .active && p.epoch = epoch) || (p.st = .lost && p.epoch = epoch)
    then s else peerActive s port member epoch .resumed))

/-- CONTROL_JOINED (R302, R443): the member is ACTIVE under a new epoch. -/
def execControlJoined (port member epoch : Nat) (s : State) : Outcome State Fault Refusal :=
  .next (meetNotice s port (fun s =>
    let p := peerOf s member
    if !inGuild s || member = s.fabric.memberId || (p.st = .active && p.epoch = epoch) then s
    else peerActive s port member epoch .joined))

/-- CONTROL_PERIOD (R308): the notice is held until its bell, and passed on once. -/
def execControlPeriod (port code bell : Nat) (s : State) : Outcome State Fault Refusal :=
  .next (meetNotice s port (fun s =>
    if !inGuild s || s.fabric.periodNotice = some (code, bell) || decide (2 < code) then s
    else flood { s with fabric := { s.fabric with periodNotice := some (code, bell) } } (some port) .period [code, bell]))

/-! ## Payloads in parts -/

/-- Take one part of a CONTROL payload (R280): the rows so far, and whether the payload is whole. A part out of turn discards the
sequence. -/
def takePart (s : State) (port kind part : Nat) (last : Bool) (rows : List (Nat × Nat × Nat × Nat)) :
    Option (List (Nat × Nat × Nat × Nat)) × State :=
  let mine (q : PartSeq) : Bool := q.port = port && q.kind = kind
  let others := s.fabric.parts.filter (fun q => !mine q)
  let old := s.fabric.parts.find? mine
  let expected : Option (List (Nat × Nat × Nat × Nat) × Nat) :=
    if part = 0 then some ([], s.bell.ticks)
    else old.bind (fun q => if q.next = part then some (q.rows, q.since) else none)
  match expected with
  | none => (none, { s with fabric := { s.fabric with parts := others } })
  | some (sofar, since) =>
    if last then (some (sofar ++ rows), { s with fabric := { s.fabric with parts := others } })
    else (none, { s with fabric := { s.fabric with parts := others ++ [⟨port, kind, part + 1, since, sofar ++ rows⟩] } })

/-- Peer state of a code. -/
def peerStOf (n : Nat) : PeerSt :=
  match n with
  | 1 => .active | 2 => .paused | 3 => .lost | _ => .absent

/-- CONTROL_TABLE (R280, R302): a joining member loads the peer table once every part has come; the neighbour's bell period
comes with it. -/
def execControlTable (port part : Nat) (last : Bool) (code : Nat) (entries : List (Nat × Nat × Nat × Nat)) (s : State) :
    Outcome State Fault Refusal :=
  .next (meetNotice s port (fun s =>
    if s.fabric.member ≠ .joining then s
    else
      let (whole, s) := takePart s port 9 part last entries
      match whole with
      | none => s
      | some rows =>
        let s := rows.foldl (fun s r =>
          if r.1 = s.fabric.memberId then s
          else peerMod (takeEpoch s r.1 r.2.2.1) r.1 (fun p => { p with st := peerStOf r.2.1, resume := r.2.2.2 })) s
        { s with fabric := { s.fabric with tableLoaded := true, joinPeriod := some code } }))

/-- CONTROL_DELAYS (R280, R300): link delays of members; what is news is passed on. -/
def execControlDelays (port part : Nat) (last : Bool) (entries : List (Nat × Nat × Nat)) (s : State) :
    Outcome State Fault Refusal :=
  .next (meetNotice s port (fun s =>
    if !inGuild s then s
    else
      let (whole, s) := takePart s port 10 part last (entries.map (fun r => (r.1, r.2.1, r.2.2, 0)))
      match whole with
      | none => s
      | some rows =>
        let news := rows.filter (fun r => r.1 ≠ s.fabric.memberId && tget (peerOf s r.1).links r.2.1 ≠ some r.2.2.1)
        let s := news.foldl (fun s r => peerMod s r.1 (fun p => { p with links := tput p.links r.2.1 r.2.2.1 })) s
        let s := { s with fabric := { s.fabric with delaysLoaded := true } }
        if news = [] then s else flood s (some port) .delays (news.flatMap (fun r => [r.1, r.2.1, r.2.2.1]))))

/-- PART_SEQUENCE_TIMEOUT (R280): a sequence still incomplete 64 bells after its first part is discarded. -/
def execPartSequenceTimeout (port : Nat) (s : State) : Outcome State Fault Refusal :=
  if stopped s then .next s
  else .next { s with fabric := { s.fabric with
    parts := s.fabric.parts.filter (fun q => !(q.port = port && decide (q.since + 64 ≤ s.bell.ticks))) } }

/-! ## Loss -/

/-- Probe the neighbour behind a port that went DOWN (R306): a CONTROL PROBE by detour, which is no entry of the tally. -/
def probeNeighbour (s : State) (port : Nat) : State :=
  let dst := neighbourOf s s.fabric.memberId port
  let tag := s.fabric.nextTag
  let x := { ownTxn s dst 4 tag 0 Control.probe.code 0 0 with detour := true }
  let s := portMod s port (fun p => { p with probeSent := true })
  let s := { s with fabric := { s.fabric with
    nextTag := (tag + 1) % 2 ^ 23,
    originated := s.fabric.originated ++ [⟨noEntry, noEntry, x, 8, [], s.bell.ticks, true, none, 0, 0, 7⟩] } }
  sendMsg s x 8 0 []

/-- Probe every neighbour that is due at a chime boundary (R306). -/
def sendProbes (s : State) : State :=
  ((List.range 10).filter (fun p => (portOf s p).probing.isSome && !(portOf s p).probeSent)).foldl probeNeighbour s

/-- PROBE_WINDOW_EXPIRY (R306): no reply by OD 0x2902.01 bells after the port went DOWN, or after the resume bell of a PAUSED
neighbour: LOST is flooded and marked here, at a bell edge. -/
def execProbeWindowExpiry (port : Nat) (s : State) : Outcome State Fault Refusal :=
  match (portOf s port).probing with
  | none => .next s
  | some since =>
    let y := neighbourOf s s.fabric.memberId port
    let p := peerOf s y
    let w := odVal s 0x2902 1
    let open_ := if p.st = .paused then decide (s.bell.count < p.resume + w) else decide (s.bell.ticks < since + w)
    if stopped s || !inGuild s || !atEdge s || open_ then .next s
    else
      let s := portMod s port (fun x => { x with probing := none, probeSent := false })
      let left := s.fabric.originated.filter (fun o => !(o.purpose = 7 && o.x.dst = y))
      let s := { s with fabric := { s.fabric with originated := left } }
      if p.st = .lost ∨ p.st = .absent ∨ y = s.fabric.memberId then .next s
      else
        let s := { s with fabric := { s.fabric with seenLost := s.fabric.seenLost ++ [(y, p.epoch)] } }
        .next (markLost (flood s none .lost [y, p.epoch]) y p.epoch)

/-- NO_PORT_UP_EXPIRY (R307): a member with no port UP for OD 0x2902.01 bells ends its entries and joins again. -/
def execNoPortUpExpiry (s : State) : Outcome State Fault Refusal :=
  match s.fabric.noPortUpSince with
  | none => .next s
  | some since =>
    let member := s.fabric.member = .active || s.fabric.member = .paused
    if stopped s || !member || upPorts s ≠ [] || decide (s.bell.ticks < since + odVal s 0x2902 1) then .next s
    else .next (loseMembership s 1)

/-! ## Pausing, joining, leaving -/

/-- HOLDOVER_PAUSE (R301): OD 0x2902.04 bells in HOLDOVER pause an ACTIVE member, with resume bell now + OD 0x2005. -/
def execHoldoverPause (s : State) : Outcome State Fault Refusal :=
  if stopped s || s.fabric.member ≠ .active || s.bell.align ≠ .holdover || decide (s.bell.holdover < odVal s 0x2902 4) then .next s
  else .next (pauseMember s (s.bell.count + odVal s 0x2005 0) true)

/-- Does a root with no ACTIVE neighbour behind an UP port form the guild alone (R302). -/
def formsAlone (s : State) : Bool :=
  isRoot s && (upPorts s).all (fun p => (peerOf s (neighbourOf s s.fabric.memberId p)).st ≠ .active)

/-- The conditions of R302 to become ACTIVE. -/
def mayBeActive (s : State) : Bool :=
  s.dev.state = .run && (isRoot s || (s.bell.align = .locked && s.bell.followed = 2)) &&
  (formsAlone s || (upPorts s ≠ [] && s.fabric.tableLoaded && s.fabric.delaysLoaded))

/-- JOIN_COMPLETE (R302, R300): ACTIVE; JOINED and the own link delays are flooded, and the guild's bell period is taken: where the
tables have brought one, at a bell edge. -/
def execJoinComplete (s : State) : Outcome State Fault Refusal :=
  if stopped s || s.fabric.member ≠ .joining || !mayBeActive s || (s.fabric.joinPeriod.isSome && !atEdge s) then .next s
  else
    let s := setMember s .active
    let s := flood s none .joined [s.fabric.memberId, s.fabric.epoch]
    let s := flood s none .delays ((upPorts s).flatMap (fun p => [s.fabric.memberId, p, (portOf s p).oneWay]))
    .next (match s.fabric.joinPeriod with
      | some code => changePeriod s code
      | none => s)

/-- PERIOD_CHANGE_AT_E (R308): every member that holds the notice changes period at the edge of E, a PAUSED one at its next edge. -/
def execPeriodChangeAtE (s : State) : Outcome State Fault Refusal :=
  match s.fabric.periodNotice with
  | none => .next s
  | some (code, e) =>
    let due := if s.fabric.member = .paused then e + 1 else e
    if stopped s || !inGuild s || s.fabric.member = .joining || !atEdge s || decide (s.bell.count < due) then .next s
    else
      let old := odVal s 0x2001 0
      let s := guildLogWrite { s with fabric := { s.fabric with periodNotice := none } } 8 0 old code 0 e
      .next (changePeriod s code)

/-- LEAVE_COMPLETE (R309): SOLO once no FABRIC entry remains. -/
def execLeaveComplete (s : State) : Outcome State Fault Refusal :=
  if stopped s || s.fabric.member ≠ .leaving || occ s.tally .fabric ≠ 0 then .next s
  else .next (setMember { s with fabric := { s.fabric with resumeBell := 0 } } .solo)

/-! ## Guild Control -/

/-- Serve Guild Control (R98, Table 12.1): Invalid Command Opcode on S; the pen for OPs 0 to 3 (R310). With non-zero reserved fields
it is Invalid Field in Command on S too: the spec gives no order between the two (DESIGN CHOICE, log entry 33). -/
def serveGuild (s : State) (h : HostId) (serial : Option Nat) (act : State → Nat → State) : State :=
  serveVendorAdmin s h false (fun s i =>
    if !s.ident.meshed then finish s i .invalidOpcode 0 0
    else match serial with
      | some n => if holdsPen s .host n then act s i else finish s i .penHeld 0 0
      | none => act s i)

/-- The fabric of a geometry block (Table 12.11). -/
def geometryOf (f : Fabric) (b : Bytes) : Fabric :=
  { f with
    guildId := fieldAt b 0 4
    dims := (List.range 5).map (fun k => fieldAt b (4 + k) 1)
    memberId := fieldAt b 12 4
    roots := (List.range (fieldAt b 16 1)).map (fun k => fieldAt b (64 + 4 * k) 4)
    digest := digestOctets 8 (Config.sha384 b)
    hasGeometry := true }

/-- Is a geometry block one that R285 and Table 12.11 allow. -/
def geometryOk (s : State) (b : Bytes) : Bool :=
  let g := { s with fabric := geometryOf s.fabric b }
  let n := fieldAt b 16 1
  g.fabric.dims.all (fun d => decide (1 ≤ d) && decide (d ≤ 64)) && decide (memberCount g ≤ 131072) &&
  decide (g.fabric.memberId < memberCount g) && decide (1 ≤ n) && decide (n ≤ 16) &&
  g.fabric.roots.all (fun r => decide (r < memberCount g)) &&
  fieldAt b 9 3 = 0 && fieldAt b 17 47 = 0 && fieldAt b (64 + 4 * n) (64 - 4 * n) = 0

/-- Does a geometry leave a member deeper than OD 0x2902.05 (R298). -/
def tooDeep (s : State) : Bool := (List.range (memberCount s)).any (fun m => decide (odVal s 0x2902 5 < (rootOfMember s m).2))

/-- Ports that a new geometry or mode lets train start to, and those that it holds down go DOWN (R276). -/
def settlePort (s : State) (p : Nat) : State :=
  if portHeldDown s p then (if (portOf s p).st = .down then s else portDown s p)
  else if (portOf s p).st = .down then setPort s p .training else s

/-- GUILD_SET_GEOMETRY (R285, R298, R310). -/
def execGuildSetGeometry (h : HostId) (serial length : Nat) (block : Bytes) (s : State) : Outcome State Fault Refusal :=
  .next (serveGuild s h (some serial) (fun s i =>
    if s.dev.state ≠ .config ∨ s.fabric.member ≠ .solo then finish s i .commandSequenceError 0 0
    else
      let s' := { s with fabric := { geometryOf s.fabric block with peers := [] } }
      if length ≠ 128 || !geometryOk s block || tooDeep s' then finish s i .invalidField 0 0
      else finish ((List.range 10).foldl settlePort s') i .success 0 0))

/-- GUILD_JOIN (R302, R310). -/
def execGuildJoin (h : HostId) (serial : Nat) (s : State) : Outcome State Fault Refusal :=
  .next (serveGuild s h (some serial) (fun s i =>
    if s.fabric.member ≠ .solo ∨ s.fabric.hasGeometry = false then finish s i .commandSequenceError 0 0
    else finish (startJoin s) i .success 0 0))

/-- GUILD_LEAVE (R309, R310): PAUSED is flooded with the greatest resume bell. -/
def execGuildLeave (h : HostId) (serial : Nat) (s : State) : Outcome State Fault Refusal :=
  .next (serveGuild s h (some serial) (fun s i =>
    if s.fabric.member = .solo ∨ s.fabric.member = .leaving then finish s i .commandSequenceError 0 0
    else
      let s := { s with fabric := { s.fabric with resumeBell := 2 ^ 64 - 1, leavingBell := s.bell.count } }
      let s := flood s none .paused [s.fabric.memberId, s.fabric.epoch, 2 ^ 64 - 1]
      finish (setMember s .leaving) i .success 0 0))

/-- GUILD_SET_PERIOD (R308, R310): PERIOD is flooded; E must be at least 25,000 bells ahead. -/
def execGuildSetPeriod (h : HostId) (serial code bell : Nat) (s : State) : Outcome State Fault Refusal :=
  .next (serveGuild s h (some serial) (fun s i =>
    if s.fabric.member ≠ .active then finish s i .commandSequenceError 0 0
    else if 2 < code ∨ bell < s.bell.count + 25000 then finish s i .invalidField 0 0
    else
      let s := { s with fabric := { s.fabric with periodNotice := some (code, bell) } }
      finish (flood s none .period [code, bell]) i .success 0 0))

/-- GUILD_PING (R303, R310): a CONTROL PROBE to the member, as a FABRIC child of the command. -/
def execGuildPing (h : HostId) (member : Nat) (s : State) : Outcome State Fault Refusal :=
  .next (serveGuild s h none (fun s i =>
    if memberCount s ≤ member ∨ member = s.fabric.memberId then finish s i .invalidField 0 0
    else (originate (setState s i .waiting) i 8 member Control.probe.code 0 0 6 [] 0).2))

/-! ## Subsystem Local Memory commands -/

/-- Is an address one of the guild aperture (R291). -/
def isAperture (addr : Nat) : Bool := bit addr 63

/-- The member that an aperture address names. -/
def apertureMember (addr : Nat) : Nat := addr / 2 ^ 46 % 2 ^ 17

/-- Is an aperture access one that R291 refuses. -/
def apertureBad (s : State) (addr len : Nat) : Bool :=
  let m := apertureMember addr
  !s.ident.meshed || m = s.fabric.memberId || decide (memberCount s ≤ m) ||
  !(s.fabric.member = .active || s.fabric.member = .paused) || decide (2097152 < len)

/-- Does a range lie outside Subsystem Local Memory. -/
def slmOutside (addr len : Nat) : Bool := decide (slmSize < addr + len)

/-- Read through the aperture (R292): one GET per 65,536 bytes. `dst` is where a Memory Copy puts the data. -/
def remoteRead (s : State) (i addr len : Nat) (dst : Option Nat) : State :=
  let m := apertureMember addr
  let parts := pieces (len / 65536 + 1) len
  let tags := (List.range parts.length).map (fun k => (s.fabric.nextTag + k) % 2 ^ 23)
  let s := setState s i .waiting
  let s := { s with fabric := { s.fabric with remotes := s.fabric.remotes ++ [⟨i, tags, [], none, [], dst⟩] } }
  let s := parts.foldl (fun s p => (originate s i 1 m (addr % 2 ^ 46 + p.1) 0 0 0 [] p.2).2) s
  remoteGoesOn s i

/-- Write through the aperture (R292): one PUT per 65,536 bytes in one group, then a SEAL. -/
def remoteWrite (s : State) (i addr : Nat) (data : Bytes) : State :=
  let m := apertureMember addr
  let parts := pieces (data.length / 65536 + 1) data.length
  let tags := (List.range parts.length).map (fun k => (s.fabric.nextTag + k) % 2 ^ 23)
  let g := s.fabric.nextGroup
  let s := setState s i .waiting
  let s := { s with fabric := { s.fabric with
    nextGroup := (g + 1) % 2 ^ 32
    remotes := s.fabric.remotes ++ [⟨i, tags, tags, some (m, g, parts.length, data.length), [], none⟩] } }
  let s := parts.foldl (fun s p => (originate s i 2 m (addr % 2 ^ 46 + p.1) 0 g 1 (slice data p.1 p.2) p.2).2) s
  remoteGoesOn s i

/-- MEMORY_READ (R291, R292): local memory, or GETs to a member. -/
def execMemoryRead (h : HostId) (addr len : Nat) (s : State) : Outcome State Fault Refusal :=
  .next (serveIo s h (fun s i =>
    if isAperture addr then (if apertureBad s addr len then finish s i .invalidField 0 0 else remoteRead s i addr len none)
    else if slmOutside addr len then finish s i .invalidField 0 0
    else finishData s i .success 0 0 (mread s.compute.slm addr len) false))

/-- MEMORY_WRITE (R291, R292): local memory, or PUTs and a SEAL to a member. -/
def execMemoryWrite (h : HostId) (addr : Nat) (data : Bytes) (s : State) : Outcome State Fault Refusal :=
  .next (serveIo s h (fun s i =>
    if isAperture addr then (if apertureBad s addr data.length then finish s i .invalidField 0 0 else remoteWrite s i addr data)
    else if slmOutside addr data.length then finish s i .invalidField 0 0
    else finish (slmWrite s addr data) i .success 0 0))

/-- MEMORY_COPY (R291, R292): between local memory and a member's window; on the S variant, within local memory. -/
def execMemoryCopy (h : HostId) (dst src len : Nat) (s : State) : Outcome State Fault Refusal :=
  .next (serveIo s h (fun s i =>
    match isAperture dst, isAperture src with
    | true, true => finish s i .invalidField 0 0
    | true, false =>
      if apertureBad s dst len || slmOutside src len then finish s i .invalidField 0 0
      else remoteWrite s i dst (mread s.compute.slm src len)
    | false, true =>
      if apertureBad s src len || slmOutside dst len then finish s i .invalidField 0 0
      else remoteRead s i src len (some dst)
    | false, false =>
      if s.ident.meshed || slmOutside dst len || slmOutside src len then finish s i .invalidField 0 0
      else finish (slmWrite s dst (mread s.compute.slm src len)) i .success 0 0))

end Sys2Proof.Machine
end

