-- ==== Sys2Proof/Machine/Views.lean ====
section
/-!
DEFINITION. What every read-only object reads (the object tables of chapters 1 to 17). A member that no function here names reads
its stored value, or its default where it is a constant of the part.
-/

namespace Sys2Proof.Machine

/-- 1 for true. -/
def b2n (b : Bool) : Nat := if b then 1 else 0

/-- The state with the sampled parts in the place of the present ones. -/
def sampledView (s : State) : State :=
  { s with
    tally := s.sampled.tally, units := s.sampled.units, flash := s.sampled.flash, compute := s.sampled.compute
    streams := s.sampled.streams, sifters := s.sampled.sifters, fabric := s.sampled.fabric, power := s.sampled.power
    keys := s.sampled.keys }

/-- A state of a unit as OD 0x3000+u.01 reads it (Table 2.13). -/
def unitState (s : State) (u : Nat) : Nat :=
  if !unitPresent s u then 0
  else match (unitOf s u).state with
    | .off => 0
    | .reset => 3
    | .fault => 4
    | _ => if s.tally.entries.any (fun p => p.2.unit = u && p.2.state = .running) then 2 else 1

/-- Chapter 1: tally and unit epochs. -/
def viewTally (v s : State) (idx sub : Nat) : Option Nat :=
  match idx with
  | 0x2042 =>
    if sub = 6 then some (urgentOcc v.tally)
    else (kinds[sub - 1]?).map (fun k => occ v.tally k)
  | 0x2043 => some (sharedFree v)
  | 0x2060 => if sub = 0 then some 246 else some (unitOf s (sub - 1)).epoch
  | _ => none

/-- Text "Yarwell" with byte 0 lowest, and the four part numbers (Table 0.2). -/
def vendorText : Nat := leNat [0x59, 0x61, 0x72, 0x77, 0x65, 0x6C, 0x6C]

/-- Part number of the drive (Table 0.2). -/
def partText (s : State) : Nat :=
  leNat ([0x4E, 0x42, 0x4C, 0x37, 0x2D] ++ [if s.ident.meshed then 0x4D else 0x53] ++ [0x2D] ++
    (if s.ident.dies = 256 then [0x35, 0x31] else [0x32, 0x35]))

/-- User capacity in bytes (Table 0.2). -/
def userBytes (s : State) : Nat := if s.ident.dies = 256 then 51200000000000 else 25600000000000

/-- ms until the pen is released for idleness (OD 0x1024). -/
def penIdleLeft (s : State) : Nat :=
  if s.pen.holder.isNone then 0 else odVal s 0x1022 0 - s.pen.idleUs / 1000

/-- Chapter 2: identity, device state and pen. -/
def viewDevice (s : State) (idx sub : Nat) : Option Nat :=
  match idx with
  | 0x1000 => some vendorText
  | 0x1001 => some (partText s)
  | 0x1002 => some s.ident.serialNo
  | 0x1003 => some (leNat [0x42, 0x32])
  | 0x1004 => some (match sub with | 1 => 7 | 2 => 2 | _ => s.ident.patch)
  | 0x1005 => some (b2n (!s.ident.meshed))
  | 0x1006 => some s.ident.dies
  | 0x1007 => some (userBytes s)
  | 0x1008 => some 0x0702
  | 0x1009 => some (if s.ident.meshed then 10 else 0)
  | 0x1010 => some s.dev.state.code
  | 0x1013 => some (match sub with | 1 => s.dev.lastFrom | 2 => s.dev.lastTo | 3 => s.dev.lastCause | _ => s.dev.lastBell)
  | 0x1020 => some (holderCode s.pen.holder)
  | 0x1021 => some s.pen.serial
  | 0x1024 => some (penIdleLeft s)
  | _ => none

/-- Chapter 2: unit status. -/
def viewUnit (v s : State) (u sub : Nat) : Option Nat :=
  match sub with
  | 1 => some (unitState s u)
  | 2 => some (v.tally.entries.filter (fun p => p.2.unit = u)).length
  | _ => none

/-- Chapter 3: the bell. A time root's guild bit reads clear (R298). -/
def viewBell (s : State) (idx sub : Nat) : Option Nat :=
  match idx with
  | 0x2000 => some s.bell.count
  | 0x2002 => if isRoot s then some (clearBit (odVal s 0x2002 0) 1) else none
  | 0x2003 => some s.bell.followed
  | 0x2004 => some s.bell.align.code
  | 0x2008 => some (ofInt 16 s.bell.trim)
  | 0x2009 => some (ofInt 32 s.bell.freq)
  | 0x200A => some (ofInt 32 s.bell.phase)
  | 0x200B => some s.bell.holdover
  | 0x200D => some (if sub = 1 then b2n s.bell.bellIn.qualified else s.bell.bellInCount)
  | 0x2011 => some (ofInt 32 (portOf s (sub - 1)).offset)
  | 0x2082 => some (match sub with | 1 => s.bell.overUnit | 2 => s.bell.overBell | _ => s.bell.overLate)
  | _ => none

/-- Freeze state codes (Table 4.12). -/
def FreezeSt.code : FreezeSt → Nat
  | .opened => 0 | .draining => 1 | .quiet => 2

/-- Chapter 4: the host side. -/
def viewHost (s : State) (idx sub : Nat) : Option Nat :=
  match idx with
  | 0x2101 => some (match sub with | 1 => s.host.speed | 2 => s.host.width | _ => b2n s.host.flit)
  | 0x2103 => some (match sub with
    | 1 => s.host.ams | 2 => s.host.burst | 3 => s.host.wHigh | 4 => s.host.wMed | _ => s.host.wLow)
  | 0x2121 => some (((tget s.host.sqs sub).map (fun q => q.freeze.code)).getD 0)
  | 0x2122 => some (((tget s.host.sqs sub).map (fun q => q.serial)).getD 0)
  | _ => none

/-- Mean of the proposals of a die for level L(k+1), truncated toward zero; 0 where the tracker has proposed nothing. -/
def meanProposal (v : State) (die k : Nat) : Int :=
  let ps := (v.flash.proposals.filter (fun p => p.1 / 32 = die)).map (fun p => p.2.getD k 0)
  if ps = [] then 0 else Int.tdiv ps.sum ps.length

/-- Chapter 5: the flash array. -/
def viewFlash (v : State) (idx sub : Nat) : Option Nat :=
  match idx with
  | 0x2200 => if sub = 2 then some (if v.ident.dies = 256 then 8 else 4) else none
  | 0x2203 => some (stripeCount v)
  | 0x2214 => some v.flash.pinWriter
  | 0x2220 => some (leNat ((List.range 7).map (fun k => ofInt 8 (meanProposal v (sub - 1) k))))
  | 0x2221 => some (leNat ((List.range 7).map (fun k => ofInt 8 (meanProposal v (sub + 127) k))))
  | _ => none

/-- Chapter 5: bit t of a channel's state is that of its target t (OD 0x3100). -/
def viewChannel (v : State) (u sub : Nat) : Option Nat :=
  let mask (p : DieSt → Bool) : Nat :=
    ((List.range 8).filter (fun t => p (dieOf v (32 * t + (u - 200))).st)).foldl (fun a t => a + 2 ^ t) 0
  match sub with
  | 1 => some (mask (fun d => d = .programming))
  | 2 => some (mask (fun d => d = .erasing || d = .suspended))
  | 3 => some (mask (fun d => d = .suspended))
  | 4 => some (mask (fun d => d = .lockedErase))
  | _ => none

/-- Bytes of write staging and open rows (OD 0x2306). -/
def stagingBytes (s : State) : Nat := 16384 * (s.ledger.staged.length + s.ledger.openRows.length)

/-- Fewest spares on any die (OD 0x2330.03). -/
def fewestSpares (s : State) : Nat := (s.ledger.spares.map (fun p => p.2.length)).foldl min 8

/-- Chapter 6: the ledger. -/
def viewLedger (s : State) (idx sub : Nat) : Option Nat :=
  let big := s.ident.dies = 256
  match idx with
  | 0x2300 => match sub with
    | 2 => some (if big then 3125000000 else 1562500000)
    | 3 => some (dataBands s)
    | 4 => some (stripesPerRg s)
    | 5 => some ((dataBands s * bandIus * 16384 - userBytes s) * 1000 / userBytes s)
    | 6 => some (roFloor s)
    | _ => none
  | 0x2302 => some (freeBands s (sub - 1))
  | 0x2303 => some (match victimOf s (sub - 1) with | some b => b.2.valid * 1000 / bandIus | none => 0)
  | 0x2304 => some (hostRate s (sub - 1)).floor.toNat
  | 0x2305 => some (if big then 64 else 32)
  | 0x2306 => some (stagingBytes s / 1024)
  | 0x2311 => some (if sub = 1 then s.ledger.scrubStart else s.ledger.scrubbed.length)
  | 0x2320 => some (match sub with
    | 1 => poisonCount s | 2 => s.ledger.poisonNsid | 3 => s.ledger.poisonLba | _ => s.ledger.poisonBell)
  | 0x2330 => some (match sub with
    | 1 => s.ledger.dieBlocksRetired | 2 => s.ledger.bandsRetired | 3 => fewestSpares s | _ => b2n s.ledger.readOnly)
  | 0x2341 => some (meanErases s (sub - 1))
  | 0x2342 => some (wearSpread s)
  | 0x2350 => some (match sub with | 1 => (if big then 11921 else 5961) | 2 => journalBytes * s.ledger.journal.length | _ => s.ledger.recoveryMs)
  | 0x2360 => some (match sub with
    | 1 => s.ledger.saveBell | 2 => s.ledger.saveLines | 3 => s.ledger.saveUs | _ => s.ledger.saveResult)
  | _ => none

/-- Chapter 7: a loom. -/
def viewLoom (v : State) (u sub : Nat) : Option Nat :=
  let x := tgetD v.compute.looms (u - 8) .reset
  match sub with
  | 1 => some x.holder
  | 2 => some x.holderEntry
  | 3 => some x.slots
  | _ => none

/-- Chapter 8: a wright core. -/
def viewCore (v : State) (u sub : Nat) : Option Nat :=
  let c := tgetD v.compute.cores (u - 24) ⟨[], [], []⟩
  match sub with
  | 1 => some c.gangs.length
  | 2 => some (c.gangs.filter (fun g => g.2.urgent)).length
  | 3 => some (2048 - (c.gangs.map (fun g => g.2.physRegs)).sum)
  | 4 => some (65536 - (c.parts.map (fun p => p.2)).sum)
  | _ => none

/-- Chapter 9: kernels. -/
def viewKernel (v : State) (idx sub : Nat) : Option Nat :=
  match idx with
  | 0x2610 => some (programOf v (sub - 1)).state
  | 0x2611 => some (programOf v (sub - 1)).physRegs
  | 0x2612 => some (invsOf v (sub - 1))
  | 0x2613 => some (match sub with | 1 => v.compute.actProgram | 2 => v.compute.actResult | _ => v.compute.actDetail)
  | 0x2614 => some (storeInUse v)
  | 0x2615 => some (digestOctets 48 (programOf v (sub - 1)).digest)
  | _ => none

/-- Stream states (Table 10.2). -/
def StreamSt.code : StreamSt → Nat
  | .opened => 1 | .parking => 2 | .parked => 3

/-- The view of one stream (OD 0x2711, OD 0x2712). -/
def viewStream (v : State) (sid sub : Nat) : Option Nat :=
  match streamOf v sid with
  | none => some 0
  | some st => match sub with
    | 1 => some st.st.code
    | 2 => some st.channels
    | 3 => some st.program
    | 4 => some st.nsid
    | 5 => some (b2n st.store.isSome)
    | 6 => some st.last
    | 7 => some st.chunks.length
    | 8 => some st.failures
    | _ => none

/-- Chapter 10: streams. -/
def viewStreams (v s : State) (idx sub : Nat) : Option Nat :=
  match idx with
  | 0x2701 => some (match sub with
    | 1 => v.streams.table.length
    | 2 => (v.streams.table.filter (fun p => p.2.store.isSome)).length
    | 3 => groupsInUse v
    | _ => homeBytes v)
  | 0x2711 => viewStream v (odVal s 0x2710 1) sub
  | 0x2712 => viewStream v (odVal s 0x2710 2) sub
  | _ => none

/-- A field of the slot of OD 0x2820 to 0x2825. -/
def slotView (v : State) (sub : Nat) (f : IndexSlot → Nat) : Option Nat := some (((tget v.sifters.slots (sub - 1)).map f).getD 0)

/-- Is a context one of an entry of CLASS 0. -/
def urgentContext (v : State) (c : Context) : Bool := ((entryAt v c.entry).map (fun e => decide (e.cls = 0))).getD false

/-- Chapter 11: sifters. -/
def viewSifters (v : State) (idx sub : Nat) : Option Nat :=
  match idx with
  | 0x2820 => slotView v sub (fun x => x.st)
  | 0x2821 => slotView v sub (fun x => x.indexId)
  | 0x2822 => slotView v sub (fun x => x.nsid)
  | 0x2823 => slotView v sub (fun x => x.charged)
  | 0x2824 => slotView v sub (fun x => x.format)
  | 0x2825 => some (slotSearches v (sub - 1))
  | 0x2830 => some (match sub with
    | 1 => (placedContexts v).length
    | 2 => ((placedContexts v).filter (urgentContext v)).length
    | 3 => (shelvedOrder v).length
    | _ => workInUse v)
  | _ => none

/-- Chapter 11: a sifter. -/
def viewSifter (v : State) (u sub : Nat) : Option Nat :=
  let mine := (placedContexts v).filter (fun c => c.sifter = u - 72)
  match sub with
  | 1 => some mine.length
  | 2 => some (mine.filter (urgentContext v)).length
  | _ => none

/-- The path view of a member (OD 0x2904, OD 0x2905). -/
def viewPath (v : State) (y sub : Nat) : Option Nat :=
  let known := v.fabric.hasGeometry && decide (y < memberCount v)
  let route := if known then routeFrom v 161 v.fabric.memberId y else []
  let p := peerOf v y
  match sub with
  | 1 => some route.length
  | 2 => some ((route.filter (fun h => h.1 = v.fabric.memberId && odVal v 0x2910 (h.2 + 1) = 2)).length +
      (route.filter (fun h => h.1 ≠ v.fabric.memberId && Config.farLongHaul (h.1 * 16 + h.2) = 1)).length)
  | 3 => some (if known ∧ y ≠ v.fabric.memberId then sat 32 (delayTo v y) else 0)
  | 4 => some p.st.code
  | 5 => some p.epoch
  | 6 => some (if p.st = .paused then p.resume else 0)
  | _ => none

/-- Chapter 12: fabric and guild. -/
def viewFabric (v s : State) (idx sub : Nat) : Option Nat :=
  match idx with
  | 0x2900 => match sub with
    | 1 => some v.fabric.guildId
    | 2 => some v.fabric.memberId
    | 8 => some v.fabric.member.code
    | 9 => some v.fabric.epoch
    | 10 => some (memberCount v)
    | 11 => some (if v.fabric.hasGeometry then (rootOfMember v v.fabric.memberId).2 else 0)
    | 12 => some v.fabric.digest
    | d => some (dimSize v (d - 3))
  | 0x2901 => some (v.fabric.roots.getD (sub - 1) 0)
  | 0x2904 => viewPath v (odVal s 0x2903 1) sub
  | 0x2905 => viewPath v (odVal s 0x2903 2) sub
  | 0x2912 => some (portOf v (sub - 1)).st.code
  | 0x2913 => some (portOf v (sub - 1)).rate
  | 0x2914 => some (portOf v (sub - 1)).oneWay
  | 0x2915 => some (portOf v (sub - 1)).neighbour
  | 0x2916 => some v.fabric.pinWriter
  | _ => none

/-- Watchdog codes (OD 0x1102.01). -/
def WatchSt.code : WatchSt → Nat
  | .unarmed => 0 | .running => 1 | .expired => 2

/-- Chapter 13: Milny. -/
def viewMilny (s : State) (idx sub : Nat) : Option Nat :=
  match idx with
  | 0x1100 => some s.milny.address
  | 0x1101 => some (b2n s.milny.term)
  | 0x1102 => some (match sub with
    | 1 => s.milny.watch.code | 2 => s.milny.periodUs | 3 => s.milny.lastCycle | _ => s.milny.lastBell)
  | 0x1103 => some (leNat s.milny.image)
  | 0x1104 => some (b2n s.milny.conflict)
  | 0x1105 => some (leNat s.milny.lastInput)
  | _ => none

/-- The thermal state (R347): 2 in hold, 1 while the thermal limit sets the effective limit. -/
def thermalState (p : Power) (term : Nat) : Nat := if p.hold then 2 else if term = 1 then 1 else 0

/-- Chapter 14: power. -/
def viewPower (v s : State) (idx sub : Nat) : Option Nat :=
  match idx with
  | 0x2A00 => some (match sub with | 1 => v.power.inForce | 2 => v.power.target | _ => v.power.wake)
  | 0x2A01 => some v.power.mapResident
  | 0x2A02 => if sub = 2 then some s.sampled.capNow else none
  | 0x2A03 => some s.sampled.limitNow.1
  | 0x2A04 => some s.sampled.limitNow.2
  | 0x2A05 => some (b2n (s.ident.meshed && v.power.rearWas))
  | 0x2A06 => some v.power.drawn
  | 0x2A20 => some (ofInt 8 (v.power.sensors.getD (sub - 1) 0))
  | 0x2A21 => some (ofInt 8 (max (-128) (min 127 v.power.composite)))
  | 0x2A22 => some v.power.thermalLimit
  | 0x2A23 => some (thermalState v.power s.sampled.limitNow.2)
  | _ => none

/-- Version of the image in a slot, 0 where it is empty. -/
def slotVersion (s : State) (k : Nat) : Nat := ((tget s.update.slots k).map (fun x => x.version)).getD 0

/-- Chapter 15: resets and update. -/
def viewUpdate (s : State) (idx sub : Nat) : Option Nat :=
  match idx with
  | 0x2B00 => some (match sub with
    | 1 => s.update.resetKind | 2 => s.update.resetCause | 3 => s.update.resetBell | _ => s.update.bootMs)
  | 0x2B01 => some 0
  | 0x2B02 => some (match sub with | 1 => s.update.unitReset | 2 => s.update.unitCause | _ => s.update.unitBell)
  | 0x2B10 => some (match sub with | 1 => s.update.active | 2 => s.update.pending | _ => s.update.scratch)
  | 0x2B11 => some (slotVersion s sub)
  | 0x2B12 => some (((tget s.update.slots sub).map (fun x => x.state)).getD 0)
  | 0x2B13 => some (s.update.floors.getD (sub - 1) 0)
  | 0x2B14 => some (s.update.activeSec.getD (sub - 1) 0)
  | 0x2B20 => some (match sub with
    | 1 => s.update.actSlot | 2 => s.update.actResult | 3 => s.update.actPart | 4 => s.update.actBell | _ => s.update.actPause)
  | 0x2B21 => some s.update.phase
  | _ => none

/-- Bytes 0 to 59 of a stored record (Table 16.2). -/
def Record.head (r : Record) : Bytes :=
  leBytes 8 r.seq ++ leBytes 8 r.bell ++ leBytes 2 r.code ++ [r.winner, r.loser, r.unit.getD 0]
    ++ [b2n r.unit.isSome + 2 * b2n r.hasEntry + 4 * b2n r.hasAddr] ++ leBytes 2 0 ++ leBytes 16 r.a ++ leBytes 8 r.b
    ++ leBytes 8 r.c ++ leBytes 4 r.fw

/-- The 64 bytes of a stored record, the CRC-32 last (R379). -/
def Record.bytes (r : Record) : Bytes := r.head ++ leBytes 4 (crc32 r.head)

/-- Chapter 16: a record slot (OD 0x5100+i). -/
def viewSlot (s : State) (i sub : Nat) : Option Nat :=
  match tget s.sticky.slots i, sub with
  | none, _ => some 0
  | some x, 1 => some (b2n (!x.cleared))
  | some x, _ => some (leNat x.record.bytes)

/-- Chapter 16: the sticky summary and the stored snapshot. -/
def viewFaults (s : State) (idx sub : Nat) : Option Nat :=
  match idx with
  | 0x5000 => some (match sub with
    | 1 => s.sticky.written | 2 => s.sticky.slots.length | 3 => uncleared s | 4 => s.sticky.lost | 5 => s.sticky.lostCode
    | _ => s.sticky.lostBell)
  | 0x7002 => some (b2n s.freeze.pinLow)
  | _ => none

/-- Chapter 17: keys. The session counters are those of the ports. -/
def viewKeys (v : State) (idx sub : Nat) : Option Nat :=
  match idx with
  | 0x2C00 => some (if sub ≠ 1 then v.keys.reseeds else if v.keys.sanitize ≠ 0 then 2 else v.keys.store)
  | 0x2C01 => some (Config.factoryKey (sub - 1))
  | 0x2C10 => some (tgetD v.keys.gens sub 0)
  | 0x2C21 => some (Config.factoryKey 4)
  | 0x2C30 => some (tgetD v.keys.sessionGen (sub - 1) 0)
  | 0x2C31 => some (portOf v (sub - 1)).session.txCount
  | 0x2C32 => some (portOf v (sub - 1)).session.rekey
  | _ => none

end Sys2Proof.Machine
end

