-- ==== Sys2Proof/Machine/Logs.lean ====
section
/-!
DEFINITION. The vendor log pages 0xC0 to 0xC4, as the last bell edge left them (R445).
-/

namespace Sys2Proof.Machine

/-- The header of the Bell log (Table 3.8) of a keeper, read at a bell count with a period code. -/
def bellHeader (b : Bell) (count period : Nat) : Bytes :=
  leBytes 8 b.logWritten ++ leBytes 2 256 ++ leBytes 2 (b.logWritten % 256) ++ leBytes 4 0 ++ leBytes 8 count
    ++ [b.followed, b.align.code, period] ++ leBytes 5 0 ++ leBytes 4 (ofInt 32 b.phase) ++ leBytes 4 (ofInt 32 b.freq)
    ++ leBytes 8 b.holdover ++ leBytes 16 0

/-- Put the newest entries of a log into a ring: `entries` are the newest ones, oldest first, and `written` all ever written. -/
def ringOf (size width written : Nat) (entries : List Bytes) : Bytes :=
  let first := written - entries.length
  (List.range size).flatMap (fun k =>
    match (List.range entries.length).find? (fun i => (first + i) % size = k) with
    | some i => entries.getD i []
    | none => List.replicate width 0)

/-- Sequence numbers of the entries of a log. -/
def numbered {α : Type} (written : Nat) (l : List α) : List (Nat × α) := (l.zipIdx).map (fun p => (written - l.length + p.2, p.1))

/-- One Bell log entry (Table 3.9). -/
def bellEntryBytes (n : Nat) (e : BellLogEntry) : Bytes :=
  leBytes 8 n ++ leBytes 8 e.bell ++ [e.code, e.unit, e.old, e.new] ++ leBytes 4 0 ++ leBytes 8 (ofInt 64 e.detail)

/-- Log page 0xC2 (R84). -/
def bellPage (s : State) : Bytes :=
  let b := s.edge.bell
  bellHeader b s.edge.count s.edge.period
    ++ ringOf 256 32 b.logWritten ((numbered b.logWritten b.log).map (fun p => bellEntryBytes p.1 p.2))

/-- One Guild log entry (R312). -/
def guildEntryBytes (n : Nat) (e : GuildLogEntry) : Bytes :=
  leBytes 8 n ++ leBytes 8 e.bell ++ [e.code, e.port, e.old, e.new] ++ leBytes 4 e.member ++ leBytes 8 (ofInt 64 e.detail)

/-- Bit map of the ports that are UP. -/
def upMap (f : Fabric) : Nat :=
  ((f.ports.filter (fun p => p.2.st = .up)).map (fun p => 2 ^ p.1)).sum

/-- Log page 0xC3 (R312). -/
def guildPage (s : State) : Bytes :=
  let f := s.edge.fabric
  leBytes 8 f.logWritten ++ leBytes 2 256 ++ leBytes 2 (f.logWritten % 256) ++ leBytes 4 0 ++ leBytes 8 s.edge.count
    ++ [f.member.code, f.epoch] ++ leBytes 2 (upMap f) ++ leBytes 36 0
    ++ ringOf 256 32 f.logWritten ((numbered f.logWritten f.log).map (fun p => guildEntryBytes p.1 p.2))

/-- One Kernel Fault log entry (Table 8.8). -/
def faultEntryBytes (n : Nat) (e : KernelFaultEntry) : Bytes :=
  leBytes 8 n ++ leBytes 8 e.bell ++ [e.code, e.mode, e.unit, e.slot] ++ leBytes 4 e.lanes ++ leBytes 4 e.live ++ leBytes 4 e.pc
    ++ leBytes 4 e.program ++ leBytes 4 e.gang ++ leBytes 8 e.addr ++ leBytes 8 e.detail ++ leBytes 16 e.parent
    ++ leBytes 4 e.quiet ++ leBytes 2 e.others ++ leBytes 50 0

/-- Log page 0xC4 (R209). -/
def faultPage (s : State) : Bytes :=
  let c := s.edge.compute
  leBytes 8 c.faultsWritten ++ leBytes 2 64 ++ leBytes 2 (c.faultsWritten % 64) ++ leBytes 4 0 ++ leBytes 8 s.edge.count
    ++ leBytes 40 0
    ++ ringOf 64 128 c.faultsWritten ((numbered c.faultsWritten c.faultLog).map (fun p => faultEntryBytes p.1 p.2))

/-- One Freeze log entry (Table 4.14). -/
def freezeEntryBytes (h : HostSide) (q : Nat) : Bytes :=
  match tget h.sqs q with
  | none => leBytes 2 q ++ leBytes 62 0
  | some x => match x.log with
    | none => leBytes 2 q ++ leBytes 62 0
    | some l =>
      leBytes 2 q ++ [x.freeze.code, l.policy] ++ leBytes 2 l.serial ++ leBytes 2 l.cid ++ [l.code, l.sct] ++ leBytes 2 l.head
        ++ leBytes 4 l.aborted ++ leBytes 4 l.outstanding ++ leBytes 4 l.failures ++ leBytes 8 l.bell ++ leBytes 8 l.quietBell
        ++ leBytes 16 l.entry ++ leBytes 8 0

/-- Log page 0xC1 (Tables 4.13, 4.14). -/
def freezePage (s : State) : Bytes :=
  let h := s.edge.host
  let shut := (h.sqs.filter (fun p => 1 ≤ p.1 && p.2.freeze ≠ .opened)).map (fun p => p.1)
  leBytes 8 s.edge.count ++ leBytes 2 128 ++ leBytes 2 shut.length ++ leBytes 4 0
    ++ leBytes 16 ((shut.map (fun q => 2 ^ (q - 1))).sum) ++ leBytes 32 0
    ++ (List.range 128).flatMap (fun i => freezeEntryBytes h (i + 1))

/-- Log page 0xC0 (R385): header, slots, poison list. -/
def stickyPage (s : State) : Bytes :=
  let x := s.edge.sticky
  let poison := poisonList { s with ledger := s.edge.ledger, flash := s.edge.flash }
  leBytes 8 x.written ++ leBytes 2 x.slots.length ++ leBytes 2 (x.slots.filter (fun p => !p.2.cleared)).length
    ++ leBytes 4 x.lost ++ leBytes 8 s.edge.count ++ leBytes 2 (min 4096 poison.length) ++ [b2n (decide (4096 < poison.length))]
    ++ leBytes 37 0
    ++ (List.range 768).flatMap (fun i => match tget x.slots i with
        | some r => r.record.bytes
        | none => List.replicate 64 0)
    ++ (poison.take 4096).flatMap (fun p => leBytes 4 p.1 ++ leBytes 4 0 ++ leBytes 8 p.2)
    ++ List.replicate (16 * (4096 - min 4096 poison.length)) 0

end Sys2Proof.Machine
end

