-- ==== Sys2Proof/Machine/Snapshot.lean ====
section
/-!
DEFINITION. The snapshot of a freeze (R393 to R396): its documented bytes, taken when the clocks stop, and how bytes of it are read.
-/

namespace Sys2Proof.Machine

/-- Length of the snapshot. -/
def snapLength : Nat := 3219456

/-- Offsets and lengths of the sections (Table 16.11), section 1 first. -/
def snapSections : List (Nat × Nat) :=
  [(4096, 4096), (8192, 2097152), (2105344, 8192), (2113536, 4096), (2117632, 4096), (2121728, 4096), (2125824, 32768),
   (2158592, 4096), (2162688, 4096), (2166784, 4096), (2170880, 0), (2170880, 1048576)]

/-- Serial number and part number as the header holds them. -/
def nameBytes (s : State) : Bytes := leBytes 20 s.ident.serialNo ++ leBytes 16 (partText s)

/-- The header (Table 16.10). -/
def snapHeader (s : State) (cause devBefore : Nat) : Bytes :=
  [0x4E, 0x59, 0x53, 0x4E] ++ leBytes 2 1 ++ leBytes 2 12 ++ leBytes 4 snapLength
    ++ [cause, devBefore, s.power.inForce, b2n (!s.ident.meshed)] ++ leBytes 8 s.bell.count ++ [s.bell.chime] ++ leBytes 3 0
    ++ leBytes 4 (fwVersion s) ++ nameBytes s ++ leBytes 188 0
    ++ (snapSections.zipIdx).flatMap (fun p =>
      leBytes 2 (p.2 + 1) ++ leBytes 2 0 ++ leBytes 4 p.1.1 ++ leBytes 4 p.1.2 ++ leBytes 4 0)

/-- Is a unit powered down in the power state in force: its fields read 0 (R393). In PS1 the compute units are in retention. -/
def unitDark (s : State) (u : Nat) : Bool :=
  !unitPresent s u || (decide (2 ≤ s.power.inForce) && u ≠ 0 && u ≠ 244) || decide (4 ≤ s.power.inForce)

/-- Section 1: units. -/
def snapUnit (s : State) (u : Nat) : Nat × Bytes :=
  (4096 + 16 * u,
    if unitDark s u then [] else
      [unitState s u, (unitOf s u).epoch, 0, 0] ++ leBytes 4 (s.tally.entries.filter (fun p => p.2.unit = u)).length
        ++ leBytes 4 (counterVal s (0x6100 + u) 1))

/-- Section 3: a queue. -/
def snapQueue (s : State) (k : Nat) : Nat × Bytes :=
  (2105344 + 32 * k,
    match tget s.host.sqs k with
    | none => []
    | some q =>
      let c := tget s.host.cqs q.cq
      leBytes 2 q.head ++ leBytes 2 q.tail ++ leBytes 2 ((c.map (fun c => c.head)).getD 0) ++ leBytes 2 ((c.map (fun c => c.tail)).getD 0)
        ++ leBytes 4 q.size ++ [q.freeze.code, odVal s 0x2120 k, q.prio, 0] ++ leBytes 2 q.serial ++ leBytes 2 q.cq)

/-- Section 4: a loom. -/
def snapLoom (s : State) (l : Nat) : Nat × Bytes :=
  let x := tgetD s.compute.looms l .reset
  (2113536 + 16 * l, [x.holder, 0, 0, 0] ++ leBytes 4 x.holderEntry ++ leBytes 4 x.slots)

/-- Section 5: a wright core. -/
def snapCore (s : State) (c : Nat) : Nat × Bytes :=
  let v (k : Nat) : Nat := (viewCore s (24 + c) k).getD 0
  (2117632 + 16 * c, [v 1, v 2] ++ leBytes 2 (v 3) ++ leBytes 4 (v 4))

/-- Section 6: a program. -/
def snapProgram (s : State) (p : Nat) : Nat × Bytes :=
  let x := programOf s p
  (2121728 + 64 * p, [x.state, 0, 0, 0] ++ leBytes 4 (invsOf s p) ++ beBytes 48 x.digest)

/-- Section 7: the resident streams. -/
def snapStreams (s : State) : List (Nat × Bytes) :=
  ((s.streams.table.filter (fun p => p.2.store.isSome)).zipIdx).map (fun x =>
    (2125824 + 16 * x.2, leBytes 2 x.1.1 ++ [x.1.2.st.code, 1] ++ leBytes 4 x.1.2.last ++ leBytes 2 (groupsHeld x.1.2)))

/-- Section 8: an index slot and a sifter. -/
def snapSlot (s : State) (k : Nat) : Nat × Bytes :=
  let v (idx : Nat) : Nat := (viewSifters s idx (k + 1)).getD 0
  (2158592 + 32 * k, [v 0x2820, v 0x2824, 0, 0] ++ leBytes 4 (v 0x2822) ++ leBytes 8 (v 0x2821) ++ leBytes 2 (v 0x2825))

/-- Section 8: contexts of a sifter. -/
def snapSifter (s : State) (f : Nat) : Nat × Bytes :=
  (2158592 + 512 + 4 * f, leBytes 2 ((viewSifter s (72 + f) 1).getD 0) ++ leBytes 2 ((viewSifter s (72 + f) 2).getD 0))

/-- Section 9: a port. -/
def snapPort (s : State) (p : Nat) : Nat × Bytes :=
  let x := portOf s p
  (2162688 + 32 * p, [x.st.code, odVal s 0x2910 (p + 1), x.rate, 0] ++ leBytes 4 x.neighbour ++ leBytes 4 x.oneWay)

/-- The documented sections of the snapshot (R393). Units that are powered down, and sections that the variant lacks, read 0. -/
def snapBody (s : State) (cause devBefore : Nat) : List (Nat × Bytes) :=
  [(0, snapHeader s cause devBefore)] ++ (List.range 246).map (snapUnit s)
    ++ s.tally.entries.map (fun p => (8192 + 16 * p.1, leBytes 16 p.2.pack))
    ++ (List.range 129).map (snapQueue s)
    ++ (if 1 ≤ s.power.inForce then [] else
        (List.range 16).map (snapLoom s) ++ (List.range 48).map (snapCore s) ++ (List.range 16).map (snapSlot s)
          ++ (List.range 128).map (snapSifter s))
    ++ (List.range 32).map (snapProgram s) ++ snapStreams s
    ++ (if s.ident.meshed then
        (List.range 10).map (snapPort s) ++ [(2162688 + 320, [s.fabric.member.code, s.fabric.epoch])] else [])
    ++ [(2166784, bellHeader s.bell s.bell.count (odVal s 0x2001 0))]

/-- Take the snapshot at a freeze. -/
def takeSnapshot (s : State) (cause : Nat) : SnapCopy :=
  ⟨s.bell.count, s.bell.chime, cause, s.dev.state.code, snapBody s cause s.dev.state.code⟩

/-- One byte of a snapshot. -/
def snapByte (c : SnapCopy) (a : Nat) : Nat :=
  if 2170880 ≤ a then Config.sealedByte c.bell (a - 2170880) % 256
  else match c.body.find? (fun p => decide (p.1 ≤ a) && decide (a < p.1 + p.2.length)) with
    | some p => p.2.getD (a - p.1) 0
    | none => 0

/-- Bytes of a snapshot. -/
def snapRead (c : SnapCopy) (off n : Nat) : Bytes := (List.range n).map (fun i => snapByte c (off + i))

/-- The stored snapshot's objects (OD 0x7000). -/
def viewSnapshot (s : State) (sub : Nat) : Option Nat :=
  match s.freeze.stored with
  | none => some 0
  | some c => some (match sub with | 1 => 1 | 2 => snapLength | 3 => c.bell | _ => c.cause)

end Sys2Proof.Machine
end

