-- ==== Sys2Proof/Machine/FreezeOps.lean ====
section
/-!
DEFINITION. Entering FROZEN (R391, R392), which the FREEZE# pin and the Milny freeze request share.
-/

namespace Sys2Proof.Machine

/-- A side-band request that has no answer yet can have none once the steward has stopped: it is dropped. -/
def dropUnanswered (s : State) : State :=
  match s.milny.held with
  | some x => if x.answer = none then { s with milny := { s.milny with held := none } } else s
  | none => s

/-- A qualified freeze (R391, R392): ignored and counted once main power is lost, without effect in FROZEN; else the snapshot is
held, the clocks stop and record 0x1001 is kept by the always-on domain. The stored snapshot is kept until then (R395). -/
def freezeNow (s : State) (cause : Nat) : State :=
  if s.dev.state = .off then count s 0x6017 0 1
  else if s.dev.state = .frozen then s
  else
    let before := s.dev.state.code
    let s := dropUnanswered { s with freeze := { s.freeze with live := some (takeSnapshot s cause), stored := none } }
    raiseRecord (transition s .frozen cause false)
      { Record.of 0x1001 with a := cause + 256 * before, b := s.bell.count }

end Sys2Proof.Machine
end

