-- ==== Sys2Proof/Machine/Od.lean ====
section
/-!
DEFINITION. The object dictionary as the steward serves it (chapter 2): which members exist, their types and encodings, what
a read gives, and the checks of a write in the order of Table 2.4.
-/

namespace Sys2Proof.Machine

/-! ## Types (Table 2.2) -/

/-- Type code. -/
def typeCode : OdType → Nat
  | .bool => 1 | .u8 => 2 | .u16 => 3 | .u32 => 4 | .u64 => 5 | .i8 => 6 | .i16 => 7 | .i32 => 8 | .i64 => 9 | .f32 => 0x0A
  | .octet _ => 0x0B | .text _ => 0x0C | .record => 0x0D | .array => 0x0E

/-- Size in bytes of a value of a type that is no RECORD or ARRAY. -/
def typeSize : OdType → Nat
  | .bool => 1 | .u8 => 1 | .i8 => 1 | .u16 => 2 | .i16 => 2 | .u32 => 4 | .i32 => 4 | .f32 => 4 | .u64 => 8 | .i64 => 8
  | .octet n => n | .text n => n | .record => 0 | .array => 0

/-- A text with no byte after its first 0x00 and printable ASCII before it. -/
def textOk (bs : Bytes) : Bool :=
  let body := bs.takeWhile (fun b => b ≠ 0)
  body.all (fun b => decide (0x20 ≤ b) && decide (b ≤ 0x7E)) && (bs.drop body.length).all (fun b => b = 0)

/-- Is a value a reserved encoding of its type (Table 2.2, R441). -/
def typeReserved (ty : OdType) (v : Nat) : Bool :=
  match ty with
  | .bool => decide (1 < v)
  | .f32 => v / 2 ^ 23 % 256 = 255
  | .text n => !textOk (leBytes n v)
  | _ => false

/-- The prime of P-384. -/
def p384 : Nat := 2 ^ 384 - 2 ^ 128 - 2 ^ 96 + 2 ^ 32 - 1

/-- The coefficient b of P-384. -/
def p384b : Nat :=
  0xb3312fa7e23ee7e4988e056be3f82d19181d9c6efe8141120314088f5013875ac656398d8a2ed19d2a85c8edd3ec2aef

/-- Is a key of 97 bytes an uncompressed point on P-384, or all zeros (R409). -/
def pointOk (v : Nat) : Bool :=
  let bs := leBytes 97 v
  let x := beNat (slice bs 1 48)
  let y := beNat (slice bs 49 48)
  v = 0 || (bs.headD 0 = 4 && decide (x < p384) && decide (y < p384) && decide ((y * y + 3 * x) % p384 = (x * x * x + p384b) % p384))

/-- Width in bits of a signed type. -/
def signedWidth : OdType → Nat
  | .i8 => 8 | .i16 => 16 | .i32 => 32 | _ => 64

/-- The encoding check of R441: is a value marked reserved by its type or its row. -/
def encodingBad (r : OdRow) (v : Nat) : Bool :=
  typeReserved r.ty v || match r.chk with
    | .mask m => decide (Nat.land v m ≠ v)
    | .codes last => decide (last < v)
    | .notReserved x => decide (v = x)
    | .certificate =>
      let b := leBytes 256 v
      (slice b 6 2 ++ slice b 133 27).any (fun x => decide (x ≠ 0))
    | _ => false

/-- The range check of R441. The value 3 of OD 0x2B01 is listed on the M variant only. -/
def rangeBad (s : State) (r : OdRow) (v : Nat) : Bool :=
  match r.chk with
  | .range lo hi => decide (v < lo) || decide (hi < v)
  | .signed lo hi => decide (toInt (signedWidth r.ty) v < lo) || decide (hi < toInt (signedWidth r.ty) v)
  | .oneOf vs => !vs.contains v || (r.lo = 0x2B01 && v = 3 && !s.ident.meshed)
  | .point => !pointOk v
  | _ => false

/-! ## Members -/

/-- Subindices that a counter object or a threshold object can have. -/
def counterSubs : List Nat := List.range 11

/-- Highest subindex of a counter object, 0 where it is a single element or none. -/
def counterTop (idx : Nat) : Nat := (counterSubs.filter (fun i => (counterClass idx i).isSome)).foldl max 0

/-- Has a counter object an Event member, so that a threshold object stands at its index + 0x200 (R390). -/
def hasThreshold (idx : Nat) : Bool := counterSubs.any (fun i => counterClass idx i = some .event)

/-- The member of a threshold object (R390). The thresholds of counters that read zero on the S variant are constants. -/
def thresholdRow (s : State) (idx sub : Nat) : Option OdRow :=
  let base := idx - 0x200
  if idx < 0x6200 ∨ hasThreshold base = false then none
  else if counterClass base sub = some .event ∧ counterDead s base = false then some ⟨idx, idx, sub, sub, .u32, .pen, .hs, [0], .any, false⟩
  else if (1 ≤ sub ∧ sub ≤ counterTop base) ∨ (sub = 0 ∧ counterClass base 0 = some .event) then
    some ⟨idx, idx, sub, sub, .u32, .ro, .none, [0], .any, false⟩
  else none

/-- A member that a table lists (R37): one of the object tables, a counter (R388, R389) or a threshold (R390). On the S variant
the FABRIC quotas are RO (Table 1.10). -/
def listedMember (s : State) (idx sub : Nat) : Option OdRow :=
  match counterClass idx sub with
  | some .wraps => some ⟨idx, idx, sub, sub, .u64, .ro, .none, [0], .any, false⟩
  | some _ => some ⟨idx, idx, sub, sub, .u32, .rw, .hs, [0], .oneOf [0], false⟩
  | none =>
    match thresholdRow s idx sub with
    | some r => some r
    | none =>
      if !s.ident.meshed && sub = 2 && (idx = 0x2040 || idx = 0x2041) then
        (odRow s idx sub).map (fun r => { r with acc := .ro, wr := .none })
      else odRow s idx sub

/-- The highest subindex that is listed for an index (R35, R442). -/
def topSub (s : State) (idx : Nat) : Nat :=
  let rows := odTable.filter (fun r => decide (r.lo ≤ idx) && decide (idx ≤ r.hi) && (odRow s idx r.subLo).isSome)
  let base := if hasThreshold (idx - 0x200) && decide (0x6200 ≤ idx) then counterTop (idx - 0x200) else counterTop idx
  max base ((rows.map (fun r => r.subHi)).foldl max 0)

/-- A member of the dictionary, the head of a RECORD or ARRAY included (R35, R442). -/
def odMember (s : State) (idx sub : Nat) : Option OdRow :=
  match listedMember s idx sub with
  | some r => some r
  | none => if sub = 0 ∧ 0 < topSub s idx then some ⟨idx, idx, 0, 0, .u8, .ro, .none, [0], .any, false⟩ else none

/-- Is an index in the dictionary. -/
def odIndex (s : State) (idx : Nat) : Bool := (odMember s idx 0).isSome

/-- Is an index a RECORD or an ARRAY: it has members from subindex 1 up. -/
def isComposite (s : State) (idx : Nat) : Bool := decide (0 < topSub s idx)

/-- The members 1 to N of an index. -/
def membersOf (s : State) (idx : Nat) : List (Nat × OdRow) :=
  (List.range (topSub s idx)).filterMap (fun i => (listedMember s idx (i + 1)).map (fun r => (i + 1, r)))

/-- RECORD or ARRAY (R442): an ARRAY where every listed member has the same type, also where the table's row for subindex 00 says
RECORD. -/
def compositeType (s : State) (idx : Nat) : OdType :=
  if 1 < (((membersOf s idx).map (fun p => p.2.ty)).dedup).length then .record else .array

/-! ## Values -/

/-- The value of a member as its chapter gives it, where that is not a stored value. -/
def odView (s : State) (idx sub : Nat) : Option Nat :=
  let v := sampledView s
  if idx < 0x1100 then viewDevice s idx sub
  else if idx < 0x1180 then viewMilny s idx sub
  else if idx < 0x2040 then viewBell s idx sub
  else if idx < 0x2080 then viewTally v s idx sub
  else if idx < 0x2100 then viewBell s idx sub
  else if idx < 0x2200 then viewHost s idx sub
  else if idx < 0x2300 then viewFlash v idx sub
  else if idx < 0x2400 then viewLedger s idx sub
  else if idx < 0x2600 then none
  else if idx < 0x2700 then viewKernel v idx sub
  else if idx < 0x2800 then viewStreams v s idx sub
  else if idx < 0x2900 then viewSifters v idx sub
  else if idx < 0x2A00 then viewFabric v s idx sub
  else if idx < 0x2B00 then viewPower v s idx sub
  else if idx < 0x2C00 then viewUpdate s idx sub
  else if idx < 0x3000 then viewKeys v idx sub
  else if idx < 0x3100 then viewUnit v s (idx - 0x3000) sub
  else if idx < 0x3200 then viewChannel v (idx - 0x3100) sub
  else if idx < 0x3300 then viewLoom v (idx - 0x3200) sub
  else if idx < 0x3400 then viewCore v (idx - 0x3300) sub
  else if idx < 0x3500 then viewSifter v (idx - 0x3400) sub
  else if idx < 0x5100 then viewFaults s idx sub
  else if idx < 0x5400 then viewSlot s (idx - 0x5100) sub
  else if idx = 0x7000 then viewSnapshot s sub
  else viewFaults s idx sub

/-- The value that a member reads: a head its highest subindex, a counter what it was at the last chime boundary (R389), a
view of its chapter, or the stored value. -/
def odRead (s : State) (idx sub : Nat) : Nat :=
  if sub = 0 ∧ isComposite s idx then topSub s idx
  else if (counterClass idx sub).isSome then
    (if counterDead s idx then 0 else tgetD s.sampled.counters (odKey idx sub) 0)
  else if 0x6200 ≤ idx ∧ idx < 0x6400 then odVal s idx sub
  else (odView s idx sub).getD (odVal s idx sub)

/-- The bytes of one member. -/
def memberBytes (s : State) (idx sub : Nat) (r : OdRow) : Bytes := leBytes (typeSize r.ty) (odRead s idx sub)

/-- A length brought up to the next multiple of 4. -/
def pad4 (n : Nat) : Nat := (n + 3) / 4 * 4

/-- The layout of a RECORD or ARRAY (Table 2.2): each member at a multiple of 4, zero pads after it. -/
def layoutBytes (s : State) (idx : Nat) : Bytes :=
  (membersOf s idx).flatMap (fun p =>
    let b := memberBytes s idx p.1 p.2
    b ++ List.replicate (pad4 b.length - b.length) 0)

/-- The answer to an OD read or write: result code, type code, bytes transferred, full length, data (Table 2.10). -/
structure OdAnswer where
  code : Nat
  ty : Nat
  n : Nat
  full : Nat
  data : Bytes
  deriving DecidableEq, Repr

/-- An answer that says no more than its result code. -/
def OdAnswer.bare (code ty : Nat) : OdAnswer := ⟨code, ty, 0, 0, []⟩

/-- An OD read (R40, R59): the bytes asked for from the value, or a result code. Table 2.10 does not say what type code and full length a
refused read or write carries: the model gives 0 for both with codes 1 and 2 and where the request's own fields fail, the type and
a full length of 0 with code 3 on a read, and the type and the full length with any other code (DESIGN CHOICE, log entry 10). -/
def checkRead (s : State) (idx sub : Nat) (allsub : Bool) (off len : Nat) : OdAnswer :=
  if !odIndex s idx then .bare 1 0
  else if allsub && !isComposite s idx then .bare 2 0
  else
    let member := odMember s idx sub
    if !allsub && member.isNone then .bare 2 0
    else
      let ms := if allsub then membersOf s idx else (member.map (fun r => [(sub, r)])).getD []
      let ty := typeCode (if allsub then compositeType s idx else ((member.map (fun r => r.ty)).getD .u8))
      if ms.any (fun p => p.2.acc = .wo) then .bare 3 ty
      else
        let value := if allsub then layoutBytes s idx else ms.flatMap (fun p => memberBytes s idx p.1 p.2)
        if value.length < off + len then ⟨9, ty, 0, value.length, []⟩
        else ⟨0, ty, len, value.length, slice value off len⟩

/-! ## Writes -/

/-- Is a master among the writers of a row (Table 0.5). -/
def mayWrite (m : Master) : Writers → Bool
  | .hs => true
  | .h => m = .host
  | .s => m = .sideband
  | .none => false

/-- May a member be written in the present device state (Tables 2.3 and 2.5). -/
def writableNow (s : State) (r : OdRow) (idx : Nat) : Bool :=
  match s.dev.state with
  | .off => false | .boot => false | .frozen => false
  | .fault => idx = 0x2B01
  | .config => true
  | _ => r.acc ≠ .cfg

/-- Is a state request of a listed value one that R47 allows now. -/
def requestAllowed (s : State) : Bool :=
  s.dev.state = .config || s.dev.state = .run || (s.dev.state = .drain && !s.dev.drainForActivation)

/-- A member's value after a write of `vs` to index `idx`. -/
def proposed (s : State) (idx : Nat) (vs : List (Nat × Nat)) (i sub : Nat) : Nat :=
  if i = idx then ((vs.find? (fun p => p.1 = sub)).map (fun p => p.2)).getD (odVal s i sub) else odVal s i sub

/-- Does a write break the quotas of R24. -/
def quotaBad (s : State) (idx : Nat) (vs : List (Nat × Nat)) : Bool :=
  let lo (k : Nat) := proposed s idx vs 0x2040 k
  decide (131072 < lo 1 + lo 2 + lo 3 + lo 4 + lo 5)
    || [1, 2, 3, 4, 5].any (fun k => decide (proposed s idx vs 0x2041 k < lo k))

/-- Is a member certificate one that the drive refuses (R403): not signed by the authority, not its key, not its serial number. -/
def certificateBad (s : State) (cert : Nat) : Bool :=
  !certSigned s cert || certKey cert ≠ Config.factoryKey 4 || fieldAt (certBytes cert) 12 20 ≠ s.ident.serialNo

/-- Is a base no multiple of the namespace's LBA size (Table 12.8; format 0 has 4,096-byte LBAs, format 1 16,384). -/
def windowBaseBad (s : State) (nsid base : Nat) : Bool :=
  match tget s.ledger.nss nsid with
  | none => false
  | some n => base % (if n.lbaf = 0 then 4096 else 16384) ≠ 0

/-- Does a write conflict with another object, as its chapter states (result code 0x0A): quotas (R24), the period of a member
(R66), the guild source on S, the free-band levels (OD 0x2301), the buffers of LONG_HAUL (R281), a RING window (R296), the
base of a namespace window (Table 12.8), the certificate (R403). -/
def conflicts (s : State) (idx : Nat) (vs : List (Nat × Nat)) : Bool :=
  let p := proposed s idx vs idx
  if idx = 0x2040 ∨ idx = 0x2041 then quotaBad s idx vs
  else if idx = 0x2001 then s.ident.meshed && s.fabric.member ≠ .solo
  else if idx = 0x2002 then !s.ident.meshed && bit (p 0) 1
  else if idx = 0x2301 then !(decide (8 ≤ p 3) && decide (p 3 < p 2) && decide (p 2 < p 1) && decide (p 1 ≤ 512))
  else if idx = 0x2910 then
    let more := (vs.filter (fun q => q.2 = 2 && odVal s idx q.1 ≠ 2)).length
    decide (0 < more) && decide (slmSize < slmHeld s + 67108864 * more)
  else if 0x2940 ≤ idx ∧ idx ≤ 0x294F then
    (p 1 = 3 && (decide (p 5 < 8192) || p 5 % 4096 ≠ 0)) || (p 1 = 2 && windowBaseBad s (p 3) (p 4))
  else if idx = 0x2C22 then vs.any (fun q => certificateBad s q.2)
  else false

/-- Take the members' values from the bytes of a write; none where a pad byte is not zero. -/
def takeValues : List (Nat × OdRow) → Bool → Bytes → Option (List (Nat × Nat))
  | [], _, _ => some []
  | (sub, r) :: ms, allsub, bs =>
    let n := typeSize r.ty
    let w := if allsub then pad4 n else n
    if (slice bs n (w - n)).any (fun b => b ≠ 0) then none
    else (takeValues ms allsub (bs.drop w)).map (fun t => (sub, leNat (slice bs 0 n)) :: t)

/-- Size of what a write to these members carries. -/
def writeSize (ms : List (Nat × OdRow)) (allsub : Bool) : Nat :=
  (ms.map (fun p => if allsub then pad4 (typeSize p.2.ty) else typeSize p.2.ty)).sum

/-- The checks of a write that look at its values, in the order encoding, range, conflict (R39, R441). -/
def valueCode (s : State) (idx : Nat) (ms : List (Nat × OdRow)) (vs : List (Nat × Nat)) : Nat :=
  let both := ms.zip vs
  if both.any (fun q => encodingBad q.1.2 q.2.2) then 8
  else if both.any (fun q => rangeBad s q.1.2 q.2.2) then 7
  else if conflicts s idx vs then 0x0A
  else 0

/-- The checks of a write to members that exist, in the order of Table 2.4 (R39, R59). A state request of 2 or 3 that R47
does not allow fails with the state check. -/
def writeCode (s : State) (m : Master) (serial idx : Nat) (allsub : Bool) (ms : List (Nat × OdRow)) (data : Bytes) : Nat :=
  if ms.any (fun p => p.2.acc = .ro) then 3
  else if allsub && ms.any (fun p => !mayWrite m p.2.wr || !writableNow s p.2 idx) then 3
  else if ms.any (fun p => !mayWrite m p.2.wr) then 4
  else if ms.any (fun p => !writableNow s p.2 idx) then 5
  else if idx = 0x1011 && (data = [2] || data = [3]) && !requestAllowed s then 5
  else if ms.any (fun p => p.2.acc = .cfg || p.2.acc = .pen) && !holdsPen s m serial then 6
  else if data.length ≠ writeSize ms allsub then 9
  else match takeValues ms allsub data with
    | none => 8
    | some vs => valueCode s idx ms vs

/-- The members that a write names, with their type code, or the result code where there are none (R37, R59). -/
def writeMembers (s : State) (idx sub : Nat) (allsub : Bool) : Except Nat (List (Nat × OdRow) × Nat) :=
  if !odIndex s idx then .error 1
  else if allsub then
    (if isComposite s idx then .ok (membersOf s idx, typeCode (compositeType s idx)) else .error 2)
  else match odMember s idx sub with
    | none => .error 2
    | some r => .ok ([(sub, r)], typeCode r.ty)

/-- Check a write (R39): the answer of a refused write, or what it writes. -/
def checkWrite (s : State) (m : Master) (serial idx sub : Nat) (allsub : Bool) (data : Bytes) :
    Except OdAnswer (List (Nat × Nat) × Nat) :=
  match writeMembers s idx sub allsub with
  | .error c => .error (.bare c 0)
  | .ok (ms, ty) =>
    let full := writeSize ms allsub
    if m = .sideband ∧ 1008 < full then .error ⟨9, ty, 0, full, []⟩
    else
      let c := writeCode s m serial idx allsub ms data
      if c = 0 then .ok ((takeValues ms allsub data).getD [], ty) else .error ⟨c, ty, 0, full, []⟩

end Sys2Proof.Machine
end

