-- ==== Sys2Proof/Machine/Steward.lean ====
section
/-!
DEFINITION. The steward (chapter 2): its request queue, the pen, the answers it gives to each master, and how an accepted
write takes effect at its bell edge (R41).
-/

namespace Sys2Proof.Machine

/-! ## Frames of the side-band segment that the answers go out in -/

/-- A Milny frame from this drive to the master (Table 13.3). -/
def milnyFrame (s : State) (ty : Nat) (payload : Bytes) : Bytes :=
  let body := [0, s.milny.address, ty] ++ leBytes 2 payload.length ++ payload
  [0xA5] ++ body ++ leBytes 4 (crc32 body)

/-- The payload of an ACY_RSP (Table 13.11). -/
def acyRsp (service token status code ty n full : Nat) (data : Bytes) : Bytes :=
  [service, token, status, code, ty, 0] ++ leBytes 2 n ++ leBytes 4 full ++ leBytes 4 0 ++ data

/-- Send an ACY_RSP. -/
def sendAcy (s : State) (payload : Bytes) : State := emit s (.milny (milnyFrame s 0x11 payload))

/-- The answer to the held request with a token is ready (R331). -/
def holdAnswer (s : State) (token : Nat) (payload : Bytes) : State :=
  match s.milny.held with
  | some x =>
    if x.req.token = token ∧ x.answer = none then
      { s with milny := { s.milny with held := some { x with answer := some payload, waking := false } } }
    else s
  | none => s

/-- The answer to the held request will be ready at the next chime boundary (R331). -/
def holdLater (s : State) (token : Nat) (payload : Bytes) : State :=
  match s.milny.held with
  | some x =>
    if x.req.token = token ∧ x.answer = none then
      { s with milny := { s.milny with held := some { x with coming := some payload, waking := false } } }
    else s
  | none => s

/-- The answers of the steward become ready at a chime boundary (R331). -/
def answersReady (s : State) : State :=
  match s.milny.held with
  | some x => match x.coming with
    | some b => { s with milny := { s.milny with held := some { x with answer := some b, coming := none } } }
    | none => s
  | none => s

/-! ## Answers -/

/-- The NVMe status of a result code (Table 2.4). -/
def codeStatus (c : Nat) : Status :=
  match c with
  | 0 => .success
  | 5 => .commandSequenceError
  | 6 => .penHeld
  | _ => .invalidField

/-- Answer an OD read or write to the master that asked (Tables 2.10 and 13.11). `applied` says that a write has met its bell edge;
an answer that the steward gives at service is ready for the side-band at the next chime boundary (R331). -/
def answerOd (s : State) (v : Via) (read applied : Bool) (a : OdAnswer) : State :=
  match v.master with
  | .host =>
    match findHost s v.h.sq v.h.cid with
    | none => s
    | some i => finishData s i (codeStatus a.code) (a.code * 2 ^ 24 + a.ty * 2 ^ 16 + a.n) a.full a.data false
  | .sideband =>
    (if applied then holdAnswer else holdLater) s v.h.cid
      (acyRsp (if read then 1 else 2) v.h.cid 0 a.code a.ty a.n (if read then a.full else 0) a.data)

/-- Answer a pen service: result code, holder before, serial after (Tables 2.10 and 13.11). -/
def answerPen (s : State) (v : Via) (service code before serial : Nat) : State :=
  match v.master with
  | .host =>
    match findHost s v.h.sq v.h.cid with
    | none => s
    | some i => finish s i (codeStatus code) (code * 2 ^ 24 + before * 2 ^ 16 + serial) 0
  | .sideband => holdLater s v.h.cid (acyRsp service v.h.cid 0 code 0 serial before [])

/-! ## The pen -/

/-- The serial of the next take (R52): never 0. -/
def nextSerial (n : Nat) : Nat := if 65535 ≤ n then 1 else n + 1

/-- Give the pen to a master under a new serial; its idle count and the linger stop (R50, R52). -/
def grantPen (s : State) (m : Master) : State :=
  { s with pen := ⟨some m, nextSerial s.pen.serial, 0, midBell s⟩, dev := { s.dev with lingerUs := 0 } }

/-- May a master force the pen (OD 0x1023, R53). -/
def mayForce (s : State) (m : Master) : Bool :=
  bit (odVal s 0x1023 0) (match m with | .host => 0 | .sideband => 1)

/-- Pen Take (R52, R53). Answers the result code. -/
def takePen (s : State) (m : Master) (force : Bool) : Nat × State :=
  match s.pen.holder with
  | none => (0, grantPen s m)
  | some x =>
    if x = m then (0, { s with pen := { s.pen with idleUs := 0, idleFresh := midBell s } })
    else if force && mayForce s m then
      let s := grantPen s m
      (0, raiseRecord s { Record.of 0x0201 with winner := partyOf m, loser := partyOf x, b := s.pen.serial })
    else (6, s)

/-- Pen Give (R57). Answers the result code. -/
def givePen (s : State) (m : Master) (serial : Nat) : Nat × State :=
  if holdsPen s m serial then (0, releasePen s) else (6, s)

/-! ## Service -/

/-- Largest length of a read or write (R58, Table 13.10). -/
def lengthLimit (m : Master) : Nat := match m with | .host => 4096 | .sideband => 1008

/-- The checks of the request's own fields, before any other (R58, R329): reserved fields and NSID, length. -/
def fieldCode (v : Via) (len : Option Nat) : Nat :=
  if !v.h.reservedOk || v.h.nsid ≠ 0 then 8
  else match len with
    | none => 0
    | some n => if n = 0 then 8 else if lengthLimit v.master < n then 9 else 0

/-- Serve an OD write (R39, R41): refused at once, or accepted until the bell edge that applies it. -/
def serveWrite (s : State) (v : Via) (idx sub : Nat) (allsub : Bool) (data : Bytes) : State :=
  let f := fieldCode v (some data.length)
  if f ≠ 0 then answerOd s v false false (.bare f 0)
  else match checkWrite s v.master v.serial idx sub allsub data with
    | .error a => answerOd s v false false a
    | .ok (values, ty) =>
      { s with steward := { s.steward with
          accepted := s.steward.accepted ++ [⟨v, idx, values, data.length, ty, s.bell.ticks, false⟩] } }

/-- Serve an OD read (R40, R59). -/
def serveRead (s : State) (v : Via) (idx sub : Nat) (allsub : Bool) (off len : Nat) : State :=
  let f := fieldCode v (some len)
  answerOd s v true false (if f ≠ 0 then .bare f 0 else checkRead s idx sub allsub off len)

/-- Serve Pen Take (Table 2.10). The spec states no DW0[23:16] for a take that fails the checks of its own fields: the model gives 0
there and not the holder (DESIGN CHOICE, log entry 10). -/
def serveTake (s : State) (v : Via) (force : Bool) : State :=
  let f := fieldCode v none
  let before := holderCode s.pen.holder
  if f ≠ 0 then answerPen s v 3 f 0 0
  else
    let (c, s) := takePen s v.master force
    answerPen s v 3 c before (if c = 0 then s.pen.serial else 0)

/-- Serve Pen Give. -/
def serveGive (s : State) (v : Via) : State :=
  let f := fieldCode v none
  if f ≠ 0 then answerPen s v 4 f 0 0
  else
    let (c, s) := givePen s v.master v.serial
    answerPen s v 4 c 0 0

/-- Serve one request of the queue (R43); a request of the holder restarts the idle count (R55). -/
def serveRequest (s : State) (r : StewReq) : State :=
  let s := if s.pen.holder = some r.via.master then { s with pen := { s.pen with idleUs := 0, idleFresh := midBell s } } else s
  match r.op with
  | .read idx sub allsub off len => serveRead s r.via idx sub allsub off len
  | .write idx sub allsub data => serveWrite s r.via idx sub allsub data
  | .take force => serveTake s r.via force
  | .give => serveGive s r.via

/-- Does the steward run: main power is present, the drive is not FROZEN, and it is in PS0 (R332). -/
def stewardUp (s : State) : Bool := !stopped s && s.power.inForce = 0 && !s.power.waking

/-- Does a request stay ahead of a new one (R43): it arrived earlier, or at the same chime boundary and is not one of the host that a
side-band request goes before. -/
def staysAhead (r x : StewReq) : Bool :=
  decide (x.arrival < r.arrival) || (x.arrival = r.arrival && (r.via.master = .host || x.via.master = .sideband))

/-- Put a request into the queue (R43): by arrival, and among those of one chime boundary the side-band ones first. -/
def enqueue (q : List StewReq) (r : StewReq) : List StewReq :=
  q.filter (staysAhead r) ++ [r] ++ q.filter (fun x => !staysAhead r x)

/-- The chime boundary at which a request arrives (R43): the host's at that of its command's admission, a side-band request at the next
one. -/
def arrivalOf (s : State) (v : Via) : Nat :=
  match v.master with
  | .host => ((hostEntry s v.h).map (fun p => p.2.admitChime)).getD (chimeNow s)
  | .sideband => chimeNow s + 1

/-- A request reaches the steward (R43). One of the host that no other goes before is served at the chime of its admission while fewer
than 32 have been served there; a side-band request waits for the next chime boundary. -/
def submit (s : State) (v : Via) (op : StewOp) : State :=
  let r : StewReq := ⟨v, op, arrivalOf s v⟩
  if v.master = .host && stewardUp s && s.steward.queue.all (fun x => !staysAhead r x) && decide (s.steward.served < 32) then
    serveRequest { s with steward := { s.steward with served := s.steward.served + 1 } } r
  else { s with steward := { s.steward with queue := enqueue s.steward.queue r } }

/-- Serve up to `n` requests in queue order. -/
def serveUpTo : Nat → State → State
  | 0, s => s
  | n + 1, s =>
    match s.steward.queue with
    | [] => s
    | r :: rest =>
      serveUpTo n (serveRequest { s with steward := { s.steward with queue := rest, served := s.steward.served + 1 } } r)

/-- The steward at a chime boundary (R43). -/
def serveQueue (s : State) : State :=
  let s := { s with steward := { s.steward with served := 0 } }
  if stewardUp s then serveUpTo 32 s else s

/-! ## The ways in -/

/-- Is a tunnel command among those that the pause holds. -/
def tunnelHeld (s : State) (h : HostId) : Bool := s.steward.held.any (fun r => r.via.h.cid = h.cid)

/-- A tunnel command meets an activation pause (R61): its entry is HELD, and its request waits for the end of the activation. -/
def holdTunnel (s : State) (h : HostId) (serial : Nat) (op : StewOp) : State :=
  match hostEntry s h with
  | none => s
  | some (i, e) =>
    if !s.host.rdy || h.sq ≠ 0 || e.dispatched || tunnelHeld s h then s
    else setState { s with steward := { s.steward with
      held := s.steward.held ++ [⟨⟨.host, serial, h⟩, op, e.admitChime⟩] } } i .held

/-- A tunnel command (R58, R61): a HOST entry of the admin queue, held in PAUSED, whose request goes to the steward. -/
def tunnel (s : State) (h : HostId) (serial : Nat) (op : StewOp) : State :=
  if s.dev.state = .paused then holdTunnel s h serial op
  else serveAdmin s h true (fun s _ => submit s ⟨.host, serial, h⟩ op)

/-- The tunnel commands that the pause held are served when the activation ends (R61): their requests stand in the queue of the next
chime boundary. -/
def resumeTunnels (s : State) : State :=
  s.steward.held.foldl (fun s r =>
    match findHost s 0 r.via.h.cid with
    | some i => { setRunning s i with steward := { s.steward with queue := enqueue s.steward.queue r } }
    | none => s) { s with steward := { s.steward with held := [] } }

/-- The objects that the always-on domain serves (R332). -/
def alwaysOnObject (idx : Nat) : Bool :=
  (decide (0x1000 ≤ idx) && decide (idx ≤ 0x1009)) || idx = 0x1010 || (decide (0x1100 ≤ idx) && decide (idx ≤ 0x117F))
    || (decide (0x2000 ≤ idx) && decide (idx ≤ 0x2004)) || idx = 0x2008

/-- A side-band request as the steward sees it: the token stands for the command identifier. -/
def sideVia (r : AcyReq) : Via := ⟨.sideband, r.serial, ⟨0, r.token, 0, false, 0, true⟩⟩

/-- The steward operation of a service (Table 13.12). -/
def acyOp (service : Nat) (r : AcyReq) : StewOp :=
  match service with
  | 1 => .read r.index r.sub r.allsub r.offset r.length
  | 2 => .write r.index r.sub r.allsub r.data
  | 3 => .take r.force
  | _ => .give

/-- Send the held answer, or PENDING (R330). -/
def replyHeld (s : State) (service token : Nat) : State :=
  match s.milny.held with
  | some x => match x.answer with
    | some b => sendAcy { s with milny := { s.milny with held := some { x with delivered := true } } } b
    | none => sendAcy s (acyRsp service token 1 0 0 0 0 [])
  | none => sendAcy s (acyRsp service token 1 0 0 0 0 [])

/-- How a request is served in the present condition (Table 13.13). -/
inductive AcyRoute where
  | steward | alwaysOn | refused | waking | notServed
  deriving DecidableEq, Repr

/-- The route of a service other than POLL. -/
def acyRoute (s : State) (service idx : Nat) : AcyRoute :=
  let on := service = 1 && alwaysOnObject idx
  if s.dev.state = .frozen then (if service = 5 then .alwaysOn else .notServed)
  else if service = 5 then .notServed
  else if s.dev.state = .off then (if on then .alwaysOn else .notServed)
  else if s.dev.state = .boot then (if service = 1 then .steward else .refused)
  else if s.power.inForce ≠ 0 then (if on then .alwaysOn else .waking)
  else .steward

/-- What the always-on domain answers (R332, R334). -/
def alwaysOnAnswer (s : State) (service : Nat) (r : AcyReq) : Bytes :=
  let f := fieldCode (sideVia r) (some r.length)
  if f ≠ 0 then acyRsp service r.token 0 f 0 0 0 []
  else if service = 1 then
    let a := checkRead s r.index r.sub r.allsub r.offset r.length
    acyRsp 1 r.token 0 a.code a.ty a.n a.full a.data
  else match s.freeze.live with
    | none => acyRsp service r.token 3 0 0 0 0 []
    | some c =>
      if snapLength < r.offset + r.length then acyRsp 5 r.token 0 9 0 0 snapLength []
      else acyRsp 5 r.token 0 0 0 r.length snapLength (snapRead c r.offset r.length)

/-- Take a new request (R330, R332). -/
def acyTake (s : State) (service : Nat) (r : AcyReq) : State :=
  let route := acyRoute s service r.index
  if route = .notServed then sendAcy s (acyRsp service r.token 3 0 0 0 0 [])
  else
    let undelivered := match s.milny.held with | some x => !x.delivered | none => false
    let s := if undelivered then count s 0x6010 6 1 else s
    let s := { s with milny := { s.milny with held := some ⟨service, r, none, none, false, route = .waking⟩ } }
    let s := match route with
      | .alwaysOn => holdAnswer s r.token (alwaysOnAnswer s service r)
      | .refused => holdAnswer s r.token (acyRsp service r.token 0 5 0 0 0 [])
      | .waking => wakeEvent (submit s (sideVia r) (acyOp service r)) 2
      | _ => submit s (sideVia r) (acyOp service r)
    replyHeld s service r.token

/-- An ACY_REQ other than POLL (R329, R330). A drive whose address is 0x7E answers none (R318). -/
def acyServe (s : State) (service : Nat) (r : AcyReq) : State :=
  if !s.rails.alwaysOn || s.milny.address = 0x7E then s else
  let s := count s 0x6010 1 1
  if !r.reservedOk || !r.lengthOk || r.token = 0 then sendAcy s (acyRsp service r.token 5 0 0 0 0 [])
  else match s.milny.held with
    | none => acyTake s service r
    | some x =>
      if x.service = service ∧ x.req = r then replyHeld (count s 0x6010 5 1) service r.token
      else if x.answer = none then sendAcy s (acyRsp service r.token 2 0 0 0 0 [])
      else acyTake s service r

/-- A write of one object, by whichever master: the host through the tunnel, the side-band master by OD WRITE. -/
def writeVia (s : State) (v : Via) (idx sub : Nat) (data : Bytes) : State :=
  match v.master with
  | .host => tunnel s v.h v.serial (.write idx sub false data)
  | .sideband =>
    acyServe s 2 ⟨v.h.cid, idx, sub, false, false, v.serial, 0, data.length, v.h.reservedOk, true, data⟩

/-- An ALLSUB write. -/
def writeAllVia (s : State) (v : Via) (idx : Nat) (data : Bytes) : State :=
  match v.master with
  | .host => tunnel s v.h v.serial (.write idx 0 true data)
  | .sideband =>
    acyServe s 2 ⟨v.h.cid, idx, 0, true, false, v.serial, 0, data.length, v.h.reservedOk, true, data⟩

/-! ## Writes taking effect -/

/-- Change a sticky slot. -/
def slotMod (s : State) (f : Nat × StickySlot → StickySlot) : State :=
  { s with sticky := { s.sticky with slots := s.sticky.slots.map (fun p => (p.1, f p)) } }

/-- Let a port that its pin or mode write frees train again (R276, R278): FAILED is left, the failures are forgotten, and where
`again` holds a port that is not DOWN goes DOWN first. -/
def rewritePort (s : State) (p : Nat) (again : Bool) : State :=
  let s := portMod s p (fun x => { x with fails := 0 })
  let s := if (portOf s p).st = .failed then setPort s p .down
    else if again && (portOf s p).st ≠ .down then portDown s p else s
  settlePort s p

/-- A reset that OD 0x2B01 orders (Table 15.2). The save of a cold reset finds its hold-up bank on main power and completes; its
duration is a free value. -/
def orderReset (s : State) (m : Master) (v : Nat) : State :=
  let cause := match m with | .host => 2 | .sideband => 3
  match v with
  | 1 => orderWarm s cause 0
  | 2 =>
    let s := raiseRecord s { Record.of 0x0F02 with a := partyOf m }
    let (us, s) := drawFree s
    coldReset s cause (us % 2 ^ 32) true
  | _ => guildResetJoin s cause

/-- What the write of one member does at its edge, by the chapter that owns the object. -/
def applyMember (m : Master) (s : State) (idx sub v : Nat) : State :=
  if (counterClass idx sub).isSome then { s with counters := tput s.counters (odKey idx sub) 0 }
  else if 0x5100 ≤ idx ∧ idx ≤ 0x53FF then
    (if v = 1 then slotMod s (fun p => if p.1 = idx - 0x5100 then { p.2 with cleared := true } else p.2) else s)
  else match idx with
    | 0x1100 => { s with milny := { s.milny with address := v } }
    | 0x1101 => { s with milny := { s.milny with term := decide (v = 1) } }
    | 0x1104 => if v = 1 then { s with milny := { s.milny with conflict := false } } else s
    | 0x2001 => changePeriod s v
    | 0x5001 => slotMod s (fun p => if p.2.record.seq ≤ v then { p.2 with cleared := true } else p.2)
    | 0x7001 => if v = 1 then { s with freeze := { s.freeze with stored := none } } else s
    | 0x2B01 => orderReset s m v
    | 0x2210 =>
      let s := odSet s idx sub v
      { s with flash := { s.flash with pinWriter := partyOf m, pinRecordArmed := true } }
    | 0x2211 =>
      let s := odSet s idx sub v
      { s with flash := { s.flash with pinWriter := partyOf m, pinRecordArmed := true } }
    | 0x2910 =>
      let old := odVal s idx sub
      rewritePort (odSet s idx sub v) (sub - 1) (decide (old ≠ v))
    | 0x2911 =>
      let s := odSet s idx sub v
      let s := portMod { s with fabric := { s.fabric with pinWriter := partyOf m } } (sub - 1) (fun x => { x with pinArmed := true })
      rewritePort s (sub - 1) (decide (v ≠ 0) && decide ((portOf s (sub - 1)).rate ≠ v - 1))
    | 0x2A02 =>
      let s := odSet s idx sub v
      { s with power := { s.power with capRecHost := true } }
    | _ => odSet s idx sub v

/-- What follows once every member of a write has its value. -/
def afterWrite (s : State) (idx : Nat) : State :=
  if 0x2940 ≤ idx ∧ idx ≤ 0x294F then
    (if windowField s (idx - 0x2940) 1 = 3 then ringInit s (idx - 0x2940) else s)
  else match idx with
    | 0x2002 => if sourceEnabled s s.bell.followed then s else fallBack s
    | 0x2210 => checkDivergence s
    | 0x2211 => checkDivergence s
    | 0x2213 => checkDivergence s
    | 0x2920 =>
      if (List.range 255).any (fun i => odVal s 0x2920 (i + 1) ≠ 0) then s
      else { s with streams := { s.streams with handRows := [] } }
    | 0x2A02 => checkCaps s
    | 0x2A10 => if targetState s < s.power.inForce ∨ (s.power.transition && decide (targetState s < s.power.target)) then wakeEvent s 4 else s
    | 0x2A11 => if targetState s < s.power.inForce ∨ (s.power.transition && decide (targetState s < s.power.target)) then wakeEvent s 4 else s
    | _ => s

/-- A state request at its edge (R47), checked again: a request for the state the drive is in, or CONFIG while it drains towards
CONFIG, changes nothing; at most one transition is made at an edge (R46). None: it is refused. -/
def applyRequest (s : State) (m : Master) (v : Nat) : Option State :=
  let cause := match m with | .host => 2 | .sideband => 3
  if !requestAllowed s then none
  else
    let s' := odSet s 0x1011 0 v
    if v = 2 then
      if s.dev.state = .run then
        (if mayMove s then
          some (goTo { s' with dev := { s'.dev with drainForActivation := false, drainBell := s.bell.ticks } } .drain cause 0)
        else none)
      else some s'
    else if s.dev.state = .run then some s'
    else if mayMove s then some (goTo s' .run cause 0)
    else none

/-- Answer an accepted write that has met its edge; one whose queue a controller-level reset deleted has no answer (R41). -/
def answerApplied (s : State) (a : Accepted) (x : OdAnswer) : State := if a.mute then s else answerOd s a.via false true x

/-- Apply one accepted write and answer it (R41). A reset that began at this edge discards the writes after it. -/
def applyAccepted (s : State) (a : Accepted) : State :=
  if s.dev.state = .boot || stopped s then s
  else if a.idx = 0x1011 then
    match applyRequest s a.via.master ((a.values.head?.map (fun p => p.2)).getD 0) with
    | none => answerApplied s a ⟨5, a.ty, 0, a.len, []⟩
    | some s => answerApplied s a ⟨0, a.ty, a.len, a.len, []⟩
  else
    let s := a.values.foldl (fun s p => applyMember a.via.master s a.idx p.1 p.2) s
    answerApplied (afterWrite s a.idx) a ⟨0, a.ty, a.len, a.len, []⟩

/-- Apply the writes that are due, in service order (R43). -/
def applyWrites (s : State) : State :=
  let due := s.steward.accepted.filter (dueWrite s)
  due.foldl applyAccepted { s with steward := { s.steward with accepted := s.steward.accepted.filter (fun a => !dueWrite s a) } }

end Sys2Proof.Machine
end

