-- ==== Sys2Proof/Machine/Power.lean ====
section
/-!
DEFINITION. The power ladder (chapter 14): preparation, entry, exit, media care, sensors and rear 12 V.
-/

namespace Sys2Proof.Machine

open Host (Outcome)

/-! ## Preparation and entry -/

/-- Is an index slot, a stream, a program, a range set, a LONG_HAUL port or a hand-off handle in the way of PS4 (Table 14.3). -/
def slmInUse (s : State) : Bool :=
  s.compute.programs.any (fun p => p.2.state ≠ 0) || s.streams.table ≠ [] || s.sifters.slots ≠ [] || s.compute.rangeSets ≠ []
    || (s.ident.meshed && (List.range 10).any (fun p => odVal s 0x2910 (p + 1) = 2))
    || (List.range 255).any (fun i => odVal s 0x2920 (i + 1) ≠ 0)

/-- The membership that a state needs (Table 14.3). -/
def memberAllows (s : State) (t : Nat) : Bool :=
  if t ≤ 1 then true
  else if t = 3 then s.fabric.member = .solo || (s.fabric.member = .paused && servedEntries s = [])
  else s.fabric.member = .solo

/-- Every condition of Table 14.3 for power state `t`. -/
def entryReady (s : State) (t : Nat) : Bool :=
  let es := s.tally.entries
  es.all (fun p => p.2.origin.kind = .internal && p.2.state = .held)
    && s.flash.dies.all (fun d => (d.2.st = .idle || d.2.st = .suspended) && d.2.pending.isNone)
    && s.compute.cores.all (fun c => c.2.gangs = []) && s.compute.invs = []
    && memberAllows s t
    && (decide (t < 3) || s.streams.table.all (fun p => p.2.store = none))
    && (decide (t < 4) || (es = [] && s.ledger.bands.all (fun b => b.2.st ≠ .open) && s.ledger.dirty = [] && s.ledger.journal = []
          && !slmInUse s && odVal s 0x2A11 0 = 1))

/-- Park every open band (R144): its word-line group is filled first. -/
def parkBands (s : State) : State :=
  (s.ledger.bands.filter (fun p => p.2.st = .open && p.2.fillTo.isNone)).foldl (fun s p => count (padBand s p.1 .parked) 0x6005 0 1) s

/-- Write every resident stream home (R248, R252). -/
def streamsHome (s : State) : State :=
  (s.streams.table.filter (fun p => p.2.store.isSome && !holdsChunk p.2)).foldl (fun s p =>
    count (streamPut s p.1 (spill p.2)) 0x600D 2 1) s

/-- INTERNAL entries that have not started are HELD (Table 14.3). -/
def holdInternal (s : State) : State :=
  { s with tally := { s.tally with entries := s.tally.entries.map (fun p =>
      if p.2.origin.kind = .internal ∧ (p.2.state = .admitted ∨ p.2.state = .planned) then (p.1, { p.2 with state := .held }) else p) } }

/-- INTERNAL entries resume in PS0. -/
def resumeInternal (s : State) : State :=
  { s with tally := { s.tally with entries := s.tally.entries.map (fun p =>
      if p.2.origin.kind = .internal ∧ p.2.state = .held then (p.1, { p.2 with state := .admitted }) else p) } }

/-- The work of a preparation at a chime boundary (R338): INTERNAL entries held on the way to PS1 to PS3, streams written home on
the way to PS3 and deeper, bands parked on the way to PS4 and PS5. Checkpoints are work of their own. -/
def prepare (s : State) : State :=
  if !s.power.preparing then s
  else
    let t := s.power.target
    let s := if t ≤ 3 then holdInternal s else s
    let s := if 3 ≤ t then streamsHome s else s
    if 4 ≤ t then parkBands s else s

/-- Choose the target at a bell edge (R337): a drive whose target lies deeper than the state in force prepares for it, and a member
pauses on the way to PS3 and deeper (R304). A media care wake holds the drive in PS0 (R341). -/
def chooseTarget (s : State) : State :=
  if powerHeld s || s.power.transition || s.power.waking then s
  else
    let t := if s.power.care then 0 else targetState s
    let go := decide (s.power.inForce < t)
    let s := { s with power := { s.power with target := t, preparing := go } }
    if go && decide (3 ≤ t) then pauseMember s 0 false
    else resumeMember (if go || s.power.inForce ≠ 0 || s.dev.state = .paused then s else resumeInternal s)

/-- POWER_STATE_ENTRY (R338): at an edge at which every condition of Table 14.3 holds the transition begins. -/
def execPowerStateEntry (s : State) : Outcome State Fault Refusal :=
  if powerHeld s || !atEdge s || !s.power.preparing || s.power.transition || s.power.waking || !entryReady s s.power.target then .next s
  else .next { s with power := { s.power with preparing := false, transition := true } }

/-- What a state loses as it comes into force (Table 14.2): the ports go dormant from PS2 down, and the keeper loses the guild source;
the loft goes from PS3, DRAM from PS4, the peer table with it. -/
def loseBelow (s : State) (t : Nat) : State :=
  let s := if 2 ≤ t then loseGuild (portsDown s) else s
  let s := if 3 ≤ t then { s with compute := { s.compute with cores := [], looms := [] } } else s
  if 4 ≤ t then
    { s with
      compute := { s.compute with slm := [], cache := [], programs := [] }
      fabric := { s.fabric with peers := [] }
      power := { s.power with mapResident := 0 } }
  else s

/-- POWER_STATE_ENTRY_COMPLETE (R335, R337, R338): the entry latency has run out, and the target is in force. -/
def execPowerStateEntryComplete (s : State) : Outcome State Fault Refusal :=
  if powerHeld s || !s.power.transition || s.power.waking then .next s
  else
    let t := s.power.target
    let s := { s with power := { s.power with transition := false, inForce := t } }
    .next (count (loseBelow s t) 0x6011 (t + 1) 1)

/-- PS0_REACHED (R339, R340): the exit latency has run out. INTERNAL entries resume, the ports train again, and a member with no
other reason to be PAUSED is ACTIVE again. The APST idle time counts again (R339). An exit from PS5 is a start (R353), which sets the write credit to its cap (R147) and the warden's counts to 0. -/
def execPs0Reached (s : State) : Outcome State Fault Refusal :=
  if powerHeld s || !s.power.waking then .next s
  else
    let was := s.power.inForce
    let s := { s with power := { s.power with
      waking := false, transition := false, preparing := false, inForce := 0, target := 0, idleUs := 0, idleFresh := true } }
    let s := if was = 0 then s else count s 0x6011 1 1
    let s := if 2 ≤ was then (List.range 10).foldl settlePort s else s
    let s := if was = 5 then { s with ledger := { s.ledger with groups := [] }, keys := s.keys.started } else s
    .next (resumeMember (resumeInternal s))

/-- APST_IDLE_EXPIRY (R337): the idle time of the entry for the state in force has run out, and the state it names is asked for. -/
def execApstIdleExpiry (s : State) : Outcome State Fault Refusal :=
  match s.power.apstTable[s.power.inForce]? with
  | none => .next s
  | some (ms, ps) =>
    if powerHeld s || !s.power.apst || s.power.waking || ms = 0 || ps = 0 || decide (s.power.idleUs < 1000 * ms) then .next s
    else .next { s with power := { s.power with apstPs := ps } }

/-- MEDIA_CARE_WAKE (R341): with `hoursLeft` to the scrub period of the band nearest to it. In PS2 to PS5 the drive wakes within 24
hours of it, or at it with a record while NOPPME is disabled; in PS0 care ends once no band is within 48 hours. -/
def execMediaCareWake (hoursLeft : Nat) (s : State) : Outcome State Fault Refusal :=
  if powerHeld s then .next s
  else if s.power.inForce < 2 then
    (if s.power.inForce = 0 && decide (48 < hoursLeft) then .next { s with power := { s.power with care := false } } else .next s)
  else if s.power.waking then .next s
  else if s.power.noppme then
    (if hoursLeft ≤ 24 then .next (wakeEvent { s with power := { s.power with care := true } } 5) else .next s)
  else if hoursLeft = 0 then
    let s := raiseRecord s { Record.of 0x0E01 with winner := 5, loser := 1, a := s.power.target }
    .next (wakeEvent { s with power := { s.power with care := true } } 5)
  else .next s

/-! ## Temperature -/

/-- Throttle start of a sensor in °C (Table 14.4). -/
def throttleStart (i : Nat) : Int := if i < 4 then 100 else if i < 12 then 75 else 85

/-- The sensor furthest above its throttle start, with that distance; the lower one on a tie. -/
def hottest (readings : List Int) : Nat × Int :=
  (readings.zipIdx.map (fun p => (p.2, p.1 - throttleStart p.2))).foldl
    (fun (a b : Nat × Int) => if a.2 < b.2 then b else a) (0, readings.headD 0 - throttleStart 0)

/-- The thermal limit in 0.1 W at a composite temperature (R346). -/
def thermalLimitAt (supply : Nat) (c : Int) : Nat :=
  if c ≤ 90 then supply
  else if c < 100 then ((10 * (supply : Int) - ((supply : Int) - 200) * (c - 90)) / 10).toNat
  else 200

/-- THERMAL_EVALUATION (R345 to R348): at an edge whose count is a multiple of 25. The over-temperature threshold of feature 0x04 is
WCTEMP, 90 °C. `drawn` is the mean power of the last 25 bells. -/
def execThermalEvaluation (readings : List Int) (drawn : Nat) (s : State) : Outcome State Fault Refusal :=
  if stopped s || !atEdge s || s.bell.count % 25 ≠ 0 then .next s
  else
    let h := hottest readings
    let c := 90 + h.2
    let enter := !s.power.hold && decide (100 ≤ c)
    let hold := if s.power.hold then decide (95 < c) else decide (100 ≤ c)
    let s := if 90 ≤ c then warnHost s 1 1 else { s with host := { s.host with warning := clearBit s.host.warning 1 } }
    let s := { s with
      power := { s.power with sensors := readings, composite := c, thermalLimit := thermalLimitAt (supplyLimit s) c, hold := hold,
                              drawn := drawn } }
    let s := if enter then raiseRecord s { Record.of 0x0E03 with a := h.1 + 1 } else s
    .next (checkCaps s)

/-! ## Rear 12 V -/

/-- REAR_12V_LOST (R349): rear 12 V is sensed at the bell edges. -/
def execRear12vLost (s : State) : Outcome State Fault Refusal :=
  if !s.ident.meshed || !s.power.rearWas || stopped s || !atEdge s then .next s
  else
    let s := { s with power := { s.power with rear12 := false, rearWas := false, rearBells := 0 } }
    .next (checkCaps (raiseRecord s (Record.of 0x0E04)))

/-- REAR_12V_RETURN (R349): rear 12 V is sensed again; once it has been present for 25,000 bells the 130 W limit applies. -/
def execRear12vReturn (s : State) : Outcome State Fault Refusal :=
  if !s.ident.meshed || stopped s || !atEdge s then .next s
  else if !s.power.rearWas then .next { s with power := { s.power with rearWas := true, rearBells := 0 } }
  else if 25000 ≤ s.power.rearBells then .next { s with power := { s.power with rear12 := true } }
  else .next s

end Sys2Proof.Machine
end

