-- ==== Sys2Proof/Machine/HostAdmin.lean ====
section
/-!
DEFINITION. Admin commands of the host (chapter 4): Abort, Identify, the features, asynchronous event requests, queue creation and
deletion, Queue Thaw, Unit Reset, Snapshot Fetch. Byte layouts that the spec leaves to NVMe Base 2.1 are PRESUMED from it; every
byte of them that the spec does not determine is a free value.
-/

namespace Sys2Proof.Machine

open Host (Outcome)

/-! ## Abort -/

/-- ABORT (R89): a target whose HOST entry is ADMITTED or PLANNED completes with Command Abort Requested; otherwise DW0 [0] is 1. -/
def execAbort (h : HostId) (targetSq targetCid : Nat) (s : State) : Outcome State Fault Refusal :=
  .next (serveAdmin s h true (fun s i =>
    match findHost s targetSq targetCid with
    | none => finish s i .success 1 0
    | some t =>
      if t ≠ i && ((entryAt s t).map (fun e => e.state = .admitted || e.state = .planned)).getD false then
        finish (finish s t .abortRequested 0 0) i .success 0 0
      else finish s i .success 1 0))

/-! ## Identify -/

/-- Put fields into a page, by byte offset. -/
def patchAll (bs : Bytes) (fields : List (Nat × Bytes)) : Bytes := fields.foldl (fun b f => patch b f.1 f.2) bs

/-- Decimal digits of a number below 100,000 as text. -/
def decimalText (n : Nat) : Bytes :=
  let ds := [n / 10000 % 10, n / 1000 % 10, n / 100 % 10, n / 10 % 10]
  (ds.dropWhile (· = 0)).map (· + 48) ++ [n % 10 + 48]

/-- A firmware revision string (R370): "7.2." and the patch number, padded with spaces to 8 bytes; an empty slot reads 0. -/
def revisionText (version : Nat) : Bytes :=
  if version = 0 then List.replicate 8 0
  else
    let t := [0x37, 0x2E, 0x32, 0x2E] ++ decimalText (version % 65536)
    (t ++ List.replicate (8 - t.length) 0x20).take 8

/-- Power state descriptors (Table 4.18): maximum power, MXPS and NOPS, entry and exit latency. -/
def powerDescriptor (s : State) (k : Nat) : List (Nat × Bytes) :=
  let big := s.ident.meshed && s.power.rear12
  let mp := [if big then 13000 else 7000, if big then 1300 else 700, 130, 1300, 130, 13].getD k 0
  let lat := [0, 40, 400, 4000, 40000, 400000].getD k 0
  [(2048 + 32 * k, leBytes 2 mp), (2048 + 32 * k + 3, [(if 3 ≤ k then 1 else 0) + (if 1 ≤ k then 2 else 0)]),
   (2048 + 32 * k + 4, leBytes 4 lat), (2048 + 32 * k + 8, leBytes 4 lat)]

/-- What the spec fixes of the Identify Controller page (Tables 4.3, 4.4, 4.18, R345, R370). -/
def controllerFields (s : State) : List (Nat × Bytes) :=
  [(4, leBytes 20 s.ident.serialNo), (64, revisionText (fwVersion s)), (77, [9]), (258, [3, 7, 0x14]), (263, [5]), (265, [1]),
   (266, leBytes 2 363), (268, leBytes 2 373), (270, leBytes 2 2), (319, [1]), (516, leBytes 4 65), (522, leBytes 2 0)]
    ++ (List.range 6).flatMap (powerDescriptor s)

/-- The two LBA formats of every namespace, with their Relative Performance (R133): 4 KiB with 2, 16 KiB with 0. -/
def lbaFormats : List (Nat × Bytes) := [(25, [1]), (128, [0, 0, 12, 2]), (132, [0, 0, 14, 0])]

/-- What the spec fixes of the Identify Namespace page (R133, R138, Table 4.3): the preferred write granularity and alignment are
16 KiB, as 0's based numbers of LBAs. -/
def namespaceFields (ns : Namespace) : List (Nat × Bytes) :=
  let npw := leBytes 2 (if ns.lbaf = 0 then 3 else 0)
  [(0, leBytes 8 ns.nsze), (8, leBytes 8 ns.nsze), (26, [ns.lbaf, 0, 0, 0]), (64, npw ++ npw)] ++ lbaFormats

/-- A page of which the spec fixes some fields: the other bytes are free values. -/
def freePage (s : State) (n : Nat) (fields : List (Nat × Bytes)) : Bytes × State :=
  let d := drawBytes s n
  (patchAll d.1 fields, d.2)

/-- An Identify Namespace page: DLFEAT [2:0] is 000 (R157) and NSFEAT bit 4 says that the preferred granularity is given; their other
bits are free values. -/
def namespacePage (s : State) (fields : List (Nat × Bytes)) : Bytes × State :=
  let d := drawBytes s 4096
  (patchAll d.1 (fields ++ [(24, [d.1.getD 24 0 ||| 16]), (33, [d.1.getD 33 0 / 8 * 8])]), d.2)

/-- Answer a read of a page: the data goes to the host and the command completes. -/
def answerPage (s : State) (i : Nat) (data : Bytes) : State :=
  finishData s i .success 0 0 data false

/-- Controller or Namespace Structures of Identify that every NVMe Base 2.1 controller with namespace management has. -/
def identifyKnown (cns : Nat) : Bool := [0x00, 0x01, 0x02, 0x03, 0x05, 0x06, 0x07, 0x08, 0x10, 0x11, 0x12, 0x13, 0x1C].contains cns

/-- IDENTIFY (R88, R111): the namespace of NSID, the controller, the active namespaces above NSID, or another structure. -/
def execIdentify (h : HostId) (cns : Nat) (s : State) : Outcome State Fault Refusal :=
  .next (serveAdmin s h true (fun s i =>
    if !identifyKnown cns then finish s i .invalidField 0 0
    else if cns = 0 then
      match nsOf s h.nsid with
      | some ns => let p := namespacePage s (namespaceFields ns); answerPage p.2 i p.1
      | none =>
        if h.nsid = 0 ∨ (64 < h.nsid ∧ h.nsid ≠ 0xFFFFFFFF) then finish s i .invalidNamespace 0 0
        else if h.nsid = 0xFFFFFFFF then let p := namespacePage s lbaFormats; answerPage p.2 i p.1
        else answerPage s i (List.replicate 4096 0)
    else if cns = 1 then let p := freePage s 4096 (controllerFields s); answerPage p.2 i p.1
    else if cns = 2 then
      let l := (s.ledger.nss.filter (fun p => decide (h.nsid < p.1))).flatMap (fun p => leBytes 4 p.1)
      answerPage s i (slice l 0 4096)
    else let p := freePage s 4096 []; answerPage p.2 i p.1))

/-! ## Features -/

/-- The arbitration burst field of feature 0x01: 7 for no limit (OD 0x2103.02). -/
def burstField (n : Nat) : Nat := ((List.range 7).find? (fun k => decide (2 ^ k = n))).getD 7

/-- The APST table as feature 0x0C holds it: 32 entries with ITPS [7:3] and ITPT [31:8]. -/
def apstBytes (t : List (Nat × Nat)) : Bytes :=
  (List.range 32).flatMap (fun k => let e := t.getD k (0, 0); leBytes 8 (e.2 * 8 + e.1 * 256))

/-- GET_FEATURES (R88, R337): the features that the spec names. Power Management returns what the host set, whatever the state in
force. -/
def execGetFeatures (h : HostId) (fid : Nat) (s : State) : Outcome State Fault Refusal :=
  .next (serveAdmin s h true (fun s i =>
    match fid with
    | 0x01 => finish s i .success (burstField s.host.burst + (s.host.wLow - 1) * 2 ^ 8 + (s.host.wMed - 1) * 2 ^ 16
                + (s.host.wHigh - 1) * 2 ^ 24) 0
    | 0x02 => finish s i .success (s.power.hostPs + 32 * s.power.hostWh) 0
    | 0x04 => finish s i .success 363 0
    | 0x07 => finish s i .success (127 + 127 * 2 ^ 16) 0
    | 0x0C => finishData s i .success (if s.power.apst then 1 else 0) 0 (apstBytes s.power.apstTable) false
    | 0x11 => finish s i .success (if s.power.noppme then 1 else 0) 0
    | 0x1D => finish s i .success (if s.ledger.fdp then 1 else 0) 0
    | _ => finish s i .invalidField 0 0))

/-- SET_FEATURES_POWER_MANAGEMENT (R337): the state becomes the host's request. -/
def execSetFeaturesPowerManagement (h : HostId) (ps wh : Nat) (s : State) : Outcome State Fault Refusal :=
  .next (serveAdmin s h false (fun s i =>
    if 5 < ps then finish s i .invalidField 0 0
    else finish { s with power := { s.power with hostPs := ps, hostWh := wh % 8, request := ps } } i .success 0 0))

/-- SET_FEATURES_APST (R337): entry k gives, for power state k, the idle time in ms and the state to enter. -/
def execSetFeaturesApst (h : HostId) (enable : Bool) (table : List (Nat × Nat)) (s : State) : Outcome State Fault Refusal :=
  .next (serveAdmin s h false (fun s i =>
    if 32 < table.length || table.any (fun e => decide (5 < e.2) || decide (2 ^ 24 ≤ e.1)) then finish s i .invalidField 0 0
    else finish { s with power := { s.power with apst := enable, apstTable := table, apstPs := 0 } } i .success 0 0))

/-- SET_FEATURES_NOPPME (R341). -/
def execSetFeaturesNoppme (h : HostId) (enable : Bool) (s : State) : Outcome State Fault Refusal :=
  .next (serveAdmin s h false (fun s i => finish { s with power := { s.power with noppme := enable } } i .success 0 0))

/-- SET_FEATURES_ARBITRATION (R92): the operands are the raw fields, burst as a power of two with 7 for no limit, weights one below
their value. -/
def execSetFeaturesArbitration (h : HostId) (burst low medium high : Nat) (s : State) : Outcome State Fault Refusal :=
  .next (serveAdmin s h false (fun s i =>
    let b := burst % 8
    finish { s with host := { s.host with burst := if b = 7 then 0 else 2 ^ b, wLow := low % 256 + 1, wMed := medium % 256 + 1,
                                          wHigh := high % 256 + 1 } } i .success 0 0))

/-- SET_FEATURES_FDP (R141): NVMe Base 2.1 lets it change only while no namespace exists. -/
def execSetFeaturesFdp (h : HostId) (enable : Bool) (s : State) : Outcome State Fault Refusal :=
  .next (serveAdmin s h false (fun s i =>
    if s.ledger.nss ≠ [] ∧ s.ledger.fdp ≠ enable then finish s i .commandSequenceError 0 0
    else finish { s with ledger := { s.ledger with fdp := enable } } i .success 0 0))

/-! ## Asynchronous events -/

/-- ASYNCHRONOUS_EVENT_REQUEST (R106, Table 4.3): the request stays outstanding apart from the tally until an event completes it. -/
def execAsynchronousEventRequest (h : HostId) (s : State) : Outcome State Fault Refusal :=
  .next (serveAdmin s h true (fun s i =>
    if 8 ≤ s.host.aers.length then finish s i .asyncLimit 0 0
    else
      let s := freeFamily s i
      { s with host := { s.host with aers := s.host.aers ++ [h.cid] } }))

/-! ## Queues -/

/-- A new submission queue. -/
def Sq.fresh (size prio cq : Nat) : Sq := ⟨size, 0, 0, prio, cq, [], .opened, 0, none, [], false, none⟩

/-- A new completion queue. -/
def Cq.fresh (size vector : Nat) (ien : Bool) : Cq := ⟨size, vector, ien, 0, 0⟩

/-- Is a number that of an I/O queue (Table 4.3). -/
def ioQueue (q : Nat) : Bool := decide (1 ≤ q) && decide (q ≤ 128)

/-- Is a size one of an I/O queue (Table 4.3). -/
def ioQueueSize (n : Nat) : Bool := decide (2 ≤ n) && decide (n ≤ 65536)

/-- CREATE_IO_SQ (R92, Table 4.3). -/
def execCreateIoSq (h : HostId) (qid size prio cqid : Nat) (contiguous : Bool) (s : State) : Outcome State Fault Refusal :=
  .next (serveAdmin s h false (fun s i =>
    if !ioQueue qid || (tget s.host.sqs qid).isSome || !ioQueue cqid then finish s i .invalidQueueId 0 0
    else if (tget s.host.cqs cqid).isNone then finish s i .completionQueueInvalid 0 0
    else if !ioQueueSize size then finish s i .invalidQueueSize 0 0
    else if !contiguous || decide (3 < prio) then finish s i .invalidField 0 0
    else finish { s with host := { s.host with sqs := tput s.host.sqs qid (Sq.fresh size prio cqid) } } i .success 0 0))

/-- CREATE_IO_CQ (Table 4.3). -/
def execCreateIoCq (h : HostId) (qid size vector : Nat) (ien contiguous : Bool) (s : State) : Outcome State Fault Refusal :=
  .next (serveAdmin s h false (fun s i =>
    if !ioQueue qid || (tget s.host.cqs qid).isSome then finish s i .invalidQueueId 0 0
    else if !ioQueueSize size then finish s i .invalidQueueSize 0 0
    else if 128 < vector then finish s i .invalidVector 0 0
    else if !contiguous then finish s i .invalidField 0 0
    else finish { s with host := { s.host with cqs := tput s.host.cqs qid (Cq.fresh size vector ien) } } i .success 0 0))

/-- A Queue Thaw that waits for a queue that goes away fails (R104). -/
def failThaw (s : State) (t : Thaw) : State :=
  match findHost s 0 t.cid with
  | some i => finish s i .commandSequenceError 0 0
  | none => s

/-- A command that goes with its queue: it completes as aborted by the deletion. -/
def abortDeleted (sq : Nat) (s : State) (c : Nat × Nat × Option Nat) : State :=
  match c.2.2 with
  | some i => finish s i .sqDeleted 0 0
  | none => queuePosting (unwait s sq c.2.1) ⟨sq, c.2.1, noEntry, .sqDeleted, 0, 0, [], false⟩

/-- DELETE_IO_SQ (R105): commands not dispatched are aborted with the queue and never judged; the Delete completes when the
dispatched ones have. -/
def execDeleteIoSq (h : HostId) (qid : Nat) (s : State) : Outcome State Fault Refusal :=
  .next (serveAdmin s h false (fun s i =>
    match if qid = 0 then none else tget s.host.sqs qid with
    | none => finish s i .invalidQueueId 0 0
    | some q =>
      if q.deleting.isSome then finish s i .invalidQueueId 0 0
      else
        let s := q.thaws.foldl failThaw s
        let s := sqMod s qid (fun q => { q with freeze := .opened, log := none, thaws := [], slots := [], deleting := some h.cid })
        let s := (undispatchedOf s qid).foldl (abortDeleted qid) s
        closeDeleted (setState s i .waiting) (qid, h.cid)))

/-- DELETE_IO_CQ: a queue that a submission queue is bound to stays. -/
def execDeleteIoCq (h : HostId) (qid : Nat) (s : State) : Outcome State Fault Refusal :=
  .next (serveAdmin s h false (fun s i =>
    if qid = 0 ∨ (tget s.host.cqs qid).isNone then finish s i .invalidQueueId 0 0
    else if s.host.sqs.any (fun p => p.1 ≠ 0 && p.2.cq = qid) then finish s i .invalidQueueDeletion 0 0
    else finish { s with host := { s.host with cqs := tdel s.host.cqs qid } } i .success 0 0))

/-! ## Freezes and thaws -/

/-- QUEUE_THAW (R104, Table 4.9): accepted for a DRAINING or QUIET queue with its current serial; it waits for the boundary that
opens the queue. -/
def execQueueThaw (h : HostId) (serial sqid : Nat) (discard : Bool) (s : State) : Outcome State Fault Refusal :=
  .next (serveVendorAdmin s h false (fun s i =>
    match if sqid = 0 then none else tget s.host.sqs sqid with
    | none => finish s i .commandSequenceError 0 0
    | some q =>
      if q.freeze = .opened ∨ q.serial ≠ serial then finish s i .commandSequenceError 0 0
      else setState (sqMod s sqid (fun q => { q with thaws := q.thaws ++ [⟨sqid, h.cid, discard⟩] })) i .waiting))

/-- QUEUE_QUIET (R103): the last dispatched command of a draining queue has completed. -/
def execQueueQuiet (sq : Nat) (s : State) : Outcome State Fault Refusal :=
  match tget s.host.sqs sq with
  | none => .next s
  | some q =>
    if stopped s || q.freeze ≠ .draining || dispatchedOf s sq ≠ 0 then .next s else .next (enterQuiet s sq)

/-- The head of a submission queue moves past its oldest command. -/
def popSlot (s : State) (sq : Nat) : State :=
  count (sqMod s sq (fun q => { q with slots := q.slots.tail, head := (q.head + 1) % q.size })) 0x61E8 4 1

/-- A command that a Thaw discards is fetched and completed without being executed (R104). -/
def discardOne (sq : Nat) (s : State) (c : SqCmd) : State :=
  count (postOnly (popSlot s sq) sq c.cid .queueFrozenAbort 0 0) 0x600B 0 1

/-- One accepted Thaw of a queue (R104): the commands discarded stand in DW0. -/
def serveThaw (sq : Nat) (s : State) (t : Thaw) : State :=
  let cmds := if t.discard then ((tget s.host.sqs sq).map (fun q => q.slots)).getD [] else []
  let s := cmds.foldl (discardOne sq) s
  match findHost s 0 t.cid with
  | some i => finish s i .success cmds.length 0
  | none => s

/-- Open a QUIET queue that a Thaw waits for (R104). Fetching resumes at the next chime boundary. -/
def openQueue (s : State) (sq : Nat) : State :=
  match tget s.host.sqs sq with
  | none => s
  | some q =>
    if stopped s || s.dev.state = .paused || q.freeze ≠ .quiet || q.thaws = [] then s
    else q.thaws.foldl (serveThaw sq) (sqMod s sq (fun q => { q with freeze := .opened, justOpened := true, thaws := [] }))

/-- QUEUE_REOPEN (R104). -/
def execQueueReopen (sq : Nat) (s : State) : Outcome State Fault Refusal := .next (openQueue s sq)

/-! ## Unit Reset -/

/-- Units that a Unit Reset accepts (R100). -/
def unitResettable (s : State) (u : Nat) : Bool :=
  unitPresent s u && ((decide (1 ≤ u) && decide (u ≤ 6)) || (decide (8 ≤ u) && decide (u ≤ 231)) || (decide (233 ≤ u) && decide (u ≤ 243)))

/-- UNIT_RESET (R100, R361 to R364): one that meets a reset in progress joins it. -/
def execUnitReset (h : HostId) (unit serial : Nat) (s : State) : Outcome State Fault Refusal :=
  let act (s : State) (i : Nat) : State :=
    if !h.reservedOk || !unitResettable s unit then finish s i .invalidField 0 0
    else if !holdsPen s .host serial then finish s i .penHeld 0 0
    else
      let s := if (unitOf s unit).state = .reset then s else resetUnit s unit 1
      setState (unitMod s unit (fun x => { x with resetWaiters := x.resetWaiters ++ [(h.sq, h.cid)] })) i .waiting
  .next (serveQuietAdmin s h act)

/-- A Unit Reset that waited completes with the epochs before and after (Table 4.10). -/
def endUnitReset (dw0 : Nat) (s : State) (w : Nat × Nat) : State :=
  match findHost s w.1 w.2 with
  | some i => finish s i .success dw0 0
  | none => s

/-- UNIT_IDLE (R361, R100): the reset time of Table 15.4 has run out. -/
def execUnitIdle (unit : Nat) (s : State) : Outcome State Fault Refusal :=
  let u := unitOf s unit
  if stopped s || u.state ≠ .reset then .next s
  else
    let s := unitMod s unit (fun x => { x with state := .idle, resetWaiters := [] })
    .next (u.resetWaiters.foldl (endUnitReset (256 * u.epochBefore + u.epoch)) s)

/-! ## Snapshot Fetch -/

/-- SNAPSHOT_FETCH (R396, Table 16.12): the fields first, then whether a snapshot is stored, then the range. -/
def execSnapshotFetch (h : HostId) (off len : Nat) (s : State) : Outcome State Fault Refusal :=
  .next (serveVendorAdmin s h true (fun s i =>
    if len % 4 ≠ 0 ∨ len < 4 ∨ 2097152 < len then finish s i .invalidField 0 0
    else match s.freeze.stored with
      | none => finish s i .commandSequenceError 0 0
      | some c =>
        if snapLength < off + len then finish s i .invalidField 0 0
        else finishData s i .success snapLength (c.bell % 2 ^ 32) (snapRead c off len) false))

/-! ## Deadlines, children, replies -/

/-- The QUEUED tickets of the kernel of entry `index` end FAILED_DEADLINE (R206). -/
def missTickets (s : State) (index : Nat) : State :=
  ((s.compute.invs.filter (fun v => v.2.entry = index)).flatMap (fun v => v.2.tickets.map (fun t => (v.1, t.number)))).foldl
    (fun s x => endTicket s x.1 x.2 3) s

/-- DEADLINE_EDGE (R99, R206, R265): a command that has not completed at the bell edge ADMIT + DEADLINE completes with Deadline Missed,
and the next chime boundary stops its work; until then its gangs see its tickets FAILED_DEADLINE. A HELD command waits for the end of the
pause. A search completes with what it has, with the status of R265, where its finalise bell fell in the pause. -/
def execDeadlineEdge (index : Nat) (s : State) : Outcome State Fault Refusal :=
  match entryAt s index with
  | none => .next s
  | some e =>
    if stopped s || !atEdge s || s.dev.state = .paused || e.origin.kind ≠ .host || e.state = .replying || e.deadline = 0 ||
        decide (s.bell.count < e.admitBell + e.deadline) then
      .next s
    else match searchOf s index with
      | some _ => .next (completeSearch (finaliseSearch s index 0) index)
      | none => .next (finishStopping (missTickets s index) index .deadlineMissed 0 0 [])

/-- CHILD_WAIT_LIMIT (R23): the waiting request number `tag` has been refused at 8 chime boundaries of each of OD 0x2046 bells; its
parent completes with Tally Full. -/
def execChildWaitLimit (tag : Nat) (s : State) : Outcome State Fault Refusal :=
  match s.tally.waiting[tag]? with
  | none => .next s
  | some r => match r.parent with
    | none => .next s
    | some p =>
      if stopped s || decide (r.refusals < 8 * odVal s 0x2046 0) then .next s
      else .next (count (failRequest s p .tallyFull 0) 0x600A 0 1)

/-- UNIT_REPLY (R31): a reply under another epoch than the unit's is discarded and counted; else it is applied to the entry that
the unit serves: a failure ends the request; with a result a child is REPLYING to its parent. -/
def execUnitReply (unit epoch index : Nat) (status : Status) (s : State) : Outcome State Fault Refusal :=
  if stopped s || decide (245 < unit) then .next s
  else if epoch ≠ (unitOf s unit).epoch then .next (count s (0x6100 + unit) 2 1)
  else match entryAt s index with
    | none => .next s
    | some e =>
      if e.unit ≠ unit || e.epoch ≠ epoch || e.state ≠ .running then .next s
      else if status = .success then .next (if e.origin.kind = .host then s else setState s index .replying)
      else .next (failRequest s index status 0)

end Sys2Proof.Machine
end

