-- ==== Sys2Proof/Machine/Ledger.lean ====
section
/-!
DEFINITION. The ledger's commands and jobs (chapter 6): reads and writes, completion, gathering, reclaim, wear levelling,
scrub, checkpoint, retirement, poisoning, and the namespace commands with what chapter 17 says of their keys.
-/

namespace Sys2Proof.Machine

/-! ## Reads and writes -/

/-- NVM_READ (R123, R139, R158, R162, R447): the lookups are made and the flash work of the command begins. It completes at the chime
boundary after the DMA of its data. The first LBA stands in the words CDW10 and CDW11 of the command. -/
def execNvmRead (h : HostId) (slbaLow slbaHigh nlb : Nat) (s : State) : Host.Outcome State Fault Refusal :=
  let slba := slbaLow + 2 ^ 32 * slbaHigh
  .next (serveIo s h (fun s i =>
    match rangeError s h.nsid slba nlb, nsOf s h.nsid with
    | some e, _ => finish s i e 0 0
    | none, none => s
    | none, some ns =>
      let units := unitsOf ns slba nlb
      if ledgerDown s (iusOf ns units) then finish s i .unitReset 0 0
      else readUnits (toLedger s i (iusOf ns units)) i .host h.nsid ns units))

/-- The data of a host read has come (R162, R447): the LBAs that hold a lost codeword are not transferred. -/
def hostReadDone (s : State) (j : ReadJob) : State :=
  let per := ((nsOf s j.nsid).map (fun ns => unitsPerLba ns.lbaf)).getD 1
  let bad := j.lost.map (fun k => j.units.getD k 0 / per)
  let data := (j.units.zipIdx.filter (fun x => !bad.contains (x.1 / per))).map (fun x => j.value x.2)
  finishData (dropRead s j) j.entry j.status 0 0 data (data ≠ [])

/-- NVM_WRITE (R134 to R137, R143, R147, R156): the write's IUs are staged against credit; it stays ADMITTED until all of
them are. Its completion is WRITE_COMPLETE. -/
def execNvmWrite (h : HostId) (slba nlb : Nat) (pid : Option Nat) (data : List Nat) (s : State) :
    Host.Outcome State Fault Refusal :=
  .next (meetIo s h (fun s i =>
    if s.ledger.writes.any (fun w => w.entry = i) then stageAll s else
    match rangeError s h.nsid slba nlb, nsOf s h.nsid with
    | some e, _ => finish s i e 0 0
    | none, none => s
    | none, some ns =>
      let units := unitsOf ns slba nlb
      if s.ledger.readOnly then finish s i .namespaceWriteProtected 0 0
      else if ledgerDown s (iusOf ns units) then finish s i .unitReset 0 0
      else if nlb = 0 then finish s i .success 0 0
      else startWrite (toLedger s i (iusOf ns units)) i h.nsid ns units data pid))

/-- WRITE_COMPLETE (R136): all word lines of the write ended DONE and the map shows the new locations. -/
def execWriteComplete (h : HostId) (s : State) : Host.Outcome State Fault Refusal :=
  if stopped s then .next s else
  match findHost s h.sq h.cid with
  | none => .next s
  | some i =>
    if !jobDone s i || s.streams.table.any (fun p => p.2.parks.any (fun k => k.entry = i)) then .next s
    else .next (finish (dropJob s i) i .success 0 0)

/-- FLUSH (R107, Table 4.17): completed writes are on flash already. -/
def execFlush (h : HostId) (s : State) : Host.Outcome State Fault Refusal :=
  .next (serveIo s h (fun s i =>
    if namedNs s h.nsid = [] ∧ h.nsid ≠ 0xFFFFFFFF then finish s i .invalidNamespace 0 0 else finish s i .success 0 0))

/-- The IUs of a namespace that a range covers wholly (R157). -/
def wholeIus (ns : Namespace) (r : Nat × Nat) : List Nat :=
  let us := unitsOf ns r.1 r.2
  (((us.map (fun u => u / 4)).dedup).filter (fun n => (List.range 4).all (fun k => us.contains (4 * n + k)))).map (nsIu ns)

/-- DATASET_MANAGEMENT (R156, R157): Deallocate acts on the IUs that a range covers wholly; every other attribute is
ignored. -/
def execDatasetManagement (h : HostId) (deallocate : Bool) (ranges : List (Nat × Nat)) (s : State) :
    Host.Outcome State Fault Refusal :=
  .next (serveIo s h (fun s i =>
    match nsOf s h.nsid with
    | none => finish s i .invalidNamespace 0 0
    | some ns =>
      if !deallocate then finish s i .success 0 0
      else if ranges.any (fun r => decide (ns.nsze < r.1 + r.2)) then finish s i .lbaOutOfRange 0 0
      else
        let ius := (ranges.flatMap (wholeIus ns)).filter (fun iu => mapAt s iu ≠ .empty)
        if s.ledger.readOnly && ius ≠ [] then finish s i .namespaceWriteProtected 0 0
        else finish (ius.foldl unmapIu s) i .success 0 0))

/-! ## Programs and erases -/

/-- PROGRAM_COMPLETE (R136, R148, R149, R152, R448): the pages are in the array and mapped, or the failed word line's IUs wait for another
band; the die is readable again, and its entry ends. -/
def execProgramComplete (die : Nat) (ok : Bool) (s : State) : Host.Outcome State Fault Refusal :=
  if !flashRuns s then .next s else
  match (dieOf s die).st, (dieOf s die).program with
  | .programming, some p =>
    let k := bandAt s die p.block
    let s := freeFamily s p.entry
    let s := taskEnds (dieMod s die (fun d => { d with st := .idle, program := none, endNs := nowNs s })) (channelUnit die)
    if ok then
      let ks := movedBands s die p
      let s := noteMoved (lineDone (landProgram s die p) k) ks
      .next (verbEnds (answerSealed (noteSlots s)) die 4 .done [])
    else .next (verbEnds (noteSlots (programFailed s die p)) die 4 .programFail [])
  | _, _ => .next s

/-- ERASE_COMPLETE (R153 to R156): the block is erased, or retired; the band returns to the free pool with its last block. -/
def execEraseComplete (die : Nat) (ok : Bool) (s : State) : Host.Outcome State Fault Refusal :=
  let d := dieOf s die
  if !flashRuns s || !(d.st = .erasing || d.st = .lockedErase) then .next s else
  match d.erase with
  | none => .next s
  | some e =>
    let s := endDieJob s 0x0A die
    let s := dieMod s die (fun d => { d with st := .idle, erase := none, suspendAsked := false, endNs := nowNs s })
    let s := if ok then s else verbFailed s (channelUnit die) 5 .eraseFail ⟨die, 0, e.block, 0, 0⟩
    let s := noteSlots (blockErased s die e.block ok)
    .next (verbEnds s die 5 (if ok then .done else .eraseFail) [])

/-- The ladders of a codeword that are exhausted (R123). -/
def failedAt (s : State) (a : FlashAddr) : List Ladder := s.flash.ladders.filter (fun l => l.addr = a && l.st = .failed)

/-- A reader meets DECODE_FAIL (R161): the codeword is lost to its jobs, and its ladder ends. -/
def readerFails (s : State) (l : Ladder) : State := endReader (loseCw (ladderDel s l.entry l.addr) l.entry l.addr) l.entry

/-- DECODE_FAIL (R161, R163): the ledger receives it from the channel engine `unit` for a codeword of one of its dies whose ladder is
exhausted. The codeword is poisoned where the map still
points at it, and with it those of its row whose own failure made the rebuild fail; one record names the row, warning bit 2 is set and
event 0x03 raised. The readers' requests complete with Unrecovered Read Error once the rest of their data has come. -/
def execDecodeFail (unit : Nat) (a : FlashAddr) (s : State) : Host.Outcome State Fault Refusal :=
  let ls := failedAt s a
  if !flashRuns s || unit ≠ channelUnit a.die || ls = [] then .next s else
  let others := (ls.flatMap (fun l => l.lost)).dedup
  let row := a :: (siblings s a).filter (fun b => others.contains (positionOf b.die))
  let p := poisonRow s row
  let s := p.2
  let s := if p.1 = [] then s else
    let first := p.1.headD (0, 0)
    let s := raiseRecord s (poisonRecord a p.1)
    let s := { warnHost s 2 0 with
      ledger := { s.ledger with poisonNsid := first.1, poisonLba := first.2, poisonBell := s.bell.count } }
    raiseEvent s 3
  .next (ls.foldl readerFails s)

/-! ## Gathering -/

/-- The pages of the next word line of a band at a position: staged IUs first, in their order, then filler; parity at the parity
position. -/
def gatherPages (s : State) (k pos : Nat) : List SourcePage :=
  if onParity s k pos then List.replicate 12 .parity
  else
    let order := sortBy (fun (a b : Staged) => decide (a.seq ≤ b.seq)) s.ledger.staged
    let die := dieAt (k / 2048) pos
    let ius := ((order.map (fun g => g.iu)).dedup).filter (fun iu => (eligible s die (dieBlock s k pos) iu).isSome)
    let ps := (ius.take 12).map SourcePage.staged
    ps ++ List.replicate (12 - ps.length) .filler

/-- May a word line of a band be programmed at a position now: it still has its part to program, and for data there is an IU, for parity
the row is complete. -/
def gatherReady (s : State) (k pos : Nat) (b : Band) : Bool :=
  b.st = .open && b.fillTo.isNone && !lineWritten s k pos &&
  (if onParity s k pos then parityDue s k pos else (gatherPages s k pos).any (fun p => p ≠ .filler))

/-- GATHER_TIMEOUT (R137): the program slot on a die has waited OD 0x2307 bells, and the word line is programmed with the IUs there are and
filler. -/
def execGatherTimeout (die : Nat) (s : State) : Host.Outcome State Fault Refusal :=
  if !flashRuns s || !dieOk s die then .next s else
  match tget s.ledger.gatherFrom die with
  | none => .next s
  | some since =>
    if s.bell.ticks < since + odVal s 0x2307 0 then .next s else
    match (openHostBands s).find? (fun p => p.1 / 2048 = stripeOf die && gatherReady s p.1 (positionOf die) p.2) with
    | none => .next s
    | some (k, b) => .next (gateProgram s die (dieBlock s k (positionOf die)) (currentLine b) false (gatherPages s k (positionOf die)))

/-! ## Jobs on bands -/

/-- The band that a job works on in a group: for reclaim (1) the victim of R148 at or below the background watermark (R146), for refresh (2)
a closed band that is to be refreshed, whatever the watermarks (R160), for wear levelling (4) a closed band that lags (R150). Read-only mode
leaves refresh alone (R156). -/
def careTarget (s : State) (g job : Nat) : Option Nat :=
  let idle (p : Nat × Band) : Bool := p.2.st = .closed && !s.ledger.care.any (fun c => c.band = p.1 && c.job ≠ 3)
  match job with
  | 1 => if decide (freeBands s g ≤ odVal s 0x2301 1) && !s.ledger.readOnly then
      ((victimOf s g).filter idle).map (fun p => p.1) else none
  | 2 => ((bandsOfRg s g).find? (fun p => idle p && p.2.refresh)).map (fun p => p.1)
  | 4 => if s.ledger.readOnly then none else ((bandsOfRg s g).find? (fun p => idle p && p.2.level)).map (fun p => p.1)
  | _ => none

/-- CLASS of a job on a band (R146, R150, R159, R160). -/
def careClass (s : State) (g job : Nat) : Nat := if job = 1 then reclaimClass s g else 3

/-- A job of the ledger takes up a band: its INTERNAL entry is asked for (R146). -/
def startCare (s : State) (job k : Nat) : State :=
  await { s with ledger := { s.ledger with care := s.ledger.care ++ [⟨job, none, k⟩] } }
    (jobReq job k (careClass s (rgOfBand s k) job) (1 + k % 4))

/-- A job of the ledger has its entry. -/
def adoptCare (s : State) (i job k : Nat) : State :=
  if s.ledger.care.any (fun c => c.job = job && c.band = k) then
    setState { s with ledger := { s.ledger with care := s.ledger.care.map (fun c =>
      if c.job = job && c.band = k then { c with entry := some i } else c) } } i .waiting
  else freeFamily s i

/-- The reclaim band of a group (R142); one that was parked opens again. -/
def reclaimBand (s : State) (g : Nat) : Option (Nat × Band) :=
  (bandsOfRg s g).find? (fun p => (p.2.st = .open || p.2.st = .parked) && p.2.handle.isNone)

/-- The valid IUs of a band with their locations. -/
def validIus (s : State) (k : Nat) : List (Nat × Nat) :=
  (s.ledger.map.filter (fun p => p.2.mapped && bandOfLoc s p.2.loc = k)).map (fun p => (p.1, p.2.loc))

/-- The valid IUs of a band that its job has not read yet. -/
def unreadIus (s : State) (k : Nat) : List Nat :=
  ((validIus s k).filter (fun p => !s.ledger.copies.any (fun c => c.iu = p.1 && c.loc = p.2))).map (fun p => p.1)

/-- Does a read still need a page of a band: no block of it is erased while one does (R135). -/
def bandRead (s : State) (k : Nat) : Bool :=
  s.flash.ladders.any (fun l => bandAt s l.addr.die l.addr.block = k) ||
  s.flash.jobs.any (fun j => j.wants.any (fun w => bandOfLoc s w.loc = k)) ||
  s.ledger.copies.any (fun c => bandOfLoc s c.loc = k && c.placed.isSome)

/-- Erase a band that holds no valid IU, die by die as they are IDLE (R148). -/
def eraseBand (s : State) (k : Nat) : State :=
  if bandRead s k then s
  else
    let b := bandOf s k
    let todo := if b.erasing = [] then List.range 16 else b.erasing
    let s := bandMod s k (fun b => { b with erasing := todo })
    let s := { s with ledger := { s.ledger with copies := s.ledger.copies.filter (fun c => bandOfLoc s c.loc ≠ k) } }
    todo.foldl (fun s p =>
      let d := dieAt (k / 2048) p
      if (dieOf s d).st = .idle && (dieOf s d).pending.isNone && !channelInReset s d then gateErase s d (dieBlock s k p) false else s) s

/-- The codewords of an IU that a copy reads: a poisoned one is not read (R162). -/
def copySpots (s : State) (iu : Nat) : List Spot :=
  (List.range 4).map (fun c => if bit (mapAt s iu).poison c then .value 0 else iuSpot s iu c)

/-- Read the next valid IUs of a band for its job, a word line's at a time, at the job's class (R148). -/
def readForCopy (s : State) (i k : Nat) : State :=
  if s.flash.jobs.any (fun j => j.entry = i) || s.ledger.copies.any (fun c => c.entry = i && c.placed.isNone) then s
  else
    let ius := (unreadIus s k).take 12
    if ius = [] then s else addJob s (jobFor i (.copy k) 0 ius (ius.flatMap (copySpots s)))

/-- The pages that a job has read wait for the reclaim band (R148). One whose IU has moved meanwhile is discarded (R149). -/
def copyReadDone (s : State) (k : Nat) (j : ReadJob) : State :=
  (j.units.zipIdx).foldl (fun s x =>
    let e := mapAt s x.1
    if e.mapped && bandOfLoc s e.loc = k then
      let old := (tget s.flash.pages e.loc).getD blankPage
      let page : FlashPage := { old with cws := (List.range 4).map (fun c => j.value (4 * x.2 + c)) }
      { s with ledger := { s.ledger with copies := s.ledger.copies ++ [⟨x.1, e.loc, page, j.entry, none⟩] } }
    else count s 0x6004 0 1) (dropRead s j)

/-- The pages of the next word line of copies at a position of a reclaim band. -/
def copyPages (s : State) (k pos : Nat) : List SourcePage :=
  let die := dieAt (k / 2048) pos
  let cs := s.ledger.copies.filter (fun c => (eligibleCopy s die (dieBlock s k pos) c.iu c.loc).isSome)
  let ps := (cs.take 12).map (fun c => SourcePage.copy c.iu c.loc)
  ps ++ List.replicate (12 - ps.length) .filler

/-- One word line of copies, or of parity, into a reclaim band (R119, R142, R148). -/
def copyLine (s : State) (k pos : Nat) : State :=
  let go (ps : List SourcePage) : State :=
    gateProgram s (dieAt (k / 2048) pos) (dieBlock s k pos) (currentLine (bandOf s k)) false ps
  if lineWritten s k pos || !slotOpen s (dieAt (k / 2048) pos) then s
  else if onParity s k pos then (if parityDue s k pos then go (List.replicate 12 .parity) else s)
  else
    let ps := copyPages s k pos
    if ps.all (fun p => p = .filler) then s else go ps

/-- Program what the jobs of a group have read into its reclaim band, which opens where the group has none (R142): the sender names a die
and block of it. -/
def copyTo (s : State) (rg die block : Nat) : State :=
  let dst := bandAt s die block
  if !dieOk s die || !dataBlock (dst % 2048) || rgOfBand s dst ≠ rg then s
  else match reclaimBand s rg with
    | some (r, b) =>
      if r ≠ dst then s
      else copyLine (if b.st = .parked then bandMod s r (fun b => { b with st := .open }) else s) dst (positionOf die)
    | none =>
      if (bandOf s dst).st = .free && s.ledger.copies.any (fun c => c.placed.isNone && rgOfBand s (bandOfLoc s c.loc) = rg) then
        copyLine (bandMod s dst (fun b => { b with st := .open, handle := none })) dst (positionOf die)
      else s

/-- RECLAIM_JOB (R142, R146, R148, R150, R160): a job of a group goes one step on. One that has no band takes one up and asks for its
entry; with it the valid IUs of the band are read and programmed into the reclaim band, on the die and block `dst`, and the band is erased
once it holds none. -/
def execReclaimJob (rg job : Nat) (dst : DieBlock) (s : State) : Host.Outcome State Fault Refusal :=
  if !flashRuns s || !decide (rg < 8) then .next s else
  match s.ledger.care.find? (fun c => c.job = job && job ≠ 3 && rgOfBand s c.band = rg) with
  | none => match careTarget s rg job with
    | some k => .next (startCare s job k)
    | none => .next s
  | some c => match c.entry with
    | none => .next s
    | some i =>
      let s := if (bandOf s c.band).valid = 0 then eraseBand s c.band else readForCopy s i c.band
      .next (copyTo s rg dst.die dst.block)

/-- WEAR_LEVEL_JOB (R150, R151): a closed band whose mean erase count lies OD 0x2340.02 or more below the group's mean is to be levelled; the
wear of the groups is compared. Read-only mode stops levelling (R156). -/
def execWearLevelJob (rg : Nat) (s : State) : Host.Outcome State Fault Refusal :=
  if !flashRuns s || !decide (rg < 8) then .next s else
  let s := wearCheck s
  if s.ledger.readOnly then .next s else
  match (bandsOfRg s rg).find? (fun p => p.2.st = .closed && !p.2.level &&
      decide (p.2.erases + s.ledger.allErases + odVal s 0x2340 2 ≤ meanErases s rg)) with
  | none => .next s
  | some (k, _) => .next (bandMod s k (fun b => { b with level := true }))

/-! ## Scrub -/

/-- The programmed pages of a band. -/
def bandPages (s : State) (k : Nat) : List Nat := (s.flash.pages.filter (fun p => bandOfLoc s p.1 = k)).map (fun p => p.1)

/-- The data and cellar bands with programmed pages (R159). -/
def scrubBands (s : State) : List Nat := ((s.flash.pages.map (fun p => bandOfLoc s p.1)).dedup)

/-- SCRUB_PASS (R159): the scrubber takes up a band that it has not read in this cycle, as an INTERNAL job of CLASS 3. -/
def execScrubPass (stripe block : Nat) (s : State) : Host.Outcome State Fault Refusal :=
  let k := bandKey stripe block
  if !flashRuns s || !decide (stripe < stripeCount s) || !decide (block < 1832) || s.ledger.scrubbed.contains k
      || s.ledger.care.any (fun c => c.job = 3 && c.band = k) then .next s
  else .next (startCare s 3 k)

/-- The scrub of a band begins once its job has its entry: every codeword of every programmed page is read, with the full ladder. -/
def startScrub (s : State) (i k : Nat) : State :=
  let ps := bandPages s k
  addJob s (jobFor i (.scrub k) 0 ps (ps.flatMap (fun l => (List.range 4).map (pageSpot s l))))

/-- A band has been scrubbed. With the last band that holds pages a new cycle begins. -/
def scrubDone (s : State) (k : Nat) (j : ReadJob) : State :=
  let s := count (dropRead s j) 0x6008 0 (4 * j.units.length)
  let s := { s with ledger := { s.ledger with care := s.ledger.care.filter (fun c => !(c.job = 3 && c.band = k)) } }
  let s := freeFamily s j.entry
  let done := s.ledger.scrubbed ++ [k]
  if (scrubBands s).all (fun b => done.contains b) then
    { s with ledger := { s.ledger with scrubbed := [], scrubStart := s.bell.count } }
  else { s with ledger := { s.ledger with scrubbed := done } }

/-! ## Journal and checkpoint -/

/-- A request of a job of the ledger that works on the map, where none of it stands or waits. -/
def askOnce (s : State) (job tag cls : Nat) : State :=
  if s.tally.entries.any (fun p => p.2.origin = .internal job tag) || s.tally.waiting.any (fun r => r.origin = .internal job tag) then s
  else await s (jobReq job tag cls 1)

/-- The entry of a job. -/
def jobEntry (s : State) (job tag : Nat) : Option Nat := (s.tally.entries.find? (fun p => p.2.origin = .internal job tag)).map (fun p => p.1)

/-- CHECKPOINT_SEGMENT (R164): a segment of the map is rewritten into the cellar by an INTERNAL entry of CLASS 1, dirty segments first. The
job asks for its entry, and writes the segment when it has it. -/
def execCheckpointSegment (segment : Nat) (s : State) : Host.Outcome State Fault Refusal :=
  if !flashRuns s || (s.ledger.dirty ≠ [] && !s.ledger.dirty.contains segment) then .next s else
  match jobEntry s 0x06 segment with
  | none => .next (askOnce s 0x06 segment 1)
  | some i => .next (freeFamily (checkpointSegment s segment) i)

/-- The bytes of 256 journal records, one codeword of a cellar page; the spec gives records no layout (DESIGN CHOICE, log entry 22). -/
def journalWord (rs : List JournalRec) : Nat :=
  rs.foldr (fun r n => n * 2 ^ 128 + r.iu * 2 ^ 40 + r.entry.poison * 2 ^ 36 + (if r.entry.mapped then 2 ^ 34 else 0) + r.entry.loc) 0

/-- The next cellar page set: the first cellar band with room whose next word line can be programmed now. -/
def cellarSlot (s : State) : Option (Nat × Nat) :=
  ((List.range (stripeCount s)).flatMap (fun st => (List.range 8).flatMap (fun b => (List.range 16).map (fun p => (bandKey st b, p))))).find?
    (fun x => decide ((bandOf s x.1).pagesWritten < bandLines) && !lineWritten s x.1 x.2 && slotOpen s (dieAt (x.1 / 2048) x.2) &&
      (!onParity s x.1 x.2 || parityDue s x.1 x.2))

/-- The journal goes into the cellar by page sets of SLC, as INTERNAL entries of CLASS 1 (R164). -/
def journalNext (s : State) : State :=
  if s.ledger.tail < recordsPerSet then s
  else match jobEntry s 0x05 0, cellarSlot s with
    | some i, some (k, p) =>
      let rs := s.ledger.journal.drop (s.ledger.journal.length - s.ledger.tail)
      let pages := (List.range 4).map (fun a => SourcePage.cellar ((List.range 4).map (fun c => journalWord ((rs.drop (256 * (4 * a + c))).take 256))))
      gateProgram (freeFamily s i) (dieAt (k / 2048) p) (dieBlock s k p) (currentLine (bandOf s k)) true pages
    | some _, none => s
    | none, _ => askOnce s 0x05 0 1

/-- The journal that boot must replay stays within 1 GiB (R164): beyond it the first dirty segment is rewritten. -/
def boundJournal (s : State) : State :=
  if 2 ^ 30 < journalBytes * s.ledger.journal.length then
    match s.ledger.dirty.head? with
    | some seg => checkpointSegment s seg
    | none => s
  else s

/-- The ledger's own work at a chime boundary: filling, the journal, and the program slots. -/
def ledgerTick (s : State) : State := noteSlots (boundJournal (journalNext (fillBands s)))

/-! ## Namespaces -/

/-- NAMESPACE_CREATE (R138, R401): extents are assigned and cleared, and the namespace gets a new key. The completion's DW0 is the NSID. A
create with NSZE = NCAP = 0, which meets both conditions of R138, is refused with Invalid Field in Command: the spec says nothing of it
(DESIGN CHOICE, log entry 22). -/
def execNamespaceCreate (h : HostId) (nsze ncap lbaf : Nat) (s : State) : Host.Outcome State Fault Refusal :=
  .next (serveAdmin s h false (fun s i =>
    if 1 < lbaf then finish s i .invalidFormat 0 0
    else if nsze ≠ ncap || nsze = 0 || nsze * lbaSize lbaf % 16384 ≠ 0 then finish s i .invalidField 0 0
    else match (List.range 64).find? (fun n => (nsOf s (n + 1)).isNone) with
      | none => finish s i .namespaceIdUnavailable 0 0
      | some n => match takeExtents s (nsze * lbaSize lbaf / 16384) with
        | none => finish s i .insufficientCapacity 0 0
        | some xs =>
          let s := newKey (xs.foldl unmapExtent s) (n + 1)
          let s := { s with ledger := { s.ledger with
            nss := tput s.ledger.nss (n + 1) ⟨lbaf, nsze, xs, tgetD s.keys.gens (n + 1) 0⟩ } }
          finish s i .success (n + 1) 0))

/-- NAMESPACE_DELETE (R138, R251, R401): entries cleared, extents returned, key destroyed, bound streams released. -/
def execNamespaceDelete (h : HostId) (s : State) : Host.Outcome State Fault Refusal :=
  .next (serveAdmin s h false (fun s i =>
    let ids := namedNs s h.nsid
    if ids = [] then finish s i .invalidNamespace 0 0
    else if ids.any (boundBusy s) then finish s i .commandSequenceError 0 0
    else
      let s := ids.foldl (fun s n =>
        let xs := ((nsOf s n).map (fun ns => ns.extents)).getD []
        let s := xs.foldl unmapExtent (releaseBound (endWrites s n .abortRequested) n)
        { s with ledger := { s.ledger with nss := tdel s.ledger.nss n } }) s
      finish s i .success 0 0))

/-- FORMAT_NVM (R138, R401, R251): the map is cleared, the key replaced, the capacity in bytes kept. -/
def execFormatNvm (h : HostId) (lbaf ses : Nat) (s : State) : Host.Outcome State Fault Refusal :=
  .next (serveAdmin s h false (fun s i =>
    let ids := namedNs s h.nsid
    if ids = [] then finish s i .invalidNamespace 0 0
    else if 1 < lbaf then finish s i .invalidFormat 0 0
    else if ses ≠ 0 ∧ ses ≠ 2 then finish s i .invalidField 0 0
    else if s.keys.sanitize ≠ 0 then finish s i .sanitizeInProgress 0 0
    else if ids.any (boundBusy s) then finish s i .commandSequenceError 0 0
    else finish (ids.foldl (fun s n => wipeNs s n lbaf) s) i .success 0 0))

/-- A Sanitize of either kind (R402): refused while a slot is MOUNTED or a bound stream has a chunk admitted; else steps 1
to 4 follow and the command completes when the drive has done them, at a chime boundary. -/
def sanitize (s : State) (i kind : Nat) : State :=
  if s.keys.sanitize ≠ 0 then finish s i .sanitizeInProgress 0 0
  else if s.sifters.slots.any (fun p => p.2.st = 2) || s.ledger.nss.any (fun p => boundBusy s p.1) then
    finish s i .commandSequenceError 0 0
  else
    let s := sanitizeSteps s kind
    { s with keys := { s.keys with sanitize := kind, sanitizeEntry := some i } }

/-- SANITIZE_CRYPTO_ERASE (R402). -/
def execSanitizeCryptoErase (h : HostId) (s : State) : Host.Outcome State Fault Refusal :=
  .next (serveAdmin s h false (fun s i => sanitize s i 1))

/-- SANITIZE_BLOCK_ERASE (R402). -/
def execSanitizeBlockErase (h : HostId) (s : State) : Host.Outcome State Fault Refusal :=
  .next (serveAdmin s h false (fun s i => sanitize s i 2))

/-! ## Placement -/

/-- Close the band of a pair (R145): padded as for parking, with Reclaim Unit Not Fully Written (NVMe type 0x00) where it
holds less than its nominal size. -/
def closePair (s : State) (pid : Nat) : State :=
  let handle := pid % 8192
  let g := pid / 8192 % 8
  match bandOfPair s handle g with
  | none => s
  | some (k, b) =>
    padBand (if b.pagesWritten < bandLines then fdpEvent s 0 handle g else s) k .closed

/-- IO_MANAGEMENT_SEND (R145): a Reclaim Unit Handle Update. One that names a handle above 63 is refused as a whole with Invalid Placement
Identifier: the spec gives no status (DESIGN CHOICE, log entry 22). -/
def execIoManagementSend (h : HostId) (pids : List Nat) (s : State) : Host.Outcome State Fault Refusal :=
  .next (serveIo s h (fun s i =>
    if (nsOf s h.nsid).isNone then finish s i .invalidNamespace 0 0
    else if !s.ledger.fdp then finish s i .invalidField 0 0
    else if pids.any (fun p => decide (63 < p % 8192)) then finish s i .invalidPlacement 0 0
    else finish (pids.foldl closePair s) i .success 0 0))

/-- The media writes left in the reclaim unit of a pair, in IUs. -/
def unitsLeft (s : State) (handle g : Nat) : Nat :=
  match bandOfPair s handle g with
  | some (_, b) => bandIus - min bandIus (b.pagesWritten * 12 * 15 / 16)
  | none => bandIus

/-- IO_MANAGEMENT_RECEIVE (R141): the reclaim unit handle status: placement identifier, handle, and LBAs left of each. -/
def execIoManagementReceive (h : HostId) (s : State) : Host.Outcome State Fault Refusal :=
  .next (serveIo s h (fun s i =>
    match nsOf s h.nsid with
    | none => finish s i .invalidNamespace 0 0
    | some ns =>
      if !s.ledger.fdp then finish s i .invalidField 0 0
      else
        let rows := (List.range 64).flatMap (fun u => (List.range 8).flatMap (fun g =>
          [g * 8192 + u, u, unitsLeft s u g * (16384 / lbaSize ns.lbaf)]))
        finishData s i .success 0 0 rows true))

end Sys2Proof.Machine
end

