-- ==== Sys2Proof/Machine/ReadPlan.lean ====
section
/-!
DEFINITION. The planner over the dies: which reads, programs and erases it places at a chime boundary and in the plan for the next bell
(R68 to R71, R120, R124, R125, R446, R449).
-/

namespace Sys2Proof.Machine

/-! ## Where the urgent come first -/

/-- Does a ladder of effective class 0 stand on a stripe: its rows are kept readable for its later rungs (R125). -/
def urgentOn (s : State) (stripe : Nat) : Bool :=
  s.flash.ladders.any (fun l => l.urgent && l.st ≠ .failed && stripeOf l.addr.die = stripe)

/-- May work of an entry be placed on a die while urgent reads stand on its stripe (R125). -/
def rowAllows (s : State) (die entry : Nat) : Bool := urgentEntry s entry || !urgentOn s (stripeOf die) ||
  s.flash.ladders.any (fun l => l.entry = entry && l.urgent)

/-- A die is made ready for an urgent read at a chime boundary (Table 5.7, R124): an erase is suspended, a sense of a higher effective class
cancelled. What was placed there waits again (R71). -/
def readyDie (s : State) (cls entry die : Nat) : State :=
  let d := dieOf s die
  match d.read with
  | some r => if decide (cls < classAt s r.entry) then cancelRead s die else s
  | none =>
    if d.st = .erasing && cls = 0 then
      let s := match d.placed with
        | some p => if classAt s p = 0 then s else replan s p .waiting
        | none => s
      dieMod s die (fun d => { d with suspendAsked := true, placed := some entry })
    else s

/-- Prepare the dies of a waiting ladder: its own, and for a ladder of effective class 0 those of its whole row, at one boundary (R125). A
sibling read cancels senses of a higher effective class whatever its own (R124). -/
def readyRow (s : State) (l : Ladder) : State :=
  let c := classAt s l.entry
  let s := if l.urgent || isSibling s l.entry then readyDie s (if l.urgent then 0 else c) l.entry l.addr.die else s
  if l.urgent && !isSibling s l.entry then (siblings s l.addr).foldl (fun s b => readyDie s 0 l.entry b.die) s else s

/-! ## Before admission -/

/-- A waiting ladder at a chime boundary, before admission (R124): on a die that is not readable it goes around, ends with Unit Reset, or
waits on; for any other its dies are made ready. -/
def prepareLadder (s : State) (l : Ladder) : State :=
  if (ladderOf s l.entry l.addr).any (fun m => m.st = .waiting) then
    if readable s l.addr.die then readyRow s l
    else if decide (classAt s l.entry ≤ odVal s 0x2205 0) && rebuildable s l then
      startRebuild s { l with st := .rebuilding, around := true }
    else if channelInReset s l.addr.die then failRequest s l.entry .unitReset 0
    else if isSibling s l.entry then s else noteUrgentOverrun s l
  else s

/-- Every waiting ladder, in the order of R32. -/
def waitingLadders (s : State) : List Ladder := sortBy (ladderBefore s) (s.flash.ladders.filter (fun l => l.st = .waiting))

/-- Can a page of a read job be read for its entry from this boundary on: its die takes a read, or it is one that an urgent read makes
ready, or it must go around or end. -/
def pageDue (s : State) (entry loc : Nat) : Bool :=
  let d := loc / 2 ^ 26
  if readable s d then
    urgentEntry s entry || (takesRead s d && placeAllows s d entry && rowAllows s d entry && unitOpen s (channelUnit d))
  else channelInReset s d || decide (classAt s entry ≤ odVal s 0x2205 0)

/-- Ask for the child of a page of a job (R18). -/
def askPage (s : State) (use : ReadUse) (entry loc : Nat) : State :=
  await s (childReq s entry (.internal use.job loc) (channelUnit (loc / 2 ^ 26)))

/-- The pages of one job that are due, on dies that no page has been asked for yet, become children; answers the dies asked for. -/
def askJob (p : List Nat × State) (j : ReadJob) : List Nat × State :=
  let q := j.pages.foldl (fun (q : List Nat × List Nat × State) loc =>
    let d := loc / 2 ^ 26
    if pageDue q.2.2 j.entry loc && (!q.1.contains d || urgentEntry q.2.2 j.entry) then (d :: q.1, q.2.1, askPage q.2.2 j.use j.entry loc)
    else (q.1, q.2.1 ++ [loc], q.2.2)) (p.1, [], p.2)
  (q.1, { q.2.2 with flash := { q.2.2.flash with jobs := q.2.2.flash.jobs.map (fun x => if x = j then { x with pages := q.2.1 } else x) } })

/-- The read jobs with pages that no entry reads yet, in the order of R32. -/
def pagedJobs (s : State) : List ReadJob :=
  sortBy (fun (a b : ReadJob) => match entryAt s a.entry, entryAt s b.entry with
    | some x, some y => before (a.entry, x) (b.entry, y)
    | some _, none => true
    | none, _ => false) (s.flash.jobs.filter (fun j => j.pages ≠ []))

/-- The flash reads at a chime boundary, before admission (R18, R71, R124). -/
def prepareReads (s : State) : State :=
  let s := (waitingLadders s).foldl prepareLadder s
  ((pagedJobs s).foldl askJob ([], s)).2

/-! ## After admission -/

/-- The dies for which an entry has ladders that wait. -/
def diesWanted (s : State) (i : Nat) : List Nat :=
  ((s.flash.ladders.filter (fun l => l.entry = i && l.st = .waiting)).map (fun l => l.addr.die)).dedup

/-- Start the reads of an entry on the dies that can take them (R71, R446). -/
def startReads (s : State) (i : Nat) : State :=
  (diesWanted s i).foldl (fun s d =>
    if takesRead s d && placeAllows s d i && rowAllows s d i && unitOpen s (channelUnit d) then
      match (waitingOn s d).find? (fun l => l.entry = i) with
      | some l => withBudget s i (fun s => startLadder s l)
      | none => s
    else s) s

/-- The die of a program or erase entry. -/
def jobDie (s : State) (i : Nat) : Option Nat :=
  (entryAt s i).bind (fun e => match e.origin with
    | .internal j tag => if j = 0x09 || j = 0x0A then some (tag / 2 ^ 12) else none
    | _ => none)

/-- Start the program or erase of an entry, where its die can take it (R117, R449); not on a stripe that an urgent read needs readable. -/
def startOperation (s : State) (i : Nat) : State :=
  match jobDie s i with
  | none => s
  | some d =>
    let x := dieOf s d
    if x.pending.isSome && x.st = .idle && !(programWaits x && fenced s d) && placeAllows s d i && rowAllows s d i && unitOpen s (channelUnit d) then
      withBudget s i (fun s => startPending s d)
    else s

/-- The flash work of an entry that can start at this boundary. -/
def placeFlash (s : State) (i : Nat) : State := startReads (startOperation s i) i

/-! ## The channels between boundaries -/

/-- Does a die of a channel carry a transfer of a read. -/
def channelCrossing (s : State) (c : Nat) : Bool :=
  s.flash.dies.any (fun p => p.1 % 32 = c && p.2.read.any (fun r => r.crossing))

/-- The senses of a channel in the order in which their transfers cross it: effective class 0 first (R449), then by R32. -/
def sensesOf (s : State) (c : Nat) : List Nat :=
  let ds := s.flash.dies.filterMap (fun p => if p.1 % 32 = c then (p.2.read.filter (fun r => !r.crossing)).map (fun r => (p.1, r.entry)) else none)
  (sortBy (fun (a b : Nat × Nat) => match entryAt s a.2, entryAt s b.2 with
    | some x, some y => before (a.2, x) (b.2, y)
    | some _, none => true
    | none, _ => false) ds).map (fun x => x.1)

/-- The dies of a channel with program pages still to cross. -/
def programsCrossing (s : State) (c : Nat) : List Nat :=
  (s.flash.dies.filter (fun p => p.1 % 32 = c && p.2.program.any (fun x => decide (x.crossed < x.pages.length)))).map (fun p => p.1)

/-- Program pages cross; with the last tPROG begins (R449). -/
def crossPages (n : Nat) (s : State) (d : Nat) : State :=
  dieMod s d (fun x => match x.program with
    | some p =>
      let m := min p.pages.length (p.crossed + n)
      { x with
        program := some { p with crossed := m }
        sinceNs := if m = p.pages.length then nowNs s else x.sinceNs
        endNs := if m = p.pages.length then nowNs s + (if p.slc then 200000 else 600000) else x.endNs }
    | none => x)

/-- One channel in the course of a chime (R446, R449): where its transfers stand is a free value, for the spec gives no times of the die
senses but their bounds. One transfer crosses at a time, and a class 0 read waits behind one page transfer at most. -/
def channelStep (s : State) (c : Nat) : State :=
  if sensesOf s c = [] && programsCrossing s c = [] then s
  else
    let (f, s) := drawFree s
    let s := match sensesOf s c with
      | d :: _ => if f % 2 = 1 && !channelCrossing s c then
          dieMod s d (fun x => { x with read := x.read.map (fun r => { r with crossing := true }) }) else s
      | [] => s
    (programsCrossing s c).foldl (crossPages (f / 2 % 13)) s

/-- The channels at a chime boundary. -/
def channelTick (s : State) : State := ((s.flash.dies.map (fun p => p.1 % 32)).dedup).foldl channelStep s

/-! ## The plan for the next bell -/

/-- Will a die be free for a read in the next bell: it is readable, and its reservation ends before that bell does (R70, R115). -/
def freeNext (s : State) (d : Nat) : Bool :=
  let x := dieOf s d
  readable s d && unitOpen s (channelUnit d) && (x.read.isNone || decide (x.endNs ≤ s.bell.edgeNs + 2 * periodNs s))

/-- The pages of jobs that ask for a die, in the order of R32. -/
def pagesOn (s : State) (d : Nat) : List (ReadJob × Nat) :=
  (pagedJobs s).flatMap (fun j => (j.pages.filter (fun l => l / 2 ^ 26 = d)).map (fun l => (j, l)))

/-- What the plan places on a die (R70): the first waiting ladder by R32, else a page of a job, whose child is asked for now where the die
is erasing, so that it stands when the erase is suspended (Table 5.7). -/
def planDie (s : State) (d : Nat) : State :=
  if (dieOf s d).plan.isSome || !freeNext s d then s
  else
    let put (s : State) (i : Nat) : State := replan (dieMod s d (fun x => { x with plan := some i })) i .planned
    match (waitingOn s d).find? (fun l => rowAllows s d l.entry) with
    | some l => put s l.entry
    | none => match (pagesOn s d).find? (fun p => rowAllows s d p.1.entry) with
      | none => s
      | some p =>
        if (dieOf s d).st ≠ .erasing then put s p.1.entry
        else
          let s := askPage s p.1.use p.1.entry p.2
          let s := { s with flash := { s.flash with jobs := s.flash.jobs.map (fun j =>
            if j.entry = p.1.entry then { j with pages := j.pages.filter (fun l => l ≠ p.2) } else j) } }
          put s p.1.entry

/-- The plan for the dies (R70). -/
def planDies (s : State) : State :=
  let ladders := (s.flash.ladders.filter (fun (l : Ladder) => l.st = .waiting)).map (fun l => l.addr.die)
  let pages := s.flash.jobs.flatMap (fun (j : ReadJob) => j.pages.map (fun l => l / 2 ^ 26))
  ((ladders ++ pages).dedup).foldl planDie s

/-- What the plan has on the dies waits again: the plan is late, or nothing is placed (R72, R347). -/
def dropDiePlans (s : State) : State :=
  s.flash.dies.foldl (fun s p => match p.2.plan with
    | some i => replan (dieMod s p.1 (fun x => { x with plan := none })) i .waiting
    | none => s) s

/-! ## The bell edge -/

/-- Is an operation under way on a die. -/
def dieBusy (d : Die) : Bool := d.read.isSome || d.st = .programming || d.st = .erasing || d.st = .lockedErase

/-- A die at a bell edge (R70, R71, R73, R115, R120): what was placed in the old bell and has not started waits again, the plan comes into force,
an erase with a read placed on it is suspended, and a reservation that has run out under a busy die is extended by a bell. -/
def dieEdge (s : State) (die : Nat) : State :=
  let d := dieOf s die
  let s := match d.placed with
    | some p => replan s p .waiting
    | none => s
  let placed := d.plan.filter (fun i => unitOpen s (channelUnit die) && affords s i)
  let s := match d.plan with
    | some i => if placed.isSome then s else replan (if unitOpen s (channelUnit die) then defer s i else s) i .waiting
    | none => s
  dieMod s die (fun d => { d with
    placed := placed, plan := none
    suspendAsked := d.suspendAsked || (d.st = .erasing && placed.isSome)
    endNs := if dieBusy d && decide (d.endNs ≤ s.bell.edgeNs) then s.bell.edgeNs + periodNs s else d.endNs })

/-- May suspended erases go on (R120): not in a pause, in thermal hold, or on the way to or in a deep power state. -/
def erasesRun (s : State) : Bool :=
  s.dev.state ≠ .paused && !s.power.hold && !s.power.preparing && !s.power.transition && s.power.inForce = 0

/-- Does a suspended erase resume at the edge (R120): no read is on its die or placed there for the new bell, and none of effective class 0
needs it. -/
def resumes (s : State) (p : Nat × Die) : Bool :=
  p.2.st = .suspended && p.2.read.isNone && p.2.placed.isNone && !urgentOn s (stripeOf p.1)

/-- The dies at a bell edge. -/
def diesTick (s : State) : State :=
  let s := (s.flash.dies.map (fun p => p.1)).foldl dieEdge s
  if erasesRun s then ((s.flash.dies.filter (resumes s)).map (fun p => p.1)).foldl resumeErase s else s

/-! ## Erase locks -/

/-- Is ERASE_LOCK due on a die (R121). -/
def lockDue (s : State) (p : Nat × Die) : Bool :=
  (p.2.st = .erasing || p.2.st = .suspended) && !fenceHeld s p.1 &&
  (match p.2.erase with
   | some e => !e.lockPending && decide (odVal s 0x2202 0 ≤ e.suspensions)
   | none => false)

/-- May a locked erase go on (R121): no read runs on its die. -/
def lockedReady (p : Nat × Die) : Bool :=
  p.2.st = .suspended && p.2.read.isNone && (match p.2.erase with | some e => e.lockPending | none => false)

/-- Issue ERASE_LOCK on a die where it is still due. -/
def lockOne (s : State) (d : Nat) : State := if lockDue s (d, dieOf s d) then gateLock s d else s

/-- The erases at a chime boundary (R121). -/
def eraseLocks (s : State) : State :=
  let s := ((s.flash.dies.filter lockedReady).map (fun p => p.1)).foldl resumeErase s
  ((s.flash.dies.filter (lockDue s)).map (fun p => p.1)).foldl lockOne s

end Sys2Proof.Machine
end

