-- ==== Sys2Proof/Machine/Admit.lean ====
section
/-!
DEFINITION. Admission to the tally and command fetch at a chime boundary (R20 to R23, R90 to R94).
-/

namespace Sys2Proof.Machine

/-! ## Admission (R20 to R23) -/

/-- Is a write or copy that a pending program of a die holds PROMOTED, or for a parity program one that its rows hold (R448). -/
def programPromoted (s : State) (die : Nat) : Bool :=
  match (dieOf s die).pending with
  | some (.program p) =>
    if p.pages.any (fun x => x = .parity) then (tgetD s.ledger.rowClass (rowKey (bandAt s die p.block) p.wl) (0, false)).2
    else
      let es := (s.ledger.staged.filter (fun g => g.placed = some die)).map (fun g => g.entry) ++
        (s.ledger.copies.filter (fun c => c.placed = some die)).map (fun c => c.entry)
      es.any (fun i => (entryAt s i).any (fun e => e.promoted))
  | _ => false

/-- An INTERNAL job has its entry `i` (Table 16.7). The jobs that are not named here go on by commands of their own. -/
def adoptJob (s : State) (i job tag : Nat) : State :=
  match job with
  | 0x01 => adoptCare s i job tag
  | 0x02 => adoptCare s i job tag
  | 0x03 => startScrub (adoptCare s i job tag) i tag
  | 0x04 => adoptCare s i job tag
  | 0x08 => adoptSibling s i
  | 0x09 => entryMod s i (fun e => { e with promoted := programPromoted s (tag / 2 ^ 12) })
  | 0x0D => adoptStep s i
  | 0x0E => adoptStep s i
  | 0x0F => adoptPage s i tag
  | 0x12 => adoptLoad s i tag
  | 0x13 => adoptPage s i tag
  | _ => s

/-- What becomes of a request once it has its entry `i`: a request to another member goes out and one of a peer is served; contexts, chunks
and jobs go on. A HOST entry waits for its command, and is HELD in an activation pause (R61). -/
def adopt (s : State) (i : Nat) (r : Request) : State :=
  match r.origin with
  | .host _ _ => if s.dev.state = .paused then setState s i .held else s
  | .fabric peer tag =>
    if r.unit ≠ 255 then adoptArrived s peer tag i
    else match origOf s tag with
      | some o => launch (origMod s tag (fun o => { o with entry := i })) { o with entry := i }
      | none => freeFamily s i
  | .search _ _ parent => adoptContext s i parent
  | .stream sid seq => adoptChunk s i sid seq
  | .internal job tag => adoptJob s i job tag

/-- A refused request keeps its place and is considered again at the next boundary (R22); one of a peer ends with Tally Full (R23). -/
def refuse (s : State) (r : Request) : State :=
  let again := { s with tally := { s.tally with waiting := s.tally.waiting.replace r { r with refusals := r.refusals + 1 } } }
  match r.origin with
  | .fabric peer tag =>
    if r.unit ≠ 255 then dropArrived { s with tally := { s.tally with waiting := s.tally.waiting.erase r } } peer tag else again
  | .host _ _ => count again 0x61E8 5 1
  | _ => again

/-- Consider one waiting request (R21). It may have gone with its parent meanwhile. -/
def considerOne (s : State) (r : Request) : State :=
  if !s.tally.waiting.contains r then s
  else if admits s r.origin.kind r.cls then
    let p := admitEntry { s with tally := { s.tally with waiting := s.tally.waiting.erase r } } r
    adopt p.2 p.1 r
  else refuse s r

/-- The waiting requests by CLASS, then by arrival (R21). -/
def byClass (rs : List Request) : List Request := sortBy (fun (a b : Request) => decide (a.cls ≤ b.cls)) rs

/-- Is a request considered at this boundary: in an activation pause only those of the host are. -/
def considered (s : State) (r : Request) : Bool := s.dev.state ≠ .paused || decide (r.origin.kind = .host)

/-- Admission at a chime boundary (R20, R21). -/
def admitWaiting (s : State) : State := (byClass (s.tally.waiting.filter (considered s))).foldl considerOne s

/-! ## Command fetch (R22, R90 to R94) -/

/-- The state in which every waiting request counts as admitted (R22). -/
def asAdmitted (s : State) : State :=
  { s with tally := { s.tally with entries := s.tally.entries ++ s.tally.waiting.map (fun r =>
      (noEntry, ⟨r.origin, r.no, 0, 0, r.cls, .admitted, r.ordered, false, r.unit, 0, 0, r.deadline, 0, r.parent, false, r.notReady,
        r.unlisted, 0⟩)) } }

/-- The command that may be fetched from a queue now: the queue is open, holds one, and could be admitted at the next boundary (R22). An
urgent queue is left alone while urgent occupancy stands at its cap (R94). -/
def fetchable (s : State) (sq : Nat) : Option SqCmd :=
  match (tget s.host.sqs sq).bind (fun q => q.slots.head?) with
  | none => none
  | some c =>
    let cls := classOf s sq c.fam
    if mayFetch s sq && admits (asAdmitted s) .host cls && !(urgentSq s sq && decide (odVal s 0x2045 0 ≤ urgentOcc s.tally)) then some c
    else none

/-- Fetch one command: it leaves the queue and waits for its admission. -/
def fetchOne (s : State) (sq : Nat) (c : SqCmd) : State :=
  let r := hostRequest s sq c.cid c.fam c.ord c.deadline
  popSlot { s with
    tally := { s.tally with waiting := s.tally.waiting ++ [r] }
    host := { s.host with fetchNo := s.host.fetchNo + 1 } } sq

/-- One turn of a queue: up to `n` commands. Answers how many of the `n` are left. -/
def fetchTurn : Nat → Nat → State → Nat × State
  | 0, _, s => (0, s)
  | n + 1, sq, s => match fetchable s sq with
    | some c => fetchTurn n sq (fetchOne s sq c)
    | none => (n + 1, s)

/-- A round of queues in the order that follows the queue served last. -/
def roundOrder (s : State) (round : Nat) (qs : List Nat) : List Nat :=
  let last := tgetD s.host.rr round 0
  qs.filter (fun q => decide (last < q)) ++ qs.filter (fun q => decide (q ≤ last))

/-- Round robin over queues (R92), each turn at most the arbitration burst, until `n` commands are fetched or no queue gives one. -/
def fetchRound (round : Nat) (qs : List Nat) : Nat → Nat → State → Nat × State
  | 0, n, s => (n, s)
  | fuel + 1, n, s =>
    if n = 0 then (0, s) else
    match (roundOrder s round qs).find? (fun q => (fetchable s q).isSome) with
    | none => (n, s)
    | some q =>
      let turn := if s.host.burst = 0 then n else min n s.host.burst
      let r := fetchTurn turn q { s with host := { s.host with rr := tput s.host.rr round q } }
      fetchRound round qs fuel (n - (turn - r.1)) r.2

/-- One round of a priority class of weighted round robin: at most its weight. -/
def fetchWeight (round weight : Nat) (qs : List Nat) (n : Nat) (s : State) : Nat × State :=
  let w := min n weight
  let r := fetchRound round qs w w s
  (n - (w - r.1), r.2)

/-- Weighted round robin over the high, medium and low queues (R92) until nothing more is fetched. -/
def fetchWeighted (high med low : List Nat) : Nat → Nat → State → Nat × State
  | 0, n, s => (n, s)
  | fuel + 1, n, s =>
    let a := fetchWeight 1 s.host.wHigh high n s
    let b := fetchWeight 2 s.host.wMed med a.1 a.2
    let c := fetchWeight 3 s.host.wLow low b.1 b.2
    if c.1 = n then c else fetchWeighted high med low fuel c.1 c.2

/-- The I/O queues of a priority (R92). -/
def queuesOf (s : State) (prio : Nat) : List Nat := (s.host.sqs.filter (fun p => p.1 ≠ 0 && p.2.prio = prio)).map (fun p => p.1)

/-- Every I/O queue. -/
def ioQueues (s : State) : List Nat := (s.host.sqs.filter (fun p => p.1 ≠ 0)).map (fun p => p.1)

/-- Command fetch at a chime boundary (R90, R92): at most OD 0x2102 commands, the admin queue first. -/
def fetchCommands (s : State) : State :=
  let a := fetchTurn (odVal s 0x2102 0) 0 s
  if s.host.ams = 1 then
    let u := fetchRound 0 (queuesOf a.2 0) a.1 a.1 a.2
    (fetchWeighted (queuesOf u.2 1) (queuesOf u.2 2) (queuesOf u.2 3) u.1 u.1 u.2).2
  else (fetchRound 1 (ioQueues a.2) a.1 a.1 a.2).2

end Sys2Proof.Machine
end

