-- ==== Sys2Proof/Machine/Milny.lean ====
section
/-!
DEFINITION. The Milny side-band station (chapter 13): discovery and assignment, the cyclic exchange, the acyclic services, the
watchdog, and what becomes of bad frames.
-/

namespace Sys2Proof.Machine

open Host (Outcome)

/-- A valid frame for this station is received. -/
def frameIn (s : State) : State := count s 0x6010 1 1

/-- Send a frame of a type. -/
def sendMilny (s : State) (ty : Nat) (payload : Bytes) : State := emit s (.milny (milnyFrame s ty payload))

/-! ## The input image (Table 13.9) -/

/-- Queues not OPEN. -/
def shutQueues (s : State) : Nat := (s.host.sqs.filter (fun p => 1 ≤ p.1 && p.2.freeze ≠ .opened)).length

/-- The input image as its sources give it at a chime boundary (R325); what is always live is put over it when it is sent. -/
def sampleImage (s : State) : Bytes :=
  let lt := limitAndTerm s
  let flagsA := b2n (s.pen.holder = some .sideband) + 2 * b2n (s.pen.holder = some .host) + 4 * b2n (decide (0 < uncleared s))
    + 8 * b2n (decide (s.host.speed ≠ 0))
  let time := s.bell.align.code + 4 * s.bell.followed + (if s.ident.meshed then 16 * s.fabric.member.code else 0)
  let flagsB := b2n (decide (thermalState s.power lt.2 ≠ 0)) + 2 * b2n (lt.2 = 3) + 4 * b2n (lt.2 = 2)
    + 8 * b2n s.ledger.readOnly + 16 * b2n (bit s.host.warning 2) + 32 * b2n (s.ident.meshed && s.power.rearWas)
    + 64 * b2n (decide (s.update.phase ≠ 0))
  [s.dev.state.code, s.power.inForce, flagsA, time] ++ leBytes 4 s.bell.count ++ leBytes 2 (sat 16 s.power.drawn)
    ++ leBytes 2 lt.1 ++ [ofInt 8 (max (-128) (min 127 s.power.composite)), flagsB] ++ leBytes 2 (sat 16 (uncleared s))
    ++ leBytes 4 s.tally.entries.length ++ leBytes 2 (sat 16 (urgentOcc s.tally)) ++ leBytes 2 (shutQueues s)
    ++ leBytes 2 (if s.ident.meshed then upMap s.fabric else 0) ++ [if s.ident.meshed then s.fabric.epoch else 0, 0]
    ++ leBytes 2 s.pen.serial ++ [0, 0]

/-- The input image as it is sent: the sampled one with the state of a stopped drive, the flags of the always-on domain, the
bell count and the cycle number of the image in force over it. -/
def inputImage (s : State) : Bytes :=
  let x := s.sampled.image
  let st := if s.dev.state = .off then 0 else if s.dev.state = .frozen then 6 else x.headD 0
  let flags := x.getD 2 0 % 16 + 16 * b2n s.milny.rejected + 32 * b2n s.milny.expiredFlag + 64 * b2n s.milny.conflict
    + 128 * b2n (!s.rails.main)
  [st, x.getD 1 0, flags, x.getD 3 0] ++ leBytes 4 s.bell.count ++ slice x 8 22 ++ [s.milny.imageCycle % 256, 0]

/-! ## The cyclic exchange -/

/-- Is an output image one that R324 rejects. -/
def imageBad (period : Nat) (image : Bytes) : Bool :=
  let pair := (image.getD 5 0, image.getD 6 0)
  decide (period < 25) || decide (1000 < period) || decide (2 < image.getD 4 0) || decide (1 < image.getD 7 0)
    || (slice image 8 8).any (fun b => b ≠ 0) || (pair ≠ (0, 0) && pair ≠ (0x5A, 0xA5))

/-- Set the locate output. -/
def setLocate (s : State) (v : Nat) : State :=
  if s.rails.locate = v then s else emit { s with rails := { s.rails with locate := v } } (.pin 1 v)

/-- Apply an output image (R323): the cap and the trim wait for the bell edge; locate and EVT_ACK act at once. A cap that differs
from the one before counts as a write of it (R348). -/
def applyImage (s : State) (cycle : Nat) (image : Bytes) : State :=
  let cap := fieldAt image 0 2
  let oldCap := fieldAt s.milny.image 0 2
  let ack := s.milny.image.getD 7 0 % 2 = 0 ∧ image.getD 7 0 % 2 = 1
  let s := { s with
    milny := { s.milny with
      image := image, imageCycle := cycle, capPending := some cap
      rejected := if ack then false else s.milny.rejected
      expiredFlag := if ack then false else s.milny.expiredFlag }
    bell := { s.bell with trimPending := some (toInt 16 (fieldAt image 2 2)) }
    power := { s.power with capRecSide := s.power.capRecSide || decide (cap ≠ oldCap) } }
  let s := setLocate s (image.getD 4 0)
  if image.getD 5 0 = 0x5A then freezeNow s 9 else s

/-- A frame from the drive's own address (R321). -/
def noteConflict (s : State) : State :=
  raiseRecord { s with milny := { s.milny with conflict := true } } { Record.of 0x0D01 with a := s.milny.address }

/-- CYC_OUT (R318, R322 to R326): the watchdog is re-armed by every valid frame to this drive; a rejected image changes no output;
the drive answers with its input image. -/
def execCycOut (dst src cycle period : Nat) (image : Bytes) (s : State) : Outcome State Fault Refusal :=
  if !s.rails.alwaysOn || dst ≠ s.milny.address || s.milny.address = 0x7E then .next s
  else
    let s := frameIn s
    let s := if src = s.milny.address then noteConflict s else s
    let p := if 25 ≤ period ∧ period ≤ 1000 then 10 * period else if s.milny.periodUs = 0 then 10000 else s.milny.periodUs
    let s := { s with milny := { s.milny with watch := .running, periodUs := p, lastCycle := cycle, lastBell := s.bell.count, lastNs := nowNs s } }
    let s := if imageBad period image then count { s with milny := { s.milny with rejected := true } } 0x6010 3 1
      else applyImage s cycle image
    let reply := inputImage s
    .next (sendMilny { s with milny := { s.milny with lastInput := reply } } 0x02 (leBytes 2 cycle ++ reply))

/-! ## Discovery -/

/-- DISCOVER (R319): an unassigned drive answers, or with ALL any drive, in slot (CRC of its serial + round) mod S. -/
def execDiscover (round slots : Nat) (all : Bool) (s : State) : Outcome State Fault Refusal :=
  if !s.rails.alwaysOn || slots = 0 || decide (64 < slots) then .next s
  else
    let s := frameIn s
    if !all && s.milny.address ≠ 0x7E then .next s
    else
      let serial := leBytes 20 s.ident.serialNo
      let payload := serial ++ leBytes 16 (partText s) ++ [s.milny.address, b2n (!s.ident.meshed), 0, 0]
      .next (emit s (.milnyAt ((crc32 serial + round) % slots) (milnyFrame s 0x21 payload)))

/-- ASSIGN (R320): the drive of that serial number takes the address, and the terminator where SET_TERM is set, and answers from
its new address. Addresses 0x00 and 0x7F up are ignored. -/
def execAssignOp (serial : Nat) (address : Nat) (setTerm term : Bool) (s : State) : Outcome State Fault Refusal :=
  if !s.rails.alwaysOn then .next s
  else
    let s := frameIn s
    if serial ≠ s.ident.serialNo ∨ address = 0 ∨ 0x7F ≤ address then .next s
    else
      let t := if setTerm then term else s.milny.term
      let s := { s with milny := { s.milny with address := address, term := t } }
      .next (sendMilny s 0x23 (leBytes 20 serial ++ [address, b2n t, 0, 0]))

/-! ## Acyclic services -/

/-- ACY_OD_READ (R329 to R332). -/
def execAcyOdRead (r : AcyReq) (s : State) : Outcome State Fault Refusal := .next (acyServe s 1 r)

/-- ACY_OD_WRITE (R329 to R332). -/
def execAcyOdWrite (r : AcyReq) (s : State) : Outcome State Fault Refusal := .next (acyServe s 2 r)

/-- ACY_PEN_TAKE (R329 to R332). -/
def execAcyPenTake (r : AcyReq) (s : State) : Outcome State Fault Refusal := .next (acyServe s 3 r)

/-- ACY_PEN_GIVE (R329 to R332). -/
def execAcyPenGive (r : AcyReq) (s : State) : Outcome State Fault Refusal := .next (acyServe s 4 r)

/-- ACY_SNAPSHOT_READ (R334). -/
def execAcySnapshotRead (r : AcyReq) (s : State) : Outcome State Fault Refusal := .next (acyServe s 5 r)

/-- ACY_POLL (R330): the held answer or PENDING for the held token, MALFORMED for any other. -/
def execAcyPoll (token : Nat) (s : State) : Outcome State Fault Refusal :=
  if !s.rails.alwaysOn || s.milny.address = 0x7E then .next s
  else
    let s := frameIn s
    match s.milny.held with
    | some x => if x.req.token = token then .next (replyHeld s 0 token) else .next (sendAcy s (acyRsp 0 token 5 0 0 0 0 []))
    | none => .next (sendAcy s (acyRsp 0 token 5 0 0 0 0 []))

/-! ## The watchdog -/

/-- Can 3.5 periods have passed since the last CYC_OUT, as far as whole chimes tell (R326). -/
def watchdogDue (s : State) : Bool :=
  decide (7 * s.milny.periodUs * 1000 ≤ 2 * (nowNs s + chimeNs s - s.milny.lastNs))

/-- What an expiry of the watchdog does (R327): safe values, bit [5], a held answer discarded (a request that has none yet is served on), a side-band pen released (not in
FROZEN), and the record. -/
def expire (s : State) : State :=
  let lost := match s.milny.held with | some x => x.answer.isSome && !x.delivered | none => false
  let s := if lost then count s 0x6010 6 1 else s
  let s := { s with
    milny := { s.milny with
      image := List.replicate 16 0, capPending := some 0, expiredFlag := true, expiryDue := false,
                              held := s.milny.held.filter (fun x => x.answer.isNone) }
    bell := { s.bell with trimPending := some 0 } }
  let s := setLocate s 0
  let s := if s.pen.holder = some .sideband && s.dev.state ≠ .frozen then
      releasePen (raiseRecord s { Record.of 0x0203 with loser := 2, b := s.pen.serial }) else s
  raiseRecord s { Record.of 0x0D02 with a := s.milny.address, b := s.milny.lastCycle }

/-- An expiry that waits for the chime boundary (R327). -/
def expiryTick (s : State) : State := if s.milny.expiryDue then expire s else s

/-- MILNY_WATCHDOG_EXPIRY (R326, R327): its effects come at the next chime boundary, or at once while the steward is powered down or the
drive is stopped. -/
def execMilnyWatchdogExpiry (s : State) : Outcome State Fault Refusal :=
  if !s.rails.alwaysOn || s.milny.watch ≠ .running || !watchdogDue s then .next s
  else
    let s := count { s with milny := { s.milny with watch := .expired } } 0x6010 4 1
    .next (if stopped s || s.power.inForce ≠ 0 then expire s else { s with milny := { s.milny with expiryDue := true } })

/-! ## Bad frames -/

/-- The frame types of Table 13.4. -/
def frameTypes : List Nat := [0x01, 0x02, 0x10, 0x11, 0x20, 0x21, 0x22, 0x23]

/-- Is a frame valid (R314 to R316). -/
def frameValid (f : Bytes) : Bool :=
  let l := fieldAt f 4 2
  f.headD 0 = 0xA5 && decide (l ≤ 1024) && f.length = l + 10 && frameTypes.contains (f.getD 3 0)
    && crc32 (slice f 1 (l + 5)) = fieldAt f (l + 6) 4

/-- INVALID_MILNY_FRAME (R316): discarded without effect and counted. -/
def execInvalidMilnyFrame (frame : Bytes) (s : State) : Outcome State Fault Refusal :=
  if !s.rails.alwaysOn || frameValid frame then .next s else .next (count s 0x6010 2 1)

/-- OWN_ADDRESS_FRAME (R321). -/
def execOwnAddressFrame (ftype src : Nat) (s : State) : Outcome State Fault Refusal :=
  if !s.rails.alwaysOn || src ≠ s.milny.address || !frameTypes.contains ftype then .next s else .next (noteConflict s)

end Sys2Proof.Machine
end

