-- ==== Sys2Proof/Machine/UpdateOps.lean ====
section
/-!
DEFINITION. Firmware images and what becomes of them (chapter 15): the download buffer, the checks of R366 to R368, the switch of the
active image, the copy from scratch, the entries that an activation holds, and controller-level resets.
-/

namespace Sys2Proof.Machine

/-! ## The download buffer -/

/-- The pieces of the buffer in order of offset. -/
def bufferPieces (u : Update) : List (Nat × Bytes) := sortBy (fun (a b : Nat × Bytes) => decide (a.1 ≤ b.1)) u.buffer

/-- Put pieces together from offset `at_` up; none where a byte is missing. -/
def joinPieces : Nat → List (Nat × Bytes) → Option Bytes
  | _, [] => some []
  | n, (off, bs) :: t => if off = n then (joinPieces (n + bs.length) t).map (fun r => bs ++ r) else none

/-- The image in the download buffer, where the pieces leave no gap. -/
def bufferImage (u : Update) : Option Bytes := joinPieces 0 (bufferPieces u)

/-! ## Checks (R366 to R368) -/

/-- Are all bytes of a range 0. -/
def zeroRange (bs : Bytes) (off n : Nat) : Bool := (slice bs off n).all (· = 0)

/-- Entry of part `k` (1 to 8) in the part table. -/
def partEntry (img : Bytes) (k : Nat) : Bytes := slice img (64 * k) 64

/-- Offset, length and security version of part `k`. -/
def partOffset (img : Bytes) (k : Nat) : Nat := fieldAt (partEntry img k) 4 4
def partLength (img : Bytes) (k : Nat) : Nat := fieldAt (partEntry img k) 8 4
def partSecurity (img : Bytes) (k : Nat) : Nat := fieldAt (partEntry img k) 2 2
def partDigest (img : Bytes) (k : Nat) : Nat := beNat (slice (partEntry img k) 16 48)

/-- The eight parts. -/
def partNumbers : List Nat := [1, 2, 3, 4, 5, 6, 7, 8]

/-- Does the header match Table 15.5 and name this drive. -/
def imageHeaderOk (s : State) (img : Bytes) : Bool :=
  decide (1152 ≤ img.length) && decide (img.length ≤ 67108864)
    && slice img 0 7 = [0x4E, 0x59, 0x46, 0x57, 1, 0, 8]
    && decide (img.getD 7 0 < 4) && bit (img.getD 7 0) (if s.ident.meshed then 0 else 1)
    && slice img 8 4 = [0x42, 0x32, 0, 0] && fieldAt img 16 4 = img.length
    && zeroRange img 20 44 && zeroRange img 576 448

/-- Is part `k` where Table 15.6 lets it be, before the signature block. -/
def partOk (img : Bytes) (k : Nat) : Bool :=
  let e := partEntry img k
  e.getD 0 0 = k && e.getD 1 0 = 0 && zeroRange e 12 4 && partOffset img k % 4096 = 0 && decide (1024 ≤ partOffset img k)
    && decide (partOffset img k + partLength img k ≤ img.length - 128)

/-- Do two parts keep apart. -/
def partsApart (img : Bytes) (j k : Nat) : Bool :=
  j = k || decide (partOffset img j + partLength img j ≤ partOffset img k) || decide (partOffset img k + partLength img k ≤ partOffset img j)

/-- Does part `k` match its digest. -/
def partDigestOk (img : Bytes) (k : Nat) : Bool :=
  Config.sha384 (slice img (partOffset img k) (partLength img k)) = partDigest img k

/-- Is an image well formed (R366). -/
def wellFormedImage (s : State) (img : Bytes) : Bool :=
  imageHeaderOk s img && partNumbers.all (partOk img) && partNumbers.all (fun j => partNumbers.all (partsApart img j))
    && partNumbers.all (partDigestOk img)

/-- Does the signature of an image verify against the firmware key it names (R367, R409). -/
def imageSigned (img : Bytes) : Bool :=
  let sig := slice img (img.length - 128) 128
  let slot := fieldAt sig 0 2
  decide (slot < 4) && zeroRange sig 2 30
    && Config.ecdsaVerifies (Config.factoryKey slot) (Config.sha384 (slice img 0 1024)) (beNat (slice sig 32 96))

/-- Does any part lie below its rollback floor (R368). -/
def belowFloor (s : State) (security : List Nat) : Bool :=
  (List.range 8).any (fun k => decide (security.getD k 0 < s.update.floors.getD k 0))

/-- What a slot holds of an image. -/
def slotImageOf (img : Bytes) : Image :=
  ⟨img.getD 12 0 * 2 ^ 24 + img.getD 13 0 * 2 ^ 16 + fieldAt img 14 2, partNumbers.map (partSecurity img), 1, partNumbers.map (partDigest img)⟩

/-- The checks of the download buffer (R370): a status where one fails, else the image. -/
def checkBuffer (s : State) : Status ⊕ Image :=
  match bufferImage s.update with
  | none => .inl .firmwareImageInvalid
  | some img =>
    if !wellFormedImage s img || !imageSigned img then .inl .firmwareImageInvalid
    else if belowFloor s (slotImageOf img).security then .inl .firmwareProhibited
    else .inr (slotImageOf img)

/-- The checks of the image in a slot (R370): it was checked when it was written, but the floors may have risen since. -/
def checkSlot (s : State) (k : Nat) : Status ⊕ Image :=
  match tget s.update.slots k with
  | none => .inl .firmwareImageInvalid
  | some x =>
    if x.state = 0 ∨ x.state = 3 then .inl .firmwareImageInvalid
    else if belowFloor s x.security then .inl .firmwareProhibited
    else .inr x

/-! ## The write of a slot -/

/-- An image staged in scratch for the active slot is dropped, as another pending mark takes its place (R370, R377). -/
def unstaged (u : Update) : Update := if u.scratch = 1 then { u with scratch := 0, scratchImage := none } else u

/-- The buffer is being written into slot `k` (R370), which reads state 3 until the write ends; the commit of entry `i` waits for it. -/
def startSlotWrite (s : State) (i k : Nat) (img : Image) (pend : Bool) : State :=
  let u := s.update
  setState { s with update := { u with
    slots := tput u.slots k { img with state := 3 }, writing := u.writing ++ [⟨k, img, pend, some i⟩]
    phase := if u.phase = 0 then 1 else u.phase } } i .waiting

/-- A slot write ends (R370): its image is in the slot, unless another write of that slot follows, and its commit completes. A floor that
has risen above it meanwhile leaves it below (R368). -/
def endSlotWrite (s : State) (w : SlotWrite) (rest : List SlotWrite) : State :=
  let u := if w.pend then { unstaged s.update with pending := w.slot } else s.update
  let st := if rest.any (fun x => x.slot = w.slot) then 3 else if belowFloor s w.image.security then 2 else w.image.state
  let s := { s with update := { u with
    slots := tput u.slots w.slot { w.image with state := st }, writing := rest
    phase := if u.phase = 1 ∧ rest = [] ∧ u.requested = none then (if u.scratch = 2 then 4 else 0) else u.phase } }
  match w.entry with
  | some i => finish s i .success 0 0
  | none => s

/-! ## The switch of the active image -/

/-- Raise the rollback floors and mark every slot whose image now lies below them (R368). -/
def raiseFloors (s : State) (security : List Nat) : State :=
  let floors := (List.range 8).map (fun k => max (s.update.floors.getD k 0) (security.getD k 0))
  let s := { s with update := { s.update with floors := floors, activeSec := security } }
  { s with update := { s.update with slots := s.update.slots.map (fun p =>
      if p.2.state = 1 ∧ belowFloor s p.2.security then (p.1, { p.2 with state := 2 }) else p) } }

/-- The steward part that runs. -/
def stewardPart (u : Update) : Nat :=
  let x := if u.scratch = 2 then u.scratchImage else tget u.slots u.active
  ((x.map (fun x => x.digests)).getD []).getD 0 0

/-- A change of the steward part empties the translation cache (R225). -/
def emptyCache (s : State) : State :=
  { s with compute := { s.compute with
      cache := []
      programs := s.compute.programs.map (fun p => if p.2.state = 2 then (p.1, { p.2 with state := 3 }) else p) } }

/-- The image that an activation or a start takes for a slot: the one staged in scratch for the active slot, else the slot's. -/
def stagedFor (u : Update) (k : Nat) : Option Image :=
  if u.scratch = 1 ∧ u.pending = k ∧ k = u.active then u.scratchImage else tget u.slots k

/-- Can the image that a start or an activation takes for a slot run: it is whole, for a slot whose write was cut is never bootable (R370),
and no part of it lies below its floor (R368). -/
def bootable (s : State) (k : Nat) : Bool :=
  match stagedFor s.update k with
  | some x => decide (x.state ≠ 3) && !belowFloor s x.security
  | none => false

/-- The SWITCH record (R376): the image of slot `k` becomes active, the floors rise, its pending mark is gone; an image staged in
scratch becomes the source of the slot until it is copied (R377). -/
def switchTo (s : State) (k : Nat) : State :=
  match stagedFor s.update k with
  | none => s
  | some img =>
    let old := stewardPart s.update
    let fromScratch := s.update.scratch = 1 ∧ s.update.pending = k ∧ k = s.update.active
    let s := raiseFloors s img.security
    let u := { s.update with active := k, pending := if s.update.pending = k then 0 else s.update.pending, switched := true }
    let u := if fromScratch then
        { u with scratch := 2, copied := 0, copySlot := k, phase := 4, slots := tmod u.slots k img (fun x => { x with state := 3 }) }
      else u
    let s := { s with update := u, ident := { s.ident with patch := img.version % 65536 } }
    let s := if img.digests.getD 0 0 = old then s else emptyCache s
    if fromScratch then await s (jobReq 0x10 k 3 0) else s

/-- The last part of a copy from scratch is journalled (R377): the slot is the source, and scratch empties. -/
def endCopy (s : State) : State :=
  match s.update.scratchImage with
  | none => s
  | some img =>
    let s := { s with update := { s.update with
      slots := tput s.update.slots s.update.copySlot { img with state := 1 }, scratch := 0, scratchImage := none, copied := 0
      phase := if s.update.phase = 4 then 0 else s.update.phase } }
    ((s.tally.entries.filter (fun p => match p.2.origin with | .internal 0x10 _ => true | _ => false)).map (fun p => p.1)).foldl
      freeFamily s

/-! ## Entries through the pause -/

/-- Does an entry wait for a paused peer (R305); it stays HELD past this drive's own pause. -/
def heldForPeer (s : State) (i : Nat) : Bool := s.fabric.originated.any (fun o => o.entry = i && o.heldUntil.isSome)

/-- Does an entry go HELD in an activation pause (R371, Table 4.17): host commands but the Firmware Commit, requests served for peers,
INTERNAL work, chunks not dispatched. Contexts are shelved instead, and requests of this member wait for their peers. -/
def heldByPause (s : State) (e : Entry) : Bool :=
  match e.origin with
  | .host sq cid => s.update.commit ≠ some (sq, cid) && e.state ≠ .replying
  | .fabric _ _ => e.unit ≠ 255
  | .internal _ _ => true
  | .stream _ _ => !e.dispatched
  | .search _ _ _ => false

/-- Entries go HELD as the drive enters PAUSED (R371). -/
def holdEntries (s : State) : State :=
  { s with tally := { s.tally with entries := s.tally.entries.map (fun p =>
      if heldByPause s p.2 then (p.1, { p.2 with state := .held }) else p) } }

/-- The state that a HELD entry goes on in: ADMITTED, or where its work had begun WAITING on its children, or RUNNING. -/
def resumedState (s : State) (i : Nat) (e : Entry) : EState :=
  if !e.dispatched then .admitted
  else if s.tally.entries.any (fun p => p.2.parent = some i) then .waiting
  else .running

/-- HELD entries go on after the pause (R374). -/
def resumeEntries (s : State) : State :=
  { s with tally := { s.tally with entries := s.tally.entries.map (fun p =>
      if p.2.state = .held ∧ heldForPeer s p.1 = false then (p.1, { p.2 with state := resumedState s p.1 p.2 }) else p) } }

/-- Every placed context is to be shelved: one that runs at its next yield point, any other at once (R371). -/
def shelveAll (s : State) : State :=
  (s.sifters.searches.flatMap (fun q => q.contexts.map (fun c => (q.entry, c)))).foldl (fun s x =>
    if x.2.st = .shelved then s
    else if x.2.st = .running then contextMod s x.1 x.2.entry (fun c => { c with leave := true })
    else shelve s x.1 x.2) s

/-- Every erase is to be suspended (R372). -/
def suspendErases (s : State) : State :=
  { s with flash := { s.flash with dies := s.flash.dies.map (fun p =>
      if p.2.st = .erasing then (p.1, { p.2 with suspendAsked := true }) else p) } }

/-- The resume bell of an activation (R304, R378). -/
def pauseResume (s : State) (start : Nat) : Nat := start + 2 + ceilDiv 120000 (periodUs s)

/-- A member floods PAUSED at the start of an activation (R378): one that is PAUSED already before the device's own transition does it
here, with the new resume bell. -/
def announcePause (s : State) (resume : Nat) : State :=
  if s.fabric.member = .paused then
    let s := { s with fabric := { s.fabric with resumeBell := resume } }
    flood s none .paused [s.fabric.memberId, s.fabric.epoch, resume]
  else s

/-! ## Controller-level resets -/

/-- A controller-level reset (R359, R360), the host wake that it is, and the activation of a pending image that follows it (R370). -/
def controllerLevel (s : State) (kind : Nat) : State :=
  let s := wakeEvent (controllerReset s kind) 1
  if s.update.pending = 0 ∨ s.dev.state = .fault ∨ s.update.requested.isSome ∨ activating s ∨ !bootable s s.update.pending then s
  else { s with update := { s.update with requested := some s.update.pending, commit := none, phase := 1 } }

end Sys2Proof.Machine
end

