-- ==== Sys2Proof/Machine/Chime.lean ====
section
/-!
DEFINITION. The chime boundary (R20): the completions that are due, the parts of reservations that have ended, admission, the work that
starts, command fetch, the steward's service, the amendment of the plan and the plan for the next bell, and the values sampled there.
-/

namespace Sys2Proof.Machine

open Host (Outcome)

/-! ## Freezes -/

/-- Queues opened at an earlier boundary are fetched from again; QUIET queues that a Thaw waits for open (R104). -/
def thawQueues (s : State) : State :=
  let sqs : Table Sq := s.host.sqs.map (fun p => (p.1, { p.2 with justOpened := false }))
  let s := { s with host := { s.host with sqs := sqs } }
  ((s.host.sqs.filter (fun p => p.2.freeze = .quiet && p.2.thaws ≠ [])).map (fun p => p.1)).foldl openQueue s

/-! ## The planner over the looms (R70, R71, R343) -/

/-- Work for the looms in the order of R32. -/
def loomOrder (ws : List LoomWork) : List LoomWork :=
  sortBy (fun (a b : LoomWork) => before (a.entry, a.e) (b.entry, b.e)) ws

/-- Amend the plan of the bell with one piece of work, for the boundary `start` (R71), where the energy budget takes it. -/
def amendOne (start : Nat) (s : State) (w : LoomWork) : State :=
  if !stillWaits s w then s
  else match amendLoom s start w with
    | none => s
    | some t => if affords s w.entry then charge t w.entry else defer s w.entry

/-- Amend the plan of the bell with what waits for a loom (R71). -/
def amendLooms (start : Nat) (ws : List LoomWork) (s : State) : State := (loomOrder ws).foldl (amendOne start) s

/-- The work of Loom Direct entries that the boundary before admitted: their descriptors have been read since, and the amendment of that
boundary places them, for this one (DEDUCED from R71 and Table 7.13, log entry 18). -/
def freshDirects (s : State) : List LoomWork := (loomWork s).filter (fun w => w.holder = 2 && w.e.admitChime + 1 = chimeNow s)

/-- Put one piece of work into the plan for the next bell (R70). -/
def planOne (s : State) (w : LoomWork) : State := if stillWaits s w then (planLoom s w).getD s else s

/-- The steward fixes the plan for the next bell at the boundary that OD 0x2080 gives (R70). -/
def fixPlan (s : State) : State :=
  if s.bell.chime ≠ odVal s 0x2080 0 + 1 then s else planDies ((loomOrder (loomWork s)).foldl planOne s)

/-! ## What has ended since the last boundary -/

/-- A flash read that has brought all that it asked for goes on (R447). -/
def resumeJob (s : State) (j : ReadJob) : State :=
  if !s.flash.jobs.contains j then s
  else match j.use with
    | .host => hostReadDone s j
    | .staged inv => stagedDone s inv j
    | .get => getDone s j
    | .load sid => loadDone s sid j
    | .mount slot => mountDone s slot j
    | .context => contextRead s j
    | .merge _ => s
    | .copy k => copyReadDone s k j
    | .scrub k => scrubDone s k j

/-- Every such read. Those of merges go on as writes are staged. -/
def resumeJobs (s : State) : State := (s.flash.jobs.filter (fun j => j.wants = [] && j.pages = [])).foldl resumeJob s

/-- A gang one chime later (R201): its cycles without progress rise while it has ready lanes; only whole chimes count. -/
def Gang.chime (cycles : Nat) (g : Gang) : Gang :=
  if g.quietFresh then { g with quietFresh := false } else if readyLanes g = [] then g else { g with quiet := g.quiet + cycles }

/-- The gangs at a chime boundary. -/
def gangsChime (s : State) : State :=
  { s with compute := { s.compute with cores := s.compute.cores.map (fun c =>
      (c.1, { c.2 with gangs := c.2.gangs.map (fun g => (g.1, g.2.chime (chimeCycles s))) })) } }

/-- A Sanitize in progress ends at a chime boundary that a free value names (R402). -/
def sanitizeTick (s : State) : State :=
  if s.keys.sanitize = 0 then s
  else
    let (f, s) := drawFree s
    if f % 2 = 0 then s
    else
      let i := s.keys.sanitizeEntry
      let s := { s with keys := { s.keys with sanitize := 0, sanitizeEntry := none } }
      match i with
      | some i => finish s i .success 0 0
      | none => s

/-- The first of the slot writes in progress ends at a chime boundary that a free value names (R370); none goes on in a pause. -/
def slotWriteTick (s : State) : State :=
  match s.update.writing with
  | [] => s
  | w :: rest =>
    if s.dev.state = .paused then s
    else
      let (f, s) := drawFree s
      if f % 2 = 0 then s else endSlotWrite s w rest

/-! ## The boundary -/

/-- The values that the spec calls sampled (R34's tables, R325). -/
def sampleAll (s : State) : State :=
  { s with sampled := ⟨s.tally, s.units, s.flash, s.ledger, s.compute, s.streams, s.sifters, s.fabric, s.power, s.keys, s.counters,
      s.milny.cap, limitAndTerm s, sampleImage s⟩ }

/-- What has ended by this boundary: what the ports have sent, members lost, work that is stopped, parks, loads, and the completions that are due (R447). -/
def endsDue (s : State) : State := postAll (commitEnded (endLoads (parkTick (stopWork (settleLost (expiryTick (thawQueues (portsChime s))))))))

/-- What starts at this boundary (R68, R69, R71, R446): steps, reads and searches whose time has come ask for their entries; admission
follows, and with it what can start. -/
def startsDue (s : State) : State :=
  let s := amendLooms (chimeNow s - 1) (freshDirects s) (channelTick s)
  let s := admitWaiting (startSearches (prepareReads (loomsDue s)))
  placeContexts (((sortBy before s.tally.entries).map (fun p => p.1)).foldl placeFlash s)

/-- What is done where nothing is placed and nothing starts (R347, R371): in thermal hold what has been read still goes on. -/
def holdWork (s : State) : State :=
  let s := admitWaiting (channelTick (dropDiePlans (dropPlaced s)))
  if s.dev.state = .paused then s else resumeJobs (gangsChime s)

/-- The amendment of the plan (R71) for the next boundary, where it lies in this bell, and the plan for the next bell (R70); TICKETs that
wait issue first. -/
def amendPlan (s : State) : State :=
  let s := retryTickets s
  fixPlan (if s.bell.chime = 8 then s else amendLooms (chimeNow s) (loomWork s) s)

/-- The ledger's own work and the erases at a boundary. -/
def mediaWork (s : State) : State := ledgerTick (stageAll (eraseLocks s))

/-- The services of the drive that work at every boundary: records, command fetch, the steward. -/
def serviceWork (s : State) : State := rejectUnlisted (serveQueue (answersReady (fetchCommands (storeRecords s))))

/-- What the main domain does at a chime boundary. -/
def chimeWork (s : State) : State :=
  let s := endsDue s
  let s :=
    if s.dev.state = .paused || s.power.hold then serviceWork (holdWork s)
    else mediaWork (amendPlan (serviceWork (resumeJobs (startsDue (gangsChime s)))))
  sampleAll (postEvents (idleTick (slotWriteTick (sanitizeTick (prepare (sendProbes s))))))

/-- CHIME_BOUNDARY (R20): the next of the eight boundaries of this bell. -/
def execChimeBoundary (s : State) : Outcome State Fault Refusal :=
  if !s.rails.alwaysOn || decide (8 ≤ s.bell.chime) then .next s
  else
    let s := { s with bell := { s.bell with chime := s.bell.chime + 1 } }
    .next (if stopped s then expiryTick s else chimeWork s)

end Sys2Proof.Machine
end

