-- ==== Sys2Proof/Machine/Device.lean ====
section
/-!
DEFINITION. The object dictionary's commands and the device states (chapter 2): reads and writes through the tunnel, the pen,
writes taking effect, state requests, the linger and the drain. A command that writes one object of its own goes the way of
every write (R39): through the tunnel or the side-band service that `via` names.
-/

namespace Sys2Proof.Machine

open Host (Outcome)

/-- OD_READ (R40, R58, R59). -/
def execOdRead (h : HostId) (idx sub : Nat) (allsub : Bool) (off len : Nat) (s : State) : Outcome State Fault Refusal :=
  .next (tunnel s h 0 (.read idx sub allsub off len))

/-- OD_WRITE (R39, R41, R58, R59). -/
def execOdWrite (h : HostId) (idx sub : Nat) (allsub : Bool) (serial : Nat) (data : Bytes) (s : State) :
    Outcome State Fault Refusal :=
  .next (tunnel s h serial (.write idx sub allsub data))

/-- PEN_TAKE (R52, R53). -/
def execPenTake (h : HostId) (force : Bool) (s : State) : Outcome State Fault Refusal := .next (tunnel s h 0 (.take force))

/-- PEN_GIVE (R57). -/
def execPenGive (h : HostId) (serial : Nat) (s : State) : Outcome State Fault Refusal := .next (tunnel s h serial .give)

/-- WRITE_APPLY (R41): at a bell edge every write accepted before it is applied in service order and answered. A fault transition that
a state request went before (R47) is made after it, where the request made none. -/
def execWriteApply (s : State) : Outcome State Fault Refusal :=
  if stopped s || !atEdge s then .next s else .next (settleFault (applyWrites s))

/-- PEN_IDLE_TIMEOUT (R55): at a bell edge the idle count of a held pen has reached OD 0x1022. Nothing in FROZEN. -/
def execPenIdleTimeout (s : State) : Outcome State Fault Refusal :=
  match s.pen.holder with
  | none => .next s
  | some m =>
    if stopped s || !atEdge s || decide (s.pen.idleUs < 1000 * odVal s 0x1022 0) then .next s
    else .next (releasePen (raiseRecord s { Record.of 0x0202 with loser := partyOf m, b := s.pen.serial }))

/-- STATE_REQUEST_CONFIG (R47): a write of 2 to OD 0x1011. -/
def execStateRequestConfig (v : Via) (s : State) : Outcome State Fault Refusal := .next (writeVia s v 0x1011 0 [2])

/-- STATE_REQUEST_RUN (R47): a write of 3 to OD 0x1011. -/
def execStateRequestRun (v : Via) (s : State) : Outcome State Fault Refusal := .next (writeVia s v 0x1011 0 [3])



/-- CONFIG_LINGER_EXPIRED (R50): the pen has been free in CONFIG for OD 0x1012 ms. -/
def execConfigLingerExpired (s : State) : Outcome State Fault Refusal :=
  if s.dev.state = .config && s.pen.holder.isNone && decide (1000 * odVal s 0x1012 0 ≤ s.dev.lingerUs) && ownMove s
  then .next (goTo s .run 4 0) else .next s

/-- Does an entry hold a drain towards CONFIG (R48). -/
def holdsDrain (e : Entry) : Bool :=
  match e.origin with
  | .host sq _ => decide (sq ≠ 0)
  | .internal _ _ => false
  | _ => true

/-- DRAIN_COMPLETE (R48): the first edge after the one that started the drain at which no entry holds it. -/
def execDrainComplete (s : State) : Outcome State Fault Refusal :=
  if s.dev.state = .drain && !s.dev.drainForActivation && decide (s.dev.drainBell < s.bell.ticks) && ownMove s
    && !s.tally.entries.any (fun p => holdsDrain p.2)
  then .next (goTo s .config 5 0) else .next s

/-- TALLY_QUOTA_WRITE (R24). -/
def execTallyQuotaWrite (v : Via) (ceiling : Bool) (sub value : Nat) (s : State) : Outcome State Fault Refusal :=
  .next (writeVia s v (if ceiling then 0x2041 else 0x2040) sub (leBytes 4 value))

/-- BELL_PERIOD_WRITE (R66). -/
def execBellPeriodWrite (v : Via) (code : Nat) (s : State) : Outcome State Fault Refusal :=
  .next (writeVia s v 0x2001 0 (leBytes 1 code))

/-- THRESHOLD_PIN_WRITE (R128): OD 0x2210, or an offset of OD 0x2211. -/
def execThresholdPinWrite (v : Via) (idx sub : Nat) (value : Int) (s : State) : Outcome State Fault Refusal :=
  .next (writeVia s v idx sub (leBytes 1 (ofInt 8 value)))

/-- RATE_PIN_WRITE (R277, R278): OD 0x2911.(p+1). -/
def execRatePinWrite (v : Via) (port value : Nat) (s : State) : Outcome State Fault Refusal :=
  .next (writeVia s v 0x2911 (port + 1) (leBytes 1 value))

/-- PORT_MODE_WRITE (R276, R281): OD 0x2910.(p+1). -/
def execPortModeWrite (v : Via) (port value : Nat) (s : State) : Outcome State Fault Refusal :=
  .next (writeVia s v 0x2910 (port + 1) (leBytes 1 value))

/-- The ALLSUB layout of a window (Table 12.8): kind, rights, NSID, base, length. -/
def windowLayout (f : List Nat) : Bytes :=
  leBytes 4 (f.getD 0 0) ++ leBytes 4 (f.getD 1 0) ++ leBytes 4 (f.getD 2 0) ++ leBytes 8 (f.getD 3 0) ++ leBytes 8 (f.getD 4 0)

/-- WINDOW_WRITE (R293, R296): OD 0x2940+w as a whole. -/
def execWindowWrite (v : Via) (window : Nat) (fields : List Nat) (s : State) : Outcome State Fault Refusal :=
  .next (writeAllVia s v (0x2940 + window) (windowLayout fields))

/-- HANDOFF_HANDLE_WRITE (R297): OD 0x2920.h. -/
def execHandoffHandleWrite (v : Via) (handle value : Nat) (s : State) : Outcome State Fault Refusal :=
  .next (writeVia s v 0x2920 handle (leBytes 8 value))

/-- POWER_FLOOR_WRITE (R337, R339): OD 0x2A11 or OD 0x2A10. -/
def execPowerFloorWrite (v : Via) (memoryPermit : Bool) (value : Nat) (s : State) : Outcome State Fault Refusal :=
  .next (writeVia s v (if memoryPermit then 0x2A11 else 0x2A10) 0 (leBytes 1 value))

/-- HOST_CAP_WRITE (R342, R348): OD 0x2A02.01. -/
def execHostCapWrite (v : Via) (value : Nat) (s : State) : Outcome State Fault Refusal :=
  .next (writeVia s v 0x2A02 1 (leBytes 2 value))

/-- RESET_REQUEST_WARM (R350, R356): 1 to OD 0x2B01. -/
def execResetRequestWarm (v : Via) (s : State) : Outcome State Fault Refusal := .next (writeVia s v 0x2B01 0 [1])

/-- RESET_REQUEST_COLD (R352): 2 to OD 0x2B01. -/
def execResetRequestCold (v : Via) (s : State) : Outcome State Fault Refusal := .next (writeVia s v 0x2B01 0 [2])

/-- RESET_REQUEST_GUILD (R365): 3 to OD 0x2B01. -/
def execResetRequestGuild (v : Via) (s : State) : Outcome State Fault Refusal := .next (writeVia s v 0x2B01 0 [3])

/-- STICKY_RECORD_CLEAR (R384): true to OD 0x5100+i.01. -/
def execStickyRecordClear (v : Via) (slot : Nat) (s : State) : Outcome State Fault Refusal :=
  .next (writeVia s v (0x5100 + slot) 1 [1])

/-- CLEAR_THROUGH (R384): OD 0x5001. -/
def execClearThrough (v : Via) (seq : Nat) (s : State) : Outcome State Fault Refusal :=
  .next (writeVia s v 0x5001 0 (leBytes 8 seq))

/-- COUNTER_CLEAR (R389). -/
def execCounterClear (v : Via) (idx sub value : Nat) (s : State) : Outcome State Fault Refusal :=
  .next (writeVia s v idx sub (leBytes 4 value))

/-- DISCARD_SNAPSHOT (R395): true to OD 0x7001. -/
def execDiscardSnapshot (v : Via) (s : State) : Outcome State Fault Refusal := .next (writeVia s v 0x7001 0 [1])

/-- MEMBER_CERTIFICATE_WRITE (R403): OD 0x2C22. -/
def execMemberCertificateWrite (v : Via) (cert : Nat) (s : State) : Outcome State Fault Refusal :=
  .next (writeVia s v 0x2C22 0 (leBytes 256 cert))

/-- KERNEL_KEY_WRITE (R409): OD 0x2C02.(slot+1). -/
def execKernelKeyWrite (v : Via) (slot key : Nat) (s : State) : Outcome State Fault Refusal :=
  .next (writeVia s v 0x2C02 (slot + 1) (leBytes 97 key))

end Sys2Proof.Machine
end

