-- ==== Sys2Proof/Machine/Edge.lean ====
section
/-!
DEFINITION. The bell edge (R65): everything that the block does because a bell edge passes. Writes, transitions and other work that
an edge allows are commands of their own.
-/

namespace Sys2Proof.Machine

open Host (Outcome)

/-! ## The bell keeper -/

/-- The symbol that BELL_OUT sends for the bell of count `n` (R82): 2 the marker, else the bit sent. -/
def bellSymbol (n : Nat) : Nat :=
  let m := n % 64
  if m = 0 then 2 else if m ≤ 58 then (if bit (n - m) (m + 5) then 1 else 0) else 0

/-- A bell source one bell later (R75). -/
def SourceSt.tick (x : SourceSt) : SourceSt := if x.qualified then { x with bells := x.bells + 1 } else x

/-- The trim of R79 in ppb: 0.01 ppm a unit, within ±50 ppm. -/
def trimPpb (trim : Int) : Int := 10 * max (-5000) (min 5000 trim)

/-- The count, the time, the sources and the trim at an edge (R65, R75, R76, R77, R79): `ns` is the length of the bell that ends, and
`slew` what of it was slewed, in ps. -/
def keeperTick (ns : Nat) (slew : Int) (b : Bell) : Bell :=
  let trim := b.trimPending.getD b.trim
  { b with
    count := (b.count + 1) % 2 ^ 64
    ticks := b.ticks + 1
    edgeNs := b.edgeNs + ns
    chime := 0
    trim := trim
    trimPending := none
    freq := if b.align = .free then trimPpb trim else b.freq
    phase := b.phase - slew
    slewPs := b.slewPs - slew
    bellIn := b.bellIn.tick
    guild := b.guild.tick
    guildSince := if b.guild.qualified then b.guildSince + 1 else 0
    holdover := if b.align = .holdover then b.holdover + 1 else b.holdover }

/-- The edge of the keeper (R65), of a stretched bell the one at which the step is made (R77). -/
def keeperAdvance (s : State) : State :=
  let slew := slewStep s
  let was := s.bell.step
  let s := { s with bell := keeperTick ((periodNs s : Int) + slew / 1000).toNat slew s.bell }
  match was with
  | some (stretch, new) => loadStep s stretch new
  | none => s

/-- BELL_OUT sends the edge while OD 0x2006 is true (R83). -/
def bellOutTick (s : State) : State := if odVal s 0x2006 0 = 1 then emit s (.bellOut (bellSymbol s.bell.count)) else s

/-- What the always-on domain does at a bell edge, FROZEN included: count, sources, BELL_OUT, the measurement of a followed
BELL_IN (R80, R83) and the cap of the output image (R323). -/
def keeperEdge (s : State) (bellInPs : Option Int) : State :=
  let s := keeperAdvance { s with milny := { s.milny with cap := s.milny.capPending.getD s.milny.cap, capPending := none } }
  let s := bellOutTick s
  match bellInPs with
  | some ps => if s.bell.followed = 1 then measure s (ps - 1000 * (odVal s 0x2007 0 : Int)) else s
  | none => s

/-! ## The tally -/

/-- AGE and PROMOTED of an entry at an edge (R27, R28). -/
def Entry.tick (promoteAt : Nat) (e : Entry) : Entry :=
  let age := sat 16 (e.age + 1)
  { e with age := age, promoted := e.promoted || (decide (2 ≤ e.cls) && decide (promoteAt ≤ age)) }

/-- The record of an entry whose AGE first reaches 65,535 (R27). -/
def noteAged (s : State) (p : Nat × Entry) : State :=
  if p.2.age = 65534 then
    raiseRecord s { Record.of 0x0101 with unit := some p.2.unit, hasEntry := true, a := ({ p.2 with age := 65535 } : Entry).pack }
  else s

/-- Ageing at an edge (R27, R28). -/
def ageAll (s : State) : State :=
  let s := s.tally.entries.foldl noteAged s
  let at_ := odVal s 0x2044 0
  { s with tally := { s.tally with entries := s.tally.entries.map (fun p => (p.1, p.2.tick at_)) } }

/-! ## Overruns -/

/-- A unit whose bell task crossed this edge (R73, R74): the first edge is the overrun; the unit is withdrawn from the plan until the
task ends. -/
def crossEdge (s : State) (o : Nat × Nat) : State :=
  if !unitPresent s o.1 then s
  else
    let first := decide ((unitOf s o.1).crossed = 0)
    let s := unitMod s o.1 (fun x => { x with crossed := x.crossed + 1, withdrawn := true })
    if first then
      let s := bellLog (count s (0x6100 + o.1) 1 1) 1 o.1 0 0 o.2
      { s with bell := { s.bell with overUnit := o.1, overBell := s.bell.count, overLate := o.2 } }
    else s

/-- The bell tasks at an edge (R72 to R74): a late plan, of which nothing comes into force, the tasks that crossed the edge, and units whose
task did not. -/
def overrunTick (s : State) (overruns : List (Nat × Nat)) (planLateNs : Nat) : State :=
  let s := if planLateNs = 0 then s
    else bellLog (dropDiePlans ((s.compute.looms.map (fun p => p.1)).foldl dropPlan s)) 3 0 0 0 planLateNs
  let s := { s with units := s.units.map (fun p =>
    if overruns.any (fun o => o.1 = p.1) then p else (p.1, { p.2 with crossed := 0, withdrawn := false })) }
  overruns.foldl crossEdge s

/-! ## The new bell -/

/-- The energy budget of a new bell (R343): how many placements it takes is a free value, for the spec gives no energies. -/
def drawBudget (s : State) : State :=
  let (f, s) := drawFree s
  { s with power := { s.power with budget := f, urgentBudget := f, deferred := [] } }

/-- Write credit at an edge, and the writes that it lets in (R147); nothing is let in during a pause. -/
def creditTick (s : State) : State :=
  let s := accrueCredit s
  if s.dev.state = .paused then s else stageAll s

/-! ## Times counted in bells -/

/-- A count of µs at an edge: the rest of the bell in which it began is not a whole bell and does not count. -/
def countUs (fresh : Bool) (us n : Nat) : Nat := if fresh then n else n + us

/-- The power ladder one bell later (R337, R345, R349). -/
def Power.tick (p : Power) (us : Nat) (idle : Bool) : Power :=
  { p with
    idleUs := if idle then countUs p.idleFresh us p.idleUs else 0
    idleFresh := !idle
    rearBells := if p.rearWas then min 25000 (p.rearBells + 1) else p.rearBells }

/-- The idle count of the pen (R55), the linger (R50), APST idle time, rear 12 V and the temperature times at an edge. -/
def timesTick (s : State) : State :=
  let us := periodUs s
  let lingers := s.dev.state = .config && s.pen.holder.isNone
  { s with
    pen := { s.pen with idleUs := if s.pen.holder.isSome then countUs s.pen.idleFresh us s.pen.idleUs else s.pen.idleUs, idleFresh := false }
    dev := { s.dev with lingerUs := if lingers then countUs s.dev.lingerFresh us s.dev.lingerUs else s.dev.lingerUs, lingerFresh := false }
    power := s.power.tick us (hostIdle s)
    host := { s.host with
      warnUs := if 90 ≤ s.power.composite then s.host.warnUs + us else s.host.warnUs
      critUs := if 100 ≤ s.power.composite then s.host.critUs + us else s.host.critUs } }

/-- Bells throttling and in thermal hold (OD 0x6013). -/
def thermalTick (s : State) : State :=
  match thermalState s.power (limitAndTerm s).2 with
  | 1 => count s 0x6013 1 1
  | 2 => count s 0x6013 2 1
  | _ => s

/-- The map comes back from the cellar in PS0, as an INTERNAL job of CLASS 3 (R340, Table 16.7); how much of it in a bell is a free
value. -/
def mapTick (s : State) : State :=
  if s.power.inForce ≠ 0 ∨ s.power.waking ∨ 1000 ≤ s.power.mapResident then s
  else match jobEntry s 0x11 0 with
    | none => askOnce s 0x11 0 3
    | some i =>
      let (f, s) := drawFree s
      let s := { s with power := { s.power with mapResident := s.power.mapResident + f % (1001 - s.power.mapResident) } }
      if 1000 ≤ s.power.mapResident then freeFamily s i else s

/-! ## Ports and looms -/

/-- A port that is UP one bell later (R277, R278). -/
def Port.tick (x : Port) : Port := { x with alive := x.alive + 1, fastBells := x.fastBells + 1, badFlits := 0 }

/-- ALIVE at an edge: the bells at which it is sent are a free choice, every 32nd among them. -/
def aliveTick (s : State) : State :=
  if upPorts s = [] then s
  else
    let (f, s) := drawFree s
    if s.bell.count % 32 = 0 ∨ f % 2 = 1 then flood s none .alive [] else s

/-- The ports at an edge. -/
def portsTick (s : State) : State := aliveTick ((upPorts s).foldl (fun s p => portMod s p Port.tick) s)

/-- A loom at an edge (R70, R71, R184, R343): one without a step is free for any kernel in the new bell. What was placed for the old bell
and has not started waits again, and what the plan has on the loom is placed for its first chime, where the unit has not been withdrawn
and the energy budget takes it. -/
def loomEdge (s : State) (l : Nat) : State :=
  let s := dropNext s l
  let s := loomMod s l (fun x => if x.step.isNone then { x with holder := 0, holderEntry := 0, holderUid := 0 } else x)
  match (loomOf s l).plan with
  | none => s
  | some p =>
    if !unitOpen s (8 + l) then dropPlan s l
    else if affords s p.entry then charge (loomMod s l (fun x => { x with next := some p, plan := none })) p.entry
    else dropPlan (defer s p.entry) l

/-- The looms at an edge: the planned ones first, in the order of R32. -/
def loomsTick (s : State) : State :=
  let planned := s.compute.looms.filterMap (fun x => x.2.plan.bind (fun p => (entryAt s p.entry).map (fun e => (x.1, p.entry, e))))
  let first := (sortBy (fun (a b : Nat × Nat × Entry) => before a.2 b.2) planned).map (fun x => x.1)
  (first ++ (s.compute.looms.map (fun x => x.1)).filter (fun l => !first.contains l)).foldl loomEdge s

/-- What the log pages read (R445). -/
def copyEdge (s : State) : State :=
  { s with edge := ⟨s.bell.count, odVal s 0x2001 0, s.bell, s.host, s.sticky, s.fabric, s.compute, s.flash, s.ledger, s.power, s.update⟩ }

/-! ## The edge -/

/-- What the main domain does at a bell edge. -/
def mainEdge (s : State) (overruns : List (Nat × Nat)) (planLateNs : Nat) : State :=
  let s := drawBudget (overrunTick (ageAll s) overruns planLateNs)
  let s := timesTick (creditTick (diesTick (loomsTick s)))
  let s := portsTick (mapTick (thermalTick (checkCaps s)))
  copyEdge (settleFault (chooseTarget s))

/-- BELL_EDGE (R65). `overruns` are the units whose bell task crossed the edge, with their lateness in ns; `planLateNs` is not 0 where
the plan was late; `bellInPs` is the phase measured against a followed BELL_IN. -/
def execBellEdge (overruns : List (Nat × Nat)) (planLateNs : Nat) (bellInPs : Option Int) (s : State) : Outcome State Fault Refusal :=
  if !s.rails.alwaysOn then .next s
  else
    let s := keeperEdge s bellInPs
    .next (if stopped s then s else mainEdge s overruns planLateNs)

end Sys2Proof.Machine
end

