-- ==== Sys2Proof/Machine/GangCtl.lean ====
section
/-!
DEFINITION. The control operations of gang code (Table 9.12, opcodes 0x50 to 0x5B): branches and reconvergence (R198, R199,
R234), barriers (R202), tickets (R205, R206), PULSE, EXIT, TRAP and NOP.
-/

namespace Sys2Proof.Machine

open Host (Outcome)

/-! ## Branches -/

/-- Note a divergence in the history of some lanes (R199); one that repeats the last is not noted twice. -/
def noteSplit (g : Gang) (lanes : List Nat) (x : Split) : Gang :=
  { g with splits := lanes.foldl (fun t i => tmod t i [] (fun h => if h.head? = some x then h else x :: h)) g.splits }

/-- A branch of the issuing lanes of which `taking` jump. In CONVERGE mode, where they disagree, the reconvergence point is
pushed and the fall-through lanes run first; a push beyond 32 entries faults with DIVERGE_DEPTH (R198, R234). In PROGRESS mode they
go on as two splinters (R199). -/
def branchLanes (s : State) (ref : GangRef) (v : Invocation) (g : Gang) (mask target point : Nat) (taking : List Nat) : State :=
  let falling := (lanesOf mask).filter (fun i => !taking.contains i)
  let at_ := lanePc g (lowLane mask)
  let h := advance (jumpLanes g taking target) falling
  if taking = [] || falling = [] then gangPut s ref h
  else if progressMode s v.program then
    gangPut s ref (noteSplit (noteSplit h taking ⟨point, at_, true⟩) falling ⟨point, at_, false⟩)
  else if 32 ≤ g.stack.length then faultGang s ref g 0x04 mask 0 0
  else gangPut s ref { h with active := maskOf falling, stack := ⟨point, maskOf taking, target, mask⟩ :: h.stack }

/-- BRA: all issuing lanes jump. -/
def execBra (g : GangRef) (target : Nat) (s : State) : Outcome State Fault Refusal :=
  .next (gangStep s g true (fun s v h mask =>
    if instrCount s v.program ≤ target then s else branchLanes s g v h mask target 0 (lanesOf mask)))

/-- BRZ: lanes with ra = 0 jump. -/
def execBrz (g : GangRef) (ra target reconv : Nat) (s : State) : Outcome State Fault Refusal :=
  .next (gangStep s g (decide (ra < 256)) (fun s v h mask =>
    if instrCount s v.program ≤ max target reconv then s
    else branchLanes s g v h mask target reconv ((lanesOf mask).filter (fun i => regAt h i ra = 0))))

/-- BRNZ: lanes with ra ≠ 0 jump. -/
def execBrnz (g : GangRef) (ra target reconv : Nat) (s : State) : Outcome State Fault Refusal :=
  .next (gangStep s g (decide (ra < 256)) (fun s v h mask =>
    if instrCount s v.program ≤ max target reconv then s
    else branchLanes s g v h mask target reconv ((lanesOf mask).filter (fun i => regAt h i ra ≠ 0))))

/-- RECONV: reconvergence point; no other effect. -/
def execReconv (g : GangRef) (s : State) : Outcome State Fault Refusal :=
  .next (gangStep s g true (fun s _ h mask => gangPut s g (advance h (lanesOf mask))))

/-! ## Barriers -/

/-- BAR: the issuing lanes arrive at the barrier of a scope and identifier (R202). -/
def execBar (g : GangRef) (scope ident : Nat) (s : State) : Outcome State Fault Refusal :=
  .next (gangStep s g (decide (scope ≤ 2) && decide (ident < 16)) (fun s v h mask =>
    if scope = 0 ∧ progressMode s v.program = false ∧ mask ≠ h.live then faultGang s g h 0x03 mask 0 ident
    else arriveBarrier s g h (lanesOf mask) scope ident))

/-! ## Tickets -/

/-- TICKET: exactly one active lane submits plan entry ra with the argument block at loft offset rb (R205, R215). With 4
tickets outstanding the lane blocks. -/
def execTicket (g : GangRef) (rd ra rb : Nat) (s : State) : Outcome State Fault Refusal :=
  .next (gangStep s g (decide (rd < 256) && decide (ra < 256) && decide (rb < 256)) (fun s v h mask =>
    match lanesOf mask with
    | [lane] =>
      let plan := (regAt h lane ra).toNat
      let at_ := (regAt h lane rb).toNat
      match ticketFault s h v lane plan at_ with
      | some f => faultWith s g h f
      | none =>
        if 4 ≤ h.outstanding.length then gangPut s g { h with blocked := tput h.blocked lane ⟨4, rd, ra, rb, 0⟩ }
        else takeTicket s g h v lane rd plan at_
    | lanes => faultGang s g h 0x08 mask 0 lanes.length))

/-- The state that WAIT or POLL finds for a ticket number. A number that names no ticket has no stated result: a free
value. -/
def foundState (s : State) (v : Invocation) (n lane : Nat) : Nat :=
  match ticketNo v n with
  | some t => t.state
  | none => Config.freeValue (s.free + lane)

/-- Does a lane's WAIT have to block: its ticket has not ended. -/
def mustWait (v : Invocation) (n : Nat) : Bool :=
  match ticketNo v n with
  | some t => t.state = 0
  | none => false

/-- WAIT: block until ticket ra ends; rd = end state (R206). In CONVERGE mode lanes of one instruction go on together. -/
def execWaitOp (g : GangRef) (rd ra : Nat) (s : State) : Outcome State Fault Refusal :=
  .next (gangStep s g (decide (rd < 256) && decide (ra < 256)) (fun s v h mask =>
    let lanes := lanesOf mask
    let no (i : Nat) : Nat := (regAt h i ra).toNat
    let blocked := lanes.filter (fun i => mustWait v (no i))
    let done := lanes.filter (fun i => !mustWait v (no i))
    let k := done.foldl (fun k i => regPutNat k i rd (foundState s v (no i) i)) h
    let k := { k with blocked := blocked.foldl (fun t i => tput t i ⟨2, rd, 0, 0, no i⟩) k.blocked }
    let k :=
      if blocked ≠ [] && !progressMode s v.program then
        { k with blocked := done.foldl (fun t i => tput t i ⟨3, rd, 0, 0, no i⟩) k.blocked }
      else advance k done
    let k := if done = [] then k else progressed k
    releaseTickets (gangPut { s with free := s.free + 32 } g k) h.inv (done.map no)))

/-- POLL: rd = state of ticket ra, without blocking; an end state releases the number (R206). -/
def execPollOp (g : GangRef) (rd ra : Nat) (s : State) : Outcome State Fault Refusal :=
  .next (gangStep s g (decide (rd < 256) && decide (ra < 256)) (fun s v h mask =>
    let lanes := lanesOf mask
    let no (i : Nat) : Nat := (regAt h i ra).toNat
    let k := lanes.foldl (fun k i => regPutNat k i rd (foundState s v (no i) i)) h
    releaseTickets (gangPut { s with free := s.free + 32 } g (advance k lanes)) h.inv (lanes.map no)))

/-! ## Progress and ends -/

/-- PULSE: a progress event; no other effect. -/
def execPulse (g : GangRef) (s : State) : Outcome State Fault Refusal :=
  .next (gangStep s g true (fun s _ h mask => gangPut s g (progressed (advance h (lanesOf mask)))))

/-- EXIT: the issuing lanes exit with the value of ra. -/
def execExitOp (g : GangRef) (ra : Nat) (s : State) : Outcome State Fault Refusal :=
  .next (gangStep s g (decide (ra < 256)) (fun s _ h mask => exitLanes s g h mask (fun i => (regAt h i ra).toNat)))

/-- TRAP: the gang faults with TRAP, detail imm16. -/
def execTrapOp (g : GangRef) (imm : Nat) (s : State) : Outcome State Fault Refusal :=
  .next (gangStep s g (decide (imm < 65536)) (fun s _ h mask => faultGang s g h 0x0A mask 0 imm))

/-- NOP: no effect. -/
def execNopOp (g : GangRef) (s : State) : Outcome State Fault Refusal :=
  .next (gangStep s g true (fun s _ h mask => gangPut s g (advance h (lanesOf mask))))

end Sys2Proof.Machine
end

