-- ==== Sys2Proof/Machine/GangFp.lean ====
section
/-!
DEFINITION. The FP32 operations and conversions of gang code (Table 9.12, opcodes 0x20 to 0x28 and 0x30 to 0x35). Every
result is the FP32 word of an exact value rounded once to nearest with ties to even (R175, R232).
-/

namespace Sys2Proof.Machine

open Host (Outcome)

/-- The FP32 word of a value. -/
def fpWord (v : Fv) : Word := BitVec.ofNat 32 (f32Of v)

/-- An instruction on two FP32 sources with their modifiers (R232). -/
def gangFp2 (s : State) (ref : GangRef) (r : RFields) (f : Fv → Fv → Fv) : State :=
  gangAlu s ref r 15 true (fun a b _ => fpWord (f (fpA a r.modifier) (fpB b r.modifier)))

/-- An instruction on one FP32 source, whose modifiers are those of ra. -/
def gangFp1 (s : State) (ref : GangRef) (r : RFields) (f : Fv → Fv) : State :=
  gangAlu s ref r 5 true (fun a _ _ => fpWord (f (fpA a r.modifier)))

/-- Conversion between two formats of Table 7.4, through FP32 but for INT32 to INT32 and FP32 to FP32 (R176, R232). -/
def convertWord (src dst : Nat) (a : Word) : Word :=
  if src = 5 ∧ dst = 5 then a
  else BitVec.ofNat 32 (convertTo dst (f32Val (toF32 src (a.toNat % 2 ^ formatBits src)))).1

/-- FADD. -/
def execFadd (g : GangRef) (r : RFields) (s : State) : Outcome State Fault Refusal := .next (gangFp2 s g r fvAdd)

/-- FSUB. -/
def execFsub (g : GangRef) (r : RFields) (s : State) : Outcome State Fault Refusal :=
  .next (gangFp2 s g r (fun a b => fvAdd a (fvNeg b)))

/-- FMUL. -/
def execFmul (g : GangRef) (r : RFields) (s : State) : Outcome State Fault Refusal := .next (gangFp2 s g r fvMul)

/-- FFMA: ra × rb + rc, rounded once. -/
def execFfma (g : GangRef) (r : RFields) (s : State) : Outcome State Fault Refusal :=
  .next (gangAlu s g r 15 true (fun a b c =>
    fpWord (fvAdd (fvMul (fpA a r.modifier) (fpB b r.modifier)) (f32Val c.toNat))))

/-- FMIN: NaN if either source is NaN; −0 below +0. -/
def execFmin (g : GangRef) (r : RFields) (s : State) : Outcome State Fault Refusal := .next (gangFp2 s g r fvMin)

/-- FMAX. -/
def execFmax (g : GangRef) (r : RFields) (s : State) : Outcome State Fault Refusal := .next (gangFp2 s g r fvMax)

/-- FCMP: rd = 1 if the condition of modifier [2:0] holds, else 0. -/
def execFcmp (g : GangRef) (r : RFields) (s : State) : Outcome State Fault Refusal :=
  .next (gangAlu s g r 7 (decide (r.modifier % 8 < 6)) (fun a b _ =>
    if fcmpHolds (r.modifier % 8) (f32Val a.toNat) (f32Val b.toNat) then 1 else 0))

/-- FRND: round ra to an integral FP32 by modifier [1:0]. -/
def execFrnd (g : GangRef) (r : RFields) (s : State) : Outcome State Fault Refusal :=
  .next (gangAlu s g r 3 true (fun a _ _ => fpWord (fvRound (r.modifier % 4) (f32Val a.toNat))))

/-- FCLASS: the bit of the class of ra. -/
def execFclass (g : GangRef) (r : RFields) (s : State) : Outcome State Fault Refusal :=
  .next (gangAlu s g r 0 true (fun a _ _ => BitVec.ofNat 32 (fclassMask a.toNat)))

/-- CVT: ra converted from format modifier [7:4] to format modifier [3:0]. -/
def execCvt (g : GangRef) (r : RFields) (s : State) : Outcome State Fault Refusal :=
  .next (gangAlu s g r 255 (formatOk (r.modifier / 16) && formatOk (r.modifier % 16))
    (fun a _ _ => convertWord (r.modifier / 16) (r.modifier % 16) a))

/-- FDIV. -/
def execFdiv (g : GangRef) (r : RFields) (s : State) : Outcome State Fault Refusal := .next (gangFp2 s g r fvDiv)

/-- FSQRT. -/
def execFsqrt (g : GangRef) (r : RFields) (s : State) : Outcome State Fault Refusal := .next (gangFp1 s g r fvSqrt)

/-- FRCP: 1 ÷ ra. -/
def execFrcp (g : GangRef) (r : RFields) (s : State) : Outcome State Fault Refusal :=
  .next (gangFp1 s g r (fun a => fvDiv (fvOfInt 1) a))

/-- FEXP2: 2^ra, correctly rounded. -/
def execFexp2 (g : GangRef) (r : RFields) (s : State) : Outcome State Fault Refusal := .next (gangFp1 s g r fvExp2)

/-- FLOG2: log2 ra, correctly rounded. -/
def execFlog2 (g : GangRef) (r : RFields) (s : State) : Outcome State Fault Refusal := .next (gangFp1 s g r fvLog2)

end Sys2Proof.Machine
end

