-- ==== Sys2Proof/Machine/GangInt.lean ====
section
/-!
DEFINITION. The integer, logic, compare, select and move operations of gang code (Table 9.12, opcodes 0x01 to 0x16), which
go to the ALU pipes, and the integer division, shuffle and vote of the XFU pipe (0x36 to 0x39).
-/

namespace Sys2Proof.Machine

open Host (Outcome)

/-! ## Arithmetic on words -/

/-- High 32 bits of a product (IMULHI). -/
def mulHi (signed : Bool) (a b : Word) : Word :=
  if signed then BitVec.ofInt 32 (a.toInt * b.toInt / 2 ^ 32) else BitVec.ofNat 32 (a.toNat * b.toNat / 2 ^ 32)

/-- Number of 1 bits (POPC). -/
def popCount (a : Word) : Word := BitVec.ofNat 32 ((List.range 32).filter (fun i => a.getLsbD i)).length

/-- Leading zero bits, 32 for 0 (CLZ). -/
def leadZeros (a : Word) : Word :=
  BitVec.ofNat 32 (((List.range 32).find? (fun i => a.getLsbD (31 - i))).getD 32)

/-- Bit-field extract (BFE): ra shifted right by rb [4:0], masked to rb [12:8] bits, of which 0 means 32. -/
def bitField (signed : Bool) (a b : Word) : Word :=
  let n := if b.toNat / 256 % 32 = 0 then 32 else b.toNat / 256 % 32
  let x := a.toNat / 2 ^ (b.toNat % 32) % 2 ^ n
  if signed then BitVec.ofInt 32 (toInt n x) else BitVec.ofNat 32 x

/-- Quotient toward zero (IDIV, R232). -/
def quotient (signed : Bool) (a b : Word) : Word :=
  if b = 0 then 0xFFFFFFFF
  else if signed then BitVec.ofInt 32 (a.toInt.tdiv b.toInt) else BitVec.ofNat 32 (a.toNat / b.toNat)

/-- Remainder with the sign of the dividend (IREM, R232). -/
def remainder (signed : Bool) (a b : Word) : Word :=
  if b = 0 then a
  else if signed then BitVec.ofInt 32 (a.toInt.tmod b.toInt) else BitVec.ofNat 32 (a.toNat % b.toNat)

/-- The source lane of a shuffle (SHFL), for a lane and its rb. -/
def shuffleFrom (mode lane : Nat) (b : Word) : Int :=
  match mode with
  | 0 => b.toNat
  | 1 => (lane : Int) - b.toNat
  | 2 => (lane : Int) + b.toNat
  | _ => Nat.xor lane b.toNat

/-- A special value (SREG). -/
def specialValue (s : State) (ref : GangRef) (v : Invocation) (g : Gang) (mask lane sel : Nat) : Word :=
  BitVec.ofNat 32 (match sel with
    | 0 => lane
    | 1 => g.index
    | 2 => v.gangs
    | 3 => ref.unit
    | 4 => s.bell.count
    | 5 => s.bell.count / 2 ^ 32
    | 6 => mask
    | 7 => g.live
    | 8 => v.windowSize
    | _ => tgetD (coreOf s ref.unit).parts v.program 0)

/-! ## The commands -/

/-- IADD: rd = ra + rb. -/
def execIadd (g : GangRef) (r : RFields) (s : State) : Outcome State Fault Refusal :=
  .next (gangAlu s g r 0 true (fun a b _ => a + b))

/-- ISUB: rd = ra − rb. -/
def execIsub (g : GangRef) (r : RFields) (s : State) : Outcome State Fault Refusal :=
  .next (gangAlu s g r 0 true (fun a b _ => a - b))

/-- IMUL: rd = low 32 bits of ra × rb. -/
def execImul (g : GangRef) (r : RFields) (s : State) : Outcome State Fault Refusal :=
  .next (gangAlu s g r 0 true (fun a b _ => a * b))

/-- IMULHI: rd = high 32 bits of ra × rb; modifier [0] signed. -/
def execImulhi (g : GangRef) (r : RFields) (s : State) : Outcome State Fault Refusal :=
  .next (gangAlu s g r 1 true (fun a b _ => mulHi (bit r.modifier 0) a b))

/-- IMAD: rd = low 32 bits of ra × rb + rc. -/
def execImad (g : GangRef) (r : RFields) (s : State) : Outcome State Fault Refusal :=
  .next (gangAlu s g r 0 true (fun a b c => a * b + c))

/-- IADDI: rd = ra + imm32. -/
def execIaddi (g : GangRef) (rd ra imm : Nat) (s : State) : Outcome State Fault Refusal :=
  .next (gangWrite s g (decide (rd < 256) && decide (ra < 256)) rd (fun _ h _ i => regAt h i ra + BitVec.ofNat 32 imm))

/-- AND: rd = ra and rb; modifier [0] inverts rb first. -/
def execAndOp (g : GangRef) (r : RFields) (s : State) : Outcome State Fault Refusal :=
  .next (gangAlu s g r 1 true (fun a b _ => a &&& (if bit r.modifier 0 then ~~~b else b)))

/-- OR: rd = ra or rb. -/
def execOrOp (g : GangRef) (r : RFields) (s : State) : Outcome State Fault Refusal :=
  .next (gangAlu s g r 0 true (fun a b _ => a ||| b))

/-- XOR: rd = ra xor rb. -/
def execXorOp (g : GangRef) (r : RFields) (s : State) : Outcome State Fault Refusal :=
  .next (gangAlu s g r 0 true (fun a b _ => a ^^^ b))

/-- SHL: rd = ra << rb [4:0] (R232). -/
def execShl (g : GangRef) (r : RFields) (s : State) : Outcome State Fault Refusal :=
  .next (gangAlu s g r 0 true (fun a b _ => a <<< (b.toNat % 32)))

/-- SHR: logical right shift by rb [4:0]. -/
def execShr (g : GangRef) (r : RFields) (s : State) : Outcome State Fault Refusal :=
  .next (gangAlu s g r 0 true (fun a b _ => a >>> (b.toNat % 32)))

/-- SAR: arithmetic right shift by rb [4:0]. -/
def execSar (g : GangRef) (r : RFields) (s : State) : Outcome State Fault Refusal :=
  .next (gangAlu s g r 0 true (fun a b _ => a.sshiftRight (b.toNat % 32)))

/-- IMIN: the smaller of ra and rb; modifier [0] signed. -/
def execImin (g : GangRef) (r : RFields) (s : State) : Outcome State Fault Refusal :=
  .next (gangAlu s g r 1 true (fun a b _ => if intBefore (bit r.modifier 0) a b then a else b))

/-- IMAX: the larger of ra and rb; modifier [0] signed. -/
def execImax (g : GangRef) (r : RFields) (s : State) : Outcome State Fault Refusal :=
  .next (gangAlu s g r 1 true (fun a b _ => if intBefore (bit r.modifier 0) a b then b else a))

/-- POPC: the number of 1 bits in ra. -/
def execPopc (g : GangRef) (r : RFields) (s : State) : Outcome State Fault Refusal :=
  .next (gangAlu s g r 0 true (fun a _ _ => popCount a))

/-- CLZ: leading zero bits of ra, 32 for 0. -/
def execClz (g : GangRef) (r : RFields) (s : State) : Outcome State Fault Refusal :=
  .next (gangAlu s g r 0 true (fun a _ _ => leadZeros a))

/-- ICMP: rd = 1 if the condition of modifier [2:0] holds, else 0; [3] signed. Conditions 6 and 7 are not defined. -/
def execIcmp (g : GangRef) (r : RFields) (s : State) : Outcome State Fault Refusal :=
  .next (gangAlu s g r 15 (decide (r.modifier % 8 < 6)) (fun a b _ => if icmpHolds r.modifier a b then 1 else 0))

/-- SEL: rd = rb if ra ≠ 0, else rc. -/
def execSel (g : GangRef) (r : RFields) (s : State) : Outcome State Fault Refusal :=
  .next (gangAlu s g r 0 true (fun a b c => if a ≠ 0 then b else c))

/-- MOV: rd = ra. -/
def execMov (g : GangRef) (r : RFields) (s : State) : Outcome State Fault Refusal :=
  .next (gangAlu s g r 0 true (fun a _ _ => a))

/-- MOVI: rd = imm32. -/
def execMovi (g : GangRef) (rd imm : Nat) (s : State) : Outcome State Fault Refusal :=
  .next (gangWrite s g (decide (rd < 256)) rd (fun _ _ _ _ => BitVec.ofNat 32 imm))

/-- BFE: bit-field extract; modifier [0] sign-extends. -/
def execBfe (g : GangRef) (r : RFields) (s : State) : Outcome State Fault Refusal :=
  .next (gangAlu s g r 1 true (fun a b _ => bitField (bit r.modifier 0) a b))

/-- SREG: rd = special value imm32; values above 9 are reserved. -/
def execSreg (g : GangRef) (rd imm : Nat) (s : State) : Outcome State Fault Refusal :=
  .next (gangWrite s g (decide (rd < 256) && decide (imm ≤ 9)) rd (fun v h mask i => specialValue s g v h mask i imm))

/-- IDIV: ra ÷ rb toward zero; modifier [0] signed. -/
def execIdiv (g : GangRef) (r : RFields) (s : State) : Outcome State Fault Refusal :=
  .next (gangAlu s g r 1 true (fun a b _ => quotient (bit r.modifier 0) a b))

/-- IREM: remainder with the sign of ra; modifier [0] signed. -/
def execIrem (g : GangRef) (r : RFields) (s : State) : Outcome State Fault Refusal :=
  .next (gangAlu s g r 1 true (fun a b _ => remainder (bit r.modifier 0) a b))

/-- SHFL: rd = ra of a source lane; a source outside 0 to 31 or not active gives the lane's own ra. -/
def execShfl (g : GangRef) (r : RFields) (s : State) : Outcome State Fault Refusal :=
  .next (gangWrite s g (rOk r 3) r.rd (fun _ h mask i =>
    let src := shuffleFrom (r.modifier % 4) i (regAt h i r.rb)
    if 0 ≤ src ∧ src < 32 ∧ bit mask src.toNat then regAt h src.toNat r.ra else regAt h i r.ra))

/-- VOTE: over the active lanes, of ra ≠ 0: 0 all, 1 any, 2 ballot mask. Mode 3 is not defined. -/
def execVote (g : GangRef) (r : RFields) (s : State) : Outcome State Fault Refusal :=
  .next (gangWrite s g (rOk r 3 && decide (r.modifier % 4 < 3)) r.rd (fun _ h mask _ =>
    BitVec.ofNat 32 (voteVal (r.modifier % 4) mask (fun i => regAt h i r.ra ≠ 0))))

end Sys2Proof.Machine
end

