-- ==== Sys2Proof/Machine/HostCtl.lean ====
section
/-!
DEFINITION. The controller registers and the link (chapter 4): CC.EN, function-level reset, PERST#, doorbells.
-/

namespace Sys2Proof.Machine

open Host (Outcome)

/-- A controller-level reset that meets a start in progress is absorbed into it (R350): the host side is disabled, and the freeze
policies are 0 (R105). -/
def absorbReset (s : State) : State :=
  policiesReset { s with
    host := { s.host with en := false, rdy := false, enClearDeferred := false, sqs := [], cqs := [] }
    update := { s.update with cfs := false } }

/-- CC_EN_CLEAR (R110, R358, R359): in an activation RDY falls at once and the reset waits for the end of the pause. Without effect in
FROZEN (R397). -/
def execCcEnClear (s : State) : Outcome State Fault Refusal :=
  if stopped s then .next s
  else if s.dev.state = .boot then .next (absorbReset s)
  else if !s.host.en then .next { s with update := { s.update with cfs := false } }
  else if activating s then .next { s with host := { s.host with en := false, rdy := false, enClearDeferred := true } }
  else .next (controllerLevel s 3)

/-- Is a size one of an admin queue (Table 4.3). -/
def adminQueueSize (n : Nat) : Bool := decide (2 ≤ n) && decide (n ≤ 4096)

/-- CC_EN_SET (R358, R110, Table 4.3): the admin queues of the sizes given stand, and the controller is ready once the drive is past BOOT.
Not taken while CFS reads 1 or a deferred reset waits. -/
def execCcEnSet (ams asq acq : Nat) (s : State) : Outcome State Fault Refusal :=
  if stopped s || s.host.perst || s.host.en || s.update.cfs || s.host.enClearDeferred || decide (1 < ams) || !adminQueueSize asq
      || !adminQueueSize acq then .next s
  else .next { s with host := { s.host with
    en := true, ams := ams, rdy := s.dev.state ≠ .boot, rr := []
    sqs := tput s.host.sqs 0 (Sq.fresh asq 0 0), cqs := tput s.host.cqs 0 (Cq.fresh acq 0 true) } }

/-- FUNCTION_LEVEL_RESET (R359, R360). Without effect in FROZEN. -/
def execFunctionLevelReset (s : State) : Outcome State Fault Refusal :=
  if stopped s then .next s
  else if s.dev.state = .boot then .next (absorbReset s)
  else .next (controllerLevel s 4)



/-- PERST_ASSERT (R87, R359). Without effect in FROZEN (R397) but on the pin. -/
def execPerstAssert (s : State) : Outcome State Fault Refusal :=
  let t := { s with host := { s.host with perst := true } }
  if s.host.perst then .next s
  else if stopped s then .next t
  else if s.dev.state = .boot then .next (linkDown (absorbReset t))
  else .next (linkDown (controllerLevel t 5))

/-- PERST_DEASSERT (R85, R434, Table 4.2): the link trains to the speed and width that both ends support. A link that a cold reset ordered
through OD 0x2B01 took down trains the same way, with PERST# high throughout. -/
def execPerstDeassert (speed width : Nat) (s : State) : Outcome State Fault Refusal :=
  let t := { s with host := { s.host with perst := false } }
  if stopped s || (!s.host.perst && s.host.speed ≠ 0) || !([1, 2, 3].contains speed && [1, 2, 4, 8].contains width) then .next t
  else .next { t with host := { t.host with speed := speed, width := width, flit := decide (speed = 3) } }

/-- DOORBELL_WRITE (R447, R90, R111): the commands up to the new tail lie in the queue, to be fetched at the next boundary that can
admit them. A command wakes the drive (R339). -/
def execDoorbellWrite (sq tail : Nat) (cmds : List SqCmd) (s : State) : Outcome State Fault Refusal :=
  match tget s.host.sqs sq with
  | none => .next s
  | some q =>
    if stopped s || !s.host.en || !s.host.rdy || cmds = [] || tail ≠ (q.tail + cmds.length) % q.size ||
        decide (q.size ≤ q.slots.length + cmds.length) then .next s
    else .next (wakeEvent (sqMod s sq (fun q => { q with tail := tail, slots := q.slots ++ cmds })) 1)

end Sys2Proof.Machine
end

