-- ==== Sys2Proof/Machine/HostLogs.lean ====
section
/-!
DEFINITION. Get Log Page (R445, R106) and the NVMe-MI reads of the management bus (R88). Byte layouts that the spec leaves to NVMe
Base 2.1 and NVMe-MI are PRESUMED from them; every byte that the spec does not determine is a free value.
-/

namespace Sys2Proof.Machine

open Host (Outcome)

/-- Bytes of a page from an offset; what a read takes past its end is free. -/
def pageOut (s : State) (page : Bytes) (off len : Nat) : Bytes × State :=
  let inside := (page.drop off).take len
  let d := drawBytes s (len - inside.length)
  (inside ++ d.1, d.2)

/-- Serve a Get Log Page of a page that stands: an offset past its end is refused, reading it arms its event codes (R106). -/
def logOut (s : State) (i : Nat) (h : HostId) (lid : Nat) (page : Bytes) (off len : Nat) (rae : Bool) : State :=
  if page.length < off then finish s i .invalidField 0 0
  else
    let p := pageOut s page off len
    answerPage (pageRead p.2 lid rae) i p.1

/-- Minutes of a time in µs. -/
def minutes (us : Nat) : Nat := us / 60000000

/-- What the spec fixes of SMART/Health (R106, R345): critical warning, composite temperature in K, minutes at the warning and the
critical temperature. -/
def smartFields (e : EdgeCopy) : List (Nat × Bytes) :=
  [(0, [e.host.warning]), (1, leBytes 2 (e.power.composite + 273).toNat), (192, leBytes 4 (minutes e.host.warnUs)),
   (196, leBytes 4 (minutes e.host.critUs))]

/-- What the spec fixes of Firmware Slot Information (R370): the active and the pending slot, the revision in each slot. -/
def slotFields (u : Update) : List (Nat × Bytes) :=
  let v (k : Nat) : Nat := ((tget u.slots k).map (fun x => x.version)).getD 0
  [(0, [u.active + 16 * u.pending]), (8, revisionText (v 1)), (16, revisionText (v 2))]

/-- What the spec fixes of the FDP event page (R145): the number of events and the code of each. -/
def fdpFields (l : Ledger) : List (Nat × Bytes) :=
  let es := l.fdpEvents.drop (l.fdpEvents.length - 63)
  (0, leBytes 4 es.length) :: (es.zipIdx).map (fun p => (64 + 64 * p.2, [p.1.code]))

/-- What the spec fixes of the FDP Configurations page (R141): one configuration, valid, RGIF 3, 8 reclaim groups, 64 handles of type
Initially Isolated and the nominal size of a reclaim unit (the layout: log entry 13). -/
def fdpConfigFields (volatileCache : Nat) : List (Nat × Bytes) :=
  [(0, [0, 0, 0]), (4, leBytes 4 336), (16, leBytes 2 320 ++ [0x83 + (volatileCache &&& 0x10), 0] ++ leBytes 4 8 ++ leBytes 2 64),
   (32, leBytes 8 2264924160)] ++ (List.range 64).map (fun k => (80 + 4 * k, [1, 0, 0, 0]))

/-- GET_LOG_PAGE: the standard pages that Tables 4.3 and 4.4 call for. -/
def execGetLogPage (h : HostId) (lid off len : Nat) (rae : Bool) (s : State) : Outcome State Fault Refusal :=
  .next (serveAdmin s h true (fun s i =>
    let out (n : Nat) (fields : List (Nat × Bytes)) : State :=
      let p := freePage s n fields
      logOut p.2 i h lid p.1 off len rae
    match lid with
    | 0x02 => out 512 (smartFields s.edge)
    | 0x03 => out 512 (slotFields s.edge.update)
    | 0x20 => let d := drawBytes s 4096; logOut d.2 i h lid (patchAll d.1 (fdpConfigFields (d.1.getD 18 0))) off len rae
    | 0x21 => out 4096 [(0, leBytes 2 64)]
    | 0x23 => out 4096 (fdpFields s.edge.ledger)
    | n => if [0x00, 0x01, 0x05, 0x22, 0x81].contains n then out 4096 [] else finish s i .invalidLogPage 0 0))

/-- STICKY_SUMMARY_LOG (R385). -/
def execStickySummaryLog (h : HostId) (off len : Nat) (rae : Bool) (s : State) : Outcome State Fault Refusal :=
  .next (serveAdmin s h true (fun s i => logOut s i h 0xC0 (stickyPage s) off len rae))

/-- FREEZE_LOG (Tables 4.13, 4.14). -/
def execFreezeLog (h : HostId) (off len : Nat) (rae : Bool) (s : State) : Outcome State Fault Refusal :=
  .next (serveAdmin s h true (fun s i => logOut s i h 0xC1 (freezePage s) off len rae))

/-- BELL_LOG (R84). -/
def execBellLog (h : HostId) (off len : Nat) (rae : Bool) (s : State) : Outcome State Fault Refusal :=
  .next (serveAdmin s h true (fun s i => logOut s i h 0xC2 (bellPage s) off len rae))

/-- GUILD_LOG (R312): M only. -/
def execGuildLog (h : HostId) (off len : Nat) (rae : Bool) (s : State) : Outcome State Fault Refusal :=
  .next (serveAdmin s h true (fun s i =>
    if s.ident.meshed then logOut s i h 0xC3 (guildPage s) off len rae else finish s i .invalidLogPage 0 0))

/-- KERNEL_FAULT_LOG (R209). -/
def execKernelFaultLog (h : HostId) (off len : Nat) (rae : Bool) (s : State) : Outcome State Fault Refusal :=
  .next (serveAdmin s h true (fun s i => logOut s i h 0xC4 (faultPage s) off len rae))

/-! ## NVMe-MI -/

/-- Answer on the management bus: nothing while the drive is stopped. -/
def miOut (s : State) (n : Nat) (fields : List (Nat × Bytes)) : State :=
  if stopped s then s
  else
    let p := freePage s n fields
    emit p.2 (.mi p.1)

/-- NVME_MI_BASIC_MANAGEMENT (R88, Table 4.4): lengths, the critical warnings inverted, the composite temperature, the serial
number. -/
def execNvmeMiBasicManagement (s : State) : Outcome State Fault Refusal :=
  .next (miOut s 32 [(0, [6]), (2, [255 - s.host.warning]), (3, [(max 0 (min s.power.composite 126)).toNat]), (8, [22]),
    (11, leBytes 20 s.ident.serialNo)])

/-- HEALTH_STATUS_POLL (R88): subsystem health. -/
def execHealthStatusPoll (s : State) : Outcome State Fault Refusal :=
  .next (miOut s 8 [(1, [255 - s.host.warning]), (2, [(max 0 (min s.power.composite 126)).toNat])])

/-- CONTROLLER_HEALTH_STATUS_POLL (R88): controller status RDY and CFS, composite temperature, critical warning. -/
def execControllerHealthStatusPoll (s : State) : Outcome State Fault Refusal :=
  .next (miOut s 16 [(2, [b2n s.host.rdy + 2 * b2n s.update.cfs]), (4, leBytes 2 (s.power.composite + 273).toNat), (8, [s.host.warning])])

/-- READ_NVME_MI_DATA_STRUCTURE (R88): structures 0 to 4; any other is an invalid parameter. -/
def execReadNvmeMiDataStructure (dtyp : Nat) (s : State) : Outcome State Fault Refusal :=
  .next (if 4 < dtyp then (if stopped s then s else emit s (.mi [4])) else miOut s 32 [])

end Sys2Proof.Machine
end

