-- ==== Sys2Proof/Machine/Update.lean ====
section
/-!
DEFINITION. Firmware download, commit and activation, and the start of the drive (chapter 15); faults detected in DRAM (R386).
-/

namespace Sys2Proof.Machine

open Host (Outcome)

/-! ## Download and commit -/

/-- Do two ranges overlap. -/
def rangesMeet (a n b m : Nat) : Bool := decide (a < b + m) && decide (b < a + n)

/-- FIRMWARE_IMAGE_DOWNLOAD (R369, R107). -/
def execFirmwareImageDownload (h : HostId) (off : Nat) (piece : Bytes) (s : State) : Outcome State Fault Refusal :=
  .next (serveQuietAdmin s h (fun s i =>
    if off % 4096 ≠ 0 ∨ 67108864 < off + piece.length then finish s i .invalidField 0 0
    else
      let kept := if off = 0 then [] else s.update.buffer
      if kept.any (fun p => rangesMeet off piece.length p.1 p.2.length) then finish s i .overlappingRange 0 0
      else finish { s with update := { s.update with buffer := kept ++ [(off, piece)] } } i .success 0 0))

/-- The slot that a commit names: 0 stands for the one that is not active (R370). -/
def commitSlot (s : State) (slot : Nat) : Option Nat :=
  if slot = 0 then some (3 - s.update.active) else if slot ≤ 2 then some slot else none

/-- Serve a Firmware Commit (R107, R370): a slot that does not exist is refused. -/
def serveCommit (s : State) (h : HostId) (slot : Nat) (act : State → Nat → Nat → State) : State :=
  serveQuietAdmin s h (fun s i =>
    match commitSlot s slot with
    | none => finish s i .firmwareSlotInvalid 0 0
    | some k => act s i k)

/-- FIRMWARE_COMMIT_ACTION_0 (R370): the buffer is written into a slot that is not active; the commit completes after the write. -/
def execFirmwareCommitAction0 (h : HostId) (slot : Nat) (s : State) : Outcome State Fault Refusal :=
  .next (serveCommit s h slot (fun s i k =>
    if k = s.update.active then finish s i .firmwareSlotInvalid 0 0
    else if s.update.requested = some k then finish s i .activationPending 0 0
    else match checkBuffer s with
      | .inl st => finish s i st 0 0
      | .inr img => startSlotWrite s i k img false))

/-- FIRMWARE_COMMIT_ACTION_1 (R370, R377): the buffer is written into the slot, or staged in scratch for the active one, and is
pending for the next reset. Scratch cannot be staged again while it is the source of the active slot. -/
def execFirmwareCommitAction1 (h : HostId) (slot : Nat) (s : State) : Outcome State Fault Refusal :=
  .next (serveCommit s h slot (fun s i k =>
    if s.update.requested = some k then finish s i .activationPending 0 0
    else match checkBuffer s with
    | .inl st => finish s i st 0 0
    | .inr img =>
      if k ≠ s.update.active then startSlotWrite s i k img true
      else if s.update.scratch = 2 then finish s i .commandSequenceError 0 0
      else finish { s with update := { s.update with scratch := 1, scratchImage := some img, pending := k } } i .success 0 0))

/-- FIRMWARE_COMMIT_ACTION_2 (R370): the slot's image is pending for the next reset; for the active slot the pending mark goes. -/
def execFirmwareCommitAction2 (h : HostId) (slot : Nat) (s : State) : Outcome State Fault Refusal :=
  .next (serveCommit s h slot (fun s i k =>
    if k = s.update.active then finish { s with update := { unstaged s.update with pending := 0 } } i .success 0 0
    else match checkSlot s k with
      | .inl st => finish s i st 0 0
      | .inr _ => finish { s with update := { unstaged s.update with pending := k } } i .success 0 0))

/-- FIRMWARE_COMMIT_ACTION_3 (R370, R371, R51): the slot's image is activated now. The commit completes after the pause. -/
def execFirmwareCommitAction3 (h : HostId) (slot : Nat) (s : State) : Outcome State Fault Refusal :=
  .next (serveCommit s h slot (fun s i k =>
    if s.dev.state ≠ .run ∧ s.dev.state ≠ .config then finish s i .commandSequenceError 0 0
    else if s.update.requested.isSome then finish s i .activationPending 0 0
    else if k = s.update.active then finish s i .success 0 0
    else match checkSlot s k with
      | .inl st => finish s i st 0 0
      | .inr _ =>
        setState { s with update := { s.update with requested := some k, commit := some (h.sq, h.cid), phase := 1 } } i .waiting))

/-! ## Activation -/

/-- ACTIVATION_START (R371, R378): from RUN a drain with the notice, from CONFIG the pause at once. -/
def execActivationStart (s : State) : Outcome State Fault Refusal :=
  match s.update.requested with
  | none => .next s
  | some k =>
    if !ownMove s then .next s
    else
      let s' := { s with update := { s.update with
        actSlot := k, actBell := s.bell.count, actPart := 0, actPause := 0, loaderDone := false, switched := false } }
      let r := pauseResume s s.bell.count
      match s.dev.state with
      | .run =>
        let s' := { s' with dev := { s'.dev with drainForActivation := true, drainBell := s.bell.ticks }
                            update := { s'.update with phase := 2, fromConfig := false } }
        .next (raiseEvent (shelveAll (goTo (announcePause s' r) .drain 6 r)) 0x201)
      | .config =>
        let s' := { s' with update := { s'.update with phase := 3, fromConfig := true } }
        .next (holdEntries (shelveAll (goTo (announcePause s' r) .paused 6 r)))
      | _ => .next s

/-- What the loader's steps come to (R372, R373): the SWITCH record, or the roll-back with its record. -/
def loaderEnds (s : State) (failedPart : Option Nat) (pauseUs : Nat) : State :=
  let s := { s with update := { s.update with loaderDone := true, actPause := pauseUs } }
  match failedPart with
  | none => switchTo (count { s with update := { s.update with actResult := 1 } } 0x6016 1 1) s.update.actSlot
  | some p =>
    raiseRecord (count { s with update := { s.update with actResult := 2, actPart := p } } 0x6016 2 1)
      { Record.of 0x0F04 with a := p, b := s.update.actSlot }

/-- ACTIVATION_PAUSE (R371 to R374): at the edge 2 bells after the start the drive is PAUSED, and the loader takes its steps; the
operands say which part failed, if one did, and how long the pause lasts. -/
def execActivationPause (failedPart : Option Nat) (pauseUs : Nat) (s : State) : Outcome State Fault Refusal :=
  if decide (120000 < pauseUs) || s.update.loaderDone || s.update.requested.isNone then .next s
  else match s.dev.state with
    | .drain =>
      if !s.dev.drainForActivation || decide (s.bell.ticks < s.dev.drainBell + 2) || !ownMove s then .next s
      else
        let s := { s with update := { s.update with phase := 3 } }
        let s := suspendErases (holdEntries (goTo s .paused 5 s.fabric.resumeBell))
        .next (loaderEnds s failedPart pauseUs)
    | .paused => .next (loaderEnds (suspendErases s) failedPart pauseUs)
    | _ => .next s

/-- The Firmware Commit that waited for the pause completes (R373, R374). -/
def commitEnds (s : State) : State :=
  match s.update.commit with
  | none => s
  | some (sq, cid) =>
    let s := { s with update := { s.update with commit := none } }
    match findHost s sq cid with
    | some i => finish s i (if s.update.actResult = 1 then .success else .firmwareImageInvalid) 0 0
    | none => s

/-- What waited for the end of the pause is performed (R350, R110): a warm reset, into which a controller reset is absorbed, or the
controller reset; the commit completes where neither takes its queue away. -/
def afterPause (s : State) : State :=
  match s.update.warmDeferred with
  | some c => warmReset { s with update := { s.update with warmDeferred := none } } (c % 16) (c / 16)
  | none => if s.host.enClearDeferred then controllerLevel s 3 else commitEnds s

/-- ACTIVATION_END (R374): at the first edge after the last step the drive returns to the state it came from. -/
def execActivationEnd (s : State) : Outcome State Fault Refusal :=
  if s.dev.state ≠ .paused || !s.update.loaderDone || !ownMove s then .next s
  else
    let s := { s with
      dev := { s.dev with drainForActivation := false }
      update := { s.update with requested := none, loaderDone := false, switched := false
                                phase := if s.update.scratch = 2 then 4 else 0 } }
    .next (afterPause (resumeTunnels (resumeEntries (goTo s (if s.update.fromConfig then .config else .run) 7 0))))

/-- IMAGE_COPY_PART (R377). -/
def execImageCopyPart (s : State) : Outcome State Fault Refusal :=
  if stopped s || s.dev.state = .boot || s.dev.state = .paused || s.update.scratch ≠ 2 then .next s
  else
    let s := { s with update := { s.update with copied := s.update.copied + 1 } }
    .next (if s.update.copied = 8 then endCopy s else s)

/-! ## The start -/

/-- An interrupted copy from scratch is finished first (R353, R377). -/
def finishCopy (s : State) : State :=
  if s.update.scratch = 2 then
    let s := endCopy s
    if s.update.resetKind = 1 then { s with update := { s.update with actSlot := s.update.copySlot, actResult := 5, actPart := 0 } } else s
  else s

/-- A pending image that fails the start is dropped (R354, R377). -/
def dropPending (s : State) (part : Nat) : State :=
  let s := count s 0x6016 3 1
  let u := s.update
  raiseRecord { s with update := { u with
      pending := 0, actSlot := u.pending, actResult := 4, actPart := part
      scratch := if u.scratch = 1 then 0 else u.scratch, scratchImage := if u.scratch = 1 then none else u.scratchImage } }
    { Record.of 0x0F03 with a := part }

/-- The image of a start (R353, R354): the pending one where it passes, else the active one; none passes: false. -/
def chooseImage (s : State) (c : BootChecks) : Bool × State :=
  if s.update.pending ≠ 0 then
    if c.pendingOk && bootable s s.update.pending then
      let k := s.update.pending
      let s := switchTo s k
      (true, { s with update := { s.update with actSlot := k, actResult := 3, actPart := 0, switched := false } })
    else (c.activeOk, dropPending s c.failedPart)
  else (c.activeOk, s)

/-- A start that fails enters FAULT (R386). -/
def bootFails (s : State) (cls : Nat) : State := faultClass s cls none

/-- BOOT_COMPLETE (R353 to R355, R165, R168, R386, R437): the end of a start. The operands are the outcomes of its checks. -/
def execBootComplete (checks : BootChecks) (s : State) : Outcome State Fault Refusal :=
  if s.dev.state ≠ .boot || s.dev.faultDue || !ownMove s then .next s
  else if !checks.cellarOk then .next (bootFails s 2)
  else
    let p := chooseImage (finishCopy s) checks
    let s := p.2
    if !p.1 then .next (bootFails s 1)
    else if !checks.keyStoreOk then .next (bootFails s 4)
    else if !checks.holdUpOk then .next (bootFails s 7)
    else
      let s := if s.update.resetKind = 1 then
          recoverSave { s with ledger := { s.ledger with recoveryMs := checks.recoveryMs } } checks.markerFound
        else s
      let s := { s with
        update := { s.update with bootMs := checks.bootMs }
        host := { s.host with rdy := s.host.en && !s.update.cfs }
        keys := { s.keys with store := b2n checks.keyCopyLost } }
      .next (resumeSanitize (goTo (restartErases s) .config 1 0))

/-- UNCORRECTABLE_ERROR (R386): class 3 enters FAULT, class 6 takes a warm reset. -/
def execUncorrectableError (cls : Nat) (s : State) : Outcome State Fault Refusal :=
  .next (if cls = 3 ∨ cls = 6 then faultClass s cls none else s)

end Sys2Proof.Machine
end

