-- ==== Sys2Proof/Machine/Rails.lean ====
section
/-!
DEFINITION. Rails and pins (chapter 19): main power lost and good, PWRDIS, the always-on domain, FREEZE#.
-/

namespace Sys2Proof.Machine

open Host (Outcome)

/-- An activation that a freeze cut (R415): with the SWITCH record written the new image runs, else it counts as rolled back. -/
def cutActivation (s : State) : State :=
  if s.dev.state ≠ .frozen ∨ (s.update.phase ≠ 2 ∧ s.update.phase ≠ 3) then s
  else if s.update.switched then count { s with update := { s.update with actResult := 1 } } 0x6016 1 1
  else raiseRecord (count { s with update := { s.update with actResult := 2, actPart := 0 } } 0x6016 2 1) { Record.of 0x0F04 with b := s.update.actSlot }

/-- The snapshot of a freeze is written with the save (R395). -/
def storeSnapshot (s : State) : State :=
  match s.freeze.live with
  | some c => { s with freeze := { s.freeze with live := none, stored := some c } }
  | none => s

/-- Loss of main power (R166, R169, R375, R436): the save runs to its end and the main rails go off. Event 0x03 stands for the records
that the always-on domain held (R453). `cause` is that of OD 0x2B00.02. -/
def losePower (s : State) (cause durationUs : Nat) (markerOk : Bool) : State :=
  let held := s.dev.state = .frozen ∧ s.sticky.heldFrozen ≠ []
  let s := loseVolatile (save (storeSnapshot (cutActivation s)) durationUs markerOk)
  let s := { s with
    host := { HostSide.reset with perst := s.host.perst, warning := s.host.warning, warnUs := s.host.warnUs, critUs := s.host.critUs
                                  pendingEvents := if held then [3] else [] }
    rails := { s.rails with offSince := some (s.bell.ticks + ceilDiv durationUs (periodUs s)) }
    update := { s.update with resetCause := cause } }
  transition s .off 0 false

/-- MAIN_POWER_LOST (R431, R166): the hold-up monitor has reported the loss. -/
def execMainPowerLost (durationUs : Nat) (markerOk : Bool) (s : State) : Outcome State Fault Refusal :=
  let s := { s with rails := { s.rails with main := false } }
  .next (if s.dev.state = .off then s else losePower s 0 durationUs markerOk)

/-- PWRDIS_ASSERT (R435): as loss of main power. -/
def execPwrdisAssert (durationUs : Nat) (markerOk : Bool) (s : State) : Outcome State Fault Refusal :=
  let s := { s with rails := { s.rails with pwrdis := true } }
  .next (if s.dev.state = .off then s else losePower s 1 durationUs markerOk)

/-- Have the main rails been off for 20 ms (R436). -/
def railsRested (s : State) : Bool :=
  match s.rails.offSince with
  | none => true
  | some b => decide (20000 ≤ (s.bell.ticks - b) * periodUs s)

/-- OFF to BOOT, a cold reset (R436, Table 2.6). -/
def startUp (s : State) : State :=
  let s := { s with
    rails := { s.rails with offSince := none }
    update := { s.update with resetKind := 1, resetBell := s.bell.count } }
  count (transition s .boot 0 false) 0x6015 1 1

/-- The always-on domain gains power (R65, R318, Table 13.14): bell 0, station address 0x7E, terminator off, watchdog unarmed, no last
reset kept; FREEZE# held low acts only after it has risen (R392). -/
def alwaysOnUp (s : State) : State :=
  { s with
    rails := { s.rails with alwaysOn := true }
    bell := .reset
    milny := .reset
    freeze := { s.freeze with armed := !s.freeze.pinLow } }

/-- MAIN_POWER_GOOD (R431, R436): the drive starts, where nothing else keeps it off. The internal regulator feeds the always-on domain
as well (R432). -/
def execMainPowerGood (s : State) : Outcome State Fault Refusal :=
  let s := { s with rails := { s.rails with main := true } }
  let s := if s.rails.alwaysOn then s else alwaysOnUp s
  .next (if s.dev.state = .off && !s.rails.pwrdis && railsRested s then startUp s else s)

/-- POWER_RESTART (R436): 20 ms after the rails went off, with main power good and PWRDIS deasserted. -/
def execPowerRestart (s : State) : Outcome State Fault Refusal :=
  if s.dev.state ≠ .off || !s.rails.main || !railsRested s then .next s
  else .next (startUp { s with rails := { s.rails with pwrdis := false } })

/-- ALWAYS_ON_POWER_UP (R65, R432). -/
def execAlwaysOnPowerUp (s : State) : Outcome State Fault Refusal :=
  if s.rails.alwaysOn then .next s else .next (alwaysOnUp s)

/-- ALWAYS_ON_POWER_LOSS (R65, R432): all three sources are absent, card-edge 12 V among them. What the always-on domain kept is lost; the
rest time of the rails is not counted on. -/
def execAlwaysOnPowerLoss (s : State) : Outcome State Fault Refusal :=
  if s.dev.state ≠ .off || s.rails.main || !s.rails.alwaysOn then .next s
  else
    let u := s.update
    .next { s with
      rails := { s.rails with alwaysOn := false, offSince := none }
      bell := .reset
      milny := .reset
      update := { u with resetKind := 1, resetCause := 0, resetBell := 0, unitReset := 0, unitCause := 0, unitBell := 0 } }

/-- FREEZE_PIN (R391, R392): low for 50 ns or more is a qualified edge, which acts where the pin was armed; below 20 ns nothing
happens; from 20 to 50 ns a free value decides. -/
def execFreezePin (lowNs : Nat) (s : State) : Outcome State Fault Refusal :=
  if !s.rails.alwaysOn || decide (lowNs < 20) || !s.freeze.armed then .next s
  else if 50 ≤ lowNs then .next (freezeNow { s with freeze := { s.freeze with pinLow := true, armed := false } } 8)
  else
    let f := drawFree s
    .next (if f.1 % 2 = 1 then freezeNow f.2 8 else f.2)

/-- FREEZE_PIN_RELEASE (R392). -/
def execFreezePinRelease (s : State) : Outcome State Fault Refusal :=
  .next { s with freeze := { s.freeze with pinLow := false, armed := true } }

end Sys2Proof.Machine
end

