-- ==== Sys2Proof/Machine/Dispatch.lean ====
section
/-!
DEFINITION. The dispatch of a command to its meaning: one arm for each constructor of `Instr`.
-/

namespace Sys2Proof.Machine

/-- The effect of a command on everything but the queue of waiting commands. -/
def exec (i : Instr) (s : State) : Host.Outcome State Fault Refusal :=
  match i with
  | .bellEdge overruns planLateNs bellInPs => Sys2Proof.Machine.execBellEdge overruns planLateNs bellInPs s
  | .chimeBoundary => Sys2Proof.Machine.execChimeBoundary s
  | .hardOverrun unit => Sys2Proof.Machine.execHardOverrun unit s
  | .childWaitLimit tag => Sys2Proof.Machine.execChildWaitLimit tag s
  | .unitReply unit epoch index status => Sys2Proof.Machine.execUnitReply unit epoch index status s
  | .writeApply => Sys2Proof.Machine.execWriteApply s
  | .odRead h idx sub allsub off len => Sys2Proof.Machine.execOdRead h idx sub allsub off len s
  | .odWrite h idx sub allsub serial data => Sys2Proof.Machine.execOdWrite h idx sub allsub serial data s
  | .penTake h force => Sys2Proof.Machine.execPenTake h force s
  | .penGive h serial => Sys2Proof.Machine.execPenGive h serial s
  | .penIdleTimeout => Sys2Proof.Machine.execPenIdleTimeout s
  | .stateRequestConfig v => Sys2Proof.Machine.execStateRequestConfig v s
  | .stateRequestRun v => Sys2Proof.Machine.execStateRequestRun v s
  | .configLingerExpired => Sys2Proof.Machine.execConfigLingerExpired s
  | .drainComplete => Sys2Proof.Machine.execDrainComplete s
  | .tallyQuotaWrite v ceiling sub value => Sys2Proof.Machine.execTallyQuotaWrite v ceiling sub value s
  | .bellPeriodWrite v code => Sys2Proof.Machine.execBellPeriodWrite v code s
  | .sourceQualified src srcCount phaseNs => Sys2Proof.Machine.execSourceQualified src srcCount phaseNs s
  | .bellInFrame count intervalsOk => Sys2Proof.Machine.execBellInFrame count intervalsOk s
  | .bellInLost overCorrection => Sys2Proof.Machine.execBellInLost overCorrection s
  | .guildSourceLost overCorrection => Sys2Proof.Machine.execGuildSourceLost overCorrection s
  | .alignmentLocked => Sys2Proof.Machine.execAlignmentLocked s
  | .alignmentUnlocked => Sys2Proof.Machine.execAlignmentUnlocked s
  | .doorbellWrite sq tail cmds => Sys2Proof.Machine.execDoorbellWrite sq tail cmds s
  | .nvmRead h slbaLow slbaHigh nlb => Sys2Proof.Machine.execNvmRead h slbaLow slbaHigh nlb s
  | .nvmWrite h slba nlb pid data => Sys2Proof.Machine.execNvmWrite h slba nlb pid data s
  | .flush h => Sys2Proof.Machine.execFlush h s
  | .datasetManagement h deallocate ranges => Sys2Proof.Machine.execDatasetManagement h deallocate ranges s
  | .formatNvm h lbaf ses => Sys2Proof.Machine.execFormatNvm h lbaf ses s
  | .sanitizeCryptoErase h => Sys2Proof.Machine.execSanitizeCryptoErase h s
  | .sanitizeBlockErase h => Sys2Proof.Machine.execSanitizeBlockErase h s
  | .namespaceCreate h nsze ncap lbaf => Sys2Proof.Machine.execNamespaceCreate h nsze ncap lbaf s
  | .namespaceDelete h => Sys2Proof.Machine.execNamespaceDelete h s
  | .ioManagementSend h pids => Sys2Proof.Machine.execIoManagementSend h pids s
  | .ioManagementReceive h => Sys2Proof.Machine.execIoManagementReceive h s
  | .abort h targetSq targetCid => Sys2Proof.Machine.execAbort h targetSq targetCid s
  | .identify h cns => Sys2Proof.Machine.execIdentify h cns s
  | .getFeatures h fid => Sys2Proof.Machine.execGetFeatures h fid s
  | .setFeaturesPowerManagement h ps wh => Sys2Proof.Machine.execSetFeaturesPowerManagement h ps wh s
  | .setFeaturesApst h enable table => Sys2Proof.Machine.execSetFeaturesApst h enable table s
  | .setFeaturesNoppme h enable => Sys2Proof.Machine.execSetFeaturesNoppme h enable s
  | .setFeaturesArbitration h burst low medium high => Sys2Proof.Machine.execSetFeaturesArbitration h burst low medium high s
  | .setFeaturesFdp h enable => Sys2Proof.Machine.execSetFeaturesFdp h enable s
  | .asynchronousEventRequest h => Sys2Proof.Machine.execAsynchronousEventRequest h s
  | .createIoSq h qid size prio cqid contiguous => Sys2Proof.Machine.execCreateIoSq h qid size prio cqid contiguous s
  | .createIoCq h qid size vector ien contiguous => Sys2Proof.Machine.execCreateIoCq h qid size vector ien contiguous s
  | .deleteIoSq h qid => Sys2Proof.Machine.execDeleteIoSq h qid s
  | .deleteIoCq h qid => Sys2Proof.Machine.execDeleteIoCq h qid s
  | .getLogPage h lid off len rae => Sys2Proof.Machine.execGetLogPage h lid off len rae s
  | .stickySummaryLog h off len rae => Sys2Proof.Machine.execStickySummaryLog h off len rae s
  | .freezeLog h off len rae => Sys2Proof.Machine.execFreezeLog h off len rae s
  | .bellLog h off len rae => Sys2Proof.Machine.execBellLog h off len rae s
  | .guildLog h off len rae => Sys2Proof.Machine.execGuildLog h off len rae s
  | .kernelFaultLog h off len rae => Sys2Proof.Machine.execKernelFaultLog h off len rae s
  | .queueThaw h serial sqid discard => Sys2Proof.Machine.execQueueThaw h serial sqid discard s
  | .queueQuiet sq => Sys2Proof.Machine.execQueueQuiet sq s
  | .queueReopen sq => Sys2Proof.Machine.execQueueReopen sq s
  | .deadlineEdge index => Sys2Proof.Machine.execDeadlineEdge index s
  | .unitReset h unit serial => Sys2Proof.Machine.execUnitReset h unit serial s
  | .unitIdle unit => Sys2Proof.Machine.execUnitIdle unit s
  | .snapshotFetch h off len => Sys2Proof.Machine.execSnapshotFetch h off len s
  | .ccEnClear => Sys2Proof.Machine.execCcEnClear s
  | .ccEnSet ams asq acq => Sys2Proof.Machine.execCcEnSet ams asq acq s
  | .functionLevelReset => Sys2Proof.Machine.execFunctionLevelReset s
  | .perstAssert => Sys2Proof.Machine.execPerstAssert s
  | .perstDeassert speed width => Sys2Proof.Machine.execPerstDeassert speed width s
  | .nvmeMiBasicManagement => Sys2Proof.Machine.execNvmeMiBasicManagement s
  | .healthStatusPoll => Sys2Proof.Machine.execHealthStatusPoll s
  | .controllerHealthStatusPoll => Sys2Proof.Machine.execControllerHealthStatusPoll s
  | .readNvmeMiDataStructure dtyp => Sys2Proof.Machine.execReadNvmeMiDataStructure dtyp s
  | .read a mask level slc index => Sys2Proof.Machine.execRead a mask level slc index s
  | .readSoft a mask slc index => Sys2Proof.Machine.execReadSoft a mask slc index s
  | .readCancel die => Sys2Proof.Machine.execReadCancel die s
  | .program die block wl slc pages => Sys2Proof.Machine.execProgram die block wl slc pages s
  | .erase die block slc => Sys2Proof.Machine.execErase die block slc s
  | .eraseSuspend die => Sys2Proof.Machine.execEraseSuspend die s
  | .eraseResume die => Sys2Proof.Machine.execEraseResume die s
  | .eraseLock die => Sys2Proof.Machine.execEraseLock die s
  | .setLevels die group offsets => Sys2Proof.Machine.execSetLevels die group offsets s
  | .senseValley a level sweep counts => Sys2Proof.Machine.execSenseValley a level sweep counts s
  | .dieStatus die => Sys2Proof.Machine.execDieStatus die s
  | .dieReset die ended => Sys2Proof.Machine.execDieReset die ended s
  | .channelTrain channel trained => Sys2Proof.Machine.execChannelTrain channel trained s
  | .readParams die => Sys2Proof.Machine.execReadParams die s
  | .dieReadComplete die outcomes => Sys2Proof.Machine.execDieReadComplete die outcomes s
  | .programComplete die ok => Sys2Proof.Machine.execProgramComplete die ok s
  | .eraseComplete die ok => Sys2Proof.Machine.execEraseComplete die ok s
  | .eraseSuspended stop => Sys2Proof.Machine.execEraseSuspended stop s
  | .dieTimeout die => Sys2Proof.Machine.execDieTimeout die s
  | .trackerRun die group minima => Sys2Proof.Machine.execTrackerRun die group minima s
  | .thresholdPinWrite v idx sub value => Sys2Proof.Machine.execThresholdPinWrite v idx sub value s
  | .decodeFail unit a => Sys2Proof.Machine.execDecodeFail unit a s
  | .writeComplete h => Sys2Proof.Machine.execWriteComplete h s
  | .gatherTimeout die => Sys2Proof.Machine.execGatherTimeout die s
  | .reclaimJob rg job dst => Sys2Proof.Machine.execReclaimJob rg job dst s
  | .wearLevelJob rg => Sys2Proof.Machine.execWearLevelJob rg s
  | .scrubPass stripe block => Sys2Proof.Machine.execScrubPass stripe block s
  | .checkpointSegment segment => Sys2Proof.Machine.execCheckpointSegment segment s
  | .mainPowerLost durationUs markerOk => Sys2Proof.Machine.execMainPowerLost durationUs markerOk s
  | .mainPowerGood => Sys2Proof.Machine.execMainPowerGood s
  | .powerRestart => Sys2Proof.Machine.execPowerRestart s
  | .pwrdisAssert durationUs markerOk => Sys2Proof.Machine.execPwrdisAssert durationUs markerOk s
  | .bootComplete checks => Sys2Proof.Machine.execBootComplete checks s
  | .loomDirect h length desc matrices => Sys2Proof.Machine.execLoomDirect h length desc matrices s
  | .loomStepComplete loom done => Sys2Proof.Machine.execLoomStepComplete loom done s
  | .loadProgram h pind off data => Sys2Proof.Machine.execLoadProgram h pind off data s
  | .programActivate h pind => Sys2Proof.Machine.execProgramActivate h pind s
  | .programDeactivate h pind => Sys2Proof.Machine.execProgramDeactivate h pind s
  | .executeProgram h pind ptype rsid data => Sys2Proof.Machine.execExecuteProgram h pind ptype rsid data s
  | .memoryRangeSetManagement h create rsid ranges => Sys2Proof.Machine.execMemoryRangeSetManagement h create rsid ranges s
  | .runKernel h pind rsid gangs length buf => Sys2Proof.Machine.execRunKernel h pind rsid gangs length buf s
  | .invocationStart inv => Sys2Proof.Machine.execInvocationStart inv s
  | .gangPlacement => Sys2Proof.Machine.execGangPlacement s
  | .invocationEnd inv => Sys2Proof.Machine.execInvocationEnd inv s
  | .gangStall g => Sys2Proof.Machine.execGangStall g s
  | .barrierTimeout inv scope ident => Sys2Proof.Machine.execBarrierTimeout inv scope ident s
  | .gangFault inv => Sys2Proof.Machine.execGangFault inv s
  | .iadd g r => Sys2Proof.Machine.execIadd g r s
  | .isub g r => Sys2Proof.Machine.execIsub g r s
  | .imul g r => Sys2Proof.Machine.execImul g r s
  | .imulhi g r => Sys2Proof.Machine.execImulhi g r s
  | .imad g r => Sys2Proof.Machine.execImad g r s
  | .iaddi g rd ra imm => Sys2Proof.Machine.execIaddi g rd ra imm s
  | .andOp g r => Sys2Proof.Machine.execAndOp g r s
  | .orOp g r => Sys2Proof.Machine.execOrOp g r s
  | .xorOp g r => Sys2Proof.Machine.execXorOp g r s
  | .shl g r => Sys2Proof.Machine.execShl g r s
  | .shr g r => Sys2Proof.Machine.execShr g r s
  | .sar g r => Sys2Proof.Machine.execSar g r s
  | .imin g r => Sys2Proof.Machine.execImin g r s
  | .imax g r => Sys2Proof.Machine.execImax g r s
  | .popc g r => Sys2Proof.Machine.execPopc g r s
  | .clz g r => Sys2Proof.Machine.execClz g r s
  | .icmp g r => Sys2Proof.Machine.execIcmp g r s
  | .sel g r => Sys2Proof.Machine.execSel g r s
  | .mov g r => Sys2Proof.Machine.execMov g r s
  | .movi g rd imm => Sys2Proof.Machine.execMovi g rd imm s
  | .bfe g r => Sys2Proof.Machine.execBfe g r s
  | .sreg g rd imm => Sys2Proof.Machine.execSreg g rd imm s
  | .fadd g r => Sys2Proof.Machine.execFadd g r s
  | .fsub g r => Sys2Proof.Machine.execFsub g r s
  | .fmul g r => Sys2Proof.Machine.execFmul g r s
  | .ffma g r => Sys2Proof.Machine.execFfma g r s
  | .fmin g r => Sys2Proof.Machine.execFmin g r s
  | .fmax g r => Sys2Proof.Machine.execFmax g r s
  | .fcmp g r => Sys2Proof.Machine.execFcmp g r s
  | .frnd g r => Sys2Proof.Machine.execFrnd g r s
  | .fclass g r => Sys2Proof.Machine.execFclass g r s
  | .cvt g r => Sys2Proof.Machine.execCvt g r s
  | .fdiv g r => Sys2Proof.Machine.execFdiv g r s
  | .fsqrt g r => Sys2Proof.Machine.execFsqrt g r s
  | .frcp g r => Sys2Proof.Machine.execFrcp g r s
  | .fexp2 g r => Sys2Proof.Machine.execFexp2 g r s
  | .flog2 g r => Sys2Proof.Machine.execFlog2 g r s
  | .idiv g r => Sys2Proof.Machine.execIdiv g r s
  | .irem g r => Sys2Proof.Machine.execIrem g r s
  | .shfl g r => Sys2Proof.Machine.execShfl g r s
  | .vote g r => Sys2Proof.Machine.execVote g r s
  | .ld g m => Sys2Proof.Machine.execLd g m s
  | .st g m => Sys2Proof.Machine.execSt g m s
  | .atom g m op => Sys2Proof.Machine.execAtom g m op s
  | .cas g m => Sys2Proof.Machine.execCas g m s
  | .fence g scope => Sys2Proof.Machine.execFence g scope s
  | .bra g target => Sys2Proof.Machine.execBra g target s
  | .brz g ra target reconv => Sys2Proof.Machine.execBrz g ra target reconv s
  | .brnz g ra target reconv => Sys2Proof.Machine.execBrnz g ra target reconv s
  | .reconv g => Sys2Proof.Machine.execReconv g s
  | .bar g scope ident => Sys2Proof.Machine.execBar g scope ident s
  | .ticket g rd ra rb => Sys2Proof.Machine.execTicket g rd ra rb s
  | .waitOp g rd ra => Sys2Proof.Machine.execWaitOp g rd ra s
  | .pollOp g rd ra => Sys2Proof.Machine.execPollOp g rd ra s
  | .pulse g => Sys2Proof.Machine.execPulse g s
  | .exitOp g ra => Sys2Proof.Machine.execExitOp g ra s
  | .trapOp g imm => Sys2Proof.Machine.execTrapOp g imm s
  | .nopOp g => Sys2Proof.Machine.execNopOp g s
  | .streamFeed h sid rsid gangs length check buf => Sys2Proof.Machine.execStreamFeed h sid rsid gangs length check buf s
  | .streamPark h sid release save slba => Sys2Proof.Machine.execStreamPark h sid release save slba s
  | .streamParkNow h sid release save slba => Sys2Proof.Machine.execStreamParkNow h sid release save slba s
  | .streamResumeHome h sid => Sys2Proof.Machine.execStreamResumeHome h sid s
  | .streamResumeInit h sid length image => Sys2Proof.Machine.execStreamResumeInit h sid length image s
  | .streamResumeLoad h sid slba nlb => Sys2Proof.Machine.execStreamResumeLoad h sid slba nlb s
  | .chunkDispatch sid => Sys2Proof.Machine.execChunkDispatch sid s
  | .streamEviction sid => Sys2Proof.Machine.execStreamEviction sid s
  | .sliceSeal inv => Sys2Proof.Machine.execSliceSeal inv s
  | .sliceAdmit sid => Sys2Proof.Machine.execSliceAdmit sid s
  | .siftQuery h q buf => Sys2Proof.Machine.execSiftQuery h q buf s
  | .siftMount h slot slba resident => Sys2Proof.Machine.execSiftMount h slot slba resident s
  | .siftUnmount h slot => Sys2Proof.Machine.execSiftUnmount h slot s
  | .guildSift h q buf => Sys2Proof.Machine.execGuildSift h q buf s
  | .yieldPoint sifter ctx => Sys2Proof.Machine.execYieldPoint sifter ctx s
  | .searchFinalise search => Sys2Proof.Machine.execSearchFinalise search s
  | .replyByFinalise search => Sys2Proof.Machine.execReplyByFinalise search s
  | .guildMerge search => Sys2Proof.Machine.execGuildMerge search s
  | .flitReceived port f => Sys2Proof.Machine.execFlitReceived port f s
  | .nak port seq => Sys2Proof.Machine.execNak port seq s
  | .portProtectionDown port => Sys2Proof.Machine.execPortProtectionDown port s
  | .linkDown port => Sys2Proof.Machine.execLinkDown port s
  | .aliveTimeout port => Sys2Proof.Machine.execAliveTimeout port s
  | .rateAdapt port ber12 => Sys2Proof.Machine.execRateAdapt port ber12 s
  | .portTrained port ok => Sys2Proof.Machine.execPortTrained port ok s
  | .ratePinWrite v port value => Sys2Proof.Machine.execRatePinWrite v port value s
  | .portModeWrite v port value => Sys2Proof.Machine.execPortModeWrite v port value s
  | .windowWrite v window fields => Sys2Proof.Machine.execWindowWrite v window fields s
  | .getOp x => Sys2Proof.Machine.execGetOp x s
  | .putOp x data => Sys2Proof.Machine.execPutOp x data s
  | .sealOp x messages bytes => Sys2Proof.Machine.execSealOp x messages bytes s
  | .sendOp x data => Sys2Proof.Machine.execSendOp x data s
  | .siftOp x k index block => Sys2Proof.Machine.execSiftOp x k index block s
  | .streamOp x data => Sys2Proof.Machine.execStreamOp x data s
  | .syncOp x port t1 t2 => Sys2Proof.Machine.execSyncOp x port t1 t2 s
  | .delayReq x port t3 t4 => Sys2Proof.Machine.execDelayReq x port t3 t4 s
  | .delayResp x port t3 t4 => Sys2Proof.Machine.execDelayResp x port t3 t4 s
  | .timeTransferInterval => Sys2Proof.Machine.execTimeTransferInterval s
  | .controlAlive port => Sys2Proof.Machine.execControlAlive port s
  | .controlProbe x => Sys2Proof.Machine.execControlProbe x s
  | .controlLost port member epoch => Sys2Proof.Machine.execControlLost port member epoch s
  | .controlPaused port member epoch resume => Sys2Proof.Machine.execControlPaused port member epoch resume s
  | .controlResumed port member epoch => Sys2Proof.Machine.execControlResumed port member epoch s
  | .controlJoined port member epoch => Sys2Proof.Machine.execControlJoined port member epoch s
  | .controlPeriod port code bell => Sys2Proof.Machine.execControlPeriod port code bell s
  | .controlIdentity port guild member epoch digest => Sys2Proof.Machine.execControlIdentity port guild member epoch digest s
  | .controlTable port part last code entries => Sys2Proof.Machine.execControlTable port part last code entries s
  | .controlDelays port part last entries => Sys2Proof.Machine.execControlDelays port part last entries s
  | .partSequenceTimeout port => Sys2Proof.Machine.execPartSequenceTimeout port s
  | .transactionReply x head data => Sys2Proof.Machine.execTransactionReply x head data s
  | .e2eRetryTimeout tag => Sys2Proof.Machine.execE2eRetryTimeout tag s
  | .repeatRecordExpiry source epoch tag => Sys2Proof.Machine.execRepeatRecordExpiry source epoch tag s
  | .detourDiscard port => Sys2Proof.Machine.execDetourDiscard port s
  | .stagingTimeout source epoch group => Sys2Proof.Machine.execStagingTimeout source epoch group s
  | .heldResend tag => Sys2Proof.Machine.execHeldResend tag s
  | .probeWindowExpiry port => Sys2Proof.Machine.execProbeWindowExpiry port s
  | .noPortUpExpiry => Sys2Proof.Machine.execNoPortUpExpiry s
  | .holdoverPause => Sys2Proof.Machine.execHoldoverPause s
  | .joinComplete => Sys2Proof.Machine.execJoinComplete s
  | .periodChangeAtE => Sys2Proof.Machine.execPeriodChangeAtE s
  | .leaveComplete => Sys2Proof.Machine.execLeaveComplete s
  | .guildSetGeometry h serial length block => Sys2Proof.Machine.execGuildSetGeometry h serial length block s
  | .guildJoin h serial => Sys2Proof.Machine.execGuildJoin h serial s
  | .guildLeave h serial => Sys2Proof.Machine.execGuildLeave h serial s
  | .guildSetPeriod h serial code bell => Sys2Proof.Machine.execGuildSetPeriod h serial code bell s
  | .guildPing h member => Sys2Proof.Machine.execGuildPing h member s
  | .memoryRead h addr len => Sys2Proof.Machine.execMemoryRead h addr len s
  | .memoryWrite h addr data => Sys2Proof.Machine.execMemoryWrite h addr data s
  | .memoryCopy h dst src len => Sys2Proof.Machine.execMemoryCopy h dst src len s
  | .handoffHandleWrite v handle value => Sys2Proof.Machine.execHandoffHandleWrite v handle value s
  | .cycOut dst src cycle period image => Sys2Proof.Machine.execCycOut dst src cycle period image s
  | .discover round slots all => Sys2Proof.Machine.execDiscover round slots all s
  | .assignOp serial address setTerm term => Sys2Proof.Machine.execAssignOp serial address setTerm term s
  | .acyOdRead r => Sys2Proof.Machine.execAcyOdRead r s
  | .acyOdWrite r => Sys2Proof.Machine.execAcyOdWrite r s
  | .acyPenTake r => Sys2Proof.Machine.execAcyPenTake r s
  | .acyPenGive r => Sys2Proof.Machine.execAcyPenGive r s
  | .acyPoll token => Sys2Proof.Machine.execAcyPoll token s
  | .acySnapshotRead r => Sys2Proof.Machine.execAcySnapshotRead r s
  | .milnyWatchdogExpiry => Sys2Proof.Machine.execMilnyWatchdogExpiry s
  | .apstIdleExpiry => Sys2Proof.Machine.execApstIdleExpiry s
  | .powerStateEntry => Sys2Proof.Machine.execPowerStateEntry s
  | .ps0Reached => Sys2Proof.Machine.execPs0Reached s
  | .mediaCareWake hoursLeft => Sys2Proof.Machine.execMediaCareWake hoursLeft s
  | .powerFloorWrite v memoryPermit value => Sys2Proof.Machine.execPowerFloorWrite v memoryPermit value s
  | .hostCapWrite v value => Sys2Proof.Machine.execHostCapWrite v value s
  | .thermalEvaluation readings drawn => Sys2Proof.Machine.execThermalEvaluation readings drawn s
  | .rear12vLost => Sys2Proof.Machine.execRear12vLost s
  | .rear12vReturn => Sys2Proof.Machine.execRear12vReturn s
  | .resetRequestWarm v => Sys2Proof.Machine.execResetRequestWarm v s
  | .resetRequestCold v => Sys2Proof.Machine.execResetRequestCold v s
  | .resetRequestGuild v => Sys2Proof.Machine.execResetRequestGuild v s
  | .firmwareImageDownload h off piece => Sys2Proof.Machine.execFirmwareImageDownload h off piece s
  | .firmwareCommitAction0 h slot => Sys2Proof.Machine.execFirmwareCommitAction0 h slot s
  | .firmwareCommitAction1 h slot => Sys2Proof.Machine.execFirmwareCommitAction1 h slot s
  | .firmwareCommitAction2 h slot => Sys2Proof.Machine.execFirmwareCommitAction2 h slot s
  | .firmwareCommitAction3 h slot => Sys2Proof.Machine.execFirmwareCommitAction3 h slot s
  | .activationStart => Sys2Proof.Machine.execActivationStart s
  | .activationPause failedPart pauseUs => Sys2Proof.Machine.execActivationPause failedPart pauseUs s
  | .activationEnd => Sys2Proof.Machine.execActivationEnd s
  | .imageCopyPart => Sys2Proof.Machine.execImageCopyPart s
  | .freezePin lowNs => Sys2Proof.Machine.execFreezePin lowNs s
  | .stickyRecordClear v slot => Sys2Proof.Machine.execStickyRecordClear v slot s
  | .clearThrough v seq => Sys2Proof.Machine.execClearThrough v seq s
  | .counterClear v idx sub value => Sys2Proof.Machine.execCounterClear v idx sub value s
  | .discardSnapshot v => Sys2Proof.Machine.execDiscardSnapshot v s
  | .memberCertificateWrite v cert => Sys2Proof.Machine.execMemberCertificateWrite v cert s
  | .kernelKeyWrite v slot key => Sys2Proof.Machine.execKernelKeyWrite v slot key s
  | .sessionHello port cert ephemeral random => Sys2Proof.Machine.execSessionHello port cert ephemeral random s
  | .sessionProof port signature => Sys2Proof.Machine.execSessionProof port signature s
  | .securingTimeout port => Sys2Proof.Machine.execSecuringTimeout port s
  | .rekeyThreshold port => Sys2Proof.Machine.execRekeyThreshold port s
  | .rekeyReq port ephemeral random slot signature => Sys2Proof.Machine.execRekeyReq port ephemeral random slot signature s
  | .rekeyRsp port ephemeral random slot signature => Sys2Proof.Machine.execRekeyRsp port ephemeral random slot signature s
  | .rekeySwitch port transmit => Sys2Proof.Machine.execRekeySwitch port transmit s
  | .rekeyRetry port => Sys2Proof.Machine.execRekeyRetry port s
  | .nonceHardStop port => Sys2Proof.Machine.execNonceHardStop port s
  | .alwaysOnPowerUp => Sys2Proof.Machine.execAlwaysOnPowerUp s
  | .alwaysOnPowerLoss => Sys2Proof.Machine.execAlwaysOnPowerLoss s
  | .uncorrectableError cls => Sys2Proof.Machine.execUncorrectableError cls s
  | .invalidMilnyFrame frame => Sys2Proof.Machine.execInvalidMilnyFrame frame s
  | .ownAddressFrame ftype src => Sys2Proof.Machine.execOwnAddressFrame ftype src s
  | .freezePinRelease => Sys2Proof.Machine.execFreezePinRelease s
  | .powerStateEntryComplete => Sys2Proof.Machine.execPowerStateEntryComplete s

end Sys2Proof.Machine
end

