-- ==== Sys2Proof/WellFormed.lean ====
section
/-!
DEFINITION. Well-formedness of the commands: every operand fits the field that carries it in the spec's formats. Operands that
stand for the outcome of a physical event have no width and are not bounded. A command that is not well formed has no sender; `exec`
is total on it all the same.
-/

namespace Sys2Proof

open Machine (rOk ldOk stOk atomOk casOk)

/-- Every byte is below 256. -/
def bytesOk (b : Bytes) : Bool := b.all (fun x => decide (x < 256))

/-- Queue, identifier, NSID and DEADLINE of a command (Table 4.6). -/
def HostId.wf (h : HostId) : Bool :=
  decide (h.sq ≤ 128) && decide (h.cid < 65536) && decide (h.nsid < 2 ^ 32) && decide (h.deadline < 65536)

/-- The serial of a write, and the tunnel command that carries it (Tables 2.9, 13.10). -/
def Via.wf (v : Via) : Bool := decide (v.serial < 65536) && v.h.wf

/-- A command as it lies in a submission queue. -/
def SqCmd.wf (c : SqCmd) : Bool := decide (c.cid < 65536) && decide (c.nsid < 2 ^ 32) && decide (c.deadline < 65536)

/-- A place in a KV page within its fields (Table 7.8). -/
def KvPut.wf (k : KvPut) : Bool := decide (k.page < 2 ^ 64) && decide (k.token < 65536) && decide (k.count < 65536)

/-- The end of a loom step within its fields (Tables 1.7, 7.8). -/
def StepEnd.wf (d : StepEnd) : Bool := decide (d.index < 131072) && d.kv.all KvPut.wf

/-- A stopped erase within its fields (R112, R120). -/
def EraseStop.wf (e : EraseStop) : Bool := decide (e.die < 256) && decide (1 ≤ e.segment) && decide (e.segment ≤ 10)

/-- A block of a die within its fields (Table 5.3). -/
def DieBlock.wf (b : DieBlock) : Bool := decide (b.die < 256) && decide (b.block < 2048)

/-- The head of a reply within its fields (Table 12.5). -/
def ReplyHead.wf (r : ReplyHead) : Bool := decide (r.kind < 256) && decide (r.status < 256)

/-- A gang slot of a wright core (R189, Table 1.4). -/
def GangRef.wf (g : GangRef) : Bool := decide (24 ≤ g.unit) && decide (g.unit ≤ 71) && decide (g.slot < 16)

/-- A flash address within the fields of Table 5.3. -/
def FlashAddr.wf (a : FlashAddr) : Bool :=
  decide (a.die < 256) && decide (a.plane < 4) && decide (a.block < 2048) && decide (a.page < 2304) && decide (a.cw < 4)

/-- The dwords of a query (Table 11.8). -/
def SiftFields.wf (q : SiftFields) : Bool := decide (q.slot < 256) && decide (q.k < 65536) && decide (q.contexts < 65536) && decide (q.length < 2 ^ 32)

/-- A transaction header within its fields (Table 12.5). -/
def Txn.wf (x : Txn) : Bool :=
  decide (x.port < 10) && decide (x.cls ≤ 5) && decide (x.guildId < 65536) && decide (x.src < 131072) && decide (x.srcEpoch < 256)
    && decide (x.dst < 131072) && decide (x.dstEpoch < 256) && decide (x.tag < 2 ^ 23) && decide (x.addr < 2 ^ 64) && decide (x.bell < 2 ^ 64)

/-- A flit header within its fields (Table 12.4). -/
def Flit.wf (f : Flit) : Bool := decide (f.vl < 8) && decide (f.seq < 65536) && decide (f.ack < 65536) && decide (f.cvl < 8)

/-- An acyclic request within its fields (Table 13.10). -/
def AcyReq.wf (r : AcyReq) : Bool :=
  decide (r.token < 256) && decide (r.index < 65536) && decide (r.sub < 256) && decide (r.serial < 65536) && decide (r.offset < 2 ^ 32)
    && decide (r.length < 65536) && bytesOk r.data

/-- Is a command well formed. -/
def Instr.wf : Instr → Bool
  | .bellEdge overruns _ _ => overruns.all (fun o => decide (o.1 ≤ 245))
  | .chimeBoundary => true
  | .hardOverrun unit => decide (unit ≤ 245)
  | .childWaitLimit tag => decide (tag < 131072)
  | .unitReply unit epoch index _ => decide (unit ≤ 245) && decide (epoch < 256) && decide (index < 131072)
  | .writeApply => true
  | .odRead h idx sub _ off len => h.wf && decide (idx < 65536) && decide (sub < 256) && decide (off < 2 ^ 32) && decide (len < 2 ^ 32)
  | .odWrite h idx sub _ serial data => h.wf && decide (idx < 65536) && decide (sub < 256) && decide (serial < 65536) && bytesOk data
  | .penTake h _ => h.wf
  | .penGive h serial => h.wf && decide (serial < 65536)
  | .penIdleTimeout => true
  | .stateRequestConfig v => v.wf
  | .stateRequestRun v => v.wf
  | .configLingerExpired => true
  | .drainComplete => true
  | .tallyQuotaWrite v _ sub value => v.wf && decide (sub < 256) && decide (value < 2 ^ 64)
  | .bellPeriodWrite v code => v.wf && decide (code < 256)
  | .sourceQualified _ srcCount _ => decide (srcCount < 2 ^ 64)
  | .bellInFrame count _ => decide (count < 2 ^ 64)
  | .bellInLost _ => true
  | .guildSourceLost _ => true
  | .alignmentLocked => true
  | .alignmentUnlocked => true
  | .doorbellWrite sq tail cmds => decide (sq ≤ 128) && decide (tail < 65536) && cmds.all SqCmd.wf
  | .nvmRead h slbaLow slbaHigh nlb => h.wf && decide (slbaLow < 2 ^ 32) && decide (slbaHigh < 2 ^ 32) && decide (nlb < 2 ^ 16)
  | .nvmWrite h slba nlb _ _ => h.wf && decide (slba < 2 ^ 64) && decide (nlb < 2 ^ 16)
  | .flush h => h.wf
  | .datasetManagement h _ _ => h.wf
  | .formatNvm h _ _ => h.wf
  | .sanitizeCryptoErase h => h.wf
  | .sanitizeBlockErase h => h.wf
  | .namespaceCreate h _ _ _ => h.wf
  | .namespaceDelete h => h.wf
  | .ioManagementSend h _ => h.wf
  | .ioManagementReceive h => h.wf
  | .abort h targetSq targetCid => h.wf && decide (targetSq < 65536) && decide (targetCid < 65536)
  | .identify h _ => h.wf
  | .getFeatures h _ => h.wf
  | .setFeaturesPowerManagement h _ _ => h.wf
  | .setFeaturesApst h _ table => h.wf && decide (table.length ≤ 32)
  | .setFeaturesNoppme h _ => h.wf
  | .setFeaturesArbitration h burst low medium high => h.wf && decide (burst < 8) && decide (low < 256) && decide (medium < 256) && decide (high < 256)
  | .setFeaturesFdp h _ => h.wf
  | .asynchronousEventRequest h => h.wf
  | .createIoSq h qid _ _ cqid _ => h.wf && decide (qid < 65536) && decide (cqid < 65536)
  | .createIoCq h qid _ _ _ _ => h.wf && decide (qid < 65536)
  | .deleteIoSq h qid => h.wf && decide (qid < 65536)
  | .deleteIoCq h qid => h.wf && decide (qid < 65536)
  | .getLogPage h _ off len _ => h.wf && decide (off < 2 ^ 32) && decide (len < 2 ^ 32)
  | .stickySummaryLog h off len _ => h.wf && decide (off < 2 ^ 32) && decide (len < 2 ^ 32)
  | .freezeLog h off len _ => h.wf && decide (off < 2 ^ 32) && decide (len < 2 ^ 32)
  | .bellLog h off len _ => h.wf && decide (off < 2 ^ 32) && decide (len < 2 ^ 32)
  | .guildLog h off len _ => h.wf && decide (off < 2 ^ 32) && decide (len < 2 ^ 32)
  | .kernelFaultLog h off len _ => h.wf && decide (off < 2 ^ 32) && decide (len < 2 ^ 32)
  | .queueThaw h serial sqid _ => h.wf && decide (serial < 65536) && decide (sqid < 65536)
  | .queueQuiet sq => decide (sq ≤ 128)
  | .queueReopen sq => decide (sq ≤ 128)
  | .deadlineEdge index => decide (index < 131072)
  | .unitReset h unit serial => h.wf && decide (unit ≤ 245) && decide (serial < 65536)
  | .unitIdle unit => decide (unit ≤ 245)
  | .snapshotFetch h off len => h.wf && decide (off < 2 ^ 32) && decide (len < 2 ^ 32)
  | .ccEnClear => true
  | .ccEnSet ams asq acq => decide (ams ≤ 1) && decide (2 ≤ asq) && decide (asq ≤ 4096) && decide (2 ≤ acq) && decide (acq ≤ 4096)
  | .functionLevelReset => true
  | .perstAssert => true
  | .perstDeassert speed width => decide (speed ≤ 3) && decide (width ≤ 8)
  | .nvmeMiBasicManagement => true
  | .healthStatusPoll => true
  | .controllerHealthStatusPoll => true
  | .readNvmeMiDataStructure _ => true
  | .read a mask _ _ index => a.wf && decide (1 ≤ mask) && decide (mask < 16) && decide (index < 131072)
  | .readSoft a mask _ index => a.wf && decide (1 ≤ mask) && decide (mask < 16) && decide (index < 131072)
  | .readCancel die => decide (die < 256)
  | .program die block wl _ _ => decide (die < 256) && decide (block < 2048) && decide (wl < 768)
  | .erase die block _ => decide (die < 256) && decide (block < 2048)
  | .eraseSuspend die => decide (die < 256)
  | .eraseResume die => decide (die < 256)
  | .eraseLock die => decide (die < 256)
  | .setLevels die group offsets => decide (die < 256) && decide (group < 32) && decide (offsets.length = 7)
  | .senseValley a level _ _ => a.wf && decide (level < 7)
  | .dieStatus die => decide (die < 256)
  | .dieReset die _ => decide (die < 256)
  | .channelTrain channel _ => decide (channel < 32)
  | .readParams die => decide (die < 256)
  | .dieReadComplete die _ => decide (die < 256)
  | .programComplete die _ => decide (die < 256)
  | .eraseComplete die _ => decide (die < 256)
  | .eraseSuspended stop => stop.wf
  | .dieTimeout die => decide (die < 256)
  | .trackerRun die group _ => decide (die < 256) && decide (group < 32)
  | .thresholdPinWrite v idx sub value => v.wf && decide (idx < 65536) && decide (sub < 256) && decide (-128 ≤ value) && decide (value < 128)
  | .decodeFail unit a => decide (unit ≤ 245) && a.wf
  | .writeComplete h => h.wf
  | .gatherTimeout die => decide (die < 256)
  | .reclaimJob rg job dst => decide (rg < 8) && decide (1 ≤ job) && decide (job ≤ 4) && dst.wf
  | .wearLevelJob rg => decide (rg < 8)
  | .scrubPass stripe block => decide (stripe < 16) && decide (block < 2048)
  | .checkpointSegment segment => decide (segment < 16384)
  | .mainPowerLost _ _ => true
  | .mainPowerGood => true
  | .powerRestart => true
  | .pwrdisAssert _ _ => true
  | .bootComplete checks => decide (checks.failedPart ≤ 8)
  | .loomDirect h length desc matrices => h.wf && decide (length < 2 ^ 32) && bytesOk desc && decide (desc.length = 256) && bytesOk matrices
  | .loomStepComplete loom done => decide (loom < 16) && done.wf
  | .loadProgram h pind off data => h.wf && decide (pind < 65536) && decide (off < 2 ^ 32) && bytesOk data
  | .programActivate h pind => h.wf && decide (pind < 65536)
  | .programDeactivate h pind => h.wf && decide (pind < 65536)
  | .executeProgram h pind _ rsid data => h.wf && decide (pind < 65536) && decide (rsid < 65536) && bytesOk data
  | .memoryRangeSetManagement h _ rsid _ => h.wf && decide (rsid < 65536)
  | .runKernel h pind rsid gangs length buf => h.wf && decide (pind < 65536) && decide (rsid < 65536) && decide (gangs < 65536) && decide (length < 2 ^ 32) && bytesOk buf
  | .invocationStart _ => true
  | .gangPlacement => true
  | .invocationEnd _ => true
  | .gangStall g => g.wf
  | .barrierTimeout _ _ _ => true
  | .gangFault _ => true
  | .iadd g r => g.wf && rOk r 0
  | .isub g r => g.wf && rOk r 0
  | .imul g r => g.wf && rOk r 0
  | .imulhi g r => g.wf && rOk r 1
  | .imad g r => g.wf && rOk r 0
  | .iaddi g rd ra imm => g.wf && decide (rd < 256) && decide (ra < 256) && decide (imm < 2 ^ 32)
  | .andOp g r => g.wf && rOk r 1
  | .orOp g r => g.wf && rOk r 0
  | .xorOp g r => g.wf && rOk r 0
  | .shl g r => g.wf && rOk r 0
  | .shr g r => g.wf && rOk r 0
  | .sar g r => g.wf && rOk r 0
  | .imin g r => g.wf && rOk r 1
  | .imax g r => g.wf && rOk r 1
  | .popc g r => g.wf && rOk r 0
  | .clz g r => g.wf && rOk r 0
  | .icmp g r => g.wf && rOk r 15 && decide (r.modifier % 8 < 6)
  | .sel g r => g.wf && rOk r 0
  | .mov g r => g.wf && rOk r 0
  | .movi g rd imm => g.wf && decide (rd < 256) && decide (imm < 2 ^ 32)
  | .bfe g r => g.wf && rOk r 1
  | .sreg g rd imm => g.wf && decide (rd < 256) && decide (imm ≤ 9)
  | .fadd g r => g.wf && rOk r 15
  | .fsub g r => g.wf && rOk r 15
  | .fmul g r => g.wf && rOk r 15
  | .ffma g r => g.wf && rOk r 15
  | .fmin g r => g.wf && rOk r 15
  | .fmax g r => g.wf && rOk r 15
  | .fcmp g r => g.wf && rOk r 7 && decide (r.modifier % 8 < 6)
  | .frnd g r => g.wf && rOk r 3
  | .fclass g r => g.wf && rOk r 0
  | .cvt g r => g.wf && rOk r 255
  | .fdiv g r => g.wf && rOk r 15
  | .fsqrt g r => g.wf && rOk r 5
  | .frcp g r => g.wf && rOk r 5
  | .fexp2 g r => g.wf && rOk r 5
  | .flog2 g r => g.wf && rOk r 5
  | .idiv g r => g.wf && rOk r 1
  | .irem g r => g.wf && rOk r 1
  | .shfl g r => g.wf && rOk r 3
  | .vote g r => g.wf && rOk r 3 && decide (r.modifier % 4 < 3)
  | .ld g m => g.wf && ldOk m
  | .st g m => g.wf && stOk m
  | .atom g m op => g.wf && atomOk m op
  | .cas g m => g.wf && casOk m
  | .fence g scope => g.wf && (scope = 1 || scope = 2)
  | .bra g target => g.wf && decide (target < 2 ^ 24)
  | .brz g ra target join => g.wf && decide (ra < 256) && decide (target < 2 ^ 24) && decide (join < 2 ^ 24)
  | .brnz g ra target join => g.wf && decide (ra < 256) && decide (target < 2 ^ 24) && decide (join < 2 ^ 24)
  | .reconv g => g.wf
  | .bar g scope ident => g.wf && decide (scope ≤ 2) && decide (ident < 16)
  | .ticket g rd ra rb => g.wf && decide (rd < 256) && decide (ra < 256) && decide (rb < 256)
  | .waitOp g rd ra => g.wf && decide (rd < 256) && decide (ra < 256)
  | .pollOp g rd ra => g.wf && decide (rd < 256) && decide (ra < 256)
  | .pulse g => g.wf
  | .exitOp g ra => g.wf && decide (ra < 256)
  | .trapOp g imm => g.wf && decide (imm < 65536)
  | .nopOp g => g.wf
  | .streamFeed h sid rsid gangs length _ buf => h.wf && decide (sid < 65536) && decide (rsid < 65536) && decide (gangs < 65536) && decide (length < 2 ^ 32) && bytesOk buf
  | .streamPark h sid _ _ slba => h.wf && decide (sid < 65536) && decide (slba < 2 ^ 64)
  | .streamParkNow h sid _ _ slba => h.wf && decide (sid < 65536) && decide (slba < 2 ^ 64)
  | .streamResumeHome h sid => h.wf && decide (sid < 65536)
  | .streamResumeInit h sid length image => h.wf && decide (sid < 65536) && decide (length < 2 ^ 32) && bytesOk image
  | .streamResumeLoad h sid slba nlb => h.wf && decide (sid < 65536) && decide (slba < 2 ^ 64) && decide (nlb < 2 ^ 16)
  | .chunkDispatch sid => decide (sid < 65536)
  | .streamEviction sid => decide (sid < 65536)
  | .sliceSeal _ => true
  | .sliceAdmit sid => decide (sid < 65536)
  | .siftQuery h q buf => h.wf && q.wf && bytesOk buf
  | .siftMount h slot slba _ => h.wf && decide (slot < 256) && decide (slba < 2 ^ 64)
  | .siftUnmount h slot => h.wf && decide (slot < 256)
  | .guildSift h q buf => h.wf && q.wf && bytesOk buf
  | .yieldPoint sifter ctx => decide (sifter < 128) && decide (ctx < 1024)
  | .searchFinalise _ => true
  | .replyByFinalise _ => true
  | .guildMerge _ => true
  | .flitReceived port f => decide (port < 10) && f.wf
  | .nak port _ => decide (port < 10)
  | .portProtectionDown port => decide (port < 10)
  | .linkDown port => decide (port < 10)
  | .aliveTimeout port => decide (port < 10)
  | .rateAdapt port _ => decide (port < 10)
  | .portTrained port _ => decide (port < 10)
  | .ratePinWrite v port value => v.wf && decide (port < 10) && decide (value < 2 ^ 64)
  | .portModeWrite v port value => v.wf && decide (port < 10) && decide (value < 2 ^ 64)
  | .windowWrite v _ _ => v.wf
  | .getOp x => x.wf
  | .putOp x data => x.wf && bytesOk data
  | .sealOp x _ _ => x.wf
  | .sendOp x data => x.wf && bytesOk data
  | .siftOp x _ index block => x.wf && decide (index < 131072) && bytesOk block
  | .streamOp x data => x.wf && bytesOk data
  | .syncOp x port _ _ => x.wf && decide (port < 10)
  | .delayReq x port _ _ => x.wf && decide (port < 10)
  | .delayResp x port _ _ => x.wf && decide (port < 10)
  | .timeTransferInterval => true
  | .controlAlive port => decide (port < 10)
  | .controlProbe x => x.wf
  | .controlLost port member epoch => decide (port < 10) && decide (member < 131072) && decide (epoch < 256)
  | .controlPaused port member epoch _ => decide (port < 10) && decide (member < 131072) && decide (epoch < 256)
  | .controlResumed port member epoch => decide (port < 10) && decide (member < 131072) && decide (epoch < 256)
  | .controlJoined port member epoch => decide (port < 10) && decide (member < 131072) && decide (epoch < 256)
  | .controlPeriod port code _ => decide (port < 10) && decide (code < 256)
  | .controlIdentity port _ member epoch _ => decide (port < 10) && decide (member < 131072) && decide (epoch < 256)
  | .controlTable port _ _ code _ => decide (port < 10) && decide (code < 256)
  | .controlDelays port _ _ _ => decide (port < 10)
  | .partSequenceTimeout port => decide (port < 10)
  | .transactionReply x head data => x.wf && head.wf && bytesOk data
  | .e2eRetryTimeout tag => decide (tag < 2 ^ 23)
  | .repeatRecordExpiry source epoch tag => decide (source < 131072) && decide (epoch < 256) && decide (tag < 2 ^ 23)
  | .detourDiscard port => decide (port < 10)
  | .stagingTimeout source epoch group => decide (source < 131072) && decide (epoch < 256) && decide (group < 32)
  | .heldResend tag => decide (tag < 2 ^ 23)
  | .probeWindowExpiry port => decide (port < 10)
  | .noPortUpExpiry => true
  | .holdoverPause => true
  | .joinComplete => true
  | .periodChangeAtE => true
  | .leaveComplete => true
  | .guildSetGeometry h serial length block => h.wf && decide (serial < 65536) && decide (length < 2 ^ 32) && bytesOk block
  | .guildJoin h serial => h.wf && decide (serial < 65536)
  | .guildLeave h serial => h.wf && decide (serial < 65536)
  | .guildSetPeriod h serial code _ => h.wf && decide (serial < 65536) && decide (code < 256)
  | .guildPing h member => h.wf && decide (member < 131072)
  | .memoryRead h addr len => h.wf && decide (addr < 2 ^ 64) && decide (len < 2 ^ 32)
  | .memoryWrite h addr data => h.wf && decide (addr < 2 ^ 64) && bytesOk data
  | .memoryCopy h dst src len => h.wf && decide (dst < 2 ^ 64) && decide (src < 2 ^ 64) && decide (len < 2 ^ 32)
  | .handoffHandleWrite v _ value => v.wf && decide (value < 2 ^ 64)
  | .cycOut dst src cycle period image => decide (dst < 256) && decide (src < 256) && decide (cycle < 65536) && decide (period < 65536) && bytesOk image && decide (image.length = 16)
  | .discover _ _ _ => true
  | .assignOp _ address _ _ => decide (address < 256)
  | .acyOdRead r => r.wf
  | .acyOdWrite r => r.wf
  | .acyPenTake r => r.wf
  | .acyPenGive r => r.wf
  | .acyPoll _ => true
  | .acySnapshotRead r => r.wf
  | .milnyWatchdogExpiry => true
  | .apstIdleExpiry => true
  | .powerStateEntry => true
  | .ps0Reached => true
  | .mediaCareWake _ => true
  | .powerFloorWrite v _ value => v.wf && decide (value < 2 ^ 64)
  | .hostCapWrite v value => v.wf && decide (value < 2 ^ 64)
  | .thermalEvaluation _ _ => true
  | .rear12vLost => true
  | .rear12vReturn => true
  | .resetRequestWarm v => v.wf
  | .resetRequestCold v => v.wf
  | .resetRequestGuild v => v.wf
  | .firmwareImageDownload h off piece => h.wf && decide (off < 2 ^ 32) && bytesOk piece
  | .firmwareCommitAction0 h slot => h.wf && decide (slot < 256)
  | .firmwareCommitAction1 h slot => h.wf && decide (slot < 256)
  | .firmwareCommitAction2 h slot => h.wf && decide (slot < 256)
  | .firmwareCommitAction3 h slot => h.wf && decide (slot < 256)
  | .activationStart => true
  | .activationPause _ _ => true
  | .activationEnd => true
  | .imageCopyPart => true
  | .freezePin _ => true
  | .stickyRecordClear v slot => v.wf && decide (slot < 768)
  | .clearThrough v _ => v.wf
  | .counterClear v idx sub value => v.wf && decide (idx < 65536) && decide (sub < 256) && decide (value < 2 ^ 64)
  | .discardSnapshot v => v.wf
  | .memberCertificateWrite v _ => v.wf
  | .kernelKeyWrite v slot _ => v.wf && decide (slot < 256)
  | .sessionHello port _ _ _ => decide (port < 10)
  | .sessionProof port _ => decide (port < 10)
  | .securingTimeout port => decide (port < 10)
  | .rekeyThreshold port => decide (port < 10)
  | .rekeyReq port ephemeral random slot _ => decide (port < 10) && decide (ephemeral < 2 ^ 776) && decide (random < 2 ^ 256) && decide (slot < 2 ^ 64)
  | .rekeyRsp port ephemeral random slot _ => decide (port < 10) && decide (ephemeral < 2 ^ 776) && decide (random < 2 ^ 256) && decide (slot < 2 ^ 64)
  | .rekeySwitch port _ => decide (port < 10)
  | .rekeyRetry port => decide (port < 10)
  | .nonceHardStop port => decide (port < 10)
  | .alwaysOnPowerUp => true
  | .alwaysOnPowerLoss => true
  | .uncorrectableError _ => true
  | .invalidMilnyFrame frame => bytesOk frame
  | .ownAddressFrame _ _ => true
  | .freezePinRelease => true
  | .powerStateEntryComplete => true

end Sys2Proof
end

