-- ==== Sys2Proof/Safety.lean ====
section
/-!
DEFINITION. The terms that statements about the block use: when a command meets its turn, what a state must satisfy in every run, and
when a step is safe.
-/

namespace Sys2Proof.Machine

/-- The parts of the state, one for each field of State. -/
inductive Part where
  | ident | od | tally | units | dev | pen | steward | bell | host | sticky | counters | freeze | flash | ledger
  | compute | streams | sifters | fabric | milny | power | update | keys | rails | sampled | edge | free | out | pending
  deriving DecidableEq, Repr

/-- A part of the state is as it was before. -/
def Part.same (s t : State) : Part → Prop
  | .ident => t.ident = s.ident
  | .od => t.od = s.od
  | .tally => t.tally = s.tally
  | .units => t.units = s.units
  | .dev => t.dev = s.dev
  | .pen => t.pen = s.pen
  | .steward => t.steward = s.steward
  | .bell => t.bell = s.bell
  | .host => t.host = s.host
  | .sticky => t.sticky = s.sticky
  | .counters => t.counters = s.counters
  | .freeze => t.freeze = s.freeze
  | .flash => t.flash = s.flash
  | .ledger => t.ledger = s.ledger
  | .compute => t.compute = s.compute
  | .streams => t.streams = s.streams
  | .sifters => t.sifters = s.sifters
  | .fabric => t.fabric = s.fabric
  | .milny => t.milny = s.milny
  | .power => t.power = s.power
  | .update => t.update = s.update
  | .keys => t.keys = s.keys
  | .rails => t.rails = s.rails
  | .sampled => t.sampled = s.sampled
  | .edge => t.edge = s.edge
  | .free => t.free = s.free
  | .out => t.out = s.out
  | .pending => t.pending = s.pending

/-- Every part of the state but the ones listed is as it was before. -/
def OnlyChanges (parts : List Part) (s t : State) : Prop := ∀ p, p ∉ parts → p.same s t

/-- The commands of the platform: the edges, the bell's sources, resets, power, firmware, and what freezes or thaws the drive. Only these
can change the identity, the object dictionary, the bell keeper, the snapshots, the update state, the rails, the sampled values or what the
log pages read. -/
def platformCommand : Instr → Bool
  | .bellEdge .. | .chimeBoundary | .hardOverrun .. | .writeApply | .configLingerExpired | .drainComplete | .sourceQualified ..
  | .bellInFrame .. | .bellInLost .. | .guildSourceLost .. | .alignmentLocked | .alignmentUnlocked | .unitReset .. | .ccEnClear
  | .functionLevelReset | .perstAssert | .mainPowerLost .. | .mainPowerGood | .powerRestart | .pwrdisAssert .. | .bootComplete ..
  | .delayResp .. | .joinComplete | .periodChangeAtE | .cycOut .. | .milnyWatchdogExpiry | .firmwareImageDownload ..
  | .firmwareCommitAction0 .. | .firmwareCommitAction1 .. | .firmwareCommitAction2 .. | .firmwareCommitAction3 ..
  | .activationStart | .activationPause .. | .activationEnd | .imageCopyPart | .freezePin .. | .alwaysOnPowerUp
  | .alwaysOnPowerLoss | .uncorrectableError .. | .freezePinRelease | .powerStateEntryComplete => true
  | _ => false

/-- The commands that reach the pen, the steward, the device state, the Milny station, the units, the keys or power besides: the tunnel
and the side-band, what wakes the drive, what changes a key, and what frees a unit. -/
def controlCommand : Instr → Bool
  | .odRead .. | .odWrite .. | .penTake .. | .penGive .. | .penIdleTimeout | .stateRequestConfig .. | .stateRequestRun ..
  | .tallyQuotaWrite .. | .bellPeriodWrite .. | .doorbellWrite .. | .formatNvm .. | .sanitizeCryptoErase ..
  | .sanitizeBlockErase .. | .namespaceCreate .. | .setFeaturesPowerManagement .. | .setFeaturesApst .. | .setFeaturesNoppme ..
  | .deadlineEdge .. | .unitIdle .. | .dieReadComplete .. | .programComplete .. | .thresholdPinWrite .. | .loomStepComplete ..
  | .gangPlacement | .yieldPoint .. | .searchFinalise .. | .replyByFinalise .. | .guildMerge .. | .portTrained ..
  | .ratePinWrite .. | .portModeWrite .. | .windowWrite .. | .getOp .. | .putOp .. | .sealOp .. | .sendOp .. | .siftOp ..
  | .streamOp .. | .controlProbe .. | .controlLost .. | .controlPaused .. | .controlResumed .. | .controlJoined ..
  | .controlPeriod .. | .controlTable .. | .controlDelays .. | .handoffHandleWrite .. | .assignOp .. | .acyOdRead ..
  | .acyOdWrite .. | .acyPenTake .. | .acyPenGive .. | .acyPoll .. | .acySnapshotRead .. | .apstIdleExpiry | .powerStateEntry
  | .ps0Reached | .mediaCareWake .. | .powerFloorWrite .. | .hostCapWrite .. | .thermalEvaluation .. | .rear12vLost
  | .rear12vReturn | .resetRequestWarm .. | .resetRequestCold .. | .resetRequestGuild .. | .stickyRecordClear .. | .clearThrough ..
  | .counterClear .. | .discardSnapshot .. | .memberCertificateWrite .. | .kernelKeyWrite .. | .sessionProof ..
  | .rekeyThreshold .. | .rekeyReq .. | .rekeySwitch .. | .rekeyRetry .. | .ownAddressFrame .. => true
  | _ => false

/-- A record as it is raised: the bell and the firmware version of the moment are put into it (Table 16.2). -/
def stamped (s : State) (r : Record) : Record := { r with bell := s.bell.count, fw := fwVersion s }

/-- The one record `r` has been raised, and waits for the sticky store. -/
def Recorded (s t : State) (r : Record) : Prop := t.sticky.pending = s.sticky.pending ++ [stamped s r]

/-- The command `cid` of queue `sq` has ended: its entry is REPLYING, and its completion, with the data that goes to host memory where
there is any, waits last in the line for the chime boundary that posts it (R447); `dma` says that the data's DMA starts there and the
completion follows one boundary later. -/
def Ends (s t : State) (sq cid : Nat) (data : Bytes) (st : Status) (dw0 dw1 : Nat) (dma : Bool) : Prop :=
  ∃ i e, findHost s sq cid = some i ∧ entryAt t i = some e ∧ e.origin = .host sq cid ∧ e.state = .replying ∧
    t.host.posting.getLast? = some ⟨sq, cid, i, st, dw0, dw1, data, dma⟩

/-- The command `cid` of queue `sq` has ended with a completion whose data, where there is any, needs no DMA of its own. -/
def Completes (s t : State) (sq cid : Nat) (data : Bytes) (st : Status) (dw0 dw1 : Nat) : Prop := Ends s t sq cid data st dw0 dw1 false

/-- The parts that the end of a command can reach: its entry, what stands under it, and the line of completions. -/
def completionParts : List Part := [.tally, .host, .flash, .ledger, .compute, .streams, .sifters, .fabric]

/-- Of the host side only the line of completions and what a boundary stops for them differs. -/
def OnlyPostings (s t : State) : Prop := { t.host with posting := s.host.posting, stopping := s.host.stopping } = s.host

/-- Beyond the parts listed and what the end of a command reaches, nothing changes; the map, the programmed pages and Subsystem Local
Memory stand as they are, and of the host side, where it is not listed, only the line of completions differs. -/
def Undisturbed (parts : List Part) (s t : State) : Prop :=
  OnlyChanges (parts ++ completionParts) s t ∧ t.ledger.map = s.ledger.map ∧ t.flash.pages = s.flash.pages ∧
  t.compute.slm = s.compute.slm ∧ (.host ∉ parts → OnlyPostings s t)

/-- The command `cid` of queue `sq` stands in the tally under index `i` and has not ended. -/
structure Stands (s : State) (sq cid i : Nat) : Prop where
  found : findHost s sq cid = some i
  entry : ∃ e, entryAt s i = some e ∧ e.origin = .host sq cid ∧ e.state ≠ .replying

/-- A chime boundary as the completions that are due meet it: what has ended by then has been looked at (R447). -/
def beforePosts (s : State) : State := commitEnded (endLoads (parkTick (stopWork (settleLost (expiryTick (thawQueues (portsChime s)))))))

/-- The moment is a bell edge at which the drive has made no transition, and no state request is due (R46, R47). -/
structure EdgeFree (s : State) : Prop where
  edge : s.bell.chime = 0
  unmoved : s.dev.movedAt ≠ some s.bell.ticks
  noRequest : ∀ a ∈ s.steward.accepted, a.idx = 0x1011 → s.bell.ticks ≤ a.bell

/-- A step is safe when it answers a next state. -/
def StepSafe (s : State) : Prop := ∃ t, step s = .next t

/-- The tally as every run leaves it (R18): each index is listed once, in rising order, and a HOST entry is a root. -/
def TallyOk (s : State) : Prop :=
  keysRising s.tally.entries = true ∧ (∀ p ∈ s.tally.entries, p.2.origin.kind = .host → p.2.parent = none) ∧
  ∀ r ∈ s.tally.waiting, r.origin.kind = .host → r.parent = none

/-- No write, flash read or Park stands under the entry `i`. -/
structure Unburdened (s : State) (i : Nat) : Prop where
  writes : ∀ w ∈ s.ledger.writes, rootOf s 4 w.entry ≠ i
  reads : ∀ j ∈ s.flash.jobs, rootOf s 4 j.entry ≠ i
  parks : ∀ p ∈ s.streams.table, ∀ k ∈ p.2.parks, rootOf s 4 k.entry ≠ i

/-- The host side runs: main power is on, the drive is past BOOT and not FROZEN, PAUSED or in FAULT, and the controller is ready. -/
structure HostRuns (s : State) : Prop where
  up : stopped s = false
  boot : s.dev.state ≠ .boot
  paused : s.dev.state ≠ .paused
  fault : s.dev.state ≠ .fault
  rdy : s.host.rdy = true

/-- The admin command `h` has been fetched and admitted, and entry `i` waits for its service. -/
structure AdminTurn (s : State) (h : HostId) (i : Nat) : Prop extends HostRuns s where
  tally : TallyOk s
  sq : h.sq = 0
  found : findHost s h.sq h.cid = some i
  fresh : ∃ e, entryAt s i = some e ∧ e.origin = .host h.sq h.cid ∧ e.state ≠ .held ∧ e.dispatched = false

/-- The I/O command `h` has been fetched and admitted, entry `i` waits for its service, and nothing of Table 2.5, R108, R402, R347 or
R96 stands in its way. -/
structure IoTurn (s : State) (h : HostId) (i : Nat) : Prop extends HostRuns s where
  tally : TallyOk s
  sq : h.sq ≠ 0
  queue : (tget s.host.sqs h.sq).isSome = true
  found : findHost s h.sq h.cid = some i
  fresh : ∃ e, entryAt s i = some e ∧ e.origin = .host h.sq h.cid ∧ e.state ≠ .held ∧ e.dispatched = false ∧ e.notReady = false
  sanitize : s.keys.sanitize = 0
  hold : s.power.hold = false
  marker : heldByMarker s i = false

/-- The write of an object: by whom, of which member or of all of them, and the data. -/
structure ObjectWrite where
  via : Via
  idx : Nat
  sub : Nat
  allsub : Bool
  data : Bytes
  deriving DecidableEq, Repr

/-- The object write that a command is: OD_WRITE itself, and every command that writes one object of its own (R39). -/
def objectWrite : Instr → Option ObjectWrite
  | .odWrite h idx sub allsub serial data => some ⟨⟨.host, serial, h⟩, idx, sub, allsub, data⟩
  | .stateRequestConfig v => some ⟨v, 0x1011, 0, false, [2]⟩
  | .stateRequestRun v => some ⟨v, 0x1011, 0, false, [3]⟩
  | .tallyQuotaWrite v ceiling sub value => some ⟨v, if ceiling then 0x2041 else 0x2040, sub, false, leBytes 4 value⟩
  | .bellPeriodWrite v code => some ⟨v, 0x2001, 0, false, leBytes 1 code⟩
  | .thresholdPinWrite v idx sub value => some ⟨v, idx, sub, false, leBytes 1 (ofInt 8 value)⟩
  | .ratePinWrite v port value => some ⟨v, 0x2911, port + 1, false, leBytes 1 value⟩
  | .portModeWrite v port value => some ⟨v, 0x2910, port + 1, false, leBytes 1 value⟩
  | .windowWrite v window fields => some ⟨v, 0x2940 + window, 0, true, windowLayout fields⟩
  | .handoffHandleWrite v handle value => some ⟨v, 0x2920, handle, false, leBytes 8 value⟩
  | .powerFloorWrite v memoryPermit value => some ⟨v, if memoryPermit then 0x2A11 else 0x2A10, 0, false, leBytes 1 value⟩
  | .hostCapWrite v value => some ⟨v, 0x2A02, 1, false, leBytes 2 value⟩
  | .resetRequestWarm v => some ⟨v, 0x2B01, 0, false, [1]⟩
  | .resetRequestCold v => some ⟨v, 0x2B01, 0, false, [2]⟩
  | .resetRequestGuild v => some ⟨v, 0x2B01, 0, false, [3]⟩
  | .stickyRecordClear v slot => some ⟨v, 0x5100 + slot, 1, false, [1]⟩
  | .clearThrough v seq => some ⟨v, 0x5001, 0, false, leBytes 8 seq⟩
  | .counterClear v idx sub value => some ⟨v, idx, sub, false, leBytes 4 value⟩
  | .discardSnapshot v => some ⟨v, 0x7001, 0, false, [1]⟩
  | .memberCertificateWrite v cert => some ⟨v, 0x2C22, 0, false, leBytes 256 cert⟩
  | .kernelKeyWrite v slot key => some ⟨v, 0x2C02, slot + 1, false, leBytes 97 key⟩
  | _ => none

/-- The tunnel command `h` meets its turn, and the steward serves it at once: it is in PS0, no request waits before it, and the
command's own fields are in order (R43, R58). -/
structure StewardTurn (s : State) (h : HostId) (i : Nat) : Prop extends AdminTurn s h i where
  ps0 : s.power.inForce = 0
  awake : s.power.waking = false
  alone : s.steward.queue = []
  room : s.steward.served < 32
  fields : h.reservedOk = true ∧ h.nsid = 0

/-- The state in which the steward serves a host request at its turn: the command runs, one more request is served at this chime, and
the idle count of a pen that the host holds has restarted (R55). -/
def atSteward (s : State) (i : Nat) : State :=
  let r := setRunning s i
  let r := { r with steward := { r.steward with served := r.steward.served + 1 } }
  if r.pen.holder = some .host then { r with pen := { r.pen with idleUs := 0, idleFresh := midBell s } } else r

/-- The always-on domain takes the side-band request `r` anew: the drive has an address, the request is well formed and no other is
held (R318, R329, R330). -/
structure SideTurn (s : State) (r : AcyReq) : Prop where
  power : s.rails.alwaysOn = true
  address : s.milny.address ≠ 0x7E
  fields : r.reservedOk = true ∧ r.lengthOk = true ∧ r.token ≠ 0
  free : s.milny.held = none

/-- The main domain can serve the side-band: the drive is past BOOT, runs and is in PS0 (Table 13.13). -/
structure SideServed (s : State) : Prop where
  up : stopped s = false
  boot : s.dev.state ≠ .boot
  ps0 : s.power.inForce = 0

/-- The gang in a slot issues an instruction for the lanes of `mask`: it can issue, and its lowest lane stands within the program
(R198, R199, R231). `g` is the gang as it issues: what has reconverged runs again, and the splinter is chosen. -/
structure GangTurn (s : State) (ref : GangRef) (v : Invocation) (g : Gang) (mask : Nat) : Prop where
  issues : issuing s ref = some (v, g, mask)
  inside : lanePc g (lowLane mask) < instrCount s v.program

/-- Of the cores only the gang in one slot changes: other slots, partitions and local memory are as before. -/
def OnlyGang (s t : State) (ref : GangRef) : Prop :=
  (∀ r, r ≠ ref → gangAt t r = gangAt s r) ∧
  (∀ u, (coreOf t u).parts = (coreOf s u).parts ∧ (coreOf t u).localMem = (coreOf s u).localMem)

/-- Beside the cores nothing of the compute state changes. -/
def OnlyCores (s t : State) : Prop := { t.compute with cores := s.compute.cores } = s.compute

/-- What an issue that touches only its gang leaves as it was. -/
def GangFrame (s t : State) (ref : GangRef) : Prop :=
  OnlyGang s t ref ∧ OnlyCores s t ∧ OnlyChanges [.compute, .counters, .sticky] s t

/-- The lanes of `mask` have gone on to their next instruction, the others stand. -/
def Advanced (g h : Gang) (mask : Nat) : Prop :=
  ∀ i, lanePc h i = if i ∈ lanesOf mask then lanePc g i + 1 else lanePc g i

/-- The command `c` writes `f lane` to register `rd` of every issuing lane and nothing else of the gang, and the lanes go on. -/
def GangWrites (c : Instr) (s : State) (ref : GangRef) (g : Gang) (mask rd : Nat) (f : Nat → Word) : Prop :=
  ∃ t h, exec c s = .next t ∧ gangAt t ref = some h ∧ (∀ i ∈ lanesOf mask, regAt h i rd = f i) ∧
    (∀ i q, i < 32 → q < 256 → (i ∉ lanesOf mask ∨ q ≠ rd) → regAt h i q = regAt g i q) ∧ Advanced g h mask ∧
    { h with regs := g.regs, pcs := g.pcs } = g ∧ GangFrame s t ref

/-- The command `c` leaves the gang `h` in its slot and changes nothing else but the core's counter of issues. -/
def GangPuts (c : Instr) (s : State) (ref : GangRef) (h : Gang) : Prop :=
  ∃ t, exec c s = .next t ∧ gangAt t ref = some h ∧ GangFrame s t ref

/-- The command `c` stops the gang in its slot with the fault `f`, numbered in the order of detection (R208), and changes nothing else but
the core's counter of issues. -/
def GangFaults (c : Instr) (s : State) (ref : GangRef) (g : Gang) (f : GangFault) : Prop :=
  ∃ t, exec c s = .next t ∧
    gangAt t ref = some { g with fault := some f, faultNo := s.compute.faultNo, faultChime := chimeNow s } ∧ OnlyGang s t ref ∧
    { t.compute with cores := s.compute.cores, faultNo := s.compute.faultNo } = s.compute ∧
    t.compute.faultNo = s.compute.faultNo + 1 ∧ OnlyChanges [.compute, .counters, .sticky] s t

/-- One byte of a space as the gang's invocation stands (Table 9.11). -/
def spaceByte (s : State) (unit inv : Nat) (v : Invocation) (space a : Nat) : Nat :=
  spaceRead s unit ((tget s.compute.invs inv).getD v) space a 1

/-- The values of `n` bytes of a space from `a`, as the gang's invocation stands. -/
def spaceBytes (s : State) (unit inv : Nat) (v : Invocation) (space a n : Nat) : Nat :=
  spaceRead s unit ((tget s.compute.invs inv).getD v) space a n

/-- Where a space of Subsystem Local Memory begins for an invocation (R230). -/
def slmBase (s : State) (v : Invocation) (space : Nat) : Nat := (((rangesOf s v)[space - 4]?).map (fun x => x.1)).getD 0

/-- What stands when a gang stores to one space, and to bytes that `hit` names there: the local memory of other cores and programs,
the loft windows of other invocations, the packages with their SCALE sections, every byte of Subsystem Local Memory that is not hit,
the map and the pages, the partitions and every other gang. -/
def OtherSpaces (s t : State) (ref : GangRef) (inv : Nat) (v : Invocation) (space : Nat) (hit : Nat → Prop) : Prop :=
  (∀ u p, (space ≠ 0 ∨ u - 24 ≠ ref.unit - 24 ∨ p ≠ v.program) → tget (coreOf t u).localMem p = tget (coreOf s u).localMem p) ∧
  (∀ n, (space ≠ 1 ∨ n ≠ inv) → tget t.compute.invs n = tget s.compute.invs n) ∧
  (∃ w, tget t.compute.invs inv = some { v with window := w }) ∧
  (∀ a, (space < 4 ∨ ∀ b, hit b → a ≠ slmBase s v space + b) → mget t.compute.slm a = mget s.compute.slm a) ∧
  { t.compute with cores := s.compute.cores, invs := s.compute.invs, slm := s.compute.slm } = s.compute ∧
  (∀ u, (coreOf t u).parts = (coreOf s u).parts) ∧ (∀ r, r ≠ ref → gangAt t r = gangAt s r) ∧
  OnlyChanges [.compute, .counters, .sticky] s t

/-- Of the fabric only the port `p` changes, and the Guild log that notes it. -/
def OnlyPort (s t : State) (p : Nat) : Prop :=
  (∀ q, q ≠ p → portOf t q = portOf s q) ∧
  { t.fabric with
    ports := s.fabric.ports, log := s.fabric.log, logWritten := s.fabric.logWritten, noPortUpSince := s.fabric.noPortUpSince } = s.fabric

/-- The command `c` takes the port `p` DOWN and, where it is not held down, to training again: its session has ended (R277, R405). -/
def PortFalls (c : Instr) (s : State) (p : Nat) (parts : List Part) : Prop :=
  ∃ t, exec c s = .next t ∧ (portOf t p).st = (if portHeldDown s p then .down else .training) ∧
    (portOf t p).session = Session.reset ∧ OnlyPort s t p ∧ OnlyChanges (.fabric :: parts) s t

/-- The header of this member's reply to a request (Table 12.5), with a bell and `n` bytes of data. -/
def replyHeader (s : State) (x : Txn) (bell n : Nat) : Txn :=
  { x with
    reply := true, detour := false, hops := 0, tryNo := 0, src := s.fabric.memberId, srcEpoch := s.fabric.epoch, dst := x.src
    dstEpoch := x.srcEpoch, bell := bell, length := n }

/-- The messages `ms` (header, type, status and data) wait in this order, behind what waits there, on the port that leads to member `y`,
and no flit of them has gone; with no way open none waits (R282, R286, R287). Other ports are as before. -/
def Sends (s t : State) (y : Nat) (ms : List (Txn × Nat × Nat × List Nat)) : Prop :=
  (∀ p d, choosePort s y none = some (p, d) →
    (∃ l, (portOf t p).tx = (portOf s p).tx ++ l ∧ (∀ m ∈ l, m.started = false) ∧
      l.map (fun m => (m.x, m.type, m.status, m.data)) =
        ms.map (fun k => ({ k.1 with port := p, detour := k.1.detour || d }, k.2))) ∧
    ∀ q, q ≠ p → portOf t q = portOf s q) ∧
  (choosePort s y none = none → t.fabric.ports = s.fabric.ports)

/-- The replies `rs` to the request `x` wait to be sent: status, bell and data of each, in this order. -/
def Replies (s t : State) (x : Txn) (type : Nat) (rs : List (Nat × Nat × Bytes)) : Prop :=
  Sends s t x.src (rs.map (fun r => (replyHeader s x r.2.1 r.2.2.length, type, r.1, r.2.2)))

/-- A message for this member arrives from its own guild on a port that is UP, and the member is not in PS1 (R284, R290). -/
structure TxnHere (s : State) (x : Txn) : Prop where
  up : stopped s = false
  port : portUp s x.port = true
  guild : x.guildId = s.fabric.guildId
  awake : s.power.inForce ≠ 1
  here : x.dst = s.fabric.memberId

/-- The request `a` of a peer, met under the present epoch, has been admitted under entry `i`, and its record stands (R20, R284); a PUT or
STREAM has room in the receive staging. -/
structure TxnTurn (s : State) (a : Arrived) (i : Nat) : Prop where
  found : s.fabric.arrived.find? (fun b => b.x.src = a.x.src && b.x.tag = a.x.tag) = some a
  entry : ∃ e, entryAt s i = some e ∧ e.origin = .fabric a.x.src a.x.tag ∧ e.parent = none
  fresh : ∃ g, targetOf s a.x.src a.x.srcEpoch a.x.tag = some g ∧ g.x = a.x ∧ g.type = a.type ∧ g.entry = none ∧ g.replied = false
  sole : ∀ g ∈ s.fabric.targets, g.entry ≠ some i
  room : receiveRoom s a = true

/-- The state after a peer's request has been adopted under entry `i`. -/
def served (s : State) (a : Arrived) (i : Nat) : State := adoptArrived s a.x.src a.x.tag i

/-- The request is served with the replies `rs`, after the ACCEPT that every type but SIFT has first (R284), and beyond `parts` nothing
changes but what the end of a request reaches. -/
def Serves (s : State) (a : Arrived) (i : Nat) (rs : List (Nat × Bytes)) (parts : List Part) : Prop :=
  Replies s (served s a i) a.x a.type ((if a.type = 5 then [] else [(1, 0, [])]) ++ rs.map (fun r => (r.1, 0, r.2))) ∧
  Undisturbed ([.counters, .sticky] ++ parts) s (served s a i)

/-- A guild notice arrives on a port that is UP, and the member is not SOLO and not in PS1. -/
structure NoticeTurn (s : State) (p : Nat) : Prop where
  up : stopped s = false
  port : portUp s p = true
  awake : s.power.inForce ≠ 1
  inGuild : s.fabric.member ≠ .solo

/-- The CONTROL message `k` with `data` waits on every UP port but `except`, and no other message is new (R304, R306). -/
def Flooded (s t : State) (except : Option Nat) (k : Control) (data : List Nat) : Prop :=
  (∀ p ∈ upPorts s, some p ≠ except → ∃ m : TxMsg, (portOf t p).tx = (portOf s p).tx ++ [m] ∧ m.type = 8 ∧ m.x.addr = k.code ∧
    m.data = data ∧ m.started = false) ∧
  (∀ p, p ∉ upPorts s ∨ some p = except → (portOf t p).tx = (portOf s p).tx) ∧ t.out = s.out

/-- The rational value of a finite floating value (R175). -/
def fvRat : Fv → Option Rat
  | .fin neg m e => some ((if neg then -1 else 1) * (m : Rat) * (2 : Rat) ^ e)
  | _ => none

/-- The pen as every run leaves it (R52): its serial fits 16 bits, and the serial of a holder is never 0. -/
def PenOk (s : State) : Prop := s.pen.serial < 65536 ∧ (s.pen.holder.isSome = true → s.pen.serial ≠ 0)

/-- The sticky store as every run leaves it (R383): its slots are numbered 0 to 767, each holds one record, and no record carries a
sequence number above the number of records written. -/
def StickyOk (s : State) : Prop :=
  keysRising s.sticky.slots = true ∧ ∀ p ∈ s.sticky.slots, p.1 < 768 ∧ p.2.record.seq ≤ s.sticky.written

/-- The bell as every run leaves it: the count, and the one that a step is to load, fit 64 bits (R65, R77), at most the eight chime boundaries of the bell have passed (R64's
chapter), and the ring of the Bell log holds at most 256 entries (R84). -/
def BellOk (s : State) : Prop :=
  s.bell.count < 2 ^ 64 ∧ (∀ p ∈ s.bell.step, p.2 < 2 ^ 64) ∧ s.bell.chime ≤ 8 ∧ s.bell.log.length ≤ 256

/-- Subsystem Local Memory keeps its canonical form: addresses rising, no listed byte of value 0. -/
def MemoryOk (s : State) : Prop := Mem.wf s.compute.slm = true

/-- What every step keeps. -/
def Sound (s : State) : Prop := PenOk s ∧ StickyOk s ∧ BellOk s ∧ TallyOk s ∧ MemoryOk s

end Sys2Proof.Machine
end

