-- ==== Sys2Proof/Certificates/Slice0/Obligations.lean ====
section
/-!
DEFINITION. The statements about the block, one definition each.
-/

open Sys2Proof Sys2Proof.Machine
open Host (Outcome)

/-- A step takes the command at the front of the queue and runs it with the rest of the queue. (chapter 1) -/
def Obligations.StepTakesTheFrontCommand : Prop :=
  ∀ (s : State) (c : Instr) (rest : List Instr), s.pending = c :: rest → step s = exec c { s with pending := rest }

/-- On an empty queue a step changes nothing (the model's choice, assumption 1). (chapter 1) -/
def Obligations.StepIdlesOnAnEmptyQueue : Prop :=
  ∀ s : State, s.pending = [] → step s = .next s

/-- No command stops the block: every command answers a next state in every state. (chapter 1) -/
def Obligations.EveryCommandAnswersANextState : Prop :=
  ∀ (c : Instr) (s : State), ∃ t, exec c s = .next t

/-- What the reset state holds: BOOT, bell count 0, a free pen, an empty tally, ring, steward and queue, no write credit. (R44, R52,
R65, R353, R318, R147) -/
def Obligations.ResetLeavesTheBlockInBoot : Prop :=
  State.reset.dev.state = .boot ∧ State.reset.bell.count = 0 ∧ State.reset.bell.chime = 0 ∧ State.reset.pen.holder = none ∧
  State.reset.pen.serial = 0 ∧ State.reset.tally.entries = [] ∧ State.reset.tally.waiting = [] ∧ State.reset.steward.queue = [] ∧
  State.reset.steward.accepted = [] ∧ State.reset.steward.held = [] ∧ State.reset.host.sqs = [] ∧ State.reset.host.cqs = [] ∧
  State.reset.host.posting = [] ∧ State.reset.host.en = false ∧ State.reset.host.rdy = false ∧ State.reset.od = [] ∧
  State.reset.counters = [] ∧ State.reset.sticky.slots = [] ∧ State.reset.sticky.pending = [] ∧ State.reset.milny.address = 0x7E ∧
  State.reset.milny.term = false ∧ State.reset.fabric.member = .solo ∧ State.reset.ledger.map = [] ∧ State.reset.ledger.staged = [] ∧
  State.reset.pending = []

/-- The state after reset satisfies the invariant Sound. (R52, R65, R84, R383) -/
def Obligations.ResetIsSound : Prop :=
  Sound State.reset

/-- Every step of every command keeps Sound: pen serial, sticky store, bell count, Bell log and SLM. (R52, R53, R65, R84, R352,
R383, R384, R181) -/
def Obligations.StepsKeepTheBlockSound : Prop :=
  ∀ s t : State, Sound s → step s = .next t → Sound t

/-- Every bell edge adds 1 to the bell count, whatever the device state, FROZEN included; the edge of a step loads the source's count
in its place. (R65, R77, R27, R147, R391) -/
def Obligations.BellEdgeAdvancesTheCount : Prop :=
  (∀ (s : State) (ov : List (Nat × Nat)) (late : Nat) (ps : Option Int), s.rails.alwaysOn = true → stopped s = false →
    ∃ t, exec (.bellEdge ov late ps) s = .next t ∧ t = mainEdge (keeperEdge s ps) ov late ∧
      t.bell.count = (match s.bell.step with | none => (s.bell.count + 1) % 2 ^ 64 | some (_, n) => n) ∧ t.bell.chime = 0) ∧
  (∀ (s : State) (ov : List (Nat × Nat)) (late : Nat), s.rails.alwaysOn = true → stopped s = true →
    ∃ t, exec (.bellEdge ov late none) s = .next t ∧
      t.bell.count = (match s.bell.step with | none => (s.bell.count + 1) % 2 ^ 64 | some (_, n) => n) ∧ t.bell.chime = 0 ∧
      t.bell.ticks = s.bell.ticks + 1 ∧ OnlyChanges [.bell, .milny, .sticky, .out] s t ∧
      (s.bell.step = none → t.sticky = s.sticky) ∧ (odVal s 0x2006 0 ≠ 1 → t.out = s.out))

/-- Ageing at a bell edge: AGE rises by 1 up to 65,535, PROMOTED follows OD 0x2044, and CLASS never changes. (R27, R28) -/
def Obligations.BellEdgeAgesEveryEntry : Prop :=
  ∀ s : State,
    ((ageAll s).tally.entries.map (fun p => (p.1, p.2.age, p.2.promoted, p.2.cls, p.2.origin, p.2.unit, p.2.epoch, p.2.state, p.2.deadline)) =
      s.tally.entries.map (fun p => (p.1, min 65535 (p.2.age + 1),
        p.2.promoted || (decide (2 ≤ p.2.cls) && decide (odVal s 0x2044 0 ≤ min 65535 (p.2.age + 1))), p.2.cls, p.2.origin, p.2.unit,
        p.2.epoch, p.2.state, p.2.deadline))) ∧
    (stopped s = false → ∃ r : List Record, (ageAll s).sticky.pending = s.sticky.pending ++ r ∧
      r.map (fun x => x.code) = (s.tally.entries.filter (fun p => p.2.age = 65534)).map (fun _ => 0x0101)) ∧
    (ageAll s).tally.waiting = s.tally.waiting ∧ (ageAll s).od = s.od ∧ (ageAll s).ledger = s.ledger ∧ (ageAll s).bell = s.bell

/-- A chime boundary counts itself and runs the work of the main domain, in which the completion that waits longest is posted before any
other (R447); eight of them fall in a bell. (R20, R90, R103, R104, R447) -/
def Obligations.ChimeBoundaryRunsTheMainDomain : Prop :=
  (∀ s : State, s.rails.alwaysOn = true → s.bell.chime < 8 → stopped s = false →
    ∃ t, exec .chimeBoundary s = .next t ∧ t = chimeWork { s with bell := { s.bell with chime := s.bell.chime + 1 } } ∧
      (∀ p rest, (beforePosts { s with bell := { s.bell with chime := s.bell.chime + 1 } }).host.posting = p :: rest → p.dma = false →
        ∃ before, s.out <+: before ∧
          before ++ (if p.data = [] then [] else [.toHost p.sq p.cid p.data]) ++ [.completion p.sq p.cid p.st (statusDnr p.st) p.dw0 p.dw1
            (sqHead (beforePosts { s with bell := { s.bell with chime := s.bell.chime + 1 } }) p.sq)] <+: t.out) ∧
      (∀ p rest, (beforePosts { s with bell := { s.bell with chime := s.bell.chime + 1 } }).host.posting = p :: rest → p.dma = true →
        p.data ≠ [] → ∃ before, s.out <+: before ∧ before ++ [.toHost p.sq p.cid p.data] <+: t.out)) ∧
  (∀ s : State, s.rails.alwaysOn = true → s.bell.chime < 8 → stopped s = true →
    ∃ t, exec .chimeBoundary s = .next t ∧ t.bell.chime = s.bell.chime + 1 ∧ t.bell.count = s.bell.count ∧
      (s.milny.expiryDue = false → t = { s with bell := { s.bell with chime := s.bell.chime + 1 } }) ∧
      (s.milny.expiryDue = true → t.milny.held = none ∧ t.milny.expiredFlag = true) ∧
      OnlyChanges [.bell, .milny, .pen, .dev, .sticky, .counters, .rails, .out] s t) ∧
  (∀ s : State, 8 ≤ s.bell.chime → exec .chimeBoundary s = .next s)

/-- A waiting request is admitted at the lowest free index where the admission test passes; a refused one keeps its place and its
refusals are counted, and one of a peer ends. (R18, R20, R21, R22, R23) -/
def Obligations.AdmissionFollowsTheTest : Prop :=
  (∀ (s : State) (r : Request), r ∈ s.tally.waiting → admits s r.origin.kind r.cls = true →
    let a := { s with tally := { s.tally with waiting := s.tally.waiting.erase r } }
    considerOne s r = adopt (admitEntry a r).2 (freeIndex s.tally.entries 0) r ∧
    (∃ e, entryAt (admitEntry a r).2 (freeIndex s.tally.entries 0) = some e ∧ e.origin = r.origin ∧ e.cls = r.cls ∧ e.unit = r.unit ∧
      e.deadline = r.deadline ∧ e.parent = r.parent ∧ e.state = .admitted ∧ e.age = 0 ∧ e.promoted = false ∧
      e.admitBell = s.bell.count ∧ e.admitChime = chimeNow s) ∧
    (∀ j, j ≠ freeIndex s.tally.entries 0 → entryAt (admitEntry a r).2 j = entryAt s j)) ∧
  (∀ (s : State) (r : Request), r ∈ s.tally.waiting → admits s r.origin.kind r.cls = false →
    (considerOne s r).tally.entries = s.tally.entries ∧
    ((∀ peer tag, r.origin ≠ .fabric peer tag) ∨ r.unit = 255 →
      (considerOne s r).tally.waiting = s.tally.waiting.replace r { r with refusals := r.refusals + 1 }) ∧
    (∀ peer tag, r.origin = .fabric peer tag → r.unit ≠ 255 → (considerOne s r).tally.waiting = s.tally.waiting.erase r)) ∧
  (∀ (s : State) (r : Request), r ∉ s.tally.waiting → considerOne s r = s)

/-- A chime boundary fetches at most OD 0x2102 commands, whatever the arbitration. (R90, R92) -/
def Obligations.FetchStaysWithinItsLimit : Prop :=
  ∀ s : State, s.host.fetchNo ≤ (fetchCommands s).host.fetchNo ∧
    (fetchCommands s).host.fetchNo ≤ s.host.fetchNo + odVal s 0x2102 0

/-- Two entries that compete for a unit: the lower effective class first, then the greater AGE, then the lower index. (R32) -/
def Obligations.PlanOrderFollowsEffectiveClass : Prop :=
  (∀ (i j : Nat) (a b : Entry), before (i, a) (j, b) = true ↔
    (effClass a < effClass b ∨ (effClass a = effClass b ∧ (b.age < a.age ∨ (a.age = b.age ∧ i < j))))) ∧
  (∀ a : Entry, (a.promoted = false → effClass a = a.cls) ∧ (a.promoted = true → 1 ≤ a.cls → effClass a = 1))

/-- The end of a host command puts its completion in the line and its entry into REPLYING, takes what stands under it, and leaves every
other entry, the dictionary, the pen, the bell and the media as they were; its boundary posts it and frees the entry. (R18, R91, R101,
R103, R105, R447) -/
def Obligations.CompletionIsPosted : Prop :=
  (∀ (s : State) (i : Nat) (e : Entry) (sq cid : Nat) (st : Status) (dw0 dw1 : Nat), entryAt s i = some e → e.origin = .host sq cid →
    e.state ≠ .replying → let t := finish s i st dw0 dw1
    entryAt t i = some { e with state := .replying } ∧ t.host.posting.getLast? = some ⟨sq, cid, i, st, dw0, dw1, [], false⟩ ∧
    (∀ j, j ∈ family s i → j ≠ i → entryAt t j = none) ∧ (∀ j, j ∉ family s i → entryAt t j = entryAt s j) ∧ t.out = s.out) ∧
  (∀ (s : State) (i : Nat) (st : Status) (dw0 dw1 : Nat), Undisturbed [] s (finish s i st dw0 dw1)) ∧
  (∀ (s : State) (p : Posting), p ∈ s.host.posting → p.dma = false →
    s.out ++ (if p.data = [] then [] else [.toHost p.sq p.cid p.data]) ++
      [.completion p.sq p.cid p.st (statusDnr p.st) p.dw0 p.dw1 (sqHead s p.sq)] <+: (postOne s p).out ∧
    entryAt (postOne s p) p.entry = none ∧ OnlyChanges (.sticky :: .counters :: .out :: completionParts) s (postOne s p)) ∧
  (∀ (s : State) (p : Posting), p ∈ s.host.posting → p.dma = true →
    (postOne s p).out = s.out ++ (if p.data = [] then [] else [.toHost p.sq p.cid p.data]) ∧
    { p with data := [], dma := false } ∈ (postOne s p).host.posting ∧ (postOne s p).tally = s.tally ∧
    OnlyChanges [.host, .out] s (postOne s p))

/-- Every command that writes an object is checked when the steward serves it and, where it passes, waits for its bell edge.
(R39, R41, R43, R54, R55, R58) -/
def Obligations.ObjectWriteIsAccepted : Prop :=
  ∀ (c : Instr) (w : ObjectWrite) (s : State) (i : Nat) (values : List (Nat × Nat)) (ty : Nat),
    objectWrite c = some w → w.via.master = .host → StewardTurn s w.via.h i → 0 < w.data.length → w.data.length ≤ 4096 →
    checkWrite (atSteward s i) .host w.via.serial w.idx w.sub w.allsub w.data = .ok (values, ty) →
    ∃ t, exec c s = .next t ∧
      t.steward.accepted = s.steward.accepted ++ [⟨w.via, w.idx, values, w.data.length, ty, s.bell.ticks, false⟩] ∧
      t.steward.queue = s.steward.queue ∧ t.steward.held = s.steward.held ∧ t.pen.holder = s.pen.holder ∧
      t.pen.serial = s.pen.serial ∧ findHost t 0 w.via.h.cid = findHost s 0 w.via.h.cid ∧ OnlyChanges [.tally, .steward, .pen] s t

/-- A write that fails a check changes no object and completes at once with its result code. (R39, R42, R58, Table 2.4) -/
def Obligations.ObjectWriteIsRefused : Prop :=
  ∀ (c : Instr) (w : ObjectWrite) (s : State) (i : Nat) (a : OdAnswer),
    objectWrite c = some w → w.via.master = .host → StewardTurn s w.via.h i → 0 < w.data.length → w.data.length ≤ 4096 →
    checkWrite (atSteward s i) .host w.via.serial w.idx w.sub w.allsub w.data = .error a →
    ∃ t, exec c s = .next t ∧
      Completes s t 0 w.via.h.cid a.data (codeStatus a.code) (a.code * 2 ^ 24 + a.ty * 2 ^ 16 + a.n) a.full ∧
      t.steward.accepted = s.steward.accepted ∧ t.pen.holder = s.pen.holder ∧ t.pen.serial = s.pen.serial ∧
      Undisturbed [.steward, .pen] s t

/-- OD_READ at its turn ends with the value asked for and its completion; it changes no object. (R40, R43, R58, R59) -/
def Obligations.ObjectReadIsAnswered : Prop :=
  ∀ (s : State) (h : HostId) (i idx sub : Nat) (allsub : Bool) (off len : Nat), StewardTurn s h i →
    ∃ t, exec (.odRead h idx sub allsub off len) s = .next t ∧
      (let a := if len = 0 then OdAnswer.bare 8 0 else if 4096 < len then OdAnswer.bare 9 0 else checkRead (atSteward s i) idx sub allsub off len
       Completes s t 0 h.cid a.data (codeStatus a.code) (a.code * 2 ^ 24 + a.ty * 2 ^ 16 + a.n) a.full) ∧
      t.steward.accepted = s.steward.accepted ∧ t.pen.holder = s.pen.holder ∧ t.pen.serial = s.pen.serial ∧
      Undisturbed [.steward, .pen] s t

/-- Pen Take: a free pen is given under the next serial; the holder's own take restarts its idle count; a forced take that OD 0x1023
permits moves the pen and is recorded; any other is refused with the holder's code. (R52, R53, R55) -/
def Obligations.PenTakeMovesThePen : Prop :=
  (∀ (s : State) (h : HostId) (i : Nat) (force : Bool), StewardTurn s h i → s.pen.holder = none →
    ∃ t, exec (.penTake h force) s = .next t ∧
      t.pen = ⟨some .host, if 65535 ≤ s.pen.serial then 1 else s.pen.serial + 1, 0, midBell s⟩ ∧ t.dev = { s.dev with lingerUs := 0 } ∧
      Completes s t 0 h.cid [] .success t.pen.serial 0 ∧ t.steward.accepted = s.steward.accepted ∧
      Undisturbed [.steward, .pen, .dev] s t) ∧
  (∀ (s : State) (h : HostId) (i : Nat) (force : Bool), StewardTurn s h i → s.pen.holder = some .host →
    ∃ t, exec (.penTake h force) s = .next t ∧ t.pen = ⟨some .host, s.pen.serial, 0, midBell s⟩ ∧
      Completes s t 0 h.cid [] .success (2 ^ 16 + s.pen.serial) 0 ∧ t.steward.accepted = s.steward.accepted ∧
      Undisturbed [.steward, .pen] s t) ∧
  (∀ (s : State) (h : HostId) (i : Nat), StewardTurn s h i → s.pen.holder = some .sideband → bit (odVal s 0x1023 0) 0 = true →
    ∃ t, exec (.penTake h true) s = .next t ∧
      t.pen = ⟨some .host, if 65535 ≤ s.pen.serial then 1 else s.pen.serial + 1, 0, midBell s⟩ ∧ t.dev = { s.dev with lingerUs := 0 } ∧
      Recorded s t { Record.of 0x0201 with winner := 1, loser := 2, b := t.pen.serial } ∧
      Completes s t 0 h.cid [] .success (2 * 2 ^ 16 + t.pen.serial) 0 ∧ Undisturbed [.steward, .pen, .dev, .sticky] s t) ∧
  (∀ (s : State) (h : HostId) (i : Nat) (force : Bool), StewardTurn s h i → s.pen.holder = some .sideband →
    force = false ∨ bit (odVal s 0x1023 0) 0 = false →
    ∃ t, exec (.penTake h force) s = .next t ∧ t.pen = s.pen ∧ Completes s t 0 h.cid [] .penHeld (6 * 2 ^ 24 + 2 * 2 ^ 16) 0 ∧
      Undisturbed [.steward] s t)

/-- Pen Give by the holder with the current serial releases the pen; any other fails with Pen Held and changes nothing of it.
(R57, R50, R55) -/
def Obligations.PenGiveReleasesThePen : Prop :=
  (∀ (s : State) (h : HostId) (i : Nat), StewardTurn s h i → s.pen.holder = some .host →
    ∃ t, exec (.penGive h s.pen.serial) s = .next t ∧ t.pen.holder = none ∧ t.pen.serial = s.pen.serial ∧ t.pen.idleUs = 0 ∧
      t.dev = { s.dev with lingerUs := 0, lingerFresh := midBell s } ∧ Completes s t 0 h.cid [] .success 0 0 ∧
      t.steward.accepted = s.steward.accepted ∧ Undisturbed [.steward, .pen, .dev] s t) ∧
  (∀ (s : State) (h : HostId) (i serial : Nat), StewardTurn s h i → s.pen.holder ≠ some .host ∨ s.pen.serial ≠ serial →
    ∃ t, exec (.penGive h serial) s = .next t ∧ t.pen.holder = s.pen.holder ∧ t.pen.serial = s.pen.serial ∧
      Completes s t 0 h.cid [] .penHeld (6 * 2 ^ 24) 0 ∧ Undisturbed [.steward, .pen] s t)

/-- WRITE_APPLY at a bell edge applies the writes accepted in earlier bells, in service order, and leaves the later ones waiting; at any
other moment nothing is due. (R41, R42, R43, R28) -/
def Obligations.WritesTakeEffectAtTheEdge : Prop :=
  (∀ s : State, stopped s = false → s.bell.chime = 0 →
    ∃ t, exec .writeApply s = .next t ∧ t = settleFault ((s.steward.accepted.filter (fun a => decide (a.bell < s.bell.ticks))).foldl applyAccepted
      { s with steward := { s.steward with accepted := s.steward.accepted.filter (fun a => !decide (a.bell < s.bell.ticks)) } })) ∧
  (∀ s : State, s.bell.chime ≠ 0 → exec .writeApply s = .next s) ∧
  (∀ (s : State) (a : Accepted) (v : Nat), stopped s = false → s.dev.state ≠ .boot → a.idx = 0x2044 → a.values = [(0, v)] →
    odVal (applyAccepted s a) 0x2044 0 = v ∧ (a.mute = true → (applyAccepted s a).host = s.host) ∧
    OnlyChanges (.od :: .milny :: completionParts) s (applyAccepted s a)) ∧
  (∀ (s : State) (a : Accepted), stopped s = false → s.dev.state = .boot → applyAccepted s a = s)

/-- A new acyclic request goes to the steward's queue for the next chime boundary, is held under its token and is answered with PENDING;
in BOOT only OD READ is served, FROZEN serves none of them; a side-band write of an object is an OD WRITE. (R318, R329, R330, R331,
R332, R43) -/
def Obligations.SideBandRequestIsTaken : Prop :=
  (∀ (s : State) (r : AcyReq), SideTurn s r → SideServed s →
    ∀ p ∈ [(Instr.acyOdRead r, 1, StewOp.read r.index r.sub r.allsub r.offset r.length),
           (Instr.acyOdWrite r, 2, StewOp.write r.index r.sub r.allsub r.data),
           (Instr.acyPenTake r, 3, StewOp.take r.force), (Instr.acyPenGive r, 4, StewOp.give)],
      ∃ t, exec p.1 s = .next t ∧ t.milny = { s.milny with held := some ⟨p.2.1, r, none, none, false, false⟩ } ∧
        t.steward = { s.steward with queue := enqueue s.steward.queue ⟨sideVia r, p.2.2, chimeNow s + 1⟩ } ∧
        t.counters = (count s 0x6010 1 1).counters ∧
        t.out = s.out ++ [.milny (milnyFrame s 0x11 (acyRsp p.2.1 r.token 1 0 0 0 0 []))] ∧
        OnlyChanges [.milny, .steward, .counters, .out] s t) ∧
  (∀ (s : State) (r : AcyReq), SideTurn s r →
    (s.dev.state = .frozen → ∀ p ∈ [(Instr.acyOdRead r, 1), (Instr.acyOdWrite r, 2), (Instr.acyPenTake r, 3), (Instr.acyPenGive r, 4)],
      ∃ t, exec p.1 s = .next t ∧ t.out = s.out ++ [.milny (milnyFrame s 0x11 (acyRsp p.2 r.token 3 0 0 0 0 []))] ∧
        OnlyChanges [.counters, .out] s t) ∧
    (s.dev.state = .boot → ∀ p ∈ [(Instr.acyOdWrite r, 2), (Instr.acyPenTake r, 3), (Instr.acyPenGive r, 4)],
      ∃ t, exec p.1 s = .next t ∧ t.out = s.out ++ [.milny (milnyFrame s 0x11 (acyRsp p.2 r.token 0 5 0 0 0 []))] ∧
        OnlyChanges [.milny, .counters, .out] s t)) ∧
  (∀ (c : Instr) (w : ObjectWrite) (s : State), objectWrite c = some w → w.via.master = .sideband → (∀ h a b d e f, c ≠ .odWrite h a b d e f) →
    exec c s = exec (.acyOdWrite ⟨w.via.h.cid, w.idx, w.sub, w.allsub, false, w.via.serial, 0, w.data.length, w.via.h.reservedOk, true,
      w.data⟩) s)

/-- ACY_POLL sends the answer that is ready, PENDING while it is not; ACY_SNAPSHOT_READ is served while FROZEN only. (R330, R332,
R334, R395) -/
def Obligations.SideBandPollAndSnapshot : Prop :=
  (∀ (s : State) (x : HeldReq) (b : Bytes), s.rails.alwaysOn = true → s.milny.address ≠ 0x7E → s.milny.held = some x →
    x.answer = some b → ∃ t, exec (.acyPoll x.req.token) s = .next t ∧ t.milny = { s.milny with held := some { x with delivered := true } } ∧
      t.out = s.out ++ [.milny (milnyFrame s 0x11 b)] ∧ OnlyChanges [.milny, .counters, .out] s t) ∧
  (∀ (s : State) (x : HeldReq), s.rails.alwaysOn = true → s.milny.address ≠ 0x7E → s.milny.held = some x →
    x.answer = none → ∃ t, exec (.acyPoll x.req.token) s = .next t ∧
      t.out = s.out ++ [.milny (milnyFrame s 0x11 (acyRsp 0 x.req.token 1 0 0 0 0 []))] ∧ OnlyChanges [.counters, .out] s t) ∧
  (∀ (s : State) (token : Nat), s.rails.alwaysOn = true → s.milny.address ≠ 0x7E → (∀ x, s.milny.held = some x → x.req.token ≠ token) →
    ∃ t, exec (.acyPoll token) s = .next t ∧
      t.out = s.out ++ [.milny (milnyFrame s 0x11 (acyRsp 0 token 5 0 0 0 0 []))] ∧ OnlyChanges [.counters, .out] s t) ∧
  (∀ (s : State) (r : AcyReq) (c : SnapCopy), SideTurn s r → s.dev.state = .frozen → s.freeze.live = some c → 0 < r.length →
    r.length ≤ 1008 → r.offset + r.length ≤ snapLength →
    ∃ t, exec (.acySnapshotRead r) s = .next t ∧
      (let a := acyRsp 5 r.token 0 0 0 r.length snapLength (snapRead c r.offset r.length)
       t.milny = { s.milny with held := some ⟨5, r, some a, none, true, false⟩ } ∧ t.out = s.out ++ [.milny (milnyFrame s 0x11 a)]) ∧
      OnlyChanges [.milny, .counters, .out] s t) ∧
  (∀ (s : State) (r : AcyReq), SideTurn s r → s.dev.state ≠ .frozen →
    ∃ t, exec (.acySnapshotRead r) s = .next t ∧
      t.out = s.out ++ [.milny (milnyFrame s 0x11 (acyRsp 5 r.token 3 0 0 0 0 []))] ∧ OnlyChanges [.counters, .out] s t)

/-- No command but those of the platform changes identity, objects, bell, snapshots, update state, rails or sampled values. (R41,
R46, R65, R360, R395) -/
def Obligations.OnlyPlatformCommandsChangeThePlatform : Prop :=
  ∀ (c : Instr) (s t : State), platformCommand c = false → exec c s = .next t →
    (t.ident = s.ident ∧ t.od = s.od ∧ t.bell = s.bell ∧ t.freeze = s.freeze ∧ t.update = s.update ∧ t.rails = s.rails ∧
      t.sampled = s.sampled ∧ t.edge = s.edge) ∧
    (controlCommand c = false → t.pen = s.pen ∧ t.steward = s.steward ∧ t.dev = s.dev ∧ t.milny = s.milny ∧ t.units = s.units ∧
      t.keys = s.keys ∧ t.power = s.power)

/-- The idle pen is released, the linger ends in RUN with cause 4, and a drain with no entry left ends in CONFIG with cause 5, each at a
bell edge. (R46, R48, R50, R55) -/
def Obligations.DriveMovesOfItsOwnAccord : Prop :=
  (∀ (s : State) (m : Master), stopped s = false → s.bell.chime = 0 → s.pen.holder = some m → 1000 * odVal s 0x1022 0 ≤ s.pen.idleUs →
    ∃ t, exec .penIdleTimeout s = .next t ∧ t.pen = { s.pen with holder := none, idleUs := 0 } ∧
      t.dev = { s.dev with lingerUs := 0, lingerFresh := false } ∧
      Recorded s t { Record.of 0x0202 with loser := partyOf m, b := s.pen.serial } ∧ OnlyChanges [.pen, .dev, .sticky] s t) ∧
  (∀ s : State, s.dev.state = .config → s.pen.holder = none → 1000 * odVal s 0x1012 0 ≤ s.dev.lingerUs → EdgeFree s →
    ∃ t, exec .configLingerExpired s = .next t ∧ t.dev.state = .run ∧ t.dev.lastFrom = 2 ∧ t.dev.lastTo = 3 ∧ t.dev.lastCause = 4 ∧
      t.dev.lastBell = s.bell.count ∧ t.dev.movedAt = some s.bell.ticks ∧ t.od = s.od ∧ t.pen = s.pen ∧ t.steward = s.steward ∧
      t.bell = s.bell ∧ (s.fabric.rejoin = false → OnlyChanges [.dev, .host, .fabric, .out] s t)) ∧
  (∀ s : State, s.dev.state = .drain → s.dev.drainForActivation = false → s.dev.drainBell < s.bell.ticks → EdgeFree s →
    (∀ p ∈ s.tally.entries, (∃ cid, p.2.origin = .host 0 cid) ∨ (∃ j tag, p.2.origin = .internal j tag)) →
    ∃ t, exec .drainComplete s = .next t ∧ t.dev.state = .config ∧ t.dev.lastFrom = 4 ∧ t.dev.lastTo = 2 ∧ t.dev.lastCause = 5 ∧
      t.dev.lastBell = s.bell.count ∧ t.dev.movedAt = some s.bell.ticks ∧ t.dev.lingerUs = 0 ∧
      OnlyChanges [.dev, .host, .fabric, .out] s t)

/-- Sources of the bell: taking one up by a slew or by a step of the bell that ends at the source's edge, the BELL_IN frames that qualify it
and those that do not agree, losing one, and the alignment states. (R75, R76, R77, R80, R82, R83) -/
def Obligations.BellSourcesAreTakenUpAndLost : Prop :=
  (∀ (s : State) (src : BellSource) (cnt : Nat) (ph : Int) (code : Nat), s.rails.alwaysOn = true →
    code = (match src with | .guild => 2 | .bellIn => 1) → bestSource s = code → s.bell.followed ≠ code →
    ∃ t, exec (.sourceQualified src cnt ph) s = .next t ∧ t.bell.followed = code ∧ t.bell.hadSource = true ∧ t.bell.align = .acquire ∧
      t.bell.count = s.bell.count ∧
      (let e := if code = 1 then ph - (odVal s 0x2007 0 : Int) else ph
       (cnt = s.bell.count → e.natAbs * 4 ≤ periodNs s → t.bell.slewPs = e * 1000 ∧ t.bell.step = none) ∧
       (cnt ≠ s.bell.count ∨ periodNs s < e.natAbs * 4 → t.bell.slewPs = 0 ∧
         t.bell.step = some ((e % (periodNs s : Int)).toNat, (((cnt : Int) + 1 - e / (periodNs s : Int)) % 2 ^ 64).toNat))) ∧
      OnlyChanges [.bell, .host, .sticky] s t) ∧
  (∀ (s : State) (c : Nat), s.rails.alwaysOn = true → s.bell.bellInLast = some c → s.bell.bellInGood = true → c % 64 = 0 →
    ∃ t, exec (.bellInFrame (c + 64) true) s = .next t ∧ t.bell.bellIn.qualified = true ∧ t.bell.bellInLast = some (c + 64) ∧
      t.bell.bellInGood = true ∧ t.bell.count = s.bell.count ∧ t.bell.log = s.bell.log ∧ OnlyChanges [.bell] s t) ∧
  (∀ (s : State) (c n : Nat) (ok : Bool), s.rails.alwaysOn = true → s.bell.bellInLast = some c → n ≠ c + 64 → s.bell.followed ≠ 1 →
    ∃ t, exec (.bellInFrame n ok) s = .next t ∧ (s.bell.bellIn.qualified = true → t.bell.bellIn = ⟨false, 0⟩) ∧
      (s.bell.bellIn.qualified = false → t.bell.bellIn = s.bell.bellIn) ∧ t.bell.bellInLast = some n ∧
      t.bell.log.getLast? = some ⟨s.bell.count, 9, 0, 0, 0, n⟩ ∧ OnlyChanges [.bell] s t) ∧
  (∀ (s : State) (oc : Bool), s.rails.alwaysOn = true → s.bell.bellIn.qualified = true →
    ∃ t, exec (.bellInLost oc) s = .next t ∧ t.bell.bellIn = ⟨false, 0⟩ ∧ t.bell.count = s.bell.count ∧
      (s.bell.followed ≠ 1 → t.bell.followed = s.bell.followed ∧ OnlyChanges [.bell] s t) ∧
      (s.bell.followed = 1 → selectable s 2 = false → t.bell.followed = 0 ∧ t.bell.align = .holdover) ∧
      (s.bell.followed = 1 → selectable s 2 = true → t.bell.followed = 2 ∧ t.bell.align = .acquire) ∧
      OnlyChanges [.bell, .host, .sticky] s t) ∧
  (∀ (s : State) (oc : Bool), s.rails.alwaysOn = true → s.bell.guild.qualified = true → (oc = true ∨ 64 ≤ s.bell.guildSince) →
    ∃ t, exec (.guildSourceLost oc) s = .next t ∧ t.bell.guild = ⟨false, 0⟩ ∧ t.bell.count = s.bell.count ∧
      (s.bell.followed ≠ 2 → t.bell.followed = s.bell.followed ∧ OnlyChanges [.bell] s t) ∧
      (s.bell.followed = 2 → selectable s 1 = false → t.bell.followed = 0 ∧ t.bell.align = .holdover) ∧
      (s.bell.followed = 2 → selectable s 1 = true → t.bell.followed = 1 ∧ t.bell.align = .acquire) ∧
      OnlyChanges [.bell, .host, .sticky, .free] s t) ∧
  (∀ s : State, s.rails.alwaysOn = true → s.bell.align = .acquire → 16 ≤ s.bell.inBound →
    ∃ t, exec .alignmentLocked s = .next t ∧ t.bell.align = .locked ∧ t.bell.count = s.bell.count ∧ t.bell.phase = s.bell.phase ∧
      t.fabric.holdoverPaused = false ∧ OnlyChanges [.bell, .host, .sticky, .fabric, .out] s t) ∧
  (∀ s : State, s.rails.alwaysOn = true → s.bell.align = .locked → 16 ≤ s.bell.outBound →
    ∃ t, exec .alignmentUnlocked s = .next t ∧ t.bell.align = .acquire ∧ t.bell.inBound = 0 ∧ t.bell.count = s.bell.count ∧
      OnlyChanges [.bell, .host, .sticky] s t)

/-- A reply of an old epoch is discarded: it is counted as a late reply and applied to no entry. Stated by the spec. (R31) -/
def Obligations.LateRepliesAreDiscarded : Prop :=
  ∀ (s : State) (unit epoch index : Nat) (st : Status), stopped s = false → unit ≤ 245 → epoch ≠ (unitOf s unit).epoch →
    ∃ t, exec (.unitReply unit epoch index st) s = .next t ∧ t = count s (0x6100 + unit) 2 1 ∧ t.tally = s.tally ∧
      OnlyChanges [.counters, .sticky] s t

/-- A reply of the current epoch, a child that has waited too long, and a deadline that has passed: its command completes with Deadline
Missed while its work stands until the boundary. (R23, R31, R99) -/
def Obligations.RepliesWaitsAndDeadlines : Prop :=
  (∀ (s : State) (unit index : Nat) (e : Entry), stopped s = false → unit ≤ 245 → entryAt s index = some e → e.unit = unit →
    e.epoch = (unitOf s unit).epoch → e.state = .running →
    (e.origin.kind ≠ .host → ∃ t, exec (.unitReply unit e.epoch index .success) s = .next t ∧
      entryAt t index = some { e with state := .replying } ∧ (∀ j, j ≠ index → entryAt t j = entryAt s j) ∧ OnlyChanges [.tally] s t) ∧
    (∀ st, st ≠ .success → exec (.unitReply unit e.epoch index st) s = .next (failRequest s index st 0))) ∧
  (∀ (s : State) (tag p : Nat) (r : Request), stopped s = false → s.tally.waiting[tag]? = some r → r.parent = some p →
    8 * odVal s 0x2046 0 ≤ r.refusals →
    ∃ t, exec (.childWaitLimit tag) s = .next t ∧ t = count (failRequest s p .tallyFull 0) 0x600A 0 1 ∧
      (∀ sq cid e, rootOf s 4 p = p → entryAt s p = some e → e.origin = .host sq cid → e.state ≠ .replying → findHost s sq cid = some p →
        Completes s t sq cid [] .tallyFull 0 0)) ∧
  (∀ (s : State) (index sq cid : Nat) (e : Entry), stopped s = false → s.bell.chime = 0 → s.dev.state ≠ .paused → entryAt s index = some e →
    e.origin = .host sq cid → e.state ≠ .replying → findHost s sq cid = some index → e.deadline ≠ 0 → e.admitBell + e.deadline ≤ s.bell.count →
    searchOf s index = none →
    ∃ t, exec (.deadlineEdge index) s = .next t ∧ Completes s t sq cid [] .deadlineMissed 0 0 ∧
      (∀ j, j ≠ index → entryAt t j = entryAt s j) ∧ OnlyPostings s t ∧ OnlyChanges [.tally, .host, .compute] s t)

/-- A unit reset raises the epoch modulo 256, sends the unit to RESET, and waits for UNIT_IDLE; a hard overrun does the same, and for the
steward, the warden and the host interface it is a warm reset of fault class 5. (R29, R30, R74, R100, R351) -/
def Obligations.UnitResetsRaiseTheEpoch : Prop :=
  (∀ (s : State) (h : HostId) (i u serial : Nat), AdminTurn s h i → activating s = false → h.reservedOk = true → unitResettable s u = true →
    s.pen.holder = some .host → s.pen.serial = serial → (unitOf s u).state ≠ .reset →
    ∃ t, exec (.unitReset h u serial) s = .next t ∧ (unitOf t u).epoch = ((unitOf s u).epoch + 1) % 256 ∧ (unitOf t u).state = .reset ∧
      (h.sq, h.cid) ∈ (unitOf t u).resetWaiters ∧ t.update.unitReset = u ∧ t.update.unitCause = 1 ∧
      (∀ w, w ≠ u → unitOf t w = unitOf s w) ∧ t.od = s.od ∧ t.pen = s.pen ∧ t.dev = s.dev ∧ t.bell = s.bell) ∧
  (∀ (s : State) (h : HostId) (i u serial : Nat), AdminTurn s h i → activating s = false →
    (h.reservedOk = false ∨ unitResettable s u = false →
      ∃ t, exec (.unitReset h u serial) s = .next t ∧ Completes s t 0 h.cid [] .invalidField 0 0 ∧ Undisturbed [] s t) ∧
    (h.reservedOk = true → unitResettable s u = true → holdsPen s .host serial = false →
      ∃ t, exec (.unitReset h u serial) s = .next t ∧ Completes s t 0 h.cid [] .penHeld 0 0 ∧ Undisturbed [] s t)) ∧
  (∀ (s : State) (u : Nat), stopped s = false → (unitOf s u).state = .reset →
    ∃ t, exec (.unitIdle u) s = .next t ∧ (unitOf t u).state = .idle ∧ (unitOf t u).epoch = (unitOf s u).epoch ∧
      (unitOf t u).resetWaiters = [] ∧ (∀ w, w ≠ u → unitOf t w = unitOf s w) ∧
      (∀ cid i, (unitOf s u).resetWaiters = [(0, cid)] → Stands s 0 cid i →
        Completes s t 0 cid [] .success (256 * (unitOf s u).epochBefore + (unitOf s u).epoch) 0) ∧
      ((unitOf s u).resetWaiters = [] → OnlyChanges [.units] s t) ∧ Undisturbed [.units] s t) ∧
  (∀ (s : State) (u : Nat), stopped s = false → unitPresent s u = true → odVal s 0x2081 0 ≤ (unitOf s u).crossed →
    u ≠ 0 → u ≠ 7 → u ≠ 232 →
    ∃ t, exec (.hardOverrun u) s = .next t ∧ (unitOf t u).epoch = ((unitOf s u).epoch + 1) % 256 ∧ (unitOf t u).state = .reset ∧
      (unitOf t u).crossed = 0 ∧ t.update.unitReset = u ∧ t.update.unitCause = 2 ∧ (∀ w, w ≠ u → unitOf t w = unitOf s w) ∧
      (∃ l, t.sticky.pending = s.sticky.pending ++ stamped s { Record.of 0x0301 with unit := some u, b := (unitOf s u).crossed } :: l) ∧
      t.od = s.od ∧ t.pen = s.pen ∧ t.dev = s.dev) ∧
  (∀ (s : State) (u : Nat), stopped s = false → s.dev.state = .run → odVal s 0x2081 0 ≤ (unitOf s u).crossed → (u = 0 ∨ u = 7 ∨ u = 232) →
    ∃ t, exec (.hardOverrun u) s = .next t ∧ t.dev.state = .boot ∧ t.dev.lastCause = 11 ∧ t.update.resetKind = 2 ∧
      t.update.resetCause = 4 ∧ t.update.lastClass = 5 ∧ t.pen.holder = none ∧ t.pen.serial = 0 ∧ t.tally.entries = [] ∧
      t.tally.waiting = [] ∧ t.od = s.od ∧ (∀ w, w ≤ 245 → (unitOf t w).epoch = ((unitOf s w).epoch + 1) % 256))

/-- Doorbells queue commands in order; queues are created empty and OPEN, and deleted once nothing of theirs stands. (R90, R92,
R105, R339, R447) -/
def Obligations.HostQueuesComeAndGo : Prop :=
  (∀ (s : State) (sq tail : Nat) (q : Sq) (cmds : List SqCmd), stopped s = false → s.host.en = true → s.host.rdy = true →
    tget s.host.sqs sq = some q → cmds ≠ [] → tail = (q.tail + cmds.length) % q.size → q.slots.length + cmds.length < q.size →
    ∃ t, exec (.doorbellWrite sq tail cmds) s = .next t ∧ tget t.host.sqs sq = some { q with tail := tail, slots := q.slots ++ cmds } ∧
      (∀ k, k ≠ sq → tget t.host.sqs k = tget s.host.sqs k) ∧ t.host.posting = s.host.posting ∧
      OnlyChanges [.host, .power, .counters, .sticky] s t) ∧
  (∀ (s : State) (h : HostId) (i qid size prio cqid : Nat), AdminTurn s h i → ioQueue qid = true → tget s.host.sqs qid = none →
    ioQueue cqid = true → (tget s.host.cqs cqid).isSome = true → ioQueueSize size = true → prio ≤ 3 →
    ∃ t, exec (.createIoSq h qid size prio cqid true) s = .next t ∧
      tget t.host.sqs qid = some ⟨size, 0, 0, prio, cqid, [], .opened, 0, none, [], false, none⟩ ∧
      (∀ k, k ≠ qid → tget t.host.sqs k = tget s.host.sqs k) ∧ Completes s t 0 h.cid [] .success 0 0 ∧ Undisturbed [.host] s t ∧
      OnlyPostings { s with host := { s.host with sqs := t.host.sqs } } t) ∧
  (∀ (s : State) (h : HostId) (i qid size vector : Nat) (ien : Bool), AdminTurn s h i → ioQueue qid = true → tget s.host.cqs qid = none →
    ioQueueSize size = true → vector ≤ 128 →
    ∃ t, exec (.createIoCq h qid size vector ien true) s = .next t ∧ tget t.host.cqs qid = some ⟨size, vector, ien, 0, 0⟩ ∧
      (∀ k, k ≠ qid → tget t.host.cqs k = tget s.host.cqs k) ∧ Completes s t 0 h.cid [] .success 0 0 ∧ Undisturbed [.host] s t ∧
      OnlyPostings { s with host := { s.host with cqs := t.host.cqs } } t) ∧
  (∀ (s : State) (h : HostId) (i qid : Nat) (q : Sq), AdminTurn s h i → qid ≠ 0 → tget s.host.sqs qid = some q → q.deleting = none →
    q.thaws = [] → undispatchedOf s qid = [] →
    ∃ t, exec (.deleteIoSq h qid) s = .next t ∧ (∀ k, k ≠ qid → tget t.host.sqs k = tget s.host.sqs k) ∧ Undisturbed [.host] s t ∧
      (queueStands s qid = false → tget t.host.sqs qid = none ∧ Completes s t 0 h.cid [] .success 0 0) ∧
      (queueStands s qid = true → t.host.posting = s.host.posting ∧ tget t.host.sqs qid =
        some { q with freeze := .opened, log := none, slots := [], deleting := some h.cid })) ∧
  (∀ (s : State) (h : HostId) (i qid : Nat), AdminTurn s h i → qid ≠ 0 → (tget s.host.cqs qid).isSome = true →
    (∀ p ∈ s.host.sqs, p.1 ≠ 0 → p.2.cq ≠ qid) →
    ∃ t, exec (.deleteIoCq h qid) s = .next t ∧ tget t.host.cqs qid = none ∧ (∀ k, k ≠ qid → tget t.host.cqs k = tget s.host.cqs k) ∧
      Completes s t 0 h.cid [] .success 0 0 ∧ Undisturbed [.host] s t ∧ OnlyPostings { s with host := { s.host with cqs := t.host.cqs } } t)

/-- A Thaw waits on its frozen queue with the current serial; a draining queue falls quiet; a quiet one with a Thaw opens, and what the Thaw
discards completes with Queue Frozen Abort. (R103, R104) -/
def Obligations.FrozenQueuesAreThawed : Prop :=
  (∀ (s : State) (h : HostId) (i serial sqid : Nat) (discard : Bool) (q : Sq), AdminTurn s h i → h.reservedOk = true → sqid ≠ 0 →
    tget s.host.sqs sqid = some q → q.freeze ≠ .opened → q.serial = serial →
    ∃ t e, exec (.queueThaw h serial sqid discard) s = .next t ∧
      tget t.host.sqs sqid = some { q with thaws := q.thaws ++ [⟨sqid, h.cid, discard⟩] } ∧
      (∀ k, k ≠ sqid → tget t.host.sqs k = tget s.host.sqs k) ∧ { t.host with sqs := s.host.sqs } = s.host ∧
      entryAt t i = some e ∧ e.state = .waiting ∧ OnlyChanges [.tally, .host] s t) ∧
  (∀ (s : State) (h : HostId) (i serial sqid : Nat) (discard : Bool), AdminTurn s h i → h.reservedOk = true →
    (∀ q, sqid ≠ 0 → tget s.host.sqs sqid = some q → q.freeze = .opened ∨ q.serial ≠ serial) →
    ∃ t, exec (.queueThaw h serial sqid discard) s = .next t ∧ Completes s t 0 h.cid [] .commandSequenceError 0 0 ∧ Undisturbed [] s t) ∧
  (∀ (s : State) (sq : Nat) (q : Sq), stopped s = false → tget s.host.sqs sq = some q → q.freeze = .draining → dispatchedOf s sq = 0 →
    ∃ t, exec (.queueQuiet sq) s = .next t ∧ tget t.host.sqs sq = some { q with
        freeze := .quiet, log := q.log.map (fun l => { l with quietBell := s.bell.count, outstanding := 0 }) } ∧
      (∀ k, k ≠ sq → tget t.host.sqs k = tget s.host.sqs k) ∧ t.host.posting = s.host.posting ∧ OnlyChanges [.host] s t) ∧
  (∀ (s : State) (sq cid i : Nat) (discard : Bool) (q : Sq), stopped s = false → s.dev.state ≠ .paused → sq ≠ 0 →
    tget s.host.sqs sq = some q → q.freeze = .quiet → q.thaws = [⟨sq, cid, discard⟩] → Stands s 0 cid i →
    ∃ t p, exec (.queueReopen sq) s = .next t ∧ tget t.host.sqs sq = some p ∧ p.freeze = .opened ∧ p.justOpened = true ∧ p.thaws = [] ∧
      p.tail = q.tail ∧ p.slots = (if discard then [] else q.slots) ∧ (∀ k, k ≠ sq → tget t.host.sqs k = tget s.host.sqs k) ∧
      (discard = true → ∀ c ∈ q.slots, ∃ hd, Out.completion sq c.cid .queueFrozenAbort false 0 0 hd ∈ t.out) ∧
      (discard = false → t.out = s.out) ∧ Completes s t 0 cid [] .success (if discard then q.slots.length else 0) 0 ∧
      Undisturbed [.host, .sticky, .counters, .out] s t)

/-- Abort ends a command whose HOST entry is ADMITTED or PLANNED with Command Abort Requested, and leaves every other to run on with DW0
bit 0 at 1. Stated by the spec. (R89) -/
def Obligations.AbortTakesOnlyWaitingCommands : Prop :=
  ∀ (s : State) (h : HostId) (i tsq tcid : Nat), AdminTurn s h i →
    (∀ (j : Nat) (e : Entry), findHost s tsq tcid = some j → entryAt s j = some e → j ≠ i → (e.state = .admitted ∨ e.state = .planned) →
      ∃ t, exec (.abort h tsq tcid) s = .next t ∧ t = finish (finish (setRunning s i) j .abortRequested 0 0) i .success 0 0 ∧
        (j ∉ family s i → ∃ e', entryAt t j = some e' ∧ e'.origin = e.origin ∧ e'.state = .replying)) ∧
    (∀ (j : Nat) (e : Entry), findHost s tsq tcid = some j → entryAt s j = some e → e.state ≠ .admitted → e.state ≠ .planned →
      ∃ t, exec (.abort h tsq tcid) s = .next t ∧ Completes s t 0 h.cid [] .success 1 0 ∧ Undisturbed [] s t ∧
        (j ∉ family s i → ∃ e', entryAt t j = some e' ∧ e'.origin = e.origin ∧ e'.state = e.state)) ∧
    (findHost s tsq tcid = none →
      ∃ t, exec (.abort h tsq tcid) s = .next t ∧ Completes s t 0 h.cid [] .success 1 0 ∧ Undisturbed [] s t)

/-- Get and Set Features: each feature answers what the state holds, and setting one changes that feature alone; Identify gives the
namespaces, one namespace and the controller. (R88, R92, R111, R133, R141, R157, R337, R341) -/
def Obligations.FeaturesAnswerAndTakeEffect : Prop :=
  (∀ (s : State) (h : HostId) (i : Nat), AdminTurn s h i →
    (∀ p ∈ [(1, burstField s.host.burst + (s.host.wLow - 1) * 2 ^ 8 + (s.host.wMed - 1) * 2 ^ 16 + (s.host.wHigh - 1) * 2 ^ 24),
            (2, s.power.hostPs + 32 * s.power.hostWh), (4, 363), (7, 127 + 127 * 2 ^ 16), (0x11, if s.power.noppme then 1 else 0),
            (0x1D, if s.ledger.fdp then 1 else 0)],
      ∃ t, exec (.getFeatures h p.1) s = .next t ∧ Completes s t 0 h.cid [] .success p.2 0 ∧ Undisturbed [] s t) ∧
    (∃ t, exec (.getFeatures h 0x0C) s = .next t ∧
      Completes s t 0 h.cid (apstBytes s.power.apstTable) .success (if s.power.apst then 1 else 0) 0 ∧ Undisturbed [] s t) ∧
    (∀ fid, fid ∉ [1, 2, 4, 7, 12, 0x11, 0x1D] →
      ∃ t, exec (.getFeatures h fid) s = .next t ∧ Completes s t 0 h.cid [] .invalidField 0 0 ∧ Undisturbed [] s t)) ∧
  (∀ (s : State) (h : HostId) (i ps wh : Nat), AdminTurn s h i → ps ≤ 5 →
    ∃ t, exec (.setFeaturesPowerManagement h ps wh) s = .next t ∧
      t.power = { s.power with hostPs := ps, hostWh := wh % 8, request := ps } ∧ Completes s t 0 h.cid [] .success 0 0 ∧ Undisturbed [.power] s t) ∧
  (∀ (s : State) (h : HostId) (i : Nat) (en : Bool) (table : List (Nat × Nat)), AdminTurn s h i → table.length ≤ 32 →
    (∀ e ∈ table, e.1 < 2 ^ 24 ∧ e.2 ≤ 5) → ∃ t, exec (.setFeaturesApst h en table) s = .next t ∧
      t.power = { s.power with apst := en, apstTable := table, apstPs := 0 } ∧ Completes s t 0 h.cid [] .success 0 0 ∧ Undisturbed [.power] s t) ∧
  (∀ (s : State) (h : HostId) (i : Nat) (en : Bool), AdminTurn s h i → ∃ t, exec (.setFeaturesNoppme h en) s = .next t ∧
      t.power = { s.power with noppme := en } ∧ Completes s t 0 h.cid [] .success 0 0 ∧ Undisturbed [.power] s t) ∧
  (∀ (s : State) (h : HostId) (i b l m g : Nat), AdminTurn s h i → ∃ t, exec (.setFeaturesArbitration h b l m g) s = .next t ∧
      OnlyPostings { s with host := { s.host with
        burst := if b % 8 = 7 then 0 else 2 ^ (b % 8), wLow := l % 256 + 1, wMed := m % 256 + 1, wHigh := g % 256 + 1 } } t ∧
      Completes s t 0 h.cid [] .success 0 0 ∧ Undisturbed [.host] s t) ∧
  (∀ (s : State) (h : HostId) (i : Nat) (en : Bool), AdminTurn s h i → s.ledger.nss = [] → ∃ t, exec (.setFeaturesFdp h en) s = .next t ∧
      t.ledger.fdp = en ∧ t.ledger.nss = [] ∧ Completes s t 0 h.cid [] .success 0 0 ∧ Undisturbed [] s t) ∧
  (∀ (s : State) (h : HostId) (i : Nat), AdminTurn s h i →
    (∃ t, exec (.identify h 2) s = .next t ∧ Undisturbed [] s t ∧ Completes s t 0 h.cid
      (slice ((s.ledger.nss.filter (fun p => decide (h.nsid < p.1))).flatMap (fun p => leBytes 4 p.1)) 0 4096) .success 0 0) ∧
    (∃ t, exec (.identify h 1) s = .next t ∧ Undisturbed [.free] s t ∧
      Completes s t 0 h.cid (patchAll (drawBytes s 4096).1 (controllerFields s)) .success 0 0) ∧
    (∀ ns, nsOf s h.nsid = some ns → ∃ t b, exec (.identify h 0) s = .next t ∧ Undisturbed [.free] s t ∧
      Completes s t 0 h.cid b .success 0 0 ∧ b.length = 4096 ∧ slice b 0 8 = leBytes 8 ns.nsze ∧ b.getD 26 0 = ns.lbaf ∧
      slice b 64 2 = leBytes 2 (if ns.lbaf = 0 then 3 else 0) ∧ slice b 128 8 = [0, 0, 12, 2, 0, 0, 14, 0] ∧ b.getD 33 0 % 8 = 0 ∧
      bit (b.getD 24 0) 4 = true))

/-- Log pages, the stored snapshot, event requests and the management bus answer from the state; reading a page re-arms its events. (R84,
R88, R106, R209, R312, R385, R396) -/
def Obligations.LogsAreReadAndEventsArmed : Prop :=
  (∀ (s : State) (h : HostId) (i off len : Nat) (rae : Bool), AdminTurn s h i →
    ∀ p ∈ [(Instr.stickySummaryLog h off len rae, 0xC0, stickyPage (setRunning s i)), (.freezeLog h off len rae, 0xC1, freezePage (setRunning s i)),
           (.bellLog h off len rae, 0xC2, bellPage (setRunning s i)), (.guildLog h off len rae, 0xC3, guildPage (setRunning s i)),
           (.kernelFaultLog h off len rae, 0xC4, faultPage (setRunning s i))],
      (p.2.1 ≠ 0xC3 ∨ s.ident.meshed = true) → off + len ≤ p.2.2.length →
      ∃ t, exec p.1 s = .next t ∧ Completes s t 0 h.cid ((p.2.2.drop off).take len) .success 0 0 ∧ Undisturbed [.host, .free] s t ∧
        (rae = true → OnlyPostings s t) ∧
        (rae = false → OnlyPostings { s with host := { s.host with
          masked := s.host.masked.filter (fun c => eventPage c ≠ p.2.1)
          pendingEvents := s.host.pendingEvents.filter (fun c => eventPage c ≠ p.2.1) } } t)) ∧
  (∀ (s : State) (h : HostId) (i off len : Nat) (rae : Bool), AdminTurn s h i → off + len ≤ 512 →
    ∃ t, exec (.getLogPage h 2 off len rae) s = .next t ∧ Undisturbed [.host, .free] s t ∧
      Completes s t 0 h.cid (((patchAll (drawBytes s 512).1 (smartFields s.edge)).drop off).take len) .success 0 0) ∧
  (∀ (s : State) (h : HostId) (i off len : Nat) (c : SnapCopy), AdminTurn s h i → h.reservedOk = true → len % 4 = 0 → 4 ≤ len →
    len ≤ 2097152 → s.freeze.stored = some c → off + len ≤ snapLength →
    ∃ t, exec (.snapshotFetch h off len) s = .next t ∧
      Completes s t 0 h.cid (snapRead c off len) .success snapLength (c.bell % 2 ^ 32) ∧ Undisturbed [] s t) ∧
  (∀ (s : State) (h : HostId) (i off len : Nat), AdminTurn s h i → h.reservedOk = true → len % 4 = 0 → 4 ≤ len →
    len ≤ 2097152 → s.freeze.stored = none →
    ∃ t, exec (.snapshotFetch h off len) s = .next t ∧ Completes s t 0 h.cid [] .commandSequenceError 0 0 ∧ Undisturbed [] s t) ∧
  (∀ (s : State) (h : HostId) (i : Nat), AdminTurn s h i → s.host.aers.length < 8 →
    ∃ t, exec (.asynchronousEventRequest h) s = .next t ∧ entryAt t i = none ∧ t.out = s.out ∧
      OnlyPostings { s with host := { s.host with aers := s.host.aers ++ [h.cid] } } t ∧ Undisturbed [.host] s t) ∧
  (∀ s : State, stopped s = false →
    (∀ p ∈ [(Instr.nvmeMiBasicManagement, 32, [(0, [6]), (2, [255 - s.host.warning]), (3, [(max 0 (min s.power.composite 126)).toNat]), (8, [22]),
              (11, leBytes 20 s.ident.serialNo)]),
           (.healthStatusPoll, 8, [(1, [255 - s.host.warning]), (2, [(max 0 (min s.power.composite 126)).toNat])]),
           (.controllerHealthStatusPoll, 16, [(2, [b2n s.host.rdy + 2 * b2n s.update.cfs]), (4, leBytes 2 (s.power.composite + 273).toNat),
              (8, [s.host.warning])])],
      ∃ t, exec p.1 s = .next t ∧ t.out = s.out ++ [.mi (patchAll (drawBytes s p.2.1).1 p.2.2)] ∧ OnlyChanges [.free, .out] s t) ∧
    (∀ d, d ≤ 4 → ∃ t, exec (.readNvmeMiDataStructure d) s = .next t ∧ t.out = s.out ++ [.mi (drawBytes s 32).1] ∧ OnlyChanges [.free, .out] s t) ∧
    (∀ d, 4 < d → ∃ t, exec (.readNvmeMiDataStructure d) s = .next t ∧ t.out = s.out ++ [.mi [4]] ∧ OnlyChanges [.out] s t))

/-- CC.EN, function-level reset and PERST#: the host side goes, what it had running is REPLYING until the boundary that stops it, and
streams, memory, programs and media stay; in BOOT the reset is absorbed. (R85, R87, R105, R110, R350, R358, R359, R360) -/
def Obligations.ControllerResetsLeaveTheRest : Prop :=
  (∀ s : State, stopped s = false → s.dev.state ≠ .boot →
    ∀ p ∈ [(Instr.ccEnClear, 3), (.functionLevelReset, 4), (.perstAssert, 5)],
      (p.2 = 3 → s.host.en = true ∧ activating s = false) → (p.2 = 5 → s.host.perst = false) →
      ∃ t, exec p.1 s = .next t ∧ t.host.en = false ∧ t.host.rdy = false ∧ t.host.sqs = [] ∧ t.host.cqs = [] ∧ t.host.aers = [] ∧
        t.host.posting = [] ∧ (∀ e ∈ t.tally.entries, e.2.origin.kind = .host → e.2.state = .replying ∧ e.1 ∈ t.host.stopping) ∧
        (∀ r ∈ t.tally.waiting, r.origin.kind ≠ .host) ∧ (∀ q, q < 256 → tget t.od (odKey 0x2120 q) = none) ∧
        (∀ k, k / 256 ≠ 0x2120 → tget t.od k = tget s.od k) ∧ t.host.burst = 8 ∧ t.power.hostPs = 0 ∧ t.power.noppme = true ∧
        t.pen.holder ≠ some .host ∧ (s.pen.holder ≠ some .host → t.pen = s.pen) ∧ t.update.resetKind = p.2 ∧
        t.dev.state = s.dev.state ∧ t.bell = s.bell ∧ t.compute.slm = s.compute.slm ∧ t.compute.programs = s.compute.programs ∧
        t.compute.rangeSets = s.compute.rangeSets ∧ t.ledger.map = s.ledger.map ∧
        t.sifters.slots.filter (fun x => x.2.st = 2) = s.sifters.slots.filter (fun x => x.2.st = 2) ∧
        t.flash.pages = s.flash.pages ∧ t.fabric.member = s.fabric.member ∧ (p.2 = 5 → t.host.perst = true ∧ t.host.speed = 0)) ∧
  (∀ s : State, s.dev.state = .boot → ∀ c ∈ [Instr.ccEnClear, .functionLevelReset, .perstAssert], (c = .perstAssert → s.host.perst = false) →
    ∃ t, exec c s = .next t ∧ t.host.en = false ∧ t.host.rdy = false ∧ t.host.sqs = [] ∧ t.host.cqs = [] ∧ t.update.cfs = false ∧
      t.dev = s.dev ∧ OnlyChanges [.od, .host, .update] s t) ∧
  (∀ s : State, stopped s = false → s.host.en = true → activating s = true →
    ∃ t, exec .ccEnClear s = .next t ∧ t.host = { s.host with en := false, rdy := false, enClearDeferred := true } ∧ OnlyChanges [.host] s t) ∧
  (∀ (s : State) (ams asq acq : Nat), stopped s = false → s.host.perst = false → s.host.en = false → s.update.cfs = false →
    s.host.enClearDeferred = false → ams ≤ 1 → adminQueueSize asq = true → adminQueueSize acq = true →
    ∃ t, exec (.ccEnSet ams asq acq) s = .next t ∧ t.host.en = true ∧ t.host.ams = ams ∧ (t.host.rdy = true ↔ s.dev.state ≠ .boot) ∧
      tget t.host.sqs 0 = some ⟨asq, 0, 0, 0, 0, [], .opened, 0, none, [], false, none⟩ ∧ tget t.host.cqs 0 = some ⟨acq, 0, true, 0, 0⟩ ∧
      OnlyChanges [.host] s t) ∧
  (∀ (s : State) (speed width : Nat), stopped s = false → s.host.perst = true → speed ∈ [1, 2, 3] → width ∈ [1, 2, 4, 8] →
    ∃ t, exec (.perstDeassert speed width) s = .next t ∧
      t.host = { s.host with perst := false, speed := speed, width := width, flit := decide (speed = 3) } ∧ OnlyChanges [.host] s t)

/-- Read, its end, Write, its completion, Flush and Deallocate: what they look up, bring, map and leave alone. (R134, R136, R139, R156,
R157, R158, R162, R447) -/
def Obligations.NvmDataCommands : Prop :=
  (∀ (s : State) (h : HostId) (i low high nlb : Nat) (ns : Namespace), IoTurn s h i → nsOf s h.nsid = some ns →
    let slba := low + 2 ^ 32 * high
    rangeError s h.nsid slba nlb = none → ledgerDown s (iusOf ns (unitsOf ns slba nlb)) = false →
    ∃ t j e, exec (.nvmRead h low high nlb) s = .next t ∧ j ∈ t.flash.jobs ∧ j.entry = i ∧ j.use = .host ∧ j.nsid = h.nsid ∧
      j.units = unitsOf ns slba nlb ∧ (∀ k u v, (unitsOf ns slba nlb)[k]? = some u → unitSpot s ns u = .value v → tget j.got k = some v) ∧
      (∀ k u, (unitsOf ns slba nlb)[k]? = some u → unitSpot s ns u = .lost → k ∈ j.lost) ∧
      (∀ k u l c, (unitsOf ns slba nlb)[k]? = some u → unitSpot s ns u = .flash l c → ⟨k, l, c⟩ ∈ j.wants) ∧
      entryAt t i = some e ∧ e.state = .running ∧ t.flash.pages = s.flash.pages ∧ OnlyChanges [.tally, .flash, .counters, .sticky] s t) ∧
  (∀ (s : State) (j : ReadJob) (sq cid : Nat), Stands s sq cid j.entry →
    (j.lost = [] → Ends s (hostReadDone s j) sq cid ((List.range j.units.length).map j.value) .success 0 0 (decide (j.units ≠ []))) ∧
    (j.lost ≠ [] → ∃ data, data.length ≤ j.units.length ∧ Ends s (hostReadDone s j) sq cid data .unrecoveredRead 0 0 (decide (data ≠ []))) ∧
    Undisturbed [] s (hostReadDone s j)) ∧
  (∀ (s : State) (h : HostId) (i slba nlb : Nat) (pid : Option Nat) (data : List Nat) (ns : Namespace), IoTurn s h i →
    nsOf s h.nsid = some ns → rangeError s h.nsid slba nlb = none → (∀ w ∈ s.ledger.writes, w.entry ≠ i) → s.ledger.readOnly = false →
    ledgerDown s (iusOf ns (unitsOf ns slba nlb)) = false → nlb ≠ 0 →
    ∃ t, exec (.nvmWrite h slba nlb pid data) s = .next t ∧ (∃ w ∈ t.ledger.writes, w.entry = i ∧ w.nsid = h.nsid) ∧
      t.ledger.writeNo = s.ledger.writeNo + 1 ∧ t.ledger.map = s.ledger.map ∧ t.flash.pages = s.flash.pages ∧
      OnlyChanges [.tally, .flash, .ledger, .counters, .sticky] s t) ∧
  (∀ (s : State) (h : HostId) (i : Nat), stopped s = false → Stands s h.sq h.cid i → jobDone s i = true →
    (∀ p ∈ s.streams.table, ∀ k ∈ p.2.parks, k.entry ≠ i) →
    ∃ t, exec (.writeComplete h) s = .next t ∧ Completes s t h.sq h.cid [] .success 0 0 ∧ Undisturbed [] s t) ∧
  (∀ (s : State) (h : HostId) (i : Nat), IoTurn s h i → (namedNs s h.nsid ≠ [] ∨ h.nsid = 0xFFFFFFFF) →
    ∃ t, exec (.flush h) s = .next t ∧ Completes s t h.sq h.cid [] .success 0 0 ∧ Undisturbed [] s t) ∧
  (∀ (s : State) (h : HostId) (i : Nat) (ranges : List (Nat × Nat)) (ns : Namespace), IoTurn s h i → nsOf s h.nsid = some ns →
    s.ledger.readOnly = false → (∀ r ∈ ranges, r.1 + r.2 ≤ ns.nsze) →
    ∃ t, exec (.datasetManagement h true ranges) s = .next t ∧ Completes s t h.sq h.cid [] .success 0 0 ∧
      (∀ iu, mapAt t iu = if iu ∈ ranges.flatMap (wholeIus ns) then ⟨0, false, 0⟩ else mapAt s iu) ∧ t.flash.pages = s.flash.pages ∧
      t.compute.slm = s.compute.slm ∧ OnlyPostings s t ∧ OnlyChanges completionParts s t)

/-- Namespace create, delete, Format and Sanitize: extents cleared, keys replaced; a Sanitize completes at a chime boundary; and the
placement commands. (R138, R139, R141, R145, R400, R401, R402) -/
def Obligations.NamespacesAreMadeAndWiped : Prop :=
  (∀ (s : State) (h : HostId) (i nsze lbaf n : Nat) (xs : List Nat), AdminTurn s h i → lbaf ≤ 1 → nsze ≠ 0 →
    nsze * lbaSize lbaf % 16384 = 0 → (List.range 64).find? (fun n => (nsOf s (n + 1)).isNone) = some n →
    takeExtents s (nsze * lbaSize lbaf / 16384) = some xs →
    ∃ t, exec (.namespaceCreate h nsze nsze lbaf) s = .next t ∧
      nsOf t (n + 1) = some ⟨lbaf, nsze, xs, wrap 32 (tgetD s.keys.gens (n + 1) 0 + 1)⟩ ∧ (∀ m, m ≠ n + 1 → nsOf t m = nsOf s m) ∧
      (∀ x ∈ xs, ∀ iu, iu / 2 ^ 20 = x → mapAt t iu = ⟨0, false, 0⟩) ∧ (∀ iu, iu / 2 ^ 20 ∉ xs → mapAt t iu = mapAt s iu) ∧
      Completes s t 0 h.cid [] .success (n + 1) 0 ∧ OnlyPostings s t ∧ OnlyChanges (.keys :: completionParts) s t) ∧
  (∀ (s : State) (h : HostId) (i : Nat) (ns : Namespace), AdminTurn s h i → Unburdened s i → h.nsid ≠ 0xFFFFFFFF →
    nsOf s h.nsid = some ns → boundBusy s h.nsid = false →
    ∃ t, exec (.namespaceDelete h) s = .next t ∧ nsOf t h.nsid = none ∧ (∀ m, m ≠ h.nsid → nsOf t m = nsOf s m) ∧
      (∀ x ∈ ns.extents, ∀ iu, iu / 2 ^ 20 = x → mapAt t iu = ⟨0, false, 0⟩) ∧ (∀ p ∈ t.streams.table, p.2.nsid ≠ h.nsid) ∧
      Completes s t 0 h.cid [] .success 0 0 ∧ OnlyChanges (.sticky :: .counters :: completionParts) s t) ∧
  (∀ (s : State) (h : HostId) (i lbaf ses : Nat) (ns : Namespace), AdminTurn s h i → Unburdened s i → h.nsid ≠ 0xFFFFFFFF →
    nsOf s h.nsid = some ns → boundBusy s h.nsid = false → lbaf ≤ 1 → (ses = 0 ∨ ses = 2) → s.keys.sanitize = 0 →
    ∃ t, exec (.formatNvm h lbaf ses) s = .next t ∧ nsOf t h.nsid = some { ns with
        lbaf := lbaf, nsze := ns.nsze * lbaSize ns.lbaf / lbaSize lbaf, gen := wrap 32 (tgetD s.keys.gens h.nsid 0 + 1) } ∧
      (∀ m, m ≠ h.nsid → nsOf t m = nsOf s m) ∧ (∀ x ∈ ns.extents, ∀ iu, iu / 2 ^ 20 = x → mapAt t iu = ⟨0, false, 0⟩) ∧
      (∀ p ∈ t.streams.table, p.2.nsid ≠ h.nsid) ∧ Completes s t 0 h.cid [] .success 0 0 ∧
      OnlyChanges (.keys :: .sticky :: .counters :: completionParts) s t) ∧
  (∀ (s : State) (h : HostId) (i : Nat), AdminTurn s h i → Unburdened s i → s.keys.sanitize = 0 → (∀ p ∈ s.sifters.slots, p.2.st ≠ 2) →
    (∀ p ∈ s.ledger.nss, boundBusy s p.1 = false) →
    ∃ t e, exec (.sanitizeCryptoErase h) s = .next t ∧ t.keys.sanitize = 1 ∧ t.keys.sanitizeEntry = some i ∧ entryAt t i = some e ∧
      e.state = .running ∧ (∀ n ns, nsOf s n = some ns → ∀ x ∈ ns.extents, ∀ iu, iu / 2 ^ 20 = x → mapAt t iu = ⟨0, false, 0⟩) ∧
      t.flash.pages = s.flash.pages ∧ OnlyChanges (.keys :: .sticky :: .counters :: completionParts) s t) ∧
  (∀ (s : State) (h : HostId) (i : Nat), AdminTurn s h i → Unburdened s i → s.keys.sanitize = 0 → (∀ p ∈ s.sifters.slots, p.2.st ≠ 2) →
    (∀ p ∈ s.ledger.nss, boundBusy s p.1 = false) →
    ∃ t, exec (.sanitizeBlockErase h) s = .next t ∧ t.keys.sanitize = 2 ∧ t.keys.sanitizeEntry = some i ∧
      (∀ n ns, nsOf s n = some ns → ∀ x ∈ ns.extents, ∀ iu, iu / 2 ^ 20 = x → mapAt t iu = ⟨0, false, 0⟩) ∧
      (∀ q ∈ t.flash.pages, q ∈ s.flash.pages ∧ dataBlock (bandOfLoc s q.1 % 2048) = false) ∧ t.ledger.staged = [] ∧ t.flash.jobs = [] ∧
      OnlyChanges (.keys :: .sticky :: .counters :: completionParts) s t) ∧
  (∀ (s : State) (cid i : Nat), s.keys.sanitize ≠ 0 → s.keys.sanitizeEntry = some i → Stands s 0 cid i →
    ((sanitizeTick s).keys = s.keys ∧ OnlyChanges [.free] s (sanitizeTick s)) ∨
    ((sanitizeTick s).keys.sanitize = 0 ∧ Completes s (sanitizeTick s) 0 cid [] .success 0 0 ∧ Undisturbed [.keys, .free] s (sanitizeTick s))) ∧
  (∀ (s : State) (h : HostId) (i : Nat) (ns : Namespace), IoTurn s h i → nsOf s h.nsid = some ns → s.ledger.fdp = true →
    (∀ pids : List Nat, (∀ p ∈ pids, p % 8192 ≤ 63) →
      ∃ t, exec (.ioManagementSend h pids) s = .next t ∧ Completes s t h.sq h.cid [] .success 0 0 ∧ Undisturbed [] s t ∧
        (∀ pid k, pids = [pid] → bandOfPair s (pid % 8192) (pid / 8192 % 8) = some (k, bandOf s k) → (bandOf s k).st = .open →
          if (bandOf s k).pagesWritten % 16 = 0 then (bandOf t k).st = .closed else (bandOf t k).fillTo = some .closed)) ∧
    (∃ t, exec (.ioManagementReceive h) s = .next t ∧ Undisturbed [] s t ∧
      Ends s t h.sq h.cid ((List.range 64).flatMap (fun u => (List.range 8).flatMap (fun g =>
        [g * 8192 + u, u, unitsLeft s u g * (16384 / lbaSize ns.lbaf)]))) .success 0 0 true))

/-- A READ starts on an idle readable die with the levels that its step asks for; a die that takes none refuses it and goes on as it was,
and a completed one gives its result. (R116, R123, R124, R127, R446, R452) -/
def Obligations.FlashReadsRunOnReadableDies : Prop :=
  (∀ (s : State) (a : FlashAddr) (mask index n : Nat) (slc : Bool), stopped s = false → addrOk s { a with cw := 0 } slc = true →
    modeOk s a.die a.block slc = true → mask ≠ 0 → mask ≤ 15 → 1 ≤ n → n ≤ 8 →
    ∀ p ∈ [(Instr.read a mask .tracker slc index, false, 0, levelsInUse s a.die (groupOf a.block)),
        (.read a mask .pin slc index, false, 0, pinnedLevels s),
        (.read a mask (.retry n) slc index, false, n, levelsAt (levelsInUse s a.die (groupOf a.block)) n),
        (.readSoft a mask slc index, true, 9, levelsInUse s a.die (groupOf a.block))],
      ((dieOf s a.die).st = .idle → readable s a.die = true →
        ∃ t, exec p.1 s = .next t ∧ (dieOf t a.die).st = .sensing ∧
          (dieOf t a.die).read = some ⟨{ a with cw := 0 }, mask, p.2.1, p.2.2.1, slc, index, p.2.2.2, false⟩ ∧
          (∀ d, d ≠ a.die → dieOf t d = dieOf s d) ∧ t.flash.pages = s.flash.pages ∧ t.flash.levels = s.flash.levels ∧
          (∀ e, entryAt s index = some e → ∃ f, entryAt t index = some f ∧ f.state = .running ∧ f.unit = channelUnit a.die) ∧
          t.out = s.out ∧ OnlyChanges [.tally, .flash, .counters, .sticky] s t) ∧
      (takesRead s a.die = false →
        ∃ t, exec p.1 s = .next t ∧ t.out = s.out ++ [.die a.die (if p.2.1 then 2 else 1) 5 []] ∧ t.flash.dies = s.flash.dies ∧
          t.flash.pages = s.flash.pages ∧ t.flash.levels = s.flash.levels ∧ OnlyChanges [.flash, .out] s t)) ∧
  (∀ (s : State) (a : FlashAddr) (mask index : Nat) (slc : Bool), stopped s = false →
    (addrOk s { a with cw := 0 } slc = false ∨ modeOk s a.die a.block slc = false ∨ mask = 0 ∨ 15 < mask) →
    exec (.read a mask .tracker slc index) s = .next { s with out := s.out ++ [.die a.die 1 8 []] } ∧
    exec (.readSoft a mask slc index) s = .next { s with out := s.out ++ [.die a.die 2 8 []] }) ∧
  (∀ (s : State) (die : Nat) (r : DieRead), stopped s = false → die < s.ident.dies → (unitOf s (channelUnit die)).state ≠ .reset →
    (dieOf s die).st = .sensing → (dieOf s die).read = some r →
    (r.crossing = false → ∃ t, exec (.readCancel die) s = .next t ∧
      dieOf t die = { dieOf s die with st := .idle, read := none, endNs := nowNs s } ∧
      t.out = s.out ++ [.die die (if r.soft then 2 else 1) 6 [], .die die 3 0 []] ∧ (∀ d, d ≠ die → dieOf t d = dieOf s d) ∧
      OnlyChanges [.tally, .flash, .out] s t) ∧
    (r.crossing = true → exec (.readCancel die) s = .next { s with out := s.out ++ [.die die 3 5 []] })) ∧
  (∀ (s : State) (die : Nat) (r : DieRead) (os : List CwOutcome) (bits : Nat → Nat), stopped s = false → (dieOf s die).read = some r →
    isSibling s r.entry = false → (∀ l ∈ s.flash.ladders, l.entry = r.entry → l.st ≠ .waiting) →
    (∀ k ∈ maskBits r.mask, outcomeOf os k = .corrected (bits k)) →
    ∃ t more, exec (.dieReadComplete die os) s = .next t ∧ (dieOf t die).read = none ∧ (dieOf t die).st ≠ .sensing ∧
      t.out = s.out ++ .die die (if r.soft then 2 else 1) 0 ((maskBits r.mask).map bits) :: more ∧ t.flash.pages = s.flash.pages ∧
      t.ledger.map = s.ledger.map ∧
      OnlyChanges [.tally, .units, .host, .sticky, .counters, .flash, .ledger, .compute, .streams, .sifters, .fabric, .out] s t)

/-- PROGRAM is refused with a wrong argument, on a busy die and under the fence; an accepted one waits for its entry, starts at a chime
boundary, and lands its pages when it completes. (R20, R116, R117, R118, R136, R140, R152, R448, R449) -/
def Obligations.ProgramsKeepTheFence : Prop :=
  (∀ (s : State) (die block wl : Nat) (slc : Bool) (pages : List SourcePage), stopped s = false →
    ((s.ident.dies ≤ die ∨ 1840 ≤ block ∨ 768 ≤ wl ∨ pages.length ≠ linePages slc ∨ modeOk s die block slc = false) →
      exec (.program die block wl slc pages) s = .next { s with out := s.out ++ [.die die 4 8 []] }) ∧
    (die < s.ident.dies → block < 1840 → wl < 768 → pages.length = (if slc then 4 else 12) → modeOk s die block slc = true →
      (((dieOf s die).st ≠ .idle ∨ (dieOf s die).pending.isSome = true ∨ channelInReset s die = true) →
        exec (.program die block wl slc pages) s = .next { s with out := s.out ++ [.die die 4 5 []] }) ∧
      ((dieOf s die).st = .idle → (dieOf s die).pending = none → channelInReset s die = false →
        (fenceHeld s die = true → exec (.program die block wl slc pages) s = .next { s with out := s.out ++ [.die die 4 4 []] }) ∧
        (fenceHeld s die = false → ∃ t p, exec (.program die block wl slc pages) s = .next t ∧
          dieOf t die = { dieOf s die with pending := some (.program p) } ∧ p.block = block ∧ p.wl = wl ∧ p.slc = slc ∧
          p.pages = pages.map (sourceOf s die block wl) ∧
          t.tally.entries = s.tally.entries ∧ (∃ r, t.tally.waiting = s.tally.waiting ++ [r] ∧
            r.origin = .internal 0x09 (die * 2 ^ 12 + block) ∧ r.unit = channelUnit die ∧ r.parent = none) ∧
          (∀ d, d ≠ die → dieOf t d = dieOf s d) ∧ t.flash.pages = s.flash.pages ∧ t.ledger.map = s.ledger.map ∧ t.out = s.out ∧
          OnlyChanges [.tally, .flash, .ledger, .counters, .sticky] s t)))) ∧
  (∀ (s : State) (die i : Nat) (p : DieProgram), (dieOf s die).st = .idle → (dieOf s die).pending = some (.program p) →
    channelInReset s die = false → dieJob s 0x09 die = some i → fenced s die = false →
    (dieOf (startPending s die) die).st = .programming ∧ (dieOf (startPending s die) die).pending = none ∧
      (dieOf (startPending s die) die).program = some { p with entry := i, crossed := 0 } ∧
      (∀ e, entryAt s i = some e → ∃ f, entryAt (startPending s die) i = some f ∧ f.state = .running) ∧
      OnlyChanges [.tally, .flash] s (startPending s die)) ∧
  (∀ (s : State) (die : Nat) (p : DieProgram), stopped s = false → (dieOf s die).st = .programming → (dieOf s die).program = some p →
    (∃ t, exec (.programComplete die true) s = .next t ∧ (dieOf t die).st = .idle ∧ (dieOf t die).program = none ∧
      (∀ k, k < p.pages.length → (tget t.flash.pages (pageLoc die p.block p.wl p.slc k)).isSome = true) ∧
      t.out = s.out ++ [.die die 4 0 []]) ∧
    (∃ t, exec (.programComplete die false) s = .next t ∧ (dieOf t die).st = .idle ∧ (dieOf t die).program = none ∧
      t.flash.pages = s.flash.pages ∧ t.ledger.map = s.ledger.map ∧ t.out = s.out ++ [.die die 4 2 []]))

/-- ERASE and its life: accepted on an idle die and started once its entry stands, suspended, resumed, locked within the fence, complete
with its pages gone. (R20, R116, R117, R118, R120, R121, R153) -/
def Obligations.ErasesSuspendResumeAndLock : Prop :=
  (∀ (s : State) (die block : Nat) (slc : Bool), stopped s = false → die < s.ident.dies → block < 1840 → modeOk s die block slc = true →
    ((dieOf s die).st = .idle → (dieOf s die).pending = none → channelInReset s die = false →
      ∃ t, exec (.erase die block slc) s = .next t ∧
        dieOf t die = { dieOf s die with pending := some (.erase ⟨block, slc, 1, 0, false, 0⟩) } ∧
        t.tally.entries = s.tally.entries ∧ (∃ r, t.tally.waiting = s.tally.waiting ++ [r] ∧
          r.origin = .internal 0x0A (die * 2 ^ 12 + block) ∧ r.unit = channelUnit die) ∧
        (∀ d, d ≠ die → dieOf t d = dieOf s d) ∧ t.flash.pages = s.flash.pages ∧ OnlyChanges [.tally, .flash] s t) ∧
    (((dieOf s die).st ≠ .idle ∨ (dieOf s die).pending.isSome = true ∨ channelInReset s die = true) →
      exec (.erase die block slc) s = .next { s with out := s.out ++ [.die die 5 5 []] })) ∧
  (∀ (s : State) (die i : Nat) (e : DieErase), (dieOf s die).st = .idle → (dieOf s die).pending = some (.erase e) →
    channelInReset s die = false → dieJob s 0x0A die = some i →
    (dieOf (startPending s die) die).st = .erasing ∧ (dieOf (startPending s die) die).pending = none ∧
      (dieOf (startPending s die) die).erase = some e ∧ OnlyChanges [.tally, .flash] s (startPending s die)) ∧
  (∀ (s : State) (die : Nat) (e : DieErase), stopped s = false → die < s.ident.dies → channelInReset s die = false →
    (dieOf s die).erase = some e →
    ((dieOf s die).st = .erasing →
      (∃ t, exec (.eraseSuspend die) s = .next t ∧ dieOf t die = { dieOf s die with suspendAsked := true } ∧ OnlyChanges [.flash] s t ∧
        ∀ d, d ≠ die → dieOf t d = dieOf s d) ∧
      (∀ seg, (dieOf s die).suspendAsked = true → (∀ l ∈ s.flash.ladders, l.addr.die = die → l.st ≠ .waiting) →
        ∃ t f, exec (.eraseSuspended ⟨die, seg⟩) s = .next t ∧ (dieOf t die).st = .suspended ∧ (dieOf t die).suspendAsked = false ∧
          (dieOf t die).erase = some f ∧ f.suspensions = e.suspensions + 1 ∧ f.segment = max e.segment (min 10 seg) ∧
          f.block = e.block ∧ f.slc = e.slc ∧ f.lockPending = e.lockPending ∧
          t.out = s.out ++ [.die die 6 7 [f.segment]] ∧ OnlyChanges [.flash, .counters, .sticky, .out] s t) ∧
      (fenceHeld s die = false → ∃ t, exec (.eraseLock die) s = .next t ∧ (dieOf t die).st = .lockedErase ∧
        (dieOf t die).erase = some e ∧ t.out = s.out ++ [.die die 8 0 []] ∧ OnlyChanges [.flash, .counters, .sticky, .out] s t)) ∧
    (fenceHeld s die = true → exec (.eraseLock die) s = .next { s with out := s.out ++ [.die die 8 4 []] }) ∧
    ((dieOf s die).st = .suspended →
      ((dieOf s die).read = none → ∃ t, exec (.eraseResume die) s = .next t ∧
        (dieOf t die).st = (if e.lockPending then .lockedErase else .erasing) ∧ (dieOf t die).erase = some { e with lockPending := false } ∧
        t.out = s.out ++ [.die die 7 0 []] ∧ OnlyChanges [.flash, .out] s t) ∧
      ((dieOf s die).read ≠ none → exec (.eraseResume die) s = .next { s with out := s.out ++ [.die die 7 5 []] }) ∧
      (fenceHeld s die = false → ∃ t, exec (.eraseLock die) s = .next t ∧ (dieOf t die).st = .suspended ∧
        (dieOf t die).erase = some { e with lockPending := true } ∧ t.out = s.out ++ [.die die 8 0 []] ∧
        OnlyChanges [.flash, .counters, .sticky, .out] s t))) ∧
  (∀ (s : State) (die : Nat) (e : DieErase), stopped s = false → ((dieOf s die).st = .erasing ∨ (dieOf s die).st = .lockedErase) →
    (dieOf s die).erase = some e →
    ∃ t, exec (.eraseComplete die true) s = .next t ∧ (dieOf t die).st = .idle ∧ (dieOf t die).erase = none ∧
      t.flash.pages = s.flash.pages.filter (fun p => !(p.1 / 2 ^ 26 = die && p.1 / 2 ^ 12 % 2 ^ 12 = e.block)) ∧
      t.ledger.map = s.ledger.map ∧ t.out = s.out ++ [.die die 5 0 []])

/-- Levels, valley sense, status, reset, training, parameters, timeout, the tracker, and a codeword that cannot be decoded.
(R115, R116, R126, R127, R129, R161) -/
def Obligations.DieServicesAndTheTracker : Prop :=
  (∀ (s : State) (die : Nat), stopped s = false → die < s.ident.dies → channelInReset s die = false → (dieOf s die).st = .idle →
    (∀ (group : Nat) (o : List Int), group < 29 → o.length = 7 → ∃ t, exec (.setLevels die group o) s = .next t ∧
      tget t.flash.levels (die * 32 + group) = some o ∧ (∀ k, k ≠ die * 32 + group → tget t.flash.levels k = tget s.flash.levels k) ∧
      t.flash.dies = s.flash.dies ∧ t.flash.pages = s.flash.pages ∧ t.out = s.out ++ [.die die 9 0 []] ∧ OnlyChanges [.flash, .out] s t) ∧
    (∀ (a : FlashAddr) (level : Nat) (sweep counts : List Int), a.die = die → addrOk s a false = true → 1 ≤ level → level ≤ 7 →
      sweep.length = 16 → exec (.senseValley a level sweep counts) s =
        .next { s with out := s.out ++ [.die die 10 0 ((List.range 16).map (fun i => (counts.getD i 0).toNat))] }) ∧
    exec (.readParams die) s = .next { s with out := s.out ++ [.die die 14 0 ((List.range 256).map (fun i => Config.paramByte die i % 256))] }) ∧
  (∀ (s : State) (die group : Nat) (minima : List Int), stopped s = false → die < s.ident.dies → group < 29 →
    (trackerEntry s die group = none → trackerWaits s die group = false → trackerDue s die group = true →
      ∃ t r, exec (.trackerRun die group minima) s = .next t ∧ t.tally.waiting = s.tally.waiting ++ [r] ∧
        r.origin = .internal 0x07 (die * 32 + group) ∧ r.unit = channelUnit die ∧ OnlyChanges [.tally] s t) ∧
    (∀ i, trackerEntry s die group = some i → trackerMayRun s die = true →
      ∃ t new, exec (.trackerRun die group minima) s = .next t ∧ tget t.flash.proposals (die * 32 + group) = some new ∧ new.length = 7 ∧
        (∀ l, l < 7 → ((new.getD l 0) - (trackerOffsets s (die * 32 + group)).getD l 0).natAbs ≤ 2) ∧
        (odVal s 0x2210 0 = 1 → t.flash.levels = s.flash.levels) ∧
        (odVal s 0x2210 0 ≠ 1 → tget t.flash.levels (die * 32 + group) = some new) ∧ (dieOf t die).trackedBell = s.bell.ticks ∧
        t.flash.pages = s.flash.pages ∧ t.ledger.map = s.ledger.map ∧ OnlyChanges (.sticky :: completionParts) s t)) ∧
  (∀ (s : State) (die : Nat), stopped s = false → die < s.ident.dies →
    exec (.dieStatus die) s = .next { s with out := s.out ++ [.die die 11 0 [(dieOf s die).st.code]] } ∧
    (∃ t, exec (.dieReset die true) s = .next t ∧ (dieOf t die).st = .idle ∧ (dieOf t die).read = none ∧ (dieOf t die).program = none ∧
      (dieOf t die).erase = none ∧ (dieOf t die).pending = (dieOf s die).pending ∧
      ((dieOf s die).program = none → t.flash.pages = s.flash.pages) ∧
      (∀ p, (dieOf s die).program = some p → ∀ l ∈ lineLocs die p.block p.wl p.slc, tget t.flash.pages l = some blankPage) ∧
      t.ledger.map = s.ledger.map ∧ t.out = s.out ++ [.die die 12 0 []])) ∧
  (∀ (s : State) (ch : Nat), stopped s = false → ch < 32 → (unitOf s (200 + ch)).state ≠ .reset →
    (∀ p ∈ s.flash.dies, p.1 % 32 = ch → p.2.st = .idle) →
    (∃ t, exec (.channelTrain ch true) s = .next t ∧ ch ∈ t.flash.trained ∧ t.out = s.out ++ [.die ch 13 0 []] ∧ OnlyChanges [.flash, .out] s t) ∧
    (∃ t, exec (.channelTrain ch false) s = .next t ∧ ch ∉ t.flash.trained ∧ t.out = s.out ++ [.die ch 13 11 []] ∧
      OnlyChanges [.flash, .sticky, .counters, .out] s t)) ∧
  (∀ (s : State) (die verb most ns : Nat), stopped s = false → operation s (dieOf s die) = some (verb, most, ns) →
    (ns ≤ 2 * most → exec (.dieTimeout die) s = .next s) ∧
    (2 * most < ns → ∃ t more, exec (.dieTimeout die) s = .next t ∧ (dieOf t die).st = .idle ∧ (dieOf t die).read = none ∧
      (dieOf t die).program = none ∧ (dieOf t die).erase = none ∧ t.ledger.map = s.ledger.map ∧
      t.out = s.out ++ more ++ [.die die verb 9 []] ∧ ((dieOf s die).read = none → more = []))) ∧
  (∀ (s : State) (a : FlashAddr) (iu : Nat) (l : Ladder), stopped s = false → failedAt s a = [l] → l.lost = [] → iuAt s a = some iu →
    bit (mapAt s iu).poison a.cw = false →
    ∃ t, exec (.decodeFail (channelUnit a.die) a) s = .next t ∧ mapAt t iu = { mapAt s iu with poison := setBit (mapAt s iu).poison a.cw } ∧
      (∀ j, j ≠ iu → mapAt t j = mapAt s j) ∧ failedAt t a = [] ∧
      (isJob s l.entry 0x0F = false → isJob s l.entry 0x13 = false → ∀ j ∈ s.flash.jobs, j.entry = l.entry → ∀ w ∈ j.wants,
        w.asks a = true → ∃ k ∈ t.flash.jobs, k.entry = j.entry ∧ k.use = j.use ∧ w.place ∈ k.lost) ∧
      t.flash.pages = s.flash.pages ∧ OnlyChanges (.sticky :: completionParts) s t)

/-- Gathering, reclaim, wear levelling, scrub and checkpoint: what each job asks for, and what it does when it has its entry. (R137, R142,
R146, R148, R150, R159, R164) -/
def Obligations.LedgerJobsRun : Prop :=
  (∀ (s : State) (die since k : Nat) (b : Band), stopped s = false → die < s.ident.dies → tget s.ledger.gatherFrom die = some since →
    since + odVal s 0x2307 0 ≤ s.bell.ticks →
    (openHostBands s).find? (fun p => p.1 / 2048 = stripeOf die && gatherReady s p.1 (positionOf die) p.2) = some (k, b) →
    ∃ t, exec (.gatherTimeout die) s = .next t ∧
      t = gateProgram s die (dieBlock s k (positionOf die)) (currentLine b) false (gatherPages s k (positionOf die)) ∧
      t.ledger.map = s.ledger.map ∧ t.flash.pages = s.flash.pages) ∧
  (∀ (s : State) (rg job die block : Nat), stopped s = false → rg < 8 → job ≠ 3 →
    (∀ k, (∀ c ∈ s.ledger.care, c.job = job → rgOfBand s c.band ≠ rg) → careTarget s rg job = some k →
      ∃ t r, exec (.reclaimJob rg job ⟨die, block⟩) s = .next t ∧ t.ledger.care = s.ledger.care ++ [⟨job, none, k⟩] ∧
        t.tally.waiting = s.tally.waiting ++ [r] ∧ r.origin = .internal job k ∧ r.cls = careClass s (rgOfBand s k) job ∧
        t.ledger.map = s.ledger.map ∧ OnlyChanges [.tally, .ledger] s t) ∧
    (∀ c i, s.ledger.care.find? (fun c => c.job = job && job ≠ 3 && rgOfBand s c.band = rg) = some c → c.entry = some i →
      ∃ t, exec (.reclaimJob rg job ⟨die, block⟩) s = .next t ∧
        t = copyTo (if (bandOf s c.band).valid = 0 then eraseBand s c.band else readForCopy s i c.band) rg die block ∧
        t.ledger.map = s.ledger.map ∧ t.flash.pages = s.flash.pages ∧
        OnlyChanges [.tally, .flash, .ledger, .counters, .sticky, .out] s t)) ∧
  (∀ (s : State) (i k : Nat), (∀ j ∈ s.flash.jobs, j.entry ≠ i) → (∀ c ∈ s.ledger.copies, c.entry = i → c.placed ≠ none) →
    unreadIus s k ≠ [] →
    ∃ j ∈ (readForCopy s i k).flash.jobs, j.entry = i ∧ j.use = .copy k ∧ j.units = (unreadIus s k).take 12) ∧
  (∀ (s : State) (rg k : Nat) (b : Band), stopped s = false → rg < 8 → s.ledger.readOnly = false →
    (bandsOfRg s rg).find? (fun p => p.2.st = .closed && !p.2.level &&
      decide (p.2.erases + s.ledger.allErases + odVal s 0x2340 2 ≤ meanErases s rg)) = some (k, b) →
    ∃ t, exec (.wearLevelJob rg) s = .next t ∧ (bandOf t k).level = true ∧ (∀ j, j ≠ k → bandOf t j = bandOf s j) ∧
      t.ledger.map = s.ledger.map ∧ OnlyChanges [.ledger, .sticky] s t) ∧
  (∀ (s : State) (stripe block : Nat), stopped s = false → stripe < stripeCount s → block < 1832 →
    bandKey stripe block ∉ s.ledger.scrubbed → (∀ c ∈ s.ledger.care, c.job = 3 → c.band ≠ bandKey stripe block) →
    ∃ t r, exec (.scrubPass stripe block) s = .next t ∧ t.ledger.care = s.ledger.care ++ [⟨3, none, bandKey stripe block⟩] ∧
      t.tally.waiting = s.tally.waiting ++ [r] ∧ r.origin = .internal 3 (bandKey stripe block) ∧ r.cls = 3 ∧
      t.ledger.map = s.ledger.map ∧ t.ledger.bands = s.ledger.bands ∧ OnlyChanges [.tally, .ledger] s t) ∧
  (∀ (s : State) (k : Nat) (j : ReadJob),
    ((∀ b ∈ scrubBands s, b ∈ s.ledger.scrubbed ++ [k]) →
      (scrubDone s k j).ledger.scrubbed = [] ∧ (scrubDone s k j).ledger.scrubStart = s.bell.count) ∧
    ((∃ b ∈ scrubBands s, b ∉ s.ledger.scrubbed ++ [k]) → (scrubDone s k j).ledger.scrubbed = s.ledger.scrubbed ++ [k]) ∧
    (scrubDone s k j).flash.pages = s.flash.pages ∧ (scrubDone s k j).ledger.map = s.ledger.map) ∧
  (∀ (s : State) (seg : Nat), stopped s = false → (s.ledger.dirty = [] ∨ seg ∈ s.ledger.dirty) →
    (jobEntry s 6 seg = none → (∀ r ∈ s.tally.waiting, r.origin ≠ .internal 6 seg) →
      ∃ t r, exec (.checkpointSegment seg) s = .next t ∧ t.tally.waiting = s.tally.waiting ++ [r] ∧ r.origin = .internal 6 seg ∧
        r.cls = 1 ∧ OnlyChanges [.tally] s t) ∧
    (∀ i, jobEntry s 6 seg = some i → ∃ t, exec (.checkpointSegment seg) s = .next t ∧
      t.ledger.dirty = s.ledger.dirty.filter (fun x => x ≠ seg) ∧ (∀ r ∈ t.ledger.journal, segmentOf r.iu ≠ seg) ∧
      (keysRising s.ledger.map = true → ∀ iu, segmentOf iu = seg → tget t.ledger.checkpoint iu = tget s.ledger.map iu) ∧
      t.ledger.map = s.ledger.map ∧ t.flash.pages = s.flash.pages ∧ OnlyChanges completionParts s t))

/-- The integer, logic, compare, select and move operations write their result to rd of every issuing lane, and nothing else.
(R231, R232, Table 9.12) -/
def Obligations.GangIntegerOperations : Prop :=
  ∀ (s : State) (ref : GangRef) (v : Invocation) (g : Gang) (mask : Nat), GangTurn s ref v g mask →
    (∀ r : RFields,
      let a := fun i => regAt g i r.ra
      let b := fun i => regAt g i r.rb
      let c := fun i => regAt g i r.rc
      (rOk r 0 = true →
        GangWrites (.iadd ref r) s ref g mask r.rd (fun i => a i + b i) ∧
        GangWrites (.isub ref r) s ref g mask r.rd (fun i => a i - b i) ∧
        GangWrites (.imul ref r) s ref g mask r.rd (fun i => a i * b i) ∧
        GangWrites (.imad ref r) s ref g mask r.rd (fun i => a i * b i + c i) ∧
        GangWrites (.orOp ref r) s ref g mask r.rd (fun i => a i ||| b i) ∧
        GangWrites (.xorOp ref r) s ref g mask r.rd (fun i => a i ^^^ b i) ∧
        GangWrites (.shl ref r) s ref g mask r.rd (fun i => a i <<< ((b i).toNat % 32)) ∧
        GangWrites (.shr ref r) s ref g mask r.rd (fun i => a i >>> ((b i).toNat % 32)) ∧
        GangWrites (.sar ref r) s ref g mask r.rd (fun i => (a i).sshiftRight ((b i).toNat % 32)) ∧
        GangWrites (.popc ref r) s ref g mask r.rd (fun i => (a i).cpop) ∧
        GangWrites (.clz ref r) s ref g mask r.rd (fun i => (a i).clz) ∧
        GangWrites (.sel ref r) s ref g mask r.rd (fun i => if a i = 0 then c i else b i) ∧
        GangWrites (.mov ref r) s ref g mask r.rd a) ∧
      (rOk r 1 = true →
        let signed := bit r.modifier 0
        GangWrites (.imulhi ref r) s ref g mask r.rd (fun i =>
          if signed then (((a i).signExtend 64 * (b i).signExtend 64) >>> 32).setWidth 32
          else (((a i).setWidth 64 * (b i).setWidth 64) >>> 32).setWidth 32) ∧
        GangWrites (.andOp ref r) s ref g mask r.rd (fun i => if signed then a i &&& ~~~(b i) else a i &&& b i) ∧
        GangWrites (.imin ref r) s ref g mask r.rd (fun i =>
          if (if signed then (b i).slt (a i) else (b i).ult (a i)) then b i else a i) ∧
        GangWrites (.imax ref r) s ref g mask r.rd (fun i =>
          if (if signed then (b i).slt (a i) else (b i).ult (a i)) then a i else b i) ∧
        GangWrites (.bfe ref r) s ref g mask r.rd (fun i =>
          let n := if (b i).toNat / 256 % 32 = 0 then 32 else (b i).toNat / 256 % 32
          let x := (a i >>> ((b i).toNat % 32)).setWidth n
          if signed then x.signExtend 32 else x.setWidth 32) ∧
        GangWrites (.idiv ref r) s ref g mask r.rd (fun i =>
          if b i = 0 then 0xFFFFFFFF else if signed then (a i).sdiv (b i) else a i / b i) ∧
        GangWrites (.irem ref r) s ref g mask r.rd (fun i => if signed then (a i).srem (b i) else a i % b i)) ∧
      (rOk r 15 = true → r.modifier % 8 < 6 →
        GangWrites (.icmp ref r) s ref g mask r.rd (fun i =>
          let lt := if bit r.modifier 3 then (a i).slt (b i) else (a i).ult (b i)
          let eq := decide (a i = b i)
          if [eq, !eq, lt, lt || eq, !lt && !eq, !lt].getD (r.modifier % 8) false then 1 else 0))) ∧
    (∀ rd ra imm : Nat, rd < 256 → ra < 256 →
      GangWrites (.iaddi ref rd ra imm) s ref g mask rd (fun i => regAt g i ra + BitVec.ofNat 32 imm) ∧
      GangWrites (.movi ref rd imm) s ref g mask rd (fun _ => BitVec.ofNat 32 imm))

/-- The FP32 operations and conversions write one rounded result to rd of every issuing lane, and nothing else. (R175, R176,
R232, Table 9.12) -/
def Obligations.GangFloatOperations : Prop :=
  (∀ (s : State) (ref : GangRef) (v : Invocation) (g : Gang) (mask : Nat), GangTurn s ref v g mask → ∀ r : RFields,
    let a := fun i => fpA (regAt g i r.ra) r.modifier
    let b := fun i => fpB (regAt g i r.rb) r.modifier
    (rOk r 15 = true →
      GangWrites (.fadd ref r) s ref g mask r.rd (fun i => fpWord (fvAdd (a i) (b i))) ∧
      GangWrites (.fsub ref r) s ref g mask r.rd (fun i => fpWord (fvAdd (a i) (fvNeg (b i)))) ∧
      GangWrites (.fmul ref r) s ref g mask r.rd (fun i => fpWord (fvMul (a i) (b i))) ∧
      GangWrites (.ffma ref r) s ref g mask r.rd (fun i => fpWord (fvAdd (fvMul (a i) (b i)) (f32Val (regAt g i r.rc).toNat))) ∧
      GangWrites (.fmin ref r) s ref g mask r.rd (fun i => fpWord (fvMin (a i) (b i))) ∧
      GangWrites (.fmax ref r) s ref g mask r.rd (fun i => fpWord (fvMax (a i) (b i))) ∧
      GangWrites (.fdiv ref r) s ref g mask r.rd (fun i => fpWord (fvDiv (a i) (b i)))) ∧
    (rOk r 5 = true →
      GangWrites (.fsqrt ref r) s ref g mask r.rd (fun i => fpWord (fvSqrt (a i))) ∧
      GangWrites (.frcp ref r) s ref g mask r.rd (fun i => fpWord (fvDiv (fvOfInt 1) (a i))) ∧
      GangWrites (.fexp2 ref r) s ref g mask r.rd (fun i => fpWord (fvExp2 (a i))) ∧
      GangWrites (.flog2 ref r) s ref g mask r.rd (fun i => fpWord (fvLog2 (a i)))) ∧
    (rOk r 7 = true → r.modifier % 8 < 6 →
      GangWrites (.fcmp ref r) s ref g mask r.rd (fun i =>
        if f32Val (regAt g i r.ra).toNat = .nan ∨ f32Val (regAt g i r.rb).toNat = .nan then (if r.modifier % 8 = 1 then 1 else 0)
        else if condHolds (r.modifier % 8) (fvLt (f32Val (regAt g i r.ra).toNat) (f32Val (regAt g i r.rb).toNat))
          (fvEq (f32Val (regAt g i r.ra).toNat) (f32Val (regAt g i r.rb).toNat)) then 1 else 0)) ∧
    (rOk r 3 = true → GangWrites (.frnd ref r) s ref g mask r.rd (fun i => fpWord (fvRound (r.modifier % 4) (f32Val (regAt g i r.ra).toNat)))) ∧
    (rOk r 0 = true → GangWrites (.fclass ref r) s ref g mask r.rd (fun i => BitVec.ofNat 32 (fclassMask (regAt g i r.ra).toNat))) ∧
    (rOk r 255 = true → formatOk (r.modifier / 16) = true → formatOk (r.modifier % 16) = true →
      GangWrites (.cvt ref r) s ref g mask r.rd (fun i => convertWord (r.modifier / 16) (r.modifier % 16) (regAt g i r.ra)))) ∧
  (∀ x y : Fv, ∀ p q : Rat, fvRat x = some p → fvRat y = some q →
    fvRat (fvAdd x y) = some (p + q) ∧ fvRat (fvMul x y) = some (p * q) ∧
    (fvLt x y = true ↔ p < q) ∧ (fvEq x y = true ↔ p = q)) ∧
  (∀ x : Fv, fpWord (fvAdd .nan x) = 0x7FC00000 ∧ fpWord (fvAdd x .nan) = 0x7FC00000 ∧ fpWord (fvMul .nan x) = 0x7FC00000 ∧
    fpWord (fvMul x .nan) = 0x7FC00000 ∧ fpWord (fvMin .nan x) = 0x7FC00000 ∧ fpWord (fvMin x .nan) = 0x7FC00000 ∧
    fpWord (fvMax .nan x) = 0x7FC00000 ∧ fpWord (fvMax x .nan) = 0x7FC00000 ∧ fpWord (fvDiv .nan x) = 0x7FC00000 ∧
    fpWord (fvDiv x .nan) = 0x7FC00000) ∧
  (∀ n m : Bool, fpWord (fvMin (.fin n 0 0) (.fin m 0 0)) = (if n || m then 0x80000000 else 0) ∧
    fpWord (fvMax (.fin n 0 0) (.fin m 0 0)) = (if n && m then 0x80000000 else 0)) ∧
  (∀ w : Nat, ∃ k, k < 9 ∧ fclassMask w = 2 ^ k) ∧ (∀ w : Word, convertWord 5 5 w = w)

/-- A finite FP32 result is the nearest FP32 value to the exact one, and on a tie the one with an even mantissa. (R175, R232) -/
def Obligations.RoundingIsToNearestEven : Prop :=
  ∀ (v : Fv) (q y : Rat), fvRat v = some q → fvRat (f32Val (f32Of v)) = some y →
    ∀ (x : Nat) (z : Rat), fvRat (f32Val x) = some z →
      |y - q| ≤ |z - q| ∧ (|y - q| = |z - q| → z ≠ y → f32Of v % 2 = 0)

/-- Branches, reconvergence, PULSE, FENCE, NOP, barriers, EXIT, TRAP, SREG, SHFL and VOTE. (R198, R199, R202, R208, R228, R231,
R234, Table 9.12) -/
def Obligations.GangControlFlow : Prop :=
  (∀ (s : State) (ref : GangRef) (v : Invocation) (g : Gang) (mask : Nat), GangTurn s ref v g mask →
    (∀ target, target < instrCount s v.program → ∃ h, GangPuts (.bra ref target) s ref h ∧ { h with pcs := g.pcs } = g ∧
      ∀ i, lanePc h i = if i ∈ lanesOf mask then target else lanePc g i) ∧
    (∀ ra target point, ra < 256 → target < instrCount s v.program → point < instrCount s v.program →
      ∀ p ∈ [(Instr.brz ref ra target point, fun x : Word => decide (x = 0)), (.brnz ref ra target point, fun x => decide (x ≠ 0))],
        let taking := (lanesOf mask).filter (fun i => p.2 (regAt g i ra))
        let falling := (lanesOf mask).filter (fun i => !p.2 (regAt g i ra))
        let parts := taking ≠ [] ∧ falling ≠ []
        let split := progressMode s v.program = false ∧ parts
        (¬(split ∧ 32 ≤ g.stack.length) → ∃ h, GangPuts p.1 s ref h ∧
          (∀ i, lanePc h i = if i ∈ taking then target else if i ∈ falling then lanePc g i + 1 else lanePc g i) ∧
          (¬parts → { h with pcs := g.pcs } = g) ∧
          (parts → progressMode s v.program = true → { h with pcs := g.pcs, splits := g.splits } = g ∧
            (∀ i ∈ taking, (tgetD h.splits i []).head? = some ⟨point, lanePc g (lowLane mask), true⟩) ∧
            ∀ i ∈ falling, (tgetD h.splits i []).head? = some ⟨point, lanePc g (lowLane mask), false⟩) ∧
          (split → h.active = maskOf falling ∧ h.stack = ⟨point, maskOf taking, target, mask⟩ :: g.stack ∧
            { h with pcs := g.pcs, active := g.active, stack := g.stack } = g)) ∧
        (split → 32 ≤ g.stack.length → GangFaults p.1 s ref g ⟨0x04, mask, 0, 0⟩)) ∧
    (∀ c ∈ [Instr.reconv ref, .nopOp ref, .fence ref 1, .fence ref 2],
      ∃ h, GangPuts c s ref h ∧ Advanced g h mask ∧ { h with pcs := g.pcs } = g) ∧
    (∃ h, GangPuts (.pulse ref) s ref h ∧ Advanced g h mask ∧ { h with pcs := g.pcs } = { g with quiet := 0, quietFresh := true }) ∧
    (∀ scope ident, scope ≤ 2 → ident < 16 →
      ((scope = 0 ∧ progressMode s v.program = false ∧ mask ≠ g.live) →
        GangFaults (.bar ref scope ident) s ref g ⟨0x03, mask, 0, ident⟩) ∧
      (¬(scope = 0 ∧ progressMode s v.program = false ∧ mask ≠ g.live) → ∃ u k w b, exec (.bar ref scope ident) s = .next (checkBarriers u g.inv) ∧
        gangAt u ref = some k ∧ k.quiet = 0 ∧ k.regs = g.regs ∧ k.pcs = g.pcs ∧ k.live = g.live ∧
        (∀ i ∈ lanesOf mask, tget k.blocked i = some ⟨1, 0, scope, ident, 0⟩) ∧
        (∀ i, i ∉ lanesOf mask → tget k.blocked i = tget g.blocked i) ∧
        tget u.compute.invs g.inv = some w ∧ b ∈ w.barriers ∧ b.scope = scope ∧ b.ident = ident ∧
        (∀ i ∈ lanesOf mask, (g.index, i) ∈ b.arrived) ∧ OnlyGang s u ref ∧ OnlyChanges [.compute, .counters, .sticky] s u ∧
        ((∀ b ∈ w.barriers, barrierComplete u w g.inv b = false) → checkBarriers u g.inv = u))) ∧
    (∀ ra, ra < 256 →
      let value := fun i => (regAt g i ra).toNat
      ∃ u w, exec (.exitOp ref ra) s = .next (checkBarriers u g.inv) ∧
        gangAt u ref = (if maskSub g.live mask = 0 then none else some { g with live := maskSub g.live mask, quiet := 0, quietFresh := true }) ∧
        tget u.compute.invs g.inv = some w ∧ w.exitOr = (lanesOf mask).foldl (fun a i => Nat.lor a (value i)) v.exitOr ∧
        w.exitCount = v.exitCount + ((lanesOf mask).filter (fun i => value i ≠ 0)).length ∧
        w.gangsDone = (if maskSub g.live mask = 0 then v.gangsDone + 1 else v.gangsDone) ∧ w.window = v.window ∧
        w.exited = (if maskSub g.live mask = 0 ∧ v.gangs ≤ v.gangsDone + 1 then some (s.bell.count, s.bell.ticks) else v.exited) ∧
        OnlyGang s u ref ∧ OnlyChanges [.compute, .counters, .sticky] s u ∧ (v.barriers = [] → checkBarriers u g.inv = u)) ∧
    (∀ imm, imm < 65536 → GangFaults (.trapOp ref imm) s ref g ⟨0x0A, mask, 0, imm⟩) ∧
    (∀ rd imm, rd < 256 → imm ≤ 9 → GangWrites (.sreg ref rd imm) s ref g mask rd (fun i => BitVec.ofNat 32
      ([i, g.index, v.gangs, ref.unit, s.bell.count, s.bell.count / 2 ^ 32, mask, g.live, v.windowSize,
        partBytes s ref.unit v.program].getD imm 0))) ∧
    (∀ r : RFields, rOk r 3 = true →
      GangWrites (.shfl ref r) s ref g mask r.rd (fun i =>
        let b := (regAt g i r.rb).toNat
        let src : Int := [(b : Int), (i : Int) - b, (i : Int) + b, (Nat.xor i b : Nat)].getD (r.modifier % 4) 0
        if 0 ≤ src ∧ src < 32 ∧ src.toNat ∈ lanesOf mask then regAt g src.toNat r.ra else regAt g i r.ra) ∧
      (r.modifier % 4 < 3 → GangWrites (.vote ref r) s ref g mask r.rd (fun _ =>
        let set := fun i => decide (regAt g i r.ra ≠ 0)
        [if (lanesOf mask).all set then 1 else 0, if (lanesOf mask).any set then 1 else 0,
          BitVec.ofNat 32 (maskOf ((lanesOf mask).filter set))].getD (r.modifier % 4) 0)))) ∧
  (∀ (s : State) (ref : GangRef) (v : Invocation) (g : Gang) (mask : Nat), issuing s ref = some (v, g, mask) →
    instrCount s v.program ≤ lanePc g (lowLane mask) →
    ∀ c ∈ [Instr.nopOp ref, .pulse ref, .reconv ref, .bra ref 0, .movi ref 0 0],
      GangFaults c s ref g ⟨0x0B, mask, 0, 0⟩)

/-- Loads, stores and atomics act on the bytes their lanes name and on no others; a faulting access has no effect. (R196, R203,
R204, R217, R230, R233, Table 9.11, Table 8.6) -/
def Obligations.GangMemoryAccesses : Prop :=
  ∀ (s : State) (ref : GangRef) (v : Invocation) (g : Gang) (mask : Nat), GangTurn s ref v g mask → ∀ m : MemFields,
    let n := widthBytes m.width
    let k := widthRegs m.width
    let addr := fun i => (laneAddr g i m).toNat
    let hit := fun a : Nat => ∃ i ∈ lanesOf mask, addr i ≤ a ∧ a < addr i + n
    (∀ c store, (c, store) ∈ [(Instr.ld ref m, false)] ∧ ldOk m = true ∨ (c, store) ∈ [(Instr.st ref m, true)] ∧ stOk m = true ∨
        (∃ op, (c, store) = (Instr.atom ref m op, true) ∧ atomOk m op = true) ∨ (c, store) = (Instr.cas ref m, true) ∧ casOk m = true →
      ∀ f, accessFault s ref.unit v g mask m store = some f → GangFaults c s ref g f) ∧
    (∀ store, accessFault s ref.unit v g mask m store = none ↔ ∀ i ∈ lanesOf mask, laneAddr g i m % (n : Int) = 0 ∧
      0 ≤ laneAddr g i m ∧ laneAddr g i m + n ≤ spaceSize s ref.unit v m.space ∧ (store = true → m.space ≠ 2)) ∧
    (ldOk m = true → accessFault s ref.unit v g mask m false = none → ∃ t h, exec (.ld ref m) s = .next t ∧ gangAt t ref = some h ∧
      (∀ i ∈ lanesOf mask, regsVal h i m.rd k =
        (let x := spaceRead s ref.unit v m.space (addr i) n
         if m.sx then (BitVec.signExtend 32 (BitVec.ofNat (8 * n) x)).toNat else x)) ∧
      (∀ i q, i < 32 → q < 256 → (i ∉ lanesOf mask ∨ q < m.rd ∨ m.rd + k ≤ q) → regAt h i q = regAt g i q) ∧ Advanced g h mask ∧
      { h with regs := g.regs, pcs := g.pcs } = g ∧ GangFrame s t ref) ∧
    (stOk m = true → accessFault s ref.unit v g mask m true = none → ∃ t h, exec (.st ref m) s = .next t ∧ gangAt t ref = some h ∧
      (∀ i ∈ lanesOf mask, (∀ j ∈ lanesOf mask, i < j → addr j + n ≤ addr i ∨ addr i + n ≤ addr j) →
        spaceBytes t ref.unit g.inv v m.space (addr i) n = regsVal g i m.rb k % 2 ^ (8 * n)) ∧
      (∀ a, ¬hit a → spaceByte t ref.unit g.inv v m.space a = spaceByte s ref.unit g.inv v m.space a) ∧
      Advanced g h mask ∧ h.regs = g.regs ∧ h.quiet = 0 ∧ { h with pcs := g.pcs, quiet := g.quiet, quietFresh := g.quietFresh } = g ∧
      OtherSpaces s t ref g.inv v m.space hit) ∧
    (∀ op, atomOk m op = true → accessFault s ref.unit v g mask m true = none → ∃ t h, exec (.atom ref m op) s = .next t ∧
      gangAt t ref = some h ∧
      (∀ i, lanesOf mask = [i] →
        let old := spaceRead s ref.unit v m.space (addr i) n
        let x := regsVal g i m.rb k
        regsVal h i m.rd k = old ∧ spaceBytes t ref.unit g.inv v m.space (addr i) n =
          ([(old + x) % 2 ^ (8 * n), if toInt (8 * n) old ≤ toInt (8 * n) x then old else x,
            if toInt (8 * n) old ≤ toInt (8 * n) x then x else old, min old x, max old x, Nat.land old x, Nat.lor old x, Nat.xor old x,
            x].getD op x)) ∧
      (∀ i q, i < 32 → q < 256 → (i ∉ lanesOf mask ∨ q < m.rd ∨ m.rd + k ≤ q) → regAt h i q = regAt g i q) ∧
      (∀ a, ¬hit a → spaceByte t ref.unit g.inv v m.space a = spaceByte s ref.unit g.inv v m.space a) ∧
      Advanced g h mask ∧ { h with regs := g.regs, pcs := g.pcs, quiet := g.quiet, quietFresh := g.quietFresh } = g ∧ OtherSpaces s t ref g.inv v m.space hit) ∧
    (casOk m = true → accessFault s ref.unit v g mask m true = none → ∃ t h, exec (.cas ref m) s = .next t ∧ gangAt t ref = some h ∧
      (∀ i rest old, lanesOf mask = i :: rest → (∀ j ∈ rest, addr j = addr i) → spaceRead s ref.unit v m.space (addr i) n = old →
        (∀ j ∈ i :: rest, regsVal g j m.rb k = old) → regsVal g i (m.rb + k) k ≠ old →
        spaceBytes t ref.unit g.inv v m.space (addr i) n = regsVal g i (m.rb + k) k ∧ regsVal h i m.rd k = old ∧
        (∀ j ∈ rest, regsVal h j m.rd k = regsVal g i (m.rb + k) k)) ∧
      (∀ i q, i < 32 → q < 256 → (i ∉ lanesOf mask ∨ q < m.rd ∨ m.rd + k ≤ q) → regAt h i q = regAt g i q) ∧
      (∀ a, ¬hit a → spaceByte t ref.unit g.inv v m.space a = spaceByte s ref.unit g.inv v m.space a) ∧
      Advanced g h mask ∧ { h with regs := g.regs, pcs := g.pcs, quiet := g.quiet, quietFresh := g.quietFresh } = g ∧ OtherSpaces s t ref g.inv v m.space hit)

/-- Loom Direct at its turn, the end of a tile and of a ticket's step, rows that go into a KV page, and the integer accumulator. (R171,
R175, R176, R181, R182, R185, R187, R188, R206) -/
def Obligations.LoomsRunTheirTiles : Prop :=
  (∀ (s : State) (h : HostId) (i : Nat) (length : Nat) (desc mats : Bytes), IoTurn s h i → h.reservedOk = true → directGoes s i = false →
    let buf := desc ++ mats
    (odVal s 0x2403 0 = 0 → ∃ t, exec (.loomDirect h length desc mats) s = .next t ∧ Completes s t h.sq h.cid [] .invalidOpcode 0 0 ∧
      Undisturbed [] s t) ∧
    (odVal s 0x2403 0 ≠ 0 → directBad s length buf = true → ∃ t, exec (.loomDirect h length desc mats) s = .next t ∧
      Completes s t h.sq h.cid [] .invalidField 0 0 ∧ Undisturbed [] s t) ∧
    (odVal s 0x2403 0 ≠ 0 → directBad s length buf = false → ∃ t d, exec (.loomDirect h length desc mats) s = .next t ∧
      t.compute = { s.compute with directs := s.compute.directs ++ [d] } ∧ d.entry = i ∧ d.buf = buf ∧
      d.undrained = fieldAt buf 0 2 / 64 * (fieldAt buf 2 2 / 64) ∧ d.tilesLeft = List.range d.undrained ∧ d.loomsUsed = [] ∧
      OnlyChanges [.compute] s t)) ∧
  (∀ (s : State) (kv : Option KvPut) (loom tile entry : Nat) (st : LoomStep) (c : Entry) (d : Direct), stopped s = false →
    (loomOf s loom).step = some st → st.kind = .direct tile → entryAt s st.child = some c → c.parent = some entry →
    s.compute.directs.find? (fun d => d.entry = entry) = some d → entry ∉ family s st.child →
    let n := fieldAt d.buf 2 2
    let f := directFuller d.buf tile
    let y := fullerRows f (stepAcc st (fieldAt d.buf 8 1) (fieldAt d.buf 9 1) (fieldAt d.buf 4 4) 64) 64 [] 64
    let out := (y.1.zipIdx).foldl (fun (o : Mem) x =>
      mwrite o (elemBytes f.outFmt ((64 * (tile / (n / 64)) + x.2) * n + 64 * (tile % (n / 64)))) (packCodes f.outFmt x.1)) d.out
    (1 < d.undrained → ∃ t, exec (.loomStepComplete loom ⟨st.child, kv⟩) s = .next t ∧ (loomOf t loom).step = none ∧
      { d with out := out, undrained := d.undrained - 1, saturated := d.saturated + y.2.1 } ∈ t.compute.directs ∧
      Undisturbed [.units, .sticky, .counters] s t) ∧
    (∀ sq cid, Stands s sq cid entry → d.undrained ≤ 1 → ∃ t, exec (.loomStepComplete loom ⟨st.child, kv⟩) s = .next t ∧
      (loomOf t loom).step = none ∧
      Ends s t sq cid (mread out 0 (elemBytes f.outFmt (fieldAt d.buf 0 2 * n))) .success (sat 32 (d.saturated + y.2.1))
        d.loomsUsed.length true ∧ Undisturbed [.units, .sticky, .counters] s t)) ∧
  (∀ (s : State) (kv : Option KvPut) (loom inv n plan : Nat) (st : LoomStep) (v : Invocation), stopped s = false →
    (loomOf s loom).step = some st → st.kind = .ticket inv n plan → tget s.compute.invs inv = some v → v.entry ∉ family s st.child →
    let p := programOf s v.program
    let b := planEntry p plan
    let rows := fun f => (fullerRows f (stepAcc st (fieldAt b 1 1) (fieldAt b 2 1) (planK b) (planN b)) (planN b) [] (planM b)).1
    planTarget b = 0 → (planTile b = true → v.stream = none) →
    ∃ t w, exec (.loomStepComplete loom ⟨st.child, kv⟩) s = .next t ∧ (loomOf t loom).step = none ∧ tget t.compute.invs inv = some w ∧
      ((planTile b = false ∨ kvTarget s v b kv = none) → w.window = mwrite v.window st.outAddr (packCodes (fieldAt b 3 1)
        (if planTile b then (rows (planFuller p v b st)).flatten else (coarsePass p b st).1)) ∧ w.kvRows = v.kvRows) ∧
      (∀ k m a, planTile b = true → kvTarget s v b kv = some (k, m, a) →
        (w.kvRows, w.window) = kvWrite false k a v.kvRows m (rows (kvFuller (planFuller p v b st) m a k.value))) ∧
      ((∀ c ∈ s.compute.cores, ∀ g ∈ c.2.gangs, g.2.inv = inv → ∀ x ∈ g.2.blocked, waitsFor n x.2 = false) →
        ∀ k, ticketNo v n = some k → k.state = 0 → ticketNo w n = some { k with state := 1 }) ∧
      Undisturbed [.units, .sticky, .counters] s t) ∧
  (∀ (west north k : Nat) (a b : Nat → Nat), intPair west = true →
    let sum := fun j => ((List.range j).map (fun i => elemInt west (a i) * elemInt north (b i))).sum
    (∀ j, j ≤ k → -2147483648 ≤ sum j ∧ sum j ≤ 2147483647) → toInt 32 (accumulate west north a b k) = sum k)

/-- A program is stored, checked, translated and given its partitions; and memory range sets are made and deleted. (R190, R211,
R219, R220, R221, R222, R223, R230) -/
def Obligations.ProgramsAreLoadedAndActivated : Prop :=
  (∀ (s : State) (h : HostId) (i pind off : Nat) (data : Bytes), AdminTurn s h i → activating s = false → pind ≤ 31 →
    off + data.length ≤ 67108864 →
    (programActive s pind = true → ∃ t, exec (.loadProgram h pind off data) s = .next t ∧
      Completes s t 0 h.cid [] .commandSequenceError 0 0 ∧ t.compute.programs = s.compute.programs ∧ Undisturbed [] s t) ∧
    (programActive s pind = false →
      let base := if off = 0 then Program.reset else programOf s pind
      let next := { base with
        pkg := mwrite base.pkg off data, stored := max base.stored (off + data.length)
        parts := addRun base.parts off (off + data.length), state := 1 }
      storeInUse s - receivedBytes (programOf s pind) + receivedBytes next ≤ storeLimit →
      ∃ t, exec (.loadProgram h pind off data) s = .next t ∧ Completes s t 0 h.cid [] .success 0 0 ∧ programOf t pind = next ∧
        (∀ p, p ≠ pind → programOf t p = programOf s p) ∧ Undisturbed [] s t)) ∧
  (∀ (s : State) (h : HostId) (i pind : Nat), AdminTurn s h i → activating s = false → pind ≤ 31 →
    (programActive s pind = true → ∃ t, exec (.programActivate h pind) s = .next t ∧ Completes s t 0 h.cid [] .success 0 0 ∧
      t.compute.programs = s.compute.programs ∧ Undisturbed [] s t) ∧
    (programActive s pind = false →
      (∀ code d, checkPackage s (programOf s pind) = some (code, d) → ∃ t, exec (.programActivate h pind) s = .next t ∧
        Completes s t 0 h.cid [] .invalidField code 0 ∧ t.compute.programs = s.compute.programs ∧ t.compute.actProgram = pind ∧
        t.compute.actResult = code ∧ (∀ n, d = some n → t.compute.actDetail = n) ∧ Undisturbed [.counters, .sticky, .free] s t) ∧
      (checkPackage s (programOf s pind) = none → (∀ code d, (activate s pind).1 = some (code, d) →
        ∃ t, exec (.programActivate h pind) s = .next t ∧ Completes s t 0 h.cid [] .invalidField code 0 ∧
          programActive t pind = false ∧ t.compute.actProgram = pind ∧ t.compute.actResult = code ∧ t.compute.actDetail = d ∧
          (∀ p, p ≠ pind → programOf t p = programOf s p) ∧ Undisturbed [.counters, .sticky] s t)) ∧
      (checkPackage s (programOf s pind) = none → (activate s pind).1 = none → ∃ t, exec (.programActivate h pind) s = .next t ∧
        Completes s t 0 h.cid [] .success 0 0 ∧
        (let p := programOf t pind
         p.state = 2 ∧ p.pkg = (programOf s pind).pkg ∧ 16 ≤ p.physRegs ∧ p.physRegs ≤ 256 ∧ p.physRegs % 8 = 0 ∧
         manifestField p 44 1 ≤ p.cores.length ∧ p.cores.length ≤ manifestField p 45 1 ∧
         ∀ c ∈ p.cores, c < 48 ∧ tget (coreOf t (c + 24)).parts pind = some (1024 * manifestField p 42 2)) ∧
        (∀ p, p ≠ pind → programOf t p = programOf s p) ∧ t.compute.actResult = 0 ∧ Undisturbed [.counters, .sticky] s t))) ∧
  (∀ (s : State) (h : HostId) (i pind : Nat), AdminTurn s h i → activating s = false → pind ≤ 31 →
    (invsOf s pind ≠ 0 → ∃ t, exec (.programDeactivate h pind) s = .next t ∧ Completes s t 0 h.cid [] .commandSequenceError 0 0 ∧
      t.compute.programs = s.compute.programs ∧ Undisturbed [] s t) ∧
    (invsOf s pind = 0 → programActive s pind = true → ∃ t, exec (.programDeactivate h pind) s = .next t ∧
      Completes s t 0 h.cid [] .success 0 0 ∧ programOf t pind = { programOf s pind with cores := [], state := 1 } ∧
      (∀ c ∈ (programOf s pind).cores, tget (coreOf t (c + 24)).parts pind = none ∧ tget (coreOf t (c + 24)).localMem pind = none) ∧
      (∀ p, p ≠ pind → programOf t p = programOf s p) ∧ Undisturbed [] s t)) ∧
  (∀ (s : State) (h : HostId) (i rsid : Nat) (ranges : List (Nat × Nat)), AdminTurn s h i →
    (1 ≤ rsid → rsid ≤ 65535 → tget s.compute.rangeSets rsid = none → 1 ≤ ranges.length → ranges.length ≤ 8 →
      (∀ r ∈ ranges, r.1 + r.2 ≤ slmSize) → ∃ t, exec (.memoryRangeSetManagement h true rsid ranges) s = .next t ∧
        Completes s t 0 h.cid [] .success rsid 0 ∧ tget t.compute.rangeSets rsid = some ranges ∧
        (∀ r, r ≠ rsid → tget t.compute.rangeSets r = tget s.compute.rangeSets r) ∧ Undisturbed [] s t) ∧
    ((tget s.compute.rangeSets rsid).isSome = true →
      (s.compute.invs.any (fun v => v.2.rsid = rsid) = true → ∃ t, exec (.memoryRangeSetManagement h false rsid ranges) s = .next t ∧
        Completes s t 0 h.cid [] .commandSequenceError 0 0 ∧ t.compute.rangeSets = s.compute.rangeSets ∧ Undisturbed [] s t) ∧
      (s.compute.invs.any (fun v => v.2.rsid = rsid) = false → ∃ t, exec (.memoryRangeSetManagement h false rsid ranges) s = .next t ∧
        Completes s t 0 h.cid [] .success 0 0 ∧ tget t.compute.rangeSets rsid = none ∧ Undisturbed [] s t)))

/-- Run Kernel and Execute Program wait, an invocation starts with its window and staged read, its gangs are placed with registers of 0,
resident gangs stay, and the end completes. (R190, R191, R192, R226, R227, R228, R229, R447) -/
def Obligations.InvocationsStartAndEnd : Prop :=
  (∀ (s : State) (h : HostId) (i pind rsid gangs length : Nat) (buf : Bytes), IoTurn s h i → h.reservedOk = true →
    (∀ v ∈ s.compute.invs, v.2.entry ≠ i) → runFieldsBad s pind rsid gangs length 40 buf = false →
    (programActive s pind = false → ∃ t, exec (.runKernel h pind rsid gangs length buf) s = .next t ∧
      Completes s t h.sq h.cid [] .commandSequenceError 0 0 ∧ Undisturbed [] s t) ∧
    (programActive s pind = true → runManifestBad s pind h.nsid buf = false → stagedOutside s h.nsid buf = false →
      ∃ t, exec (.runKernel h pind rsid gangs length buf) s = .next t ∧
        tget t.compute.invs s.compute.nextInv = some (runInvocation s i pind rsid gangs h.nsid buf) ∧
        (∀ n, n ≠ s.compute.nextInv → tget t.compute.invs n = tget s.compute.invs n) ∧ t.compute.nextInv = s.compute.nextInv + 1 ∧
        (∃ e, entryAt t i = some e ∧ e.state = .waiting) ∧ t.compute.slm = s.compute.slm ∧ OnlyChanges [.tally, .compute] s t)) ∧
  (∀ (s : State) (h : HostId) (i pind rsid : Nat) (data : Bytes), IoTurn s h i → (∀ v ∈ s.compute.invs, v.2.entry ≠ i) → pind ≤ 31 →
    (rsid = 0 ∨ (tget s.compute.rangeSets rsid).isSome = true) →
    (programActive s pind = false → ∃ t, exec (.executeProgram h pind 0xC0 rsid data) s = .next t ∧
      Completes s t h.sq h.cid [] .commandSequenceError 0 0 ∧ Undisturbed [] s t) ∧
    (programActive s pind = true → ∃ t v, exec (.executeProgram h pind 0xC0 rsid data) s = .next t ∧
      tget t.compute.invs s.compute.nextInv = some v ∧ v.entry = i ∧ v.program = pind ∧ v.started = false ∧ v.inputAt = 0 ∧
      v.outLen = 0 ∧ v.gangs = manifestField (programOf s pind) 48 4 ∧ v.input = data.take (manifestField (programOf s pind) 52 4) ∧
      (∃ e, entryAt t i = some e ∧ e.state = .waiting) ∧ OnlyChanges [.tally, .compute] s t)) ∧
  (∀ (s : State) (inv : Nat) (v : Invocation), stopped s = false → s.dev.state ≠ .paused → tget s.compute.invs inv = some v →
    (invsBy s (canBegin s)).head? = some inv → ((programOf s v.program).state = 2 ∨ (programOf s v.program).state = 3) →
    ((nsOf s v.nsid = none ∨ v.stagedLen = 0) → ∃ t, exec (.invocationStart inv) s = .next t ∧
      tget t.compute.invs inv = some { v with started := true, window := firstWindow s v, readyAt := some (chimeNow s) } ∧
      (programOf t v.program).state = 2 ∧ t.compute.cores = s.compute.cores ∧
      (∀ e, entryAt s v.entry = some e → ∃ f, entryAt t v.entry = some f ∧ f.state = .running) ∧
      t.compute.slm = s.compute.slm ∧ OnlyChanges [.tally, .compute, .counters, .sticky] s t) ∧
    (∀ ns, nsOf s v.nsid = some ns → v.stagedLen ≠ 0 → ledgerDown s (iusOf ns (unitsOf ns v.stagedLba v.stagedLen)) = false →
      ∃ t j, exec (.invocationStart inv) s = .next t ∧
        tget t.compute.invs inv = some { v with started := true, window := firstWindow s v } ∧ j ∈ t.flash.jobs ∧ j.entry = v.entry ∧
        j.use = .staged inv ∧ j.units = unitsOf ns v.stagedLba v.stagedLen ∧ t.compute.cores = s.compute.cores ∧
        OnlyChanges [.flash, .compute, .counters, .sticky] s t)) ∧
  (∀ (s : State) (inv : Nat) (v : Invocation) (j : ReadJob), tget s.compute.invs inv = some v → j.lost = [] →
    (programOf s v.program).state = 2 → tget (stagedDone s inv j).compute.invs inv =
      some { v with window := mwrite v.window v.stagedAt j.bytes, readyAt := some (chimeNow s - 1) }) ∧
  (∀ s : State, stopped s = false → s.dev.state ≠ .paused → s.power.hold = false →
    ∃ t, exec .gangPlacement s = .next t ∧ (∀ ref g, gangAt s ref = some g → gangAt t ref = some g) ∧
      (∀ ref g, gangAt s ref = none → gangAt t ref = some g →
        ∃ v, tget s.compute.invs g.inv = some v ∧ v.started = true ∧ v.nextGang ≤ g.index ∧ g.index < v.gangs ∧
          g = newGang g.inv g.index (programOf s v.program).physRegs (invClass s v = 0)) ∧
      OnlyChanges [.compute, .power, .counters, .sticky] s t ∧
      (∀ inv v c, invsBy s (gangsDue s) = [inv] → tget s.compute.invs inv = some v → gangsDue s v = true →
        v.gangs = v.nextGang + 1 → affords s v.entry = true →
        coreFor s (invClass s v) (programOf s v.program) = some c → c < 48 →
        ∃ k, gangAt t ⟨c + 24, k⟩ = some (newGang inv v.nextGang (programOf s v.program).physRegs (invClass s v = 0)))) ∧
  (∀ (s : State) (cls c : Nat) (p : Program), coreFor s cls p = some c → c ∈ p.cores ∧ coreTakes s cls p.physRegs c = true ∧
    ∀ d ∈ p.cores, coreTakes s cls p.physRegs d = true →
      freeSlots (coreOf s (d + 24)) < freeSlots (coreOf s (c + 24)) ∨ freeSlots (coreOf s (d + 24)) = freeSlots (coreOf s (c + 24)) ∧ c ≤ d) ∧
  (∀ (s : State) (inv sq cid : Nat) (v : Invocation), stopped s = false → s.dev.state ≠ .paused →
    tget s.compute.invs inv = some v → allExited v = true → sliceOpen s inv = false → chunkOfInv s inv = none →
    Stands s sq cid v.entry →
    ∃ t, exec (.invocationEnd inv) s = .next t ∧
      Ends s t sq cid (mread v.window v.outAt v.outLen) .success v.exitOr (sat 32 v.exitCount) (decide (v.outLen ≠ 0)) ∧
      (∀ p ∈ t.compute.invs, p.2.entry ≠ v.entry) ∧ t.compute.programs = s.compute.programs ∧ Undisturbed [] s t)

/-- A stalled gang and gangs past a barrier's limit fault; at the boundary after it a gang fault ends the invocation with Kernel Fault
and one log entry, for the fault detected first. (R201, R202, R208, R209) -/
def Obligations.GangsFaultAndEnd : Prop :=
  (∀ (s : State) (ref : GangRef) (g : Gang), stopped s = false → gangAt s ref = some g → g.fault = none →
    (g.quiet < bellCycles s (odVal s 0x2501 0) → exec (.gangStall ref) s = .next s) ∧
    (bellCycles s (odVal s 0x2501 0) ≤ g.quiet →
      GangFaults (.gangStall ref) s ref g ⟨0x01, runningLanes s g, 0, odVal s 0x2501 0⟩)) ∧
  (∀ (s : State) (inv scope ident : Nat) (v : Invocation) (b : Barrier), stopped s = false → tget s.compute.invs inv = some v →
    v.barriers.filter (fun b => b.scope = scope && b.ident = ident && decide (odVal s 0x2502 0 < s.bell.ticks - b.since)) = [b] →
    (∀ x ∈ gangsOf s inv, gangAt s ⟨x.1, x.2.1⟩ = some x.2.2) →
    let lanes := fun g : Gang => (g.blocked.filter (fun p => waitsAt b p.2)).map (fun p => p.1)
    let hit := fun (ref : GangRef) (g : Gang) => (ref.unit, ref.slot, g) ∈ gangsOf s inv ∧ lanes g ≠ [] ∧
      barrierHolds b ref.unit g = true ∧ g.fault = none
    ∃ t, exec (.barrierTimeout inv scope ident) s = .next t ∧
      (∀ ref g, gangAt s ref = some g → hit ref g → ∃ n, s.compute.faultNo ≤ n ∧ n < t.compute.faultNo ∧
        gangAt t ref = some { g with
          fault := some ⟨0x02, maskOf (lanes g), 0, 256 * scope + ident⟩, faultNo := n, faultChime := chimeNow s }) ∧
      (∀ ref, (∀ g, gangAt s ref = some g → ¬hit ref g) → gangAt t ref = gangAt s ref) ∧
      { t.compute with cores := s.compute.cores, faultNo := s.compute.faultNo } = s.compute ∧ OnlyChanges [.compute] s t) ∧
  (∀ (s : State) (inv sq cid : Nat) (v : Invocation) (x : Nat × Nat × Gang) (rest : List (Nat × Nat × Gang)),
    stopped s = false → TallyOk s → tget s.compute.invs inv = some v → Stands s sq cid v.entry →
    sortBy (fun (a b : Nat × Nat × Gang) => decide (a.2.2.faultNo ≤ b.2.2.faultNo))
      ((gangsOf s inv).filter (fun x => x.2.2.fault.isSome && decide (x.2.2.faultChime < chimeNow s))) = x :: rest →
    ∃ t f part, exec (.gangFault inv) s = .next t ∧ Completes s t sq cid [] .kernelFault (s.compute.faultsWritten % 2 ^ 32) 0 ∧
      x.2.2.fault = some f ∧ t.compute.faultLog.getLast? = some (faultEntry s v x f rest.length part) ∧
      t.compute.faultsWritten = s.compute.faultsWritten + 1 ∧ t.compute.faultLog.length ≤ 64 ∧
      gangsOf t inv = [] ∧ t.compute.programs = s.compute.programs ∧ (∀ u, (coreOf t u).parts = (coreOf s u).parts) ∧
      Undisturbed [.counters, .sticky, .free, .host] s t)

/-- TICKET takes a number or blocks or faults; WAIT blocks or returns the end state; POLL returns the state at once. (R205, R206,
R214, R215) -/
def Obligations.TicketsAreTakenAndAwaited : Prop :=
  ∀ (s : State) (ref : GangRef) (v : Invocation) (g : Gang) (mask : Nat), GangTurn s ref v g mask → ∀ rd ra : Nat, rd < 256 → ra < 256 →
    (∀ rb : Nat, rb < 256 →
      ((∀ lane, lanesOf mask ≠ [lane]) → GangFaults (.ticket ref rd ra rb) s ref g ⟨0x08, mask, 0, (lanesOf mask).length⟩) ∧
      (∀ lane, lanesOf mask = [lane] →
        let plan := (regAt g lane ra).toNat
        let place := (regAt g lane rb).toNat
        (∀ f, ticketFault s g v lane plan place = some f → GangFaults (.ticket ref rd ra rb) s ref g f) ∧
        (ticketFault s g v lane plan place = none →
          (4 ≤ g.outstanding.length → ∃ h, GangPuts (.ticket ref rd ra rb) s ref h ∧ tget h.blocked lane = some ⟨4, rd, ra, rb, 0⟩ ∧
            { h with blocked := g.blocked } = g) ∧
          (g.outstanding.length < 4 →
            let n := if v.nextTicket = 0 then 1 else v.nextTicket
            ∃ t h w, exec (.ticket ref rd ra rb) s = .next t ∧ gangAt t ref = some h ∧ regAt h lane rd = BitVec.ofNat 32 n ∧
              (∀ i q, i < 32 → q < 256 → (i ≠ lane ∨ q ≠ rd) → regAt h i q = regAt g i q) ∧ Advanced g h mask ∧
              h.outstanding = g.outstanding ++ [n] ∧ h.quiet = 0 ∧ tget t.compute.invs g.inv = some w ∧
              w.nextTicket = (if n < 65535 then n + 1 else 1) ∧ w.window = v.window ∧
              w.tickets = v.tickets ++ [⟨n, ref.unit, g.index, plan, leNat (mread v.window place 32), 0⟩] ∧ OnlyGang s t ref ∧
              OnlyChanges [.compute, .counters, .sticky] s t)))) ∧
    (let no := fun i => (regAt g i ra).toNat
     ((∀ i ∈ lanesOf mask, ∃ k, ticketNo v (no i) = some k ∧ k.state = 0) →
        ∃ t h, exec (.waitOp ref rd ra) s = .next t ∧ gangAt t ref = some h ∧ h.pcs = g.pcs ∧ h.regs = g.regs ∧
          (∀ i ∈ lanesOf mask, tget h.blocked i = some ⟨2, rd, 0, 0, no i⟩) ∧ OnlyGang s t ref ∧
          OnlyChanges [.compute, .counters, .sticky, .free] s t) ∧
     ((∀ i ∈ lanesOf mask, ∃ k, ticketNo v (no i) = some k ∧ k.state ≠ 0) →
        ∃ t h w, exec (.waitOp ref rd ra) s = .next t ∧ gangAt t ref = some h ∧ Advanced g h mask ∧ h.quiet = 0 ∧
          (∀ i ∈ lanesOf mask, ∀ k, ticketNo v (no i) = some k → regAt h i rd = BitVec.ofNat 32 k.state) ∧
          tget t.compute.invs g.inv = some w ∧ (∀ i ∈ lanesOf mask, ticketNo w (no i) = none ∨ ∃ k ∈ v.tickets, k.number = no i ∧ k.state = 0) ∧
          w.window = v.window ∧ OnlyGang s t ref ∧ OnlyChanges [.compute, .counters, .sticky, .free] s t) ∧
     (∃ t h, exec (.pollOp ref rd ra) s = .next t ∧ gangAt t ref = some h ∧ Advanced g h mask ∧ h.blocked = g.blocked ∧
        (∀ i ∈ lanesOf mask, ∀ k, ticketNo v (no i) = some k → regAt h i rd = BitVec.ofNat 32 k.state) ∧
        (∀ i q, i < 32 → q < 256 → (i ∉ lanesOf mask ∨ q ≠ rd) → regAt h i q = regAt g i q) ∧ OnlyGang s t ref ∧
        OnlyChanges [.compute, .counters, .sticky, .free] s t))

/-- Streams: feed, dispatch and the load before it, the end of a chunk and its commit, park, park now, eviction, resume in three ways, and
slices sealed and admitted. (R237, R242, R243, R244, R245, R246, R247, R248, R249, R250, R252) -/
def Obligations.StreamsAreFedAndCommitted : Prop :=
  (∀ (s : State) (h : HostId) (i sid rsid gangs length : Nat) (check : Option Nat) (buf : Bytes) (st : Stream), IoTurn s h i →
    h.reservedOk = true → (∀ p ∈ s.streams.table, ∀ k ∈ p.2.chunks, k.carrier ≠ i) → streamOf s sid = some st →
    runFieldsBad s st.program rsid gangs length 44 buf = false → h.nsid = st.nsid → viewBad s st buf (fieldAt buf 40 4) = false →
    (manifestField (programOf s st.program) 39 1 = 1 ∨ fieldAt buf 8 4 = 0) →
    (∀ r ∈ runRegions s st.nsid buf, r.1 + r.2 ≤ manifestField (programOf s st.program) 52 4) →
    ((st.st ≠ .opened ∨ st.remoteFed = true ∨ programActive s st.program = false ∨ ∃ n, check = some n ∧ n ≠ nextSeq st) →
      ∃ t, exec (.streamFeed h sid rsid gangs length check buf) s = .next t ∧ Completes s t h.sq h.cid [] .commandSequenceError 0 0 ∧
        Undisturbed [] s t) ∧
    (st.st = .opened → st.remoteFed = false → programActive s st.program = true → (∀ n, check = some n → n = nextSeq st) →
      stagedOutside s st.nsid buf = false →
      ∃ t u k r, exec (.streamFeed h sid rsid gangs length check buf) s = .next t ∧ streamOf t sid = some u ∧
        u = { st with chunks := st.chunks ++ [k] } ∧ k.carrier = i ∧ k.dispatched = false ∧ k.buf = buf ∧ k.seq = nextSeq st ∧
        t.tally.waiting = s.tally.waiting ++ [r] ∧ r.origin = .stream sid k.seq ∧ r.parent = some i ∧
        (∀ n, n ≠ sid → streamOf t n = streamOf s n) ∧ OnlyChanges [.tally, .streams] s t)) ∧
  (∀ (s : State) (sid : Nat) (st : Stream) (k : Chunk), stopped s = false → s.dev.state ≠ .paused → streamOf s sid = some st →
    nextChunk st = some k → programActive s st.program = true → (dispatchOrder s).head? = some sid →
    groupsInUse s + groupsNeeded st ≤ 2048 →
    (st.store.isSome = true → ∃ t u v, exec (.chunkDispatch sid) s = .next t ∧ streamOf t sid = some u ∧ u.store = some (committed st) ∧
      u.working = some (committed st) ∧ u.last = st.last ∧
      (∃ c ∈ u.chunks, c.entry = k.entry ∧ c.dispatched = true ∧ c.inv = some s.compute.nextInv) ∧
      tget t.compute.invs s.compute.nextInv = some v ∧ v.stream = some sid ∧ v.program = st.program ∧ v.entry = k.entry ∧
      (∀ n, n ≠ sid → streamOf t n = streamOf s n) ∧ OnlyChanges [.tally, .compute, .streams] s t) ∧
    (st.store = none → (∀ r ∈ s.tally.waiting, r.origin ≠ .internal 0x12 sid) → ∃ t r, exec (.chunkDispatch sid) s = .next t ∧
      t.tally.waiting = s.tally.waiting ++ [r] ∧ r.origin = .internal 0x12 sid ∧ r.parent = some k.entry ∧ OnlyChanges [.tally] s t)) ∧
  (∀ (s : State) (i sid : Nat) (st : Stream) (k : Chunk), streamOf s sid = some st → nextChunk st = some k →
    groupsInUse s + groupsNeeded st ≤ 2048 →
    ∃ u, streamOf (adoptLoad s i sid) sid = some u ∧ u.store = some (committed st) ∧ u.working = some (committed st) ∧
      (∃ c ∈ u.chunks, c.entry = k.entry ∧ c.dispatched = true ∧ c.inv = some s.compute.nextInv) ∧
      OnlyChanges [.tally, .compute, .streams, .counters, .sticky] s (adoptLoad s i sid)) ∧
  (∀ (s : State) (inv sid : Nat) (v : Invocation) (st : Stream) (k : Chunk), stopped s = false → s.dev.state ≠ .paused →
    tget s.compute.invs inv = some v → allExited v = true → sliceOpen s inv = false → chunkOfInv s inv = some (sid, st, k) →
    streamOf s sid = some st →
    (∀ sq cid, st.remoteFed = false → Stands s sq cid k.carrier → ∃ t u, exec (.invocationEnd inv) s = .next t ∧
      Ends s t sq cid (mread v.window v.outAt v.outLen) .success v.exitOr k.seq (decide (v.outLen ≠ 0)) ∧
      streamOf t sid = some u ∧ u.ended = some (k.carrier, k.seq) ∧ u.working = st.working ∧ u.store = st.store ∧ u.last = st.last ∧
      (∀ c ∈ u.chunks, c.carrier ≠ k.carrier) ∧ Undisturbed [] s t) ∧
    (st.remoteFed = true → ∃ t u, exec (.invocationEnd inv) s = .next t ∧ streamOf t sid = some u ∧
      u.store = some (st.working.getD (committed st)) ∧ u.working = none ∧ u.last = k.seq ∧ u.doneBell = s.bell.ticks ∧
      entryAt t k.carrier = none ∧ Undisturbed [] s t)) ∧
  (∀ (s : State) (sid i seq : Nat) (st : Stream), streamOf s sid = some st → st.ended = some (i, seq) →
    ((∃ p ∈ s.host.posting, p.entry = i ∧ p.dma = false) → streamOf (commitEnded s) sid = some (st.commit seq s.bell.ticks)) ∧
    ((∀ p ∈ s.host.posting, p.entry = i → p.dma = true) → streamOf (commitEnded s) sid = some st) ∧
    OnlyChanges [.streams] s (commitEnded s)) ∧
  (∀ (s : State) (h : HostId) (i sid slba : Nat) (release save : Bool) (st : Stream), IoTurn s h i → h.reservedOk = true →
    (∀ p ∈ s.streams.table, ∀ k ∈ p.2.parks, k.entry ≠ i) → streamOf s sid = some st → h.nsid = st.nsid →
    let park := fun now => Park.mk i (if save then some slba else none) release now now 0
    (st.st = .parking → ∃ t, exec (.streamPark h sid release save slba) s = .next t ∧
      Completes s t h.sq h.cid [] .commandSequenceError 0 0 ∧ Undisturbed [] s t) ∧
    (st.st = .opened → ∃ t, exec (.streamPark h sid release save slba) s = .next t ∧
      streamOf t sid = some { st with st := .parking, parks := st.parks ++ [park false] } ∧ OnlyChanges [.tally, .streams] s t) ∧
    (st.st ≠ .parked → ∃ t, exec (.streamParkNow h sid release save slba) s = .next t ∧
      streamOf t sid = some { st with st := .parking, parks := st.parks ++ [park true] } ∧ OnlyChanges [.tally, .streams] s t)) ∧
  (∀ (s : State) (sid sq cid : Nat) (st : Stream) (k : Chunk), TallyOk s → streamOf s sid = some st → st.st = .parking →
    st.ended = none → (∃ p ∈ st.parks, p.due = true) → st.chunks = [k] → Stands s sq cid k.carrier →
    (∀ p ∈ st.parks, p.entry ≠ k.carrier) →
    (∃ p ∈ (parkNow s sid).host.posting, p.sq = sq ∧ p.cid = cid ∧ p.st = .streamParked) ∧
    (∀ u, streamOf (parkNow s sid) sid = some u → u.st = .parked ∧ u.chunks = [] ∧ u.working = none ∧ u.store = none ∧
      u.home = committed st ∧ ∀ p ∈ u.parks, p.due = false)) ∧
  (∀ (s : State) (sid sq cid : Nat) (st : Stream) (k : Park), stopped s = false → s.dev.state ≠ .paused →
    streamOf s sid = some st → st.st = .parking → st.chunks = [] → st.ended = none → st.parks = [k] → k.save = none → k.due = false →
    Stands s sq cid k.entry →
    ∃ t, exec (.streamEviction sid) s = .next t ∧ Completes s t sq cid [] .success st.last k.stopped ∧
      (k.release = true → streamOf t sid = none) ∧
      (k.release = false → ∃ u, streamOf t sid = some u ∧ u.st = .parked ∧ u.home = committed st ∧ u.store = none ∧ u.parks = []) ∧
      Undisturbed [.counters, .sticky] s t) ∧
  (∀ (s : State) (h : HostId) (i sid : Nat), IoTurn s h i → h.reservedOk = true →
    (∀ st, streamOf s sid = some st → st.st = .parked → st.parks = [] → h.nsid = st.nsid →
      ∃ t u, exec (.streamResumeHome h sid) s = .next t ∧ Completes s t h.sq h.cid [] .success (nextSeq st) 0 ∧
        streamOf t sid = some u ∧ u.st = .opened ∧ u.home = st.home ∧ u.last = st.last ∧ Undisturbed [] s t) ∧
    (∀ (b : Bytes) (old : Nat), resumeBusy s sid = false → (nsOf s h.nsid).isSome = true → sid ≤ 65535 → imageOk s b = true →
      old = ((streamOf s sid).map (fun st => 8192 * groupsFor st.channels)).getD 0 →
      homeBytes s - old + 8192 * groupsFor (fieldAt b 2 2) ≤ homeLimit →
      ∃ t, exec (.streamResumeInit h sid (imageLen (fieldAt b 2 2)) b) s = .next t ∧
        Completes s t h.sq h.cid [] .success ((fieldAt b 16 4 + 1) % 2 ^ 24) 0 ∧ streamOf t sid = some (streamFrom h.nsid b) ∧
        (∀ n, n ≠ sid → (streamOf t n).map (fun u => u.home) = (streamOf s n).map (fun u => u.home)) ∧ Undisturbed [] s t) ∧
    (∀ slba nlb ns, resumeBusy s sid = false → nsOf s h.nsid = some ns → sid ≤ 65535 → slba + nlb ≤ ns.nsze →
      ledgerDown s (iusOf ns (unitsOf ns slba nlb)) = false →
      ∃ t j, exec (.streamResumeLoad h sid slba nlb) s = .next t ∧ j ∈ t.flash.jobs ∧ j.entry = i ∧ j.use = .load sid ∧
        j.nsid = h.nsid ∧ j.units = unitsOf ns slba nlb ∧ OnlyChanges [.tally, .flash, .counters, .sticky] s t)) ∧
  (∀ (s : State) (sid sq cid : Nat) (j : ReadJob) (ns : Namespace) (old : Nat), Stands s sq cid j.entry → j.lost = [] →
    resumeBusy s sid = false → nsOf s j.nsid = some ns →
    4096 * j.units.length = lbaSize ns.lbaf * imageLbas (fieldAt j.bytes 2 2) (lbaSize ns.lbaf) → imageOk s j.bytes = true →
    old = ((streamOf s sid).map (fun st => 8192 * groupsFor st.channels)).getD 0 →
    homeBytes s - old + 8192 * groupsFor (fieldAt j.bytes 2 2) ≤ homeLimit →
    Completes s (loadDone s sid j) sq cid [] .success ((fieldAt j.bytes 16 4 + 1) % 2 ^ 24) 0 ∧
      streamOf (loadDone s sid j) sid = some (streamFrom j.nsid j.bytes) ∧ Undisturbed [] s (loadDone s sid j)) ∧
  (∀ (s : State) (inv bell tick : Nat) (v : Invocation), stopped s = false → s.ident.meshed = true →
    tget s.compute.invs inv = some v → v.exited = some (bell, tick) → tick < s.bell.ticks → sliceOpen s inv = true →
    sealSent s v.entry = false → (entryAt s v.entry).isSome = true →
    ∃ t, exec (.sliceSeal inv) s = .next t ∧ (∀ x ∈ handlesOf s inv, ∃ o ∈ t.fabric.originated, o.parent = v.entry ∧ o.purpose = 5 ∧
      o.type = 3 ∧ o.x.dst = odVal s 0x2920 x / 2 ^ 32 % 2 ^ 17 ∧ o.x.bell = bell ∧
      o.x.addr = odVal s 0x2920 x % 2 ^ 16 + 2 ^ 16 * x ∧
      ∃ r ∈ t.tally.waiting, r.origin = .fabric o.x.dst o.x.tag ∧ r.parent = some v.entry) ∧
      t.streams.handRows = s.streams.handRows ∧ OnlyChanges [.tally, .fabric] s t) ∧
  (∀ (s : State) (sid : Nat) (x : Slice), stopped s = false → s.dev.state ≠ .paused →
    (sortBy (fun (a b : Slice) => decide (a.sealOrder ≤ b.sealOrder))
      (s.streams.slices.filter (fun x => x.sid = sid && decide (x.due ≤ s.bell.count)))).head? = some x →
    ∀ st, streamOf s sid = some st →
      (st.st = .opened → ∃ t u k, exec (.sliceAdmit sid) s = .next t ∧ streamOf t sid = some u ∧ u.chunks = st.chunks ++ [k] ∧
        k.carrier = x.target ∧ k.buf = x.data ∧ k.seq = nextSeq st ∧ t.streams.slices = s.streams.slices.filter (fun y => y ≠ x) ∧
        OnlyChanges [.tally, .streams] s t) ∧
      (st.st ≠ .opened → ∃ t u, exec (.sliceAdmit sid) s = .next t ∧ streamOf t sid = some u ∧ u.st = st.st ∧ x ∉ t.streams.slices ∧
        sat 32 (st.failures + 1) ≤ u.failures ∧ entryAt t x.target = none))

/-- Mount and unmount, queries and their members, what a sifter runs, yield points, the ends of searches, and the order of results. (R253,
R254, R256, R257, R260, R262, R264, R265, R267, R271, R272, R273) -/
def Obligations.SiftersSearchAndMerge : Prop :=
  (∀ (s : State) (h : HostId) (i slot slba : Nat) (resident : Bool) (ns : Namespace), IoTurn s h i → h.reservedOk = true →
    nsOf s h.nsid = some ns → slot ≤ 15 → slba * lbaSize ns.lbaf + 4096 ≤ ns.nsze * lbaSize ns.lbaf →
    ((tget s.sifters.slots slot).isSome = true → ∃ t, exec (.siftMount h slot slba resident) s = .next t ∧
      Completes s t h.sq h.cid [] .commandSequenceError 0 0 ∧ Undisturbed [] s t) ∧
    (tget s.sifters.slots slot = none → ledgerDown s (iusOf ns (unitsAt ns slba [(0, 4096)])) = false →
      ∃ t j, exec (.siftMount h slot slba resident) s = .next t ∧ t.sifters.mounts = s.sifters.mounts ++ [⟨i, slot, slba, resident⟩] ∧
        j ∈ t.flash.jobs ∧ j.entry = i ∧ j.use = .mount slot ∧ j.nsid = h.nsid ∧ j.units = unitsAt ns slba [(0, 4096)] ∧
        t.sifters.slots = s.sifters.slots ∧ OnlyChanges [.tally, .flash, .sifters, .counters, .sticky] s t)) ∧
  (∀ (s : State) (m : MountReq) (j : ReadJob) (ns : Namespace) (sq cid : Nat), Stands s sq cid m.entry → nsOf s j.nsid = some ns →
    tget s.sifters.slots m.slot = none →
    let b := j.bytes.take 4096
    let pages := if ixFormat b = 1 then upperPages (fun a n => leNat (flashBytes s ns m.slba a n)) b else 0
    let regions := copyRegions b m.resident pages
    let charge := slotCharge b m.resident pages
    let full := odVal s 0x2802 0 < (s.sifters.slots.map (fun p => p.2.charged)).sum + charge ∨ slmSize < slmHeld s + charge
    ((headerKept b = false ∨ regionsOutside ns m.slba regions = true) → Completes s (headerRead s m j) sq cid [] .invalidField 0 0) ∧
    (headerKept b = true → regionsOutside ns m.slba regions = false → full →
      Completes s (headerRead s m j) sq cid [] .insufficientCapacity 0 0) ∧
    (headerKept b = true → regionsOutside ns m.slba regions = false → ¬full → ledgerDown s (iusOf ns (unitsAt ns m.slba regions)) = false →
      ∃ x, tget (headerRead s m j).sifters.slots m.slot = some x ∧ x.st = 1 ∧ x.entry = m.entry ∧ x.nsid = j.nsid ∧ x.slba = m.slba ∧
        x.header = b ∧ x.charged = charge ∧ (∀ n, n ≠ m.slot → tget (headerRead s m j).sifters.slots n = tget s.sifters.slots n))) ∧
  (∀ (s : State) (slot sq cid : Nat) (x : IndexSlot) (j : ReadJob), Stands s sq cid j.entry →
    ∃ y, tget (copyRead s slot x j).sifters.slots slot = some y ∧ y = { x with st := 2, copy := y.copy } ∧
      Completes s (copyRead s slot x j) sq cid [] .success (ceilDiv x.charged 1048576) 0) ∧
  (∀ (s : State) (h : HostId) (i slot : Nat) (x : IndexSlot), IoTurn s h i → h.reservedOk = true → slot ≤ 15 →
    tget s.sifters.slots slot = some x → x.st = 2 → h.nsid = x.nsid →
    ((∃ q ∈ s.sifters.searches, q.slot = slot) → ∃ t, exec (.siftUnmount h slot) s = .next t ∧
      Completes s t h.sq h.cid [] .commandSequenceError 0 0 ∧ Undisturbed [] s t) ∧
    ((∀ q ∈ s.sifters.searches, q.slot ≠ slot) → ∃ t, exec (.siftUnmount h slot) s = .next t ∧
      Completes s t h.sq h.cid [] .success 0 0 ∧ tget t.sifters.slots slot = none ∧ Undisturbed [] s t)) ∧
  (∀ (s : State) (h : HostId) (i : Nat) (f : SiftFields) (buf : Bytes) (x : IndexSlot), IoTurn s h i → h.reservedOk = true →
    searchOf s i = none → f.slot ≤ 15 → tget s.sifters.slots f.slot = some x → x.st = 2 →
    ((queryBad x false f.k f.contexts f.length buf = true ∨ deadlineBad s false h.deadline = true) →
      ∃ t, exec (.siftQuery h f buf) s = .next t ∧ Completes s t h.sq h.cid [] .invalidField 0 0 ∧ Undisturbed [] s t) ∧
    (queryBad x false f.k f.contexts f.length buf = false → deadlineBad s false h.deadline = false → h.nsid ≠ x.nsid →
      ∃ t, exec (.siftQuery h f buf) s = .next t ∧ Completes s t h.sq h.cid [] .commandSequenceError 0 0 ∧ Undisturbed [] s t) ∧
    (queryBad x false f.k f.contexts f.length buf = false → deadlineBad s false h.deadline = false → h.nsid = x.nsid →
      ∃ t q, exec (.siftQuery h f buf) s = .next t ∧ searchOf t i = some q ∧ q.slot = f.slot ∧ q.k = f.k ∧
        q.partialOk = f.partialOk ∧ q.guild = false ∧ q.remote = false ∧ q.buf = buf ∧ q.finalise = finaliseBell s i ∧ q.hits = [] ∧
        (∀ e, entryAt s i = some e → q.wanted = contextsFor s x e.cls f.contexts buf) ∧ q.contexts = [] ∧ q.started = false ∧
        q.finished = false ∧ t.sifters.slots = s.sifters.slots ∧ OnlyChanges [.tally, .sifters] s t) ∧
    (s.ident.meshed = false → ∃ t, exec (.guildSift h f buf) s = .next t ∧ Completes s t h.sq h.cid [] .invalidOpcode 0 0 ∧
      Undisturbed [] s t) ∧
    (s.ident.meshed = true → queryBad x true f.k f.contexts f.length buf = false → deadlineBad s true h.deadline = false →
      h.nsid = x.nsid → ∀ e, entryAt s i = some e →
      let members := ((List.range (qMembers buf)).map (qMember buf)).filter (fun m => m ≠ s.fabric.memberId)
      let rb := fun m => finaliseBell s i - pathBells s m
      let late := fun m => decide (rb m ≤ e.admitBell + pathBells s m)
      ∃ t q, exec (.guildSift h f buf) s = .next t ∧ searchOf t i = some q ∧ q.guild = true ∧ q.finalise = finaliseBell s i ∧
        q.asked = members.map (fun m => if late m then ⟨m, 6, false, 0, 0⟩ else ⟨m, 3, false, rb m, 0⟩) ∧
        (∀ m ∈ members, late m = false → ∃ o ∈ t.fabric.originated, o.parent = i ∧ o.type = 5 ∧ o.purpose = 3 ∧ o.x.dst = m ∧
          o.x.bell = rb m ∧ o.x.addr = f.slot ∧ o.data = leBytes 8 x.indexId ++ leBytes 2 f.k ++ buf.take f.length) ∧
        (q.finished = true ↔ ∀ n, n < qMembers buf → qMember buf n ≠ s.fabric.memberId) ∧
        OnlyChanges [.tally, .sifters, .fabric] s t)) ∧
  (∀ (s : State) (entry : Nat) (q : Search) (x : IndexSlot), searchOf s entry = some q → tget s.sifters.slots q.slot = some x →
    (q.started = true ∨ 2147483648 < workInUse s + q.work → startSearch s entry = s) ∧
    (q.started = false → workInUse s + q.work ≤ 2147483648 → ∃ l, (startSearch s entry).tally.waiting = s.tally.waiting ++ l ∧
      l.length = q.wanted ∧ ∀ r ∈ l, r.origin.kind = .search ∧ r.parent = some entry)) ∧
  (∀ (s : State) (sf : Nat) (c : Nat × Nat × Nat × Nat), nextOn s sf = some c → c ∈ readyOn s sf ∧
    ((∃ d ∈ readyOn s sf, d.2.2.2 = 0) → c.2.2.2 = 0) ∧
    (∀ d ∈ readyOn s sf, d.2.2.2 = c.2.2.2 ∨ c.2.2.2 ≠ 0 → tgetD s.sifters.ranLast sf 0 < d.1 →
      tgetD s.sifters.ranLast sf 0 < c.1 ∧ c.1 ≤ d.1)) ∧
  (∀ (s : State) (sf ctx : Nat) (q : Search) (c : Context) (x : IndexSlot), stopped s = false → s.dev.state ≠ .paused →
    runningContext s sf ctx = some (q, c, x) → searchOf s q.entry = some q →
    (∀ p ∈ s.sifters.searches, ∀ d ∈ p.contexts, q.entry ∉ family s d.entry) →
    let r := match c.task with
      | none => q
      | some k =>
        let d := taskDone s x (ownMember s) q k (taskData s x c k)
        hopStep s x { d with contexts := d.contexts.map (fun y => if y.entry = c.entry then { y with task := none } else y) }
    (workDone r = false → (∀ n, n < 4 → (unitOf s (1 + n)).state ≠ .reset) →
      ∃ t u, exec (.yieldPoint sf ctx) s = .next t ∧ searchOf t q.entry = some u ∧ u.found = r.found ∧ u.scored = r.scored ∧
        u.skipped = r.skipped ∧ u.hops = r.hops ∧ u.flags = r.flags ∧
        OnlyChanges (completionParts ++ [.units, .counters, .sticky, .power]) s t) ∧
    (workDone r = true → q.guild = false → ∀ sq cid, Stands s sq cid q.entry →
      ∃ t pad, exec (.yieldPoint sf ctx) s = .next t ∧ pad.length = padBytes (withShort r) ∧
        Ends s t sq cid (resultBlock (withShort r) pad) (searchStatus s (withShort r)).1 (searchStatus s (withShort r)).2
          (sat 32 r.scored) true ∧ Undisturbed [.units, .counters, .sticky, .power, .free] s t)) ∧
  (∀ (s : State) (q : Search), stopped s = false → searchOf s q.entry = some q → q.remote = false →
    (∀ p ∈ s.sifters.searches, ∀ c ∈ p.contexts, q.entry ∉ family s c.entry) → ∀ sq cid, Stands s sq cid q.entry →
    let ends := fun (c : Instr) (r : Search) => ∃ t pad, exec c s = .next t ∧ pad.length = padBytes (withShort r) ∧
      Ends s t sq cid (resultBlock (withShort r) pad) (searchStatus s (withShort r)).1 (searchStatus s (withShort r)).2
        (sat 32 q.scored) true ∧ Undisturbed [.counters, .sticky, .power, .free] s t
    (q.guild = false → q.finished = false → bellReached s q.finalise = true →
      ends (.searchFinalise q.entry) { q with flags := setBit q.flags 0 }) ∧
    (q.guild = true → q.finished = false → bellReached s q.finalise = true →
      let a := { q with flags := setBit (setBit q.flags 4) 0 }
      ends (.guildMerge q.entry) (if missingOf q = [] then a else { a with flags := setBit a.flags 3 })) ∧
    (q.guild = true → q.finished = true → allAnswered q = true →
      ends (.guildMerge q.entry) (if missingOf q = [] then q else { q with flags := setBit q.flags 3 }))) ∧
  (∀ (s : State) (q : Search), stopped s = false → searchOf s q.entry = some q → q.finished = false →
    (∀ p ∈ s.sifters.searches, ∀ c ∈ p.contexts, q.entry ∉ family s c.entry) →
    (q.remote = false → q.guild = true → bellReached s (q.finalise - 1) = true →
      ∃ t r, exec (.replyByFinalise q.entry) s = .next t ∧ searchOf t q.entry = some r ∧ r.finished = true ∧
        r.flags = setBit q.flags 4 ∧ r.hits = q.hits ∧ r.found = q.found ∧
        OnlyChanges (completionParts ++ [.counters, .sticky, .power]) s t) ∧
    (q.remote = true → bellReached s q.finalise = true → ∀ e p tag g, entryAt s q.entry = some e → e.origin = .fabric p tag →
      s.fabric.targets.find? (fun u => u.entry = some q.entry) = some g → targetOf s g.x.src g.x.srcEpoch g.x.tag = some g →
      let r := withShort { q with flags := setBit q.flags 0 }
      ∃ t pad, exec (.replyByFinalise q.entry) s = .next t ∧ pad.length = padBytes r ∧
        Replies s t g.x g.type [(0, 0, resultBlock r pad)] ∧ entryAt t q.entry = none)) ∧
  (∀ (k : Nat) (hits : List Hit) (h : Hit), hits.Pairwise (fun a b => hitLe a b = true) → hits.length ≤ k →
    (addHit hitLe k hits h).Pairwise (fun a b => hitLe a b = true) ∧ (addHit hitLe k hits h).length ≤ k ∧
    (∀ a ∈ hits ++ [h], a ∈ addHit hitLe k hits h ∨ ∀ b ∈ addHit hitLe k hits h, hitLe b a = true))

/-- Ports: flits good and bad, NAK, what takes a link down, rate and training, the lane of each flit slot, and the time transfer messages.
(R276, R277, R278, R279, R281, R282, R283, R287, R288, R299, R300, R408) -/
def Obligations.LinksTrainFallAndMeasure : Prop :=
  (∀ (s : State) (p : Nat), stopped s = false → portUp s p = true →
    let x := portOf s p
    PortFalls (.linkDown p) s p [] ∧ (64 ≤ x.alive → PortFalls (.aliveTimeout p) s p []) ∧
    (x.alive < 64 → exec (.aliveTimeout p) s = .next s) ∧
    (16 < x.badFlits → PortFalls (.portProtectionDown p) s p [.sticky]) ∧
    (x.badFlits ≤ 16 → exec (.portProtectionDown p) s = .next s) ∧
    ((2 ^ 52 ≤ x.session.txCount ∨ 2 ^ 52 ≤ x.session.rxCount) → ∃ t, exec (.nonceHardStop p) s = .next t ∧
      (portOf t p).st = (if portHeldDown s p then .down else .training) ∧ (portOf t p).session = { Session.reset with rekey := 3 } ∧
      OnlyPort s t p ∧ OnlyChanges [.fabric] s t) ∧
    (∃ t, exec (.controlAlive p) s = .next t ∧ portOf t p = { x with alive := 0 } ∧ OnlyPort s t p ∧ OnlyChanges [.fabric] s t) ∧
    (let late := fun m : TxMsg => m.x.detour && !m.started && decide (m.since + 1 < s.bell.ticks)
      ∃ t, exec (.detourDiscard p) s = .next t ∧ portOf t p = { x with tx := x.tx.filter (fun m => !late m) } ∧
        (s.ident.meshed = true → x.tx.filter late ≠ [] →
          counterVal t 0x6014 4 = wrap 64 (counterVal s 0x6014 4 + (x.tx.filter late).length)) ∧
        OnlyPort s t p ∧ OnlyChanges [.fabric, .counters, .sticky] s t) ∧
    (∀ f : Flit, (f.corrected = false ∨ f.tagOk = false) → ∃ t, exec (.flitReceived p f) s = .next t ∧
      (portOf t p).badFlits = x.badFlits + 1 ∧ (portOf t p).badRun = x.badRun + 1 ∧ (portOf t p).seqRx = x.seqRx ∧
      (portOf t p).session = { x.session with rxCount := x.session.rxCount + 1 } ∧ (portOf t p).discardMsg = true ∧
      t.out = s.out ++ (if portMode s p = 1 then [.nak p ((x.seqRx + 1) % 65536)] else []) ∧ OnlyPort s t p ∧
      OnlyChanges [.fabric, .counters, .sticky, .out] s t) ∧
    (∀ f : Flit, f.corrected = true → f.tagOk = true → f.reservedOk = true → f.vl ≤ 5 → f.cvl ≤ 5 → (f.kind = 1 ∨ f.kind = 2) →
      let near := decide (portMode s p = 1)
      (x.discardMsg = false ∨ (near = true ∧ f.seq = (x.seqRx + 1) % 65536)) → ∃ t, exec (.flitReceived p f) s = .next t ∧
        portOf t p = { x with
          session := { x.session with rxCount := x.session.rxCount + 1 }, badRun := 0
          ackRx := if near then f.ack else x.ackRx, seqRx := if near then f.seq else x.seqRx
          creditsTx := returnCredits near x.creditsTx f.cvl f.credits, discardMsg := false
          buffered := if f.last then x.buffered.set f.vl 0 else addLane x.buffered f.vl 1
          creditsDue := if f.last then addLane x.creditsDue f.vl (x.buffered.getD f.vl 0 + 1) else x.creditsDue } ∧
        OnlyPort s t p ∧ OnlyChanges [.fabric] s t) ∧
    (∀ seq, portMode s p = 1 → ∃ t, exec (.nak p seq) s = .next t ∧ portOf t p = { x with session := { x.session with
      txCount := x.session.txCount + ((x.seqTx + 65536 - seq % 65536) % 65536 + 1) } } ∧ OnlyPort s t p ∧
      OnlyChanges [.fabric, .counters, .sticky] s t) ∧
    (∀ ber r, proposedRate s p ber = some r →
      (ratePin s p = 0 → (r = x.rate + 1 ∨ r + 1 = x.rate) ∧ ∃ t, exec (.rateAdapt p ber) s = .next t ∧ (portOf t p).rate = r ∧
        (portOf t p).st = (if portHeldDown s p then .down else .training) ∧ OnlyPort s t p ∧ OnlyChanges [.fabric] s t) ∧
      (ratePin s p ≠ 0 → x.pinArmed = true → ∃ t, exec (.rateAdapt p ber) s = .next t ∧ portUp t p = true ∧ (portOf t p).rate = x.rate ∧
        (portOf t p).pinArmed = false ∧ Recorded s t { Record.of 0x0C01 with
          winner := s.fabric.pinWriter, loser := 7, unit := some (233 + p), a := ratePin s p - 1 + 256 * r } ∧
        OnlyPort s t p ∧ OnlyChanges [.fabric, .sticky] s t)) ∧
    (∀ ber, proposedRate s p ber = none → ∃ t, exec (.rateAdapt p ber) s = .next t ∧ portUp t p = true ∧ (portOf t p).rate = x.rate ∧
      OnlyPort s t p ∧ OnlyChanges [.fabric] s t)) ∧
  (∀ (s : State) (p : Nat), stopped s = false → (portOf s p).st = .training →
    (∃ t y e r, exec (.portTrained p true) s = .next t ∧ (portOf t p).st = .securing ∧ (portOf t p).rate = trainRate s p ∧
      (portOf t p).fails = 0 ∧ (portOf t p).session.helloSent = true ∧ (portOf t p).session.ownEphemeral = e ∧
      (portOf t p).session.ownRandom = r ∧ t.out = s.out ++ [.fabric p y 8 0 [0, odVal s 0x2C22 0, e, r]] ∧ OnlyPort s t p ∧
      OnlyChanges [.fabric, .keys, .free, .out] s t) ∧
    (∃ t, exec (.portTrained p false) s = .next t ∧ (portOf t p).fails = (portOf s p).fails + 1 ∧
      (portOf t p).st = (if ratePin s p ≠ 0 ∧ 3 ≤ (portOf s p).fails + 1 then .failed else .training) ∧ OnlyPort s t p ∧
      OnlyChanges [.fabric] s t)) ∧
  (∀ (x : Port) (v : Nat), x.nextLane = some v → x.canSend v = true ∧
    (x.canSend 0 = true → v = 0 ∨ (v = 4 ∧ 15 ≤ x.gaps.2) ∨ (v = 5 ∧ 15 ≤ x.gaps.1)) ∧
    (∀ m, x.head v = some m → m.started = false → m.need ≤ x.credit v)) ∧
  (∀ (s : State) (p n : Nat), slotsPerChime s p = n → ((portOf s p).st = .up ∨ (portOf s p).st = .checking) →
    (portOf (portSlots s p) p).session.txCount = (portOf s p).session.txCount + n ∧
    (portOf (portSlots s p) p).creditsDue = [0, 0, 0, 0, 0, 0] ∧ OnlyPort s (portSlots s p) p) ∧
  (∀ s : State, stopped s = false → s.bell.count % 16 = 0 → ∃ t, exec .timeTransferInterval s = .next t ∧
    (∀ p ∈ upPorts s, ∃ (m : TxMsg) (v : Nat), portOf t p = { portOf s p with tx := (portOf s p).tx ++ [m] } ∧ m.type = 7 ∧
      m.x.addr = 0 ∧ m.data = [v]) ∧
    (∀ p, p ∉ upPorts s → portOf t p = portOf s p) ∧ OnlyChanges [.fabric, .free] s t) ∧
  (∀ (s : State) (x : Txn) (p : Nat) (a b : Int), stopped s = false → portUp s p = true →
    (∃ t m v, exec (.syncOp x p a b) s = .next t ∧ portOf t p = { portOf s p with syncT := some (a, b), tx := (portOf s p).tx ++ [m] } ∧
      m.type = 7 ∧ m.x.addr = 1 ∧ m.data = [v] ∧ OnlyPort s t p ∧ OnlyChanges [.fabric, .free] s t) ∧
    (∃ t m, exec (.delayReq x p a b) s = .next t ∧ portOf t p = { portOf s p with tx := (portOf s p).tx ++ [m] } ∧ m.type = 7 ∧
      m.x.addr = 2 ∧ m.data = [ofInt 64 a, ofInt 64 b] ∧ OnlyPort s t p ∧ OnlyChanges [.fabric] s t) ∧
    (∀ t1 t2, (portOf s p).syncT = some (t1, t2) →
      let ns := (((t2 - t1) + (b - a)) / 2 / 1000).toNat
      let news := ((portOf s p).oneWay + 1000 < ns ∨ ns + 1000 < (portOf s p).oneWay) ∧ s.fabric.member ≠ .solo
      ∃ t, exec (.delayResp x p a b) s = .next t ∧ (portOf t p).oneWay = ns ∧
      (portOf t p).offset = ((t2 - t1) - (b - a)) / 2 - asymmetry s p / 2 ∧ (portOf t p).syncT = none ∧
      (news → Flooded s t none .delays [s.fabric.memberId, p, ns]) ∧
      (∀ q, q ≠ p → { portOf t q with tx := (portOf s q).tx } = portOf s q) ∧
      (¬news → ∀ q, (portOf t q).tx = (portOf s q).tx) ∧
      (upstreamPort s = some p → t.bell.guild.qualified = true) ∧ (upstreamPort s ≠ some p → t.bell = s.bell) ∧
      OnlyChanges [.bell, .fabric, .free] s t))

/-- HELLO, PROOF, identity, and the rekey of a port: what each needs, what it sends, and when the keys change. (R289, R404, R405,
R406, R407) -/
def Obligations.SessionsAreAgreedAndRekeyed : Prop :=
  (∀ (s : State) (p : Nat), stopped s = false → (portOf s p).st = .securing →
    let x := (portOf s p).session
    (∀ cert ephemeral random, x.helloSeen = false →
      (peerCertOk s cert = true → ∃ t y sig, exec (.sessionHello p cert ephemeral random) s = .next t ∧ (portOf t p).st = .securing ∧
        (portOf t p).session = { x with helloSeen := true, peerCert := cert, peerEphemeral := ephemeral, peerRandom := random } ∧
        t.out = s.out ++ [.fabric p y 8 0 [1, sig]] ∧ OnlyPort s t p ∧ OnlyChanges [.fabric, .free, .out] s t) ∧
      (peerCertOk s cert = false → ∃ t, exec (.sessionHello p cert ephemeral random) s = .next t ∧ (portOf t p).st = .failed ∧
        OnlyPort s t p ∧ OnlyChanges [.fabric] s t)) ∧
    (∀ sig, x.helloSeen = true →
      (Config.ecdsaVerifies (certKey x.peerCert) (proofDigest s p) sig = true →
        let gen := wrap 32 (tgetD s.keys.sessionGen p 0 + 1)
        ∃ t m, exec (.sessionProof p sig) s = .next t ∧ (portOf t p).st = .checking ∧ tget t.keys.sessionGen p = some gen ∧
        (portOf t p).session.keyTx = gen ∧ (portOf t p).session.keyRx = gen ∧ (portOf t p).session.txCount = 0 ∧
        (portOf t p).session.rxCount = 0 ∧ (portOf t p).session.rekey = 0 ∧
        (portOf t p).tx = [m] ∧ m.type = 8 ∧ m.x.addr = Control.identity.code ∧
        m.data = [s.fabric.guildId, s.fabric.memberId, s.fabric.epoch, s.fabric.digest] ∧ t.out = s.out ∧
        (portOf t p).creditsDue = receiveBuffer (portMode s p) ∧ (∀ v, (portOf t p).creditsTx.getD v 0 = 0) ∧
        (∀ q, q ≠ p → tget t.keys.sessionGen q = tget s.keys.sessionGen q) ∧ OnlyPort s t p ∧ OnlyChanges [.fabric, .keys] s t) ∧
      (Config.ecdsaVerifies (certKey x.peerCert) (proofDigest s p) sig = false → ∃ t, exec (.sessionProof p sig) s = .next t ∧
        (portOf t p).st = .failed ∧ t.keys = s.keys ∧ OnlyPort s t p ∧ OnlyChanges [.fabric] s t)) ∧
    (x.since + 250 ≤ s.bell.ticks → ∃ t, exec (.securingTimeout p) s = .next t ∧ (portOf t p).st = .failed ∧ OnlyPort s t p ∧
      OnlyChanges [.fabric] s t) ∧
    (s.bell.ticks < x.since + 250 → exec (.securingTimeout p) s = .next s)) ∧
  (∀ (s : State) (p guild member epoch digest : Nat), stopped s = false → (portOf s p).st = .checking →
    let sound := guild = s.fabric.guildId ∧ digest = s.fabric.digest ∧ member = neighbourOf s s.fabric.memberId p
    (sound → ∃ t, exec (.controlIdentity p guild member epoch digest) s = .next t ∧ portUp t p = true ∧
      (portOf t p).neighbour = member ∧ (s.fabric.member ≠ .active → (portOf t p).tx = (portOf s p).tx) ∧
      (s.fabric.member = .active → ∃ a b, (portOf t p).tx = (portOf s p).tx ++ a ++ b ∧ a ≠ [] ∧ b ≠ [] ∧
        (∀ m ∈ a, m.type = 8 ∧ m.x.addr = Control.table.code) ∧ (∀ m ∈ b, m.type = 8 ∧ m.x.addr = Control.delays.code) ∧
        (∀ m, a.getLast? = some m → 2 ^ 31 ≤ m.x.group) ∧ ∀ m, b.getLast? = some m → 2 ^ 31 ≤ m.x.group) ∧
      OnlyPort s t p ∧ OnlyChanges [.fabric] s t) ∧
    (¬sound → ∃ t, exec (.controlIdentity p guild member epoch digest) s = .next t ∧ (portOf t p).st = .miswired ∧
      Recorded s t { Record.of 0x0C03 with unit := some (233 + p), b := member } ∧ OnlyPort s t p ∧ OnlyChanges [.fabric, .sticky] s t)) ∧
  (∀ (s : State) (p : Nat), stopped s = false → portUp s p = true →
    let x := (portOf s p).session
    let asks := fun c : Instr => ∃ t m e r sig, exec c s = .next t ∧ (portOf t p).session = { x with
        rekey := 1, rekeySince := s.bell.ticks, rekeyTries := x.rekeyTries + 1, switchTx := some (x.txCount + 2 ^ 24), ownEphemeral := e,
        ownRandom := r } ∧ (portOf t p).tx = (portOf s p).tx ++ [m] ∧ m.type = 8 ∧ m.x.addr = Control.session.code ∧
        m.data = [2, e, r, x.txCount + 2 ^ 24, sig] ∧ OnlyPort s t p ∧ OnlyChanges [.fabric, .keys, .free] s t
    (x.rekey = 0 → 2 ^ odVal s 0x2C24 0 ≤ x.txCount → asks (.rekeyThreshold p)) ∧
    (x.rekey = 1 → x.rekeySince + 25000 ≤ s.bell.ticks → asks (.rekeyRetry p)) ∧
    (∀ ephemeral random slot sig, Config.ecdsaVerifies (certKey x.peerCert) (rekeyDigest ephemeral random slot x.keyRx x.keyTx) sig = true →
      (x.rekey ≠ 2 → ¬(x.rekey = 1 ∧ helloFirst s p = true) →
        ∃ t m e r z, exec (.rekeyReq p ephemeral random slot sig) s = .next t ∧ (portOf t p).session.rekey = 2 ∧
          (portOf t p).session.switchRx = some slot ∧ (portOf t p).session.switchTx = some (x.txCount + 2 ^ 24) ∧
          (portOf t p).session.keyTx = x.keyTx ∧ (portOf t p).session.keyRx = x.keyRx ∧
          (portOf t p).tx = (portOf s p).tx ++ [m] ∧ m.type = 8 ∧ m.x.addr = Control.session.code ∧
          m.data = [3, e, r, x.txCount + 2 ^ 24, z] ∧ OnlyPort s t p ∧ OnlyChanges [.fabric, .keys, .free] s t) ∧
      (∀ n, x.rekey = 1 → x.switchTx = some n →
        (x.txCount ≤ n → ∃ t, exec (.rekeyRsp p ephemeral random slot sig) s = .next t ∧ (portOf t p).session = { x with
          rekey := 2, switchRx := some slot, peerEphemeral := ephemeral, peerRandom := random } ∧ OnlyPort s t p ∧
          OnlyChanges [.fabric] s t) ∧
        (n < x.txCount → exec (.rekeyRsp p ephemeral random slot sig) s = .next s))) ∧
    (∀ n, x.rekey = 2 → x.switchTx = some n → n ≤ x.txCount → ∃ t, exec (.rekeySwitch p true) s = .next t ∧
      (portOf t p).session.txCount = 0 ∧ (portOf t p).session.switchTx = none ∧ (portOf t p).session.keyRx = x.keyRx ∧
      (portOf t p).session.rxCount = x.rxCount ∧ (portOf t p).session.keyTx = tgetD t.keys.sessionGen p 0 ∧
      (portOf t p).session.rekey = (if x.switchRx = none then 0 else 2) ∧
      tgetD t.keys.sessionGen p 0 = (if x.switchRx = none then tgetD s.keys.sessionGen p 0 else wrap 32 (tgetD s.keys.sessionGen p 0 + 1)) ∧
      OnlyPort s t p ∧ OnlyChanges [.fabric, .keys] s t) ∧
    (∀ n, x.rekey = 2 → x.switchRx = some n → n ≤ x.rxCount → ∃ t, exec (.rekeySwitch p false) s = .next t ∧
      (portOf t p).session.rxCount = 0 ∧ (portOf t p).session.switchRx = none ∧ (portOf t p).session.keyTx = x.keyTx ∧
      (portOf t p).session.txCount = x.txCount ∧ (portOf t p).session.keyRx = tgetD t.keys.sessionGen p 0 ∧ OnlyPort s t p ∧
      OnlyChanges [.fabric, .keys] s t))

/-- GET, PUT, SEAL, SEND, SIFT, STREAM and PROBE as they arrive and as they are served; refusals; a repeat is answered, never served again.
(R20, R23, R272, R284, R287, R290, R293, R294, R296, R297, R304, R306) -/
def Obligations.RequestsAreServedOnce : Prop :=
  (∀ (s : State) (x : Txn) (data : Bytes) (m n k index : Nat), TxnHere s x →
    ∀ p ∈ [(Instr.getOp x, 1, [], 0), (.putOp x data, 2, data, 0), (.sealOp x m n, 3, leBytes 4 m ++ leBytes 8 n, 0), (.sendOp x data, 4, data, 0),
        (.siftOp x k index data, 5, leBytes 8 index ++ data, k), (.streamOp x data, 6, data, 0)],
      let refused := fun (t : State) (st bell : Nat) => exec p.1 s = .next t ∧ Replies s t x p.2.1 [(st, bell, [])] ∧
        OnlyChanges [.fabric, .counters, .sticky] s t
      ((s.fabric.member = .active ∨ s.fabric.member = .paused) → x.dstEpoch ≠ s.fabric.epoch → ∃ t, refused t 4 0) ∧
      (x.dstEpoch = s.fabric.epoch → targetOf s x.src x.srcEpoch x.tag = none →
        (s.fabric.member = .paused → ∃ t, refused t 2 (resumeBellNow s)) ∧
        (s.fabric.member = .active → ∃ t r g, exec p.1 s = .next t ∧
          t.fabric.arrived = s.fabric.arrived ++ [⟨x, p.2.1, p.2.2.1, p.2.2.2⟩] ∧ t.tally.waiting = s.tally.waiting ++ [r] ∧
          r.origin = .fabric x.src x.tag ∧ r.cls = x.cls ∧ r.parent = none ∧ t.fabric.targets = s.fabric.targets ++ [g] ∧
          g.src = x.src ∧ g.epoch = x.srcEpoch ∧ g.tag = x.tag ∧ g.x = x ∧ g.type = p.2.1 ∧ g.replied = false ∧
          t.fabric.ports = s.fabric.ports ∧ OnlyChanges [.tally, .fabric] s t)) ∧
      ((s.fabric.member = .active ∨ s.fabric.member = .paused) → x.dstEpoch = s.fabric.epoch →
        ∀ g, targetOf s x.src x.srcEpoch x.tag = some g → g.replied = true → ∃ t, exec p.1 s = .next t ∧
          Replies s t g.x g.type [(g.status, 0, g.data)] ∧ t.fabric.arrived = s.fabric.arrived ∧
          t.fabric.staging = s.fabric.staging ∧ OnlyChanges [.fabric, .counters, .sticky] s t)) ∧
  (∀ (s : State) (x : Txn) (data : Bytes), stopped s = false → portUp s x.port = true → x.guildId = s.fabric.guildId →
    s.power.inForce ≠ 1 → x.dst ≠ s.fabric.memberId → ∀ p ∈ [(Instr.getOp x, 1, []), (.putOp x data, 2, data), (.sendOp x data, 4, data)],
      (255 ≤ x.hops + 1 → exec p.1 s = .next (count s 0x6014 4 1)) ∧
      (∀ q d, x.hops + 1 < 255 → choosePort s x.dst (some (x.port, x.detour)) = some (q, d) → ∃ t m, exec p.1 s = .next t ∧
        portOf t q = { portOf s q with tx := (portOf s q).tx ++ [m] } ∧ m.type = p.2.1 ∧ m.data = p.2.2 ∧
        m.x = { x with hops := x.hops + 1, port := q, detour := x.detour || d } ∧ OnlyPort s t q ∧ OnlyChanges [.fabric] s t)) ∧
  (∀ (s : State) (x : Txn), TxnHere s x → s.fabric.member ≠ .solo → s.fabric.member ≠ .joining → ∃ t, exec (.controlProbe x) s = .next t ∧
    Replies s t x 8 [(if x.dstEpoch = s.fabric.epoch then 0 else 4, 0, [])] ∧ OnlyChanges [.fabric, .counters, .sticky] s t) ∧
  (∀ (s : State) (a : Arrived), s.fabric.arrived.find? (fun b => b.x.src = a.x.src && b.x.tag = a.x.tag) = some a →
    let t := dropArrived s a.x.src a.x.tag
    Replies s t a.x a.type [(3, 0, [])] ∧ targetOf t a.x.src a.x.srcEpoch a.x.tag = none ∧ t.fabric.arrived = s.fabric.arrived.erase a ∧
      OnlyChanges [.fabric, .counters, .sticky] s t) ∧
  (∀ (s : State) (a : Arrived) (i : Nat), TxnTurn s a i →
    let x := a.x
    let w := (windowOf x.addr).1
    let off := (windowOf x.addr).2
    let t := served s a i
    (a.type = 1 →
      (∀ st, windowRefusal s x.addr x.length false = some st → Serves s a i [(st, [])] []) ∧
      (windowRefusal s x.addr x.length false = none → windowField s w 1 ≠ 2 →
        Serves s a i [(0, mread s.compute.slm (windowField s w 4 + off) x.length)] []) ∧
      (∀ ns, windowRefusal s x.addr x.length false = none → windowField s w 1 = 2 → nsOf s (windowField s w 3) = some ns →
        let l := windowLbas s w off x.length
        rangeError s (windowField s w 3) l.1 l.2 = none → ledgerDown s (iusOf ns (unitsOf ns l.1 l.2)) = false →
        Replies s t x 1 [(1, 0, [])] ∧ ∃ j ∈ t.flash.jobs, j.entry = i ∧ j.use = .get ∧ j.units = unitsOf ns l.1 l.2)) ∧
    (a.type = 2 → (∀ g ∈ s.fabric.staging, sameGroup g x = true → g.stream = none) →
      (∀ st, windowRefusal s x.addr a.data.length true = some st → Serves s a i [(st, [])] [] ∧ t.fabric.staging = s.fabric.staging) ∧
      (windowRefusal s x.addr a.data.length true = none → Serves s a i [(0, [])] [] ∧
        (∃ g ∈ t.fabric.staging, sameGroup g x = true ∧ g.msgs.getLast? = some (x.addr, a.data)) ∧
        (∀ g ∈ s.fabric.staging, sameGroup g x = false → g ∈ t.fabric.staging))) ∧
    (∀ m n g, a.type = 3 → m < 2 ^ 32 → n < 2 ^ 64 → a.data = leBytes 4 m ++ leBytes 8 n → groupOfSeal s x = some g →
      ((g.msgs.length ≠ m ∨ (g.msgs.map (fun q => q.2.length)).sum ≠ n) → Serves s a i [(6, [])] [] ∧
        ∀ h ∈ t.fabric.staging, sameGroup h x = false) ∧
      (g.msgs.length = m → (g.msgs.map (fun q => q.2.length)).sum = n → g.stream = none → groupWrites s g = [] →
        Replies s t x 3 [(1, 0, []), (0, 0, [])] ∧ t.compute.slm = (g.msgs.foldl commitSlm s).compute.slm ∧
          (∀ h ∈ t.fabric.staging, sameGroup h x = false) ∧ t.ledger.map = s.ledger.map ∧ t.flash.pages = s.flash.pages ∧
          OnlyChanges ([.counters, .sticky] ++ completionParts) s t)) ∧
    (a.type = 4 → windowField s w 1 = 3 → bit (windowField s w 2) 1 = true → a.data.length ≤ 4032 →
      windowField s w 4 + windowField s w 5 ≤ slmSize →
      let r := ringFields s w
      r.2.2 ≠ 0 →
      (ringFull r.1 r.2.1 r.2.2 = true → Serves s a i [(11, [])] []) ∧
      (ringFull r.1 r.2.1 r.2.2 = false → Replies s t x 4 [(1, 0, []), (0, 0, [])] ∧
        t.compute.slm = mwrite (mwrite s.compute.slm (windowField s w 4 + 4096 * (r.2.1 % r.2.2 + 1))
          (leBytes 4 x.src ++ leBytes 4 a.data.length ++ leBytes 8 s.bell.count ++ List.replicate 48 0 ++ a.data))
          (windowField s w 4 + 8) (leBytes 8 (r.2.1 + 1)) ∧
        t.ledger.map = s.ledger.map ∧ t.flash.pages = s.flash.pages ∧ OnlyChanges ([.counters, .sticky] ++ completionParts) s t)) ∧
    (a.type = 6 →
      (sliceWelcome s x = false → Serves s a i [(9, [])] []) ∧
      (sliceWelcome s x = true → a.data.length ≤ 65536 → (∀ g ∈ s.fabric.staging, sameGroup g x = true → g.stream ≠ none) →
        Serves s a i [] [] ∧ ∃ g ∈ t.fabric.staging, sameGroup g x = true ∧ g.msgs.getLast? = some (x.addr, a.data))) ∧
    (∀ index block, a.type = 5 → index < 2 ^ 64 → a.data = leBytes 8 index ++ block →
      ((∀ q, mounted s x.addr = some q → q.indexId ≠ index) → Serves s a i [(8, [])] []) ∧
      (∀ q, mounted s x.addr = some q → q.indexId = index → queryBad q true a.k 0 block.length block = true → Serves s a i [(6, [])] []) ∧
      (∀ q, mounted s x.addr = some q → q.indexId = index → queryBad q true a.k 0 block.length block = false → Serves s a i [] [] ∧
        ∃ r ∈ t.sifters.searches, r.entry = i ∧ r.remote = true ∧ r.k = a.k ∧ r.slot = x.addr ∧ r.finalise = x.bell ∧ r.buf = block))) ∧
  (∀ (s : State) (j : ReadJob) (g : TargetTxn), s.fabric.targets.find? (fun g => g.entry = some j.entry) = some g →
    targetOf s g.x.src g.x.srcEpoch g.x.tag = some g →
    Replies s (getDone s j) g.x g.type [if j.lost = [] then (0, 0, j.bytes) else (7, 0, [])] ∧ entryAt (getDone s j) j.entry = none) ∧
  (∀ (s : State) (source epoch tag : Nat) (g : TargetTxn), stopped s = false → targetOf s source epoch tag = some g → g.entry = none →
    g.replied = true →
    (g.expiry + 4 * retryBells s source ≤ s.bell.ticks → exec (.repeatRecordExpiry source epoch tag) s =
      .next { s with fabric := { s.fabric with targets := s.fabric.targets.filter (fun u => u ≠ g) } }) ∧
    (s.bell.ticks < g.expiry + 4 * retryBells s source → exec (.repeatRecordExpiry source epoch tag) s = .next s)) ∧
  (∀ (s : State) (source epoch group : Nat) (g : StageGroup), stopped s = false →
    s.fabric.staging.find? (fun g => g.src = source && g.epoch = epoch && g.group = group) = some g →
    (g.since + odVal s 0x2902 8 ≤ s.bell.ticks → ∃ t, exec (.stagingTimeout source epoch group) s = .next t ∧
      t.fabric.staging = s.fabric.staging.filter (fun g => !(g.src = source && g.epoch = epoch && g.group = group)) ∧
      t.compute = s.compute ∧ OnlyChanges [.fabric, .counters, .sticky] s t) ∧
    (s.bell.ticks < g.since + odVal s 0x2902 8 → exec (.stagingTimeout source epoch group) s = .next s))

/-- Requests of this member: how they go out, their replies, retries and holds; Memory Read, Write and Copy; Guild Ping. (R31, R284, R291,
R292, R303, R305, R310, R443, Table 12.7) -/
def Obligations.OriginatedRequestsEnd : Prop :=
  (∀ (s : State) (o : OrigTxn), origOf s o.x.tag = some o →
    (((peerOf s o.x.dst).st = .active ∨ ((peerOf s o.x.dst).st = .paused ∧ o.purpose = 6)) →
      Sends s (launch s o) o.x.dst [(o.x, o.type, 0, o.data)] ∧
      ∃ q, origOf (launch s o) o.x.tag = some q ∧ q = { o with sentBell := s.bell.ticks }) ∧
    (((peerOf s o.x.dst).st = .absent ∨ (peerOf s o.x.dst).st = .lost) → o.purpose ≠ 3 → TallyOk s → ∀ sq cid, Stands s sq cid o.parent →
      (o.entry = noEntry ∨ o.parent ∉ family s o.entry) → Completes s (launch s o) sq cid [] .memberLost 0 0)) ∧
  (∀ (s : State) (x : Txn) (kind : Nat) (data : Bytes) (o : OrigTxn), TxnHere s x → origOf s x.tag = some o → o.x.dst = x.src →
    (∀ status, (peerOf s x.src).epoch ≠ x.srcEpoch → ∃ t, exec (.transactionReply x ⟨kind, status⟩ data) s = .next t ∧
      t.fabric.originated = s.fabric.originated ∧
      (s.ident.meshed = true → counterVal t (0x6100 + porterOf x.port) 2 = wrap 64 (counterVal s (0x6100 + porterOf x.port) 2 + 1)) ∧
      OnlyChanges [.fabric, .counters, .sticky] s t) ∧
    ((peerOf s x.src).epoch = x.srcEpoch →
      (o.purpose ≠ 1 → o.purpose ≠ 4 → ∃ t q, exec (.transactionReply x ⟨kind, 1⟩ data) s = .next t ∧ origOf t x.tag = some q ∧
        q = { o with accepted := true, full := 0 } ∧ t.fabric.ports = s.fabric.ports ∧ OnlyChanges [.fabric] s t) ∧
      (o.purpose ≠ 3 → (∀ e, entryAt s (rootOf s 4 o.parent) = some e → e.deadline = 0) → x.bell - s.bell.count ≤ odVal s 0x2902 7 →
        ∃ t q, exec (.transactionReply x ⟨kind, 2⟩ data) s = .next t ∧ origOf t x.tag = some q ∧ q = { o with heldUntil := some x.bell } ∧
          t.fabric.ports = s.fabric.ports ∧ OnlyChanges [.fabric, .tally] s t) ∧
      (o.full < odVal s 0x2046 0 → ∃ t q, exec (.transactionReply x ⟨kind, 3⟩ data) s = .next t ∧ origOf t x.tag = some q ∧
        q = { o with full := o.full + 1, heldUntil := some (s.bell.count + 1) } ∧ t.fabric.ports = s.fabric.ports ∧
        OnlyChanges [.fabric] s t) ∧
      (TallyOk s → ∀ sq cid, Stands s sq cid o.parent → (o.entry = noEntry ∨ o.parent ∉ family s o.entry) →
        (o.purpose ≠ 3 → ∀ p ∈ [(4, Status.memberLost), (5, .invalidField), (6, .invalidField), (7, .unrecoveredRead), (8, .invalidField),
            (9, .streamParked), (10, .unitReset), (11, .dataTransferError)],
          ∃ t, exec (.transactionReply x ⟨kind, p.1⟩ data) s = .next t ∧ Completes s t sq cid [] p.2 0 0 ∧ origOf t x.tag = none ∧
            Undisturbed [] s t) ∧
        (o.purpose = 6 → ∃ t ns, exec (.transactionReply x ⟨kind, 0⟩ data) s = .next t ∧
          Completes s t sq cid [] .success ns (hopsBetween s s.fabric.memberId x.src) ∧ ns < 2 ^ 32 ∧ origOf t x.tag = none ∧
          Undisturbed [.free] s t)))) ∧
  (∀ (s : State) (tag : Nat) (o : OrigTxn), stopped s = false → origOf s tag = some o →
    (o.accepted = false → o.heldUntil = none → o.entry ≠ noEntry → o.sentBell + retryBells s o.x.dst ≤ s.bell.ticks →
      (o.tries + 1 < odVal s 0x2902 2 → ∃ t q, exec (.e2eRetryTimeout tag) s = .next t ∧ origOf t tag = some q ∧
        q.x = { o.x with tryNo := o.x.tryNo + 1 } ∧ q.tries = o.tries + 1 ∧ q.sentBell = s.bell.ticks ∧
        Sends s t o.x.dst [({ o.x with tryNo := o.x.tryNo + 1 }, o.type, 0, o.data)] ∧
        OnlyChanges [.fabric, .tally, .counters, .sticky] s t) ∧
      (TallyOk s → ∀ sq cid, odVal s 0x2902 2 ≤ o.tries + 1 → o.purpose ≠ 3 → Stands s sq cid o.parent →
        o.parent ∉ family s o.entry → ∃ t, exec (.e2eRetryTimeout tag) s = .next t ∧
          Completes s t sq cid [] .memberLost 0 0 ∧ Undisturbed [.counters, .sticky] s t)) ∧
    (∀ r, o.heldUntil = some r → s.dev.state ≠ .paused →
      (s.bell.count < r → exec (.heldResend tag) s = .next s) ∧
      (r ≤ s.bell.count → ((peerOf s o.x.dst).st = .active ∨ (peerOf s o.x.dst).st = .paused) →
        ∃ t q, exec (.heldResend tag) s = .next t ∧ origOf t tag = some q ∧ q.x = o.x ∧ q.heldUntil = none ∧ q.tries = o.tries ∧
          q.sentBell = s.bell.ticks ∧ Sends s t o.x.dst [(o.x, o.type, 0, o.data)] ∧
          OnlyChanges [.fabric, .tally, .counters, .sticky] s t))) ∧
  (∀ (s : State) (h : HostId) (i : Nat), IoTurn s h i →
    let refused := fun c : Instr => ∃ t, exec c s = .next t ∧ Completes s t h.sq h.cid [] .invalidField 0 0 ∧ Undisturbed [] s t
    (∀ addr len, isAperture addr = false →
      (slmSize < addr + len → refused (.memoryRead h addr len)) ∧
      (addr + len ≤ slmSize → ∃ t, exec (.memoryRead h addr len) s = .next t ∧
        Completes s t h.sq h.cid (mread s.compute.slm addr len) .success 0 0 ∧ Undisturbed [] s t)) ∧
    (∀ addr data, isAperture addr = false →
      (slmSize < addr + data.length → refused (.memoryWrite h addr data)) ∧
      (addr + data.length ≤ slmSize → ∃ t, exec (.memoryWrite h addr data) s = .next t ∧
        Completes s t h.sq h.cid [] .success 0 0 ∧ t.compute.slm = mwrite s.compute.slm addr data ∧ t.ledger.map = s.ledger.map ∧
        t.flash.pages = s.flash.pages ∧ OnlyChanges completionParts s t)) ∧
    (∀ dst src len, isAperture dst = false → isAperture src = false →
      ((s.ident.meshed = true ∨ slmSize < dst + len ∨ slmSize < src + len) → refused (.memoryCopy h dst src len)) ∧
      (s.ident.meshed = false → dst + len ≤ slmSize → src + len ≤ slmSize → ∃ t, exec (.memoryCopy h dst src len) s = .next t ∧
        Completes s t h.sq h.cid [] .success 0 0 ∧ t.compute.slm = mwrite s.compute.slm dst (mread s.compute.slm src len) ∧
        t.ledger.map = s.ledger.map ∧ t.flash.pages = s.flash.pages ∧ OnlyChanges completionParts s t)) ∧
    (∀ addr len, isAperture addr = true → apertureBad s addr len = true → refused (.memoryRead h addr len) ∧
      ∀ data : Bytes, data.length = len → refused (.memoryWrite h addr data)) ∧
    (∀ addr len, isAperture addr = true → apertureBad s addr len = false → 0 < len → (∀ r ∈ s.fabric.remotes, r.entry ≠ i) →
      ∃ t o, exec (.memoryRead h addr len) s = .next t ∧ o ∈ t.fabric.originated ∧ o.parent = i ∧ o.type = 1 ∧
        o.x.dst = apertureMember addr ∧ o.x.addr = addr % 2 ^ 46 ∧ o.x.length = min len 65536 ∧ OnlyChanges [.fabric, .tally] s t) ∧
    (∀ addr data, isAperture addr = true → apertureBad s addr data.length = false → data ≠ [] →
      (∀ r ∈ s.fabric.remotes, r.entry ≠ i) →
      ∃ t o, exec (.memoryWrite h addr data) s = .next t ∧ o ∈ t.fabric.originated ∧ o.parent = i ∧ o.type = 2 ∧
        o.x.dst = apertureMember addr ∧ o.x.addr = addr % 2 ^ 46 ∧ o.x.group = s.fabric.nextGroup ∧ o.data = data.take 65536 ∧
        t.fabric.nextGroup = (s.fabric.nextGroup + 1) % 2 ^ 32 ∧ OnlyChanges [.fabric, .tally] s t)) ∧
  (∀ (s : State) (h : HostId) (i member : Nat), AdminTurn s h i → h.reservedOk = true →
    (s.ident.meshed = false → ∃ t, exec (.guildPing h member) s = .next t ∧ Completes s t h.sq h.cid [] .invalidOpcode 0 0 ∧
      Undisturbed [] s t) ∧
    (s.ident.meshed = true → (memberCount s ≤ member ∨ member = s.fabric.memberId) → ∃ t, exec (.guildPing h member) s = .next t ∧
      Completes s t h.sq h.cid [] .invalidField 0 0 ∧ Undisturbed [] s t) ∧
    (s.ident.meshed = true → member < memberCount s → member ≠ s.fabric.memberId →
      ∃ t o, exec (.guildPing h member) s = .next t ∧ o ∈ t.fabric.originated ∧ o.parent = i ∧ o.purpose = 6 ∧ o.x.dst = member ∧
        o.type = 8 ∧ o.x.addr = Control.probe.code ∧ OnlyChanges [.fabric, .tally] s t))

/-- Guild notices and the peer table, loss, joining, pausing, leaving, periods, and Guild Control. (R280, R285, R298, R301, R302,
R304, R306, R307, R308, R309, R310) -/
def Obligations.MembersJoinPauseAndLeave : Prop :=
  (∀ (s : State) (p member epoch : Nat), NoticeTurn s p → member ≠ s.fabric.memberId → (peerOf s member).epoch = epoch →
    let others := fun t : State => ∀ m, m ≠ member → peerOf t m = peerOf s m
    ((peerOf s member).st = .active → exec (.controlResumed p member epoch) s = .next s ∧ exec (.controlJoined p member epoch) s = .next s) ∧
    ((peerOf s member).st = .paused → ∀ q ∈ [(Instr.controlResumed p member epoch, Control.resumed), (.controlJoined p member epoch, .joined)],
      ∃ t, exec q.1 s = .next t ∧ (peerOf t member).st = .active ∧ (peerOf t member).epoch = epoch ∧
        Flooded s t (some p) q.2 [member, epoch] ∧ others t ∧ OnlyChanges [.fabric] s t) ∧
    (∀ resume, (peerOf s member).st = .active → ∃ t, exec (.controlPaused p member epoch resume) s = .next t ∧
      (peerOf t member).st = .paused ∧ (peerOf t member).resume = resume ∧ Flooded s t (some p) .paused [member, epoch, resume] ∧ others t ∧
      OnlyChanges [.fabric] s t) ∧
    ((member, epoch) ∈ s.fabric.seenLost → exec (.controlLost p member epoch) s = .next s) ∧
    ((member, epoch) ∉ s.fabric.seenLost → ∃ t, exec (.controlLost p member epoch) s = .next t ∧
      t.fabric.lostDue = s.fabric.lostDue ++ [(member, epoch)] ∧ (member, epoch) ∈ t.fabric.seenLost ∧ t.fabric.peers = s.fabric.peers ∧
      Flooded s t (some p) .lost [member, epoch] ∧ OnlyChanges [.fabric, .counters, .sticky] s t)) ∧
  (∀ (s : State) (member epoch : Nat), s.fabric.lostDue = [(member, epoch)] →
    ((peerOf s member).epoch ≠ epoch → settleLost s = { s with fabric := { s.fabric with lostDue := [] } }) ∧
    ((peerOf s member).epoch = epoch → (∀ o ∈ s.fabric.originated, o.x.dst ≠ member) →
      let t := settleLost s
      (peerOf t member).st = .lost ∧ t.fabric.lostDue = [] ∧ (∀ g ∈ t.fabric.staging, g.src ≠ member) ∧
        (∀ m, m ≠ member → peerOf t m = peerOf s m) ∧ t.compute.slm = s.compute.slm ∧ t.ledger.map = s.ledger.map ∧
        OnlyChanges completionParts s t)) ∧
  (∀ (s : State) (p : Nat), NoticeTurn s p → (s.fabric.memberId, s.fabric.epoch) ∉ s.fabric.seenLost → s.fabric.originated = [] →
    ∃ t, exec (.controlLost p s.fabric.memberId s.fabric.epoch) s = .next t ∧ t.fabric.member = .joining ∧
      t.fabric.epoch = (s.fabric.epoch + 1) % 256 ∧ (∃ r ∈ t.sticky.pending, r.code = 0x0C04 ∧ r.b = s.fabric.epoch) ∧
      t.compute.slm = s.compute.slm ∧ t.ledger.map = s.ledger.map ∧ OnlyChanges ([.counters, .sticky] ++ completionParts) s t) ∧
  (∀ (s : State) (p code bell : Nat), NoticeTurn s p → code ≤ 2 →
    (s.fabric.periodNotice = some (code, bell) → exec (.controlPeriod p code bell) s = .next s) ∧
    (s.fabric.periodNotice ≠ some (code, bell) → ∃ t, exec (.controlPeriod p code bell) s = .next t ∧
      t.fabric.periodNotice = some (code, bell) ∧ Flooded s t (some p) .period [code, bell] ∧ OnlyChanges [.fabric] s t)) ∧
  (∀ (s : State) (p : Nat), NoticeTurn s p → (∀ q ∈ s.fabric.parts, q.port ≠ p) →
    (∀ part last code rows, s.fabric.member = .joining →
      ((part ≠ 0 ∨ last = false) → ∃ t, exec (.controlTable p part last code rows) s = .next t ∧ t.fabric.peers = s.fabric.peers ∧
        t.fabric.tableLoaded = s.fabric.tableLoaded ∧ OnlyChanges [.fabric] s t) ∧
      (part = 0 → last = true → s.fabric.originated = [] → ∃ t, exec (.controlTable p part last code rows) s = .next t ∧
        t.fabric.tableLoaded = true ∧ t.fabric.joinPeriod = some code ∧
        (∀ r, rows.getLast? = some r → r.1 ≠ s.fabric.memberId → (peerOf t r.1).st = peerStOf r.2.1 ∧ (peerOf t r.1).epoch = r.2.2.1 ∧
          (peerOf t r.1).resume = r.2.2.2) ∧ OnlyChanges [.fabric] s t)) ∧
    (∀ member port delay, member ≠ s.fabric.memberId → tget (peerOf s member).links port ≠ some delay →
      ∃ t, exec (.controlDelays p 0 true [(member, port, delay)]) s = .next t ∧ tget (peerOf t member).links port = some delay ∧
        t.fabric.delaysLoaded = true ∧ Flooded s t (some p) .delays [member, port, delay] ∧ OnlyChanges [.fabric] s t)) ∧
  (∀ (s : State) (p : Nat), stopped s = false → exec (.partSequenceTimeout p) s = .next { s with fabric := { s.fabric with
    parts := s.fabric.parts.filter (fun q => !(q.port = p && decide (q.since + 64 ≤ s.bell.ticks))) } }) ∧
  (∀ (s : State) (p since : Nat), stopped s = false → s.fabric.member ≠ .solo → s.bell.chime = 0 → (portOf s p).probing = some since →
    let y := neighbourOf s s.fabric.memberId p
    let closed := fun q : Peer => if q.st = .paused then q.resume + odVal s 0x2902 1 ≤ s.bell.count else
      since + odVal s 0x2902 1 ≤ s.bell.ticks
    ((peerOf s y).st = .active ∨ (peerOf s y).st = .paused) → y ≠ s.fabric.memberId → (∀ o ∈ s.fabric.originated, o.x.dst ≠ y) →
    (¬closed (peerOf s y) → exec (.probeWindowExpiry p) s = .next s) ∧
    (closed (peerOf s y) → ∃ t, exec (.probeWindowExpiry p) s = .next t ∧ (peerOf t y).st = .lost ∧
      (portOf t p).probing = none ∧ (y, (peerOf s y).epoch) ∈ t.fabric.seenLost ∧ Flooded s t none .lost [y, (peerOf s y).epoch] ∧
      OnlyChanges completionParts s t)) ∧
  (∀ (s : State), stopped s = false →
    (∀ since, s.fabric.noPortUpSince = some since → (s.fabric.member = .active ∨ s.fabric.member = .paused) → upPorts s = [] →
      since + odVal s 0x2902 1 ≤ s.bell.ticks → ∃ t, exec .noPortUpExpiry s = .next t ∧ t.fabric.member = .joining ∧
        t.fabric.epoch = (s.fabric.epoch + 1) % 256 ∧ OnlyChanges ([.counters, .sticky] ++ completionParts) s t) ∧
    (s.fabric.member = .active → s.bell.align = .holdover → odVal s 0x2902 4 ≤ s.bell.holdover → ∃ t, exec .holdoverPause s = .next t ∧
      t.fabric.member = .paused ∧ t.fabric.resumeBell = s.bell.count + odVal s 0x2005 0 ∧ t.out = s.out ∧
      (∀ p ∈ upPorts s, ∃ m ∈ (portOf t p).tx, m.type = 8 ∧ m.x.addr = Control.paused.code ∧ m.started = false) ∧
      OnlyChanges [.fabric, .host] s t) ∧
    (s.fabric.member = .joining → mayBeActive s = true → (s.fabric.joinPeriod = none ∨ s.bell.chime = 0) →
      ∃ t, exec .joinComplete s = .next t ∧ t.fabric.member = .active ∧
      (∀ p ∈ upPorts s, ∃ a b : TxMsg, (portOf t p).tx = (portOf s p).tx ++ [a, b] ∧ a.x.addr = Control.joined.code ∧
        a.data = [s.fabric.memberId, s.fabric.epoch] ∧ b.x.addr = Control.delays.code) ∧
      (∀ code, s.fabric.joinPeriod = some code → code ≤ 2 → odVal t 0x2001 0 = code) ∧ t.fabric.epoch = s.fabric.epoch ∧
      OnlyChanges [.od, .bell, .host, .fabric] s t) ∧
    (∀ code e, s.fabric.periodNotice = some (code, e) → s.fabric.member = .active → code ≤ 2 → s.bell.chime = 0 →
      (s.bell.count < e → exec .periodChangeAtE s = .next s) ∧
      (e ≤ s.bell.count → ∃ t, exec .periodChangeAtE s = .next t ∧ odVal t 0x2001 0 = code ∧ t.fabric.periodNotice = none ∧
        OnlyChanges [.od, .bell, .fabric] s t)) ∧
    (s.fabric.member = .leaving →
      (occ s.tally .fabric = 0 → ∃ t, exec .leaveComplete s = .next t ∧ t.fabric.member = .solo ∧ OnlyChanges [.fabric, .host] s t) ∧
      (occ s.tally .fabric ≠ 0 → exec .leaveComplete s = .next s))) ∧
  (∀ (s : State) (h : HostId) (i serial : Nat), AdminTurn s h i → h.reservedOk = true → s.ident.meshed = true →
    (holdsPen s .host serial = false → ∀ c ∈ [Instr.guildSetGeometry h serial 128 [], .guildJoin h serial, .guildLeave h serial,
        .guildSetPeriod h serial 0 0],
      ∃ t, exec c s = .next t ∧ Completes s t 0 h.cid [] .penHeld 0 0 ∧ Undisturbed [] s t) ∧
    (holdsPen s .host serial = true →
      (∀ block, s.dev.state = .config → s.fabric.member = .solo → geometryOk s block = true →
        tooDeep { s with fabric := { geometryOf s.fabric block with peers := [] } } = false →
        ∃ t, exec (.guildSetGeometry h serial 128 block) s = .next t ∧ Completes s t 0 h.cid [] .success 0 0 ∧ t.fabric.hasGeometry = true ∧
          t.fabric.guildId = fieldAt block 0 4 ∧ t.fabric.memberId = fieldAt block 12 4 ∧ t.fabric.peers = [] ∧ Undisturbed [] s t) ∧
      (s.fabric.member = .solo → s.fabric.hasGeometry = true → ∃ t, exec (.guildJoin h serial) s = .next t ∧
        Completes s t 0 h.cid [] .success 0 0 ∧ t.fabric.member = .joining ∧ t.fabric.epoch = (s.fabric.epoch + 1) % 256 ∧
        Undisturbed [.host] s t) ∧
      (s.fabric.member ≠ .solo → s.fabric.member ≠ .leaving → ∃ t, exec (.guildLeave h serial) s = .next t ∧
        Completes s t 0 h.cid [] .success 0 0 ∧ t.fabric.member = .leaving ∧ t.fabric.resumeBell = 2 ^ 64 - 1 ∧
        Flooded s t none .paused [s.fabric.memberId, s.fabric.epoch, 2 ^ 64 - 1] ∧ Undisturbed [.host] s t) ∧
      (s.fabric.member = .active → ∀ code bell, code ≤ 2 → s.bell.count + 25000 ≤ bell → ∃ t,
        exec (.guildSetPeriod h serial code bell) s = .next t ∧ Completes s t 0 h.cid [] .success 0 0 ∧
        t.fabric.periodNotice = some (code, bell) ∧ Flooded s t none .period [code, bell] ∧ Undisturbed [] s t)))

/-- The Milny station: cyclic exchange, discovery, assignment, watchdog, bad frames; the FREEZE# pin. (R316, R318, R319, R320,
R321, R323, R324, R326, R327, R391, R392) -/
def Obligations.MilnyStationAndFreeze : Prop :=
  (∀ (s : State) (dst src cycle period : Nat) (image : Bytes), s.rails.alwaysOn = true → s.milny.address ≠ 0x7E →
    (dst ≠ s.milny.address → exec (.cycOut dst src cycle period image) s = .next s) ∧
    (dst = s.milny.address → ∃ t, exec (.cycOut dst src cycle period image) s = .next t ∧ t.milny.watch = .running ∧
      t.milny.lastCycle = cycle ∧ t.milny.lastBell = s.bell.count ∧ t.milny.lastNs = nowNs s ∧ t.milny.address = s.milny.address ∧ t.milny.lastInput = inputImage t ∧
      t.out.getLast? = some (.milny (milnyFrame t 0x02 (leBytes 2 cycle ++ inputImage t))) ∧
      (src = s.milny.address → t.milny.conflict = true) ∧ (25 ≤ period → period ≤ 1000 → t.milny.periodUs = 10 * period) ∧
      (imageBad period image = true → t.milny.rejected = true ∧ t.milny.image = s.milny.image ∧ t.milny.capPending = s.milny.capPending ∧
        t.counters = (count (count s 0x6010 1 1) 0x6010 3 1).counters ∧
        t.out = s.out ++ [.milny (milnyFrame t 0x02 (leBytes 2 cycle ++ inputImage t))] ∧ OnlyChanges [.milny, .sticky, .counters, .out] s t) ∧
      (imageBad period image = false → t.milny.image = image ∧ t.milny.imageCycle = cycle ∧ t.milny.capPending = some (fieldAt image 0 2) ∧
        t.bell = { s.bell with trimPending := some (toInt 16 (fieldAt image 2 2)) } ∧ t.rails = { s.rails with locate := image.getD 4 0 } ∧
        (s.milny.image.getD 7 0 % 2 = 0 → image.getD 7 0 % 2 = 1 → t.milny.rejected = false ∧ t.milny.expiredFlag = false) ∧
        (image.getD 5 0 ≠ 0x5A → OnlyChanges [.bell, .sticky, .counters, .milny, .power, .rails, .out] s t) ∧
        (image.getD 5 0 = 0x5A → stopped s = false → t.dev.state = .frozen ∧ t.dev.lastCause = 9 ∧ t.dev.lastFrom = s.dev.state.code ∧
          ∃ c, t.freeze.live = some c ∧ c.bell = s.bell.count ∧ c.cause = 9) ∧
        OnlyChanges [.dev, .bell, .sticky, .counters, .freeze, .milny, .power, .rails, .out] s t))) ∧
  (∀ (s : State) (round slots : Nat) (all : Bool), s.rails.alwaysOn = true → 0 < slots → slots ≤ 64 →
    ∃ t, exec (.discover round slots all) s = .next t ∧ OnlyChanges [.sticky, .counters, .out] s t ∧
      ((all = true ∨ s.milny.address = 0x7E) → t.out = s.out ++ [.milnyAt ((crc32 (leBytes 20 s.ident.serialNo) + round) % slots)
        (milnyFrame s 0x21 (leBytes 20 s.ident.serialNo ++ leBytes 16 (partText s) ++ [s.milny.address, b2n (!s.ident.meshed), 0, 0]))]) ∧
      (all = false → s.milny.address ≠ 0x7E → t.out = s.out)) ∧
  (∀ (s : State) (serial address : Nat) (setTerm term : Bool), s.rails.alwaysOn = true →
    ∃ t, exec (.assignOp serial address setTerm term) s = .next t ∧ OnlyChanges [.sticky, .counters, .milny, .out] s t ∧
      (serial = s.ident.serialNo → address ≠ 0 → address < 0x7F →
        t.milny = { s.milny with address := address, term := if setTerm then term else s.milny.term } ∧
        t.out = s.out ++ [.milny (milnyFrame t 0x23 (leBytes 20 serial ++ [address, b2n t.milny.term, 0, 0]))]) ∧
      ((serial ≠ s.ident.serialNo ∨ address = 0 ∨ 0x7F ≤ address) → t.milny = s.milny ∧ t.out = s.out)) ∧
  (∀ s : State, s.rails.alwaysOn = true → s.milny.watch = .running →
    (watchdogDue s = false → exec .milnyWatchdogExpiry s = .next s) ∧
    (watchdogDue s = true → stopped s = false → s.power.inForce = 0 → ∃ t, exec .milnyWatchdogExpiry s = .next t ∧
      t.milny = { s.milny with watch := .expired, expiryDue := true } ∧ OnlyChanges [.sticky, .counters, .milny] s t) ∧
    (watchdogDue s = true → (stopped s = true ∨ s.power.inForce ≠ 0) → ∃ t, exec .milnyWatchdogExpiry s = .next t ∧
      t.milny = { s.milny with
        watch := .expired, image := List.replicate 16 0, capPending := some 0, expiredFlag := true, expiryDue := false, held := s.milny.held.filter (fun x => x.answer.isNone) } ∧
      t.bell = { s.bell with trimPending := some 0 } ∧ t.rails = { s.rails with locate := 0 } ∧ t.dev.state = s.dev.state ∧
      OnlyChanges [.dev, .pen, .bell, .sticky, .counters, .milny, .rails, .out] s t)) ∧
  (∀ s : State, (s.milny.expiryDue = false → expiryTick s = s) ∧
    (s.milny.expiryDue = true →
      let t := expiryTick s
      t.milny = { s.milny with image := List.replicate 16 0, capPending := some 0, expiredFlag := true, expiryDue := false, held := s.milny.held.filter (fun x => x.answer.isNone) } ∧
      t.bell = { s.bell with trimPending := some 0 } ∧ t.rails = { s.rails with locate := 0 } ∧ t.dev.state = s.dev.state ∧
      (s.pen.holder = some .sideband → s.dev.state ≠ .frozen → t.pen = { s.pen with holder := none, idleUs := 0 }) ∧
      ((s.pen.holder ≠ some .sideband ∨ s.dev.state = .frozen) → t.pen = s.pen ∧ t.dev = s.dev) ∧
      (stopped s = false → ∃ r ∈ t.sticky.pending, r.code = 0x0D02 ∧ r.a = s.milny.address ∧ r.b = s.milny.lastCycle) ∧
      OnlyChanges [.dev, .pen, .bell, .sticky, .counters, .milny, .rails, .out] s t)) ∧
  (∀ (s : State) (f : Bytes), s.rails.alwaysOn = true →
    (frameValid f = true → exec (.invalidMilnyFrame f) s = .next s) ∧
    (frameValid f = false → ∃ t, exec (.invalidMilnyFrame f) s = .next t ∧ t = count s 0x6010 2 1 ∧ t.milny = s.milny ∧ t.out = s.out ∧
      OnlyChanges [.sticky, .counters] s t)) ∧
  (∀ (s : State) (ftype : Nat), s.rails.alwaysOn = true → ftype ∈ frameTypes → ∃ t, exec (.ownAddressFrame ftype s.milny.address) s = .next t ∧
    t.milny = { s.milny with conflict := true } ∧ (stopped s = false → Recorded s t { Record.of 0x0D01 with a := s.milny.address }) ∧
    OnlyChanges [.sticky, .milny] s t) ∧
  (∀ (s : State) (lowNs : Nat), s.rails.alwaysOn = true → s.freeze.armed = true → stopped s = false →
    (lowNs < 20 → exec (.freezePin lowNs) s = .next s) ∧
    (20 ≤ lowNs → ∃ t, exec (.freezePin lowNs) s = .next t ∧ OnlyChanges [.dev, .sticky, .freeze, .milny, .free] s t ∧
      (lowNs < 50 → t.dev = s.dev → t.freeze = s.freeze ∧ t.milny = s.milny ∧ t.sticky = s.sticky) ∧
      (50 ≤ lowNs → t.freeze.pinLow = true ∧ t.freeze.armed = false ∧ t.free = s.free ∧
        (s.sticky.heldFrozen.length < 16 → ∃ r, t.sticky.heldFrozen = s.sticky.heldFrozen ++ [r] ∧ r.code = 0x1001 ∧
          r.a = 8 + 256 * s.dev.state.code ∧ r.b = s.bell.count)) ∧
      ((50 ≤ lowNs ∨ t.dev ≠ s.dev) → t.dev.state = .frozen ∧ t.dev.lastCause = 8 ∧ t.dev.lastFrom = s.dev.state.code ∧
        t.freeze.stored = none ∧ ∃ c, t.freeze.live = some c ∧ c.bell = s.bell.count ∧ c.cause = 8))) ∧
  (∀ s : State, exec .freezePinRelease s = .next { s with freeze := { s.freeze with pinLow := false, armed := true } })

/-- The power ladder, media care, temperature, rear 12 V, and what loss and return of power do. (R335, R337, R338, R339, R341,
R345, R346, R349, R431, R432, R435, R436) -/
def Obligations.PowerStatesAndRails : Prop :=
  (∀ s : State, powerHeld s = false →
    (∀ ms ps, s.power.apst = true → s.power.waking = false → s.power.apstTable[s.power.inForce]? = some (ms, ps) → ms ≠ 0 → ps ≠ 0 →
      (s.power.idleUs < 1000 * ms → exec .apstIdleExpiry s = .next s) ∧
      (1000 * ms ≤ s.power.idleUs → exec .apstIdleExpiry s = .next { s with power := { s.power with apstPs := ps } })) ∧
    (s.bell.chime = 0 → s.power.preparing = true → s.power.transition = false → s.power.waking = false →
      (entryReady s s.power.target = false → exec .powerStateEntry s = .next s) ∧
      (entryReady s s.power.target = true →
        exec .powerStateEntry s = .next { s with power := { s.power with preparing := false, transition := true } })) ∧
    (s.power.transition = true → s.power.waking = false → ∃ t, exec .powerStateEntryComplete s = .next t ∧
      t.power.inForce = s.power.target ∧ t.power.transition = false ∧
      (s.power.target < 2 → OnlyChanges [.power, .counters, .sticky] s t) ∧
      (2 ≤ s.power.target → upPorts t = [] ∧ (s.bell.followed ≠ 2 → t.bell.count = s.bell.count)) ∧ (s.power.target < 3 → t.compute = s.compute) ∧
      (3 ≤ s.power.target → t.compute.cores = [] ∧ t.compute.looms = []) ∧ (s.power.target < 4 → t.compute.slm = s.compute.slm) ∧
      (4 ≤ s.power.target → t.compute.slm = [] ∧ t.compute.programs = [] ∧ t.fabric.peers = [] ∧ t.power.mapResident = 0) ∧
      OnlyChanges [.bell, .host, .sticky, .counters, .compute, .fabric, .power, .free] s t) ∧
    (s.power.waking = true → ∃ t, exec .ps0Reached s = .next t ∧ t.power = { s.power with
        waking := false, transition := false, preparing := false, inForce := 0, target := 0, idleUs := 0, idleFresh := true } ∧
      (∀ i, entryAt t i = (entryAt s i).map (fun e =>
        if e.origin.kind = .internal ∧ e.state = .held then { e with state := .admitted } else e)) ∧
      (s.power.inForce = 5 → t.ledger.groups = []) ∧ (s.power.inForce ≠ 5 → t.ledger = s.ledger ∧ t.keys = s.keys) ∧
      OnlyChanges [.tally, .host, .sticky, .counters, .ledger, .fabric, .power, .keys] s t) ∧
    (∀ hours, 2 ≤ s.power.inForce → s.power.waking = false →
      let woken := { s.power with care := true, preparing := false, waking := true, wake := 5, apstPs := 0, idleUs := 0, idleFresh := true }
      (s.power.noppme = true → 24 < hours → exec (.mediaCareWake hours) s = .next s) ∧
      (s.power.noppme = true → hours ≤ 24 → ∃ t, exec (.mediaCareWake hours) s = .next t ∧ t.power = woken ∧
        OnlyChanges [.sticky, .counters, .power] s t) ∧
      (s.power.noppme = false → hours ≠ 0 → exec (.mediaCareWake hours) s = .next s) ∧
      (s.power.noppme = false → hours = 0 → ∃ t, exec (.mediaCareWake hours) s = .next t ∧ t.power = woken ∧
        (∃ r ∈ t.sticky.pending, r.code = 0x0E01 ∧ r.a = s.power.target) ∧ OnlyChanges [.sticky, .counters, .power] s t)) ∧
    (∀ hours, s.power.inForce = 0 → 48 < hours →
      exec (.mediaCareWake hours) s = .next { s with power := { s.power with care := false } })) ∧
  (∀ (s : State) (readings : List Int) (drawn : Nat), stopped s = false → s.bell.chime = 0 →
    let h := hottest readings
    let c := 90 + h.2
    (s.bell.count % 25 ≠ 0 → exec (.thermalEvaluation readings drawn) s = .next s) ∧
    (s.bell.count % 25 = 0 → ∃ t, exec (.thermalEvaluation readings drawn) s = .next t ∧ t.power.sensors = readings ∧
      t.power.composite = c ∧ t.power.drawn = drawn ∧ t.power.hold = (if s.power.hold then decide (95 < c) else decide (100 ≤ c)) ∧
      (c ≤ 90 → t.power.thermalLimit = supplyLimit s) ∧ (100 ≤ c → t.power.thermalLimit = 200) ∧
      (90 < c → c < 100 → 200 ≤ t.power.thermalLimit ∧ t.power.thermalLimit < supplyLimit s) ∧ bit t.host.warning 1 = decide (90 ≤ c) ∧
      (s.power.hold = false → 100 ≤ c → ∃ r ∈ t.sticky.pending, r.code = 0x0E03 ∧ r.a = h.1 + 1) ∧
      OnlyChanges [.host, .sticky, .power] s t)) ∧
  (∀ s : State, stopped s = false → s.bell.chime = 0 →
    (s.ident.meshed = false → exec .rear12vLost s = .next s ∧ exec .rear12vReturn s = .next s) ∧
    (s.ident.meshed = true → s.power.rearWas = true → ∃ t, exec .rear12vLost s = .next t ∧ supplyLimit t = 700 ∧ t.power.rearWas = false ∧
      t.power.rearBells = 0 ∧ (∃ r ∈ t.sticky.pending, r.code = 0x0E04) ∧ OnlyChanges [.sticky, .power] s t) ∧
    (s.ident.meshed = true → s.power.rearWas = false →
      exec .rear12vReturn s = .next { s with power := { s.power with rearWas := true, rearBells := 0 } }) ∧
    (s.ident.meshed = true → s.power.rearWas = true →
      (s.power.rearBells < 25000 → exec .rear12vReturn s = .next s) ∧
      (25000 ≤ s.power.rearBells → ∃ t, exec .rear12vReturn s = .next t ∧ t.power = { s.power with rear12 := true } ∧ supplyLimit t = 1300 ∧
        OnlyChanges [.power] s t))) ∧
  (∀ (s : State) (us : Nat) (ok : Bool), ∀ q ∈ [(Instr.mainPowerLost us ok, 0), (.pwrdisAssert us ok, 1)],
    ∃ t, exec q.1 s = .next t ∧ t.dev.state = .off ∧ (q.2 = 0 → t.rails.main = false) ∧ (q.2 = 1 → t.rails.pwrdis = true) ∧
      t.bell.count = s.bell.count ∧ t.ledger.journal = s.ledger.journal ∧ t.flash.pages = s.flash.pages ∧ t.ident = s.ident ∧
      (s.dev.state = .off → OnlyChanges [.rails] s t) ∧
      (s.dev.state ≠ .off → t.tally.entries = [] ∧ t.tally.waiting = [] ∧ t.pen.holder = none ∧ t.counters = [] ∧ t.host.sqs = [] ∧
        t.compute.slm = [] ∧ t.ledger.map = [] ∧ t.ledger.saved = s.ledger.saved ++ linesRunning s ∧ t.sticky.pending = [] ∧ t.sticky.heldFrozen = [] ∧ t.update.resetCause = q.2 ∧ t.ledger.saveUs = us ∧
        t.ledger.saveResult = (if ok then 1 else 2) ∧ t.rails.offSince.isSome = true)) ∧
  (∀ s : State, s.dev.state = .off →
    (s.rails.alwaysOn = true → s.rails.pwrdis = false → railsRested s = true → ∃ t, exec .mainPowerGood s = .next t ∧
      t.dev.state = .boot ∧ t.rails = { s.rails with main := true, offSince := none } ∧ t.update.resetKind = 1 ∧ t.bell = s.bell ∧
      t.milny = s.milny ∧ OnlyChanges [.dev, .sticky, .counters, .update, .rails] s t) ∧
    (s.rails.alwaysOn = false → ∃ t, exec .mainPowerGood s = .next t ∧ t.rails.main = true ∧ t.rails.alwaysOn = true ∧ t.bell.count = 0 ∧
      t.milny.address = 0x7E) ∧
    ((s.rails.pwrdis = true ∨ railsRested s = false) → s.rails.alwaysOn = true →
      exec .mainPowerGood s = .next { s with rails := { s.rails with main := true } }) ∧
    ((s.rails.main = false ∨ railsRested s = false) → exec .powerRestart s = .next s) ∧
    (s.rails.main = true → railsRested s = true → ∃ t, exec .powerRestart s = .next t ∧ t.dev.state = .boot ∧
      t.rails = { s.rails with pwrdis := false, offSince := none } ∧ t.update.resetKind = 1 ∧
      OnlyChanges [.dev, .sticky, .counters, .update, .rails] s t) ∧
    (s.rails.main = false → s.rails.alwaysOn = true → ∃ t, exec .alwaysOnPowerLoss s = .next t ∧ t.rails.alwaysOn = false ∧
      t.bell.count = 0 ∧ t.milny.address = 0x7E ∧ t.milny.watch = .unarmed ∧ OnlyChanges [.rails, .bell, .milny, .update] s t)) ∧
  (∀ s : State, (s.rails.alwaysOn = true → exec .alwaysOnPowerUp s = .next s) ∧
    (s.rails.alwaysOn = false → ∃ t, exec .alwaysOnPowerUp s = .next t ∧ t.rails = { s.rails with alwaysOn := true } ∧ t.bell.count = 0 ∧
      t.milny.address = 0x7E ∧ t.milny.term = false ∧ t.milny.watch = .unarmed ∧ t.freeze = { s.freeze with armed := !s.freeze.pinLow } ∧
      OnlyChanges [.rails, .bell, .milny, .freeze] s t))

/-- Firmware download, the four commit actions, activation, the copy from scratch, the start, and faults of class 3. (R353, R354,
R358, R366, R367, R368, R369, R370, R371, R374, R376, R386) -/
def Obligations.FirmwareIsChangedAndStarted : Prop :=
  (∀ (s : State) (h : HostId) (i : Nat), AdminTurn s h i →
    let ends := fun (c : Instr) (st : Status) => ∃ t, exec c s = .next t ∧ Completes s t 0 h.cid [] st 0 0 ∧ Undisturbed [] s t
    (activating s = true → ∀ off piece slot, ∀ c ∈ [Instr.firmwareImageDownload h off piece, .firmwareCommitAction0 h slot,
      .firmwareCommitAction1 h slot, .firmwareCommitAction2 h slot, .firmwareCommitAction3 h slot],
      ends c .activationPending) ∧
    (activating s = false →
      (∀ off piece,
        ((off % 4096 ≠ 0 ∨ 67108864 < off + piece.length) →
          ends (.firmwareImageDownload h off piece) .invalidField) ∧
        (off % 4096 = 0 → off + piece.length ≤ 67108864 → off ≠ 0 →
          (∃ p ∈ s.update.buffer, off < p.1 + p.2.length ∧ p.1 < off + piece.length) →
          ends (.firmwareImageDownload h off piece) .overlappingRange) ∧
        (off % 4096 = 0 → off + piece.length ≤ 67108864 →
          (off = 0 ∨ ∀ p ∈ s.update.buffer, p.1 + p.2.length ≤ off ∨ off + piece.length ≤ p.1) →
          ∃ t, exec (.firmwareImageDownload h off piece) s = .next t ∧ Completes s t 0 h.cid [] .success 0 0 ∧
            t.update = { s.update with buffer := (if off = 0 then [] else s.update.buffer) ++ [(off, piece)] } ∧ Undisturbed [.update] s t)) ∧
      (∀ slot, 2 < slot → ∀ c ∈ [Instr.firmwareCommitAction0 h slot, .firmwareCommitAction1 h slot, .firmwareCommitAction2 h slot,
        .firmwareCommitAction3 h slot], ends c .firmwareSlotInvalid) ∧
      (∀ slot k, commitSlot s slot = some k →
        (k = s.update.active → ends (.firmwareCommitAction0 h slot) .firmwareSlotInvalid) ∧
        (s.update.requested = some k → ends (.firmwareCommitAction1 h slot) .activationPending ∧
          (k ≠ s.update.active → ends (.firmwareCommitAction0 h slot) .activationPending)) ∧
        (∀ st, checkBuffer s = .inl st → s.update.requested ≠ some k → (st = .firmwareImageInvalid ∨ st = .firmwareProhibited) ∧
          ends (.firmwareCommitAction1 h slot) st ∧
          (k ≠ s.update.active → ends (.firmwareCommitAction0 h slot) st)) ∧
        (∀ img, checkBuffer s = .inr img → s.update.requested ≠ some k →
          (k ≠ s.update.active → ∀ q ∈ [(Instr.firmwareCommitAction0 h slot, false), (.firmwareCommitAction1 h slot, true)],
            ∃ t, exec q.1 s = .next t ∧ t.update = { s.update with
                slots := tput s.update.slots k { img with state := 3 }, writing := s.update.writing ++ [⟨k, img, q.2, some i⟩]
                phase := if s.update.phase = 0 then 1 else s.update.phase } ∧
              (∃ e, entryAt t i = some e ∧ e.state = .waiting ∧ e.origin = .host 0 h.cid) ∧ OnlyChanges [.update, .tally] s t) ∧
          (k = s.update.active → s.update.scratch ≠ 2 → ∃ t, exec (.firmwareCommitAction1 h slot) s = .next t ∧
            Completes s t 0 h.cid [] .success 0 0 ∧ t.update = { s.update with scratch := 1, scratchImage := some img, pending := k } ∧
            Undisturbed [.update] s t)) ∧
        (k = s.update.active → ∃ t, exec (.firmwareCommitAction2 h slot) s = .next t ∧ Completes s t 0 h.cid [] .success 0 0 ∧
          t.update.pending = 0 ∧ t.update.slots = s.update.slots ∧ t.update.active = s.update.active ∧ Undisturbed [.update] s t) ∧
        (∀ st, k ≠ s.update.active → checkSlot s k = .inl st → (st = .firmwareImageInvalid ∨ st = .firmwareProhibited) ∧
          ends (.firmwareCommitAction2 h slot) st) ∧
        (∀ img, k ≠ s.update.active → checkSlot s k = .inr img →
          (∃ t, exec (.firmwareCommitAction2 h slot) s = .next t ∧ Completes s t 0 h.cid [] .success 0 0 ∧ t.update.pending = k ∧
            t.update.slots = s.update.slots ∧ t.update.active = s.update.active ∧ Undisturbed [.update] s t) ∧
          ((s.dev.state = .run ∨ s.dev.state = .config) → s.update.requested = none → ∃ t,
            exec (.firmwareCommitAction3 h slot) s = .next t ∧ t.update = { s.update with requested := some k, commit := some (0, h.cid), phase := 1 } ∧
            (∃ e, entryAt t i = some e ∧ e.state = .waiting ∧ e.origin = .host 0 h.cid) ∧
            OnlyChanges [.update, .tally] s t)) ∧
        ((s.dev.state = .run ∨ s.dev.state = .config) → s.update.requested.isSome = true → ends (.firmwareCommitAction3 h slot) .activationPending) ∧
        ((s.dev.state = .run ∨ s.dev.state = .config) → s.update.requested = none → k = s.update.active →
          ends (.firmwareCommitAction3 h slot) .success) ∧
        (s.dev.state ≠ .run → s.dev.state ≠ .config →
          ends (.firmwareCommitAction3 h slot) .commandSequenceError)))) ∧
  (∀ (s : State) (w : SlotWrite) (rest : List SlotWrite) (cid i : Nat), s.update.writing = w :: rest → s.dev.state ≠ .paused →
    w.entry = some i → Stands s 0 cid i →
    let t := slotWriteTick s
    (t.update = s.update ∧ OnlyChanges [.free] s t) ∨
    (Completes s t 0 cid [] .success 0 0 ∧ t.update.writing = rest ∧
      ((∀ x ∈ rest, x.slot ≠ w.slot) → belowFloor s w.image.security = false → tget t.update.slots w.slot = some w.image) ∧
      t.update.pending = (if w.pend then w.slot else s.update.pending) ∧ t.update.active = s.update.active ∧
      Undisturbed [.update, .free] s t)) ∧
  (∀ (s : State) (k : Nat), s.update.requested = some k → EdgeFree s →
    (s.dev.state = .run → ∃ t, exec .activationStart s = .next t ∧ t.dev.state = .drain ∧ t.dev.lastCause = 6 ∧ t.dev.drainForActivation = true ∧
      t.dev.drainBell = s.bell.ticks ∧ t.update.phase = 2 ∧ t.update.actSlot = k ∧ t.update.actBell = s.bell.count ∧
      t.update.active = s.update.active ∧ Undisturbed [.dev, .update, .host, .counters, .sticky] s t) ∧
    (s.dev.state = .config → ∃ t, exec .activationStart s = .next t ∧ t.dev.state = .paused ∧ t.dev.lastCause = 6 ∧ t.update.phase = 3 ∧
      t.update.fromConfig = true ∧ t.update.actSlot = k ∧ t.update.active = s.update.active ∧
      (∀ i, (∀ q ∈ s.sifters.searches, ∀ c ∈ q.contexts, c.entry ≠ i) →
        entryAt t i = (entryAt s i).map (fun e => if heldByPause s e then { e with state := .held } else e)) ∧
      Undisturbed [.dev, .update, .host, .counters, .sticky] s t)) ∧
  (∀ (s : State) (k us : Nat), s.update.requested = some k → s.update.loaderDone = false → us ≤ 120000 →
    s.dev.state = .drain → s.dev.drainForActivation = true → EdgeFree s →
    (s.bell.ticks < s.dev.drainBell + 2 → exec (.activationPause none us) s = .next s) ∧
    (s.dev.drainBell + 2 ≤ s.bell.ticks →
      (∀ img, stagedFor s.update s.update.actSlot = some img → ∃ t, exec (.activationPause none us) s = .next t ∧ t.dev.state = .paused ∧
        t.dev.lastCause = 5 ∧ t.update.active = s.update.actSlot ∧ t.update.actResult = 1 ∧ t.update.loaderDone = true ∧
        (∀ j < 8, t.update.floors.getD j 0 = max (s.update.floors.getD j 0) (img.security.getD j 0)) ∧
        t.ident = { s.ident with patch := img.version % 65536 } ∧ OnlyChanges ([.dev, .update, .ident, .counters, .sticky] ++ completionParts) s t) ∧
      (∀ part, ∃ t, exec (.activationPause (some part) us) s = .next t ∧ t.dev.state = .paused ∧ t.update.active = s.update.active ∧
        t.update.floors = s.update.floors ∧ t.update.actResult = 2 ∧ t.update.actPart = part ∧ t.update.loaderDone = true ∧
        (∃ r ∈ t.sticky.pending, r.code = 0x0F04 ∧ r.a = part) ∧ t.ident = s.ident ∧
        OnlyChanges ([.dev, .update, .counters, .sticky] ++ completionParts) s t))) ∧
  (∀ s : State, s.dev.state = .paused → EdgeFree s → s.update.warmDeferred = none → s.host.enClearDeferred = false →
    s.fabric.rejoin = false →
    (s.update.loaderDone = false → exec .activationEnd s = .next s) ∧
    (s.update.loaderDone = true → ∃ t, exec .activationEnd s = .next t ∧
      t.dev.state = (if s.update.fromConfig then .config else .run) ∧ t.dev.lastCause = 7 ∧ t.update.requested = none ∧
      t.update.active = s.update.active ∧ t.update.commit = none ∧
      (∀ cid i, s.update.commit = some (0, cid) → Stands s 0 cid i →
        Completes s t 0 cid [] (if s.update.actResult = 1 then .success else .firmwareImageInvalid) 0 0) ∧
      t.steward.held = [] ∧ Undisturbed [.dev, .update, .host, .steward] s t)) ∧
  (∀ s : State, stopped s = false → s.dev.state ≠ .boot → s.dev.state ≠ .paused → s.update.scratch = 2 →
    (s.update.copied ≠ 7 → exec .imageCopyPart s = .next { s with update := { s.update with copied := s.update.copied + 1 } }) ∧
    (∀ img, s.update.copied = 7 → s.update.scratchImage = some img → ∃ t, exec .imageCopyPart s = .next t ∧
      t.update.slots = tput s.update.slots s.update.copySlot { img with state := 1 } ∧ t.update.scratch = 0 ∧ t.update.scratchImage = none ∧
      t.update.active = s.update.active ∧ t.ledger.map = s.ledger.map ∧ OnlyChanges (.update :: completionParts) s t)) ∧
  (∀ (s : State) (x : BootChecks), s.dev.state = .boot → s.dev.faultDue = false → EdgeFree s →
    (x.cellarOk = true → x.activeOk = true → x.keyStoreOk = true → x.holdUpOk = true → s.update.scratch ≠ 2 → ∃ t,
      exec (.bootComplete x) s = .next t ∧ t.dev.state = .config ∧ t.dev.lastCause = 1 ∧ t.host.rdy = (s.host.en && !s.update.cfs) ∧ t.keys.store = b2n x.keyCopyLost ∧ t.update.bootMs = x.bootMs ∧
      (s.update.pending = 0 → t.update.active = s.update.active) ∧
      (s.update.pending ≠ 0 → x.pendingOk = false → t.update.active = s.update.active ∧ t.update.pending = 0 ∧
        ∃ r ∈ t.sticky.pending, r.code = 0x0F03 ∧ r.a = x.failedPart) ∧
      (∀ img, s.update.pending ≠ 0 → x.pendingOk = true → stagedFor s.update s.update.pending = some img → img.state ≠ 3 →
        belowFloor s img.security = false → t.update.active = s.update.pending ∧ t.update.pending = 0 ∧ t.ident.patch = img.version % 65536) ∧
      (s.update.resetKind = 1 → t.ledger.saved = [] ∧ (s.ledger.saved = [] → ∀ k, (bandOf t k).st ≠ .open) ∧
        (x.markerFound = false → ∃ r ∈ t.sticky.pending, r.code = 0x0605 ∧
          r.b = (s.ledger.saved.flatMap (fun l => l.pages.map (fun q => q.1))).dedup.length)) ∧
      t.od = s.od ∧ t.pen = s.pen ∧ t.bell = s.bell) ∧
    (s.update.warmDeferred = none → s.host.enClearDeferred = false → ∀ q ∈ [({ x with cellarOk := false }, 2), ({ x with cellarOk := true, activeOk := false, pendingOk := false }, 1)],
      ∃ t, exec (.bootComplete q.1) s = .next t ∧ t.dev.state = .fault ∧ t.host.rdy = (s.host.en && !s.update.cfs) ∧
        (∃ r ∈ t.sticky.pending, r.code = 0x1002 ∧ r.a = q.2) ∧ t.od = s.od ∧ t.pen = s.pen ∧ t.bell = s.bell)) ∧
  (∀ s : State, stopped s = false → s.dev.state ≠ .fault →
    (s.bell.chime ≠ 0 → ∃ t, exec (.uncorrectableError 3) s = .next t ∧ t.dev = { s.dev with faultDue := true } ∧
      Recorded s t { Record.of 0x1002 with a := 3 } ∧ OnlyChanges [.dev, .sticky] s t) ∧
    (EdgeFree s → s.update.warmDeferred = none → s.host.enClearDeferred = false →
      ∃ t, exec (.uncorrectableError 3) s = .next t ∧ t.dev.state = .fault ∧ t.dev.lastCause = 10 ∧ t.dev.faultDue = false ∧
      Recorded s t { Record.of 0x1002 with a := 3 } ∧ upPorts t = [] ∧
      (∀ i, entryAt t i = (entryAt s i).map (fun e =>
        if e.state = .held then { e with state := if e.dispatched then .running else .admitted } else e)) ∧
      OnlyChanges [.dev, .sticky, .fabric, .tally, .host, .update] s t) ∧
    (activating s = false → ¬(s.dev.state = .boot ∧ s.update.resetKind = 2 ∧ s.update.lastClass = 6) → ∃ t,
      exec (.uncorrectableError 6) s = .next t ∧ t.dev.state = .boot ∧ t.update.resetKind = 2 ∧ t.update.resetCause = 5 ∧ t.update.cfs = true ∧
      (∃ r ∈ t.sticky.pending, r.code = 0x0F01) ∧ t.tally.entries = [] ∧ t.od = s.od ∧ t.bell.count = s.bell.count ∧
      ((∀ d ∈ s.flash.dies, d.2.program = none) → t.ledger.map = s.ledger.map)))
end

