-- ==== Sys2Proof/Laws/Tables.lean ====
section
/-!
SUPPORT. Sparse tables and memories: a read after a write gives what was written, a write leaves every other key alone, and every
operation keeps the keys rising and a memory in its canonical form.
-/

namespace Sys2Proof.Machine

variable {α : Type}

/-- Every key of a table lies above `k`. -/
def keysAbove (k : Nat) (t : Table α) : Prop := ∀ p ∈ t, k < p.1

theorem keysRising_cons (k : Nat) (v : α) (t : Table α) :
    keysRising ((k, v) :: t) = true ↔ keysAbove k t ∧ keysRising t = true := by
  induction t generalizing k v with
  | nil => simp [keysRising, keysAbove]
  | cons q t ih =>
    obtain ⟨b, y⟩ := q
    simp only [keysRising, Bool.and_eq_true, decide_eq_true_eq]
    constructor
    · rintro ⟨hab, ht⟩
      refine ⟨?_, ht⟩
      intro p hp
      rcases List.mem_cons.mp hp with rfl | hp
      · exact hab
      · exact Nat.lt_trans hab ((ih b y).mp ht |>.1 p hp)
    · rintro ⟨ha, ht⟩
      exact ⟨ha (b, y) (List.mem_cons_self ..), ht⟩

@[simp] theorem keysRising_nil : keysRising ([] : Table α) = true := rfl

theorem tput_above (t : Table α) (k j : Nat) (v : α) (h : keysAbove j t) (hk : j < k) : keysAbove j (tput t k v) := by
  induction t with
  | nil => intro p hp; simp [tput] at hp; subst hp; exact hk
  | cons q t ih =>
    obtain ⟨b, y⟩ := q
    have hb : j < b := h (b, y) (List.mem_cons_self ..)
    have ht : keysAbove j t := fun p hp => h p (List.mem_cons_of_mem _ hp)
    intro p hp
    simp only [tput] at hp
    split at hp
    · rcases List.mem_cons.mp hp with rfl | hp
      · exact hk
      · exact h p hp
    · split at hp
      · rcases List.mem_cons.mp hp with rfl | hp
        · exact hk
        · exact ht p hp
      · rcases List.mem_cons.mp hp with rfl | hp
        · exact hb
        · exact ih ht p hp

/-- A write keeps the keys rising. -/
theorem tput_rising (t : Table α) (k : Nat) (v : α) (h : keysRising t = true) : keysRising (tput t k v) = true := by
  induction t with
  | nil => simp [tput, keysRising]
  | cons q t ih =>
    obtain ⟨b, y⟩ := q
    obtain ⟨hb, ht⟩ := (keysRising_cons b y t).mp h
    simp only [tput]
    split
    · next hkb =>
      refine (keysRising_cons ..).mpr ⟨?_, h⟩
      intro p hp
      rcases List.mem_cons.mp hp with rfl | hp
      · exact hkb
      · exact Nat.lt_trans hkb (hb p hp)
    · split
      · next hkb => subst hkb; exact (keysRising_cons ..).mpr ⟨hb, ht⟩
      · next h1 h2 =>
        refine (keysRising_cons ..).mpr ⟨tput_above t k b v hb (by omega), ih ht⟩

/-- Removing entries keeps the keys rising. -/
theorem filter_rising (t : Table α) (f : Nat × α → Bool) (h : keysRising t = true) : keysRising (t.filter f) = true := by
  induction t with
  | nil => rfl
  | cons q t ih =>
    obtain ⟨b, y⟩ := q
    obtain ⟨hb, ht⟩ := (keysRising_cons b y t).mp h
    rw [List.filter_cons]
    split
    · exact (keysRising_cons ..).mpr ⟨fun p hp => hb p (List.mem_filter.mp hp).1, ih ht⟩
    · exact ih ht

/-- Changing values keeps the keys rising. -/
theorem map_rising {β : Type} (t : Table α) (f : Nat × α → Nat × β) (hf : ∀ p, (f p).1 = p.1) (h : keysRising t = true) :
    keysRising (t.map f) = true := by
  induction t with
  | nil => rfl
  | cons q t ih =>
    obtain ⟨b, y⟩ := q
    obtain ⟨hb, ht⟩ := (keysRising_cons b y t).mp h
    rw [List.map_cons]
    have e : f (b, y) = (b, (f (b, y)).2) := Prod.ext (hf _) rfl
    rw [e]
    refine (keysRising_cons ..).mpr ⟨?_, ih ht⟩
    intro p hp
    obtain ⟨r, hr, rfl⟩ := List.mem_map.mp hp
    rw [hf]
    exact hb r hr

/-- What a table holds after a write is the entry written or an entry of before. -/
theorem mem_tput (t : Table α) (k : Nat) (v : α) (p : Nat × α) (h : p ∈ tput t k v) : p = (k, v) ∨ p ∈ t := by
  induction t with
  | nil => simp [tput] at h; exact .inl h
  | cons q t ih =>
    obtain ⟨b, y⟩ := q
    simp only [tput] at h
    split at h
    · rcases List.mem_cons.mp h with h | h
      · exact .inl h
      · exact .inr h
    · split at h
      · rcases List.mem_cons.mp h with h | h
        · exact .inl h
        · exact .inr (List.mem_cons_of_mem _ h)
      · rcases List.mem_cons.mp h with h | h
        · exact .inr (h ▸ List.mem_cons_self ..)
        · rcases ih h with h | h
          · exact .inl h
          · exact .inr (List.mem_cons_of_mem _ h)

/-- A key reads what was last written to it. -/
@[simp] theorem tget_tput_same (t : Table α) (k : Nat) (v : α) : tget (tput t k v) k = some v := by
  induction t with
  | nil => simp [tput, tget]
  | cons q t ih =>
    obtain ⟨b, y⟩ := q
    simp only [tput]
    split
    · simp [tget]
    · split
      · simp [tget]
      · next h1 h2 => simp [tget, h2, ih]

/-- A write leaves every other key alone. -/
theorem tget_tput_other (t : Table α) (k j : Nat) (v : α) (h : j ≠ k) : tget (tput t k v) j = tget t j := by
  induction t with
  | nil => simp [tput, tget, h]
  | cons q t ih =>
    obtain ⟨b, y⟩ := q
    simp only [tput]
    split
    · simp [tget, h]
    · split
      · next hkb => subst hkb; simp [tget, h]
      · simp only [tget]; split
        · rfl
        · exact ih

@[simp] theorem tgetD_tput_same (t : Table α) (k : Nat) (v d : α) : tgetD (tput t k v) k d = v := by simp [tgetD]

theorem tgetD_tput_other (t : Table α) (k j : Nat) (v d : α) (h : j ≠ k) : tgetD (tput t k v) j d = tgetD t j d := by
  simp [tgetD, tget_tput_other t k j v h]

/-- Reading a key of a table from which key `k` has been removed. -/
theorem tget_tdel (t : Table α) (k j : Nat) : tget (tdel t k) j = if j = k then none else tget t j := by
  induction t with
  | nil => simp [tdel, tget]
  | cons q t ih =>
    obtain ⟨b, y⟩ := q
    simp only [tdel, List.filter_cons] at *
    by_cases hb : b = k
    · subst hb
      by_cases hj : j = b
      · subst hj; simpa using ih
      · simp [tget, hj]; simpa [hj] using ih
    · simp only [hb, not_false_eq_true, decide_true, if_true, ne_eq, tget]
      by_cases hj : j = b
      · subst hj; simp [hb]
      · simpa [hj] using ih

/-! ## Memories -/

/-- A byte reads what was last written to it. -/
@[simp] theorem mget_mput_same (m : Mem) (a : Nat) (b : Byte) : mget (mput m a b) a = b := by
  unfold mget mput
  split
  · next h => simp [tgetD, tget_tdel, h]
  · simp

/-- A write of one byte leaves every other byte alone. -/
theorem mget_mput_other (m : Mem) (a c : Nat) (b : Byte) (h : c ≠ a) : mget (mput m a b) c = mget m c := by
  unfold mget mput
  split
  · simp [tgetD, tget_tdel, h]
  · exact tgetD_tput_other m a c b 0 h

/-- A write of one byte keeps the canonical form. -/
theorem mput_wf (m : Mem) (a : Nat) (b : Byte) (h : Mem.wf m = true) : Mem.wf (mput m a b) = true := by
  simp only [Mem.wf, Bool.and_eq_true, List.all_eq_true, decide_eq_true_eq] at h ⊢
  unfold mput
  split
  · exact ⟨filter_rising m _ h.1, fun p hp => h.2 p (List.mem_filter.mp hp).1⟩
  · next hb =>
    refine ⟨tput_rising m a b h.1, fun p hp => ?_⟩
    rcases mem_tput m a b p hp with rfl | hp
    · exact hb
    · exact h.2 p hp

/-- A write of a run of bytes keeps the canonical form. -/
theorem mwrite_wf (bs : Bytes) (m : Mem) (a : Nat) (h : Mem.wf m = true) : Mem.wf (mwrite m a bs) = true := by
  induction bs generalizing m a with
  | nil => exact h
  | cons b bs ih => exact ih _ _ (mput_wf m a _ h)

/-- The empty memory is in canonical form. -/
@[simp] theorem nil_wf : Mem.wf ([] : Mem) = true := rfl

/-- A write of a run of bytes leaves every byte outside it alone. -/
theorem mget_mwrite_outside (bs : Bytes) (m : Mem) (a c : Nat) (h : c < a ∨ a + bs.length ≤ c) :
    mget (mwrite m a bs) c = mget m c := by
  induction bs generalizing m a with
  | nil => rfl
  | cons b bs ih =>
    simp only [mwrite]
    rw [ih _ _ (by simp only [List.length_cons] at h; omega)]
    exact mget_mput_other m a c _ (by simp only [List.length_cons] at h; omega)

/-- A byte inside a run reads what the run holds for it. -/
theorem mget_mwrite_inside (bs : Bytes) (m : Mem) (a i : Nat) (h : i < bs.length) :
    mget (mwrite m a bs) (a + i) = BitVec.ofNat 8 (bs.getD i 0) := by
  induction bs generalizing m a i with
  | nil => simp at h
  | cons b bs ih =>
    simp only [mwrite]
    cases i with
    | zero =>
      rw [mget_mwrite_outside bs _ (a + 1) (a + 0) (by omega)]
      simp
    | succ i =>
      have e : a + (i + 1) = a + 1 + i := by omega
      rw [e, ih _ _ i (by simpa using h)]
      simp

/-- Bytes read as a number and written back are the same bytes. -/
theorem leBytes_leNat (b : Bytes) (h : ∀ x ∈ b, x < 256) : leBytes b.length (leNat b) = b := by
  induction b with
  | nil => rfl
  | cons x bs ih =>
    have hx : x < 256 := h x (List.mem_cons_self ..)
    have ib := ih (fun y hy => h y (List.mem_cons_of_mem _ hy))
    simp only [List.length_cons, leNat, leBytes, Nat.mod_eq_of_lt hx]
    rw [show (x + 256 * leNat bs) % 256 = x by omega, show (x + 256 * leNat bs) / 256 = leNat bs by omega, ib]

end Sys2Proof.Machine
end

