-- ==== Sys2Proof/Laws/Frames.lean ====
section
/-!
SUPPORT. Which parts of the state each shared operation can change: one lemma per operation, in the form in which the statements speak of
it, and the laws that put such lemmas together.
-/

namespace Sys2Proof.Machine

open Host (Outcome)

/-! ## Putting frames together -/

theorem OnlyChanges.refl (ps : List Part) (s : State) : OnlyChanges ps s s := fun p _ => by cases p <;> rfl

theorem OnlyChanges.trans {ps : List Part} {s t u : State} (a : OnlyChanges ps s t) (b : OnlyChanges ps t u) : OnlyChanges ps s u :=
  fun p h => by have x := a p h; have y := b p h; cases p <;> exact Eq.trans y x

theorem OnlyChanges.mono {ps qs : List Part} {s t : State} (a : OnlyChanges ps s t) (h : ps ⊆ qs) : OnlyChanges qs s t :=
  fun p hp => a p (fun hq => hp (h hq))

theorem OnlyChanges.foldl {α : Type} {ps : List Part} {f : State → α → State} (hf : ∀ s x, OnlyChanges ps s (f s x)) (l : List α)
    (s : State) : OnlyChanges ps s (l.foldl f s) := by
  induction l generalizing s with
  | nil => exact .refl ps s
  | cons x l ih => exact (hf s x).trans (ih _)

theorem OnlyChanges.ite {ps : List Part} {s t u : State} {c : Prop} [Decidable c] (a : OnlyChanges ps s t) (b : OnlyChanges ps s u) :
    OnlyChanges ps s (if c then t else u) := by split <;> assumption

/-! ## Operations that are one update of the state -/

theorem asAdmitted_only (s : State) : OnlyChanges [.tally] s (asAdmitted s) :=
  fun p h => by cases p <;> first | exact absurd (by decide) h | rfl

theorem unplace_only (s : State) (d : Nat) : OnlyChanges [.ledger] s (unplace s d) :=
  fun p h => by cases p <;> first | exact absurd (by decide) h | rfl

theorem putPage_only (s : State) (loc : Nat) (p : FlashPage) (openRow : Bool) :
    OnlyChanges [.flash, .ledger] s (putPage s loc p openRow) :=
  fun p h => by cases p <;> first | exact absurd (by decide) h | rfl

theorem lineDone_only (s : State) (k : Nat) : OnlyChanges [.ledger] s (lineDone s k) :=
  fun p h => by cases p <;> first | exact absurd (by decide) h | rfl

theorem fdpEvent_only (s : State) (code handle rg : Nat) : OnlyChanges [.ledger] s (fdpEvent s code handle rg) :=
  fun p h => by cases p <;> first | exact absurd (by decide) h | rfl

theorem gangsChime_only (s : State) : OnlyChanges [.compute] s (gangsChime s) :=
  fun p h => by cases p <;> first | exact absurd (by decide) h | rfl

theorem sampleAll_only (s : State) : OnlyChanges [.sampled] s (sampleAll s) :=
  fun p h => by cases p <;> first | exact absurd (by decide) h | rfl

theorem drawBudget_only (s : State) : OnlyChanges [.power, .free] s (drawBudget s) :=
  fun p h => by cases p <;> first | exact absurd (by decide) h | rfl

theorem copyEdge_only (s : State) : OnlyChanges [.edge] s (copyEdge s) :=
  fun p h => by cases p <;> first | exact absurd (by decide) h | rfl

theorem peerMod_only (s : State) (m : Nat) (f : Peer → Peer) : OnlyChanges [.fabric] s (peerMod s m f) :=
  fun p h => by cases p <;> first | exact absurd (by decide) h | rfl

theorem origMod_only (s : State) (tag : Nat) (f : OrigTxn → OrigTxn) : OnlyChanges [.fabric] s (origMod s tag f) :=
  fun p h => by cases p <;> first | exact absurd (by decide) h | rfl

theorem markMissing_only (s : State) (parent member reason : Nat) :
    OnlyChanges [.sifters] s (markMissing s parent member reason) :=
  fun p h => by cases p <;> first | exact absurd (by decide) h | rfl

theorem noteResume_only (s : State) (parent member resume : Nat) :
    OnlyChanges [.sifters] s (noteResume s parent member resume) :=
  fun p h => by cases p <;> first | exact absurd (by decide) h | rfl

theorem remoteMod_only (s : State) (entry : Nat) (f : Remote → Remote) : OnlyChanges [.fabric] s (remoteMod s entry f) :=
  fun p h => by cases p <;> first | exact absurd (by decide) h | rfl

theorem stageMsg_only (s : State) (x : Txn) (addr : Nat) (data : Bytes) (stream : Option (Nat × Nat × Nat)) :
    OnlyChanges [.fabric] s (stageMsg s x addr data stream) :=
  fun p h => by cases p <;> first | exact absurd (by decide) h | rfl

theorem dropGroup_only (s : State) (x : Txn) : OnlyChanges [.fabric] s (dropGroup s x) :=
  fun p h => by cases p <;> first | exact absurd (by decide) h | rfl

theorem deliver_only (s : State) (entry : Nat) (a : FlashAddr) (v : Nat) : OnlyChanges [.flash] s (deliver s entry a v) :=
  fun p h => by cases p <;> first | exact absurd (by decide) h | rfl

theorem loseCw_only (s : State) (entry : Nat) (a : FlashAddr) : OnlyChanges [.flash] s (loseCw s entry a) :=
  fun p h => by cases p <;> first | exact absurd (by decide) h | rfl

theorem cancelCw_only (s : State) (entry : Nat) (a : FlashAddr) : OnlyChanges [.flash] s (cancelCw s entry a) :=
  fun p h => by cases p <;> first | exact absurd (by decide) h | rfl

theorem dieMod_only (s : State) (d : Nat) (f : Die → Die) : OnlyChanges [.flash] s (dieMod s d f) :=
  fun p h => by cases p <;> first | exact absurd (by decide) h | rfl

theorem mapSet_only (s : State) (iu : Nat) (e : MapEntry) : OnlyChanges [.ledger] s (mapSet s iu e) :=
  fun p h => by cases p <;> first | exact absurd (by decide) h | rfl

theorem checkpointSegment_only (s : State) (seg : Nat) : OnlyChanges [.ledger] s (checkpointSegment s seg) :=
  fun p h => by cases p <;> first | exact absurd (by decide) h | rfl

theorem bandMod_only (s : State) (k : Nat) (f : Band → Band) : OnlyChanges [.ledger] s (bandMod s k f) :=
  fun p h => by cases p <;> first | exact absurd (by decide) h | rfl

theorem accrueOne_only (s : State) (g : Nat) : OnlyChanges [.ledger] s (accrueOne s g) :=
  fun p h => by cases p <;> first | exact absurd (by decide) h | rfl

theorem lowerValid_only (s : State) (loc : Nat) : OnlyChanges [.ledger] s (lowerValid s loc) :=
  fun p h => by cases p <;> first | exact absurd (by decide) h | rfl

theorem coreMod_only (s : State) (unit : Nat) (f : Core → Core) : OnlyChanges [.compute] s (coreMod s unit f) :=
  fun p h => by cases p <;> first | exact absurd (by decide) h | rfl

theorem gangPut_only (s : State) (ref : GangRef) (g : Gang) : OnlyChanges [.compute] s (gangPut s ref g) :=
  fun p h => by cases p <;> first | exact absurd (by decide) h | rfl

theorem faultWith_only (s : State) (ref : GangRef) (g : Gang) (f : GangFault) :
    OnlyChanges [.compute] s (faultWith s ref g f) :=
  fun p h => by cases p <;> first | exact absurd (by decide) h | rfl

theorem faultGang_only (s : State) (ref : GangRef) (g : Gang) (code lanes addr detail : Nat) :
    OnlyChanges [.compute] s (faultGang s ref g code lanes addr detail) :=
  fun p h => by cases p <;> first | exact absurd (by decide) h | rfl

theorem releaseBarrier_only (s : State) (inv : Nat) (b : Barrier) : OnlyChanges [.compute] s (releaseBarrier s inv b) :=
  fun p h => by cases p <;> first | exact absurd (by decide) h | rfl

theorem verbEnds_only (s : State) (die verb : Nat) (r : VerbResult) (data : List Nat) :
    OnlyChanges [.out] s (verbEnds s die verb r data) :=
  fun p h => by cases p <;> first | exact absurd (by decide) h | rfl

theorem ladderMod_only (s : State) (f : List Ladder → List Ladder) : OnlyChanges [.flash] s (ladderMod s f) :=
  fun p h => by cases p <;> first | exact absurd (by decide) h | rfl

theorem ladderPut_only (s : State) (l : Ladder) : OnlyChanges [.flash] s (ladderPut s l) :=
  fun p h => by cases p <;> first | exact absurd (by decide) h | rfl

theorem ladderDel_only (s : State) (entry : Nat) (a : FlashAddr) : OnlyChanges [.flash] s (ladderDel s entry a) :=
  fun p h => by cases p <;> first | exact absurd (by decide) h | rfl

theorem noteSlots_only (s : State) : OnlyChanges [.ledger] s (noteSlots s) :=
  fun p h => by cases p <;> first | exact absurd (by decide) h | rfl

theorem slmWrite_only (s : State) (a : Nat) (b : Bytes) : OnlyChanges [.compute] s (slmWrite s a b) :=
  fun p h => by cases p <;> first | exact absurd (by decide) h | rfl

theorem ringInit_only (s : State) (w : Nat) : OnlyChanges [.compute] s (ringInit s w) :=
  fun p h => by cases p <;> first | exact absurd (by decide) h | rfl

theorem programMod_only (s : State) (p : Nat) (f : Program → Program) : OnlyChanges [.compute] s (programMod s p f) :=
  fun p h => by cases p <;> first | exact absurd (by decide) h | rfl

theorem sessionMod_only (s : State) (p : Nat) (f : Session → Session) : OnlyChanges [.fabric] s (sessionMod s p f) :=
  fun p h => by cases p <;> first | exact absurd (by decide) h | rfl

theorem nextSession_only (s : State) (p : Nat) : OnlyChanges [.keys] s (nextSession s p) :=
  fun p h => by cases p <;> first | exact absurd (by decide) h | rfl

theorem startCare_only (s : State) (job k : Nat) : OnlyChanges [.tally, .ledger] s (startCare s job k) :=
  fun p h => by cases p <;> first | exact absurd (by decide) h | rfl

theorem dropRead_only (s : State) (j : ReadJob) : OnlyChanges [.flash] s (dropRead s j) :=
  fun p h => by cases p <;> first | exact absurd (by decide) h | rfl

theorem padBand_only (s : State) (k : Nat) (dest : BandSt) : OnlyChanges [.ledger] s (padBand s k dest) :=
  fun p h => by cases p <;> first | exact absurd (by decide) h | rfl

theorem dropJob_only (s : State) (entry : Nat) : OnlyChanges [.ledger] s (dropJob s entry) :=
  fun p h => by cases p <;> first | exact absurd (by decide) h | rfl

theorem dropPages_only (s : State) (die block : Nat) : OnlyChanges [.flash, .ledger] s (dropPages s die block) :=
  fun p h => by cases p <;> first | exact absurd (by decide) h | rfl

theorem newKey_only (s : State) (nsid : Nat) : OnlyChanges [.keys] s (newKey s nsid) :=
  fun p h => by cases p <;> first | exact absurd (by decide) h | rfl

theorem sendTime_only (s : State) (p kind : Nat) (data : List Nat) : OnlyChanges [.fabric] s (sendTime s p kind data) :=
  fun p h => by cases p <;> first | exact absurd (by decide) h | rfl

theorem directMod_only (s : State) (entry : Nat) (f : Direct → Direct) : OnlyChanges [.compute] s (directMod s entry f) :=
  fun p h => by cases p <;> first | exact absurd (by decide) h | rfl

theorem loomMod_only (s : State) (l : Nat) (f : Loom → Loom) : OnlyChanges [.compute] s (loomMod s l f) :=
  fun p h => by cases p <;> first | exact absurd (by decide) h | rfl

theorem putPlan_only (s : State) (w : LoomWork) (l : Nat) : OnlyChanges [.tally, .compute] s (putPlan s w l) :=
  fun p h => by cases p <;> first | exact absurd (by decide) h | rfl

theorem sendMilny_only (s : State) (ty : Nat) (payload : Bytes) : OnlyChanges [.out] s (sendMilny s ty payload) :=
  fun p h => by cases p <;> first | exact absurd (by decide) h | rfl

theorem odSet_only (s : State) (idx sub v : Nat) : OnlyChanges [.od] s (odSet s idx sub v) :=
  fun p h => by cases p <;> first | exact absurd (by decide) h | rfl

theorem emit_only (s : State) (o : Out) : OnlyChanges [.out] s (emit s o) :=
  fun p h => by cases p <;> first | exact absurd (by decide) h | rfl

theorem unitMod_only (s : State) (u : Nat) (f : UnitSt → UnitSt) : OnlyChanges [.units] s (unitMod s u f) :=
  fun p h => by cases p <;> first | exact absurd (by decide) h | rfl

theorem queueMsg_only (s : State) (p : Nat) (onRing : Bool) (x : Txn) (type status : Nat) (data : List Nat) :
    OnlyChanges [.fabric] s (queueMsg s p onRing x type status data) :=
  fun p h => by cases p <;> first | exact absurd (by decide) h | rfl

theorem entryMod_only (s : State) (i : Nat) (f : Entry → Entry) : OnlyChanges [.tally] s (entryMod s i f) :=
  fun p h => by cases p <;> first | exact absurd (by decide) h | rfl

theorem setState_only (s : State) (i : Nat) (st : EState) : OnlyChanges [.tally] s (setState s i st) :=
  fun p h => by cases p <;> first | exact absurd (by decide) h | rfl

theorem replan_only (s : State) (entry : Nat) (st : EState) : OnlyChanges [.tally] s (replan s entry st) :=
  fun p h => by cases p <;> first | exact absurd (by decide) h | rfl

theorem charge_only (s : State) (i : Nat) : OnlyChanges [.power] s (charge s i) :=
  fun p h => by cases p <;> first | exact absurd (by decide) h | rfl

theorem await_only (s : State) (r : Request) : OnlyChanges [.tally] s (await s r) :=
  fun p h => by cases p <;> first | exact absurd (by decide) h | rfl

theorem dropWork_only (s : State) (gone : List Nat) :
    OnlyChanges [.tally, .host, .flash, .ledger, .compute, .streams, .sifters, .fabric] s (dropWork s gone) :=
  fun p h => by cases p <;> first | exact absurd (by decide) h | rfl

theorem freeFamily_only (s : State) (i : Nat) :
    OnlyChanges [.tally, .host, .flash, .ledger, .compute, .streams, .sifters, .fabric] s (freeFamily s i) :=
  fun p h => by cases p <;> first | exact absurd (by decide) h | rfl

theorem unwait_only (s : State) (sq cid : Nat) : OnlyChanges [.tally] s (unwait s sq cid) :=
  fun p h => by cases p <;> first | exact absurd (by decide) h | rfl

theorem sqMod_only (s : State) (sq : Nat) (f : Sq → Sq) : OnlyChanges [.host] s (sqMod s sq f) :=
  fun p h => by cases p <;> first | exact absurd (by decide) h | rfl

theorem queuePosting_only (s : State) (p : Posting) : OnlyChanges [.host] s (queuePosting s p) :=
  fun p h => by cases p <;> first | exact absurd (by decide) h | rfl

theorem conclude_only (s : State) (i sq cid : Nat) (e : Entry) (st : Status) (dw0 dw1 : Nat) (data : List Nat) (dma : Bool) :
    OnlyChanges [.tally, .host] s (conclude s i sq cid e st dw0 dw1 data dma) :=
  fun p h => by cases p <;> first | exact absurd (by decide) h | rfl

theorem transition_only (s : State) (dst : DevState) (cause : Nat) (edge : Bool) :
    OnlyChanges [.dev] s (transition s dst cause edge) :=
  fun p h => by cases p <;> first | exact absurd (by decide) h | rfl

theorem drbg_only (s : State) (n : Nat) : OnlyChanges [.keys] s (drbg s n) :=
  fun p h => by cases p <;> first | exact absurd (by decide) h | rfl

theorem holdInternal_only (s : State) : OnlyChanges [.tally] s (holdInternal s) :=
  fun p h => by cases p <;> first | exact absurd (by decide) h | rfl

theorem resumeInternal_only (s : State) : OnlyChanges [.tally] s (resumeInternal s) :=
  fun p h => by cases p <;> first | exact absurd (by decide) h | rfl

theorem askPage_only (s : State) (use : ReadUse) (entry loc : Nat) : OnlyChanges [.tally] s (askPage s use entry loc) :=
  fun p h => by cases p <;> first | exact absurd (by decide) h | rfl

theorem crossPages_only (n : Nat) (s : State) (d : Nat) : OnlyChanges [.flash] s (crossPages n s d) :=
  fun p h => by cases p <;> first | exact absurd (by decide) h | rfl

theorem gangsMod_only (s : State) (inv : Nat) (f : Gang → Gang) : OnlyChanges [.compute] s (gangsMod s inv f) :=
  fun p h => by cases p <;> first | exact absurd (by decide) h | rfl

theorem invMod_only (s : State) (inv : Nat) (f : Invocation → Invocation) : OnlyChanges [.compute] s (invMod s inv f) :=
  fun p h => by cases p <;> first | exact absurd (by decide) h | rfl

theorem dropHostWork_only (s : State) :
    OnlyChanges [.tally, .host, .flash, .ledger, .compute, .streams, .sifters, .fabric] s (dropHostWork s) :=
  fun p h => by cases p <;> first | exact absurd (by decide) h | rfl

theorem stopWork_only (s : State) :
    OnlyChanges [.tally, .host, .flash, .ledger, .compute, .streams, .sifters, .fabric] s (stopWork s) :=
  fun p h => by cases p <;> first | exact absurd (by decide) h | rfl

theorem policiesReset_only (s : State) : OnlyChanges [.od] s (policiesReset s) :=
  fun p h => by cases p <;> first | exact absurd (by decide) h | rfl

theorem linkDown_only (s : State) : OnlyChanges [.host] s (linkDown s) :=
  fun p h => by cases p <;> first | exact absurd (by decide) h | rfl

theorem portsDown_only (s : State) : OnlyChanges [.fabric] s (portsDown s) :=
  fun p h => by cases p <;> first | exact absurd (by decide) h | rfl

theorem releaseHeld_only (s : State) : OnlyChanges [.tally] s (releaseHeld s) :=
  fun p h => by cases p <;> first | exact absurd (by decide) h | rfl

theorem searchMod_only (s : State) (entry : Nat) (f : Search → Search) : OnlyChanges [.sifters] s (searchMod s entry f) :=
  fun p h => by cases p <;> first | exact absurd (by decide) h | rfl

theorem contextMod_only (s : State) (search entry : Nat) (f : Context → Context) :
    OnlyChanges [.sifters] s (contextMod s search entry f) :=
  fun p h => by cases p <;> first | exact absurd (by decide) h | rfl

theorem askContext_only (search : Nat) (s : State) (_k : Nat) : OnlyChanges [.tally] s (askContext search s _k) :=
  fun p h => by cases p <;> first | exact absurd (by decide) h | rfl

theorem mountAsked_only (s : State) (i slot slba : Nat) (resident : Bool) :
    OnlyChanges [.sifters] s (mountAsked s i slot slba resident) :=
  fun p h => by cases p <;> first | exact absurd (by decide) h | rfl

theorem addSearch_only (s : State) (q : Search) : OnlyChanges [.tally, .sifters] s (addSearch s q) :=
  fun p h => by cases p <;> first | exact absurd (by decide) h | rfl

theorem mergeReply_only (s : State) (entry member : Nat) (data : Bytes) :
    OnlyChanges [.sifters] s (mergeReply s entry member data) :=
  fun p h => by cases p <;> first | exact absurd (by decide) h | rfl

theorem sendAcy_only (s : State) (payload : Bytes) : OnlyChanges [.out] s (sendAcy s payload) :=
  fun p h => by cases p <;> first | exact absurd (by decide) h | rfl

theorem grantPen_only (s : State) (m : Master) : OnlyChanges [.dev, .pen] s (grantPen s m) :=
  fun p h => by cases p <;> first | exact absurd (by decide) h | rfl

theorem slotMod_only (s : State) (f : Nat × StickySlot → StickySlot) : OnlyChanges [.sticky] s (slotMod s f) :=
  fun p h => by cases p <;> first | exact absurd (by decide) h | rfl

theorem addChunk_only (s : State) (sid : Nat) (st : Stream) (carrier gangs rsid viewAt : Nat) (sliceAt : Option Nat) (buf : Bytes) :
    OnlyChanges [.tally, .streams] s (addChunk s sid st carrier gangs rsid viewAt sliceAt buf) :=
  fun p h => by cases p <;> first | exact absurd (by decide) h | rfl

theorem addPark_only (s : State) (sid : Nat) (st : Stream) (p : Park) (to_ : StreamSt) :
    OnlyChanges [.tally, .streams] s (addPark s sid st p to_) :=
  fun p h => by cases p <;> first | exact absurd (by decide) h | rfl

theorem streamPut_only (s : State) (sid : Nat) (st : Stream) : OnlyChanges [.streams] s (streamPut s sid st) :=
  fun p h => by cases p <;> first | exact absurd (by decide) h | rfl

theorem streamDrop_only (s : State) (sid : Nat) : OnlyChanges [.streams] s (streamDrop s sid) :=
  fun p h => by cases p <;> first | exact absurd (by decide) h | rfl

theorem commitEnded_only (s : State) : OnlyChanges [.streams] s (commitEnded s) :=
  fun p h => by cases p <;> first | exact absurd (by decide) h | rfl

theorem releaseTickets_only (s : State) (inv : Nat) (ns : List Nat) : OnlyChanges [.compute] s (releaseTickets s inv ns) :=
  fun p h => by cases p <;> first | exact absurd (by decide) h | rfl

theorem portMod_only (s : State) (p : Nat) (f : Port → Port) : OnlyChanges [.fabric] s (portMod s p f) :=
  fun p h => by cases p <;> first | exact absurd (by decide) h | rfl

theorem raiseFloors_only (s : State) (security : List Nat) : OnlyChanges [.update] s (raiseFloors s security) :=
  fun p h => by cases p <;> first | exact absurd (by decide) h | rfl

theorem emptyCache_only (s : State) : OnlyChanges [.compute] s (emptyCache s) :=
  fun p h => by cases p <;> first | exact absurd (by decide) h | rfl

theorem holdEntries_only (s : State) : OnlyChanges [.tally] s (holdEntries s) :=
  fun p h => by cases p <;> first | exact absurd (by decide) h | rfl

theorem resumeEntries_only (s : State) : OnlyChanges [.tally] s (resumeEntries s) :=
  fun p h => by cases p <;> first | exact absurd (by decide) h | rfl

theorem suspendErases_only (s : State) : OnlyChanges [.flash] s (suspendErases s) :=
  fun p h => by cases p <;> first | exact absurd (by decide) h | rfl

/-! ## Records, counters, events -/

theorem raiseRecord_only (s : State) (r : Record) : OnlyChanges [.sticky] s (raiseRecord s r) := by
  unfold raiseRecord
  dsimp only
  split
  · split <;> exact fun p h => by cases p <;> first | exact absurd (by decide) h | rfl
  · exact fun p h => by cases p <;> first | exact absurd (by decide) h | rfl

theorem count_only (s : State) (idx sub n : Nat) : OnlyChanges [.counters, .sticky] s (count s idx sub n) := by
  have put (v : Nat) : OnlyChanges [.counters, .sticky] s { s with counters := tput s.counters (odKey idx sub) v } :=
    fun p h => by cases p <;> first | exact absurd (by decide) h | rfl
  have rec_ (t : State) (r : Record) : OnlyChanges [.counters, .sticky] t (raiseRecord t r) := (raiseRecord_only t r).mono (by decide)
  unfold count
  split
  · exact .refl _ s
  · split
    · exact .refl _ s
    · exact put _
    · dsimp only; split
      · exact (put _).trans (rec_ _ _)
      · exact put _
    · dsimp only; split
      · exact (put _).trans (rec_ _ _)
      · exact put _

theorem raiseEvent_only (s : State) (info : Nat) : OnlyChanges [.host] s (raiseEvent s info) := by
  unfold raiseEvent
  split
  · exact fun p h => by cases p <;> first | exact absurd (by decide) h | rfl
  · exact .refl _ s

theorem warnHost_only (s : State) (k info : Nat) : OnlyChanges [.host] s (warnHost s k info) := by
  have set (w : Nat) : OnlyChanges [.host] s { s with host := { s.host with warning := w } } :=
    fun p h => by cases p <;> first | exact absurd (by decide) h | rfl
  unfold warnHost
  split
  · exact .refl _ s
  · exact (set _).trans (raiseEvent_only _ _)

theorem bellLog_only (s : State) (code unit old new : Nat) (detail : Int) : OnlyChanges [.bell] s (bellLog s code unit old new detail) := by
  unfold bellLog
  exact fun p h => by cases p <;> first | exact absurd (by decide) h | rfl

theorem drawFree_only (s : State) : OnlyChanges [.free] s (drawFree s).2 :=
  fun p h => by cases p <;> first | exact absurd (by decide) h | rfl

/-! ## The tally -/

theorem markDispatched_only (n : Nat) (s : State) (i : Nat) : OnlyChanges [.tally] s (markDispatched s n i) := by
  induction n generalizing s i with
  | zero => exact .refl _ s
  | succ n ih =>
    unfold markDispatched
    split
    · exact .refl _ s
    · dsimp only
      split
      · exact entryMod_only s i _
      · exact (entryMod_only s i _).trans (ih _ _)

theorem setRunning_only (s : State) (i : Nat) : OnlyChanges [.tally] s (setRunning s i) :=
  (entryMod_only s i _).trans (markDispatched_only 4 _ i)

theorem admitEntry_only (s : State) (r : Request) : OnlyChanges [.tally] s (admitEntry s r).2 :=
  fun p h => by cases p <;> first | exact absurd (by decide) h | rfl

theorem defer_only (s : State) (i : Nat) : OnlyChanges [.power, .counters, .sticky] s (defer s i) := by
  have set (l : List Nat) : OnlyChanges [.power, .counters, .sticky] s { s with power := { s.power with deferred := l } } :=
    fun p h => by cases p <;> first | exact absurd (by decide) h | rfl
  unfold defer
  split
  · exact (set _).trans ((count_only _ _ _ _).mono (by decide))
  · exact .refl _ s

/-! ## Completions -/

theorem conclude_completion (s : State) (i sq cid : Nat) (e : Entry) (st : Status) (dw0 dw1 : Nat) (data : List Nat) (dma : Bool) :
    OnlyChanges completionParts s (conclude s i sq cid e st dw0 dw1 data dma) := (conclude_only s i sq cid e st dw0 dw1 data dma).mono (by decide)

theorem freeFamily_completion (s : State) (i : Nat) : OnlyChanges completionParts s (freeFamily s i) := (freeFamily_only s i).mono (by decide)

/-- The end of a request reaches its entry, what stands under it and the line of completions, and nothing else. -/
theorem finishData_only (s : State) (i : Nat) (st : Status) (dw0 dw1 : Nat) (data : List Nat) (dma : Bool) :
    OnlyChanges completionParts s (finishData s i st dw0 dw1 data dma) := by
  unfold finishData
  split
  · exact .refl _ s
  · split
    · split
      · exact .refl _ s
      · exact (freeFamily_completion s i).trans (conclude_completion _ _ _ _ _ _ _ _ _ _)
    · exact freeFamily_completion s i

theorem finish_only (s : State) (i : Nat) (st : Status) (dw0 dw1 : Nat) : OnlyChanges completionParts s (finish s i st dw0 dw1) :=
  finishData_only s i st dw0 dw1 [] false

theorem finishStopping_only (s : State) (i : Nat) (st : Status) (dw0 dw1 : Nat) (data : List Nat) :
    OnlyChanges completionParts s (finishStopping s i st dw0 dw1 data) := by
  unfold finishStopping
  split
  · exact .refl _ s
  · split
    · split
      · exact .refl _ s
      · exact conclude_completion _ _ _ _ _ _ _ _ _ _
    · exact .refl _ s

/-- The end of a host command puts one completion in line. -/
theorem finishData_line (s : State) (i sq cid : Nat) (e : Entry) (st : Status) (dw0 dw1 : Nat) (data : List Nat) (dma : Bool)
    (he : entryAt s i = some e) (ho : e.origin = .host sq cid) (hr : e.state ≠ .replying) :
    finishData s i st dw0 dw1 data dma = conclude (freeFamily s i) i sq cid e st dw0 dw1 data dma := by
  simp [finishData, he, ho, hr]

theorem finish_line (s : State) (i sq cid : Nat) (e : Entry) (st : Status) (dw0 dw1 : Nat) (he : entryAt s i = some e)
    (ho : e.origin = .host sq cid) (hr : e.state ≠ .replying) :
    finish s i st dw0 dw1 = conclude (freeFamily s i) i sq cid e st dw0 dw1 [] false := finishData_line s i sq cid e st dw0 dw1 [] false he ho hr

/-! ## Messages -/

theorem routeMsg_only (s : State) (via : Option Nat) (x : Txn) (type status : Nat) (data : List Nat) :
    OnlyChanges [.fabric, .counters, .sticky] s (routeMsg s via x type status data) := by
  unfold routeMsg
  split
  · exact (queueMsg_only _ _ _ _ _ _ _).mono (by decide)
  · exact (count_only _ _ _ _).mono (by decide)

theorem sendMsg_only (s : State) (x : Txn) (type status : Nat) (data : List Nat) :
    OnlyChanges [.fabric, .counters, .sticky] s (sendMsg s x type status data) := routeMsg_only s none x type status data

theorem sendReply_only (s : State) (x : Txn) (type status bell : Nat) (data : List Nat) :
    OnlyChanges [.fabric, .counters, .sticky] s (sendReply s x type status bell data) := sendMsg_only _ _ _ _ _

theorem replyTarget_only (s : State) (t : TargetTxn) (status : Nat) (data : Bytes) (final : Bool) :
    OnlyChanges [.fabric, .counters, .sticky] s (replyTarget s t status data final) :=
  (sendReply_only s t.x t.type status 0 data).trans (fun p h => by cases p <;> first | exact absurd (by decide) h | rfl)

/-- What ends a request with a failing status, whoever asked for it. -/
theorem failRequest_only (s : State) (i : Nat) (st : Status) (dw0 : Nat) :
    OnlyChanges (completionParts ++ [.counters, .sticky]) s (failRequest s i st dw0) := by
  have free (t : State) (r : Nat) : OnlyChanges (completionParts ++ [.counters, .sticky]) t (freeFamily t r) :=
    (freeFamily_completion t r).mono (by decide)
  unfold failRequest
  dsimp only
  split
  · exact .refl _ s
  · split
    · split
      · split
        · exact free _ _
        · exact ((replyTarget_only _ _ _ _ _).mono (by decide)).trans (free _ _)
      · exact free _ _
    · exact (finish_only _ _ _ _ _).mono (by decide)

/-! ## The pen -/

theorem releasePen_only (s : State) : OnlyChanges [.pen, .dev] s (releasePen s) := by
  unfold releasePen
  split
  · exact .refl _ s
  · exact fun p h => by cases p <;> first | exact absurd (by decide) h | rfl

theorem releasePenOf_only (s : State) (m : Master) : OnlyChanges [.pen, .dev] s (releasePenOf s m) := by
  unfold releasePenOf
  split
  · exact releasePen_only s
  · exact .refl _ s

/-! ## The guild -/

theorem guildLogWrite_only (s : State) (code port old new member : Nat) (detail : Int) :
    OnlyChanges [.fabric] s (guildLogWrite s code port old new member detail) := by
  unfold guildLogWrite
  exact fun p h => by cases p <;> first | exact absurd (by decide) h | rfl

theorem setMember_only (s : State) (m : MemberSt) : OnlyChanges [.fabric, .host] s (setMember s m) := by
  have set : OnlyChanges [.fabric, .host] s { s with fabric := { s.fabric with member := m } } :=
    fun p h => by cases p <;> first | exact absurd (by decide) h | rfl
  unfold setMember
  split
  · exact .refl _ s
  · exact set.trans (((guildLogWrite_only _ _ _ _ _ _ _).mono (by decide)).trans ((raiseEvent_only _ _).mono (by decide)))

/-! ## Ports -/

@[simp] theorem portOf_portMod_same (s : State) (p : Nat) (f : Port → Port) : portOf (portMod s p f) p = f (portOf s p) := by
  simp [portOf, portMod, tmod]

theorem portOf_portMod_other (s : State) (p q : Nat) (f : Port → Port) (h : q ≠ p) : portOf (portMod s p f) q = portOf s q := by
  simp [portOf, portMod, tmod, tgetD_tput_other _ _ _ _ _ h]

/-- A message that is queued changes what its port has to send, and nothing else of any port. -/
theorem portOf_queueMsg (s : State) (p q : Nat) (r : Bool) (x : Txn) (type status : Nat) (data : List Nat) :
    { portOf (queueMsg s p r x type status data) q with tx := (portOf s q).tx } = portOf s q := by
  unfold queueMsg
  by_cases h : q = p
  · subst h; simp
  · simp [portOf_portMod_other _ _ _ _ h]

theorem portSt_queueMsg (s : State) (p q : Nat) (r : Bool) (x : Txn) (type status : Nat) (data : List Nat) :
    (portOf (queueMsg s p r x type status data) q).st = (portOf s q).st := by
  have e := congrArg Port.st (portOf_queueMsg s p q r x type status data)
  exact e

/-- A CONTROL message waits on its port; only before the session is agreed does it go out at once. -/
theorem sendControl_only (s : State) (p : Nat) (k : Control) (data : List Nat) :
    OnlyChanges [.fabric, .out] s (sendControl s p k data) := by
  have send (o : Out) : OnlyChanges [.fabric, .out] s (emit s o) := (emit_only s o).mono (by decide)
  unfold sendControl sendPart
  dsimp only
  split
  · exact send _
  · exact (queueMsg_only _ _ _ _ _ _ _).mono (by decide)

theorem sendControl_queued (s : State) (p : Nat) (k : Control) (data : List Nat) (h : (portOf s p).st ≠ .securing) :
    ∃ x, sendControl s p k data = queueMsg s p false x 8 0 data ∧ x.addr = k.code := by
  refine ⟨_, by unfold sendControl sendPart; rw [if_neg h], rfl⟩

/-- A flood queues messages and does nothing else. -/
theorem flood_only (s : State) (except : Option Nat) (k : Control) (data : List Nat) : OnlyChanges [.fabric] s (flood s except k data) := by
  have go : ∀ (l : List Nat) (t : State), (∀ p ∈ l, (portOf t p).st ≠ .securing) →
      OnlyChanges [.fabric] t (l.foldl (fun s p => sendControl s p k data) t) := by
    intro l
    induction l with
    | nil => exact fun t _ => .refl _ t
    | cons p l ih =>
      intro t h
      obtain ⟨x, e, -⟩ := sendControl_queued t p k data (h p (List.mem_cons_self ..))
      simp only [List.foldl_cons, e]
      refine (queueMsg_only _ _ _ _ _ _ _).trans (ih _ (fun q hq => ?_))
      rw [portSt_queueMsg]
      exact h q (List.mem_cons_of_mem _ hq)
  refine go _ s (fun p hp => ?_)
  have up : portUp s p = true := (List.mem_filter.mp (List.mem_filter.mp hp).1).2
  simp only [portUp, decide_eq_true_eq] at up
  rw [up]
  decide

end Sys2Proof.Machine
end

