-- ==== Sys2Proof/Laws/Gangs.lean ====
section
/-!
SUPPORT. What the issue of one gang instruction changes: the gang in its slot, the core's issue counter, and nothing else.
-/

namespace Sys2Proof.Machine

/-- Registers of other lanes and other numbers stand when one is written. -/
theorem regAt_regPut (g : Gang) {i j q r : Nat} (v : Word) (hq : q < 256) (hr : r < 256) :
    regAt (regPut g i r v) j q = if j = i ∧ q = r then v else regAt g j q := by
  unfold regAt regPut tgetD
  split
  · next h => obtain ⟨rfl, rfl⟩ := h; simp [tget_tput_same]
  · next h =>
    have : j * 256 + q ≠ i * 256 + r := by omega
    simp [tget_tput_other _ _ _ _ this]

/-- Writing one register of each lane of a list without repeats. -/
theorem regAt_fold (ls : List Nat) (g : Gang) (rd : Nat) (f : Nat → Word) (hrd : rd < 256) (j q : Nat) (hq : q < 256) :
    regAt (ls.foldl (fun h i => regPut h i rd (f i)) g) j q = if j ∈ ls ∧ q = rd then f j else regAt g j q := by
  induction ls generalizing g with
  | nil => simp
  | cons i ls ih =>
    simp only [List.foldl_cons, ih, regAt_regPut g (f i) hq hrd, List.mem_cons]
    by_cases h1 : j ∈ ls <;> by_cases h2 : q = rd <;> by_cases h3 : j = i <;> simp_all

/-- Writing registers changes nothing else of a gang. -/
theorem regFold_frame (ls : List Nat) (g : Gang) (rd : Nat) (f : Nat → Word) :
    ∃ r, ls.foldl (fun h i => regPut h i rd (f i)) g = { g with regs := r } := by
  induction ls generalizing g with
  | nil => exact ⟨g.regs, rfl⟩
  | cons i ls ih =>
    obtain ⟨r, hr⟩ := ih (regPut g i rd (f i))
    exact ⟨r, by rw [List.foldl_cons, hr]; rfl⟩

/-- The counters of lanes that go on grow by one, once each; the others stand. -/
theorem pcFold (ls : List Nat) (hn : ls.Nodup) (t : Table Nat) (i : Nat) :
    tgetD (ls.foldl (fun t i => tput t i (tgetD t i 0 + 1)) t) i 0 = if i ∈ ls then tgetD t i 0 + 1 else tgetD t i 0 := by
  induction ls generalizing t with
  | nil => simp
  | cons k ls ih =>
    obtain ⟨hk, hn⟩ := List.nodup_cons.mp hn
    simp only [List.foldl_cons, ih hn, List.mem_cons]
    by_cases h : i = k
    · subst h; simp [hk, tgetD, tget_tput_same]
    · simp [h, tgetD, tget_tput_other _ _ _ _ h]

theorem lanesOf_nodup (mask : Nat) : (lanesOf mask).Nodup := List.Nodup.filter _ List.nodup_range

/-- A gang put into its slot is found there. -/
theorem gangAt_gangPut_same (s : State) (ref : GangRef) (g : Gang) (h : 24 ≤ ref.unit ∧ ref.unit ≤ 71) :
    gangAt (gangPut s ref g) ref = some g := by
  simp [gangAt, h, gangPut, coreMod, coreOf, tmod, tgetD, tget_tput_same]

/-- A gang put into its slot leaves every other slot, the partitions and local memory as they were. -/
theorem gangPut_onlyGang (s : State) (ref : GangRef) (g : Gang) (h : 24 ≤ ref.unit ∧ ref.unit ≤ 71) :
    OnlyGang s (gangPut s ref g) ref := by
  refine ⟨?_, ?_⟩
  · intro r hr
    simp only [gangAt]
    split
    · next hu =>
      by_cases h1 : r.unit = ref.unit
      · have : r.slot ≠ ref.slot := fun hs => hr (by cases r; cases ref; simp_all)
        simp [gangPut, coreMod, coreOf, tmod, tgetD, h1, tget_tput_same, tget_tput_other _ _ _ _ this]
      · have : r.unit - 24 ≠ ref.unit - 24 := by omega
        simp [gangPut, coreMod, coreOf, tmod, tgetD, tget_tput_other _ _ _ _ this]
    · rfl
  · intro u
    by_cases h1 : u - 24 = ref.unit - 24
    · simp [gangPut, coreMod, coreOf, tmod, tgetD, h1, tget_tput_same]
    · simp [gangPut, coreMod, coreOf, tmod, tgetD, tget_tput_other _ _ _ _ h1]

/-- A gang that issues sits on a core. -/
theorem issuing_unit {s : State} {ref : GangRef} {x : Invocation × Gang × Nat} (h : issuing s ref = some x) :
    24 ≤ ref.unit ∧ ref.unit ≤ 71 := by
  by_contra hu
  simp [issuing, gangAt, hu] at h

/-- What a gang that meets its turn does. -/
theorem gangStep_turn {s : State} {ref : GangRef} {v : Invocation} {g : Gang} {mask : Nat} (T : GangTurn s ref v g mask)
    (act : State → Invocation → Gang → Nat → State) :
    gangStep s ref true act = act (count s (0x6100 + ref.unit) 6 1) v g mask := by
  have := T.inside
  simp [gangStep, T.issues, show ¬ instrCount s v.program ≤ lanePc g (lowLane mask) by omega]

/-- Counting leaves the compute state as it was. -/
theorem count_compute (s : State) (idx sub n : Nat) : (count s idx sub n).compute = s.compute :=
  count_only s idx sub n .compute (by decide)

/-- What becomes of the gangs when one is put back and the core's issue is counted. -/
theorem gangAt_count (s : State) (idx sub n : Nat) (ref : GangRef) : gangAt (count s idx sub n) ref = gangAt s ref := by
  simp [gangAt, coreOf, count_compute]

/-- The frame of an issue that puts one gang back. -/
theorem gangPut_gangFrame (s : State) (ref : GangRef) (g : Gang) (idx sub n : Nat) (h : 24 ≤ ref.unit ∧ ref.unit ≤ 71) :
    GangFrame s (gangPut (count s idx sub n) ref g) ref := by
  obtain ⟨hg, hc⟩ := gangPut_onlyGang (count s idx sub n) ref g h
  refine ⟨⟨fun r hr => (hg r hr).trans (gangAt_count ..), fun u => ?_⟩, ?_, ?_⟩
  · simpa [coreOf, count_compute] using hc u
  · simp [OnlyCores, gangPut, coreMod, count_compute]
  · exact ((count_only s idx sub n).mono (by decide)).trans ((gangPut_only _ ref g).mono (by decide))

/-- What every instruction that writes one register of its lanes does. -/
theorem gangWrites_of {c : Instr} {s : State} {ref : GangRef} {v : Invocation} {g : Gang} {mask rd : Nat}
    (T : GangTurn s ref v g mask) (hrd : rd < 256) {f : Invocation → Gang → Nat → Nat → Word}
    (hc : exec c s = .next (gangWrite s ref true rd f)) : GangWrites c s ref g mask rd (f v g mask) := by
  have hu := issuing_unit T.issues
  rw [gangWrite, gangStep_turn T] at hc
  refine ⟨_, _, hc, gangAt_gangPut_same _ _ _ hu, ?_, ?_, ?_, ?_, gangPut_gangFrame s ref _ _ _ _ hu⟩
  · intro i hi
    exact (regAt_fold _ g rd (f v g mask) hrd i rd hrd).trans (by simp [hi])
  · intro i q _ hq hor
    refine (regAt_fold _ g rd (f v g mask) hrd i q hq).trans (if_neg ?_)
    rcases hor with h | h <;> simp [h]
  · intro i
    obtain ⟨r, hr⟩ := regFold_frame (lanesOf mask) g rd (f v g mask)
    simp only [advance, lanePc, hr]
    exact pcFold _ (lanesOf_nodup mask) g.pcs i
  · obtain ⟨r, hr⟩ := regFold_frame (lanesOf mask) g rd (f v g mask)
    simp only [advance, hr]

end Sys2Proof.Machine
end

