-- ==== Sys2Proof/Laws/State.lean ====
section
/-!
SUPPORT. What the primitive updates of the state change and what they leave, field by field, true by definition.
-/

namespace Sys2Proof.Machine

@[simp] theorem emit_frame (s : State) (o : Out) :
    ((emit s o).ident = s.ident ∧ (emit s o).od = s.od ∧ (emit s o).tally = s.tally ∧ (emit s o).units = s.units) ∧
    ((emit s o).dev = s.dev ∧ (emit s o).pen = s.pen ∧ (emit s o).steward = s.steward ∧ (emit s o).bell = s.bell) ∧
    ((emit s o).host = s.host ∧ (emit s o).sticky = s.sticky ∧ (emit s o).counters = s.counters ∧
    (emit s o).freeze = s.freeze) ∧ ((emit s o).flash = s.flash ∧ (emit s o).ledger = s.ledger) ∧
    ((emit s o).compute = s.compute ∧ (emit s o).streams = s.streams ∧ (emit s o).sifters = s.sifters) ∧
    ((emit s o).fabric = s.fabric ∧ (emit s o).milny = s.milny) ∧ ((emit s o).power = s.power ∧ (emit s o).update = s.update ∧
    (emit s o).keys = s.keys ∧ (emit s o).rails = s.rails) ∧ (emit s o).sampled = s.sampled ∧ (emit s o).edge = s.edge ∧
    (emit s o).free = s.free ∧ (emit s o).pending = s.pending :=
  by and_intros <;> rfl

@[simp] theorem emit_out (s : State) (o : Out) : (emit s o).out = s.out ++ [o] := rfl

@[simp] theorem entryMod_frame (s : State) (i : Nat) (f : Entry → Entry) :
    ((entryMod s i f).ident = s.ident ∧ (entryMod s i f).od = s.od ∧ (entryMod s i f).units = s.units) ∧
    ((entryMod s i f).dev = s.dev ∧ (entryMod s i f).pen = s.pen ∧ (entryMod s i f).steward = s.steward ∧
    (entryMod s i f).bell = s.bell) ∧ ((entryMod s i f).host = s.host ∧ (entryMod s i f).sticky = s.sticky ∧
    (entryMod s i f).counters = s.counters ∧ (entryMod s i f).freeze = s.freeze) ∧ ((entryMod s i f).flash = s.flash ∧
    (entryMod s i f).ledger = s.ledger) ∧ ((entryMod s i f).compute = s.compute ∧ (entryMod s i f).streams = s.streams ∧
    (entryMod s i f).sifters = s.sifters) ∧ ((entryMod s i f).fabric = s.fabric ∧ (entryMod s i f).milny = s.milny) ∧
    ((entryMod s i f).power = s.power ∧ (entryMod s i f).update = s.update ∧ (entryMod s i f).keys = s.keys ∧
    (entryMod s i f).rails = s.rails) ∧ (entryMod s i f).sampled = s.sampled ∧ (entryMod s i f).edge = s.edge ∧
    (entryMod s i f).free = s.free ∧ (entryMod s i f).out = s.out ∧ (entryMod s i f).pending = s.pending :=
  by and_intros <;> rfl

@[simp] theorem entryMod_tally (s : State) (i : Nat) (f : Entry → Entry) :
    (entryMod s i f).tally = { s.tally with entries := s.tally.entries.map (fun p => if p.1 = i then (p.1, f p.2) else p) } := rfl

@[simp] theorem unitMod_frame (s : State) (u : Nat) (f : UnitSt → UnitSt) :
    ((unitMod s u f).ident = s.ident ∧ (unitMod s u f).od = s.od ∧ (unitMod s u f).tally = s.tally) ∧
    ((unitMod s u f).dev = s.dev ∧ (unitMod s u f).pen = s.pen ∧ (unitMod s u f).steward = s.steward ∧
    (unitMod s u f).bell = s.bell) ∧ ((unitMod s u f).host = s.host ∧ (unitMod s u f).sticky = s.sticky ∧
    (unitMod s u f).counters = s.counters ∧ (unitMod s u f).freeze = s.freeze) ∧ ((unitMod s u f).flash = s.flash ∧
    (unitMod s u f).ledger = s.ledger) ∧ ((unitMod s u f).compute = s.compute ∧ (unitMod s u f).streams = s.streams ∧
    (unitMod s u f).sifters = s.sifters) ∧ ((unitMod s u f).fabric = s.fabric ∧ (unitMod s u f).milny = s.milny) ∧
    ((unitMod s u f).power = s.power ∧ (unitMod s u f).update = s.update ∧ (unitMod s u f).keys = s.keys ∧
    (unitMod s u f).rails = s.rails) ∧ (unitMod s u f).sampled = s.sampled ∧ (unitMod s u f).edge = s.edge ∧
    (unitMod s u f).free = s.free ∧ (unitMod s u f).out = s.out ∧ (unitMod s u f).pending = s.pending :=
  by and_intros <;> rfl

@[simp] theorem unitMod_units (s : State) (u : Nat) (f : UnitSt → UnitSt) : (unitMod s u f).units = tmod s.units u .reset f := rfl

@[simp] theorem odSet_frame (s : State) (idx sub v : Nat) :
    ((odSet s idx sub v).ident = s.ident ∧ (odSet s idx sub v).tally = s.tally ∧ (odSet s idx sub v).units = s.units) ∧
    ((odSet s idx sub v).dev = s.dev ∧ (odSet s idx sub v).pen = s.pen ∧ (odSet s idx sub v).steward = s.steward ∧
    (odSet s idx sub v).bell = s.bell) ∧ ((odSet s idx sub v).host = s.host ∧ (odSet s idx sub v).sticky = s.sticky ∧
    (odSet s idx sub v).counters = s.counters ∧ (odSet s idx sub v).freeze = s.freeze) ∧ ((odSet s idx sub v).flash = s.flash ∧
    (odSet s idx sub v).ledger = s.ledger) ∧ ((odSet s idx sub v).compute = s.compute ∧
    (odSet s idx sub v).streams = s.streams ∧ (odSet s idx sub v).sifters = s.sifters) ∧
    ((odSet s idx sub v).fabric = s.fabric ∧ (odSet s idx sub v).milny = s.milny) ∧ ((odSet s idx sub v).power = s.power ∧
    (odSet s idx sub v).update = s.update ∧ (odSet s idx sub v).keys = s.keys ∧ (odSet s idx sub v).rails = s.rails) ∧
    (odSet s idx sub v).sampled = s.sampled ∧ (odSet s idx sub v).edge = s.edge ∧ (odSet s idx sub v).free = s.free ∧
    (odSet s idx sub v).out = s.out ∧ (odSet s idx sub v).pending = s.pending :=
  by and_intros <;> rfl

@[simp] theorem odSet_od (s : State) (idx : Nat) (sub : Nat) (v : Nat) :
    (odSet s idx sub v).od = tput s.od (odKey idx sub) v := rfl

@[simp] theorem dieMod_frame (s : State) (d : Nat) (f : Die → Die) :
    ((dieMod s d f).ident = s.ident ∧ (dieMod s d f).od = s.od ∧ (dieMod s d f).tally = s.tally ∧
    (dieMod s d f).units = s.units) ∧ ((dieMod s d f).dev = s.dev ∧ (dieMod s d f).pen = s.pen ∧
    (dieMod s d f).steward = s.steward ∧ (dieMod s d f).bell = s.bell) ∧ ((dieMod s d f).host = s.host ∧
    (dieMod s d f).sticky = s.sticky ∧ (dieMod s d f).counters = s.counters ∧ (dieMod s d f).freeze = s.freeze) ∧
    (dieMod s d f).ledger = s.ledger ∧ ((dieMod s d f).compute = s.compute ∧ (dieMod s d f).streams = s.streams ∧
    (dieMod s d f).sifters = s.sifters) ∧ ((dieMod s d f).fabric = s.fabric ∧ (dieMod s d f).milny = s.milny) ∧
    ((dieMod s d f).power = s.power ∧ (dieMod s d f).update = s.update ∧ (dieMod s d f).keys = s.keys ∧
    (dieMod s d f).rails = s.rails) ∧ (dieMod s d f).sampled = s.sampled ∧ (dieMod s d f).edge = s.edge ∧
    (dieMod s d f).free = s.free ∧ (dieMod s d f).out = s.out ∧ (dieMod s d f).pending = s.pending :=
  by and_intros <;> rfl

@[simp] theorem dieMod_flash (s : State) (d : Nat) (f : Die → Die) :
    (dieMod s d f).flash = { s.flash with dies := tmod s.flash.dies d .reset f } := rfl

@[simp] theorem coreMod_frame (s : State) (unit : Nat) (f : Core → Core) :
    ((coreMod s unit f).ident = s.ident ∧ (coreMod s unit f).od = s.od ∧ (coreMod s unit f).tally = s.tally ∧
    (coreMod s unit f).units = s.units) ∧ ((coreMod s unit f).dev = s.dev ∧ (coreMod s unit f).pen = s.pen ∧
    (coreMod s unit f).steward = s.steward ∧ (coreMod s unit f).bell = s.bell) ∧ ((coreMod s unit f).host = s.host ∧
    (coreMod s unit f).sticky = s.sticky ∧ (coreMod s unit f).counters = s.counters ∧ (coreMod s unit f).freeze = s.freeze) ∧
    ((coreMod s unit f).flash = s.flash ∧ (coreMod s unit f).ledger = s.ledger) ∧ ((coreMod s unit f).streams = s.streams ∧
    (coreMod s unit f).sifters = s.sifters) ∧ ((coreMod s unit f).fabric = s.fabric ∧ (coreMod s unit f).milny = s.milny) ∧
    ((coreMod s unit f).power = s.power ∧ (coreMod s unit f).update = s.update ∧ (coreMod s unit f).keys = s.keys ∧
    (coreMod s unit f).rails = s.rails) ∧ (coreMod s unit f).sampled = s.sampled ∧ (coreMod s unit f).edge = s.edge ∧
    (coreMod s unit f).free = s.free ∧ (coreMod s unit f).out = s.out ∧ (coreMod s unit f).pending = s.pending :=
  by and_intros <;> rfl

@[simp] theorem coreMod_compute (s : State) (unit : Nat) (f : Core → Core) :
    (coreMod s unit f).compute = { s.compute with cores := tmod s.compute.cores (unit - 24) ⟨[], [], []⟩ f } := rfl

@[simp] theorem invMod_frame (s : State) (inv : Nat) (f : Invocation → Invocation) :
    ((invMod s inv f).ident = s.ident ∧ (invMod s inv f).od = s.od ∧ (invMod s inv f).tally = s.tally ∧
    (invMod s inv f).units = s.units) ∧ ((invMod s inv f).dev = s.dev ∧ (invMod s inv f).pen = s.pen ∧
    (invMod s inv f).steward = s.steward ∧ (invMod s inv f).bell = s.bell) ∧ ((invMod s inv f).host = s.host ∧
    (invMod s inv f).sticky = s.sticky ∧ (invMod s inv f).counters = s.counters ∧ (invMod s inv f).freeze = s.freeze) ∧
    ((invMod s inv f).flash = s.flash ∧ (invMod s inv f).ledger = s.ledger) ∧ ((invMod s inv f).streams = s.streams ∧
    (invMod s inv f).sifters = s.sifters) ∧ ((invMod s inv f).fabric = s.fabric ∧ (invMod s inv f).milny = s.milny) ∧
    ((invMod s inv f).power = s.power ∧ (invMod s inv f).update = s.update ∧ (invMod s inv f).keys = s.keys ∧
    (invMod s inv f).rails = s.rails) ∧ (invMod s inv f).sampled = s.sampled ∧ (invMod s inv f).edge = s.edge ∧
    (invMod s inv f).free = s.free ∧ (invMod s inv f).out = s.out ∧ (invMod s inv f).pending = s.pending :=
  by and_intros <;> rfl

@[simp] theorem invMod_compute (s : State) (inv : Nat) (f : Invocation → Invocation) :
    (invMod s inv f).compute =
      { s.compute with invs := s.compute.invs.map (fun p => if p.1 = inv then (p.1, f p.2) else p) } := rfl

@[simp] theorem bandMod_frame (s : State) (k : Nat) (f : Band → Band) :
    ((bandMod s k f).ident = s.ident ∧ (bandMod s k f).od = s.od ∧ (bandMod s k f).tally = s.tally ∧
    (bandMod s k f).units = s.units) ∧ ((bandMod s k f).dev = s.dev ∧ (bandMod s k f).pen = s.pen ∧
    (bandMod s k f).steward = s.steward ∧ (bandMod s k f).bell = s.bell) ∧ ((bandMod s k f).host = s.host ∧
    (bandMod s k f).sticky = s.sticky ∧ (bandMod s k f).counters = s.counters ∧ (bandMod s k f).freeze = s.freeze) ∧
    (bandMod s k f).flash = s.flash ∧ ((bandMod s k f).compute = s.compute ∧ (bandMod s k f).streams = s.streams ∧
    (bandMod s k f).sifters = s.sifters) ∧ ((bandMod s k f).fabric = s.fabric ∧ (bandMod s k f).milny = s.milny) ∧
    ((bandMod s k f).power = s.power ∧ (bandMod s k f).update = s.update ∧ (bandMod s k f).keys = s.keys ∧
    (bandMod s k f).rails = s.rails) ∧ (bandMod s k f).sampled = s.sampled ∧ (bandMod s k f).edge = s.edge ∧
    (bandMod s k f).free = s.free ∧ (bandMod s k f).out = s.out ∧ (bandMod s k f).pending = s.pending :=
  by and_intros <;> rfl

@[simp] theorem bandMod_ledger (s : State) (k : Nat) (f : Band → Band) :
    (bandMod s k f).ledger = { s.ledger with bands := tmod s.ledger.bands k .reset f } := rfl

@[simp] theorem peerMod_frame (s : State) (m : Nat) (f : Peer → Peer) :
    ((peerMod s m f).ident = s.ident ∧ (peerMod s m f).od = s.od ∧ (peerMod s m f).tally = s.tally ∧
    (peerMod s m f).units = s.units) ∧ ((peerMod s m f).dev = s.dev ∧ (peerMod s m f).pen = s.pen ∧
    (peerMod s m f).steward = s.steward ∧ (peerMod s m f).bell = s.bell) ∧ ((peerMod s m f).host = s.host ∧
    (peerMod s m f).sticky = s.sticky ∧ (peerMod s m f).counters = s.counters ∧ (peerMod s m f).freeze = s.freeze) ∧
    ((peerMod s m f).flash = s.flash ∧ (peerMod s m f).ledger = s.ledger) ∧ ((peerMod s m f).compute = s.compute ∧
    (peerMod s m f).streams = s.streams ∧ (peerMod s m f).sifters = s.sifters) ∧ (peerMod s m f).milny = s.milny ∧
    ((peerMod s m f).power = s.power ∧ (peerMod s m f).update = s.update ∧ (peerMod s m f).keys = s.keys ∧
    (peerMod s m f).rails = s.rails) ∧ (peerMod s m f).sampled = s.sampled ∧ (peerMod s m f).edge = s.edge ∧
    (peerMod s m f).free = s.free ∧ (peerMod s m f).out = s.out ∧ (peerMod s m f).pending = s.pending :=
  by and_intros <;> rfl

@[simp] theorem peerMod_fabric (s : State) (m : Nat) (f : Peer → Peer) :
    (peerMod s m f).fabric = { s.fabric with peers := tmod s.fabric.peers m .reset f } := rfl

@[simp] theorem portMod_frame (s : State) (p : Nat) (f : Port → Port) :
    ((portMod s p f).ident = s.ident ∧ (portMod s p f).od = s.od ∧ (portMod s p f).tally = s.tally ∧
    (portMod s p f).units = s.units) ∧ ((portMod s p f).dev = s.dev ∧ (portMod s p f).pen = s.pen ∧
    (portMod s p f).steward = s.steward ∧ (portMod s p f).bell = s.bell) ∧ ((portMod s p f).host = s.host ∧
    (portMod s p f).sticky = s.sticky ∧ (portMod s p f).counters = s.counters ∧ (portMod s p f).freeze = s.freeze) ∧
    ((portMod s p f).flash = s.flash ∧ (portMod s p f).ledger = s.ledger) ∧ ((portMod s p f).compute = s.compute ∧
    (portMod s p f).streams = s.streams ∧ (portMod s p f).sifters = s.sifters) ∧ (portMod s p f).milny = s.milny ∧
    ((portMod s p f).power = s.power ∧ (portMod s p f).update = s.update ∧ (portMod s p f).keys = s.keys ∧
    (portMod s p f).rails = s.rails) ∧ (portMod s p f).sampled = s.sampled ∧ (portMod s p f).edge = s.edge ∧
    (portMod s p f).free = s.free ∧ (portMod s p f).out = s.out ∧ (portMod s p f).pending = s.pending :=
  by and_intros <;> rfl

@[simp] theorem portMod_fabric (s : State) (p : Nat) (f : Port → Port) :
    (portMod s p f).fabric = { s.fabric with ports := tmod s.fabric.ports p .reset f } := rfl

@[simp] theorem programMod_frame (s : State) (p : Nat) (f : Program → Program) :
    ((programMod s p f).ident = s.ident ∧ (programMod s p f).od = s.od ∧ (programMod s p f).tally = s.tally ∧
    (programMod s p f).units = s.units) ∧ ((programMod s p f).dev = s.dev ∧ (programMod s p f).pen = s.pen ∧
    (programMod s p f).steward = s.steward ∧ (programMod s p f).bell = s.bell) ∧ ((programMod s p f).host = s.host ∧
    (programMod s p f).sticky = s.sticky ∧ (programMod s p f).counters = s.counters ∧ (programMod s p f).freeze = s.freeze) ∧
    ((programMod s p f).flash = s.flash ∧ (programMod s p f).ledger = s.ledger) ∧ ((programMod s p f).streams = s.streams ∧
    (programMod s p f).sifters = s.sifters) ∧ ((programMod s p f).fabric = s.fabric ∧ (programMod s p f).milny = s.milny) ∧
    ((programMod s p f).power = s.power ∧ (programMod s p f).update = s.update ∧ (programMod s p f).keys = s.keys ∧
    (programMod s p f).rails = s.rails) ∧ (programMod s p f).sampled = s.sampled ∧ (programMod s p f).edge = s.edge ∧
    (programMod s p f).free = s.free ∧ (programMod s p f).out = s.out ∧ (programMod s p f).pending = s.pending :=
  by and_intros <;> rfl

@[simp] theorem programMod_compute (s : State) (p : Nat) (f : Program → Program) :
    (programMod s p f).compute = { s.compute with programs := tmod s.compute.programs p .reset f } := rfl

@[simp] theorem streamPut_frame (s : State) (sid : Nat) (st : Stream) :
    ((streamPut s sid st).ident = s.ident ∧ (streamPut s sid st).od = s.od ∧ (streamPut s sid st).tally = s.tally ∧
    (streamPut s sid st).units = s.units) ∧ ((streamPut s sid st).dev = s.dev ∧ (streamPut s sid st).pen = s.pen ∧
    (streamPut s sid st).steward = s.steward ∧ (streamPut s sid st).bell = s.bell) ∧ ((streamPut s sid st).host = s.host ∧
    (streamPut s sid st).sticky = s.sticky ∧ (streamPut s sid st).counters = s.counters ∧
    (streamPut s sid st).freeze = s.freeze) ∧ ((streamPut s sid st).flash = s.flash ∧ (streamPut s sid st).ledger = s.ledger) ∧
    ((streamPut s sid st).compute = s.compute ∧ (streamPut s sid st).sifters = s.sifters) ∧
    ((streamPut s sid st).fabric = s.fabric ∧ (streamPut s sid st).milny = s.milny) ∧ ((streamPut s sid st).power = s.power ∧
    (streamPut s sid st).update = s.update ∧ (streamPut s sid st).keys = s.keys ∧ (streamPut s sid st).rails = s.rails) ∧
    (streamPut s sid st).sampled = s.sampled ∧ (streamPut s sid st).edge = s.edge ∧ (streamPut s sid st).free = s.free ∧
    (streamPut s sid st).out = s.out ∧ (streamPut s sid st).pending = s.pending :=
  by and_intros <;> rfl

@[simp] theorem streamPut_streams (s : State) (sid : Nat) (st : Stream) :
    (streamPut s sid st).streams = { s.streams with table := tput s.streams.table sid st } := rfl

@[simp] theorem streamDrop_frame (s : State) (sid : Nat) :
    ((streamDrop s sid).ident = s.ident ∧ (streamDrop s sid).od = s.od ∧ (streamDrop s sid).tally = s.tally ∧
    (streamDrop s sid).units = s.units) ∧ ((streamDrop s sid).dev = s.dev ∧ (streamDrop s sid).pen = s.pen ∧
    (streamDrop s sid).steward = s.steward ∧ (streamDrop s sid).bell = s.bell) ∧ ((streamDrop s sid).host = s.host ∧
    (streamDrop s sid).sticky = s.sticky ∧ (streamDrop s sid).counters = s.counters ∧ (streamDrop s sid).freeze = s.freeze) ∧
    ((streamDrop s sid).flash = s.flash ∧ (streamDrop s sid).ledger = s.ledger) ∧ ((streamDrop s sid).compute = s.compute ∧
    (streamDrop s sid).sifters = s.sifters) ∧ ((streamDrop s sid).fabric = s.fabric ∧ (streamDrop s sid).milny = s.milny) ∧
    ((streamDrop s sid).power = s.power ∧ (streamDrop s sid).update = s.update ∧ (streamDrop s sid).keys = s.keys ∧
    (streamDrop s sid).rails = s.rails) ∧ (streamDrop s sid).sampled = s.sampled ∧ (streamDrop s sid).edge = s.edge ∧
    (streamDrop s sid).free = s.free ∧ (streamDrop s sid).out = s.out ∧ (streamDrop s sid).pending = s.pending :=
  by and_intros <;> rfl

@[simp] theorem streamDrop_streams (s : State) (sid : Nat) :
    (streamDrop s sid).streams = { s.streams with table := tdel s.streams.table sid } := rfl

@[simp] theorem searchMod_frame (s : State) (entry : Nat) (f : Search → Search) :
    ((searchMod s entry f).ident = s.ident ∧ (searchMod s entry f).od = s.od ∧ (searchMod s entry f).tally = s.tally ∧
    (searchMod s entry f).units = s.units) ∧ ((searchMod s entry f).dev = s.dev ∧ (searchMod s entry f).pen = s.pen ∧
    (searchMod s entry f).steward = s.steward ∧ (searchMod s entry f).bell = s.bell) ∧ ((searchMod s entry f).host = s.host ∧
    (searchMod s entry f).sticky = s.sticky ∧ (searchMod s entry f).counters = s.counters ∧
    (searchMod s entry f).freeze = s.freeze) ∧ ((searchMod s entry f).flash = s.flash ∧
    (searchMod s entry f).ledger = s.ledger) ∧ ((searchMod s entry f).compute = s.compute ∧
    (searchMod s entry f).streams = s.streams) ∧ ((searchMod s entry f).fabric = s.fabric ∧
    (searchMod s entry f).milny = s.milny) ∧ ((searchMod s entry f).power = s.power ∧ (searchMod s entry f).update = s.update ∧
    (searchMod s entry f).keys = s.keys ∧ (searchMod s entry f).rails = s.rails) ∧ (searchMod s entry f).sampled = s.sampled ∧
    (searchMod s entry f).edge = s.edge ∧ (searchMod s entry f).free = s.free ∧ (searchMod s entry f).out = s.out ∧
    (searchMod s entry f).pending = s.pending :=
  by and_intros <;> rfl

@[simp] theorem searchMod_sifters (s : State) (entry : Nat) (f : Search → Search) :
    (searchMod s entry f).sifters =
      { s.sifters with searches := s.sifters.searches.map (fun q => if q.entry = entry then f q else q) } := rfl

@[simp] theorem contextMod_frame (s : State) (search entry : Nat) (f : Context → Context) :
    ((contextMod s search entry f).ident = s.ident ∧ (contextMod s search entry f).od = s.od ∧
    (contextMod s search entry f).tally = s.tally ∧ (contextMod s search entry f).units = s.units) ∧
    ((contextMod s search entry f).dev = s.dev ∧ (contextMod s search entry f).pen = s.pen ∧
    (contextMod s search entry f).steward = s.steward ∧ (contextMod s search entry f).bell = s.bell) ∧
    ((contextMod s search entry f).host = s.host ∧ (contextMod s search entry f).sticky = s.sticky ∧
    (contextMod s search entry f).counters = s.counters ∧ (contextMod s search entry f).freeze = s.freeze) ∧
    ((contextMod s search entry f).flash = s.flash ∧ (contextMod s search entry f).ledger = s.ledger) ∧
    ((contextMod s search entry f).compute = s.compute ∧ (contextMod s search entry f).streams = s.streams) ∧
    ((contextMod s search entry f).fabric = s.fabric ∧ (contextMod s search entry f).milny = s.milny) ∧
    ((contextMod s search entry f).power = s.power ∧ (contextMod s search entry f).update = s.update ∧
    (contextMod s search entry f).keys = s.keys ∧ (contextMod s search entry f).rails = s.rails) ∧
    (contextMod s search entry f).sampled = s.sampled ∧ (contextMod s search entry f).edge = s.edge ∧
    (contextMod s search entry f).free = s.free ∧ (contextMod s search entry f).out = s.out ∧
    (contextMod s search entry f).pending = s.pending :=
  by and_intros <;> rfl

@[simp] theorem loomMod_frame (s : State) (l : Nat) (f : Loom → Loom) :
    ((loomMod s l f).ident = s.ident ∧ (loomMod s l f).od = s.od ∧ (loomMod s l f).tally = s.tally ∧
    (loomMod s l f).units = s.units) ∧ ((loomMod s l f).dev = s.dev ∧ (loomMod s l f).pen = s.pen ∧
    (loomMod s l f).steward = s.steward ∧ (loomMod s l f).bell = s.bell) ∧ ((loomMod s l f).host = s.host ∧
    (loomMod s l f).sticky = s.sticky ∧ (loomMod s l f).counters = s.counters ∧ (loomMod s l f).freeze = s.freeze) ∧
    ((loomMod s l f).flash = s.flash ∧ (loomMod s l f).ledger = s.ledger) ∧ ((loomMod s l f).streams = s.streams ∧
    (loomMod s l f).sifters = s.sifters) ∧ ((loomMod s l f).fabric = s.fabric ∧ (loomMod s l f).milny = s.milny) ∧
    ((loomMod s l f).power = s.power ∧ (loomMod s l f).update = s.update ∧ (loomMod s l f).keys = s.keys ∧
    (loomMod s l f).rails = s.rails) ∧ (loomMod s l f).sampled = s.sampled ∧ (loomMod s l f).edge = s.edge ∧
    (loomMod s l f).free = s.free ∧ (loomMod s l f).out = s.out ∧ (loomMod s l f).pending = s.pending :=
  by and_intros <;> rfl

@[simp] theorem loomMod_compute (s : State) (l : Nat) (f : Loom → Loom) :
    (loomMod s l f).compute = { s.compute with looms := tmod s.compute.looms l .reset f } := rfl

@[simp] theorem directMod_frame (s : State) (entry : Nat) (f : Direct → Direct) :
    ((directMod s entry f).ident = s.ident ∧ (directMod s entry f).od = s.od ∧ (directMod s entry f).tally = s.tally ∧
    (directMod s entry f).units = s.units) ∧ ((directMod s entry f).dev = s.dev ∧ (directMod s entry f).pen = s.pen ∧
    (directMod s entry f).steward = s.steward ∧ (directMod s entry f).bell = s.bell) ∧ ((directMod s entry f).host = s.host ∧
    (directMod s entry f).sticky = s.sticky ∧ (directMod s entry f).counters = s.counters ∧
    (directMod s entry f).freeze = s.freeze) ∧ ((directMod s entry f).flash = s.flash ∧
    (directMod s entry f).ledger = s.ledger) ∧ ((directMod s entry f).streams = s.streams ∧
    (directMod s entry f).sifters = s.sifters) ∧ ((directMod s entry f).fabric = s.fabric ∧
    (directMod s entry f).milny = s.milny) ∧ ((directMod s entry f).power = s.power ∧ (directMod s entry f).update = s.update ∧
    (directMod s entry f).keys = s.keys ∧ (directMod s entry f).rails = s.rails) ∧ (directMod s entry f).sampled = s.sampled ∧
    (directMod s entry f).edge = s.edge ∧ (directMod s entry f).free = s.free ∧ (directMod s entry f).out = s.out ∧
    (directMod s entry f).pending = s.pending :=
  by and_intros <;> rfl

@[simp] theorem directMod_compute (s : State) (entry : Nat) (f : Direct → Direct) :
    (directMod s entry f).compute =
      { s.compute with directs := s.compute.directs.map (fun d => if d.entry = entry then f d else d) } := rfl

@[simp] theorem sessionMod_frame (s : State) (p : Nat) (f : Session → Session) :
    ((sessionMod s p f).ident = s.ident ∧ (sessionMod s p f).od = s.od ∧ (sessionMod s p f).tally = s.tally ∧
    (sessionMod s p f).units = s.units) ∧ ((sessionMod s p f).dev = s.dev ∧ (sessionMod s p f).pen = s.pen ∧
    (sessionMod s p f).steward = s.steward ∧ (sessionMod s p f).bell = s.bell) ∧ ((sessionMod s p f).host = s.host ∧
    (sessionMod s p f).sticky = s.sticky ∧ (sessionMod s p f).counters = s.counters ∧ (sessionMod s p f).freeze = s.freeze) ∧
    ((sessionMod s p f).flash = s.flash ∧ (sessionMod s p f).ledger = s.ledger) ∧ ((sessionMod s p f).compute = s.compute ∧
    (sessionMod s p f).streams = s.streams ∧ (sessionMod s p f).sifters = s.sifters) ∧ (sessionMod s p f).milny = s.milny ∧
    ((sessionMod s p f).power = s.power ∧ (sessionMod s p f).update = s.update ∧ (sessionMod s p f).keys = s.keys ∧
    (sessionMod s p f).rails = s.rails) ∧ (sessionMod s p f).sampled = s.sampled ∧ (sessionMod s p f).edge = s.edge ∧
    (sessionMod s p f).free = s.free ∧ (sessionMod s p f).out = s.out ∧ (sessionMod s p f).pending = s.pending :=
  by and_intros <;> rfl

@[simp] theorem ladderMod_frame (s : State) (f : List Ladder → List Ladder) :
    ((ladderMod s f).ident = s.ident ∧ (ladderMod s f).od = s.od ∧ (ladderMod s f).tally = s.tally ∧
    (ladderMod s f).units = s.units) ∧ ((ladderMod s f).dev = s.dev ∧ (ladderMod s f).pen = s.pen ∧
    (ladderMod s f).steward = s.steward ∧ (ladderMod s f).bell = s.bell) ∧ ((ladderMod s f).host = s.host ∧
    (ladderMod s f).sticky = s.sticky ∧ (ladderMod s f).counters = s.counters ∧ (ladderMod s f).freeze = s.freeze) ∧
    (ladderMod s f).ledger = s.ledger ∧ ((ladderMod s f).compute = s.compute ∧ (ladderMod s f).streams = s.streams ∧
    (ladderMod s f).sifters = s.sifters) ∧ ((ladderMod s f).fabric = s.fabric ∧ (ladderMod s f).milny = s.milny) ∧
    ((ladderMod s f).power = s.power ∧ (ladderMod s f).update = s.update ∧ (ladderMod s f).keys = s.keys ∧
    (ladderMod s f).rails = s.rails) ∧ (ladderMod s f).sampled = s.sampled ∧ (ladderMod s f).edge = s.edge ∧
    (ladderMod s f).free = s.free ∧ (ladderMod s f).out = s.out ∧ (ladderMod s f).pending = s.pending :=
  by and_intros <;> rfl

@[simp] theorem ladderMod_flash (s : State) (f : List Ladder → List Ladder) :
    (ladderMod s f).flash = { s.flash with ladders := f s.flash.ladders } := rfl

@[simp] theorem ladderPut_frame (s : State) (l : Ladder) :
    ((ladderPut s l).ident = s.ident ∧ (ladderPut s l).od = s.od ∧ (ladderPut s l).tally = s.tally ∧
    (ladderPut s l).units = s.units) ∧ ((ladderPut s l).dev = s.dev ∧ (ladderPut s l).pen = s.pen ∧
    (ladderPut s l).steward = s.steward ∧ (ladderPut s l).bell = s.bell) ∧ ((ladderPut s l).host = s.host ∧
    (ladderPut s l).sticky = s.sticky ∧ (ladderPut s l).counters = s.counters ∧ (ladderPut s l).freeze = s.freeze) ∧
    (ladderPut s l).ledger = s.ledger ∧ ((ladderPut s l).compute = s.compute ∧ (ladderPut s l).streams = s.streams ∧
    (ladderPut s l).sifters = s.sifters) ∧ ((ladderPut s l).fabric = s.fabric ∧ (ladderPut s l).milny = s.milny) ∧
    ((ladderPut s l).power = s.power ∧ (ladderPut s l).update = s.update ∧ (ladderPut s l).keys = s.keys ∧
    (ladderPut s l).rails = s.rails) ∧ (ladderPut s l).sampled = s.sampled ∧ (ladderPut s l).edge = s.edge ∧
    (ladderPut s l).free = s.free ∧ (ladderPut s l).out = s.out ∧ (ladderPut s l).pending = s.pending :=
  by and_intros <;> rfl

@[simp] theorem ladderDel_frame (s : State) (entry : Nat) (a : FlashAddr) :
    ((ladderDel s entry a).ident = s.ident ∧ (ladderDel s entry a).od = s.od ∧ (ladderDel s entry a).tally = s.tally ∧
    (ladderDel s entry a).units = s.units) ∧ ((ladderDel s entry a).dev = s.dev ∧ (ladderDel s entry a).pen = s.pen ∧
    (ladderDel s entry a).steward = s.steward ∧ (ladderDel s entry a).bell = s.bell) ∧ ((ladderDel s entry a).host = s.host ∧
    (ladderDel s entry a).sticky = s.sticky ∧ (ladderDel s entry a).counters = s.counters ∧
    (ladderDel s entry a).freeze = s.freeze) ∧ (ladderDel s entry a).ledger = s.ledger ∧
    ((ladderDel s entry a).compute = s.compute ∧ (ladderDel s entry a).streams = s.streams ∧
    (ladderDel s entry a).sifters = s.sifters) ∧ ((ladderDel s entry a).fabric = s.fabric ∧
    (ladderDel s entry a).milny = s.milny) ∧ ((ladderDel s entry a).power = s.power ∧ (ladderDel s entry a).update = s.update ∧
    (ladderDel s entry a).keys = s.keys ∧ (ladderDel s entry a).rails = s.rails) ∧ (ladderDel s entry a).sampled = s.sampled ∧
    (ladderDel s entry a).edge = s.edge ∧ (ladderDel s entry a).free = s.free ∧ (ladderDel s entry a).out = s.out ∧
    (ladderDel s entry a).pending = s.pending :=
  by and_intros <;> rfl

@[simp] theorem gangPut_frame (s : State) (ref : GangRef) (g : Gang) :
    ((gangPut s ref g).ident = s.ident ∧ (gangPut s ref g).od = s.od ∧ (gangPut s ref g).tally = s.tally ∧
    (gangPut s ref g).units = s.units) ∧ ((gangPut s ref g).dev = s.dev ∧ (gangPut s ref g).pen = s.pen ∧
    (gangPut s ref g).steward = s.steward ∧ (gangPut s ref g).bell = s.bell) ∧ ((gangPut s ref g).host = s.host ∧
    (gangPut s ref g).sticky = s.sticky ∧ (gangPut s ref g).counters = s.counters ∧ (gangPut s ref g).freeze = s.freeze) ∧
    ((gangPut s ref g).flash = s.flash ∧ (gangPut s ref g).ledger = s.ledger) ∧ ((gangPut s ref g).streams = s.streams ∧
    (gangPut s ref g).sifters = s.sifters) ∧ ((gangPut s ref g).fabric = s.fabric ∧ (gangPut s ref g).milny = s.milny) ∧
    ((gangPut s ref g).power = s.power ∧ (gangPut s ref g).update = s.update ∧ (gangPut s ref g).keys = s.keys ∧
    (gangPut s ref g).rails = s.rails) ∧ (gangPut s ref g).sampled = s.sampled ∧ (gangPut s ref g).edge = s.edge ∧
    (gangPut s ref g).free = s.free ∧ (gangPut s ref g).out = s.out ∧ (gangPut s ref g).pending = s.pending :=
  by and_intros <;> rfl

@[simp] theorem gangsMod_frame (s : State) (inv : Nat) (f : Gang → Gang) :
    ((gangsMod s inv f).ident = s.ident ∧ (gangsMod s inv f).od = s.od ∧ (gangsMod s inv f).tally = s.tally ∧
    (gangsMod s inv f).units = s.units) ∧ ((gangsMod s inv f).dev = s.dev ∧ (gangsMod s inv f).pen = s.pen ∧
    (gangsMod s inv f).steward = s.steward ∧ (gangsMod s inv f).bell = s.bell) ∧ ((gangsMod s inv f).host = s.host ∧
    (gangsMod s inv f).sticky = s.sticky ∧ (gangsMod s inv f).counters = s.counters ∧ (gangsMod s inv f).freeze = s.freeze) ∧
    ((gangsMod s inv f).flash = s.flash ∧ (gangsMod s inv f).ledger = s.ledger) ∧ ((gangsMod s inv f).streams = s.streams ∧
    (gangsMod s inv f).sifters = s.sifters) ∧ ((gangsMod s inv f).fabric = s.fabric ∧ (gangsMod s inv f).milny = s.milny) ∧
    ((gangsMod s inv f).power = s.power ∧ (gangsMod s inv f).update = s.update ∧ (gangsMod s inv f).keys = s.keys ∧
    (gangsMod s inv f).rails = s.rails) ∧ (gangsMod s inv f).sampled = s.sampled ∧ (gangsMod s inv f).edge = s.edge ∧
    (gangsMod s inv f).free = s.free ∧ (gangsMod s inv f).out = s.out ∧ (gangsMod s inv f).pending = s.pending :=
  by and_intros <;> rfl

@[simp] theorem gangsMod_compute (s : State) (inv : Nat) (f : Gang → Gang) :
    (gangsMod s inv f).compute =
      { s.compute with cores := s.compute.cores.map (fun c => (c.1, { c.2 with gangs := c.2.gangs.map (fun g => if g.2.inv = inv then (g.1, f g.2) else g) })) } := rfl

@[simp] theorem origMod_frame (s : State) (tag : Nat) (f : OrigTxn → OrigTxn) :
    ((origMod s tag f).ident = s.ident ∧ (origMod s tag f).od = s.od ∧ (origMod s tag f).tally = s.tally ∧
    (origMod s tag f).units = s.units) ∧ ((origMod s tag f).dev = s.dev ∧ (origMod s tag f).pen = s.pen ∧
    (origMod s tag f).steward = s.steward ∧ (origMod s tag f).bell = s.bell) ∧ ((origMod s tag f).host = s.host ∧
    (origMod s tag f).sticky = s.sticky ∧ (origMod s tag f).counters = s.counters ∧ (origMod s tag f).freeze = s.freeze) ∧
    ((origMod s tag f).flash = s.flash ∧ (origMod s tag f).ledger = s.ledger) ∧ ((origMod s tag f).compute = s.compute ∧
    (origMod s tag f).streams = s.streams ∧ (origMod s tag f).sifters = s.sifters) ∧ (origMod s tag f).milny = s.milny ∧
    ((origMod s tag f).power = s.power ∧ (origMod s tag f).update = s.update ∧ (origMod s tag f).keys = s.keys ∧
    (origMod s tag f).rails = s.rails) ∧ (origMod s tag f).sampled = s.sampled ∧ (origMod s tag f).edge = s.edge ∧
    (origMod s tag f).free = s.free ∧ (origMod s tag f).out = s.out ∧ (origMod s tag f).pending = s.pending :=
  by and_intros <;> rfl

@[simp] theorem origMod_fabric (s : State) (tag : Nat) (f : OrigTxn → OrigTxn) :
    (origMod s tag f).fabric =
      { s.fabric with originated := s.fabric.originated.map (fun o => if o.x.tag = tag then f o else o) } := rfl

@[simp] theorem remoteMod_frame (s : State) (entry : Nat) (f : Remote → Remote) :
    ((remoteMod s entry f).ident = s.ident ∧ (remoteMod s entry f).od = s.od ∧ (remoteMod s entry f).tally = s.tally ∧
    (remoteMod s entry f).units = s.units) ∧ ((remoteMod s entry f).dev = s.dev ∧ (remoteMod s entry f).pen = s.pen ∧
    (remoteMod s entry f).steward = s.steward ∧ (remoteMod s entry f).bell = s.bell) ∧ ((remoteMod s entry f).host = s.host ∧
    (remoteMod s entry f).sticky = s.sticky ∧ (remoteMod s entry f).counters = s.counters ∧
    (remoteMod s entry f).freeze = s.freeze) ∧ ((remoteMod s entry f).flash = s.flash ∧
    (remoteMod s entry f).ledger = s.ledger) ∧ ((remoteMod s entry f).compute = s.compute ∧
    (remoteMod s entry f).streams = s.streams ∧ (remoteMod s entry f).sifters = s.sifters) ∧
    (remoteMod s entry f).milny = s.milny ∧ ((remoteMod s entry f).power = s.power ∧ (remoteMod s entry f).update = s.update ∧
    (remoteMod s entry f).keys = s.keys ∧ (remoteMod s entry f).rails = s.rails) ∧ (remoteMod s entry f).sampled = s.sampled ∧
    (remoteMod s entry f).edge = s.edge ∧ (remoteMod s entry f).free = s.free ∧ (remoteMod s entry f).out = s.out ∧
    (remoteMod s entry f).pending = s.pending :=
  by and_intros <;> rfl

@[simp] theorem remoteMod_fabric (s : State) (entry : Nat) (f : Remote → Remote) :
    (remoteMod s entry f).fabric =
      { s.fabric with remotes := s.fabric.remotes.map (fun r => if r.entry = entry then f r else r) } := rfl

@[simp] theorem sqMod_frame (s : State) (sq : Nat) (f : Sq → Sq) :
    ((sqMod s sq f).ident = s.ident ∧ (sqMod s sq f).od = s.od ∧ (sqMod s sq f).tally = s.tally ∧
    (sqMod s sq f).units = s.units) ∧ ((sqMod s sq f).dev = s.dev ∧ (sqMod s sq f).pen = s.pen ∧
    (sqMod s sq f).steward = s.steward ∧ (sqMod s sq f).bell = s.bell) ∧ ((sqMod s sq f).sticky = s.sticky ∧
    (sqMod s sq f).counters = s.counters ∧ (sqMod s sq f).freeze = s.freeze) ∧ ((sqMod s sq f).flash = s.flash ∧
    (sqMod s sq f).ledger = s.ledger) ∧ ((sqMod s sq f).compute = s.compute ∧ (sqMod s sq f).streams = s.streams ∧
    (sqMod s sq f).sifters = s.sifters) ∧ ((sqMod s sq f).fabric = s.fabric ∧ (sqMod s sq f).milny = s.milny) ∧
    ((sqMod s sq f).power = s.power ∧ (sqMod s sq f).update = s.update ∧ (sqMod s sq f).keys = s.keys ∧
    (sqMod s sq f).rails = s.rails) ∧ (sqMod s sq f).sampled = s.sampled ∧ (sqMod s sq f).edge = s.edge ∧
    (sqMod s sq f).free = s.free ∧ (sqMod s sq f).out = s.out ∧ (sqMod s sq f).pending = s.pending :=
  by and_intros <;> rfl

@[simp] theorem sqMod_host (s : State) (sq : Nat) (f : Sq → Sq) :
    (sqMod s sq f).host = { s.host with sqs := s.host.sqs.map (fun p => if p.1 = sq then (p.1, f p.2) else p) } := rfl

@[simp] theorem mapSet_frame (s : State) (iu : Nat) (e : MapEntry) :
    ((mapSet s iu e).ident = s.ident ∧ (mapSet s iu e).od = s.od ∧ (mapSet s iu e).tally = s.tally ∧
    (mapSet s iu e).units = s.units) ∧ ((mapSet s iu e).dev = s.dev ∧ (mapSet s iu e).pen = s.pen ∧
    (mapSet s iu e).steward = s.steward ∧ (mapSet s iu e).bell = s.bell) ∧ ((mapSet s iu e).host = s.host ∧
    (mapSet s iu e).sticky = s.sticky ∧ (mapSet s iu e).counters = s.counters ∧ (mapSet s iu e).freeze = s.freeze) ∧
    (mapSet s iu e).flash = s.flash ∧ ((mapSet s iu e).compute = s.compute ∧ (mapSet s iu e).streams = s.streams ∧
    (mapSet s iu e).sifters = s.sifters) ∧ ((mapSet s iu e).fabric = s.fabric ∧ (mapSet s iu e).milny = s.milny) ∧
    ((mapSet s iu e).power = s.power ∧ (mapSet s iu e).update = s.update ∧ (mapSet s iu e).keys = s.keys ∧
    (mapSet s iu e).rails = s.rails) ∧ (mapSet s iu e).sampled = s.sampled ∧ (mapSet s iu e).edge = s.edge ∧
    (mapSet s iu e).free = s.free ∧ (mapSet s iu e).out = s.out ∧ (mapSet s iu e).pending = s.pending :=
  by and_intros <;> rfl

@[simp] theorem mapSet_ledger (s : State) (iu : Nat) (e : MapEntry) :
    (mapSet s iu e).ledger =
      { s.ledger with map := mapPut s.ledger.map iu e, dirty := markDirty s.ledger.dirty (segmentOf iu), journal := s.ledger.journal ++ [⟨iu, e⟩], tail := s.ledger.tail + 1 } := rfl

@[simp] theorem newKey_frame (s : State) (nsid : Nat) :
    ((newKey s nsid).ident = s.ident ∧ (newKey s nsid).od = s.od ∧ (newKey s nsid).tally = s.tally ∧
    (newKey s nsid).units = s.units) ∧ ((newKey s nsid).dev = s.dev ∧ (newKey s nsid).pen = s.pen ∧
    (newKey s nsid).steward = s.steward ∧ (newKey s nsid).bell = s.bell) ∧ ((newKey s nsid).host = s.host ∧
    (newKey s nsid).sticky = s.sticky ∧ (newKey s nsid).counters = s.counters ∧ (newKey s nsid).freeze = s.freeze) ∧
    ((newKey s nsid).flash = s.flash ∧ (newKey s nsid).ledger = s.ledger) ∧ ((newKey s nsid).compute = s.compute ∧
    (newKey s nsid).streams = s.streams ∧ (newKey s nsid).sifters = s.sifters) ∧ ((newKey s nsid).fabric = s.fabric ∧
    (newKey s nsid).milny = s.milny) ∧ ((newKey s nsid).power = s.power ∧ (newKey s nsid).update = s.update ∧
    (newKey s nsid).rails = s.rails) ∧ (newKey s nsid).sampled = s.sampled ∧ (newKey s nsid).edge = s.edge ∧
    (newKey s nsid).free = s.free ∧ (newKey s nsid).out = s.out ∧ (newKey s nsid).pending = s.pending :=
  by and_intros <;> rfl

@[simp] theorem newKey_keys (s : State) (nsid : Nat) :
    (newKey s nsid).keys = { (drbg s 1).keys with gens := tmod (drbg s 1).keys.gens nsid 0 (fun n => wrap 32 (n + 1)) } := rfl

@[simp] theorem grantPen_frame (s : State) (m : Master) :
    ((grantPen s m).ident = s.ident ∧ (grantPen s m).od = s.od ∧ (grantPen s m).tally = s.tally ∧
    (grantPen s m).units = s.units) ∧ ((grantPen s m).steward = s.steward ∧ (grantPen s m).bell = s.bell) ∧
    ((grantPen s m).host = s.host ∧ (grantPen s m).sticky = s.sticky ∧ (grantPen s m).counters = s.counters ∧
    (grantPen s m).freeze = s.freeze) ∧ ((grantPen s m).flash = s.flash ∧ (grantPen s m).ledger = s.ledger) ∧
    ((grantPen s m).compute = s.compute ∧ (grantPen s m).streams = s.streams ∧ (grantPen s m).sifters = s.sifters) ∧
    ((grantPen s m).fabric = s.fabric ∧ (grantPen s m).milny = s.milny) ∧ ((grantPen s m).power = s.power ∧
    (grantPen s m).update = s.update ∧ (grantPen s m).keys = s.keys ∧ (grantPen s m).rails = s.rails) ∧
    (grantPen s m).sampled = s.sampled ∧ (grantPen s m).edge = s.edge ∧ (grantPen s m).free = s.free ∧
    (grantPen s m).out = s.out ∧ (grantPen s m).pending = s.pending :=
  by and_intros <;> rfl

@[simp] theorem slotMod_frame (s : State) (f : Nat × StickySlot → StickySlot) :
    ((slotMod s f).ident = s.ident ∧ (slotMod s f).od = s.od ∧ (slotMod s f).tally = s.tally ∧ (slotMod s f).units = s.units) ∧
    ((slotMod s f).dev = s.dev ∧ (slotMod s f).pen = s.pen ∧ (slotMod s f).steward = s.steward ∧ (slotMod s f).bell = s.bell) ∧
    ((slotMod s f).host = s.host ∧ (slotMod s f).counters = s.counters ∧ (slotMod s f).freeze = s.freeze) ∧
    ((slotMod s f).flash = s.flash ∧ (slotMod s f).ledger = s.ledger) ∧ ((slotMod s f).compute = s.compute ∧
    (slotMod s f).streams = s.streams ∧ (slotMod s f).sifters = s.sifters) ∧ ((slotMod s f).fabric = s.fabric ∧
    (slotMod s f).milny = s.milny) ∧ ((slotMod s f).power = s.power ∧ (slotMod s f).update = s.update ∧
    (slotMod s f).keys = s.keys ∧ (slotMod s f).rails = s.rails) ∧ (slotMod s f).sampled = s.sampled ∧
    (slotMod s f).edge = s.edge ∧ (slotMod s f).free = s.free ∧ (slotMod s f).out = s.out ∧ (slotMod s f).pending = s.pending :=
  by and_intros <;> rfl

@[simp] theorem slotMod_sticky (s : State) (f : Nat × StickySlot → StickySlot) :
    (slotMod s f).sticky = { s.sticky with slots := s.sticky.slots.map (fun p => (p.1, f p)) } := rfl

@[simp] theorem drawFree_frame (s : State) :
    ((drawFree s).2.ident = s.ident ∧ (drawFree s).2.od = s.od ∧ (drawFree s).2.tally = s.tally ∧
    (drawFree s).2.units = s.units) ∧ ((drawFree s).2.dev = s.dev ∧ (drawFree s).2.pen = s.pen ∧
    (drawFree s).2.steward = s.steward ∧ (drawFree s).2.bell = s.bell) ∧ ((drawFree s).2.host = s.host ∧
    (drawFree s).2.sticky = s.sticky ∧ (drawFree s).2.counters = s.counters ∧ (drawFree s).2.freeze = s.freeze) ∧
    ((drawFree s).2.flash = s.flash ∧ (drawFree s).2.ledger = s.ledger) ∧ ((drawFree s).2.compute = s.compute ∧
    (drawFree s).2.streams = s.streams ∧ (drawFree s).2.sifters = s.sifters) ∧ ((drawFree s).2.fabric = s.fabric ∧
    (drawFree s).2.milny = s.milny) ∧ ((drawFree s).2.power = s.power ∧ (drawFree s).2.update = s.update ∧
    (drawFree s).2.keys = s.keys ∧ (drawFree s).2.rails = s.rails) ∧ (drawFree s).2.sampled = s.sampled ∧
    (drawFree s).2.edge = s.edge ∧ (drawFree s).2.out = s.out ∧ (drawFree s).2.pending = s.pending :=
  by and_intros <;> rfl

@[simp] theorem putPage_frame (s : State) (loc : Nat) (p : FlashPage) (openRow : Bool) :
    ((putPage s loc p openRow).ident = s.ident ∧ (putPage s loc p openRow).od = s.od ∧
    (putPage s loc p openRow).tally = s.tally ∧ (putPage s loc p openRow).units = s.units) ∧
    ((putPage s loc p openRow).dev = s.dev ∧ (putPage s loc p openRow).pen = s.pen ∧
    (putPage s loc p openRow).steward = s.steward ∧ (putPage s loc p openRow).bell = s.bell) ∧
    ((putPage s loc p openRow).host = s.host ∧ (putPage s loc p openRow).sticky = s.sticky ∧
    (putPage s loc p openRow).counters = s.counters ∧ (putPage s loc p openRow).freeze = s.freeze) ∧
    ((putPage s loc p openRow).compute = s.compute ∧ (putPage s loc p openRow).streams = s.streams ∧
    (putPage s loc p openRow).sifters = s.sifters) ∧ ((putPage s loc p openRow).fabric = s.fabric ∧
    (putPage s loc p openRow).milny = s.milny) ∧ ((putPage s loc p openRow).power = s.power ∧
    (putPage s loc p openRow).update = s.update ∧ (putPage s loc p openRow).keys = s.keys ∧
    (putPage s loc p openRow).rails = s.rails) ∧ (putPage s loc p openRow).sampled = s.sampled ∧
    (putPage s loc p openRow).edge = s.edge ∧ (putPage s loc p openRow).free = s.free ∧ (putPage s loc p openRow).out = s.out ∧
    (putPage s loc p openRow).pending = s.pending :=
  by and_intros <;> rfl

@[simp] theorem dropJob_frame (s : State) (entry : Nat) :
    ((dropJob s entry).ident = s.ident ∧ (dropJob s entry).od = s.od ∧ (dropJob s entry).tally = s.tally ∧
    (dropJob s entry).units = s.units) ∧ ((dropJob s entry).dev = s.dev ∧ (dropJob s entry).pen = s.pen ∧
    (dropJob s entry).steward = s.steward ∧ (dropJob s entry).bell = s.bell) ∧ ((dropJob s entry).host = s.host ∧
    (dropJob s entry).sticky = s.sticky ∧ (dropJob s entry).counters = s.counters ∧ (dropJob s entry).freeze = s.freeze) ∧
    (dropJob s entry).flash = s.flash ∧ ((dropJob s entry).compute = s.compute ∧ (dropJob s entry).streams = s.streams ∧
    (dropJob s entry).sifters = s.sifters) ∧ ((dropJob s entry).fabric = s.fabric ∧ (dropJob s entry).milny = s.milny) ∧
    ((dropJob s entry).power = s.power ∧ (dropJob s entry).update = s.update ∧ (dropJob s entry).keys = s.keys ∧
    (dropJob s entry).rails = s.rails) ∧ (dropJob s entry).sampled = s.sampled ∧ (dropJob s entry).edge = s.edge ∧
    (dropJob s entry).free = s.free ∧ (dropJob s entry).out = s.out ∧ (dropJob s entry).pending = s.pending :=
  by and_intros <;> rfl

@[simp] theorem dropJob_ledger (s : State) (entry : Nat) :
    (dropJob s entry).ledger = { s.ledger with writes := s.ledger.writes.filter (fun w => w.entry ≠ entry) } := rfl

@[simp] theorem absorbReset_frame (s : State) :
    ((absorbReset s).ident = s.ident ∧ (absorbReset s).tally = s.tally ∧ (absorbReset s).units = s.units) ∧
    ((absorbReset s).dev = s.dev ∧ (absorbReset s).pen = s.pen ∧ (absorbReset s).steward = s.steward ∧
    (absorbReset s).bell = s.bell) ∧ ((absorbReset s).sticky = s.sticky ∧ (absorbReset s).counters = s.counters ∧
    (absorbReset s).freeze = s.freeze) ∧ ((absorbReset s).flash = s.flash ∧ (absorbReset s).ledger = s.ledger) ∧
    ((absorbReset s).compute = s.compute ∧ (absorbReset s).streams = s.streams ∧ (absorbReset s).sifters = s.sifters) ∧
    ((absorbReset s).fabric = s.fabric ∧ (absorbReset s).milny = s.milny) ∧ ((absorbReset s).power = s.power ∧
    (absorbReset s).keys = s.keys ∧ (absorbReset s).rails = s.rails) ∧ (absorbReset s).sampled = s.sampled ∧
    (absorbReset s).edge = s.edge ∧ (absorbReset s).free = s.free ∧ (absorbReset s).out = s.out ∧
    (absorbReset s).pending = s.pending :=
  by and_intros <;> rfl

@[simp] theorem setState_frame (s : State) (i : Nat) (st : EState) :
    ((setState s i st).ident = s.ident ∧ (setState s i st).od = s.od ∧ (setState s i st).units = s.units) ∧
    ((setState s i st).dev = s.dev ∧ (setState s i st).pen = s.pen ∧ (setState s i st).steward = s.steward ∧
    (setState s i st).bell = s.bell) ∧ ((setState s i st).host = s.host ∧ (setState s i st).sticky = s.sticky ∧
    (setState s i st).counters = s.counters ∧ (setState s i st).freeze = s.freeze) ∧ ((setState s i st).flash = s.flash ∧
    (setState s i st).ledger = s.ledger) ∧ ((setState s i st).compute = s.compute ∧ (setState s i st).streams = s.streams ∧
    (setState s i st).sifters = s.sifters) ∧ ((setState s i st).fabric = s.fabric ∧ (setState s i st).milny = s.milny) ∧
    ((setState s i st).power = s.power ∧ (setState s i st).update = s.update ∧ (setState s i st).keys = s.keys ∧
    (setState s i st).rails = s.rails) ∧ (setState s i st).sampled = s.sampled ∧ (setState s i st).edge = s.edge ∧
    (setState s i st).free = s.free ∧ (setState s i st).out = s.out ∧ (setState s i st).pending = s.pending :=
  by and_intros <;> rfl

@[simp] theorem lowerValid_frame (s : State) (loc : Nat) :
    ((lowerValid s loc).ident = s.ident ∧ (lowerValid s loc).od = s.od ∧ (lowerValid s loc).tally = s.tally ∧
    (lowerValid s loc).units = s.units) ∧ ((lowerValid s loc).dev = s.dev ∧ (lowerValid s loc).pen = s.pen ∧
    (lowerValid s loc).steward = s.steward ∧ (lowerValid s loc).bell = s.bell) ∧ ((lowerValid s loc).host = s.host ∧
    (lowerValid s loc).sticky = s.sticky ∧ (lowerValid s loc).counters = s.counters ∧ (lowerValid s loc).freeze = s.freeze) ∧
    (lowerValid s loc).flash = s.flash ∧ ((lowerValid s loc).compute = s.compute ∧ (lowerValid s loc).streams = s.streams ∧
    (lowerValid s loc).sifters = s.sifters) ∧ ((lowerValid s loc).fabric = s.fabric ∧ (lowerValid s loc).milny = s.milny) ∧
    ((lowerValid s loc).power = s.power ∧ (lowerValid s loc).update = s.update ∧ (lowerValid s loc).keys = s.keys ∧
    (lowerValid s loc).rails = s.rails) ∧ (lowerValid s loc).sampled = s.sampled ∧ (lowerValid s loc).edge = s.edge ∧
    (lowerValid s loc).free = s.free ∧ (lowerValid s loc).out = s.out ∧ (lowerValid s loc).pending = s.pending :=
  by and_intros <;> rfl

@[simp] theorem emptyCache_frame (s : State) :
    ((emptyCache s).ident = s.ident ∧ (emptyCache s).od = s.od ∧ (emptyCache s).tally = s.tally ∧
    (emptyCache s).units = s.units) ∧ ((emptyCache s).dev = s.dev ∧ (emptyCache s).pen = s.pen ∧
    (emptyCache s).steward = s.steward ∧ (emptyCache s).bell = s.bell) ∧ ((emptyCache s).host = s.host ∧
    (emptyCache s).sticky = s.sticky ∧ (emptyCache s).counters = s.counters ∧ (emptyCache s).freeze = s.freeze) ∧
    ((emptyCache s).flash = s.flash ∧ (emptyCache s).ledger = s.ledger) ∧ ((emptyCache s).streams = s.streams ∧
    (emptyCache s).sifters = s.sifters) ∧ ((emptyCache s).fabric = s.fabric ∧ (emptyCache s).milny = s.milny) ∧
    ((emptyCache s).power = s.power ∧ (emptyCache s).update = s.update ∧ (emptyCache s).keys = s.keys ∧
    (emptyCache s).rails = s.rails) ∧ (emptyCache s).sampled = s.sampled ∧ (emptyCache s).edge = s.edge ∧
    (emptyCache s).free = s.free ∧ (emptyCache s).out = s.out ∧ (emptyCache s).pending = s.pending :=
  by and_intros <;> rfl

@[simp] theorem dropGroup_frame (s : State) (x : Txn) :
    ((dropGroup s x).ident = s.ident ∧ (dropGroup s x).od = s.od ∧ (dropGroup s x).tally = s.tally ∧
    (dropGroup s x).units = s.units) ∧ ((dropGroup s x).dev = s.dev ∧ (dropGroup s x).pen = s.pen ∧
    (dropGroup s x).steward = s.steward ∧ (dropGroup s x).bell = s.bell) ∧ ((dropGroup s x).host = s.host ∧
    (dropGroup s x).sticky = s.sticky ∧ (dropGroup s x).counters = s.counters ∧ (dropGroup s x).freeze = s.freeze) ∧
    ((dropGroup s x).flash = s.flash ∧ (dropGroup s x).ledger = s.ledger) ∧ ((dropGroup s x).compute = s.compute ∧
    (dropGroup s x).streams = s.streams ∧ (dropGroup s x).sifters = s.sifters) ∧ (dropGroup s x).milny = s.milny ∧
    ((dropGroup s x).power = s.power ∧ (dropGroup s x).update = s.update ∧ (dropGroup s x).keys = s.keys ∧
    (dropGroup s x).rails = s.rails) ∧ (dropGroup s x).sampled = s.sampled ∧ (dropGroup s x).edge = s.edge ∧
    (dropGroup s x).free = s.free ∧ (dropGroup s x).out = s.out ∧ (dropGroup s x).pending = s.pending :=
  by and_intros <;> rfl

@[simp] theorem dropGroup_fabric (s : State) (x : Txn) :
    (dropGroup s x).fabric = { s.fabric with staging := s.fabric.staging.filter (fun g => !sameGroup g x) } := rfl

@[simp] theorem sampleAll_frame (s : State) :
    ((sampleAll s).ident = s.ident ∧ (sampleAll s).od = s.od ∧ (sampleAll s).tally = s.tally ∧ (sampleAll s).units = s.units) ∧
    ((sampleAll s).dev = s.dev ∧ (sampleAll s).pen = s.pen ∧ (sampleAll s).steward = s.steward ∧ (sampleAll s).bell = s.bell) ∧
    ((sampleAll s).host = s.host ∧ (sampleAll s).sticky = s.sticky ∧ (sampleAll s).counters = s.counters ∧
    (sampleAll s).freeze = s.freeze) ∧ ((sampleAll s).flash = s.flash ∧ (sampleAll s).ledger = s.ledger) ∧
    ((sampleAll s).compute = s.compute ∧ (sampleAll s).streams = s.streams ∧ (sampleAll s).sifters = s.sifters) ∧
    ((sampleAll s).fabric = s.fabric ∧ (sampleAll s).milny = s.milny) ∧ ((sampleAll s).power = s.power ∧
    (sampleAll s).update = s.update ∧ (sampleAll s).keys = s.keys ∧ (sampleAll s).rails = s.rails) ∧
    (sampleAll s).edge = s.edge ∧ (sampleAll s).free = s.free ∧ (sampleAll s).out = s.out ∧ (sampleAll s).pending = s.pending :=
  by and_intros <;> rfl

@[simp] theorem sampleAll_sampled (s : State) :
    (sampleAll s).sampled =
      ⟨s.tally, s.units, s.flash, s.ledger, s.compute, s.streams, s.sifters, s.fabric, s.power, s.keys, s.counters, s.milny.cap, limitAndTerm s, sampleImage s⟩ := rfl

@[simp] theorem copyEdge_frame (s : State) :
    ((copyEdge s).ident = s.ident ∧ (copyEdge s).od = s.od ∧ (copyEdge s).tally = s.tally ∧ (copyEdge s).units = s.units) ∧
    ((copyEdge s).dev = s.dev ∧ (copyEdge s).pen = s.pen ∧ (copyEdge s).steward = s.steward ∧ (copyEdge s).bell = s.bell) ∧
    ((copyEdge s).host = s.host ∧ (copyEdge s).sticky = s.sticky ∧ (copyEdge s).counters = s.counters ∧
    (copyEdge s).freeze = s.freeze) ∧ ((copyEdge s).flash = s.flash ∧ (copyEdge s).ledger = s.ledger) ∧
    ((copyEdge s).compute = s.compute ∧ (copyEdge s).streams = s.streams ∧ (copyEdge s).sifters = s.sifters) ∧
    ((copyEdge s).fabric = s.fabric ∧ (copyEdge s).milny = s.milny) ∧ ((copyEdge s).power = s.power ∧
    (copyEdge s).update = s.update ∧ (copyEdge s).keys = s.keys ∧ (copyEdge s).rails = s.rails) ∧
    (copyEdge s).sampled = s.sampled ∧ (copyEdge s).free = s.free ∧ (copyEdge s).out = s.out ∧
    (copyEdge s).pending = s.pending :=
  by and_intros <;> rfl

@[simp] theorem copyEdge_edge (s : State) :
    (copyEdge s).edge =
      ⟨s.bell.count, odVal s 0x2001 0, s.bell, s.host, s.sticky, s.fabric, s.compute, s.flash, s.ledger, s.power, s.update⟩ := rfl

@[simp] theorem endEverything_frame (s : State) :
    ((endEverything s).ident = s.ident ∧ (endEverything s).od = s.od ∧ (endEverything s).units = s.units) ∧
    ((endEverything s).sticky = s.sticky ∧ (endEverything s).counters = s.counters ∧ (endEverything s).freeze = s.freeze) ∧
    (endEverything s).compute = s.compute ∧ (endEverything s).fabric = s.fabric ∧ ((endEverything s).update = s.update ∧
    (endEverything s).rails = s.rails) ∧ (endEverything s).edge = s.edge ∧ (endEverything s).free = s.free ∧
    (endEverything s).out = s.out ∧ (endEverything s).pending = s.pending :=
  by and_intros <;> rfl

@[simp] theorem alwaysOnUp_frame (s : State) :
    ((alwaysOnUp s).ident = s.ident ∧ (alwaysOnUp s).od = s.od ∧ (alwaysOnUp s).tally = s.tally ∧
    (alwaysOnUp s).units = s.units) ∧ ((alwaysOnUp s).dev = s.dev ∧ (alwaysOnUp s).pen = s.pen ∧
    (alwaysOnUp s).steward = s.steward) ∧ ((alwaysOnUp s).host = s.host ∧ (alwaysOnUp s).sticky = s.sticky ∧
    (alwaysOnUp s).counters = s.counters) ∧ ((alwaysOnUp s).flash = s.flash ∧ (alwaysOnUp s).ledger = s.ledger) ∧
    ((alwaysOnUp s).compute = s.compute ∧ (alwaysOnUp s).streams = s.streams ∧ (alwaysOnUp s).sifters = s.sifters) ∧
    (alwaysOnUp s).fabric = s.fabric ∧ ((alwaysOnUp s).power = s.power ∧ (alwaysOnUp s).update = s.update ∧
    (alwaysOnUp s).keys = s.keys) ∧ (alwaysOnUp s).sampled = s.sampled ∧ (alwaysOnUp s).edge = s.edge ∧
    (alwaysOnUp s).free = s.free ∧ (alwaysOnUp s).out = s.out ∧ (alwaysOnUp s).pending = s.pending :=
  by and_intros <;> rfl

@[simp] theorem ringInit_frame (s : State) (w : Nat) :
    ((ringInit s w).ident = s.ident ∧ (ringInit s w).od = s.od ∧ (ringInit s w).tally = s.tally ∧
    (ringInit s w).units = s.units) ∧ ((ringInit s w).dev = s.dev ∧ (ringInit s w).pen = s.pen ∧
    (ringInit s w).steward = s.steward ∧ (ringInit s w).bell = s.bell) ∧ ((ringInit s w).host = s.host ∧
    (ringInit s w).sticky = s.sticky ∧ (ringInit s w).counters = s.counters ∧ (ringInit s w).freeze = s.freeze) ∧
    ((ringInit s w).flash = s.flash ∧ (ringInit s w).ledger = s.ledger) ∧ ((ringInit s w).streams = s.streams ∧
    (ringInit s w).sifters = s.sifters) ∧ ((ringInit s w).fabric = s.fabric ∧ (ringInit s w).milny = s.milny) ∧
    ((ringInit s w).power = s.power ∧ (ringInit s w).update = s.update ∧ (ringInit s w).keys = s.keys ∧
    (ringInit s w).rails = s.rails) ∧ (ringInit s w).sampled = s.sampled ∧ (ringInit s w).edge = s.edge ∧
    (ringInit s w).free = s.free ∧ (ringInit s w).out = s.out ∧ (ringInit s w).pending = s.pending :=
  by and_intros <;> rfl

@[simp] theorem dropWork_frame (s : State) (gone : List Nat) :
    ((dropWork s gone).ident = s.ident ∧ (dropWork s gone).od = s.od ∧ (dropWork s gone).units = s.units) ∧
    ((dropWork s gone).dev = s.dev ∧ (dropWork s gone).pen = s.pen ∧ (dropWork s gone).steward = s.steward ∧
    (dropWork s gone).bell = s.bell) ∧ ((dropWork s gone).sticky = s.sticky ∧ (dropWork s gone).counters = s.counters ∧
    (dropWork s gone).freeze = s.freeze) ∧ (dropWork s gone).milny = s.milny ∧ ((dropWork s gone).power = s.power ∧
    (dropWork s gone).update = s.update ∧ (dropWork s gone).keys = s.keys ∧ (dropWork s gone).rails = s.rails) ∧
    (dropWork s gone).sampled = s.sampled ∧ (dropWork s gone).edge = s.edge ∧ (dropWork s gone).free = s.free ∧
    (dropWork s gone).out = s.out ∧ (dropWork s gone).pending = s.pending :=
  by and_intros <;> rfl

@[simp] theorem await_frame (s : State) (r : Request) :
    ((await s r).ident = s.ident ∧ (await s r).od = s.od ∧ (await s r).units = s.units) ∧ ((await s r).dev = s.dev ∧
    (await s r).pen = s.pen ∧ (await s r).steward = s.steward ∧ (await s r).bell = s.bell) ∧ ((await s r).host = s.host ∧
    (await s r).sticky = s.sticky ∧ (await s r).counters = s.counters ∧ (await s r).freeze = s.freeze) ∧
    ((await s r).flash = s.flash ∧ (await s r).ledger = s.ledger) ∧ ((await s r).compute = s.compute ∧
    (await s r).streams = s.streams ∧ (await s r).sifters = s.sifters) ∧ ((await s r).fabric = s.fabric ∧
    (await s r).milny = s.milny) ∧ ((await s r).power = s.power ∧ (await s r).update = s.update ∧ (await s r).keys = s.keys ∧
    (await s r).rails = s.rails) ∧ (await s r).sampled = s.sampled ∧ (await s r).edge = s.edge ∧ (await s r).free = s.free ∧
    (await s r).out = s.out ∧ (await s r).pending = s.pending :=
  by and_intros <;> rfl

@[simp] theorem await_tally (s : State) (r : Request) :
    (await s r).tally = { s.tally with waiting := s.tally.waiting ++ [r] } := rfl

@[simp] theorem unwait_frame (s : State) (sq cid : Nat) :
    ((unwait s sq cid).ident = s.ident ∧ (unwait s sq cid).od = s.od ∧ (unwait s sq cid).units = s.units) ∧
    ((unwait s sq cid).dev = s.dev ∧ (unwait s sq cid).pen = s.pen ∧ (unwait s sq cid).steward = s.steward ∧
    (unwait s sq cid).bell = s.bell) ∧ ((unwait s sq cid).host = s.host ∧ (unwait s sq cid).sticky = s.sticky ∧
    (unwait s sq cid).counters = s.counters ∧ (unwait s sq cid).freeze = s.freeze) ∧ ((unwait s sq cid).flash = s.flash ∧
    (unwait s sq cid).ledger = s.ledger) ∧ ((unwait s sq cid).compute = s.compute ∧ (unwait s sq cid).streams = s.streams ∧
    (unwait s sq cid).sifters = s.sifters) ∧ ((unwait s sq cid).fabric = s.fabric ∧ (unwait s sq cid).milny = s.milny) ∧
    ((unwait s sq cid).power = s.power ∧ (unwait s sq cid).update = s.update ∧ (unwait s sq cid).keys = s.keys ∧
    (unwait s sq cid).rails = s.rails) ∧ (unwait s sq cid).sampled = s.sampled ∧ (unwait s sq cid).edge = s.edge ∧
    (unwait s sq cid).free = s.free ∧ (unwait s sq cid).out = s.out ∧ (unwait s sq cid).pending = s.pending :=
  by and_intros <;> rfl

@[simp] theorem replan_frame (s : State) (entry : Nat) (st : EState) :
    ((replan s entry st).ident = s.ident ∧ (replan s entry st).od = s.od ∧ (replan s entry st).units = s.units) ∧
    ((replan s entry st).dev = s.dev ∧ (replan s entry st).pen = s.pen ∧ (replan s entry st).steward = s.steward ∧
    (replan s entry st).bell = s.bell) ∧ ((replan s entry st).host = s.host ∧ (replan s entry st).sticky = s.sticky ∧
    (replan s entry st).counters = s.counters ∧ (replan s entry st).freeze = s.freeze) ∧ ((replan s entry st).flash = s.flash ∧
    (replan s entry st).ledger = s.ledger) ∧ ((replan s entry st).compute = s.compute ∧
    (replan s entry st).streams = s.streams ∧ (replan s entry st).sifters = s.sifters) ∧
    ((replan s entry st).fabric = s.fabric ∧ (replan s entry st).milny = s.milny) ∧ ((replan s entry st).power = s.power ∧
    (replan s entry st).update = s.update ∧ (replan s entry st).keys = s.keys ∧ (replan s entry st).rails = s.rails) ∧
    (replan s entry st).sampled = s.sampled ∧ (replan s entry st).edge = s.edge ∧ (replan s entry st).free = s.free ∧
    (replan s entry st).out = s.out ∧ (replan s entry st).pending = s.pending :=
  by and_intros <;> rfl

@[simp] theorem charge_frame (s : State) (i : Nat) :
    ((charge s i).ident = s.ident ∧ (charge s i).od = s.od ∧ (charge s i).tally = s.tally ∧ (charge s i).units = s.units) ∧
    ((charge s i).dev = s.dev ∧ (charge s i).pen = s.pen ∧ (charge s i).steward = s.steward ∧ (charge s i).bell = s.bell) ∧
    ((charge s i).host = s.host ∧ (charge s i).sticky = s.sticky ∧ (charge s i).counters = s.counters ∧
    (charge s i).freeze = s.freeze) ∧ ((charge s i).flash = s.flash ∧ (charge s i).ledger = s.ledger) ∧
    ((charge s i).compute = s.compute ∧ (charge s i).streams = s.streams ∧ (charge s i).sifters = s.sifters) ∧
    ((charge s i).fabric = s.fabric ∧ (charge s i).milny = s.milny) ∧ ((charge s i).update = s.update ∧
    (charge s i).keys = s.keys ∧ (charge s i).rails = s.rails) ∧ (charge s i).sampled = s.sampled ∧ (charge s i).edge = s.edge ∧
    (charge s i).free = s.free ∧ (charge s i).out = s.out ∧ (charge s i).pending = s.pending :=
  by and_intros <;> rfl

@[simp] theorem drbg_frame (s : State) (n : Nat) :
    ((drbg s n).ident = s.ident ∧ (drbg s n).od = s.od ∧ (drbg s n).tally = s.tally ∧ (drbg s n).units = s.units) ∧
    ((drbg s n).dev = s.dev ∧ (drbg s n).pen = s.pen ∧ (drbg s n).steward = s.steward ∧ (drbg s n).bell = s.bell) ∧
    ((drbg s n).host = s.host ∧ (drbg s n).sticky = s.sticky ∧ (drbg s n).counters = s.counters ∧
    (drbg s n).freeze = s.freeze) ∧ ((drbg s n).flash = s.flash ∧ (drbg s n).ledger = s.ledger) ∧
    ((drbg s n).compute = s.compute ∧ (drbg s n).streams = s.streams ∧ (drbg s n).sifters = s.sifters) ∧
    ((drbg s n).fabric = s.fabric ∧ (drbg s n).milny = s.milny) ∧ ((drbg s n).power = s.power ∧ (drbg s n).update = s.update ∧
    (drbg s n).rails = s.rails) ∧ (drbg s n).sampled = s.sampled ∧ (drbg s n).edge = s.edge ∧ (drbg s n).free = s.free ∧
    (drbg s n).out = s.out ∧ (drbg s n).pending = s.pending :=
  by and_intros <;> rfl

@[simp] theorem queueMsg_frame (s : State) (p : Nat) (onRing : Bool) (x : Txn) (type status : Nat) (data : List Nat) :
    ((queueMsg s p onRing x type status data).ident = s.ident ∧ (queueMsg s p onRing x type status data).od = s.od ∧
    (queueMsg s p onRing x type status data).tally = s.tally ∧ (queueMsg s p onRing x type status data).units = s.units) ∧
    ((queueMsg s p onRing x type status data).dev = s.dev ∧ (queueMsg s p onRing x type status data).pen = s.pen ∧
    (queueMsg s p onRing x type status data).steward = s.steward ∧ (queueMsg s p onRing x type status data).bell = s.bell) ∧
    ((queueMsg s p onRing x type status data).host = s.host ∧ (queueMsg s p onRing x type status data).sticky = s.sticky ∧
    (queueMsg s p onRing x type status data).counters = s.counters ∧
    (queueMsg s p onRing x type status data).freeze = s.freeze) ∧ ((queueMsg s p onRing x type status data).flash = s.flash ∧
    (queueMsg s p onRing x type status data).ledger = s.ledger) ∧
    ((queueMsg s p onRing x type status data).compute = s.compute ∧
    (queueMsg s p onRing x type status data).streams = s.streams ∧
    (queueMsg s p onRing x type status data).sifters = s.sifters) ∧ (queueMsg s p onRing x type status data).milny = s.milny ∧
    ((queueMsg s p onRing x type status data).power = s.power ∧ (queueMsg s p onRing x type status data).update = s.update ∧
    (queueMsg s p onRing x type status data).keys = s.keys ∧ (queueMsg s p onRing x type status data).rails = s.rails) ∧
    (queueMsg s p onRing x type status data).sampled = s.sampled ∧ (queueMsg s p onRing x type status data).edge = s.edge ∧
    (queueMsg s p onRing x type status data).free = s.free ∧ (queueMsg s p onRing x type status data).out = s.out ∧
    (queueMsg s p onRing x type status data).pending = s.pending :=
  by and_intros <;> rfl

@[simp] theorem queuePosting_frame (s : State) (p : Posting) :
    ((queuePosting s p).ident = s.ident ∧ (queuePosting s p).od = s.od ∧ (queuePosting s p).tally = s.tally ∧
    (queuePosting s p).units = s.units) ∧ ((queuePosting s p).dev = s.dev ∧ (queuePosting s p).pen = s.pen ∧
    (queuePosting s p).steward = s.steward ∧ (queuePosting s p).bell = s.bell) ∧ ((queuePosting s p).sticky = s.sticky ∧
    (queuePosting s p).counters = s.counters ∧ (queuePosting s p).freeze = s.freeze) ∧ ((queuePosting s p).flash = s.flash ∧
    (queuePosting s p).ledger = s.ledger) ∧ ((queuePosting s p).compute = s.compute ∧ (queuePosting s p).streams = s.streams ∧
    (queuePosting s p).sifters = s.sifters) ∧ ((queuePosting s p).fabric = s.fabric ∧ (queuePosting s p).milny = s.milny) ∧
    ((queuePosting s p).power = s.power ∧ (queuePosting s p).update = s.update ∧ (queuePosting s p).keys = s.keys ∧
    (queuePosting s p).rails = s.rails) ∧ (queuePosting s p).sampled = s.sampled ∧ (queuePosting s p).edge = s.edge ∧
    (queuePosting s p).free = s.free ∧ (queuePosting s p).out = s.out ∧ (queuePosting s p).pending = s.pending :=
  by and_intros <;> rfl

@[simp] theorem queuePosting_host (s : State) (p : Posting) :
    (queuePosting s p).host = { s.host with posting := s.host.posting ++ [p] } := rfl

@[simp] theorem conclude_frame (s : State) (i sq cid : Nat) (e : Entry) (st : Status) (dw0 dw1 : Nat) (data : List Nat) (dma : Bool) :
    ((conclude s i sq cid e st dw0 dw1 data dma).ident = s.ident ∧ (conclude s i sq cid e st dw0 dw1 data dma).od = s.od ∧
    (conclude s i sq cid e st dw0 dw1 data dma).units = s.units) ∧ ((conclude s i sq cid e st dw0 dw1 data dma).dev = s.dev ∧
    (conclude s i sq cid e st dw0 dw1 data dma).pen = s.pen ∧ (conclude s i sq cid e st dw0 dw1 data dma).steward = s.steward ∧
    (conclude s i sq cid e st dw0 dw1 data dma).bell = s.bell) ∧
    ((conclude s i sq cid e st dw0 dw1 data dma).sticky = s.sticky ∧
    (conclude s i sq cid e st dw0 dw1 data dma).counters = s.counters ∧
    (conclude s i sq cid e st dw0 dw1 data dma).freeze = s.freeze) ∧
    ((conclude s i sq cid e st dw0 dw1 data dma).flash = s.flash ∧
    (conclude s i sq cid e st dw0 dw1 data dma).ledger = s.ledger) ∧
    ((conclude s i sq cid e st dw0 dw1 data dma).compute = s.compute ∧
    (conclude s i sq cid e st dw0 dw1 data dma).streams = s.streams ∧
    (conclude s i sq cid e st dw0 dw1 data dma).sifters = s.sifters) ∧
    ((conclude s i sq cid e st dw0 dw1 data dma).fabric = s.fabric ∧
    (conclude s i sq cid e st dw0 dw1 data dma).milny = s.milny) ∧
    ((conclude s i sq cid e st dw0 dw1 data dma).power = s.power ∧
    (conclude s i sq cid e st dw0 dw1 data dma).update = s.update ∧ (conclude s i sq cid e st dw0 dw1 data dma).keys = s.keys ∧
    (conclude s i sq cid e st dw0 dw1 data dma).rails = s.rails) ∧
    (conclude s i sq cid e st dw0 dw1 data dma).sampled = s.sampled ∧
    (conclude s i sq cid e st dw0 dw1 data dma).edge = s.edge ∧ (conclude s i sq cid e st dw0 dw1 data dma).free = s.free ∧
    (conclude s i sq cid e st dw0 dw1 data dma).out = s.out ∧ (conclude s i sq cid e st dw0 dw1 data dma).pending = s.pending :=
  by and_intros <;> rfl

@[simp] theorem transition_frame (s : State) (dst : DevState) (cause : Nat) (edge : Bool) :
    ((transition s dst cause edge).ident = s.ident ∧ (transition s dst cause edge).od = s.od ∧
    (transition s dst cause edge).tally = s.tally ∧ (transition s dst cause edge).units = s.units) ∧
    ((transition s dst cause edge).pen = s.pen ∧ (transition s dst cause edge).steward = s.steward ∧
    (transition s dst cause edge).bell = s.bell) ∧ ((transition s dst cause edge).host = s.host ∧
    (transition s dst cause edge).sticky = s.sticky ∧ (transition s dst cause edge).counters = s.counters ∧
    (transition s dst cause edge).freeze = s.freeze) ∧ ((transition s dst cause edge).flash = s.flash ∧
    (transition s dst cause edge).ledger = s.ledger) ∧ ((transition s dst cause edge).compute = s.compute ∧
    (transition s dst cause edge).streams = s.streams ∧ (transition s dst cause edge).sifters = s.sifters) ∧
    ((transition s dst cause edge).fabric = s.fabric ∧ (transition s dst cause edge).milny = s.milny) ∧
    ((transition s dst cause edge).power = s.power ∧ (transition s dst cause edge).update = s.update ∧
    (transition s dst cause edge).keys = s.keys ∧ (transition s dst cause edge).rails = s.rails) ∧
    (transition s dst cause edge).sampled = s.sampled ∧ (transition s dst cause edge).edge = s.edge ∧
    (transition s dst cause edge).free = s.free ∧ (transition s dst cause edge).out = s.out ∧
    (transition s dst cause edge).pending = s.pending :=
  by and_intros <;> rfl

@[simp] theorem putPlan_frame (s : State) (w : LoomWork) (l : Nat) :
    ((putPlan s w l).ident = s.ident ∧ (putPlan s w l).od = s.od ∧ (putPlan s w l).units = s.units) ∧
    ((putPlan s w l).dev = s.dev ∧ (putPlan s w l).pen = s.pen ∧ (putPlan s w l).steward = s.steward ∧
    (putPlan s w l).bell = s.bell) ∧ ((putPlan s w l).host = s.host ∧ (putPlan s w l).sticky = s.sticky ∧
    (putPlan s w l).counters = s.counters ∧ (putPlan s w l).freeze = s.freeze) ∧ ((putPlan s w l).flash = s.flash ∧
    (putPlan s w l).ledger = s.ledger) ∧ ((putPlan s w l).streams = s.streams ∧ (putPlan s w l).sifters = s.sifters) ∧
    ((putPlan s w l).fabric = s.fabric ∧ (putPlan s w l).milny = s.milny) ∧ ((putPlan s w l).power = s.power ∧
    (putPlan s w l).update = s.update ∧ (putPlan s w l).keys = s.keys ∧ (putPlan s w l).rails = s.rails) ∧
    (putPlan s w l).sampled = s.sampled ∧ (putPlan s w l).edge = s.edge ∧ (putPlan s w l).free = s.free ∧
    (putPlan s w l).out = s.out ∧ (putPlan s w l).pending = s.pending :=
  by and_intros <;> rfl

@[simp] theorem releaseTickets_frame (s : State) (inv : Nat) (ns : List Nat) :
    ((releaseTickets s inv ns).ident = s.ident ∧ (releaseTickets s inv ns).od = s.od ∧
    (releaseTickets s inv ns).tally = s.tally ∧ (releaseTickets s inv ns).units = s.units) ∧
    ((releaseTickets s inv ns).dev = s.dev ∧ (releaseTickets s inv ns).pen = s.pen ∧
    (releaseTickets s inv ns).steward = s.steward ∧ (releaseTickets s inv ns).bell = s.bell) ∧
    ((releaseTickets s inv ns).host = s.host ∧ (releaseTickets s inv ns).sticky = s.sticky ∧
    (releaseTickets s inv ns).counters = s.counters ∧ (releaseTickets s inv ns).freeze = s.freeze) ∧
    ((releaseTickets s inv ns).flash = s.flash ∧ (releaseTickets s inv ns).ledger = s.ledger) ∧
    ((releaseTickets s inv ns).streams = s.streams ∧ (releaseTickets s inv ns).sifters = s.sifters) ∧
    ((releaseTickets s inv ns).fabric = s.fabric ∧ (releaseTickets s inv ns).milny = s.milny) ∧
    ((releaseTickets s inv ns).power = s.power ∧ (releaseTickets s inv ns).update = s.update ∧
    (releaseTickets s inv ns).keys = s.keys ∧ (releaseTickets s inv ns).rails = s.rails) ∧
    (releaseTickets s inv ns).sampled = s.sampled ∧ (releaseTickets s inv ns).edge = s.edge ∧
    (releaseTickets s inv ns).free = s.free ∧ (releaseTickets s inv ns).out = s.out ∧
    (releaseTickets s inv ns).pending = s.pending :=
  by and_intros <;> rfl

@[simp] theorem askPage_frame (s : State) (use : ReadUse) (entry loc : Nat) :
    ((askPage s use entry loc).ident = s.ident ∧ (askPage s use entry loc).od = s.od ∧
    (askPage s use entry loc).units = s.units) ∧ ((askPage s use entry loc).dev = s.dev ∧
    (askPage s use entry loc).pen = s.pen ∧ (askPage s use entry loc).steward = s.steward ∧
    (askPage s use entry loc).bell = s.bell) ∧ ((askPage s use entry loc).host = s.host ∧
    (askPage s use entry loc).sticky = s.sticky ∧ (askPage s use entry loc).counters = s.counters ∧
    (askPage s use entry loc).freeze = s.freeze) ∧ ((askPage s use entry loc).flash = s.flash ∧
    (askPage s use entry loc).ledger = s.ledger) ∧ ((askPage s use entry loc).compute = s.compute ∧
    (askPage s use entry loc).streams = s.streams ∧ (askPage s use entry loc).sifters = s.sifters) ∧
    ((askPage s use entry loc).fabric = s.fabric ∧ (askPage s use entry loc).milny = s.milny) ∧
    ((askPage s use entry loc).power = s.power ∧ (askPage s use entry loc).update = s.update ∧
    (askPage s use entry loc).keys = s.keys ∧ (askPage s use entry loc).rails = s.rails) ∧
    (askPage s use entry loc).sampled = s.sampled ∧ (askPage s use entry loc).edge = s.edge ∧
    (askPage s use entry loc).free = s.free ∧ (askPage s use entry loc).out = s.out ∧
    (askPage s use entry loc).pending = s.pending :=
  by and_intros <;> rfl

@[simp] theorem dropRead_frame (s : State) (j : ReadJob) :
    ((dropRead s j).ident = s.ident ∧ (dropRead s j).od = s.od ∧ (dropRead s j).tally = s.tally ∧
    (dropRead s j).units = s.units) ∧ ((dropRead s j).dev = s.dev ∧ (dropRead s j).pen = s.pen ∧
    (dropRead s j).steward = s.steward ∧ (dropRead s j).bell = s.bell) ∧ ((dropRead s j).host = s.host ∧
    (dropRead s j).sticky = s.sticky ∧ (dropRead s j).counters = s.counters ∧ (dropRead s j).freeze = s.freeze) ∧
    (dropRead s j).ledger = s.ledger ∧ ((dropRead s j).compute = s.compute ∧ (dropRead s j).streams = s.streams ∧
    (dropRead s j).sifters = s.sifters) ∧ ((dropRead s j).fabric = s.fabric ∧ (dropRead s j).milny = s.milny) ∧
    ((dropRead s j).power = s.power ∧ (dropRead s j).update = s.update ∧ (dropRead s j).keys = s.keys ∧
    (dropRead s j).rails = s.rails) ∧ (dropRead s j).sampled = s.sampled ∧ (dropRead s j).edge = s.edge ∧
    (dropRead s j).free = s.free ∧ (dropRead s j).out = s.out ∧ (dropRead s j).pending = s.pending :=
  by and_intros <;> rfl

@[simp] theorem dropRead_flash (s : State) (j : ReadJob) :
    (dropRead s j).flash = { s.flash with jobs := s.flash.jobs.filter (fun x => x ≠ j) } := rfl

@[simp] theorem stageMsg_frame (s : State) (x : Txn) (addr : Nat) (data : Bytes) (stream : Option (Nat × Nat × Nat)) :
    ((stageMsg s x addr data stream).ident = s.ident ∧ (stageMsg s x addr data stream).od = s.od ∧
    (stageMsg s x addr data stream).tally = s.tally ∧ (stageMsg s x addr data stream).units = s.units) ∧
    ((stageMsg s x addr data stream).dev = s.dev ∧ (stageMsg s x addr data stream).pen = s.pen ∧
    (stageMsg s x addr data stream).steward = s.steward ∧ (stageMsg s x addr data stream).bell = s.bell) ∧
    ((stageMsg s x addr data stream).host = s.host ∧ (stageMsg s x addr data stream).sticky = s.sticky ∧
    (stageMsg s x addr data stream).counters = s.counters ∧ (stageMsg s x addr data stream).freeze = s.freeze) ∧
    ((stageMsg s x addr data stream).flash = s.flash ∧ (stageMsg s x addr data stream).ledger = s.ledger) ∧
    ((stageMsg s x addr data stream).compute = s.compute ∧ (stageMsg s x addr data stream).streams = s.streams ∧
    (stageMsg s x addr data stream).sifters = s.sifters) ∧ (stageMsg s x addr data stream).milny = s.milny ∧
    ((stageMsg s x addr data stream).power = s.power ∧ (stageMsg s x addr data stream).update = s.update ∧
    (stageMsg s x addr data stream).keys = s.keys ∧ (stageMsg s x addr data stream).rails = s.rails) ∧
    (stageMsg s x addr data stream).sampled = s.sampled ∧ (stageMsg s x addr data stream).edge = s.edge ∧
    (stageMsg s x addr data stream).free = s.free ∧ (stageMsg s x addr data stream).out = s.out ∧
    (stageMsg s x addr data stream).pending = s.pending :=
  by and_intros <;> rfl

@[simp] theorem slmWrite_frame (s : State) (a : Nat) (b : Bytes) :
    ((slmWrite s a b).ident = s.ident ∧ (slmWrite s a b).od = s.od ∧ (slmWrite s a b).tally = s.tally ∧
    (slmWrite s a b).units = s.units) ∧ ((slmWrite s a b).dev = s.dev ∧ (slmWrite s a b).pen = s.pen ∧
    (slmWrite s a b).steward = s.steward ∧ (slmWrite s a b).bell = s.bell) ∧ ((slmWrite s a b).host = s.host ∧
    (slmWrite s a b).sticky = s.sticky ∧ (slmWrite s a b).counters = s.counters ∧ (slmWrite s a b).freeze = s.freeze) ∧
    ((slmWrite s a b).flash = s.flash ∧ (slmWrite s a b).ledger = s.ledger) ∧ ((slmWrite s a b).streams = s.streams ∧
    (slmWrite s a b).sifters = s.sifters) ∧ ((slmWrite s a b).fabric = s.fabric ∧ (slmWrite s a b).milny = s.milny) ∧
    ((slmWrite s a b).power = s.power ∧ (slmWrite s a b).update = s.update ∧ (slmWrite s a b).keys = s.keys ∧
    (slmWrite s a b).rails = s.rails) ∧ (slmWrite s a b).sampled = s.sampled ∧ (slmWrite s a b).edge = s.edge ∧
    (slmWrite s a b).free = s.free ∧ (slmWrite s a b).out = s.out ∧ (slmWrite s a b).pending = s.pending :=
  by and_intros <;> rfl

@[simp] theorem mountAsked_frame (s : State) (i slot slba : Nat) (resident : Bool) :
    ((mountAsked s i slot slba resident).ident = s.ident ∧ (mountAsked s i slot slba resident).od = s.od ∧
    (mountAsked s i slot slba resident).tally = s.tally ∧ (mountAsked s i slot slba resident).units = s.units) ∧
    ((mountAsked s i slot slba resident).dev = s.dev ∧ (mountAsked s i slot slba resident).pen = s.pen ∧
    (mountAsked s i slot slba resident).steward = s.steward ∧ (mountAsked s i slot slba resident).bell = s.bell) ∧
    ((mountAsked s i slot slba resident).host = s.host ∧ (mountAsked s i slot slba resident).sticky = s.sticky ∧
    (mountAsked s i slot slba resident).counters = s.counters ∧ (mountAsked s i slot slba resident).freeze = s.freeze) ∧
    ((mountAsked s i slot slba resident).flash = s.flash ∧ (mountAsked s i slot slba resident).ledger = s.ledger) ∧
    ((mountAsked s i slot slba resident).compute = s.compute ∧ (mountAsked s i slot slba resident).streams = s.streams) ∧
    ((mountAsked s i slot slba resident).fabric = s.fabric ∧ (mountAsked s i slot slba resident).milny = s.milny) ∧
    ((mountAsked s i slot slba resident).power = s.power ∧ (mountAsked s i slot slba resident).update = s.update ∧
    (mountAsked s i slot slba resident).keys = s.keys ∧ (mountAsked s i slot slba resident).rails = s.rails) ∧
    (mountAsked s i slot slba resident).sampled = s.sampled ∧ (mountAsked s i slot slba resident).edge = s.edge ∧
    (mountAsked s i slot slba resident).free = s.free ∧ (mountAsked s i slot slba resident).out = s.out ∧
    (mountAsked s i slot slba resident).pending = s.pending :=
  by and_intros <;> rfl

@[simp] theorem addSearch_frame (s : State) (q : Search) :
    ((addSearch s q).ident = s.ident ∧ (addSearch s q).od = s.od ∧ (addSearch s q).units = s.units) ∧
    ((addSearch s q).dev = s.dev ∧ (addSearch s q).pen = s.pen ∧ (addSearch s q).steward = s.steward ∧
    (addSearch s q).bell = s.bell) ∧ ((addSearch s q).host = s.host ∧ (addSearch s q).sticky = s.sticky ∧
    (addSearch s q).counters = s.counters ∧ (addSearch s q).freeze = s.freeze) ∧ ((addSearch s q).flash = s.flash ∧
    (addSearch s q).ledger = s.ledger) ∧ ((addSearch s q).compute = s.compute ∧ (addSearch s q).streams = s.streams) ∧
    ((addSearch s q).fabric = s.fabric ∧ (addSearch s q).milny = s.milny) ∧ ((addSearch s q).power = s.power ∧
    (addSearch s q).update = s.update ∧ (addSearch s q).keys = s.keys ∧ (addSearch s q).rails = s.rails) ∧
    (addSearch s q).sampled = s.sampled ∧ (addSearch s q).edge = s.edge ∧ (addSearch s q).free = s.free ∧
    (addSearch s q).out = s.out ∧ (addSearch s q).pending = s.pending :=
  by and_intros <;> rfl

@[simp] theorem addChunk_frame (s : State) (sid : Nat) (st : Stream) (carrier gangs rsid viewAt : Nat) (sliceAt : Option Nat) (buf : Bytes) :
    ((addChunk s sid st carrier gangs rsid viewAt sliceAt buf).ident = s.ident ∧
    (addChunk s sid st carrier gangs rsid viewAt sliceAt buf).od = s.od ∧
    (addChunk s sid st carrier gangs rsid viewAt sliceAt buf).units = s.units) ∧
    ((addChunk s sid st carrier gangs rsid viewAt sliceAt buf).dev = s.dev ∧
    (addChunk s sid st carrier gangs rsid viewAt sliceAt buf).pen = s.pen ∧
    (addChunk s sid st carrier gangs rsid viewAt sliceAt buf).steward = s.steward ∧
    (addChunk s sid st carrier gangs rsid viewAt sliceAt buf).bell = s.bell) ∧
    ((addChunk s sid st carrier gangs rsid viewAt sliceAt buf).host = s.host ∧
    (addChunk s sid st carrier gangs rsid viewAt sliceAt buf).sticky = s.sticky ∧
    (addChunk s sid st carrier gangs rsid viewAt sliceAt buf).counters = s.counters ∧
    (addChunk s sid st carrier gangs rsid viewAt sliceAt buf).freeze = s.freeze) ∧
    ((addChunk s sid st carrier gangs rsid viewAt sliceAt buf).flash = s.flash ∧
    (addChunk s sid st carrier gangs rsid viewAt sliceAt buf).ledger = s.ledger) ∧
    ((addChunk s sid st carrier gangs rsid viewAt sliceAt buf).compute = s.compute ∧
    (addChunk s sid st carrier gangs rsid viewAt sliceAt buf).sifters = s.sifters) ∧
    ((addChunk s sid st carrier gangs rsid viewAt sliceAt buf).fabric = s.fabric ∧
    (addChunk s sid st carrier gangs rsid viewAt sliceAt buf).milny = s.milny) ∧
    ((addChunk s sid st carrier gangs rsid viewAt sliceAt buf).power = s.power ∧
    (addChunk s sid st carrier gangs rsid viewAt sliceAt buf).update = s.update ∧
    (addChunk s sid st carrier gangs rsid viewAt sliceAt buf).keys = s.keys ∧
    (addChunk s sid st carrier gangs rsid viewAt sliceAt buf).rails = s.rails) ∧
    (addChunk s sid st carrier gangs rsid viewAt sliceAt buf).sampled = s.sampled ∧
    (addChunk s sid st carrier gangs rsid viewAt sliceAt buf).edge = s.edge ∧
    (addChunk s sid st carrier gangs rsid viewAt sliceAt buf).free = s.free ∧
    (addChunk s sid st carrier gangs rsid viewAt sliceAt buf).out = s.out ∧
    (addChunk s sid st carrier gangs rsid viewAt sliceAt buf).pending = s.pending :=
  by and_intros <;> rfl

@[simp] theorem addPark_frame (s : State) (sid : Nat) (st : Stream) (p : Park) (to_ : StreamSt) :
    ((addPark s sid st p to_).ident = s.ident ∧ (addPark s sid st p to_).od = s.od ∧ (addPark s sid st p to_).units = s.units) ∧
    ((addPark s sid st p to_).dev = s.dev ∧ (addPark s sid st p to_).pen = s.pen ∧
    (addPark s sid st p to_).steward = s.steward ∧ (addPark s sid st p to_).bell = s.bell) ∧
    ((addPark s sid st p to_).host = s.host ∧ (addPark s sid st p to_).sticky = s.sticky ∧
    (addPark s sid st p to_).counters = s.counters ∧ (addPark s sid st p to_).freeze = s.freeze) ∧
    ((addPark s sid st p to_).flash = s.flash ∧ (addPark s sid st p to_).ledger = s.ledger) ∧
    ((addPark s sid st p to_).compute = s.compute ∧ (addPark s sid st p to_).sifters = s.sifters) ∧
    ((addPark s sid st p to_).fabric = s.fabric ∧ (addPark s sid st p to_).milny = s.milny) ∧
    ((addPark s sid st p to_).power = s.power ∧ (addPark s sid st p to_).update = s.update ∧
    (addPark s sid st p to_).keys = s.keys ∧ (addPark s sid st p to_).rails = s.rails) ∧
    (addPark s sid st p to_).sampled = s.sampled ∧ (addPark s sid st p to_).edge = s.edge ∧
    (addPark s sid st p to_).free = s.free ∧ (addPark s sid st p to_).out = s.out ∧
    (addPark s sid st p to_).pending = s.pending :=
  by and_intros <;> rfl

@[simp] theorem commitEnded_frame (s : State) :
    ((commitEnded s).ident = s.ident ∧ (commitEnded s).od = s.od ∧ (commitEnded s).tally = s.tally ∧
    (commitEnded s).units = s.units) ∧ ((commitEnded s).dev = s.dev ∧ (commitEnded s).pen = s.pen ∧
    (commitEnded s).steward = s.steward ∧ (commitEnded s).bell = s.bell) ∧ ((commitEnded s).host = s.host ∧
    (commitEnded s).sticky = s.sticky ∧ (commitEnded s).counters = s.counters ∧ (commitEnded s).freeze = s.freeze) ∧
    ((commitEnded s).flash = s.flash ∧ (commitEnded s).ledger = s.ledger) ∧ ((commitEnded s).compute = s.compute ∧
    (commitEnded s).sifters = s.sifters) ∧ ((commitEnded s).fabric = s.fabric ∧ (commitEnded s).milny = s.milny) ∧
    ((commitEnded s).power = s.power ∧ (commitEnded s).update = s.update ∧ (commitEnded s).keys = s.keys ∧
    (commitEnded s).rails = s.rails) ∧ (commitEnded s).sampled = s.sampled ∧ (commitEnded s).edge = s.edge ∧
    (commitEnded s).free = s.free ∧ (commitEnded s).out = s.out ∧ (commitEnded s).pending = s.pending :=
  by and_intros <;> rfl

@[simp] theorem checkpointSegment_frame (s : State) (seg : Nat) :
    ((checkpointSegment s seg).ident = s.ident ∧ (checkpointSegment s seg).od = s.od ∧
    (checkpointSegment s seg).tally = s.tally ∧ (checkpointSegment s seg).units = s.units) ∧
    ((checkpointSegment s seg).dev = s.dev ∧ (checkpointSegment s seg).pen = s.pen ∧
    (checkpointSegment s seg).steward = s.steward ∧ (checkpointSegment s seg).bell = s.bell) ∧
    ((checkpointSegment s seg).host = s.host ∧ (checkpointSegment s seg).sticky = s.sticky ∧
    (checkpointSegment s seg).counters = s.counters ∧ (checkpointSegment s seg).freeze = s.freeze) ∧
    (checkpointSegment s seg).flash = s.flash ∧ ((checkpointSegment s seg).compute = s.compute ∧
    (checkpointSegment s seg).streams = s.streams ∧ (checkpointSegment s seg).sifters = s.sifters) ∧
    ((checkpointSegment s seg).fabric = s.fabric ∧ (checkpointSegment s seg).milny = s.milny) ∧
    ((checkpointSegment s seg).power = s.power ∧ (checkpointSegment s seg).update = s.update ∧
    (checkpointSegment s seg).keys = s.keys ∧ (checkpointSegment s seg).rails = s.rails) ∧
    (checkpointSegment s seg).sampled = s.sampled ∧ (checkpointSegment s seg).edge = s.edge ∧
    (checkpointSegment s seg).free = s.free ∧ (checkpointSegment s seg).out = s.out ∧
    (checkpointSegment s seg).pending = s.pending :=
  by and_intros <;> rfl

@[simp] theorem portsDown_frame (s : State) :
    ((portsDown s).ident = s.ident ∧ (portsDown s).od = s.od ∧ (portsDown s).tally = s.tally ∧ (portsDown s).units = s.units) ∧
    ((portsDown s).dev = s.dev ∧ (portsDown s).pen = s.pen ∧ (portsDown s).steward = s.steward ∧ (portsDown s).bell = s.bell) ∧
    ((portsDown s).host = s.host ∧ (portsDown s).sticky = s.sticky ∧ (portsDown s).counters = s.counters ∧
    (portsDown s).freeze = s.freeze) ∧ ((portsDown s).flash = s.flash ∧ (portsDown s).ledger = s.ledger) ∧
    ((portsDown s).compute = s.compute ∧ (portsDown s).streams = s.streams ∧ (portsDown s).sifters = s.sifters) ∧
    (portsDown s).milny = s.milny ∧ ((portsDown s).power = s.power ∧ (portsDown s).update = s.update ∧
    (portsDown s).keys = s.keys ∧ (portsDown s).rails = s.rails) ∧ (portsDown s).sampled = s.sampled ∧
    (portsDown s).edge = s.edge ∧ (portsDown s).free = s.free ∧ (portsDown s).out = s.out ∧ (portsDown s).pending = s.pending :=
  by and_intros <;> rfl

@[simp] theorem sendMilny_frame (s : State) (ty : Nat) (payload : Bytes) :
    ((sendMilny s ty payload).ident = s.ident ∧ (sendMilny s ty payload).od = s.od ∧ (sendMilny s ty payload).tally = s.tally ∧
    (sendMilny s ty payload).units = s.units) ∧ ((sendMilny s ty payload).dev = s.dev ∧ (sendMilny s ty payload).pen = s.pen ∧
    (sendMilny s ty payload).steward = s.steward ∧ (sendMilny s ty payload).bell = s.bell) ∧
    ((sendMilny s ty payload).host = s.host ∧ (sendMilny s ty payload).sticky = s.sticky ∧
    (sendMilny s ty payload).counters = s.counters ∧ (sendMilny s ty payload).freeze = s.freeze) ∧
    ((sendMilny s ty payload).flash = s.flash ∧ (sendMilny s ty payload).ledger = s.ledger) ∧
    ((sendMilny s ty payload).compute = s.compute ∧ (sendMilny s ty payload).streams = s.streams ∧
    (sendMilny s ty payload).sifters = s.sifters) ∧ ((sendMilny s ty payload).fabric = s.fabric ∧
    (sendMilny s ty payload).milny = s.milny) ∧ ((sendMilny s ty payload).power = s.power ∧
    (sendMilny s ty payload).update = s.update ∧ (sendMilny s ty payload).keys = s.keys ∧
    (sendMilny s ty payload).rails = s.rails) ∧ (sendMilny s ty payload).sampled = s.sampled ∧
    (sendMilny s ty payload).edge = s.edge ∧ (sendMilny s ty payload).free = s.free ∧
    (sendMilny s ty payload).pending = s.pending :=
  by and_intros <;> rfl

@[simp] theorem sendAcy_frame (s : State) (payload : Bytes) :
    ((sendAcy s payload).ident = s.ident ∧ (sendAcy s payload).od = s.od ∧ (sendAcy s payload).tally = s.tally ∧
    (sendAcy s payload).units = s.units) ∧ ((sendAcy s payload).dev = s.dev ∧ (sendAcy s payload).pen = s.pen ∧
    (sendAcy s payload).steward = s.steward ∧ (sendAcy s payload).bell = s.bell) ∧ ((sendAcy s payload).host = s.host ∧
    (sendAcy s payload).sticky = s.sticky ∧ (sendAcy s payload).counters = s.counters ∧ (sendAcy s payload).freeze = s.freeze) ∧
    ((sendAcy s payload).flash = s.flash ∧ (sendAcy s payload).ledger = s.ledger) ∧ ((sendAcy s payload).compute = s.compute ∧
    (sendAcy s payload).streams = s.streams ∧ (sendAcy s payload).sifters = s.sifters) ∧
    ((sendAcy s payload).fabric = s.fabric ∧ (sendAcy s payload).milny = s.milny) ∧ ((sendAcy s payload).power = s.power ∧
    (sendAcy s payload).update = s.update ∧ (sendAcy s payload).keys = s.keys ∧ (sendAcy s payload).rails = s.rails) ∧
    (sendAcy s payload).sampled = s.sampled ∧ (sendAcy s payload).edge = s.edge ∧ (sendAcy s payload).free = s.free ∧
    (sendAcy s payload).pending = s.pending :=
  by and_intros <;> rfl

@[simp] theorem accrueOne_frame (s : State) (g : Nat) :
    ((accrueOne s g).ident = s.ident ∧ (accrueOne s g).od = s.od ∧ (accrueOne s g).tally = s.tally ∧
    (accrueOne s g).units = s.units) ∧ ((accrueOne s g).dev = s.dev ∧ (accrueOne s g).pen = s.pen ∧
    (accrueOne s g).steward = s.steward ∧ (accrueOne s g).bell = s.bell) ∧ ((accrueOne s g).host = s.host ∧
    (accrueOne s g).sticky = s.sticky ∧ (accrueOne s g).counters = s.counters ∧ (accrueOne s g).freeze = s.freeze) ∧
    (accrueOne s g).flash = s.flash ∧ ((accrueOne s g).compute = s.compute ∧ (accrueOne s g).streams = s.streams ∧
    (accrueOne s g).sifters = s.sifters) ∧ ((accrueOne s g).fabric = s.fabric ∧ (accrueOne s g).milny = s.milny) ∧
    ((accrueOne s g).power = s.power ∧ (accrueOne s g).update = s.update ∧ (accrueOne s g).keys = s.keys ∧
    (accrueOne s g).rails = s.rails) ∧ (accrueOne s g).sampled = s.sampled ∧ (accrueOne s g).edge = s.edge ∧
    (accrueOne s g).free = s.free ∧ (accrueOne s g).out = s.out ∧ (accrueOne s g).pending = s.pending :=
  by and_intros <;> rfl

@[simp] theorem lineDone_frame (s : State) (k : Nat) :
    ((lineDone s k).ident = s.ident ∧ (lineDone s k).od = s.od ∧ (lineDone s k).tally = s.tally ∧
    (lineDone s k).units = s.units) ∧ ((lineDone s k).dev = s.dev ∧ (lineDone s k).pen = s.pen ∧
    (lineDone s k).steward = s.steward ∧ (lineDone s k).bell = s.bell) ∧ ((lineDone s k).host = s.host ∧
    (lineDone s k).sticky = s.sticky ∧ (lineDone s k).counters = s.counters ∧ (lineDone s k).freeze = s.freeze) ∧
    (lineDone s k).flash = s.flash ∧ ((lineDone s k).compute = s.compute ∧ (lineDone s k).streams = s.streams ∧
    (lineDone s k).sifters = s.sifters) ∧ ((lineDone s k).fabric = s.fabric ∧ (lineDone s k).milny = s.milny) ∧
    ((lineDone s k).power = s.power ∧ (lineDone s k).update = s.update ∧ (lineDone s k).keys = s.keys ∧
    (lineDone s k).rails = s.rails) ∧ (lineDone s k).sampled = s.sampled ∧ (lineDone s k).edge = s.edge ∧
    (lineDone s k).free = s.free ∧ (lineDone s k).out = s.out ∧ (lineDone s k).pending = s.pending :=
  by and_intros <;> rfl

@[simp] theorem unplace_frame (s : State) (d : Nat) :
    ((unplace s d).ident = s.ident ∧ (unplace s d).od = s.od ∧ (unplace s d).tally = s.tally ∧ (unplace s d).units = s.units) ∧
    ((unplace s d).dev = s.dev ∧ (unplace s d).pen = s.pen ∧ (unplace s d).steward = s.steward ∧ (unplace s d).bell = s.bell) ∧
    ((unplace s d).host = s.host ∧ (unplace s d).sticky = s.sticky ∧ (unplace s d).counters = s.counters ∧
    (unplace s d).freeze = s.freeze) ∧ (unplace s d).flash = s.flash ∧ ((unplace s d).compute = s.compute ∧
    (unplace s d).streams = s.streams ∧ (unplace s d).sifters = s.sifters) ∧ ((unplace s d).fabric = s.fabric ∧
    (unplace s d).milny = s.milny) ∧ ((unplace s d).power = s.power ∧ (unplace s d).update = s.update ∧
    (unplace s d).keys = s.keys ∧ (unplace s d).rails = s.rails) ∧ (unplace s d).sampled = s.sampled ∧
    (unplace s d).edge = s.edge ∧ (unplace s d).free = s.free ∧ (unplace s d).out = s.out ∧ (unplace s d).pending = s.pending :=
  by and_intros <;> rfl

@[simp] theorem fdpEvent_frame (s : State) (code handle rg : Nat) :
    ((fdpEvent s code handle rg).ident = s.ident ∧ (fdpEvent s code handle rg).od = s.od ∧
    (fdpEvent s code handle rg).tally = s.tally ∧ (fdpEvent s code handle rg).units = s.units) ∧
    ((fdpEvent s code handle rg).dev = s.dev ∧ (fdpEvent s code handle rg).pen = s.pen ∧
    (fdpEvent s code handle rg).steward = s.steward ∧ (fdpEvent s code handle rg).bell = s.bell) ∧
    ((fdpEvent s code handle rg).host = s.host ∧ (fdpEvent s code handle rg).sticky = s.sticky ∧
    (fdpEvent s code handle rg).counters = s.counters ∧ (fdpEvent s code handle rg).freeze = s.freeze) ∧
    (fdpEvent s code handle rg).flash = s.flash ∧ ((fdpEvent s code handle rg).compute = s.compute ∧
    (fdpEvent s code handle rg).streams = s.streams ∧ (fdpEvent s code handle rg).sifters = s.sifters) ∧
    ((fdpEvent s code handle rg).fabric = s.fabric ∧ (fdpEvent s code handle rg).milny = s.milny) ∧
    ((fdpEvent s code handle rg).power = s.power ∧ (fdpEvent s code handle rg).update = s.update ∧
    (fdpEvent s code handle rg).keys = s.keys ∧ (fdpEvent s code handle rg).rails = s.rails) ∧
    (fdpEvent s code handle rg).sampled = s.sampled ∧ (fdpEvent s code handle rg).edge = s.edge ∧
    (fdpEvent s code handle rg).free = s.free ∧ (fdpEvent s code handle rg).out = s.out ∧
    (fdpEvent s code handle rg).pending = s.pending :=
  by and_intros <;> rfl

@[simp] theorem dropPages_frame (s : State) (die block : Nat) :
    ((dropPages s die block).ident = s.ident ∧ (dropPages s die block).od = s.od ∧ (dropPages s die block).tally = s.tally ∧
    (dropPages s die block).units = s.units) ∧ ((dropPages s die block).dev = s.dev ∧ (dropPages s die block).pen = s.pen ∧
    (dropPages s die block).steward = s.steward ∧ (dropPages s die block).bell = s.bell) ∧
    ((dropPages s die block).host = s.host ∧ (dropPages s die block).sticky = s.sticky ∧
    (dropPages s die block).counters = s.counters ∧ (dropPages s die block).freeze = s.freeze) ∧
    ((dropPages s die block).compute = s.compute ∧ (dropPages s die block).streams = s.streams ∧
    (dropPages s die block).sifters = s.sifters) ∧ ((dropPages s die block).fabric = s.fabric ∧
    (dropPages s die block).milny = s.milny) ∧ ((dropPages s die block).power = s.power ∧
    (dropPages s die block).update = s.update ∧ (dropPages s die block).keys = s.keys ∧
    (dropPages s die block).rails = s.rails) ∧ (dropPages s die block).sampled = s.sampled ∧
    (dropPages s die block).edge = s.edge ∧ (dropPages s die block).free = s.free ∧ (dropPages s die block).out = s.out ∧
    (dropPages s die block).pending = s.pending :=
  by and_intros <;> rfl

@[simp] theorem markMissing_frame (s : State) (parent member reason : Nat) :
    ((markMissing s parent member reason).ident = s.ident ∧ (markMissing s parent member reason).od = s.od ∧
    (markMissing s parent member reason).tally = s.tally ∧ (markMissing s parent member reason).units = s.units) ∧
    ((markMissing s parent member reason).dev = s.dev ∧ (markMissing s parent member reason).pen = s.pen ∧
    (markMissing s parent member reason).steward = s.steward ∧ (markMissing s parent member reason).bell = s.bell) ∧
    ((markMissing s parent member reason).host = s.host ∧ (markMissing s parent member reason).sticky = s.sticky ∧
    (markMissing s parent member reason).counters = s.counters ∧ (markMissing s parent member reason).freeze = s.freeze) ∧
    ((markMissing s parent member reason).flash = s.flash ∧ (markMissing s parent member reason).ledger = s.ledger) ∧
    ((markMissing s parent member reason).compute = s.compute ∧ (markMissing s parent member reason).streams = s.streams) ∧
    ((markMissing s parent member reason).fabric = s.fabric ∧ (markMissing s parent member reason).milny = s.milny) ∧
    ((markMissing s parent member reason).power = s.power ∧ (markMissing s parent member reason).update = s.update ∧
    (markMissing s parent member reason).keys = s.keys ∧ (markMissing s parent member reason).rails = s.rails) ∧
    (markMissing s parent member reason).sampled = s.sampled ∧ (markMissing s parent member reason).edge = s.edge ∧
    (markMissing s parent member reason).free = s.free ∧ (markMissing s parent member reason).out = s.out ∧
    (markMissing s parent member reason).pending = s.pending :=
  by and_intros <;> rfl

@[simp] theorem noteResume_frame (s : State) (parent member resume : Nat) :
    ((noteResume s parent member resume).ident = s.ident ∧ (noteResume s parent member resume).od = s.od ∧
    (noteResume s parent member resume).tally = s.tally ∧ (noteResume s parent member resume).units = s.units) ∧
    ((noteResume s parent member resume).dev = s.dev ∧ (noteResume s parent member resume).pen = s.pen ∧
    (noteResume s parent member resume).steward = s.steward ∧ (noteResume s parent member resume).bell = s.bell) ∧
    ((noteResume s parent member resume).host = s.host ∧ (noteResume s parent member resume).sticky = s.sticky ∧
    (noteResume s parent member resume).counters = s.counters ∧ (noteResume s parent member resume).freeze = s.freeze) ∧
    ((noteResume s parent member resume).flash = s.flash ∧ (noteResume s parent member resume).ledger = s.ledger) ∧
    ((noteResume s parent member resume).compute = s.compute ∧ (noteResume s parent member resume).streams = s.streams) ∧
    ((noteResume s parent member resume).fabric = s.fabric ∧ (noteResume s parent member resume).milny = s.milny) ∧
    ((noteResume s parent member resume).power = s.power ∧ (noteResume s parent member resume).update = s.update ∧
    (noteResume s parent member resume).keys = s.keys ∧ (noteResume s parent member resume).rails = s.rails) ∧
    (noteResume s parent member resume).sampled = s.sampled ∧ (noteResume s parent member resume).edge = s.edge ∧
    (noteResume s parent member resume).free = s.free ∧ (noteResume s parent member resume).out = s.out ∧
    (noteResume s parent member resume).pending = s.pending :=
  by and_intros <;> rfl

@[simp] theorem faultGang_frame (s : State) (ref : GangRef) (g : Gang) (code lanes addr detail : Nat) :
    ((faultGang s ref g code lanes addr detail).ident = s.ident ∧ (faultGang s ref g code lanes addr detail).od = s.od ∧
    (faultGang s ref g code lanes addr detail).tally = s.tally ∧ (faultGang s ref g code lanes addr detail).units = s.units) ∧
    ((faultGang s ref g code lanes addr detail).dev = s.dev ∧ (faultGang s ref g code lanes addr detail).pen = s.pen ∧
    (faultGang s ref g code lanes addr detail).steward = s.steward ∧ (faultGang s ref g code lanes addr detail).bell = s.bell) ∧
    ((faultGang s ref g code lanes addr detail).host = s.host ∧ (faultGang s ref g code lanes addr detail).sticky = s.sticky ∧
    (faultGang s ref g code lanes addr detail).counters = s.counters ∧
    (faultGang s ref g code lanes addr detail).freeze = s.freeze) ∧
    ((faultGang s ref g code lanes addr detail).flash = s.flash ∧
    (faultGang s ref g code lanes addr detail).ledger = s.ledger) ∧
    ((faultGang s ref g code lanes addr detail).streams = s.streams ∧
    (faultGang s ref g code lanes addr detail).sifters = s.sifters) ∧
    ((faultGang s ref g code lanes addr detail).fabric = s.fabric ∧
    (faultGang s ref g code lanes addr detail).milny = s.milny) ∧ ((faultGang s ref g code lanes addr detail).power = s.power ∧
    (faultGang s ref g code lanes addr detail).update = s.update ∧ (faultGang s ref g code lanes addr detail).keys = s.keys ∧
    (faultGang s ref g code lanes addr detail).rails = s.rails) ∧
    (faultGang s ref g code lanes addr detail).sampled = s.sampled ∧ (faultGang s ref g code lanes addr detail).edge = s.edge ∧
    (faultGang s ref g code lanes addr detail).free = s.free ∧ (faultGang s ref g code lanes addr detail).out = s.out ∧
    (faultGang s ref g code lanes addr detail).pending = s.pending :=
  by and_intros <;> rfl

@[simp] theorem releaseBarrier_frame (s : State) (inv : Nat) (b : Barrier) :
    ((releaseBarrier s inv b).ident = s.ident ∧ (releaseBarrier s inv b).od = s.od ∧ (releaseBarrier s inv b).tally = s.tally ∧
    (releaseBarrier s inv b).units = s.units) ∧ ((releaseBarrier s inv b).dev = s.dev ∧ (releaseBarrier s inv b).pen = s.pen ∧
    (releaseBarrier s inv b).steward = s.steward ∧ (releaseBarrier s inv b).bell = s.bell) ∧
    ((releaseBarrier s inv b).host = s.host ∧ (releaseBarrier s inv b).sticky = s.sticky ∧
    (releaseBarrier s inv b).counters = s.counters ∧ (releaseBarrier s inv b).freeze = s.freeze) ∧
    ((releaseBarrier s inv b).flash = s.flash ∧ (releaseBarrier s inv b).ledger = s.ledger) ∧
    ((releaseBarrier s inv b).streams = s.streams ∧ (releaseBarrier s inv b).sifters = s.sifters) ∧
    ((releaseBarrier s inv b).fabric = s.fabric ∧ (releaseBarrier s inv b).milny = s.milny) ∧
    ((releaseBarrier s inv b).power = s.power ∧ (releaseBarrier s inv b).update = s.update ∧
    (releaseBarrier s inv b).keys = s.keys ∧ (releaseBarrier s inv b).rails = s.rails) ∧
    (releaseBarrier s inv b).sampled = s.sampled ∧ (releaseBarrier s inv b).edge = s.edge ∧
    (releaseBarrier s inv b).free = s.free ∧ (releaseBarrier s inv b).out = s.out ∧
    (releaseBarrier s inv b).pending = s.pending :=
  by and_intros <;> rfl

@[simp] theorem holdEntries_frame (s : State) :
    ((holdEntries s).ident = s.ident ∧ (holdEntries s).od = s.od ∧ (holdEntries s).units = s.units) ∧
    ((holdEntries s).dev = s.dev ∧ (holdEntries s).pen = s.pen ∧ (holdEntries s).steward = s.steward ∧
    (holdEntries s).bell = s.bell) ∧ ((holdEntries s).host = s.host ∧ (holdEntries s).sticky = s.sticky ∧
    (holdEntries s).counters = s.counters ∧ (holdEntries s).freeze = s.freeze) ∧ ((holdEntries s).flash = s.flash ∧
    (holdEntries s).ledger = s.ledger) ∧ ((holdEntries s).compute = s.compute ∧ (holdEntries s).streams = s.streams ∧
    (holdEntries s).sifters = s.sifters) ∧ ((holdEntries s).fabric = s.fabric ∧ (holdEntries s).milny = s.milny) ∧
    ((holdEntries s).power = s.power ∧ (holdEntries s).update = s.update ∧ (holdEntries s).keys = s.keys ∧
    (holdEntries s).rails = s.rails) ∧ (holdEntries s).sampled = s.sampled ∧ (holdEntries s).edge = s.edge ∧
    (holdEntries s).free = s.free ∧ (holdEntries s).out = s.out ∧ (holdEntries s).pending = s.pending :=
  by and_intros <;> rfl

@[simp] theorem resumeEntries_frame (s : State) :
    ((resumeEntries s).ident = s.ident ∧ (resumeEntries s).od = s.od ∧ (resumeEntries s).units = s.units) ∧
    ((resumeEntries s).dev = s.dev ∧ (resumeEntries s).pen = s.pen ∧ (resumeEntries s).steward = s.steward ∧
    (resumeEntries s).bell = s.bell) ∧ ((resumeEntries s).host = s.host ∧ (resumeEntries s).sticky = s.sticky ∧
    (resumeEntries s).counters = s.counters ∧ (resumeEntries s).freeze = s.freeze) ∧ ((resumeEntries s).flash = s.flash ∧
    (resumeEntries s).ledger = s.ledger) ∧ ((resumeEntries s).compute = s.compute ∧ (resumeEntries s).streams = s.streams ∧
    (resumeEntries s).sifters = s.sifters) ∧ ((resumeEntries s).fabric = s.fabric ∧ (resumeEntries s).milny = s.milny) ∧
    ((resumeEntries s).power = s.power ∧ (resumeEntries s).update = s.update ∧ (resumeEntries s).keys = s.keys ∧
    (resumeEntries s).rails = s.rails) ∧ (resumeEntries s).sampled = s.sampled ∧ (resumeEntries s).edge = s.edge ∧
    (resumeEntries s).free = s.free ∧ (resumeEntries s).out = s.out ∧ (resumeEntries s).pending = s.pending :=
  by and_intros <;> rfl

@[simp] theorem raiseFloors_frame (s : State) (security : List Nat) :
    ((raiseFloors s security).ident = s.ident ∧ (raiseFloors s security).od = s.od ∧ (raiseFloors s security).tally = s.tally ∧
    (raiseFloors s security).units = s.units) ∧ ((raiseFloors s security).dev = s.dev ∧ (raiseFloors s security).pen = s.pen ∧
    (raiseFloors s security).steward = s.steward ∧ (raiseFloors s security).bell = s.bell) ∧
    ((raiseFloors s security).host = s.host ∧ (raiseFloors s security).sticky = s.sticky ∧
    (raiseFloors s security).counters = s.counters ∧ (raiseFloors s security).freeze = s.freeze) ∧
    ((raiseFloors s security).flash = s.flash ∧ (raiseFloors s security).ledger = s.ledger) ∧
    ((raiseFloors s security).compute = s.compute ∧ (raiseFloors s security).streams = s.streams ∧
    (raiseFloors s security).sifters = s.sifters) ∧ ((raiseFloors s security).fabric = s.fabric ∧
    (raiseFloors s security).milny = s.milny) ∧ ((raiseFloors s security).power = s.power ∧
    (raiseFloors s security).keys = s.keys ∧ (raiseFloors s security).rails = s.rails) ∧
    (raiseFloors s security).sampled = s.sampled ∧ (raiseFloors s security).edge = s.edge ∧
    (raiseFloors s security).free = s.free ∧ (raiseFloors s security).out = s.out ∧
    (raiseFloors s security).pending = s.pending :=
  by and_intros <;> rfl

@[simp] theorem suspendErases_frame (s : State) :
    ((suspendErases s).ident = s.ident ∧ (suspendErases s).od = s.od ∧ (suspendErases s).tally = s.tally ∧
    (suspendErases s).units = s.units) ∧ ((suspendErases s).dev = s.dev ∧ (suspendErases s).pen = s.pen ∧
    (suspendErases s).steward = s.steward ∧ (suspendErases s).bell = s.bell) ∧ ((suspendErases s).host = s.host ∧
    (suspendErases s).sticky = s.sticky ∧ (suspendErases s).counters = s.counters ∧ (suspendErases s).freeze = s.freeze) ∧
    (suspendErases s).ledger = s.ledger ∧ ((suspendErases s).compute = s.compute ∧ (suspendErases s).streams = s.streams ∧
    (suspendErases s).sifters = s.sifters) ∧ ((suspendErases s).fabric = s.fabric ∧ (suspendErases s).milny = s.milny) ∧
    ((suspendErases s).power = s.power ∧ (suspendErases s).update = s.update ∧ (suspendErases s).keys = s.keys ∧
    (suspendErases s).rails = s.rails) ∧ (suspendErases s).sampled = s.sampled ∧ (suspendErases s).edge = s.edge ∧
    (suspendErases s).free = s.free ∧ (suspendErases s).out = s.out ∧ (suspendErases s).pending = s.pending :=
  by and_intros <;> rfl

@[simp] theorem freeFamily_frame (s : State) (i : Nat) :
    ((freeFamily s i).ident = s.ident ∧ (freeFamily s i).od = s.od ∧ (freeFamily s i).units = s.units) ∧
    ((freeFamily s i).dev = s.dev ∧ (freeFamily s i).pen = s.pen ∧ (freeFamily s i).steward = s.steward ∧
    (freeFamily s i).bell = s.bell) ∧ ((freeFamily s i).sticky = s.sticky ∧ (freeFamily s i).counters = s.counters ∧
    (freeFamily s i).freeze = s.freeze) ∧ (freeFamily s i).milny = s.milny ∧ ((freeFamily s i).power = s.power ∧
    (freeFamily s i).update = s.update ∧ (freeFamily s i).keys = s.keys ∧ (freeFamily s i).rails = s.rails) ∧
    (freeFamily s i).sampled = s.sampled ∧ (freeFamily s i).edge = s.edge ∧ (freeFamily s i).free = s.free ∧
    (freeFamily s i).out = s.out ∧ (freeFamily s i).pending = s.pending :=
  by and_intros <;> rfl

/-- The machine's memories are in canonical form at reset: Subsystem Local Memory lists nothing, and there is no core and no invocation. -/
theorem reset_memory : Mem.wf State.reset.compute.slm = true ∧ State.reset.compute.cores = [] ∧ State.reset.compute.invs = [] :=
  ⟨rfl, rfl, rfl⟩

end Sys2Proof.Machine
end

