-- ==== Sys2Proof/Laws/Turns.lean ====
section
/-!
SUPPORT. What each way of serving a command comes to when the command meets its turn.
-/

namespace Sys2Proof.Machine

/-- The fresh entry of a command is the one that its service meets. -/
theorem hostEntry_fresh {s : State} {h : HostId} {i : Nat} {e : Entry} (hf : findHost s h.sq h.cid = some i) (he : entryAt s i = some e) :
    hostEntry s h = some (i, e) := by simp [hostEntry, hf, he]

/-- The service of an admin command at its turn. -/
theorem serveAdmin_turn {s : State} {h : HostId} {i : Nat} (t : AdminTurn s h i) (inFault : Bool) (act : State → Nat → State) :
    serveAdmin s h inFault act = act (setRunning s i) i := by
  obtain ⟨e, he, -, hh, hd⟩ := t.fresh
  simp [serveAdmin, t.up, t.rdy, t.sq, t.boot, hostEntry_fresh t.found he, unserved, hh, hd, t.paused, t.fault]

/-- The service of a vendor admin command at its turn. -/
theorem serveVendorAdmin_turn {s : State} {h : HostId} {i : Nat} (t : AdminTurn s h i) (hr : h.reservedOk = true) (inFault : Bool)
    (act : State → Nat → State) : serveVendorAdmin s h inFault act = act (setRunning s i) i := by
  simp only [serveVendorAdmin, serveAdmin_turn t, hr, if_true]

/-- The service of a vendor admin command with a reserved field that is not zero. -/
theorem serveVendorAdmin_reserved {s : State} {h : HostId} {i : Nat} (t : AdminTurn s h i) (hr : h.reservedOk = false) (inFault : Bool)
    (act : State → Nat → State) : serveVendorAdmin s h inFault act = finish (setRunning s i) i .invalidField 0 0 := by
  simp only [serveVendorAdmin, serveAdmin_turn t, hr, Bool.false_eq_true, if_false]

/-- The service of an admin command that an activation turns away, outside one. -/
theorem serveQuietAdmin_turn {s : State} {h : HostId} {i : Nat} (t : AdminTurn s h i) (ha : activating s = false)
    (act : State → Nat → State) : serveQuietAdmin s h act = act (setRunning s i) i := by
  simp only [serveQuietAdmin, ha, Bool.false_and, Bool.false_eq_true, if_false, serveAdmin_turn t]

/-- What an I/O command meets at its turn. -/
theorem meetIo_turn {s : State} {h : HostId} {i : Nat} (t : IoTurn s h i) (act : State → Nat → State) : meetIo s h act = act s i := by
  obtain ⟨e, he, -, hh, hd, hn⟩ := t.fresh
  have hq : ¬tget s.host.sqs h.sq = none := fun x => by have := t.queue; simp [x] at this
  simp [meetIo, t.up, t.rdy, t.sq, t.boot, hq, hostEntry_fresh t.found he, unserved, hh, hd, hn, t.paused, t.fault, t.sanitize, t.hold,
    t.marker]

/-- The service of an I/O command at its turn. -/
theorem serveIo_turn {s : State} {h : HostId} {i : Nat} (t : IoTurn s h i) (act : State → Nat → State) :
    serveIo s h act = act (setRunning s i) i := by
  simp only [serveIo, meetIo_turn t]

/-- The service of a vendor I/O command at its turn. -/
theorem serveVendorIo_turn {s : State} {h : HostId} {i : Nat} (t : IoTurn s h i) (hr : h.reservedOk = true)
    (act : State → Nat → State) : serveVendorIo s h act = act (setRunning s i) i := by
  simp only [serveVendorIo, serveIo_turn t, hr, if_true]

/-- What a vendor I/O command meets at its turn. -/
theorem meetVendorIo_turn {s : State} {h : HostId} {i : Nat} (t : IoTurn s h i) (hr : h.reservedOk = true)
    (act : State → Nat → State) : meetVendorIo s h act = act s i := by
  simp only [meetVendorIo, meetIo_turn t, hr, if_true]

/-- A tunnel command at its turn hands its request to the steward (R58). -/
theorem tunnel_turn {s : State} {h : HostId} {i : Nat} (t : AdminTurn s h i) (serial : Nat) (op : StewOp) :
    tunnel s h serial op = submit (setRunning s i) ⟨.host, serial, h⟩ op := by
  simp only [tunnel, t.paused, if_false, serveAdmin_turn t]

end Sys2Proof.Machine
end

