-- ==== Sys2Proof/Tests/Slice0.lean ====
section
/-!
SUPPORT. Tests of the model: ill-formed commands that the check refuses, the effect of commands on small states with results taken from
the spec, and for every statement a state and operands that meet its hypotheses.
-/

namespace Sys2Proof.Tests

set_option Elab.async false

open Sys2Proof Sys2Proof.Machine
open Host (Outcome)

/-! ## Small states -/

/-- A drive in RUN with its controller ready, and room in the energy budget of its bell. -/
def running : State := { State.reset with
  dev := { State.reset.dev with state := .run }
  power := { State.reset.power with budget := 9, urgentBudget := 9 }
  host := { State.reset.host with perst := false, en := true, rdy := true } }

/-- The drive in another device state. -/
def inState (s : State) (d : DevState) : State := { s with dev := { s.dev with state := d } }

/-- The drive at another bell, as many edges after power-up. -/
def atBell (s : State) (n : Nat) : State := { s with bell := { s.bell with count := n, ticks := n } }

/-- An entry of an origin in a state. -/
def entryOf (o : Origin) (st : EState) : Entry := ⟨o, 0, 0, 0, 3, st, false, false, 0, 0, 0, 0, 0, none, false, false, none, 0⟩

/-- The tally holds these entries. -/
def withEntries (s : State) (es : List (Nat × Entry)) : State := { s with tally := ⟨es, [], 0⟩ }

/-- The host holds the pen under serial 5. -/
def hostPen (s : State) : State := { s with pen := ⟨some .host, 5, 0, false⟩ }

/-- Objects with written values. -/
def withOd (s : State) (vs : List (Nat × Nat)) : State := { s with od := vs }

/-- An admin command, and an I/O command of queue 1. -/
def adminH : HostId := ⟨0, 7, 0, false, 0, true⟩
def ioH : HostId := ⟨1, 7, 1, false, 0, true⟩

/-- An I/O queue pair. -/
def sq1 : Sq := ⟨16, 0, 0, 0, 1, [], .opened, 0, none, [], false, none⟩
def cq1 : Cq := ⟨16, 1, true, 0, 0⟩

/-- The drive with queue 1, and the command of an identity in tally entry 0. -/
def atHost (s : State) (h : HostId) : State :=
  let s := { s with host := { s.host with sqs := [(1, sq1)], cqs := [(1, cq1)] } }
  withEntries s [(0, entryOf (.host h.sq h.cid) .admitted)]

/-- The completions that wait for their boundary: queue, command, status, DW0, DW1. -/
def lineOf (s : State) : List (Nat × Nat × Status × Nat × Nat) := s.host.posting.map (fun p => (p.sq, p.cid, p.st, p.dw0, p.dw1))

/-- The state a command answers. -/
def after (c : Instr) (s : State) : State := match exec c s with | .next t => t | .fault _ => s | .refused _ => s

/-! ## Turns -/

/-- Does the host side run. -/
def hostRunsB (s : State) : Bool :=
  !stopped s && s.dev.state ≠ .boot && s.dev.state ≠ .paused && s.dev.state ≠ .fault && s.host.rdy

theorem hostRuns_of {s : State} (h : hostRunsB s = true) : HostRuns s := by
  simp [hostRunsB] at h
  exact ⟨h.1.1.1.1, h.1.1.1.2, h.1.1.2, h.1.2, h.2⟩

/-- Does a fresh entry of the command stand. -/
def freshB (s : State) (h : HostId) (i : Nat) (io : Bool) : Bool :=
  match entryAt s i with
  | some e => e.origin = .host h.sq h.cid && e.state ≠ .held && e.dispatched = false && (!io || e.notReady = false)
  | none => false

/-- Is the tally in order. -/
def tallyB (s : State) : Bool :=
  keysRising s.tally.entries && s.tally.entries.all (fun p => p.2.origin.kind ≠ .host || p.2.parent = none)
    && s.tally.waiting.all (fun r => r.origin.kind ≠ .host || r.parent = none)

theorem tallyOk_of {s : State} (h : tallyB s = true) : TallyOk s := by
  simp only [tallyB, Bool.and_eq_true, List.all_eq_true, Bool.or_eq_true, decide_eq_true_eq] at h
  exact ⟨h.1.1, fun p hp k => (h.1.2 p hp).resolve_left (fun n => n k), fun r hr k => (h.2 r hr).resolve_left (fun n => n k)⟩

/-- Does a HOST entry of the command stand that has not ended. -/
def standsB (s : State) (sq cid i : Nat) : Bool :=
  findHost s sq cid = some i && (match entryAt s i with | some e => e.origin = .host sq cid && e.state ≠ .replying | none => false)

theorem stands_of {s : State} {sq cid i : Nat} (hb : standsB s sq cid i = true) : Stands s sq cid i := by
  simp only [standsB, Bool.and_eq_true, decide_eq_true_eq] at hb
  refine ⟨hb.1, ?_⟩
  have d := hb.2
  split at d
  · rename_i e he
    simp at d
    exact ⟨e, he, d.1, d.2⟩
  · cases d

theorem edgeFree_of {s : State}
    (h : s.bell.chime = 0 ∧ s.dev.movedAt ≠ some s.bell.ticks ∧ ∀ a ∈ s.steward.accepted, a.idx = 0x1011 → s.bell.ticks ≤ a.bell) :
    EdgeFree s := ⟨h.1, h.2.1, h.2.2⟩

/-- Is it the turn of an admin command. -/
def adminB (s : State) (h : HostId) (i : Nat) : Bool :=
  hostRunsB s && tallyB s && h.sq = 0 && findHost s h.sq h.cid = some i && freshB s h i false

theorem adminTurn_of {s : State} {h : HostId} {i : Nat} (hb : adminB s h i = true) : AdminTurn s h i := by
  simp only [adminB, Bool.and_eq_true, decide_eq_true_eq] at hb
  obtain ⟨⟨⟨⟨a, t⟩, b⟩, c⟩, d⟩ := hb
  refine ⟨hostRuns_of a, tallyOk_of t, b, c, ?_⟩
  unfold freshB at d
  split at d
  · rename_i e he
    simp at d
    exact ⟨e, he, d.1.1, d.1.2, d.2⟩
  · cases d

/-- Is it the turn of an I/O command. -/
def ioB (s : State) (h : HostId) (i : Nat) : Bool :=
  hostRunsB s && tallyB s && h.sq ≠ 0 && (tget s.host.sqs h.sq).isSome && findHost s h.sq h.cid = some i && freshB s h i true
    && s.keys.sanitize = 0 && s.power.hold = false && heldByMarker s i = false

theorem ioTurn_of {s : State} {h : HostId} {i : Nat} (hb : ioB s h i = true) : IoTurn s h i := by
  simp only [ioB, Bool.and_eq_true, decide_eq_true_eq] at hb
  obtain ⟨⟨⟨⟨⟨⟨⟨⟨a, t⟩, b⟩, c⟩, d⟩, e⟩, f⟩, g⟩, k⟩ := hb
  refine ⟨hostRuns_of a, tallyOk_of t, b, c, d, ?_, f, g, k⟩
  unfold freshB at e
  split at e
  · rename_i x hx
    simp at e
    exact ⟨x, hx, e.1.1.1, e.1.1.2, e.1.2, e.2⟩
  · cases e

/-- Does the steward serve the host command at once. -/
def stewB (s : State) (h : HostId) (i : Nat) : Bool :=
  adminB s h i && s.power.inForce = 0 && !s.power.waking && s.steward.queue = [] && decide (s.steward.served < 32) && h.reservedOk && h.nsid = 0

theorem stewardTurn_of {s : State} {h : HostId} {i : Nat} (hb : stewB s h i = true) : StewardTurn s h i := by
  simp only [stewB, Bool.and_eq_true, decide_eq_true_eq, Bool.not_eq_true'] at hb
  obtain ⟨⟨⟨⟨⟨⟨a, b⟩, c⟩, d⟩, e⟩, f⟩, g⟩ := hb
  exact ⟨adminTurn_of a, b, c, d, e, f, g⟩

/-- The host command of the tunnel at its turn. -/
def atTunnel : State := atHost running adminH

/-! ## Statements about steps, reset, the edges and admission (O1 to O13) -/

theorem test_hyps_StepTakesTheFrontCommand : ∃ (s : State) (c : Instr) (rest : List Instr), s.pending = c :: rest :=
  ⟨{ running with pending := [.chimeBoundary] }, .chimeBoundary, [], rfl⟩

theorem test_hyps_StepIdlesOnAnEmptyQueue : State.reset.pending = [] := rfl

theorem test_hyps_StepsKeepTheBlockSound : ∃ t, Sound { running with pending := [.chimeBoundary] } ∧
    step { running with pending := [.chimeBoundary] } = .next t :=
  ⟨_, by unfold Sound PenOk StickyOk BellOk TallyOk MemoryOk; decide +kernel, rfl⟩

/-- The last edge of 2^64, in RUN, FROZEN and OFF, and one that ends a step. -/
theorem test_hyps_BellEdgeAdvancesTheCount :
    let s := atBell running (2 ^ 64 - 1)
    let st : State := { running with bell := { running.bell with step := some (500, 77) } }
    (after (.bellEdge [] 0 none) st).bell.count = 77 ∧ (after (.bellEdge [] 0 none) (inState s .frozen)).bell.count = 0 ∧ s.rails.alwaysOn = true ∧ stopped s = false ∧ stopped (inState s .frozen) = true ∧ stopped (inState s .off) = true ∧
    (after (.bellEdge [] 0 none) s).bell.count = 0 := by decide +kernel

theorem test_hyps_BellEdgeAgesEveryEntry :
    let s := withEntries running [(3, { entryOf (.host 1 1) .planned with age := 65534 })]
    stopped s = false ∧ ((ageAll s).sticky.pending.map (fun r => r.code)) = [0x0101] ∧
    ((ageAll s).tally.entries.map (fun p => (p.2.age, p.2.promoted))) = [(65535, true)] := by decide +kernel

theorem test_hyps_ChimeBoundaryRunsTheMainDomain :
    let s := { running with bell := { running.bell with chime := 7 } }
    let p : State := { atHost running ioH with host := { (atHost running ioH).host with posting := [⟨1, 7, 0, .penHeld, 0, 0, [5], false⟩] } }
    let d : State := { p with host := { p.host with posting := p.host.posting.map (fun x => { x with dma := true }) } }
    (after .chimeBoundary p).out.take 2 = [.toHost 1 7 [5], .completion 1 7 .penHeld true 0 0 0] ∧
    (after .chimeBoundary d).out = [.toHost 1 7 [5]] ∧ (after .chimeBoundary p).tally.entries = [] ∧ s.rails.alwaysOn = true ∧ s.bell.chime < 8 ∧ stopped s = false ∧ stopped (inState s .off) = true ∧ 8 ≤ (after .chimeBoundary s).bell.chime := by
  decide +kernel

/-- A request that passes, and one of CLASS 0 that is refused while OD 0x2045.00 is 0. -/
theorem test_hyps_AdmissionFollowsTheTest :
    let r : Request := ⟨.host 1 9, 0, 3, 4095, none, 0, false, false, 0, none⟩
    let w (x : Request) : State := { withOd running [(odKey 0x2045 0, 0)] with tally := ⟨[], [x], 0⟩ }
    (considerOne (w { r with cls := 0 }) { r with cls := 0 }).tally.waiting.map (fun x => x.refusals) = [1] ∧
    (considerOne (w { r with origin := .fabric 1 2, cls := 0 }) { r with origin := .fabric 1 2, cls := 0 }).tally.waiting = [] ∧
    entryAt (considerOne (w r) r) 0 ≠ none ∧ admits running r.origin.kind r.cls = true ∧ admits (withOd running [(odKey 0x2045 0, 0)]) r.origin.kind 0 = false := by decide +kernel

theorem test_hyps_PlanOrderFollowsEffectiveClass :
    before (4, { entryOf (.host 1 1) .planned with promoted := true }) (2, { entryOf (.host 1 2) .planned with cls := 2 }) = true ∧
    before (4, { entryOf (.host 1 1) .planned with age := 3 }) (2, entryOf (.host 1 2) .planned) = true ∧
    before (4, entryOf (.host 1 1) .planned) (2, entryOf (.host 1 2) .planned) = false := by decide +kernel

theorem test_hyps_CompletionIsPosted :
    let s := withEntries (atHost running ioH) [(0, entryOf (.host 1 7) .running), (4, { entryOf (.internal 1 2) .running with parent := some 0 })]
    let p : Posting := ⟨1, 7, 0, .success, 0, 0, [5], true⟩
    let l : State := { s with host := { s.host with posting := [p, { p with dma := false }] } }
    (entryAt s 0 = some (entryOf (.host 1 7) .running)) ∧ p ∈ l.host.posting ∧ { p with dma := false } ∈ l.host.posting ∧
    lineOf (finish s 0 .unitReset 3 4) = [(1, 7, .unitReset, 3, 4)] ∧ (finish s 0 .unitReset 3 4).tally.entries.length = 1 := by decide +kernel

/-! ## Statements about the tunnel, the pen and the side-band (O14 to O21) -/


/-- CONFIG, and a host write of OD 0x2044.00 there, which passes where the host holds the pen. -/
def inConfig : State := inState atTunnel .config
def odWriteCmd : Instr := .odWrite adminH 0x2044 0 false 5 [9, 0]

theorem test_hyps_ObjectWriteIsAccepted : ∃ w values ty, objectWrite odWriteCmd = some w ∧ w.via.master = .host ∧
    StewardTurn (hostPen inConfig) w.via.h 0 ∧ 0 < w.data.length ∧ w.data.length ≤ 4096 ∧
    checkWrite (atSteward (hostPen inConfig) 0) .host w.via.serial w.idx w.sub w.allsub w.data = .ok (values, ty) :=
  ⟨_, [(0, 9)], 3, rfl, rfl, stewardTurn_of (by decide +kernel), by decide, by decide, by rfl⟩

/-- Without the pen the write fails with result code 6. -/
theorem test_hyps_ObjectWriteIsRefused : ∃ w a, objectWrite odWriteCmd = some w ∧ w.via.master = .host ∧
    StewardTurn inConfig w.via.h 0 ∧ 0 < w.data.length ∧ w.data.length ≤ 4096 ∧
    checkWrite (atSteward inConfig 0) .host w.via.serial w.idx w.sub w.allsub w.data = .error a ∧ a.code = 6 :=
  ⟨_, _, rfl, rfl, stewardTurn_of (by decide +kernel), by decide, by decide, by rfl, by decide⟩

theorem test_hyps_ObjectReadIsAnswered : StewardTurn atTunnel adminH 0 ∧
    (after (.odRead adminH 0x1010 0 false 0 1) atTunnel).host.posting.map (fun p => p.data) = [[3]] :=
  ⟨stewardTurn_of (by decide +kernel), by decide +kernel⟩

/-- The serial follows 65,535 with 1; the four cases of a take. -/
theorem test_hyps_PenTakeMovesThePen :
    let free : State := { atTunnel with pen := ⟨none, 65535, 0, false⟩ }
    let side : State := { withOd atTunnel [(odKey 0x1023 0, 1)] with pen := ⟨some .sideband, 9, 3, false⟩ }
    StewardTurn free adminH 0 ∧ StewardTurn side adminH 0 ∧ StewardTurn (hostPen atTunnel) adminH 0 ∧
    ((after (.penTake adminH false) free).pen.holder, (after (.penTake adminH false) free).pen.serial) = (some .host, 1) ∧ bit (odVal side 0x1023 0) 0 = true ∧
    ((after (.penTake adminH true) side).pen.serial, lineOf (after (.penTake adminH true) side)) = (10, [(0, 7, .success, 131082, 0)]) ∧ (after (.penTake adminH false) side).pen = side.pen ∧ side.pen.holder = some .sideband :=
  ⟨stewardTurn_of (by decide +kernel), stewardTurn_of (by decide +kernel), stewardTurn_of (by decide +kernel), by decide +kernel,
    by decide +kernel, by decide +kernel, by decide +kernel⟩

theorem test_hyps_PenGiveReleasesThePen : StewardTurn (hostPen atTunnel) adminH 0 ∧
    (after (.penGive adminH 5) (hostPen atTunnel)).pen.holder = none ∧ (after (.penGive adminH 4) (hostPen atTunnel)).pen.holder = some .host :=
  ⟨stewardTurn_of (by decide +kernel), by decide +kernel, by decide +kernel⟩

/-- A write accepted at bell 9 acts at bell 10, one accepted at bell 10 does not. -/
theorem test_hyps_WritesTakeEffectAtTheEdge :
    let a : Accepted := ⟨⟨.host, 5, adminH⟩, 0x2044, [(0, 77)], 2, 3, 9, false⟩
    let s := atBell { inConfig with steward := ⟨[], 0, [a, { a with bell := 10 }], []⟩ } 10
    s.bell.chime = 0 ∧ (inState s .boot).dev.state = .boot ∧ stopped s = false ∧ s.dev.state ≠ .boot ∧ a.idx = 0x2044 ∧ a.values = [(0, 77)] ∧
    (after .writeApply s).steward.accepted = [{ a with bell := 10 }] ∧ odVal (after .writeApply s) 0x2044 0 = 77 := by decide +kernel

/-- A drive with the station address 3, and a side-band read of OD 0x1010.00 under token 1. -/
def station (s : State) : State := { s with milny := { s.milny with address := 3 } }
def sideReq : AcyReq := ⟨1, 0x1010, 0, false, false, 0, 0, 1, true, true, []⟩

/-- Does the always-on domain take the request anew. -/
theorem sideTurn_of {s : State} {r : AcyReq} (hb : (s.rails.alwaysOn = true ∧ s.milny.address ≠ 0x7E) ∧
    (r.reservedOk = true ∧ r.lengthOk = true ∧ r.token ≠ 0) ∧ s.milny.held = none) : SideTurn s r :=
  ⟨hb.1.1, hb.1.2, hb.2.1, hb.2.2⟩

theorem test_hyps_SideBandRequestIsTaken : SideTurn (station running) sideReq ∧ SideServed (station running) ∧
    (∃ w, objectWrite (.stateRequestRun ⟨.sideband, 4, adminH⟩) = some w ∧ w.via.master = .sideband) ∧
    SideTurn (inState (station running) .frozen) sideReq ∧ SideTurn (inState (station running) .boot) sideReq ∧
    (after (.acyOdRead sideReq) (station running)).steward.queue.length = 1 :=
  ⟨sideTurn_of (by decide +kernel), ⟨by decide +kernel, by decide +kernel, by decide +kernel⟩, ⟨_, rfl, rfl⟩, sideTurn_of (by decide +kernel),
    sideTurn_of (by decide +kernel), by decide +kernel⟩

/-- An answer that is ready, one that is not, a token that is not held, a snapshot in FROZEN and outside it. -/
theorem test_hyps_SideBandPollAndSnapshot :
    let ready : HeldReq := ⟨1, sideReq, some [1, 2], none, false, false⟩
    let s := station { running with milny := { running.milny with held := some ready } }
    let f : State := { inState (station running) .frozen with freeze := ⟨some ⟨4, 0, 8, 3, []⟩, none, true, false⟩ }
    (s.milny.held = some ready ∧ ready.req.token ≠ 0 ∧ ready.answer = some [1, 2]) ∧
    ({ ready with answer := none }.answer = none) ∧ (∀ x, s.milny.held = some x → x.req.token ≠ 2) ∧
    SideTurn f sideReq ∧ f.dev.state = .frozen ∧ f.freeze.live = some ⟨4, 0, 8, 3, []⟩ ∧ 0 < sideReq.length ∧ snapLength - 1 + sideReq.length ≤ snapLength ∧
    SideTurn (station running) sideReq ∧ (station running).dev.state ≠ .frozen := by
  refine ⟨by decide, rfl, ?_, sideTurn_of (by decide +kernel), rfl, rfl, by decide, by decide +kernel, sideTurn_of (by decide +kernel), by decide⟩
  rintro x h
  cases h
  decide

/-! ## Statements about the platform, sources, replies and units (O22 to O27) -/

theorem test_hyps_OnlyPlatformCommandsChangeThePlatform : platformCommand (.abort adminH 1 1) = false ∧
    controlCommand (.abort adminH 1 1) = false ∧ (∃ t, exec (.abort adminH 1 1) running = .next t) := ⟨rfl, rfl, _, rfl⟩

/-- An idle pen at its limit, the linger at its limit, a drain with no entry left. -/
theorem test_hyps_DriveMovesOfItsOwnAccord :
    let idle : State := { running with pen := ⟨some .host, 5, 1000 * odVal running 0x1022 0, false⟩ }
    let linger : State := { running with dev := { running.dev with state := .config, lingerUs := 1000 * odVal running 0x1012 0 } }
    let drain := atBell (inState running .drain) 1
    (stopped idle = false ∧ idle.bell.chime = 0 ∧ 1000 * odVal idle 0x1022 0 ≤ idle.pen.idleUs) ∧
    (linger.pen.holder = none ∧ 1000 * odVal linger 0x1012 0 ≤ linger.dev.lingerUs ∧ linger.fabric.rejoin = false) ∧
    (drain.dev.drainForActivation = false ∧ drain.dev.drainBell < drain.bell.ticks ∧ drain.tally.entries = []) ∧
    (after .configLingerExpired linger).dev.lastCause = 4 ∧ (after .drainComplete drain).dev.lastCause = 5 ∧ EdgeFree linger ∧ EdgeFree drain :=
  ⟨by decide +kernel, by decide +kernel, by decide +kernel, by decide +kernel, by decide +kernel, edgeFree_of (by decide +kernel),
    edgeFree_of (by decide +kernel)⟩

/-- Both sources qualified and selectable for the guild; 16 measurements inside and outside the bound. -/
theorem test_hyps_BellSourcesAreTakenUpAndLost :
    let two : State := { running with bell := { running.bell with
      bellIn := ⟨true, 100000⟩, guild := ⟨true, 100000⟩, followed := 1, guildSince := 64, align := .acquire, inBound := 16, outBound := 16 } }
    let f : State := { running with bell := { running.bell with bellInLast := some 64, bellInGood := true } }
    (f.bell.bellInGood = true ∧ 64 % 64 = 0 ∧ f.bell.followed ≠ 1 ∧ (after (.bellInFrame 129 true) f).bell.log.length = 1) ∧
    two.bell.followed = 1 ∧ selectable two 2 = true ∧ (two.rails.alwaysOn = true ∧ two.bell.bellIn.qualified = true ∧ two.bell.guild.qualified = true ∧ 64 ≤ two.bell.guildSince ∧
      two.bell.align = .acquire ∧ 16 ≤ two.bell.inBound ∧ two.dev.state = .run) ∧
    (f.bell.bellInLast = some 64 ∧ (after (.bellInFrame 128 true) f).bell.bellIn.qualified = true) ∧
    (after .alignmentLocked two).bell.align = .locked := by decide +kernel

theorem test_hyps_BellSourceOfHighestPrecedence :
    let s : State := { running with bell := { running.bell with bellIn := ⟨true, 100000⟩, guild := ⟨true, 100000⟩ } }
    let lost : State := { running with bell := { running.bell with bellIn := ⟨true, 100000⟩, followed := 1, align := .locked, outBound := 16 } }
    bestSource s = 2 ∧ s.bell.followed ≠ 2 ∧
    (after (.sourceQualified .guild s.bell.count 1000) s).bell.slewPs = 1000000 ∧ (after (.sourceQualified .guild 500 1000) s).bell.step.isSome ∧
    (lost.bell.followed = 1 ∧ selectable lost 2 = false ∧ lost.bell.align ≠ .holdover ∧ lost.bell.align = .locked ∧ 16 ≤ lost.bell.outBound) ∧
    (after (.bellInLost false) lost).bell.align = .holdover ∧
    (let g : State := { running with bell := { running.bell with guild := ⟨true, 100000⟩, followed := 2 } }
     let b : State := { g with bell := { g.bell with bellIn := ⟨true, 100000⟩ } }
     selectable g 1 = false ∧ selectable b 1 = true ∧ (after (.guildSourceLost true) g).bell.followed = 0) := by decide +kernel

/-- A reply under epoch 1 of a unit under epoch 0. -/
theorem test_hyps_LateRepliesAreDiscarded : stopped running = false ∧ 245 ≤ 245 ∧ 1 ≠ (unitOf running 245).epoch := by decide +kernel

theorem test_hyps_RepliesWaitsAndDeadlines :
    let e := { entryOf (.host 1 7) .running with unit := 24, deadline := 3, admitBell := 2 }
    let s := atBell (withEntries running [(0, e)]) 5
    let r : Request := ⟨.internal 2 1, 0, 3, 24, some 0, 0, false, false, 8 * odVal running 0x2046 0, none⟩
    let w : State := { s with tally := { s.tally with waiting := [r] } }
    (entryAt s 0 = some e ∧ e.unit = 24 ∧ e.epoch = (unitOf s 24).epoch ∧ e.state = .running) ∧
    (w.tally.waiting[0]? = some r ∧ r.parent = some 0 ∧ 8 * odVal w 0x2046 0 ≤ r.refusals) ∧
    (stopped s = false ∧ s.dev.state ≠ .paused ∧ e.deadline ≠ 0 ∧ e.admitBell + e.deadline ≤ s.bell.count ∧ searchOf s 0 = none) ∧
    s.bell.chime = 0 ∧ lineOf (after (.deadlineEdge 0) s) = [(1, 7, .deadlineMissed, 0, 0)] ∧ rootOf w 4 0 = 0 ∧
    (let k := { e with origin := .internal 13 0 }
     let v := withEntries running [(3, k)]
     entryAt v 3 = some k ∧ k.origin.kind ≠ .host ∧ (entryAt (after (.unitReply 24 0 3 .success) v) 3).map (fun x => x.state) = some .replying) := by
  decide +kernel

/-- Unit 24 is reset by the host; a unit that may not be reset; UNIT_IDLE; hard overruns of a wright core and of the steward. -/
theorem test_hyps_UnitResetsRaiseTheEpoch :
    let crossed (u : Nat) : State := { running with units := [(u, { UnitSt.reset with crossed := odVal running 0x2081 0 })] }
    let rst : State := { running with units := [(24, { UnitSt.reset with state := .reset, epoch := 255 })] }
    let wait : State := { atTunnel with units := [(24, { UnitSt.reset with state := .reset, epoch := 9, epochBefore := 8, resetWaiters := [(0, 7)] })] }
    Stands wait 0 7 0 ∧ lineOf (after (.unitIdle 24) wait) = [(0, 7, .success, 2057, 0)] ∧ AdminTurn (hostPen atTunnel) adminH 0 ∧ activating (hostPen atTunnel) = false ∧ unitResettable (hostPen atTunnel) 24 = true ∧
    (unitOf (hostPen atTunnel) 24).state ≠ .reset ∧ unitResettable atTunnel 0 = false ∧ holdsPen atTunnel .host 5 = false ∧
    (unitOf rst 24).state = .reset ∧ (after (.unitIdle 24) rst).units = [(24, { UnitSt.reset with epoch := 255 })] ∧
    (unitPresent (crossed 24) 24 = true ∧ odVal (crossed 24) 0x2081 0 ≤ (unitOf (crossed 24) 24).crossed) ∧
    ((crossed 7).dev.state = .run ∧ odVal (crossed 7) 0x2081 0 ≤ (unitOf (crossed 7) 7).crossed) ∧ (after (.hardOverrun 7) (crossed 7)).dev.lastCause = 11 :=
  ⟨stands_of (by decide +kernel), by decide +kernel, adminTurn_of (by decide +kernel), by decide +kernel, by decide +kernel, by decide +kernel, by decide +kernel, by decide +kernel,
    by decide +kernel, by decide +kernel, by decide +kernel, by decide +kernel, by decide +kernel⟩


/-! ## Statements about host queues, features, logs, resets, data and namespaces (O28 to O35) -/

/-- A namespace of 16 LBAs with one map extent, and a command that names NSID 1. -/
def ns1 : Namespace := ⟨0, 16, [5], 1⟩
def withNs (s : State) : State := { s with ledger := { s.ledger with nss := [(1, ns1)] } }

/-- The admin command at its turn, with queue 1 as given. -/
def withSq (q : Sq) : State := { atTunnel with host := { atTunnel.host with sqs := [(1, q)] } }

theorem test_hyps_HostQueuesComeAndGo :
    let two : State := { atTunnel with host := { atTunnel.host with cqs := [(1, cq1), (2, cq1)] } }
    let cmds : List SqCmd := (List.range 15).map (fun c => ⟨c, 1, .other, false, 0⟩)
    (stopped atTunnel = false ∧ atTunnel.host.en = true ∧ atTunnel.host.rdy = true ∧ tget atTunnel.host.sqs 1 = some sq1 ∧ cmds ≠ [] ∧
      15 = (sq1.tail + cmds.length) % sq1.size ∧ sq1.slots.length + cmds.length < sq1.size) ∧
    AdminTurn atTunnel adminH 0 ∧
    (ioQueue 128 = true ∧ tget atTunnel.host.sqs 128 = none ∧ ioQueue 1 = true ∧ (tget atTunnel.host.cqs 1).isSome = true ∧ ioQueueSize 1024 = true ∧ 3 ≤ 3 ∧ 128 ≤ 128) ∧
    (tget atTunnel.host.cqs 128 = none) ∧ (sq1.deleting = none ∧ sq1.thaws = [] ∧ undispatchedOf atTunnel 1 = [] ∧ queueStands atTunnel 1 = false) ∧
    (let s := withEntries atTunnel [(0, entryOf (.host 0 7) .admitted), (1, { entryOf (.host 1 3) .running with dispatched := true })];
      AdminTurn s adminH 0 ∧ undispatchedOf s 1 = [] ∧ queueStands s 1 = true) ∧
    ((tget two.host.cqs 2).isSome = true ∧ ∀ p ∈ two.host.sqs, p.1 ≠ 0 → p.2.cq ≠ 2) :=
  ⟨by decide +kernel, adminTurn_of (by decide +kernel), by decide +kernel, by decide +kernel, by decide +kernel,
    ⟨adminTurn_of (by decide +kernel), by decide +kernel⟩, by decide +kernel⟩

/-- A DRAINING queue 1 with serial 4, and a QUIET one with a Thaw. -/
theorem test_hyps_FrozenQueuesAreThawed :
    let d : Sq := { sq1 with freeze := .draining, serial := 4 }
    let q : Sq := { sq1 with freeze := .quiet, thaws := [⟨1, 7, true⟩], slots := [⟨3, 1, .other, false, 0⟩] }
    AdminTurn (withSq d) adminH 0 ∧ tget (withSq d).host.sqs 1 = some d ∧ d.freeze ≠ .opened ∧ d.serial ≠ 3 ∧ dispatchedOf (withSq d) 1 = 0 ∧
    tget (withSq q).host.sqs 1 = some q ∧ (withSq q).dev.state ≠ .paused ∧ Stands (withSq q) 0 7 0 ∧ lineOf (after (.queueReopen 1) (withSq q)) = [(0, 7, .success, 1, 0)] ∧
    (tgetD (after (.queueReopen 1) (withSq q)).host.sqs 1 d).freeze = .opened :=
  ⟨adminTurn_of (by decide +kernel), by decide +kernel, by decide, by decide, by decide +kernel, by decide +kernel, by decide, stands_of (by decide +kernel), by decide +kernel, by decide +kernel⟩

theorem test_hyps_AbortTakesOnlyWaitingCommands :
    let s (st : EState) : State := withEntries atTunnel [(0, entryOf (.host 0 7) .admitted), (4, entryOf (.host 1 3) st)]
    AdminTurn (s .planned) adminH 0 ∧ findHost (s .planned) 1 3 = some 4 ∧ entryAt (s .planned) 4 = some (entryOf (.host 1 3) .planned) ∧
    findHost (s .running) 1 3 = some 4 ∧ (entryOf (.host 1 3) .running).state ≠ .admitted ∧ findHost (s .planned) 1 2 = none ∧
    (lineOf (after (.abort adminH 1 3) (s .planned)) = [(1, 3, .abortRequested, 0, 0), (0, 7, .success, 0, 0)] ∧ 4 ∉ family (s .planned) 0) :=
  ⟨adminTurn_of (by decide +kernel), by decide +kernel, by decide +kernel, by decide +kernel, by decide, by decide +kernel, by decide +kernel⟩

theorem test_hyps_FeaturesAnswerAndTakeEffect : AdminTurn atTunnel adminH 0 ∧ 5 ∉ [1, 2, 4, 7, 12, 0x11, 0x1D] ∧
    ([(2 ^ 24 - 1, 5)] : List (Nat × Nat)).length ≤ 32 ∧ (∀ e ∈ [(2 ^ 24 - 1, 5)], e.1 < 2 ^ 24 ∧ e.2 ≤ 5) ∧ atTunnel.ledger.nss = [] :=
  ⟨adminTurn_of (by decide +kernel), by decide, by decide, by decide, rfl⟩

theorem test_hyps_LogsAreReadAndEventsArmed :
    let st : State := { atTunnel with freeze := ⟨none, some ⟨4, 0, 8, 3, []⟩, false, true⟩ }
    AdminTurn atTunnel adminH 0 ∧ atTunnel.ident.meshed = true ∧ 8252 + 4 ≤ (bellPage (setRunning atTunnel 0)).length ∧
    AdminTurn st adminH 0 ∧ st.freeze.stored = some ⟨4, 0, 8, 3, []⟩ ∧ snapLength - 4 + 4 ≤ snapLength ∧ atTunnel.freeze.stored = none ∧
    atTunnel.host.aers.length < 8 ∧ atTunnel.host.pendingEvents = [] ∧ stopped atTunnel = false :=
  ⟨adminTurn_of (by decide +kernel), rfl, by decide +kernel, adminTurn_of (by decide +kernel), rfl, by decide +kernel, rfl, by decide, rfl, by decide +kernel⟩

theorem test_hyps_ControllerResetsLeaveTheRest :
    let act : State := { running with dev := { running.dev with state := .drain, drainForActivation := true } }
    let off : State := { running with host := { HostSide.reset with perst := false } }
    (inState running .boot).dev.state = .boot ∧ (inState running .boot).host.perst = false ∧
    (stopped running = false ∧ running.dev.state ≠ .boot ∧ running.host.en = true ∧ activating running = false ∧ running.host.perst = false) ∧
    (stopped act = false ∧ act.host.en = true ∧ activating act = true) ∧
    (off.host.perst = false ∧ off.host.en = false ∧ off.update.cfs = false ∧ off.host.enClearDeferred = false ∧ adminQueueSize 4096 = true) ∧
    State.reset.host.perst = true ∧ (after (.ccEnSet 1 2 4096) off).host.rdy = true ∧
    (after .ccEnClear (hostPen running)).pen.holder = none := by decide +kernel

theorem test_hyps_NvmDataCommands :
    let s := withNs (atHost running ioH)
    IoTurn s ioH 0 ∧ nsOf s 1 = some ns1 ∧ rangeError s 1 15 1 = none ∧ (s.ledger.writes = [] ∧ s.ledger.readOnly = false) ∧
    ledgerDown s (iusOf ns1 (unitsOf ns1 15 1)) = false ∧
    (Stands s 1 7 0 ∧ jobDone { s with ledger := { s.ledger with writes := [⟨0, 0, 0, 1, 0, []⟩] } } 0 = true ∧ s.streams.table = []) ∧
    namedNs s 1 ≠ [] ∧ (∀ r ∈ [(0, 16)], r.1 + r.2 ≤ ns1.nsze) ∧ lineOf (after (.flush ioH) s) = [(1, 7, .success, 0, 0)] ∧
    ((after (.nvmRead ioH 15 0 1) s).flash.jobs.map (fun j => (j.entry, j.units, j.got)) = [(0, [15], [(0, 0)])]) ∧
    (let j : ReadJob := ⟨0, .host, 1, [15], [], [], [(0, 5)], []⟩
     (hostReadDone s j).host.posting.map (fun p => (p.st, p.data, p.dma)) = [(.success, [5], true)] ∧
     (hostReadDone s { j with got := [], lost := [0] }).host.posting.map (fun p => p.st) = [.unrecoveredRead]) :=
  ⟨ioTurn_of (by decide +kernel), by decide +kernel, by decide +kernel, by decide +kernel, by decide +kernel,
    ⟨stands_of (by decide +kernel), by decide +kernel, rfl⟩, by decide +kernel, by decide, by decide +kernel, by decide +kernel, by decide +kernel⟩

theorem unburdened_of {s : State} {i : Nat} (h : s.ledger.writes = [] ∧ s.flash.jobs = [] ∧ s.streams.table = []) : Unburdened s i := by
  obtain ⟨a, b, c⟩ := h
  exact ⟨by simp [a], by simp [b], by simp [c]⟩

theorem test_hyps_NamespacesAreMadeAndWiped :
    let h : HostId := { adminH with nsid := 1 }
    let s := withNs atTunnel
    let f : State := withNs (atHost { running with ledger := { running.ledger with fdp := true } } ioH)
    AdminTurn atTunnel adminH 0 ∧ (16 * lbaSize 0 % 16384 = 0 ∧ (List.range 64).find? (fun n => (nsOf s (n + 1)).isNone) = some 1 ∧
      takeExtents s (16 * lbaSize 0 / 16384) = some [0]) ∧
    AdminTurn s h 0 ∧ nsOf s h.nsid = some ns1 ∧ boundBusy s 1 = false ∧ s.keys.sanitize = 0 ∧ s.sifters.slots = [] ∧
    IoTurn { f with ledger := { f.ledger with fdp := true } } ioH 0 ∧ nsOf f 1 = some ns1 ∧ (∀ p ∈ [8192 * 7 + 63], p % 8192 ≤ 63) ∧
    (after (.namespaceDelete h) s).ledger.nss = [] ∧ Unburdened s 0 ∧
    (let z : State := { s with keys := { s.keys with sanitize := 1, sanitizeEntry := some 0 } }
     z.keys.sanitize ≠ 0 ∧ z.keys.sanitizeEntry = some 0 ∧ Stands z 0 7 0) ∧
    (let k := bandOf f 8; let o : State := { f with ledger := { f.ledger with bands := [(8, { k with st := .open, handle := some 5 })] } }
     IoTurn o ioH 0 ∧ nsOf o 1 = some ns1 ∧ (bandOfPair o 5 0).map (fun p => p.1) = some 8 ∧ (bandOf o 8).st = .open ∧
       (bandOf o 8).pagesWritten % 16 = 0 ∧ (bandOf (after (.ioManagementSend ioH [5]) o) 8).st = .closed) :=
  ⟨adminTurn_of (by decide +kernel), by decide +kernel, adminTurn_of (by decide +kernel), by decide +kernel, by decide +kernel, rfl, rfl,
    ioTurn_of (by decide +kernel), by decide +kernel, by decide, by decide +kernel, unburdened_of ⟨rfl, rfl, rfl⟩,
    ⟨by decide +kernel, rfl, stands_of (by decide +kernel)⟩, ioTurn_of (by decide +kernel), by decide +kernel⟩

/-! ## Statements about flash and the ledger (O36 to O40) -/

/-- An address on die 0, and a die in a state. -/
def addr0 : FlashAddr := ⟨0, 3, 9, 0, 0⟩
def withDie (d : Die) : State := { running with flash := { running.flash with dies := [(0, d)] } }

/-- A die at rest. -/
def idleDie : Die := dieOf running 0

/-- Two dies of another stripe position are programming beside die 0. -/
def fencing (s : State) : State := { s with flash := { s.flash with dies := s.flash.dies ++
  [(1, { idleDie with st := .programming }), (32, { idleDie with st := .programming })] } }

/-- A ladder of entry 0 at the address, as it stands. -/
def ladder0 (st : LadderSt) : Ladder := ⟨0, addr0, false, false, st, 9, none, true, false, false, false, []⟩

theorem test_hyps_FlashReadsRunOnReadableDies :
    let er : State := withDie { idleDie with st := .erasing, erase := some ⟨9, false, 1, 0, false, 0⟩ }
    let r : DieRead := ⟨addr0, 15, false, 0, false, 4, List.replicate 7 0, false⟩
    let rd (x : DieRead) : State := withDie { idleDie with st := .sensing, read := some x }
    (stopped running = false ∧ addrOk running addr0 false = true ∧ modeOk running 0 9 false = true ∧ (dieOf running 0).st = .idle ∧
      readable running 0 = true) ∧
    (takesRead er 0 = false ∧ addrOk er addr0 false = true) ∧ addrOk running { addr0 with block := 2047 } false = false ∧
    modeOk running 0 9 true = false ∧ modeOk running 0 7 false = false ∧
    ((dieOf (rd r) 0).st = .sensing ∧ (dieOf (rd r) 0).read = some r ∧ 0 < (rd r).ident.dies ∧ (unitOf (rd r) (channelUnit 0)).state ≠ .reset) ∧
    (dieOf (rd { r with crossing := true }) 0).read = some { r with crossing := true } ∧
    (isSibling (rd r) r.entry = false ∧ (rd r).flash.ladders = [] ∧
      ∀ k ∈ maskBits r.mask, outcomeOf ((List.range 4).map (fun k => ⟨k, .corrected 2⟩)) k = .corrected 2) ∧
    (dieOf (after (.read addr0 15 (.retry 8) false 4) running) 0).st = .sensing ∧
    (after (.readCancel 0) (rd r)).out = [.die 0 1 6 [], .die 0 3 0 []] := by decide +kernel

theorem test_hyps_ProgramsKeepTheFence :
    let p : DieProgram := ⟨7, 767, true, [.filler, .filler, .filler, .filler], 9, 0⟩
    let pr : State := withDie { idleDie with st := .programming, program := some p }
    let wait : State := withEntries (withDie { idleDie with pending := some (.program p) }) [(9, { entryOf (.internal 9 7) .admitted with unit := 200 })]
    let fill : List SourcePage := [.filler, .filler, .filler, .filler]
    (stopped running = false ∧ (dieOf running 0).st = .idle ∧ (dieOf running 0).pending = none ∧ channelInReset running 0 = false ∧
      fenceHeld running 0 = false ∧ modeOk running 0 7 true = true) ∧
    fenceHeld (fencing running) 0 = true ∧ ((dieOf pr 0).st = .programming ∧ (dieOf pr 0).program = some p ∧ (dieOf pr 0).st ≠ .idle) ∧
    ((dieOf wait 0).pending = some (.program p) ∧ dieJob wait 9 0 = some 9 ∧ fenced wait 0 = false ∧ channelInReset wait 0 = false) ∧
    (dieOf (startPending wait 0) 0).st = .programming ∧ (dieOf (after (.program 0 7 767 true fill) running) 0).pending.isSome = true ∧
    (after (.program 0 1840 0 true []) running).out = [.die 0 4 8 []] ∧ (after (.program 0 7 767 true fill) (fencing running)).out = [.die 0 4 4 []] ∧
    (after (.programComplete 0 false) pr).out = [.die 0 4 2 []] := by decide +kernel

theorem test_hyps_ErasesSuspendResumeAndLock :
    let e : DieErase := ⟨9, false, 3, 0, true, 0⟩
    let er : State := withDie { idleDie with st := .erasing, erase := some e, suspendAsked := true }
    let su : State := withDie { idleDie with st := .suspended, erase := some e }
    let rd : State := withDie { idleDie with st := .suspended, erase := some e, read := some ⟨addr0, 1, false, 0, false, 4, [], false⟩ }
    let lk : State := withDie { idleDie with st := .lockedErase, erase := some e }
    let wait : State := withEntries (withDie { idleDie with pending := some (.erase e) }) [(9, entryOf (.internal 10 9) .admitted)]
    (modeOk running 0 9 false = true ∧ (dieOf running 0).pending = none) ∧
    ((dieOf wait 0).pending = some (.erase e) ∧ dieJob wait 10 0 = some 9) ∧
    ((dieOf er 0).st = .erasing ∧ (dieOf er 0).erase = some e ∧ (dieOf er 0).suspendAsked = true ∧ er.flash.ladders = [] ∧ fenceHeld er 0 = false ∧
      channelInReset er 0 = false) ∧ fenceHeld (fencing er) 0 = true ∧
    ((dieOf su 0).st = .suspended ∧ (dieOf su 0).erase = some e ∧ (dieOf su 0).read = none ∧ fenceHeld su 0 = false) ∧ (dieOf rd 0).read ≠ none ∧
    ((dieOf lk 0).st = .lockedErase ∧ (dieOf lk 0).erase = some e) ∧
    (dieOf (startPending wait 0) 0).st = .erasing ∧ (dieOf (after (.eraseSuspended ⟨0, 4⟩) er) 0).st = .suspended ∧
    (dieOf (after (.eraseResume 0) su) 0).st = .lockedErase ∧ (dieOf (after (.eraseComplete 0 true) lk) 0).st = .idle := by decide +kernel

theorem test_hyps_DieServicesAndTheTracker :
    let due : State := atBell running (odVal running 0x2212 0)
    let runs : State := withEntries running [(6, entryOf (.internal 7 28) .admitted)]
    let late (ns : Nat) : State := { withDie { idleDie with st := .erasing, erase := some ⟨9, false, 3, 0, false, ns⟩ } with
      bell := { running.bell with edgeNs := 1 } }
    let mapped : State := { running with
      flash := { running.flash with
        pages := [(locOf addr0, ⟨[1, 2, 3, 4], List.replicate 4 ⟨1, 0, 0⟩, some 9, 1⟩)], ladders := [{ ladder0 .failed with addr := { addr0 with cw := 3 } }] }
      ledger := { running.ledger with map := [(9, ⟨0, true, locOf addr0⟩)] } }
    let lost : FlashAddr := { addr0 with cw := 3 }
    (stopped running = false ∧ 0 < running.ident.dies ∧ channelInReset running 0 = false ∧ (dieOf running 0).st = .idle ∧ addrOk running addr0 false = true) ∧
    (trackerDue due 0 28 = true ∧ trackerEntry due 0 28 = none ∧ trackerWaits due 0 28 = false) ∧
    (trackerEntry runs 0 28 = some 6 ∧ trackerMayRun runs 0 = true) ∧ (unitOf running (200 + 31)).state ≠ .reset ∧ running.flash.dies = [] ∧
    ((operation (late 11000000) (dieOf (late 11000000) 0)).map (fun x => (x.1, x.2.1)) = some (5, 5500000) ∧
      (dieOf (after (.dieTimeout 0) (late 11000000)) 0).st = .idle ∧ (dieOf (after (.dieTimeout 0) (late 5500000)) 0).st = .erasing) ∧
    ((failedAt mapped lost).length = 1 ∧ (ladder0 .failed).lost = [] ∧ iuAt mapped lost = some 9 ∧ bit (mapAt mapped 9).poison 3 = false) ∧
    (isJob mapped 0 0x0F = false ∧ isJob mapped 0 0x13 = false) ∧
    (after (.dieStatus 0) running).out = [.die 0 11 0 [0]] ∧ mapAt (after (.decodeFail (channelUnit lost.die) lost) mapped) 9 = ⟨8, true, locOf addr0⟩ := by
  decide +kernel

/-- An open host band 8 of stripe 0 with one staged IU, its program slot open since bell 0; a closed band that is to be refreshed; a closed
band whose erase count lags; a dirty segment. -/
theorem test_hyps_LedgerJobsRun :
    let b : Band := { bandOf running 0 with st := .open, handle := some 0 }
    let page : FlashPage := ⟨[1, 2, 3, 4], List.replicate 4 ⟨1, 0, 0⟩, some 9, 1⟩
    let st : State := atBell { running with ledger := { running.ledger with
      bands := [(bandKey 0 8, b)], gatherFrom := [(0, 0)], staged := [⟨3, [1, 2, 3, 4], [], 0, 0, 1, 0, 0, 0, 0, none⟩] } } (odVal running 0x2307 0)
    let shut (v : Nat) : State := { running with
      flash := { running.flash with pages := [(locOf { addr0 with block := 8 }, page)] }
      ledger := { running.ledger with
        bands := [(bandKey 0 8, { b with st := .closed, handle := none, refresh := true, valid := v })]
        map := if v = 0 then [] else [(9, ⟨0, true, locOf { addr0 with block := 8 }⟩)] } }
    let cared (v : Nat) : State := withEntries { shut v with ledger := { (shut v).ledger with care := [⟨2, some 6, bandKey 0 8⟩] } }
      [(6, entryOf (.internal 2 8) .running)]
    let lag : State := { running with ledger := { running.ledger with
      bands := [(bandKey 0 8, { b with st := .closed, erases := 0 }), (bandKey 0 9, { b with erases := 2 ^ 32 })] } }
    let dirty : State := { running with ledger := { running.ledger with dirty := [4], journal := [⟨4 * 4096, ⟨0, false, 0⟩⟩] } }
    (tget st.ledger.gatherFrom 0 = some 0 ∧ 0 + odVal st 0x2307 0 ≤ st.bell.ticks ∧
      ((openHostBands st).find? (fun p => p.1 / 2048 = stripeOf 0 && gatherReady st p.1 (positionOf 0) p.2)).map (fun p => p.1) = some (bandKey 0 8)) ∧
    ((shut 5).ledger.care = [] ∧ careTarget (shut 5) 0 2 = some (bandKey 0 8) ∧ rgOfBand (shut 5) (bandKey 0 8) = 0) ∧
    ((cared 0).ledger.care.length = 1 ∧ (bandOf (cared 0) (bandKey 0 8)).valid = 0 ∧ (bandOf (cared 5) (bandKey 0 8)).valid = 5 ∧
      unreadIus (cared 5) (bandKey 0 8) = [9] ∧ (cared 5).flash.jobs = [] ∧ (cared 5).ledger.copies = []) ∧
    (((bandsOfRg lag 0).find? (fun p => p.2.st = .closed && !p.2.level &&
      decide (p.2.erases + lag.ledger.allErases + odVal lag 0x2340 2 ≤ meanErases lag 0))).map (fun p => p.1) = some (bandKey 0 8)) ∧
    (0 < stripeCount running ∧ running.ledger.scrubbed = [] ∧ scrubBands (shut 5) = [bandKey 0 8]) ∧
    (jobEntry dirty 6 4 = none ∧ dirty.tally.waiting = [] ∧ 4 ∈ dirty.ledger.dirty) ∧
    (let w := withEntries dirty [(6, entryOf (.internal 6 4) .admitted)]
     jobEntry w 6 4 = some 6 ∧ (after (.checkpointSegment 4) w).ledger.dirty = []) ∧
    ((after (.scrubPass 0 8) running).ledger.care.length = 1) ∧ (bandOf (after (.wearLevelJob 0) lag) (bandKey 0 8)).level = true := by
  decide +kernel


/-! ## Statements about gangs (O41 to O45) -/

/-- A package whose manifest (at 256) declares 1 KiB of local memory, a loft window of 4,096 bytes and 256 instructions, with one plan
entry and no table; `mode` 1 is PROGRESS. -/
def package (mode : Nat) : Mem :=
  let section_ (m : Mem) (i ty off len : Nat) : Mem := mwrite (mwrite m (64 + 32 * i) (leBytes 2 ty)) (64 + 32 * i + 8) (leBytes 8 off ++ leBytes 8 len)
  let m := mwrite [] 6 (leBytes 2 3)
  let m := section_ (section_ (section_ m 0 1 256 128) 1 3 384 128) 2 5 512 64
  mwrite (mwrite m (256 + 38) [mode, 0, 0, 0, 1]) (256 + 48) (leBytes 4 1 ++ leBytes 4 4096 ++ leBytes 4 256)

/-- The invocation of program 0 that runs for entry 0. -/
def inv0 : Invocation := ⟨0, 0, 1, 1, 0, true, 0, 0, [], 4096, [], 0, 0, 0, 0, 0, 4, 0, 0, 0, 1, [], [], [], none, none, some 0, none⟩

/-- Slot 0 of core 24. -/
def slot0 : GangRef := ⟨24, 0⟩

/-- A gang of which only lane 0 lives, with register values. -/
def laneGang (regs : List (Nat × Word)) : Gang := { newGang 0 0 32 false with regs := regs, live := 1, active := 1 }

/-- The drive in which the gang `g` is resident in slot 0. -/
def withGang (mode : Nat) (g : Gang) : State :=
  let s := atHost running ioH
  { s with compute := { s.compute with
      programs := [(0, ⟨package mode, 640, [(0, 640)], 2, [0], 32, 0⟩)], invs := [(0, inv0)], nextInv := 1
      cores := [(0, ⟨[(0, g)], [(0, 1024)], []⟩)] } }

/-- Lane 0 with r1 and r2, and what a command leaves in r3 of it. -/
def ab (a b : Word) : State := withGang 0 (laneGang [(1, a), (2, b)])
def r3 (c : Instr) (s : State) : Option Word := (gangAt (after c s) slot0).map (fun g => regAt g 0 3)
def rf (m : Nat) : RFields := ⟨3, 1, 2, 0, m⟩

theorem test_hyps_GangTurn : GangTurn (ab 5 6) slot0 inv0 (laneGang [(1, 5), (2, 6)]) 1 ∧ rOk (rf 0) 0 = true ∧ rOk (rf 1) 1 = true ∧
    rOk (rf 13) 15 = true ∧ 13 % 8 < 6 ∧ rOk (rf 0x55) 255 = true ∧ formatOk 5 = true :=
  ⟨⟨by rfl, by decide +kernel⟩, by decide, by decide, by decide, by decide, by decide, by decide⟩

/-- Integer operations on values at their edges, with the results of Table 9.12. -/
theorem test_integer_arithmetic :
    r3 (.iadd slot0 (rf 0)) (ab 0xFFFFFFFF 2) = some 1 ∧ r3 (.isub slot0 (rf 0)) (ab 1 2) = some 0xFFFFFFFF ∧
    r3 (.imul slot0 (rf 0)) (ab 0x10001 0x10001) = some 0x20001 ∧ r3 (.imulhi slot0 (rf 0)) (ab 0xFFFFFFFF 2) = some 1 ∧
    r3 (.imulhi slot0 (rf 1)) (ab 0xFFFFFFFF 2) = some 0xFFFFFFFF ∧ r3 (.imad slot0 ⟨3, 1, 2, 1, 0⟩) (ab 3 4) = some 15 ∧
    r3 (.iaddi slot0 3 1 0xFFFFFFFF) (ab 5 0) = some 4 ∧ r3 (.idiv slot0 (rf 0)) (ab 7 0) = some 0xFFFFFFFF ∧
    r3 (.idiv slot0 (rf 1)) (ab 0x80000000 0xFFFFFFFF) = some 0x80000000 ∧ r3 (.irem slot0 (rf 1)) (ab 0xFFFFFFF9 2) = some 0xFFFFFFFF ∧
    r3 (.irem slot0 (rf 0)) (ab 7 0) = some 7 := by decide +kernel

theorem test_integer_logic :
    r3 (.andOp slot0 (rf 1)) (ab 0xFF 0x0F) = some 0xF0 ∧ r3 (.orOp slot0 (rf 0)) (ab 0xF0 0x0F) = some 0xFF ∧
    r3 (.xorOp slot0 (rf 0)) (ab 0xFF 0x0F) = some 0xF0 ∧ r3 (.shl slot0 (rf 0)) (ab 1 33) = some 2 ∧
    r3 (.shr slot0 (rf 0)) (ab 0x80000000 31) = some 1 ∧ r3 (.sar slot0 (rf 0)) (ab 0x80000000 31) = some 0xFFFFFFFF ∧
    r3 (.imin slot0 (rf 1)) (ab 0xFFFFFFFF 1) = some 0xFFFFFFFF ∧ r3 (.imax slot0 (rf 0)) (ab 0xFFFFFFFF 1) = some 0xFFFFFFFF ∧
    r3 (.popc slot0 (rf 0)) (ab 0xF0F0 0) = some 8 ∧ r3 (.clz slot0 (rf 0)) (ab 0 0) = some 32 ∧
    r3 (.icmp slot0 (rf 10)) (ab 0xFFFFFFFF 0) = some 1 ∧ r3 (.icmp slot0 (rf 2)) (ab 0xFFFFFFFF 0) = some 0 ∧
    r3 (.sel slot0 ⟨3, 0, 1, 2, 0⟩) (ab 5 6) = some 6 ∧ r3 (.mov slot0 (rf 0)) (ab 5 6) = some 5 ∧ r3 (.movi slot0 3 77) (ab 5 6) = some 77 ∧
    r3 (.bfe slot0 (rf 1)) (ab 0xF0 0x404) = some 0xFFFFFFFF := by decide +kernel

/-- FP32 words: 1.5 is 0x3FC00000, 2 is 0x40000000, 1 is 0x3F800000. -/
theorem test_float_operations :
    r3 (.fadd slot0 (rf 0)) (ab 0x3F800000 0x33800000) = some 0x3F800000 ∧ r3 (.fsub slot0 (rf 0)) (ab 0x3FC00000 0x3FC00000) = some 0 ∧
    r3 (.fmul slot0 (rf 0)) (ab 0x3FC00000 0x40000000) = some 0x40400000 ∧
    r3 (.ffma slot0 ⟨3, 1, 2, 1, 0⟩) (ab 0x3FC00000 0x40000000) = some 0x40900000 ∧
    r3 (.fmin slot0 (rf 0)) (ab 0 0x80000000) = some 0x80000000 ∧ r3 (.fmax slot0 (rf 0)) (ab 0x7FC00001 0x3F800000) = some 0x7FC00000 ∧
    r3 (.fcmp slot0 (rf 1)) (ab 0x7FC00000 0) = some 1 ∧ r3 (.fclass slot0 (rf 0)) (ab 0x3F800000 0) ≠ some 0 ∧
    r3 (.frnd slot0 (rf 0)) (ab 0x40200000 0) = some 0x40000000 ∧ r3 (.cvt slot0 (rf 0x55)) (ab 7 0) = some 7 ∧
    r3 (.fdiv slot0 (rf 0)) (ab 0x3F800000 0x40000000) = some 0x3F000000 ∧ r3 (.fsqrt slot0 (rf 0)) (ab 0x40800000 0) = some 0x40000000 ∧
    r3 (.frcp slot0 (rf 0)) (ab 0x40000000 0) = some 0x3F000000 := by decide +kernel

/-- The tie 1 + 2^-24 goes to the even word of 1. -/
theorem test_hyps_RoundingIsToNearestEven : fvRat (.fin false (2 ^ 24 + 1) (-24)) = some (16777217 / 16777216) ∧
    f32Of (.fin false (2 ^ 24 + 1) (-24)) = 0x3F800000 ∧ (fvRat (f32Val 0x3F800000)).isSome = true ∧ (fvRat (f32Val 0x3F800001)).isSome = true := by
  refine ⟨?_, by decide +kernel, by decide +kernel, by decide +kernel⟩
  simp [fvRat, zpow_neg]
  norm_num

/-- A gang of 2 lanes at a branch that they disagree on, one with a full divergence stack, and one past the last instruction. -/
theorem test_hyps_GangControlFlow :
    let two : Gang := { newGang 0 0 32 false with regs := [(257, 1)], live := 3, active := 3 }
    let full : Gang := { two with stack := List.replicate 32 ⟨200, 0, 0, 3⟩ }
    let past : Gang := { laneGang [] with pcs := [(0, 256)] }
    (issuing (withGang 0 two) slot0 = some (inv0, two, 3) ∧ 255 < instrCount (withGang 0 two) 0 ∧ progressMode (withGang 0 two) 0 = false ∧
      (lanesOf 3).filter (fun i => decide (regAt two i 1 = 0)) = [0]) ∧
    (issuing (withGang 0 full) slot0 = some (inv0, full, 3) ∧ 32 ≤ full.stack.length) ∧
    (progressMode (withGang 1 two) 0 = true ∧ (issuing (withGang 1 two) slot0).map (fun p => p.2.2) = some 3) ∧
    (issuing (withGang 0 { two with active := 2 }) slot0 = some (inv0, { two with active := 2 }, 2) ∧ two.live ≠ 2) ∧
    (gangAt (after (.brz slot0 1 9 20) (withGang 1 two)) slot0).map (fun g => g.splits.length) = some 2 ∧
    (issuing (withGang 0 past) slot0 = some (inv0, past, 1) ∧ instrCount (withGang 0 past) 0 ≤ lanePc past (lowLane 1)) ∧
    (gangAt (after (.brz slot0 1 9 20) (withGang 0 two)) slot0).map (fun g => (g.active, lanePc g 0, lanePc g 1)) = some (2, 9, 1) ∧
    (gangAt (after (.exitOp slot0 1) (withGang 0 two)) slot0) = none ∧
    (gangAt (after (.trapOp slot0 7) (withGang 0 two)) slot0).map (fun g => g.fault) = some (some ⟨0x0A, 3, 0, 7⟩) := by decide +kernel

theorem test_gang_lane_operations :
    let two : State := withGang 0 { newGang 0 0 32 false with regs := [(1, 8), (257, 9)], live := 3, active := 3 }
    let r3of (c : Instr) := (gangAt (after c two) slot0).map (fun g => (regAt g 0 3, regAt g 1 3))
    r3of (.sreg slot0 3 0) = some (0, 1) ∧ r3of (.sreg slot0 3 6) = some (3, 3) ∧ r3of (.shfl slot0 ⟨3, 1, 2, 0, 0⟩) = some (8, 8) ∧
    r3of (.vote slot0 ⟨3, 1, 2, 0, 2⟩) = some (3, 3) ∧
    (gangAt (after (.bar slot0 0 5) two) slot0).map (fun g => g.blocked) = some [] ∧
    (gangAt (after (.pulse slot0) two) slot0).map (fun g => lanePc g 1) = some 1 := by decide +kernel

/-- An aligned word at byte 4,092 of the loft window, one byte past it, and an odd address. -/
theorem test_hyps_GangMemoryAccesses :
    let m : MemFields := ⟨3, 1, 2, 1, 2, false, 0, 0⟩
    let s := ab 4092 0xAABBCCDD
    let g := laneGang [(1, 4092), (2, 0xAABBCCDD)]
    let far := laneGang [(1, 4096), (2, 0)]
    let odd := laneGang [(1, 4090), (2, 0)]
    (ldOk m = true ∧ stOk m = true ∧ atomOk m 8 = true ∧ casOk m = true) ∧ accessFault s 24 inv0 g 1 m true = none ∧
    accessFault s 24 inv0 far 1 m true = some ⟨0x06, 1, 4096, 0⟩ ∧ accessFault s 24 inv0 odd 1 m true = some ⟨0x07, 1, 4090, 4⟩ ∧
    ((tget (after (.st slot0 m) s).compute.invs 0).map (fun v => mread v.window 4092 4) = some [0xDD, 0xCC, 0xBB, 0xAA]) ∧
    r3 (.ld slot0 { m with rd := 3 }) s = some 0 ∧ r3 (.atom slot0 m 0) s = some 0 ∧
    ((tget (after (.cas slot0 { m with rb := 3 }) (withGang 0 (laneGang [(1, 4092), (4, 9)]))).compute.invs 0).map (fun v => mread v.window 4092 4) =
      some [9, 0, 0, 0]) := by decide +kernel


/-! ## Statements about looms, programs, invocations, tickets (O46 to O50) -/

/-- A Loom Direct of one tile, INT8 by INT8, k = 1: A at 256, B at 320, C at 384. -/
def directBuf : Bytes :=
  leBytes 2 64 ++ leBytes 2 64 ++ leBytes 4 1 ++ [1, 1, 1, 0] ++ leBytes 4 0 ++ leBytes 4 256 ++ leBytes 4 320 ++ leBytes 4 384

/-- Loom 3 runs a step of child 1. -/
def withStep (s : State) (k : StepKind) : State :=
  { s with compute := { s.compute with looms := [(3, { loomOf s 3 with holder := 2, step := some ⟨1, k, [], [], 0, 0, 0⟩ })] } }

theorem test_hyps_LoomsRunTheirTiles :
    let s := atHost running ioH
    let es := [(0, entryOf (.host 1 7) .waiting), (1, { entryOf (.internal 13 0) .running with parent := some 0 })]
    let d : Direct := ⟨0, directBuf, [], 1, [], 0, [3], 1⟩
    let t := withStep (withEntries { s with compute := { s.compute with directs := [d] } } es) (.direct 0)
    let u := withStep (withEntries (withGang 0 (laneGang [])) es) (.ticket 0 1 0)
    let page : Mem := mwrite [] 0 ([1, 0] ++ leBytes 2 64)
    (planTile (planEntry (programOf u 0) 0) = true ∧ kvTarget u inv0 (planEntry (programOf u 0) 0) none = none ∧
      kvTarget u { inv0 with window := page } (planEntry (programOf u 0) 0) (some ⟨0, 63, 1, true⟩) = some (⟨0, 63, 1, true⟩, page, 0)) ∧
    ((kvWrite false ⟨0, 63, 1, true⟩ 0 [⟨false, 0, 63, false⟩] page [[7]]).1 = [] ∧
      mread (kvWrite false ⟨0, 63, 1, true⟩ 0 [⟨false, 0, 63, false⟩] page [[7]]).2 32 2 = [1, 0]) ∧ Stands t 1 7 0 ∧ directGoes s 0 = false ∧
    ({ inv0 with tickets := [⟨1, 24, 0, 0, 0, 0⟩] }.tickets.length = 1) ∧ IoTurn s ioH 0 ∧ odVal s 0x2403 0 ≠ 0 ∧ odVal (withOd s [(odKey 0x2403 0, 0)]) 0x2403 0 = 0 ∧
    (directBad s 4480 directBuf = false ∧ directBad s 4481 directBuf = true) ∧
    ((loomOf t 3).step.map (fun x => x.kind) = some (.direct 0) ∧ (entryAt t 1).bind (fun e => e.parent) = some 0 ∧
      t.compute.directs.find? (fun d => d.entry = 0) = some d ∧ 0 ∉ family t 1) ∧
    ((loomOf u 3).step.map (fun x => x.kind) = some (.ticket 0 1 0) ∧ (tget u.compute.invs 0).isSome = true ∧ 0 ∉ family u 1 ∧
      planTarget (planEntry (programOf u 0) 0) = 0) ∧
    (intPair 1 = true ∧ ∀ j, j ≤ 1 → -2147483648 ≤ ((List.range j).map (fun _ => elemInt 1 0x80 * elemInt 1 0x80)).sum ∧
      ((List.range j).map (fun _ => elemInt 1 0x80 * elemInt 1 0x80)).sum ≤ 2147483647) ∧
    accumulate 1 1 (fun _ => 0x80) (fun _ => 0x80) 1 = 16384 :=
  ⟨by decide +kernel, by decide +kernel, stands_of (by decide +kernel), by decide +kernel, rfl, ioTurn_of (by decide +kernel), by decide +kernel, by decide +kernel, by decide +kernel, by decide +kernel, by decide +kernel,
    ⟨rfl, by decide +kernel⟩, by decide +kernel⟩

/-- Every check of a package but the signature and the digest can be met by words alone; those two rest on free functions of Config, so
the witness of a package that passes is left open and the one that fails is an empty package. -/
theorem test_hyps_ProgramsAreLoadedAndActivated :
    let s := atTunnel
    let on : State := { s with compute := { s.compute with programs := [(0, ⟨package 0, 640, [(0, 640)], 2, [0], 32, 0⟩)] } }
    let busy : State := { on with compute := { on.compute with invs := [(0, { inv0 with rsid := 4 })], rangeSets := [(4, [(0, 64)]), (5, [])] } }
    let bad : State := { s with compute := { s.compute with
      programs := [(0, ⟨mwrite [] 0 (leBytes 4 0x37504B4A ++ leBytes 2 1 ++ leBytes 2 2 ++ leBytes 8 128), 128, [(0, 128)], 1, [], 0, 0⟩)] } }
    AdminTurn s adminH 0 ∧ activating s = false ∧ programActive s 31 = false ∧
    storeInUse s - receivedBytes (programOf s 31) + 3 ≤ storeLimit ∧
    AdminTurn on adminH 0 ∧ programActive on 0 = true ∧ invsOf on 0 = 0 ∧ invsOf busy 0 ≠ 0 ∧
    checkPackage bad (programOf bad 0) = some (1, some 0) ∧
    (tget s.compute.rangeSets 65535 = none ∧ ∀ r ∈ [(slmSize, 0)], r.1 + r.2 ≤ slmSize) ∧
    (busy.compute.invs.any (fun v => v.2.rsid = 4) = true ∧ busy.compute.invs.any (fun v => v.2.rsid = 5) = false) ∧
    (programOf (after (.loadProgram adminH 31 0 [1, 2, 3]) s) 31).stored = 3 ∧ (programOf (after (.programDeactivate adminH 0) on) 0).state = 1 :=
  ⟨adminTurn_of (by decide +kernel), by decide +kernel, by decide +kernel, by decide +kernel, adminTurn_of (by decide +kernel), by decide +kernel,
    by decide +kernel, by decide +kernel, by decide +kernel, ⟨by decide +kernel, by decide⟩, by decide +kernel, by decide +kernel, by decide +kernel⟩

/-- A run block without input or output, and the drive that holds program 0 active and no invocation. -/
def runBuf : Bytes := leBytes 8 0 ++ leBytes 4 0 ++ leBytes 4 0 ++ leBytes 4 64 ++ leBytes 4 0 ++ leBytes 4 0 ++ leBytes 4 0 ++ leBytes 4 0 ++ leBytes 4 64
def withProgram : State :=
  let s := withGang 0 (laneGang [])
  { s with compute := { s.compute with invs := [], cores := [(0, ⟨[], [(0, 1024)], []⟩)] } }

theorem test_hyps_InvocationsStartAndEnd :
    let h : HostId := { ioH with nsid := 0 }
    let wait : State := { withProgram with compute := { withProgram.compute with invs := [(0, { inv0 with started := false, nextGang := 0, readyAt := none })] } }
    let place : State := { withProgram with bell := { withProgram.bell with chime := 3 }, compute := { withProgram.compute with invs := [(0, { inv0 with nextGang := 0 })] } }
    let done : State := { withProgram with compute := { withProgram.compute with invs := [(0, { inv0 with gangsDone := 1, exitOr := 6 })] } }
    IoTurn withProgram h 0 ∧ withProgram.compute.invs = [] ∧ runFieldsBad withProgram 0 0 65536 64 40 runBuf = false ∧
    (programActive withProgram 0 = true ∧ runManifestBad withProgram 0 0 runBuf = false ∧ stagedOutside withProgram 0 runBuf = false ∧
      programActive withProgram 31 = false) ∧
    ((tget wait.compute.invs 0).map (fun v => (v.started, v.stagedLen, (programOf wait v.program).state)) = some (false, 0, 2) ∧
      (invsBy wait (canBegin wait)).head? = some 0) ∧
    (invsBy place (gangsDue place) = [0] ∧ affords place 0 = true ∧ place.power.hold = false ∧ coreFor place (invClass place { inv0 with nextGang := 0 }) (programOf place 0) = some 0) ∧
    (allExited { inv0 with gangsDone := 1 } = true ∧ sliceOpen done 0 = false ∧ chunkOfInv done 0 = none ∧ Stands done 1 7 0) ∧
    (lineOf (after (.invocationEnd 0) done) = [(1, 7, .success, 6, 0)] ∧ (after (.invocationEnd 0) done).compute.invs = []) ∧
    (tget (after (.invocationStart 0) wait).compute.invs 0).map (fun v => v.started) = some true ∧
    (gangAt (after .gangPlacement place) slot0).map (fun g => g.live) = some (2 ^ 32 - 1) :=
  ⟨ioTurn_of (by decide +kernel), rfl, by decide +kernel, by decide +kernel, by decide +kernel, by decide +kernel,
    ⟨by decide +kernel, by decide +kernel, by decide +kernel, stands_of (by decide +kernel)⟩, by decide +kernel, by decide +kernel, by decide +kernel⟩

theorem test_hyps_GangsFaultAndEnd :
    let quiet (n : Nat) : State := withGang 0 { laneGang [] with quiet := n }
    let n := bellCycles running (odVal running 0x2501 0)
    let b : Barrier := ⟨2, 5, 0, 0, [], [(0, 0)], 0⟩
    let w : State := withGang 0 { laneGang [] with blocked := [(0, ⟨1, 0, 2, 5, 0⟩)] }
    let late : State := atBell { w with compute := { w.compute with invs := [(0, { inv0 with barriers := [b] })] } } (odVal running 0x2502 0 + 1)
    let bad : State := atBell (withGang 0 { laneGang [] with fault := some ⟨0x0A, 1, 0, 7⟩ }) 1
    (gangAt (quiet n) slot0).map (fun g => (decide (n ≤ g.quiet), g.fault)) = some (true, none) ∧ n ≠ 0 ∧
    (b :: []).filter (fun b => b.scope = 2 && b.ident = 5 && decide (odVal late 0x2502 0 < late.bell.ticks - b.since)) = [b] ∧
    (gangsOf late 0).length = 1 ∧ (gangsOf bad 0).length = 1 ∧ (gangAt late slot0).map (fun g => (g.fault, g.blocked.length)) = some (none, 1) ∧
    (((gangsOf bad 0).filter (fun x => x.2.2.fault.isSome && decide (x.2.2.faultChime < chimeNow bad))).length = 1 ∧ TallyOk bad ∧ Stands bad 1 7 0) ∧
    (gangAt (after (.gangStall slot0) (quiet n)) slot0).map (fun g => g.fault.map (fun f => f.code)) = some (some 1) ∧
    (gangAt (after (.barrierTimeout 0 2 5) late) slot0).map (fun g => g.fault.map (fun f => (f.code, f.detail))) = some (some (2, 517)) ∧
    lineOf (after (.gangFault 0) bad) = [(1, 7, .kernelFault, 0, 0)] ∧ gangsOf (after (.gangFault 0) bad) 0 = [] :=
  ⟨by decide +kernel, by decide +kernel, by decide +kernel, by decide +kernel, by decide +kernel, by decide +kernel,
    ⟨by decide +kernel, tallyOk_of (by decide +kernel), stands_of (by decide +kernel)⟩, by decide +kernel, by decide +kernel, by decide +kernel, by decide +kernel⟩

theorem test_hyps_TicketsAreTakenAndAwaited :
    let g := laneGang [(2, 2), (1, 4)]
    let w (st : Nat) : State :=
      let s := withGang 0 g
      { s with compute := { s.compute with invs := [(0, { inv0 with nextTicket := 65535, tickets := [⟨4, 24, 0, 0, 0, st⟩] })] } }
    (issuing (w 0) slot0).map (fun p => p.2) = some (g, 1) ∧ lanesOf 1 = [0] ∧
    (ticketNo { inv0 with tickets := [⟨4, 24, 0, 0, 0, 0⟩] } 4).map (fun k => k.state) = some 0 ∧
    (ticketFault (w 0) g inv0 0 4 0).map (fun f => f.code) = some 0x09 ∧ g.outstanding.length < 4 ∧
    r3 (.pollOp slot0 3 1) (w 1) = some 1 ∧ r3 (.waitOp slot0 3 1) (w 2) = some 2 ∧
    (gangAt (after (.waitOp slot0 3 1) (w 0)) slot0).map (fun g => g.blocked) = some [(0, ⟨2, 3, 0, 0, 4⟩)] ∧
    (gangAt (after (.ticket slot0 3 1 2) (w 0)) slot0).map (fun g => g.fault.map (fun f => f.code)) = some (some 0x09) := by decide +kernel

/-! ## Statements about streams and sifters (O51, O52) -/

/-- Stream 6 of one channel on program 0, OPEN at sequence number 9, with chunks and parks as given. -/
def chan : Channel := ⟨0, 0, [], []⟩
def stream6 : Stream := ⟨.opened, 1, 0, 0, false, 0, 0, 0, 0, 1, 0xFFFFFFFF, 0xFFFFFFFF, 9, [chan], none, none, [], none, [], 0, 0⟩
def withStream (st : Stream) : State := { withProgram with streams := { withProgram.streams with table := [(6, st)] } }

/-- Its chunk 10, carried by entry 0, and the entries of the two. -/
def chunk10 : Chunk := ⟨2, 10, 0, false, none, 1, 0, [], 0xFFFFFFFF, none⟩
def chunkEntries : List (Nat × Entry) := [(0, entryOf (.host 1 7) .waiting), (2, { entryOf (.stream 6 10) .admitted with parent := some 0 })]

/-- The statements about chunks: fed, dispatched, loaded, ended, committed. -/
theorem test_hyps_ChunksAreFedAndCommitted :
    let h : HostId := { ioH with nsid := 0 }
    let fed := withEntries (withStream { stream6 with chunks := [chunk10] }) chunkEntries
    let home := withEntries (withStream { stream6 with chunks := [chunk10], store := some [chan] }) chunkEntries
    let run (remote : Bool) : State :=
      let st : Stream := { stream6 with remoteFed := remote, chunks := [{ chunk10 with dispatched := true, inv := some 0 }], store := some [chan], working := some [chan] }
      let s := withEntries (withStream st) chunkEntries
      { s with compute := { s.compute with invs := [(0, { inv0 with entry := 2, gangsDone := 1, stream := some 6 })] } }
    let ended9 : Stream := { stream6 with ended := some (0, 10), working := some [chan] }
    let posted (dma : Bool) : State := { withStream ended9 with host := { running.host with posting := [⟨1, 7, 0, .success, 0, 10, [], dma⟩] } }
    let buf := runBuf ++ leBytes 4 0xFFFFFFFF
    IoTurn (withStream stream6) h 0 ∧ streamOf (withStream stream6) 6 = some stream6 ∧
    (runFieldsBad (withStream stream6) 0 0 1 64 44 buf = false ∧ viewBad (withStream stream6) stream6 buf (fieldAt buf 40 4) = false ∧
      fieldAt buf 8 4 = 0 ∧ stagedOutside (withStream stream6) 0 buf = false ∧ nextSeq stream6 = 10) ∧
    (nextChunk { stream6 with chunks := [chunk10] } = some chunk10 ∧ programActive fed 0 = true ∧ (dispatchOrder fed).head? = some 6 ∧
      groupsInUse fed + 2 ≤ 2048 ∧ (dispatchOrder home).head? = some 6 ∧ groupsInUse home + 1 ≤ 2048) ∧
    ((chunkOfInv (run false) 0).map (fun x => x.1) = some 6 ∧ (chunkOfInv (run true) 0).map (fun x => x.1) = some 6 ∧
      allExited { inv0 with gangsDone := 1 } = true ∧ sliceOpen (run false) 0 = false ∧ sliceOpen (run true) 0 = false ∧ Stands (run false) 1 7 0) ∧
    (streamOf (after (.streamFeed h 6 0 1 64 none buf) (withStream stream6)) 6).map (fun st => st.chunks.map (fun k => k.seq)) = some [10] ∧
    ((after (.chunkDispatch 6) fed).tally.waiting.map (fun r => r.origin) = [.internal 0x12 6] ∧
      (streamOf (after (.chunkDispatch 6) home) 6).map (fun st => st.chunks.map (fun k => k.inv)) = some [some fed.compute.nextInv] ∧
      (streamOf (adoptLoad fed 3 6) 6).map (fun st => (st.store, st.chunks.map (fun k => k.inv))) = some (some [chan], [some fed.compute.nextInv])) ∧
    (lineOf (after (.invocationEnd 0) (run false)) = [(1, 7, .success, 0, 10)] ∧
      (streamOf (after (.invocationEnd 0) (run false)) 6).map (fun st => (st.last, st.ended)) = some (9, some (0, 10)) ∧
      (streamOf (after (.invocationEnd 0) (run true)) 6).map (fun st => (st.last, st.ended)) = some (10, none)) ∧
    ((streamOf (commitEnded (posted false)) 6).map (fun st => (st.last, st.working)) = some (10, none) ∧
      streamOf (commitEnded (posted true)) 6 = some ended9) :=
  ⟨ioTurn_of (by decide +kernel), by decide +kernel, by decide +kernel, by decide +kernel,
    ⟨by decide +kernel, by decide +kernel, by decide +kernel, by decide +kernel, by decide +kernel, stands_of (by decide +kernel)⟩,
    by decide +kernel, by decide +kernel, by decide +kernel, by decide +kernel⟩

/-- The statements about parks and resumes. -/
theorem test_hyps_StreamsParkAndResume :
    let h : HostId := { ioH with nsid := 0 }
    let parking := withStream { stream6 with st := .parking }
    let park : State := withStream { stream6 with st := .parking, parks := [⟨0, none, false, false, false, 0⟩] }
    let es := chunkEntries ++ [(4, entryOf (.host 1 8) .waiting)]
    let now := withEntries (withStream { stream6 with st := .parking, chunks := [chunk10], parks := [⟨4, none, false, true, true, 0⟩] }) es
    let held := withStream { stream6 with st := .parked }
    let pk := mwrite (package 0) (256 + 64) [1]
    let s : State := withNs { withProgram with compute := { withProgram.compute with programs := [(0, ⟨pk, 640, [(0, 640)], 2, [0], 32, 0⟩)] } }
    let img : Bytes := leBytes 2 1 ++ leBytes 2 1 ++ [0, 0] ++ List.replicate 186 0
    let j : ReadJob := ⟨0, .load 6, 1, [0], [], [], [(0, leNat img)], []⟩
    IoTurn parking h 0 ∧ IoTurn (withStream stream6) h 0 ∧ IoTurn held h 0 ∧ IoTurn s ioH 0 ∧ Stands park 1 7 0 ∧ TallyOk now ∧ Stands now 1 7 0 ∧
    (imageOk s img = true ∧ resumeBusy s 6 = false ∧ (nsOf s 1).isSome = true ∧ homeBytes s - 0 + 8192 * groupsFor 1 ≤ homeLimit) ∧
    (nsOf s 1 = some ns1 ∧ ledgerDown s (iusOf ns1 (unitsOf ns1 0 1)) = false ∧ imageOk s j.bytes = true ∧ j.lost = [] ∧
      4096 * j.units.length = lbaSize ns1.lbaf * imageLbas 1 (lbaSize ns1.lbaf)) ∧ Stands s 1 7 0 ∧
    ((streamOf (after (.streamPark h 6 true false 0) (withStream stream6)) 6).map (fun st => st.st) = some .parking ∧
      lineOf (after (.streamPark h 6 true false 0) parking) = [(1, 7, .commandSequenceError, 0, 0)] ∧
      (streamOf (after (.streamParkNow h 6 true false 0) parking) 6).map (fun st => st.parks.map (fun p => p.due)) = some [true]) ∧
    (lineOf (parkNow now 6) = [(1, 7, .streamParked, 0, 0), (1, 8, .success, 9, 1)] ∧
      (streamOf (parkNow now 6) 6).map (fun st => (st.st, st.chunks, st.home)) = some (.parked, [], [chan])) ∧
    lineOf (after (.streamEviction 6) park) = [(1, 7, .success, 9, 0)] ∧
    (lineOf (after (.streamResumeHome h 6) held) = [(1, 7, .success, 10, 0)] ∧
      (streamOf (after (.streamResumeInit ioH 6 192 img) s) 6).map (fun st => (st.st, st.nsid)) = some (.opened, 1) ∧
      (after (.streamResumeLoad ioH 6 0 1) s).flash.jobs.map (fun j => j.use) = [.load 6]) ∧
    (streamOf (loadDone s 6 j) 6).map (fun st => st.st) = some .opened :=
  ⟨ioTurn_of (by decide +kernel), ioTurn_of (by decide +kernel), ioTurn_of (by decide +kernel), ioTurn_of (by decide +kernel),
    stands_of (by decide +kernel), tallyOk_of (by decide +kernel), stands_of (by decide +kernel), by decide +kernel, by decide +kernel,
    stands_of (by decide +kernel), by decide +kernel, by decide +kernel, by decide +kernel, by decide +kernel, by decide +kernel⟩

/-- A slice that is due, of an OPEN stream and of a PARKED one; an invocation whose slice waits for its seal. -/
theorem test_hyps_SlicesAreSealedAndAdmitted :
    let due (st : StreamSt) : State :=
      let s := withStream { stream6 with st := st, remoteFed := true }
      { withEntries s [(1, entryOf (.fabric 5 3) .waiting)] with streams := { s.streams with slices := [⟨6, 0, 1, 1, [1, 2]⟩] } }
    let shut : State := { atBell withProgram 5 with
      compute := { withProgram.compute with invs := [(0, { inv0 with gangsDone := 1, exited := some (4, 4) })] }
      streams := { withProgram.streams with handRows := [(0, 3, [1])] } }
    ((due .opened).streams.slices.filter (fun x => x.sid = 6 && decide (x.due ≤ (due .opened).bell.count))).length = 1 ∧
    (shut.ident.meshed = true ∧ sliceOpen shut 0 = true ∧ sealSent shut 0 = false ∧ (entryAt shut 0).isSome = true ∧ handlesOf shut 0 = [3]) ∧
    ((after (.sliceSeal 0) shut).fabric.originated.map (fun o => (o.purpose, o.type, o.x.bell)) = [(4, 6, 0), (5, 3, 4)] ∧
      (after (.sliceSeal 0) shut).tally.waiting.length = 2) ∧
    (streamOf (after (.sliceAdmit 6) (due .opened)) 6).map (fun st => st.chunks.map (fun k => (k.carrier, k.seq))) = some [(1, 10)] ∧
    ((streamOf (after (.sliceAdmit 6) (due .parked)) 6).map (fun st => st.failures) = some 1 ∧
      (after (.sliceAdmit 6) (due .parked)).tally.entries = []) := by decide +kernel

/-- A FLAT index header of one two-dimensional vector with one subspace, the read of it, and its slot. -/
def header0 : Bytes :=
  leBytes 4 0x5853594E ++ leBytes 2 1 ++ [0, 0, 0, 0] ++ leBytes 2 2 ++ leBytes 2 1 ++ leBytes 2 0 ++ leBytes 8 1 ++ leBytes 8 1 ++
    List.replicate 4064 0
def mountJob : ReadJob := ⟨0, .mount 2, 1, [0], [], [], [(0, leNat header0)], []⟩
def index0 : IndexSlot := ⟨2, 0, 1, 0, false, 0, 0, 0, false, 2, 1, 1, 1, 0, header0, 0, []⟩
def mounted0 (s : State) : State := { s with sifters := { s.sifters with slots := [(2, index0)] } }

/-- A query of slot 2 for k = 1: the vector at 64, the results at 128; for a Guild Sift one member at 120. -/
def queryBuf (members : Nat) : Bytes :=
  leBytes 4 64 ++ leBytes 8 0 ++ leBytes 4 128 ++ leBytes 4 128 ++ leBytes 8 0 ++ leBytes 4 120 ++ leBytes 4 members ++ List.replicate 28 0
def query : SiftFields := ⟨2, 1, 1, 256, false⟩

/-- Its search: one context runs on sifter 0 and has taken up the one block. -/
def search0 : Search where
  entry := 0
  slot := 2
  k := 1
  guild := false
  remote := false
  partialOk := false
  finalise := 7
  buf := queryBuf 0
  wanted := 1
  work := 0
  started := true
  contexts := [⟨5, 0, 0, .running, false, some (0, 1)⟩]
  ranges := []
  cand := []
  seen := []
  upper := []
  batch := []
  todo := []
  lists := []
  found := []
  hits := []
  scored := 0
  hops := 0
  skipped := 0
  flags := 0
  asked := []
  finished := false

/-- The drive that serves a search of the command in entry 0, at bell 7. -/
def searching (q : Search) : State :=
  let s := mounted0 (withNs (atHost running ioH))
  atBell (withEntries { s with sifters := { s.sifters with searches := [q] } }
    [(0, entryOf (.host 1 7) .waiting), (5, { entryOf (.search 0 0 0) .running with parent := some 0 })]) 7

theorem test_index_header_is_kept : headerKept header0 = true := by
  have hz : (List.range 4007).all (fun i => header0.getD (89 + i) 0 = 0) = true := by
    rw [List.all_eq_true]
    intro i _
    simp only [header0, List.getD_eq_getElem?_getD, decide_eq_true_eq]
    rw [List.getElem?_append_right (le_trans (by decide +kernel) (Nat.le_add_right 89 i)), List.getElem?_replicate]
    split <;> rfl
  unfold headerKept
  rw [hz]
  decide +kernel

/-- The read of the header brings its bytes. -/
theorem test_mount_job_brings_the_header : mountJob.bytes.take 4096 = header0 := by
  have hl : header0.length = 4096 := by decide +kernel
  have hb : ∀ x ∈ header0, x < 256 := by
    intro x hx
    rcases List.mem_append.mp hx with h | h
    · exact (by decide +kernel : ∀ x ∈ header0.take 32, x < 256) x h
    · rw [List.eq_of_mem_replicate h]; decide
  have e : mountJob.bytes = leBytes header0.length (leNat header0) := by rw [hl]; exact List.append_nil _
  rw [e, leBytes_leNat header0 hb, ← hl, List.take_length]

/-- The statements about mounts and queries. The drive of the full slot table has used up its DRAM limit. -/
theorem test_hyps_SiftersMountAndQuery :
    let s := withNs (atHost running ioH)
    let m := mounted0 s
    let less := withOd s [(odKey 0x2802 0, 1)]
    let other : HostId := { ioH with nsid := 2 }
    IoTurn s ioH 0 ∧ IoTurn m ioH 0 ∧ IoTurn m other 0 ∧ (tget s.sifters.slots 2 = none ∧ (tget m.sifters.slots 2).isSome = true) ∧
    (nsOf s 1 = some ns1 ∧ ledgerDown s (iusOf ns1 (unitsAt ns1 0 [(0, 4096)])) = false) ∧
    (Stands s 1 7 0 ∧ headerKept (mountJob.bytes.take 4096) = true) ∧
    (regionsOutside ns1 0 (copyRegions header0 false 0) = false ∧ ledgerDown s (iusOf ns1 (unitsAt ns1 0 (copyRegions header0 false 0))) = false) ∧
    (slotCharge header0 false 0 = 2048 ∧ ¬(odVal s 0x2802 0 < 2048 ∨ slmSize < slmHeld s + 2048) ∧ odVal less 0x2802 0 < 2048) ∧
    (searchOf m 0 = none ∧ m.sifters.searches = []) ∧
    (queryBad index0 false 1 1 256 (queryBuf 0) = false ∧ queryBad index0 true 1 1 256 (queryBuf 1) = false ∧
      queryBad index0 false 0 1 256 (queryBuf 0) = true) ∧ (deadlineBad m false 0 = false ∧ deadlineBad m true 1000 = false) ∧
    (after (.siftMount ioH 2 0 false) s).sifters.mounts = [⟨0, 2, 0, false⟩] ∧ (after (.siftUnmount ioH 2) m).sifters.slots = [] ∧
    (searchOf (after (.siftQuery ioH query (queryBuf 0)) m) 0).map (fun q => q.k) = some 1 ∧
    (searchOf (after (.guildSift { ioH with deadline := 1000 } query (queryBuf 1)) m) 0).map (fun q => q.guild) = some true :=
  ⟨ioTurn_of (by decide +kernel), ioTurn_of (by decide +kernel), ioTurn_of (by decide +kernel), by decide +kernel, by decide +kernel,
    ⟨stands_of (by decide +kernel), by rw [test_mount_job_brings_the_header]; exact test_index_header_is_kept⟩, by decide +kernel,
    by decide +kernel, by decide +kernel, by decide +kernel, by decide +kernel, by decide +kernel, by decide +kernel, by decide +kernel,
    by decide +kernel⟩

/-- The statements about running searches and their ends. -/
theorem test_hyps_SiftersSearchAndMerge :
    let s := searching search0
    let more := searching { search0 with ranges := [(1, 1, 9)] }
    let ask := searching { search0 with started := false, contexts := [] }
    let two := searching { search0 with contexts := [⟨5, 0, 0, .ready, false, none⟩, ⟨6, 0, 1, .ready, false, none⟩] }
    let g := searching { search0 with guild := true }
    let d := searching { search0 with guild := true, finished := true, contexts := [] }
    let far (s : State) : State := { s with
      tally := ⟨[(0, entryOf (.fabric 3 9) .waiting)], [], 0⟩
      fabric := { s.fabric with targets := [⟨3, 1, 9, 5, some 0, 0, false, 0, [], ⟨1, false, false, 3, 0, 0, 0, 3, 1, 0, 0, 9, 0, 2, 0, 0⟩⟩] } }
    let r := far (searching { search0 with remote := true, contexts := [] })
    ((runningContext s 0 0).map (fun x => (x.1, x.2.1.entry)) = some (search0, 5) ∧ searchOf s 0 = some search0 ∧ 0 ∉ family s 5 ∧ Stands s 1 7 0) ∧
    ((runningContext more 0 0).map (fun x => x.2.1.entry) = some 5 ∧ searchOf more 0 = some { search0 with ranges := [(1, 1, 9)] }) ∧
    ((nextOn two 0).map (fun c => c.2.2.1) = some 6 ∧ (startSearch ask 0).tally.waiting.map (fun r => r.origin) = [.search 0 0 0]) ∧
    (bellReached s 7 = true ∧ bellReached g ({ search0 with guild := true }.finalise - 1) = true) ∧
    ((searchOf d 0).map (fun q => allAnswered q) = some true ∧ Stands d 1 7 0 ∧ Stands g 1 7 0) ∧
    ((r.fabric.targets.find? (fun u => u.entry = some 0)).isSome = true ∧ (targetOf r 3 1 9).isSome = true) ∧
    ((searchOf (after (.replyByFinalise 0) g) 0).map (fun q => (q.finished, q.flags)) = some (true, 16)) ∧
    (lineOf (after (.searchFinalise 0) s)).map (fun x => x.2.2.1) = [.deadlineMissed] ∧
    (searchOf (after (.yieldPoint 0 0) more) 0).map (fun q => q.scored) = some 1 ∧
    ([(⟨0x3F800000, 0, 1, 0, 0⟩ : Hit)].length ≤ 1 ∧ addHit hitLe 1 [⟨0x3F800000, 0, 1, 0, 0⟩] ⟨0, 0, 2, 0, 0⟩ = [⟨0, 0, 2, 0, 0⟩]) :=
  ⟨⟨by decide +kernel, by decide +kernel, by decide +kernel, stands_of (by decide +kernel)⟩, by decide +kernel, by decide +kernel,
    by decide +kernel, ⟨by decide +kernel, stands_of (by decide +kernel), stands_of (by decide +kernel)⟩, by decide +kernel,
    by decide +kernel, by decide +kernel, by decide +kernel, by decide +kernel⟩


/-! ## Statements about links, sessions, transactions and the guild (O53 to O57) -/

/-- Port 0 of an M drive in a state, toward member 1 of a guild of two in dimension 0. This drive is member 0 under epoch 2, member 1 is
ACTIVE under epoch 4. -/
def upPort : Port := { Port.reset with st := .up, rate := 1 }
def withPort (x : Port) : State :=
  let s := atHost running ioH
  { s with fabric := { s.fabric with
      ports := [(0, x)], peers := [(1, ⟨.active, 4, 0, []⟩)], member := .active, epoch := 2, guildId := 42, memberId := 0,
      dims := [2, 1, 1, 1, 1], roots := [0], hasGeometry := true } }
def inGuild : State := withPort upPort

/-- A request of member 1 to this member for `len` bytes at an address. -/
def req (addr len : Nat) : Txn := ⟨0, false, false, 3, 0, 0, 42, 1, 4, 0, 2, 9, len, addr, 0, 7⟩

/-- A good MSG flit of lane 3. -/
def flit1 : Flit := ⟨3, 1, true, 1, 0, 3, 2, true, true, true, 0⟩

theorem test_hyps_LinksTrainFallAndMeasure :
    let x := portOf inGuild 0
    let pin : State := withOd inGuild [(odKey 0x2911 1, 2)]
    let old : TxMsg := ⟨{ req 0 0 with detour := true }, 2, 0, [], 5, 1, false, 0, 0⟩
    let choice (l : List TxMsg) (gaps : Nat × Nat) : Port := { upPort with tx := l, gaps := gaps, turns := [4, 4, 1] }
    (stopped inGuild = false ∧ portUp inGuild 0 = true ∧ x.alive < 64 ∧ x.badFlits ≤ 16 ∧ portMode inGuild 0 = 1) ∧
    (flit1.corrected = true ∧ flit1.tagOk = true ∧ flit1.reservedOk = true ∧ flit1.vl ≤ 5 ∧ flit1.cvl ≤ 5 ∧ flit1.seq = (x.seqRx + 1) % 65536) ∧
    (proposedRate inGuild 0 240000001 = some 2 ∧ ratePin inGuild 0 = 0 ∧ proposedRate inGuild 0 240000000 = none) ∧
    (proposedRate pin 0 240000001 = some 2 ∧ ratePin pin 0 ≠ 0 ∧ (portOf pin 0).pinArmed = true) ∧
    (portOf (withPort { upPort with st := .training, fails := 2 }) 0).st = .training ∧ inGuild.bell.count % 16 = 0 ∧
    (portOf (withPort { upPort with syncT := some (3, 5) }) 0).syncT = some (3, 5) ∧
    (portOf (after (.linkDown 0) inGuild) 0).st = .training ∧ (portOf (after (.rateAdapt 0 240000001) inGuild) 0).rate = 2 ∧
    (portOf (after (.portTrained 0 false) (withPort { upPort with st := .training })) 0).fails = 1 ∧
    (portOf (after (.flitReceived 0 flit1) inGuild) 0).seqRx = 1 ∧ (after (.flitReceived 0 { flit1 with tagOk := false }) inGuild).out = [.nak 0 1] ∧
    (portOf (after (.delayResp (req 0 0) 0 7000 15000) (withPort { upPort with syncT := some (3000, 5000) })) 0).oneWay = 5 ∧
    ((portOf (after (.detourDiscard 0) (atBell (withPort { upPort with tx := [old, { old with started := true }] }) 9)) 0).tx.length = 1 ∧
      (choice [old] (15, 0)).nextLane = some 5 ∧ (choice [{ old with vl := 0 }] (0, 15)).nextLane = some 0 ∧
      (choice [{ old with need := 549 }] (0, 0)).nextLane = none) ∧
    (slotsPerChime inGuild 0 ≠ 0 ∧ (portOf (portSlots inGuild 0) 0).session.txCount = slotsPerChime inGuild 0) := by decide +kernel

theorem test_links_at_their_limits :
    let bad : State := withPort { upPort with badFlits := 17 }
    let quiet : State := withPort { upPort with alive := 64 }
    let worn : State := withPort { upPort with session := { upPort.session with rxCount := 2 ^ 52 } }
    (portUp bad 0 = true ∧ 16 < (portOf bad 0).badFlits) ∧ (portUp quiet 0 = true ∧ 64 ≤ (portOf quiet 0).alive) ∧
    (portUp worn 0 = true ∧ 2 ^ 52 ≤ (portOf worn 0).session.rxCount) ∧ (portOf (after (.portProtectionDown 0) bad) 0).st = .training ∧
    (portOf (after (.aliveTimeout 0) quiet) 0).st = .training ∧ (portOf (after (.nonceHardStop 0) worn) 0).session.rekey = 3 := by decide +kernel

/-- The hypotheses of R404 and R405 that name a signature rest on a free function of Config, true for some words and false for others;
the states below meet all the others. -/
theorem test_hyps_SessionsAreAgreedAndRekeyed :
    let sec := withPort { upPort with st := .securing }
    let seen := withPort { upPort with st := .securing, session := { Session.reset with helloSeen := true } }
    let chk := withPort { upPort with st := .checking }
    let ses (x : Session) : State := withPort { upPort with session := x }
    let asked : Session := { Session.reset with rekey := 1, switchTx := some 5, txCount := 5 }
    let turn : Session := { Session.reset with rekey := 2, switchTx := some 5, txCount := 5, switchRx := some 7, rxCount := 7 }
    (stopped sec = false ∧ (portOf sec 0).st = .securing ∧ (portOf sec 0).session.helloSeen = false ∧ (portOf seen 0).session.helloSeen = true) ∧
    ((portOf sec 0).session.since + 250 ≤ (atBell sec 250).bell.ticks ∧ (atBell sec 249).bell.ticks < (portOf sec 0).session.since + 250) ∧
    ((portOf chk 0).st = .checking ∧ 42 = chk.fabric.guildId ∧ chk.fabric.digest = 0 ∧ 1 = neighbourOf chk chk.fabric.memberId 0) ∧
    (let s := ses { Session.reset with txCount := 2 ^ odVal running 0x2C24 0 };
      portUp s 0 = true ∧ (portOf s 0).session.rekey = 0 ∧ 2 ^ odVal s 0x2C24 0 ≤ (portOf s 0).session.txCount) ∧
    ((portOf (ses asked) 0).session.rekey = 1 ∧ (portOf (ses asked) 0).session.switchTx = some 5 ∧ (portOf (ses asked) 0).session.txCount ≤ 5 ∧
      (portOf (atBell (ses asked) 25000) 0).session.rekeySince + 25000 ≤ (atBell (ses asked) 25000).bell.ticks) ∧
    ((portOf (ses turn) 0).session.rekey = 2 ∧ (portOf (ses turn) 0).session.switchRx = some 7) ∧
    (portOf (after (.securingTimeout 0) (atBell sec 250)) 0).st = .failed ∧ portUp (after (.controlIdentity 0 42 1 4 0) chk) 0 = true ∧
    (portOf (after (.controlIdentity 0 42 0 4 0) chk) 0).st = .miswired ∧ (portOf (after (.rekeySwitch 0 true) (ses turn)) 0).session.txCount = 0 := by
  decide +kernel

/-- Window 0: SLM, readable and writable, 4,096 bytes at 0; a ring of two slots at 8,192 in window 1. -/
def withWindows : State :=
  let s := withOd inGuild [(odKey 0x2940 1, 1), (odKey 0x2940 2, 3), (odKey 0x2940 5, 4096),
    (odKey 0x2941 1, 3), (odKey 0x2941 2, 3), (odKey 0x2941 4, 8192), (odKey 0x2941 5, 12288)]
  { s with compute := { s.compute with slm := [(8208, 2)] } }

/-- A request of member 1 that the next boundary looks at, under tally entry 2. -/
def arrivedAs (s : State) (a : Arrived) : State := { s with
  tally := ⟨s.tally.entries ++ [(2, entryOf (.fabric 1 9) .admitted)], [], 0⟩
  fabric := { s.fabric with arrived := [a], targets := [⟨1, 4, 9, a.type, none, 0, false, 0, [], a.x⟩] } }

theorem txnHere_of {s : State} {x : Txn} (h : stopped s = false ∧ portUp s x.port = true ∧ x.guildId = s.fabric.guildId ∧
    s.power.inForce ≠ 1 ∧ x.dst = s.fabric.memberId) : TxnHere s x := ⟨h.1, h.2.1, h.2.2.1, h.2.2.2.1, h.2.2.2.2⟩

theorem txnTurn_of (s : State) (a : Arrived) (hs : a.x.src = 1 ∧ a.x.tag = 9 ∧ a.x.srcEpoch = 4)
    (he : entryAt (arrivedAs s a) 2 = some (entryOf (.fabric 1 9) .admitted)) (hr : receiveRoom (arrivedAs s a) a = true) :
    TxnTurn (arrivedAs s a) a 2 :=
  ⟨by simp [arrivedAs], ⟨_, he, by rw [hs.1, hs.2.1]; rfl, rfl⟩,
    ⟨_, by simp [targetOf, arrivedAs, hs.1, hs.2.1, hs.2.2]; rfl, rfl, rfl, rfl, rfl⟩, by simp [arrivedAs], hr⟩

/-- What the ends of requests in the state are: the replies that wait on port 0, as status codes with the bytes. -/
def repliesOf (s : State) : List (Nat × List Nat) := ((portOf s 0).tx.filter (fun m => m.x.reply)).map (fun m => (m.status, m.data))

theorem test_hyps_RequestsAreServedOnce :
    let paused : State := { withWindows with fabric := { withWindows.fabric with member := .paused } }
    let g : TargetTxn := ⟨1, 4, 9, 1, none, 0, true, 5, [], req 0 64⟩
    let again : State := { withWindows with fabric := { withWindows.fabric with targets := [g] } }
    let grp : StageGroup := ⟨1, 4, 7, [(0, [1, 2])], none, 3⟩
    let staged : State := { withWindows with fabric := { withWindows.fabric with staging := [grp] } }
    let idx : State := mounted0 (withNs withWindows)
    let fed : State := { withWindows with streams := { withWindows.streams with table := [(6, { stream6 with remoteFed := true, source := 1 })] } }
    let a (type addr len : Nat) (data : Bytes) : Arrived := ⟨req addr len, type, data, 1⟩
    let j : ReadJob := ⟨2, .get, 1, [0], [], [], [(0, 5)], []⟩
    let twoUp : State := { inGuild with fabric := { inGuild.fabric with ports := [(0, upPort), (1, upPort)] } }
    let on : Txn := { req 0 64 with dst := 1 }
    let get : State :=
      let s := arrivedAs withWindows (a 1 0 64 [])
      { s with fabric := { s.fabric with targets := [⟨1, 4, 9, 1, some 2, 0, false, 0, [], req 0 64⟩] } }
    (TxnHere paused (req 0 64) ∧ TxnHere withWindows (req 0 64) ∧ TxnHere again (req 0 64)) ∧
    TxnTurn (arrivedAs withWindows (a 1 0 64 [])) (a 1 0 64 []) 2 ∧ TxnTurn (arrivedAs staged (a 3 0 0 (leBytes 4 1 ++ leBytes 8 2))) (a 3 0 0 (leBytes 4 1 ++ leBytes 8 2)) 2 ∧
    ((req 0 64).dstEpoch ≠ { withWindows.fabric with epoch := 3 }.epoch ∧ targetOf again 1 4 9 = some g ∧ g.replied = true ∧ g.entry = none) ∧
    (portUp twoUp 0 = true ∧ on.dst ≠ twoUp.fabric.memberId ∧ choosePort twoUp on.dst (some (0, false)) = some (1, false) ∧
      (portOf (after (.getOp on) twoUp) 1).tx.map (fun m => m.x.hops) = [1]) ∧
    (windowRefusal withWindows 0 64 false = none ∧ windowRefusal withWindows 4033 64 false = some 6 ∧ windowRefusal withWindows 0 64 true = none ∧
      windowField withWindows 0 1 ≠ 2) ∧
    (groupOfSeal staged (req 0 0) = some grp ∧ groupWrites staged grp = [] ∧ 3 + odVal staged 0x2902 8 ≤ (atBell staged 1000000).bell.ticks) ∧
    (windowField withWindows 1 1 = 3 ∧ bit (windowField withWindows 1 2) 1 = true ∧ windowField withWindows 1 4 + windowField withWindows 1 5 ≤ slmSize ∧
      ringFields withWindows 1 = (0, 0, 2) ∧ ringFull 0 0 2 = false ∧ ringFull 0 2 2 = true) ∧
    (sliceWelcome fed (req 6 2) = true ∧ sliceWelcome withWindows (req 6 2) = false) ∧
    ((mounted idx 2).map (fun q => q.indexId) = some 1 ∧ queryBad index0 true 1 0 256 (queryBuf 1) = false) ∧
    (after (.putOp (req 4094 2) [7, 8]) withWindows).fabric.arrived = [⟨req 4094 2, 2, [7, 8], 0⟩] ∧
    repliesOf (after (.getOp (req 0 64)) paused) = [(2, [])] ∧
    (repliesOf (served (arrivedAs withWindows (a 1 0 2 [])) (a 1 0 2 []) 2) = [(1, []), (0, [0, 0])] ∧
      (served (arrivedAs withWindows (a 2 4094 2 [7, 8])) (a 2 4094 2 [7, 8]) 2).fabric.staging.length = 1) ∧
    ((served (arrivedAs staged (a 3 0 0 (leBytes 4 1 ++ leBytes 8 2))) (a 3 0 0 (leBytes 4 1 ++ leBytes 8 2)) 2).compute.slm.head? = some (0, 1) ∧
      repliesOf (served (arrivedAs withWindows (a 4 (2 ^ 42) 1 [9])) (a 4 (2 ^ 42) 1 [9]) 2) = [(1, []), (0, [])]) ∧
    repliesOf (dropArrived (arrivedAs withWindows (a 1 0 64 [])) 1 9) = [(3, [])] ∧
    ((get.fabric.targets.find? (fun g => g.entry = some j.entry)).isSome = true ∧ (repliesOf (getDone get j)).map (fun r => r.1) = [0]) ∧
    ((after (.repeatRecordExpiry 1 4 9) (atBell again 1000000)).fabric.targets = [] ∧ (after (.stagingTimeout 1 4 7) (atBell staged 1000000)).fabric.staging = []) :=
  ⟨⟨txnHere_of (by decide +kernel), txnHere_of (by decide +kernel), txnHere_of (by decide +kernel)⟩,
    txnTurn_of _ _ (by decide +kernel) (by decide +kernel) (by decide +kernel), txnTurn_of _ _ (by decide +kernel) (by decide +kernel) (by decide +kernel),
    by decide +kernel, by decide +kernel, by decide +kernel, by decide +kernel, by decide +kernel, by decide +kernel, by decide +kernel,
    by decide +kernel, by decide +kernel, by decide +kernel, by decide +kernel, by decide +kernel, by decide +kernel, by decide +kernel⟩

/-- The request with tag 9 that serves the host command of entry 0, and its reply. -/
def sent (o : OrigTxn) : State := { inGuild with fabric := { inGuild.fabric with originated := [o] } }
def orig0 : OrigTxn := ⟨1, 0, { req 0 64 with src := 0, srcEpoch := 2, dst := 1, dstEpoch := 4 }, 1, [], 0, false, none, 0, 0, 0⟩
def reply (st : Nat) : Instr := .transactionReply { req 0 64 with reply := true, bell := 3 } ⟨1, st⟩ []

theorem test_hyps_OriginatedRequestsEnd :
    let s := sent orig0
    let last := atBell (sent { orig0 with tries := odVal running 0x2902 2 }) 100000
    let again := atBell s 100000
    let held := atBell (sent { orig0 with heldUntil := some 8 }) 8
    let ping := sent { orig0 with purpose := 6, type := 8 }
    let far (e : Nat) (st : PeerSt) : State := { s with fabric := { s.fabric with peers := [(1, ⟨st, e, 0, []⟩)] } }
    let small : State := { inGuild with ident := { inGuild.ident with meshed := false } }
    (TxnHere s (req 0 64) ∧ origOf s 9 = some orig0 ∧ orig0.x.dst = 1 ∧ (peerOf s 1).epoch = 4 ∧ (peerOf (far 5 .active) 1).epoch ≠ 4 ∧
      (peerOf (far 4 .lost) 1).st = .lost ∧ (peerOf (far 4 .paused) 1).st = .paused) ∧
    (TallyOk s ∧ Stands s 1 7 0 ∧ 0 ∉ family s orig0.entry ∧ orig0.full < odVal s 0x2046 0 ∧ orig0.purpose ≠ 3 ∧ orig0.entry ≠ noEntry ∧
      3 - s.bell.count ≤ odVal s 0x2902 7) ∧
    (orig0.sentBell + retryBells last 1 ≤ last.bell.ticks ∧ odVal s 0x2902 2 ≤ odVal running 0x2902 2 + 1 ∧ orig0.tries + 1 < odVal again 0x2902 2 ∧
      held.dev.state ≠ .paused) ∧
    (IoTurn inGuild ioH 0 ∧ IoTurn small ioH 0) ∧
    (isAperture 0 = false ∧ 0 + slmSize ≤ slmSize ∧ isAperture (2 ^ 63) = true ∧ apertureBad inGuild (2 ^ 63) 1 = true ∧
      apertureBad inGuild (2 ^ 63 + 2 ^ 46) 1 = false ∧ inGuild.fabric.remotes = []) ∧
    (AdminTurn (atHost inGuild adminH) adminH 0 ∧ AdminTurn (atHost small adminH) adminH 0 ∧ 1 < memberCount inGuild ∧ 1 ≠ inGuild.fabric.memberId) ∧
    ((portOf (launch s orig0) 0).tx.map (fun m => m.x.tag) = [9] ∧ lineOf (launch (far 4 .lost) orig0) = [(1, 7, .memberLost, 0, 0)] ∧
      (after (reply 1) (far 5 .active)).fabric.originated = [orig0]) ∧
    ((after (reply 1) s).fabric.originated.map (fun o => o.accepted) = [true] ∧ (after (reply 2) s).fabric.originated.map (fun o => o.heldUntil) = [some 3] ∧
      (after (reply 3) s).fabric.originated.map (fun o => o.full) = [1]) ∧
    (lineOf (after (reply 4) s) = [(1, 7, .memberLost, 0, 0)] ∧ (lineOf (after (reply 0) ping)).map (fun l => l.2.2.1) = [.success]) ∧
    (lineOf (after (.e2eRetryTimeout 9) last) = [(1, 7, .memberLost, 0, 0)] ∧
      (portOf (after (.e2eRetryTimeout 9) again) 0).tx.map (fun m => m.x.tryNo) = [1]) ∧
    (after (.heldResend 9) held).fabric.originated.map (fun o => o.heldUntil) = [none] ∧
    ((after (.memoryWrite ioH 5 [6]) inGuild).compute.slm = [(5, 6)] ∧ lineOf (after (.memoryRead ioH 0 2) inGuild) = [(1, 7, .success, 0, 0)] ∧
      lineOf (after (.memoryCopy ioH 0 2 4) small) = [(1, 7, .success, 0, 0)] ∧
      (after (.memoryRead ioH (2 ^ 63 + 2 ^ 46) 2) inGuild).fabric.originated.map (fun o => o.x.dst) = [1] ∧
      (after (.guildPing adminH 1) (atHost inGuild adminH)).fabric.originated.map (fun o => o.purpose) = [6]) :=
  ⟨⟨txnHere_of (by decide +kernel), by decide +kernel, by decide +kernel, by decide +kernel, by decide +kernel, by decide +kernel, by decide +kernel⟩,
    ⟨tallyOk_of (by decide +kernel), stands_of (by decide +kernel), by decide +kernel, by decide +kernel, by decide +kernel, by decide +kernel, by decide +kernel⟩,
    by decide +kernel, ⟨ioTurn_of (by decide +kernel), ioTurn_of (by decide +kernel)⟩, by decide +kernel,
    ⟨adminTurn_of (by decide +kernel), adminTurn_of (by decide +kernel), by decide +kernel, by decide +kernel⟩,
    by decide +kernel, by decide +kernel, by decide +kernel, by decide +kernel, by decide +kernel, by decide +kernel⟩

theorem noticeTurn_of {s : State} {p : Nat} (h : stopped s = false ∧ portUp s p = true ∧ s.power.inForce ≠ 1 ∧ s.fabric.member ≠ .solo) :
    NoticeTurn s p := ⟨h.1, h.2.1, h.2.2.1, h.2.2.2⟩

/-- The drive in a membership state. -/
def asMember (m : MemberSt) : State := { inGuild with fabric := { inGuild.fabric with member := m } }

/-- The statements about notices and the peer table. -/
theorem test_hyps_NoticesChangeThePeerTable :
    let g (f : Fabric → Fabric) : State := { inGuild with fabric := f inGuild.fabric }
    let held := g (fun f => { f with peers := [(1, ⟨.paused, 4, 0, []⟩)] })
    let due (e : Nat) := g (fun f => { f with lostDue := [(1, e)] })
    let period := g (fun f => { f with periodNotice := some (2, 9) })
    let join := asMember .joining
    let seen := g (fun f => { f with seenLost := [(1, 4)] })
    (NoticeTurn inGuild 0 ∧ NoticeTurn held 0 ∧ NoticeTurn join 0) ∧
    (1 ≠ inGuild.fabric.memberId ∧ (peerOf inGuild 1).epoch = 4 ∧ (peerOf inGuild 1).st = .active ∧ (peerOf held 1).st = .paused ∧
      (1, 4) ∉ inGuild.fabric.seenLost ∧ (1, 4) ∈ seen.fabric.seenLost) ∧
    ((due 4).fabric.lostDue = [(1, 4)] ∧ (peerOf (due 4) 1).epoch = 4 ∧ (due 4).fabric.originated = [] ∧ (peerOf (due 3) 1).epoch ≠ 3) ∧
    ((inGuild.fabric.memberId, inGuild.fabric.epoch) ∉ inGuild.fabric.seenLost ∧ period.fabric.periodNotice = some (2, 9) ∧
      inGuild.fabric.periodNotice ≠ some (2, 9) ∧ inGuild.fabric.parts = [] ∧ tget (peerOf inGuild 1).links 0 ≠ some 12) ∧
    (peerOf (after (.controlResumed 0 1 4) held) 1).st = .active ∧ (peerOf (after (.controlPaused 0 1 4 77) inGuild) 1).resume = 77 ∧
    ((after (.controlLost 0 1 4) inGuild).fabric.lostDue = [(1, 4)] ∧ (peerOf (settleLost (due 4)) 1).st = .lost ∧
      (after (.controlLost 0 0 2) inGuild).fabric.epoch = 3) ∧
    (after (.controlPeriod 0 2 9) inGuild).fabric.periodNotice = some (2, 9) ∧
    ((after (.controlTable 0 0 true 1 [(1, 2, 6, 50)]) join).fabric.tableLoaded = true ∧
      (after (.controlDelays 0 0 true [(1, 0, 12)]) inGuild).fabric.delaysLoaded = true) :=
  ⟨⟨noticeTurn_of (by decide +kernel), noticeTurn_of (by decide +kernel), noticeTurn_of (by decide +kernel)⟩, by decide +kernel, by decide +kernel,
    by decide +kernel, by decide +kernel, by decide +kernel, by decide +kernel, by decide +kernel, by decide +kernel⟩

/-- The statements about windows, joining, pausing, leaving, and Guild Control. -/
theorem test_hyps_MembersJoinPauseAndLeave :
    let probe := atBell (withPort { upPort with probing := some 0 }) (odVal running 0x2902 1)
    let alone := atBell (let s := withPort Port.reset; { s with fabric := { s.fabric with noPortUpSince := some 0 } }) (odVal running 0x2902 1)
    let lost : State := { inGuild with bell := { inGuild.bell with align := .holdover, holdover := odVal running 0x2902 4 } }
    let join : State := let s := asMember .joining; { s with fabric := { s.fabric with tableLoaded := true, delaysLoaded := true, joinPeriod := some 1 } }
    let notice := atBell (let s := inGuild; { s with fabric := { s.fabric with periodNotice := some (2, 9) } }) 9
    let pen : State := hostPen (atHost (asMember .solo) adminH)
    let in_ : State := hostPen (atHost inGuild adminH)
    let blank := inState { pen with fabric := { pen.fabric with hasGeometry := false } } .config
    let block : Bytes := leBytes 4 42 ++ [2, 1, 1, 1, 1, 0, 0, 0, 0, 0, 0, 0, 1] ++ List.replicate 111 0
    ((portOf probe 0).probing = some 0 ∧ (peerOf probe (neighbourOf probe 0 0)).st = .active ∧ 0 + odVal probe 0x2902 1 ≤ probe.bell.ticks ∧
      probe.bell.chime = 0 ∧ probe.fabric.originated = []) ∧
    (alone.fabric.noPortUpSince = some 0 ∧ upPorts alone = [] ∧ alone.fabric.member = .active) ∧
    (lost.bell.align = .holdover ∧ odVal lost 0x2902 4 ≤ lost.bell.holdover) ∧
    (mayBeActive join = true ∧ join.fabric.member = .joining ∧ join.bell.chime = 0) ∧
    (notice.fabric.periodNotice = some (2, 9) ∧ 9 ≤ notice.bell.count ∧ notice.bell.chime = 0) ∧ occ (asMember .leaving).tally .fabric = 0 ∧
    (AdminTurn pen adminH 0 ∧ AdminTurn in_ adminH 0 ∧ AdminTurn blank adminH 0) ∧
    (holdsPen pen .host 5 = true ∧ holdsPen pen .host 4 = false ∧ pen.fabric.hasGeometry = true ∧ in_.bell.count + 25000 ≤ 25000) ∧
    (geometryOk blank block = true ∧ blank.dev.state = .config ∧
      tooDeep { blank with fabric := { geometryOf blank.fabric block with peers := [] } } = false) ∧
    (after .leaveComplete (asMember .leaving)).fabric.member = .solo ∧ (after .joinComplete join).fabric.member = .active ∧
    odVal (after .periodChangeAtE notice) 0x2001 0 = 2 ∧ (after .holdoverPause lost).fabric.member = .paused ∧
    ((peerOf (after (.probeWindowExpiry 0) probe) 1).st = .lost ∧ (after .noPortUpExpiry alone).fabric.member = .joining) ∧
    ((after (.guildJoin adminH 5) pen).fabric.epoch = 3 ∧ (after (.guildLeave adminH 5) in_).fabric.member = .leaving ∧
      (after (.guildSetPeriod adminH 5 2 25000) in_).fabric.periodNotice = some (2, 25000) ∧
      lineOf (after (.guildJoin adminH 4) pen) = [(0, 7, .penHeld, 0, 0)]) :=
  ⟨by decide +kernel, by decide +kernel, by decide +kernel, by decide +kernel, by decide +kernel, by decide +kernel,
    ⟨adminTurn_of (by decide +kernel), adminTurn_of (by decide +kernel), adminTurn_of (by decide +kernel)⟩, by decide +kernel, by decide +kernel,
    by decide +kernel, by decide +kernel, by decide +kernel, by decide +kernel, by decide +kernel, by decide +kernel⟩


/-! ## Statements about the station, power, rails and firmware (O58 to O60) -/

/-- An output image with a cap of 30.0 W, and one with a reserved byte. -/
def image1 : Bytes := [44, 1, 0, 0, 0, 0, 0, 0, 0, 0, 0, 0, 0, 0, 0, 0]
def image2 : Bytes := [44, 1, 0, 0, 0, 0, 0, 0, 1, 0, 0, 0, 0, 0, 0, 0]

theorem test_hyps_MilnyStationAndFreeze :
    let s := station running
    let at_ (ns : Nat) : State := { s with milny := { s.milny with watch := .running, periodUs := 250 }, bell := { s.bell with edgeNs := ns } }
    let w : State := at_ 880000
    let e : State := { w with milny := { w.milny with expiryDue := true } }
    let p : State := { e with pen := ⟨some .sideband, 5, 0, false⟩ }
    (s.rails.alwaysOn = true ∧ s.milny.address ≠ 0x7E ∧ 4 ≠ s.milny.address) ∧
    (imageBad 25 image1 = false ∧ imageBad 1000 image1 = false ∧ imageBad 24 image1 = true ∧ imageBad 25 image2 = true ∧
      imageBad 25 (image1.set 5 0x5A) = true ∧ imageBad 25 ((image1.set 5 0x5A).set 6 0xA5) = false) ∧
    (running.milny.address = 0x7E ∧ 0 = running.ident.serialNo) ∧
    (w.milny.watch = .running ∧ watchdogDue w = true ∧ watchdogDue (at_ 800000) = false ∧ e.milny.expiryDue = true ∧ stopped (inState w .frozen) = true ∧ p.pen.holder = some .sideband ∧ stopped w = false) ∧
    (frameValid (milnyFrame s 0x01 [1, 2]) = true ∧ frameValid [0xA5] = false ∧ 0x11 ∈ frameTypes) ∧
    (running.freeze.armed = true ∧ running.sticky.heldFrozen.length < 16) ∧
    (after (.cycOut 3 1 7 25 image1) s).milny.capPending = some 300 ∧ (after (.cycOut 3 1 7 25 image2) s).milny.rejected = true ∧
    (after (.cycOut 3 1 7 25 ((image1.set 5 0x5A).set 6 0xA5)) s).dev.state = .frozen ∧
    ((after .milnyWatchdogExpiry w).milny.expiryDue = true ∧ (expiryTick p).pen.holder = none ∧ (after .milnyWatchdogExpiry (inState w .frozen)).milny.expiredFlag = true) ∧ (after (.assignOp 0 5 false false) running).milny.address = 5 ∧
    (after (.discover 0 1 false) running).out.length = 1 ∧ (after (.ownAddressFrame 1 3) s).milny.conflict = true ∧
    (after (.freezePin 50) running).dev.lastCause = 8 ∧ (after .freezePinRelease (after (.freezePin 50) running)).freeze.armed = true := by decide +kernel

theorem test_hyps_PowerStatesAndRails :
    let pw (f : Power → Power) : State := { running with power := f running.power }
    let idle := pw (fun p => { p with apst := true, apstTable := [(2, 3)], idleUs := 2000 })
    let prep := pw (fun p => { p with preparing := true, target := 1 })
    let busy := withEntries prep [(0, entryOf (.host 1 7) .running)]
    let tr := pw (fun p => { p with transition := true, target := 4 })
    let up := pw (fun p => { p with waking := true, inForce := 4 })
    let low := pw (fun p => { p with inForce := 2 })
    let rear := pw (fun p => { p with rear12 := false, rearBells := 25000 })
    let off : State := { inState running .off with rails := { running.rails with main := false } }
    let dark : State := { off with rails := { off.rails with alwaysOn := false } }
    let hot : List Int := [110, 20, 20, 20, 20, 20, 20, 20, 20, 20, 20, 20, 20, 20]
    (powerHeld running = false ∧ idle.power.apstTable[idle.power.inForce]? = some (2, 3) ∧ 1000 * 2 ≤ idle.power.idleUs) ∧
    (entryReady prep 1 = true ∧ entryReady busy 1 = false) ∧ (tr.power.transition = true ∧ tr.power.waking = false) ∧ up.power.waking = true ∧
    (2 ≤ low.power.inForce ∧ low.power.noppme = true ∧ powerHeld low = false) ∧ (hottest hot = (0, 10) ∧ running.bell.count % 25 = 0) ∧
    (running.ident.meshed = true ∧ running.power.rearWas = true ∧ 25000 ≤ rear.power.rearBells) ∧
    (off.dev.state = .off ∧ railsRested off = true ∧ off.rails.alwaysOn = true ∧ dark.rails.alwaysOn = false) ∧
    (after .apstIdleExpiry idle).power.apstPs = 3 ∧ (after .powerStateEntry prep).power.transition = true ∧
    (after .powerStateEntryComplete tr).power.mapResident = 0 ∧ (after .ps0Reached up).power.inForce = 0 ∧
    (after (.mediaCareWake 24) low).power.waking = true ∧ (after (.mediaCareWake 25) low) = low ∧
    (after (.thermalEvaluation hot 0) running).power.hold = true ∧ supplyLimit (after .rear12vLost running) = 700 ∧
    supplyLimit (after .rear12vReturn rear) = 1300 ∧ (after (.mainPowerLost 900 true) running).dev.state = .off ∧
    (after (.pwrdisAssert 900 true) running).update.resetCause = 1 ∧ (after .mainPowerGood off).dev.state = .boot ∧
    (after .alwaysOnPowerLoss off).rails.alwaysOn = false ∧ (after .alwaysOnPowerUp dark).bell.count = 0 ∧
    (after .powerRestart { off with rails := { off.rails with main := true, pwrdis := true } }).dev.state = .boot := by decide +kernel

/-- R337: the idle time counts from the boundary at which the last HOST entry is freed, so the bell of that boundary is no whole one. -/
theorem test_apst_idle_counts_from_the_last_free :
    let pw (f : Power → Power) : State := { running with power := f running.power }
    let counted := pw (fun p => { p with idleUs := 2000, idleFresh := false, apstPs := 3 })
    let busy := withEntries counted [(0, entryOf (.host 1 7) .running)]
    (idleTick busy).power.idleUs = 0 ∧ (idleTick busy).power.apstPs = 0 ∧ idleTick counted = counted ∧
    ((idleTick busy).power.tick 40 true).idleUs = 0 ∧ (((idleTick busy).power.tick 40 true).tick 40 true).idleUs = 40 := by decide +kernel

/-- An image in slot 2 that the checks of a slot pass; the buffer's own checks rest on the digest and signature of Config. -/
def img2 : Image := ⟨0x07030001, List.replicate 8 4, 1, List.replicate 8 0⟩
def withImage (s : State) : State := { s with update := { s.update with slots := s.update.slots ++ [(2, img2)] } }

theorem test_hyps_FirmwareIsChangedAndStarted :
    let s := withImage atTunnel
    let act : State := { s with dev := { s.dev with state := .drain, drainForActivation := true } }
    let ask (s : State) : State := atBell { s with update := { s.update with requested := some 2, actSlot := 2 } } 2
    let pause (res : Nat) : State :=
      let t := ask (inState s .paused)
      { t with update := { t.update with loaderDone := true, actResult := res, commit := some (0, 7) } }
    let copy (n : Nat) : State := { s with update := { s.update with scratch := 2, copied := n, copySlot := 1, scratchImage := some img2 } }
    let boot (k : Nat) : State := atBell { inState s .boot with update := { s.update with pending := k } } 1
    let good : BootChecks := ⟨true, true, 0, true, true, false, true, true, 900, 0⟩
    AdminTurn s adminH 0 ∧ AdminTurn act adminH 0 ∧ (activating s = false ∧ activating act = true) ∧
    (commitSlot s 0 = some 2 ∧ commitSlot s 1 = some 1 ∧ commitSlot s 3 = none ∧ checkSlot s 2 = .inr img2 ∧ checkSlot atTunnel 2 = .inl .firmwareImageInvalid) ∧
    (checkBuffer s = .inl .firmwareImageInvalid ∧ s.update.scratch ≠ 2 ∧ s.update.requested = none) ∧
    ((ask s).update.requested = some 2 ∧ EdgeFree (ask s) ∧ EdgeFree (ask (inState s .config)) ∧ (ask s).dev.state = .run) ∧
    (stagedFor (ask act).update 2 = some img2 ∧ EdgeFree (ask act) ∧ (ask act).dev.drainBell + 2 ≤ (ask act).bell.ticks ∧ (ask act).update.loaderDone = false) ∧
    ((pause 1).update.warmDeferred = none ∧ (pause 1).host.enClearDeferred = false ∧ (pause 1).fabric.rejoin = false ∧ EdgeFree (pause 1) ∧ Stands (pause 1) 0 7 0) ∧
    ((copy 7).update.scratchImage = some img2 ∧ stopped (copy 7) = false) ∧
    (let z : State := { s with update := { s.update with writing := [⟨2, img2, true, some 0⟩] } }
     z.update.writing = [⟨2, img2, true, some 0⟩] ∧ z.dev.state ≠ .paused ∧ Stands z 0 7 0) ∧
    (tget (endSlotWrite s ⟨2, img2, true, some 0⟩ []).update.slots 2 = some img2 ∧ (endSlotWrite s ⟨2, img2, true, some 0⟩ []).update.pending = 2) ∧
    (tget (startSlotWrite s 0 2 img2 true).update.slots 2 = some { img2 with state := 3 } ∧ bootable (startSlotWrite s 0 2 img2 true) 2 = false ∧
      bootable s 2 = true) ∧
    ((boot 2).dev.state = .boot ∧ (boot 2).dev.faultDue = false ∧ EdgeFree (boot 2) ∧ (boot 2).update.scratch ≠ 2 ∧ stagedFor (boot 2).update 2 = some img2 ∧ belowFloor (boot 2) img2.security = false) ∧
    (after (.firmwareImageDownload adminH 4096 [1, 2]) s).update.buffer = [(4096, [1, 2])] ∧
    (after (.firmwareCommitAction2 adminH 2) s).update.pending = 2 ∧ (after (.firmwareCommitAction3 adminH 2) s).update.requested = some 2 ∧
    (after .activationStart (ask s)).dev.state = .drain ∧ (after (.activationPause none 9) (ask act)).update.active = 2 ∧
    (after (.activationPause (some 3) 9) (ask act)).update.actPart = 3 ∧ (after .activationEnd (pause 1)).dev.state = .run ∧
    (after .imageCopyPart (copy 7)).update.scratch = 0 ∧ (after (.bootComplete good) (boot 2)).update.active = 2 ∧
    (after (.bootComplete { good with cellarOk := false }) (boot 0)).dev.state = .fault ∧
    (EdgeFree (atBell running 2) ∧ (after (.uncorrectableError 3) (atBell running 2)).dev.lastCause = 10 ∧
      (after (.uncorrectableError 3) { running with bell := { running.bell with chime := 3 } }).dev.faultDue = true ∧
      (after (.uncorrectableError 6) running).dev.state = .boot) :=
  ⟨adminTurn_of (by decide +kernel), adminTurn_of (by decide +kernel), by decide +kernel, ⟨by decide +kernel, by decide +kernel, by decide +kernel,
    by rfl, by rfl⟩, ⟨by rfl, by decide +kernel, rfl⟩,
    ⟨by decide +kernel, edgeFree_of (by decide +kernel), edgeFree_of (by decide +kernel), by decide +kernel⟩,
    ⟨by decide +kernel, edgeFree_of (by decide +kernel), by decide +kernel, by decide +kernel⟩,
    ⟨by decide +kernel, by decide +kernel, by decide +kernel, edgeFree_of (by decide +kernel), stands_of (by decide +kernel)⟩, by decide +kernel,
    ⟨rfl, by decide +kernel, stands_of (by decide +kernel)⟩, by decide +kernel, by decide +kernel,
    ⟨by decide +kernel, by decide +kernel, edgeFree_of (by decide +kernel), by decide +kernel, by decide +kernel, by decide +kernel⟩,
    by decide +kernel, by decide +kernel, by decide +kernel, by decide +kernel, by decide +kernel, by decide +kernel, by decide +kernel,
    by decide +kernel, by decide +kernel, by decide +kernel, edgeFree_of (by decide +kernel), by decide +kernel, by decide +kernel, by decide +kernel⟩

/-! ## Words of the table -/

/-- The table gives no bits, so no word spells a command. -/
theorem test_no_word_spells_a_command : decodeTableWord 0 0 = none ∧ decodeTableWord 32 0xFFFFFFFF = none ∧
    running.withFetchWord 32 5 = running := by decide +kernel


/-! ## Ill-formed commands are refused -/

/-- Operands within their fields, which the lists below change one field at a time. -/
def okH : HostId := ⟨0, 0, 0, false, 0, true⟩
def okV : Via := ⟨.host, 0, okH⟩
def okG : GangRef := ⟨24, 0⟩
def okA : FlashAddr := ⟨0, 0, 0, 0, 0⟩
def okR : RFields := ⟨0, 0, 0, 0, 0⟩
def okM : MemFields := ⟨0, 0, 0, 0, 0, false, 0, 0⟩
def okS : SiftFields := ⟨0, 0, 0, 0, false⟩
def okX : Txn := ⟨0, false, false, 0, 0, 0, 0, 0, 0, 0, 0, 0, 0, 0, 0, 0⟩
def okF : Flit := ⟨0, 0, false, 0, 0, 0, 0, true, true, true, 0⟩
def okQ : AcyReq := ⟨0, 0, 0, false, false, 0, 0, 0, true, true, []⟩
def okB : BootChecks := ⟨true, true, 0, true, true, false, true, true, 0, 0⟩
def okE : StepEnd := ⟨0, none⟩
def okP : EraseStop := ⟨0, 1⟩
def okD : DieBlock := ⟨0, 0⟩
def okR4 : ReplyHead := ⟨0, 0⟩

theorem test_illFormed_HostId :
    ([{ okH with sq := 129 }, { okH with cid := 65536 }, { okH with nsid := 2 ^ 32 }, { okH with deadline := 65536 }] : List HostId).all (fun x => !x.wf) = true := by decide +kernel

theorem test_illFormed_Via :
    ([{ okV with serial := 65536 }, { okV with h := { okH with sq := 129 } }] : List Via).all (fun x => !x.wf) = true := by decide +kernel

theorem test_illFormed_GangRef :
    ([{ okG with unit := 23 }, { okG with unit := 72 }, { okG with slot := 16 }] : List GangRef).all (fun x => !x.wf) = true := by decide +kernel

theorem test_illFormed_FlashAddr :
    ([{ okA with die := 256 }, { okA with plane := 4 }, { okA with block := 2048 }, { okA with page := 2304 }, { okA with cw := 4 }] : List FlashAddr).all (fun x => !x.wf) = true := by decide +kernel

theorem test_illFormed_SiftFields :
    ([{ okS with slot := 256 }, { okS with k := 65536 }, { okS with contexts := 65536 }, { okS with length := 2 ^ 32 }] : List SiftFields).all (fun x => !x.wf) = true := by decide +kernel

theorem test_illFormed_Txn :
    ([{ okX with port := 10 }, { okX with cls := 6 }, { okX with guildId := 65536 }, { okX with src := 131072 }, { okX with srcEpoch := 256 }, { okX with dst := 131072 }, { okX with dstEpoch := 256 }, { okX with tag := 2 ^ 23 }, { okX with addr := 2 ^ 64 }, { okX with bell := 2 ^ 64 }] : List Txn).all (fun x => !x.wf) = true := by decide +kernel

theorem test_illFormed_Flit :
    ([{ okF with vl := 8 }, { okF with seq := 65536 }, { okF with ack := 65536 }, { okF with cvl := 8 }] : List Flit).all (fun x => !x.wf) = true := by decide +kernel

theorem test_illFormed_AcyReq :
    ([{ okQ with token := 256 }, { okQ with index := 65536 }, { okQ with sub := 256 }, { okQ with serial := 65536 }, { okQ with offset := 2 ^ 32 }, { okQ with length := 65536 }, { okQ with data := [256] }] : List AcyReq).all (fun x => !x.wf) = true := by decide +kernel

theorem test_illFormed_SqCmd :
    ([⟨65536, 0, .other, false, 0⟩, ⟨0, 2 ^ 32, .other, false, 0⟩, ⟨0, 0, .other, false, 65536⟩] : List SqCmd).all (fun x => !x.wf) = true := by
  decide +kernel

/-- One ill-formed command for each check. -/
theorem test_illFormed0 : (([.bellEdge [(246, 0)] 0 none,
    .hardOverrun 246,
    .childWaitLimit (131072),
    .unitReply 246 0 0 .success,
    .unitReply 0 (256) 0 .success,
    .unitReply 0 0 (131072) .success,
    .odRead { okH with cid := 65536 } 0 0 false 0 0,
    .odRead okH (65536) 0 false 0 0,
    .odRead okH 0 (256) false 0 0,
    .odRead okH 0 0 false (2 ^ 32) 0,
    .odRead okH 0 0 false 0 (2 ^ 32),
    .odWrite { okH with cid := 65536 } 0 0 false 0 [],
    .odWrite okH (65536) 0 false 0 [],
    .odWrite okH 0 (256) false 0 [],
    .odWrite okH 0 0 false (65536) [],
    .odWrite okH 0 0 false 0 [256],
    .penTake { okH with cid := 65536 } false,
    .penGive { okH with cid := 65536 } 0,
    .penGive okH (65536),
    .stateRequestConfig { okV with serial := 65536 },
    .stateRequestRun { okV with serial := 65536 },
    .tallyQuotaWrite { okV with serial := 65536 } false 0 0,
    .tallyQuotaWrite okV false (256) 0,
    .tallyQuotaWrite okV false 0 (2 ^ 64),
    .bellPeriodWrite { okV with serial := 65536 } 0,
    .bellPeriodWrite okV (256),
    .sourceQualified .guild (2 ^ 64) 0,
    .bellInFrame (2 ^ 64) false,
    .doorbellWrite 129 0 [],
    .doorbellWrite 0 (65536) [],
    .doorbellWrite 0 0 [⟨65536, 0, .other, false, 0⟩],
    .nvmRead { okH with cid := 65536 } 0 0 0,
    .nvmRead okH (2 ^ 32) 0 0,
    .nvmRead okH 0 (2 ^ 32) 0,
    .nvmRead okH 0 0 (2 ^ 16),
    .nvmWrite { okH with cid := 65536 } 0 0 none [],
    .nvmWrite okH (2 ^ 64) 0 none [],
    .nvmWrite okH 0 (2 ^ 16) none [],
    .flush { okH with cid := 65536 },
    .datasetManagement { okH with cid := 65536 } false []] : List Instr).all
    (fun i => !i.wf)) = true := by decide +kernel

/-- One ill-formed command for each check. -/
theorem test_illFormed1 : (([.formatNvm { okH with cid := 65536 } 0 0,
    .sanitizeCryptoErase { okH with cid := 65536 },
    .sanitizeBlockErase { okH with cid := 65536 },
    .namespaceCreate { okH with cid := 65536 } 0 0 0,
    .namespaceDelete { okH with cid := 65536 },
    .ioManagementSend { okH with cid := 65536 } [],
    .ioManagementReceive { okH with cid := 65536 },
    .abort { okH with cid := 65536 } 0 0,
    .abort okH (65536) 0,
    .abort okH 0 (65536),
    .identify { okH with cid := 65536 } 0,
    .getFeatures { okH with cid := 65536 } 0,
    .setFeaturesPowerManagement { okH with cid := 65536 } 0 0,
    .setFeaturesApst { okH with cid := 65536 } false [],
    .setFeaturesApst okH false (List.replicate 33 (0, 0)),
    .setFeaturesNoppme { okH with cid := 65536 } false,
    .setFeaturesArbitration { okH with cid := 65536 } 0 0 0 0,
    .setFeaturesArbitration okH (8) 0 0 0,
    .setFeaturesArbitration okH 0 (256) 0 0,
    .setFeaturesArbitration okH 0 0 (256) 0,
    .setFeaturesArbitration okH 0 0 0 (256),
    .setFeaturesFdp { okH with cid := 65536 } false,
    .asynchronousEventRequest { okH with cid := 65536 },
    .createIoSq { okH with cid := 65536 } 0 0 0 0 false,
    .createIoSq okH (65536) 0 0 0 false,
    .createIoSq okH 0 0 0 (65536) false,
    .createIoCq { okH with cid := 65536 } 0 0 0 false false,
    .createIoCq okH (65536) 0 0 false false,
    .deleteIoSq { okH with cid := 65536 } 0,
    .deleteIoSq okH (65536),
    .deleteIoCq { okH with cid := 65536 } 0,
    .deleteIoCq okH (65536),
    .getLogPage { okH with cid := 65536 } 0 0 0 false,
    .getLogPage okH 0 (2 ^ 32) 0 false,
    .getLogPage okH 0 0 (2 ^ 32) false,
    .stickySummaryLog { okH with cid := 65536 } 0 0 false,
    .stickySummaryLog okH (2 ^ 32) 0 false,
    .stickySummaryLog okH 0 (2 ^ 32) false,
    .freezeLog { okH with cid := 65536 } 0 0 false,
    .freezeLog okH (2 ^ 32) 0 false] : List Instr).all
    (fun i => !i.wf)) = true := by decide +kernel

/-- One ill-formed command for each check. -/
theorem test_illFormed2 : (([.freezeLog okH 0 (2 ^ 32) false,
    .bellLog { okH with cid := 65536 } 0 0 false,
    .bellLog okH (2 ^ 32) 0 false,
    .bellLog okH 0 (2 ^ 32) false,
    .guildLog { okH with cid := 65536 } 0 0 false,
    .guildLog okH (2 ^ 32) 0 false,
    .guildLog okH 0 (2 ^ 32) false,
    .kernelFaultLog { okH with cid := 65536 } 0 0 false,
    .kernelFaultLog okH (2 ^ 32) 0 false,
    .kernelFaultLog okH 0 (2 ^ 32) false,
    .queueThaw { okH with cid := 65536 } 0 0 false,
    .queueThaw okH (65536) 0 false,
    .queueThaw okH 0 (65536) false,
    .queueQuiet 129,
    .queueReopen 129,
    .deadlineEdge (131072),
    .unitReset { okH with cid := 65536 } 0 0,
    .unitReset okH 246 0,
    .unitReset okH 0 (65536),
    .unitIdle 246,
    .snapshotFetch { okH with cid := 65536 } 0 0,
    .snapshotFetch okH (2 ^ 32) 0,
    .snapshotFetch okH 0 (2 ^ 32),
    .ccEnSet 2 2 2,
    .ccEnSet 0 (1) 2,
    .ccEnSet 0 4097 2,
    .ccEnSet 0 2 (1),
    .ccEnSet 0 2 4097,
    .perstDeassert 4 0,
    .perstDeassert 0 9,
    .read { okA with die := 256 } 1 .tracker false 0,
    .read okA (0) .tracker false 0,
    .read okA (16) .tracker false 0,
    .read okA 1 .tracker false (131072),
    .readSoft { okA with die := 256 } 1 false 0,
    .readSoft okA (0) false 0,
    .readSoft okA (16) false 0,
    .readSoft okA 1 false (131072),
    .readCancel (256),
    .program (256) 0 0 false []] : List Instr).all
    (fun i => !i.wf)) = true := by decide +kernel

/-- One ill-formed command for each check. -/
theorem test_illFormed3 : (([.program 0 (2048) 0 false [],
    .program 0 0 (768) false [],
    .erase (256) 0 false,
    .erase 0 (2048) false,
    .eraseSuspend (256),
    .eraseResume (256),
    .eraseLock (256),
    .setLevels (256) 0 [0, 0, 0, 0, 0, 0, 0],
    .setLevels 0 (32) [0, 0, 0, 0, 0, 0, 0],
    .setLevels 0 0 [0, 0, 0],
    .senseValley { okA with die := 256 } 0 [] [],
    .senseValley okA (7) [] [],
    .dieStatus (256),
    .dieReset (256) false,
    .channelTrain (32) false,
    .readParams (256),
    .dieReadComplete (256) [],
    .programComplete (256) false,
    .eraseComplete (256) false,
    .eraseSuspended { okP with die := 256 },
    .eraseSuspended { okP with segment := 0 },
    .eraseSuspended { okP with segment := 11 },
    .dieTimeout (256),
    .trackerRun (256) 0 [],
    .trackerRun 0 (32) [],
    .thresholdPinWrite { okV with serial := 65536 } 0 0 0,
    .thresholdPinWrite okV (65536) 0 0,
    .thresholdPinWrite okV 0 (256) 0,
    .thresholdPinWrite okV 0 0 (-129),
    .thresholdPinWrite okV 0 0 (128),
    .decodeFail 246 okA,
    .decodeFail 0 { okA with die := 256 },
    .writeComplete { okH with cid := 65536 },
    .gatherTimeout (256),
    .reclaimJob (8) 1 okD,
    .reclaimJob 0 (0) okD,
    .reclaimJob 0 5 okD,
    .reclaimJob 0 1 { okD with die := 256 },
    .reclaimJob 0 1 { okD with block := 2048 },
    .wearLevelJob (8)] : List Instr).all
    (fun i => !i.wf)) = true := by decide +kernel

/-- One ill-formed command for each check. -/
theorem test_illFormed4 : (([.scrubPass (16) 0,
    .scrubPass 0 (2048),
    .checkpointSegment (16384),
    .bootComplete { okB with failedPart := 9 },
    .loomDirect { okH with cid := 65536 } 0 (List.replicate 256 0) [],
    .loomDirect okH (2 ^ 32) (List.replicate 256 0) [],
    .loomDirect okH 0 (256 :: List.replicate 255 0) [],
    .loomDirect okH 0 [] [],
    .loomDirect okH 0 (List.replicate 256 0) [256],
    .loomStepComplete (16) okE,
    .loomStepComplete 0 { okE with index := 131072 },
    .loomStepComplete 0 { okE with kv := some ⟨0, 65536, 0, false⟩ },
    .loadProgram { okH with cid := 65536 } 0 0 [],
    .loadProgram okH (65536) 0 [],
    .loadProgram okH 0 (2 ^ 32) [],
    .loadProgram okH 0 0 [256],
    .programActivate { okH with cid := 65536 } 0,
    .programActivate okH (65536),
    .programDeactivate { okH with cid := 65536 } 0,
    .programDeactivate okH (65536),
    .executeProgram { okH with cid := 65536 } 0 0 0 [],
    .executeProgram okH (65536) 0 0 [],
    .executeProgram okH 0 0 (65536) [],
    .executeProgram okH 0 0 0 [256],
    .memoryRangeSetManagement { okH with cid := 65536 } false 0 [],
    .memoryRangeSetManagement okH false (65536) [],
    .runKernel { okH with cid := 65536 } 0 0 0 0 [],
    .runKernel okH (65536) 0 0 0 [],
    .runKernel okH 0 (65536) 0 0 [],
    .runKernel okH 0 0 (65536) 0 [],
    .runKernel okH 0 0 0 (2 ^ 32) [],
    .runKernel okH 0 0 0 0 [256],
    .gangStall { okG with slot := 16 },
    .iadd { okG with slot := 16 } okR,
    .iadd okG { okR with rd := 256 },
    .iadd okG { okR with modifier := 1 },
    .isub { okG with slot := 16 } okR,
    .isub okG { okR with rd := 256 },
    .isub okG { okR with modifier := 1 },
    .imul { okG with slot := 16 } okR] : List Instr).all
    (fun i => !i.wf)) = true := by decide +kernel

/-- One ill-formed command for each check. -/
theorem test_illFormed5 : (([.imul okG { okR with rd := 256 },
    .imul okG { okR with modifier := 1 },
    .imulhi { okG with slot := 16 } okR,
    .imulhi okG { okR with rd := 256 },
    .imulhi okG { okR with modifier := 2 },
    .imad { okG with slot := 16 } okR,
    .imad okG { okR with rd := 256 },
    .imad okG { okR with modifier := 1 },
    .iaddi { okG with slot := 16 } 0 0 0,
    .iaddi okG (256) 0 0,
    .iaddi okG 0 (256) 0,
    .iaddi okG 0 0 (2 ^ 32),
    .andOp { okG with slot := 16 } okR,
    .andOp okG { okR with rd := 256 },
    .andOp okG { okR with modifier := 2 },
    .orOp { okG with slot := 16 } okR,
    .orOp okG { okR with rd := 256 },
    .orOp okG { okR with modifier := 1 },
    .xorOp { okG with slot := 16 } okR,
    .xorOp okG { okR with rd := 256 },
    .xorOp okG { okR with modifier := 1 },
    .shl { okG with slot := 16 } okR,
    .shl okG { okR with rd := 256 },
    .shl okG { okR with modifier := 1 },
    .shr { okG with slot := 16 } okR,
    .shr okG { okR with rd := 256 },
    .shr okG { okR with modifier := 1 },
    .sar { okG with slot := 16 } okR,
    .sar okG { okR with rd := 256 },
    .sar okG { okR with modifier := 1 },
    .imin { okG with slot := 16 } okR,
    .imin okG { okR with rd := 256 },
    .imin okG { okR with modifier := 2 },
    .imax { okG with slot := 16 } okR,
    .imax okG { okR with rd := 256 },
    .imax okG { okR with modifier := 2 },
    .popc { okG with slot := 16 } okR,
    .popc okG { okR with rd := 256 },
    .popc okG { okR with modifier := 1 },
    .clz { okG with slot := 16 } okR] : List Instr).all
    (fun i => !i.wf)) = true := by decide +kernel

/-- One ill-formed command for each check. -/
theorem test_illFormed6 : (([.clz okG { okR with rd := 256 },
    .clz okG { okR with modifier := 1 },
    .icmp { okG with slot := 16 } okR,
    .icmp okG { okR with rd := 256 },
    .icmp okG { okR with modifier := 16 },
    .icmp okG { okR with modifier := 6 },
    .sel { okG with slot := 16 } okR,
    .sel okG { okR with rd := 256 },
    .sel okG { okR with modifier := 1 },
    .mov { okG with slot := 16 } okR,
    .mov okG { okR with rd := 256 },
    .mov okG { okR with modifier := 1 },
    .movi { okG with slot := 16 } 0 0,
    .movi okG (256) 0,
    .movi okG 0 (2 ^ 32),
    .bfe { okG with slot := 16 } okR,
    .bfe okG { okR with rd := 256 },
    .bfe okG { okR with modifier := 2 },
    .sreg { okG with slot := 16 } 0 0,
    .sreg okG (256) 0,
    .sreg okG 0 10,
    .fadd { okG with slot := 16 } okR,
    .fadd okG { okR with rd := 256 },
    .fadd okG { okR with modifier := 16 },
    .fsub { okG with slot := 16 } okR,
    .fsub okG { okR with rd := 256 },
    .fsub okG { okR with modifier := 16 },
    .fmul { okG with slot := 16 } okR,
    .fmul okG { okR with rd := 256 },
    .fmul okG { okR with modifier := 16 },
    .ffma { okG with slot := 16 } okR,
    .ffma okG { okR with rd := 256 },
    .ffma okG { okR with modifier := 16 },
    .fmin { okG with slot := 16 } okR,
    .fmin okG { okR with rd := 256 },
    .fmin okG { okR with modifier := 16 },
    .fmax { okG with slot := 16 } okR,
    .fmax okG { okR with rd := 256 },
    .fmax okG { okR with modifier := 16 },
    .fcmp { okG with slot := 16 } okR] : List Instr).all
    (fun i => !i.wf)) = true := by decide +kernel

/-- One ill-formed command for each check. -/
theorem test_illFormed7 : (([.fcmp okG { okR with rd := 256 },
    .fcmp okG { okR with modifier := 8 },
    .fcmp okG { okR with modifier := 6 },
    .frnd { okG with slot := 16 } okR,
    .frnd okG { okR with rd := 256 },
    .frnd okG { okR with modifier := 4 },
    .fclass { okG with slot := 16 } okR,
    .fclass okG { okR with rd := 256 },
    .fclass okG { okR with modifier := 1 },
    .cvt { okG with slot := 16 } okR,
    .cvt okG { okR with rd := 256 },
    .fdiv { okG with slot := 16 } okR,
    .fdiv okG { okR with rd := 256 },
    .fdiv okG { okR with modifier := 16 },
    .fsqrt { okG with slot := 16 } okR,
    .fsqrt okG { okR with rd := 256 },
    .fsqrt okG { okR with modifier := 2 },
    .frcp { okG with slot := 16 } okR,
    .frcp okG { okR with rd := 256 },
    .frcp okG { okR with modifier := 2 },
    .fexp2 { okG with slot := 16 } okR,
    .fexp2 okG { okR with rd := 256 },
    .fexp2 okG { okR with modifier := 2 },
    .flog2 { okG with slot := 16 } okR,
    .flog2 okG { okR with rd := 256 },
    .flog2 okG { okR with modifier := 2 },
    .idiv { okG with slot := 16 } okR,
    .idiv okG { okR with rd := 256 },
    .idiv okG { okR with modifier := 2 },
    .irem { okG with slot := 16 } okR,
    .irem okG { okR with rd := 256 },
    .irem okG { okR with modifier := 2 },
    .shfl { okG with slot := 16 } okR,
    .shfl okG { okR with rd := 256 },
    .shfl okG { okR with modifier := 4 },
    .vote { okG with slot := 16 } okR,
    .vote okG { okR with rd := 256 },
    .vote okG { okR with modifier := 4 },
    .vote okG { okR with modifier := 3 },
    .ld { okG with slot := 16 } okM] : List Instr).all
    (fun i => !i.wf)) = true := by decide +kernel

/-- One ill-formed command for each check. -/
theorem test_illFormed8 : (([.ld okG { okM with width := 5 },
    .st { okG with slot := 16 } okM,
    .st okG { okM with sx := true },
    .atom { okG with slot := 16 } { okM with width := 2 } 0,
    .atom okG { { okM with width := 2 } with space := 2 } 0,
    .cas { okG with slot := 16 } { okM with width := 2 },
    .cas okG { { okM with width := 2 } with width := 4 },
    .fence { okG with slot := 16 } 1,
    .fence okG 3,
    .bra { okG with slot := 16 } 0,
    .bra okG (2 ^ 24),
    .brz { okG with slot := 16 } 0 0 0,
    .brz okG (256) 0 0,
    .brz okG 0 (2 ^ 24) 0,
    .brz okG 0 0 (2 ^ 24),
    .brnz { okG with slot := 16 } 0 0 0,
    .brnz okG (256) 0 0,
    .brnz okG 0 (2 ^ 24) 0,
    .brnz okG 0 0 (2 ^ 24),
    .reconv { okG with slot := 16 },
    .bar { okG with slot := 16 } 0 0,
    .bar okG 3 0,
    .bar okG 0 (16),
    .ticket { okG with slot := 16 } 0 0 0,
    .ticket okG (256) 0 0,
    .ticket okG 0 (256) 0,
    .ticket okG 0 0 (256),
    .waitOp { okG with slot := 16 } 0 0,
    .waitOp okG (256) 0,
    .waitOp okG 0 (256),
    .pollOp { okG with slot := 16 } 0 0,
    .pollOp okG (256) 0,
    .pollOp okG 0 (256),
    .pulse { okG with slot := 16 },
    .exitOp { okG with slot := 16 } 0,
    .exitOp okG (256),
    .trapOp { okG with slot := 16 } 0,
    .trapOp okG (65536),
    .nopOp { okG with slot := 16 },
    .streamFeed { okH with cid := 65536 } 0 0 0 0 none []] : List Instr).all
    (fun i => !i.wf)) = true := by decide +kernel

/-- One ill-formed command for each check. -/
theorem test_illFormed9 : (([.streamFeed okH (65536) 0 0 0 none [],
    .streamFeed okH 0 (65536) 0 0 none [],
    .streamFeed okH 0 0 (65536) 0 none [],
    .streamFeed okH 0 0 0 (2 ^ 32) none [],
    .streamFeed okH 0 0 0 0 none [256],
    .streamPark { okH with cid := 65536 } 0 false false 0,
    .streamPark okH (65536) false false 0,
    .streamPark okH 0 false false (2 ^ 64),
    .streamParkNow { okH with cid := 65536 } 0 false false 0,
    .streamParkNow okH (65536) false false 0,
    .streamParkNow okH 0 false false (2 ^ 64),
    .streamResumeHome { okH with cid := 65536 } 0,
    .streamResumeHome okH (65536),
    .streamResumeInit { okH with cid := 65536 } 0 0 [],
    .streamResumeInit okH (65536) 0 [],
    .streamResumeInit okH 0 (2 ^ 32) [],
    .streamResumeInit okH 0 0 [256],
    .streamResumeLoad { okH with cid := 65536 } 0 0 0,
    .streamResumeLoad okH (65536) 0 0,
    .streamResumeLoad okH 0 (2 ^ 64) 0,
    .streamResumeLoad okH 0 0 (2 ^ 16),
    .chunkDispatch (65536),
    .streamEviction (65536),
    .sliceAdmit (65536),
    .siftQuery { okH with cid := 65536 } okS [],
    .siftQuery okH { okS with slot := 256 } [],
    .siftQuery okH okS [256],
    .siftMount { okH with cid := 65536 } 0 0 false,
    .siftMount okH (256) 0 false,
    .siftMount okH 0 (2 ^ 64) false,
    .siftUnmount { okH with cid := 65536 } 0,
    .siftUnmount okH (256),
    .guildSift { okH with cid := 65536 } okS [],
    .guildSift okH { okS with slot := 256 } [],
    .guildSift okH okS [256],
    .yieldPoint (128) 0,
    .yieldPoint 0 (1024),
    .flitReceived (10) okF,
    .flitReceived 0 { okF with vl := 8 },
    .nak (10) 0] : List Instr).all
    (fun i => !i.wf)) = true := by decide +kernel

/-- One ill-formed command for each check. -/
theorem test_illFormed10 : (([.portProtectionDown (10),
    .linkDown (10),
    .aliveTimeout (10),
    .rateAdapt (10) 0,
    .portTrained (10) false,
    .ratePinWrite { okV with serial := 65536 } 0 0,
    .ratePinWrite okV (10) 0,
    .ratePinWrite okV 0 (2 ^ 64),
    .portModeWrite { okV with serial := 65536 } 0 0,
    .portModeWrite okV (10) 0,
    .portModeWrite okV 0 (2 ^ 64),
    .windowWrite { okV with serial := 65536 } 0 [],
    .getOp { okX with port := 10 },
    .putOp { okX with port := 10 } [],
    .putOp okX [256],
    .sealOp { okX with port := 10 } 0 0,
    .sendOp { okX with port := 10 } [],
    .sendOp okX [256],
    .siftOp { okX with port := 10 } 0 0 [],
    .siftOp okX 0 (131072) [],
    .siftOp okX 0 0 [256],
    .streamOp { okX with port := 10 } [],
    .streamOp okX [256],
    .syncOp { okX with port := 10 } 0 0 0,
    .syncOp okX (10) 0 0,
    .delayReq { okX with port := 10 } 0 0 0,
    .delayReq okX (10) 0 0,
    .delayResp { okX with port := 10 } 0 0 0,
    .delayResp okX (10) 0 0,
    .controlAlive (10),
    .controlProbe { okX with port := 10 },
    .controlLost (10) 0 0,
    .controlLost 0 (131072) 0,
    .controlLost 0 0 (256),
    .controlPaused (10) 0 0 0,
    .controlPaused 0 (131072) 0 0,
    .controlPaused 0 0 (256) 0,
    .controlResumed (10) 0 0,
    .controlResumed 0 (131072) 0,
    .controlResumed 0 0 (256)] : List Instr).all
    (fun i => !i.wf)) = true := by decide +kernel

/-- One ill-formed command for each check. -/
theorem test_illFormed11 : (([.controlJoined (10) 0 0,
    .controlJoined 0 (131072) 0,
    .controlJoined 0 0 (256),
    .controlPeriod (10) 0 0,
    .controlPeriod 0 (256) 0,
    .controlIdentity (10) 0 0 0 0,
    .controlIdentity 0 0 (131072) 0 0,
    .controlIdentity 0 0 0 (256) 0,
    .controlTable (10) 0 false 0 [],
    .controlTable 0 0 false (256) [],
    .controlDelays (10) 0 false [],
    .partSequenceTimeout (10),
    .transactionReply { okX with port := 10 } okR4 [],
    .transactionReply okX { okR4 with kind := 256 } [],
    .transactionReply okX { okR4 with status := 256 } [],
    .transactionReply okX okR4 [256],
    .e2eRetryTimeout (2 ^ 23),
    .repeatRecordExpiry (131072) 0 0,
    .repeatRecordExpiry 0 (256) 0,
    .repeatRecordExpiry 0 0 (2 ^ 23),
    .detourDiscard (10),
    .stagingTimeout (131072) 0 0,
    .stagingTimeout 0 (256) 0,
    .stagingTimeout 0 0 (32),
    .heldResend (2 ^ 23),
    .probeWindowExpiry (10),
    .guildSetGeometry { okH with cid := 65536 } 0 0 [],
    .guildSetGeometry okH (65536) 0 [],
    .guildSetGeometry okH 0 (2 ^ 32) [],
    .guildSetGeometry okH 0 0 [256],
    .guildJoin { okH with cid := 65536 } 0,
    .guildJoin okH (65536),
    .guildLeave { okH with cid := 65536 } 0,
    .guildLeave okH (65536),
    .guildSetPeriod { okH with cid := 65536 } 0 0 0,
    .guildSetPeriod okH (65536) 0 0,
    .guildSetPeriod okH 0 (256) 0,
    .guildPing { okH with cid := 65536 } 0,
    .guildPing okH (131072),
    .memoryRead { okH with cid := 65536 } 0 0] : List Instr).all
    (fun i => !i.wf)) = true := by decide +kernel

/-- One ill-formed command for each check. -/
theorem test_illFormed12 : (([.memoryRead okH (2 ^ 64) 0,
    .memoryRead okH 0 (2 ^ 32),
    .memoryWrite { okH with cid := 65536 } 0 [],
    .memoryWrite okH (2 ^ 64) [],
    .memoryWrite okH 0 [256],
    .memoryCopy { okH with cid := 65536 } 0 0 0,
    .memoryCopy okH (2 ^ 64) 0 0,
    .memoryCopy okH 0 (2 ^ 64) 0,
    .memoryCopy okH 0 0 (2 ^ 32),
    .handoffHandleWrite { okV with serial := 65536 } 0 0,
    .handoffHandleWrite okV 0 (2 ^ 64),
    .cycOut (256) 0 0 0 (List.replicate 16 0),
    .cycOut 0 (256) 0 0 (List.replicate 16 0),
    .cycOut 0 0 (65536) 0 (List.replicate 16 0),
    .cycOut 0 0 0 (65536) (List.replicate 16 0),
    .cycOut 0 0 0 0 (256 :: List.replicate 15 0),
    .cycOut 0 0 0 0 (List.replicate 15 0),
    .assignOp 0 (256) false false,
    .acyOdRead { okQ with token := 256 },
    .acyOdWrite { okQ with token := 256 },
    .acyPenTake { okQ with token := 256 },
    .acyPenGive { okQ with token := 256 },
    .acySnapshotRead { okQ with token := 256 },
    .powerFloorWrite { okV with serial := 65536 } false 0,
    .powerFloorWrite okV false (2 ^ 64),
    .hostCapWrite { okV with serial := 65536 } 0,
    .hostCapWrite okV (2 ^ 64),
    .resetRequestWarm { okV with serial := 65536 },
    .resetRequestCold { okV with serial := 65536 },
    .resetRequestGuild { okV with serial := 65536 },
    .firmwareImageDownload { okH with cid := 65536 } 0 [],
    .firmwareImageDownload okH (2 ^ 32) [],
    .firmwareImageDownload okH 0 [256],
    .firmwareCommitAction0 { okH with cid := 65536 } 0,
    .firmwareCommitAction0 okH (256),
    .firmwareCommitAction1 { okH with cid := 65536 } 0,
    .firmwareCommitAction1 okH (256),
    .firmwareCommitAction2 { okH with cid := 65536 } 0,
    .firmwareCommitAction2 okH (256),
    .firmwareCommitAction3 { okH with cid := 65536 } 0] : List Instr).all
    (fun i => !i.wf)) = true := by decide +kernel

/-- One ill-formed command for each check. -/
theorem test_illFormed13 : (([.firmwareCommitAction3 okH (256),
    .stickyRecordClear { okV with serial := 65536 } 0,
    .stickyRecordClear okV (768),
    .clearThrough { okV with serial := 65536 } 0,
    .counterClear { okV with serial := 65536 } 0 0 0,
    .counterClear okV (65536) 0 0,
    .counterClear okV 0 (256) 0,
    .counterClear okV 0 0 (2 ^ 64),
    .discardSnapshot { okV with serial := 65536 },
    .memberCertificateWrite { okV with serial := 65536 } 0,
    .kernelKeyWrite { okV with serial := 65536 } 0 0,
    .kernelKeyWrite okV (256) 0,
    .sessionHello (10) 0 0 0,
    .sessionProof (10) 0,
    .securingTimeout (10),
    .rekeyThreshold (10),
    .rekeyReq (10) 0 0 0 0,
    .rekeyReq 0 (2 ^ 776) 0 0 0,
    .rekeyReq 0 0 (2 ^ 256) 0 0,
    .rekeyReq 0 0 0 (2 ^ 64) 0,
    .rekeyRsp (10) 0 0 0 0,
    .rekeyRsp 0 (2 ^ 776) 0 0 0,
    .rekeyRsp 0 0 (2 ^ 256) 0 0,
    .rekeyRsp 0 0 0 (2 ^ 64) 0,
    .rekeySwitch (10) false,
    .rekeyRetry (10),
    .nonceHardStop (10),
    .invalidMilnyFrame [256],
    .ld okG { okM with space := 3 },
    .ld okG { okM with space := 12 },
    .ld okG { okM with space := 4, ra := 255 },
    .ld okG { okM with width := 5 },
    .ld okG { okM with width := 3, rd := 1 },
    .ld okG { okM with width := 0, sx := true, order := 8 },
    .ld okG { okM with width := 2, sx := true },
    .ld okG { okM with offset := -524289 },
    .ld okG { okM with offset := 524288 },
    .st okG { okM with space := 3 },
    .st okG { okM with width := 3, rb := 1 },
    .st okG { okM with width := 5 }] : List Instr).all
    (fun i => !i.wf)) = true := by decide +kernel

/-- One ill-formed command for each check. -/
theorem test_illFormed14 : (([.st okG { okM with offset := 524288 },
    .atom okG { okM with width := 1 } 0,
    .atom okG { okM with width := 2 } 9,
    .atom okG { okM with width := 2, offset := 32768 } 0,
    .atom okG { okM with width := 3, rb := 1 } 0,
    .cas okG { okM with width := 2, space := 2 },
    .cas okG { okM with width := 3, rb := 1 },
    .cas okG { okM with width := 2, rb := 255 },
    .cas okG { okM with width := 2, sx := true }] : List Instr).all
    (fun i => !i.wf)) = true := by decide +kernel

/-- Every command is well formed with operands within their fields. -/
theorem test_wellFormed0 : (([.bellEdge [] 0 none,
    .chimeBoundary,
    .hardOverrun 0,
    .childWaitLimit 0,
    .unitReply 0 0 0 .success,
    .writeApply,
    .odRead okH 0 0 false 0 0,
    .odWrite okH 0 0 false 0 [],
    .penTake okH false,
    .penGive okH 0,
    .penIdleTimeout,
    .stateRequestConfig okV,
    .stateRequestRun okV,
    .configLingerExpired,
    .drainComplete,
    .tallyQuotaWrite okV false 0 0,
    .bellPeriodWrite okV 0,
    .sourceQualified .guild 0 0,
    .bellInFrame 0 false,
    .bellInLost false,
    .guildSourceLost false,
    .alignmentLocked,
    .alignmentUnlocked,
    .doorbellWrite 0 0 [],
    .nvmRead okH 0 0 0,
    .nvmWrite okH 0 0 none [],
    .flush okH,
    .datasetManagement okH false [],
    .formatNvm okH 0 0,
    .sanitizeCryptoErase okH,
    .sanitizeBlockErase okH,
    .namespaceCreate okH 0 0 0,
    .namespaceDelete okH,
    .ioManagementSend okH [],
    .ioManagementReceive okH,
    .abort okH 0 0,
    .identify okH 0,
    .getFeatures okH 0,
    .setFeaturesPowerManagement okH 0 0,
    .setFeaturesApst okH false [],
    .setFeaturesNoppme okH false,
    .setFeaturesArbitration okH 0 0 0 0,
    .setFeaturesFdp okH false,
    .asynchronousEventRequest okH,
    .createIoSq okH 0 0 0 0 false,
    .createIoCq okH 0 0 0 false false,
    .deleteIoSq okH 0,
    .deleteIoCq okH 0,
    .getLogPage okH 0 0 0 false,
    .stickySummaryLog okH 0 0 false,
    .freezeLog okH 0 0 false,
    .bellLog okH 0 0 false,
    .guildLog okH 0 0 false,
    .kernelFaultLog okH 0 0 false,
    .queueThaw okH 0 0 false,
    .queueQuiet 0,
    .queueReopen 0,
    .deadlineEdge 0,
    .unitReset okH 0 0,
    .unitIdle 0] : List Instr).all
    (fun i => i.wf)) = true := by decide +kernel

/-- Every command is well formed with operands within their fields. -/
theorem test_wellFormed1 : (([.snapshotFetch okH 0 0,
    .ccEnClear,
    .ccEnSet 0 2 2,
    .functionLevelReset,
    .perstAssert,
    .perstDeassert 0 0,
    .nvmeMiBasicManagement,
    .healthStatusPoll,
    .controllerHealthStatusPoll,
    .readNvmeMiDataStructure 0,
    .read okA 1 .tracker false 0,
    .readSoft okA 1 false 0,
    .readCancel 0,
    .program 0 0 0 false [],
    .erase 0 0 false,
    .eraseSuspend 0,
    .eraseResume 0,
    .eraseLock 0,
    .setLevels 0 0 [0, 0, 0, 0, 0, 0, 0],
    .senseValley okA 0 [] [],
    .dieStatus 0,
    .dieReset 0 false,
    .channelTrain 0 false,
    .readParams 0,
    .dieReadComplete 0 [],
    .programComplete 0 false,
    .eraseComplete 0 false,
    .eraseSuspended okP,
    .dieTimeout 0,
    .trackerRun 0 0 [],
    .thresholdPinWrite okV 0 0 0,
    .decodeFail 0 okA,
    .writeComplete okH,
    .gatherTimeout 0,
    .reclaimJob 0 1 okD,
    .wearLevelJob 0,
    .scrubPass 0 0,
    .checkpointSegment 0,
    .mainPowerLost 0 false,
    .mainPowerGood,
    .powerRestart,
    .pwrdisAssert 0 false,
    .bootComplete okB,
    .loomDirect okH 0 (List.replicate 256 0) [],
    .loomStepComplete 0 okE,
    .loadProgram okH 0 0 [],
    .programActivate okH 0,
    .programDeactivate okH 0,
    .executeProgram okH 0 0 0 [],
    .memoryRangeSetManagement okH false 0 [],
    .runKernel okH 0 0 0 0 [],
    .invocationStart 0,
    .gangPlacement,
    .invocationEnd 0,
    .gangStall okG,
    .barrierTimeout 0 0 0,
    .gangFault 0,
    .iadd okG okR,
    .isub okG okR,
    .imul okG okR] : List Instr).all
    (fun i => i.wf)) = true := by decide +kernel

/-- Every command is well formed with operands within their fields. -/
theorem test_wellFormed2 : (([.imulhi okG okR,
    .imad okG okR,
    .iaddi okG 0 0 0,
    .andOp okG okR,
    .orOp okG okR,
    .xorOp okG okR,
    .shl okG okR,
    .shr okG okR,
    .sar okG okR,
    .imin okG okR,
    .imax okG okR,
    .popc okG okR,
    .clz okG okR,
    .icmp okG okR,
    .sel okG okR,
    .mov okG okR,
    .movi okG 0 0,
    .bfe okG okR,
    .sreg okG 0 0,
    .fadd okG okR,
    .fsub okG okR,
    .fmul okG okR,
    .ffma okG okR,
    .fmin okG okR,
    .fmax okG okR,
    .fcmp okG okR,
    .frnd okG okR,
    .fclass okG okR,
    .cvt okG okR,
    .fdiv okG okR,
    .fsqrt okG okR,
    .frcp okG okR,
    .fexp2 okG okR,
    .flog2 okG okR,
    .idiv okG okR,
    .irem okG okR,
    .shfl okG okR,
    .vote okG okR,
    .ld okG okM,
    .st okG okM,
    .atom okG { okM with width := 2 } 0,
    .cas okG { okM with width := 2 },
    .fence okG 1,
    .bra okG 0,
    .brz okG 0 0 0,
    .brnz okG 0 0 0,
    .reconv okG,
    .bar okG 0 0,
    .ticket okG 0 0 0,
    .waitOp okG 0 0,
    .pollOp okG 0 0,
    .pulse okG,
    .exitOp okG 0,
    .trapOp okG 0,
    .nopOp okG,
    .streamFeed okH 0 0 0 0 none [],
    .streamPark okH 0 false false 0,
    .streamParkNow okH 0 false false 0,
    .streamResumeHome okH 0,
    .streamResumeInit okH 0 0 []] : List Instr).all
    (fun i => i.wf)) = true := by decide +kernel

/-- Every command is well formed with operands within their fields. -/
theorem test_wellFormed3 : (([.streamResumeLoad okH 0 0 0,
    .chunkDispatch 0,
    .streamEviction 0,
    .sliceSeal 0,
    .sliceAdmit 0,
    .siftQuery okH okS [],
    .siftMount okH 0 0 false,
    .siftUnmount okH 0,
    .guildSift okH okS [],
    .yieldPoint 0 0,
    .searchFinalise 0,
    .replyByFinalise 0,
    .guildMerge 0,
    .flitReceived 0 okF,
    .nak 0 0,
    .portProtectionDown 0,
    .linkDown 0,
    .aliveTimeout 0,
    .rateAdapt 0 0,
    .portTrained 0 false,
    .ratePinWrite okV 0 0,
    .portModeWrite okV 0 0,
    .windowWrite okV 0 [],
    .getOp okX,
    .putOp okX [],
    .sealOp okX 0 0,
    .sendOp okX [],
    .siftOp okX 0 0 [],
    .streamOp okX [],
    .syncOp okX 0 0 0,
    .delayReq okX 0 0 0,
    .delayResp okX 0 0 0,
    .timeTransferInterval,
    .controlAlive 0,
    .controlProbe okX,
    .controlLost 0 0 0,
    .controlPaused 0 0 0 0,
    .controlResumed 0 0 0,
    .controlJoined 0 0 0,
    .controlPeriod 0 0 0,
    .controlIdentity 0 0 0 0 0,
    .controlTable 0 0 false 0 [],
    .controlDelays 0 0 false [],
    .partSequenceTimeout 0,
    .transactionReply okX okR4 [],
    .e2eRetryTimeout 0,
    .repeatRecordExpiry 0 0 0,
    .detourDiscard 0,
    .stagingTimeout 0 0 0,
    .heldResend 0,
    .probeWindowExpiry 0,
    .noPortUpExpiry,
    .holdoverPause,
    .joinComplete,
    .periodChangeAtE,
    .leaveComplete,
    .guildSetGeometry okH 0 0 [],
    .guildJoin okH 0,
    .guildLeave okH 0,
    .guildSetPeriod okH 0 0 0] : List Instr).all
    (fun i => i.wf)) = true := by decide +kernel

/-- Every command is well formed with operands within their fields. -/
theorem test_wellFormed4 : (([.guildPing okH 0,
    .memoryRead okH 0 0,
    .memoryWrite okH 0 [],
    .memoryCopy okH 0 0 0,
    .handoffHandleWrite okV 0 0,
    .cycOut 0 0 0 0 (List.replicate 16 0),
    .discover 0 0 false,
    .assignOp 0 0 false false,
    .acyOdRead okQ,
    .acyOdWrite okQ,
    .acyPenTake okQ,
    .acyPenGive okQ,
    .acyPoll 0,
    .acySnapshotRead okQ,
    .milnyWatchdogExpiry,
    .apstIdleExpiry,
    .powerStateEntry,
    .ps0Reached,
    .mediaCareWake 0,
    .powerFloorWrite okV false 0,
    .hostCapWrite okV 0,
    .thermalEvaluation [] 0,
    .rear12vLost,
    .rear12vReturn,
    .resetRequestWarm okV,
    .resetRequestCold okV,
    .resetRequestGuild okV,
    .firmwareImageDownload okH 0 [],
    .firmwareCommitAction0 okH 0,
    .firmwareCommitAction1 okH 0,
    .firmwareCommitAction2 okH 0,
    .firmwareCommitAction3 okH 0,
    .activationStart,
    .activationPause none 0,
    .activationEnd,
    .imageCopyPart,
    .freezePin 0,
    .stickyRecordClear okV 0,
    .clearThrough okV 0,
    .counterClear okV 0 0 0,
    .discardSnapshot okV,
    .memberCertificateWrite okV 0,
    .kernelKeyWrite okV 0 0,
    .sessionHello 0 0 0 0,
    .sessionProof 0 0,
    .securingTimeout 0,
    .rekeyThreshold 0,
    .rekeyReq 0 0 0 0 0,
    .rekeyRsp 0 0 0 0 0,
    .rekeySwitch 0 false,
    .rekeyRetry 0,
    .nonceHardStop 0,
    .alwaysOnPowerUp,
    .alwaysOnPowerLoss,
    .uncorrectableError 0,
    .invalidMilnyFrame [],
    .ownAddressFrame 0 0,
    .freezePinRelease,
    .powerStateEntryComplete] : List Instr).all
    (fun i => i.wf)) = true := by decide +kernel

end Sys2Proof.Tests
end

section
/-!
SUPPORT. Frames and small equations that the settled statements share: updates of one part, the tally under the operations that end a
request, and what a completion leaves.
-/

namespace Sys2Proof.Machine

/-! ## Frames -/

/-- What holds of every step of a fold, and of steps put together, holds of the fold. -/
theorem foldl_rel {α : Type} {R : State → State → Prop} (refl : ∀ s, R s s) (trans : ∀ s t u, R s t → R t u → R s u)
    {f : State → α → State} (hf : ∀ s x, R s (f s x)) (l : List α) (s : State) : R s (l.foldl f s) := by
  induction l generalizing s with
  | nil => exact refl s
  | cons x l ih => exact trans _ _ _ (hf s x) (ih _)

theorem only_tally (s : State) (x : Tally) : OnlyChanges [.tally] s { s with tally := x } :=
  fun p h => by cases p <;> first | exact absurd (by decide) h | rfl

theorem only_host (s : State) (x : HostSide) : OnlyChanges [.host] s { s with host := x } :=
  fun p h => by cases p <;> first | exact absurd (by decide) h | rfl

theorem only_flash (s : State) (x : Flash) : OnlyChanges [.flash] s { s with flash := x } :=
  fun p h => by cases p <;> first | exact absurd (by decide) h | rfl

theorem only_fabric (s : State) (x : Fabric) : OnlyChanges [.fabric] s { s with fabric := x } :=
  fun p h => by cases p <;> first | exact absurd (by decide) h | rfl

theorem only_ledger (s : State) (x : Ledger) : OnlyChanges [.ledger] s { s with ledger := x } :=
  fun p h => by cases p <;> first | exact absurd (by decide) h | rfl

theorem only_compute (s : State) (x : Compute) : OnlyChanges [.compute] s { s with compute := x } :=
  fun p h => by cases p <;> first | exact absurd (by decide) h | rfl

theorem only_update (s : State) (x : Update) : OnlyChanges [.update] s { s with update := x } :=
  fun p h => by cases p <;> first | exact absurd (by decide) h | rfl

theorem only_out (s : State) (x : List Out) : OnlyChanges [.out] s { s with out := x } :=
  fun p h => by cases p <;> first | exact absurd (by decide) h | rfl

/-- What the end of any work of the tally can reach: what the end of a request can, the counters, and their records. -/
def workParts : List Part := completionParts ++ [.counters, .sticky]

/-- Frames of consecutive steps give one over the parts of both. -/
theorem OnlyChanges.comp {ps qs rs : List Part} {s t u : State} (a : OnlyChanges ps s t) (b : OnlyChanges qs t u)
    (hp : ps ⊆ rs := by decide) (hq : qs ⊆ rs := by decide) : OnlyChanges rs s u :=
  (a.mono hp).trans (b.mono hq)

theorem stopped_congr {s t : State} (h : t.dev = s.dev) : stopped t = stopped s := by simp [stopped, h]

theorem odVal_congr {s t : State} (hod : t.od = s.od) (hid : t.ident = s.ident) (idx sub : Nat) : odVal t idx sub = odVal s idx sub := by
  simp [odVal, odDefault, odRow, hod, hid]

theorem entryAt_congr {s t : State} (h : t.tally = s.tally) (i : Nat) : entryAt t i = entryAt s i := by simp [entryAt, h]

/-! ## The tally -/

theorem tget_filter_key {α : Type} (t : Table α) (f : Nat → Bool) (j : Nat) :
    tget (t.filter (fun p => f p.1)) j = if f j then tget t j else none := by
  induction t with
  | nil => simp [tget]
  | cons q t ih =>
    obtain ⟨k, v⟩ := q
    by_cases hj : j = k
    · subst hj
      cases hk : f j
      · simpa [hk] using ih
      · simp [hk, tget]
    · cases hk : f k <;> simp [hk, tget, hj, ih]

theorem tget_map_key {α : Type} (t : Table α) (f : α → α) (i j : Nat) :
    tget (t.map (fun p => if p.1 = i then (p.1, f p.2) else p)) j = if j = i then (tget t j).map f else tget t j := by
  induction t with
  | nil => simp [tget]
  | cons q t ih =>
    obtain ⟨k, v⟩ := q
    by_cases hk : k = i
    · subst hk
      by_cases hj : j = k
      · simp [tget, hj]
      · simp [tget, hj, ih]
    · by_cases hj : j = k
      · simp [tget, hk, hj]
      · simp [tget, hk, hj, ih]

theorem tget_mem {α : Type} {t : Table α} {k : Nat} {v : α} (h : tget t k = some v) : (k, v) ∈ t := by
  induction t with
  | nil => simp [tget] at h
  | cons q t ih =>
    obtain ⟨b, y⟩ := q
    simp only [tget] at h
    split at h
    · next hk => subst hk; cases h; exact List.mem_cons_self ..
    · exact List.mem_cons_of_mem _ (ih h)

theorem entryAt_entryMod (s : State) (i j : Nat) (f : Entry → Entry) :
    entryAt (entryMod s i f) j = if j = i then (entryAt s j).map f else entryAt s j := tget_map_key _ f i j

theorem entryAt_dropWork (s : State) (gone : List Nat) (j : Nat) :
    entryAt (dropWork s gone) j = if j ∈ gone then none else entryAt s j := by
  refine (tget_filter_key s.tally.entries (fun k => !gone.contains k) j).trans ?_
  by_cases h : j ∈ gone <;> simp [h, entryAt]

/-- Freeing a family leaves every entry outside it. -/
theorem entryAt_freeFamily (s : State) (i j : Nat) : entryAt (freeFamily s i) j = if j ∈ family s i then none else entryAt s j :=
  entryAt_dropWork s (family s i) j

theorem descends_self (es : Table Entry) (n i : Nat) : descends es n i i = true := by
  cases n <;> simp [descends]

theorem mem_family_self {s : State} {i : Nat} {e : Entry} (h : entryAt s i = some e) : i ∈ family s i := by
  refine List.mem_map.mpr ⟨(i, e), List.mem_filter.mpr ⟨tget_mem h, ?_⟩, rfl⟩
  exact descends_self _ 4 i

/-- A freed family leaves nothing at its root's index. -/
theorem entryAt_freeFamily_self (s : State) (i : Nat) : entryAt (freeFamily s i) i = none := by
  rw [entryAt_freeFamily]
  split
  · rfl
  · next h => exact Option.not_isSome_iff_eq_none.mp (fun x => h (mem_family_self (Option.eq_some_of_isSome x)))

theorem entryAt_conclude (s : State) (i sq cid : Nat) (e : Entry) (st : Status) (dw0 dw1 : Nat) (data : List Nat) (dma : Bool) (j : Nat) :
    entryAt (conclude s i sq cid e st dw0 dw1 data dma) j = if j = i then some { e with state := .replying } else entryAt s j := by
  split
  · next h => subst h; exact tget_tput_same _ _ _
  · next h => exact tget_tput_other _ _ _ _ h

theorem conclude_last (s : State) (i sq cid : Nat) (e : Entry) (st : Status) (dw0 dw1 : Nat) (data : List Nat) (dma : Bool) :
    (conclude s i sq cid e st dw0 dw1 data dma).host.posting.getLast? = some ⟨sq, cid, i, st, dw0, dw1, data, dma⟩ := by
  simp [conclude]

/-! ## What a completion leaves -/

theorem OnlyPostings.refl (s : State) : OnlyPostings s s := rfl

theorem OnlyPostings.trans {s t u : State} (a : OnlyPostings s t) (b : OnlyPostings t u) : OnlyPostings s u := by
  unfold OnlyPostings at *
  rw [← a, ← b]

theorem Undisturbed.refl (ps : List Part) (s : State) : Undisturbed ps s s := ⟨.refl _ s, rfl, rfl, rfl, fun _ => rfl⟩

theorem Undisturbed.trans {ps : List Part} {s t u : State} (a : Undisturbed ps s t) (b : Undisturbed ps t u) : Undisturbed ps s u := by
  obtain ⟨ac, am, ap, as, ah⟩ := a
  obtain ⟨bc, bm, bp, bs, bh⟩ := b
  exact ⟨ac.trans bc, bm.trans am, bp.trans ap, bs.trans as, fun h => (ah h).trans (bh h)⟩

theorem Undisturbed.mono {ps qs : List Part} {s t : State} (a : Undisturbed ps s t) (h : ps ⊆ qs) : Undisturbed qs s t := by
  obtain ⟨ac, am, ap, as, ah⟩ := a
  exact ⟨ac.mono (List.append_subset.mpr ⟨List.subset_append_of_subset_left _ h, List.subset_append_right _ _⟩), am, ap, as,
    fun hn => ah (fun hp => hn (h hp))⟩

/-- What changes nothing of the host side, the media and the compute units disturbs nothing. -/
theorem OnlyChanges.undisturbed {ps qs : List Part} {s t : State} (a : OnlyChanges ps s t) (h : ps ⊆ qs ++ completionParts := by decide)
    (hm : .ledger ∉ ps ∧ .flash ∉ ps ∧ .compute ∉ ps ∧ .host ∉ ps := by decide) : Undisturbed qs s t := by
  obtain ⟨hl, hf, hc, hh⟩ := hm
  exact ⟨a.mono h, congrArg Ledger.map (a .ledger hl), congrArg Flash.pages (a .flash hf), congrArg Compute.slm (a .compute hc),
    fun _ => by have e : t.host = s.host := a .host hh; simp [OnlyPostings, e]⟩

theorem Undisturbed.foldl {α : Type} {ps : List Part} {f : State → α → State} (hf : ∀ s x, Undisturbed ps s (f s x)) (l : List α)
    (s : State) : Undisturbed ps s (l.foldl f s) :=
  foldl_rel (Undisturbed.refl ps) (fun _ _ _ => .trans) hf l s

theorem dropWork_undisturbed (s : State) (gone : List Nat) : Undisturbed [] s (dropWork s gone) :=
  ⟨dropWork_only s gone, rfl, rfl, rfl, fun _ => rfl⟩

theorem freeFamily_undisturbed (s : State) (i : Nat) : Undisturbed [] s (freeFamily s i) := dropWork_undisturbed s _

theorem conclude_undisturbed (s : State) (i sq cid : Nat) (e : Entry) (st : Status) (dw0 dw1 : Nat) (data : List Nat) (dma : Bool) :
    Undisturbed [] s (conclude s i sq cid e st dw0 dw1 data dma) :=
  ⟨conclude_completion s i sq cid e st dw0 dw1 data dma, rfl, rfl, rfl, fun _ => rfl⟩

/-- The end of a request, whatever its entry, disturbs nothing. -/
theorem finishData_undisturbed (s : State) (i : Nat) (st : Status) (dw0 dw1 : Nat) (data : List Nat) (dma : Bool) :
    Undisturbed [] s (finishData s i st dw0 dw1 data dma) := by
  unfold finishData
  split
  · exact .refl _ s
  · split
    · split
      · exact .refl _ s
      · exact (freeFamily_undisturbed s i).trans (conclude_undisturbed _ _ _ _ _ _ _ _ _ _)
    · exact freeFamily_undisturbed s i

theorem finish_undisturbed (s : State) (i : Nat) (st : Status) (dw0 dw1 : Nat) : Undisturbed [] s (finish s i st dw0 dw1) :=
  finishData_undisturbed s i st dw0 dw1 [] false

/-- A command that stands at `i` in `u`, found there from `s`, completes with the data and status that end it. -/
theorem ends_finishData {s u : State} {sq cid i : Nat} {e : Entry} (hf : findHost s sq cid = some i) (he : entryAt u i = some e)
    (ho : e.origin = .host sq cid) (hr : e.state ≠ .replying) (st : Status) (dw0 dw1 : Nat) (data : List Nat) (dma : Bool) :
    Ends s (finishData u i st dw0 dw1 data dma) sq cid data st dw0 dw1 dma := by
  rw [finishData_line u i sq cid e st dw0 dw1 data dma he ho hr]
  exact ⟨i, _, hf, (entryAt_conclude ..).trans (if_pos rfl), ho, rfl, conclude_last ..⟩

theorem completes_finish {s u : State} {sq cid i : Nat} {e : Entry} (hf : findHost s sq cid = some i) (he : entryAt u i = some e)
    (ho : e.origin = .host sq cid) (hr : e.state ≠ .replying) (st : Status) (dw0 dw1 : Nat) :
    Completes s (finish u i st dw0 dw1) sq cid [] st dw0 dw1 := ends_finishData hf he ho hr st dw0 dw1 [] false

/-! ## A command that runs -/

theorem entryAt_markDispatched (n : Nat) {s : State} (i : Nat) {j : Nat} {e : Entry} (h : entryAt s j = some e) :
    ∃ d, entryAt (markDispatched s n i) j = some { e with dispatched := d } := by
  induction n generalizing s i e with
  | zero => exact ⟨e.dispatched, h⟩
  | succ n ih =>
    have step : ∃ d, entryAt (entryMod s i (fun e => { e with dispatched := true })) j = some { e with dispatched := d } := by
      rw [entryAt_entryMod, h]
      split
      · exact ⟨true, rfl⟩
      · exact ⟨e.dispatched, rfl⟩
    unfold markDispatched
    split
    · exact ⟨e.dispatched, h⟩
    · dsimp only
      obtain ⟨d, hd⟩ := step
      split
      · exact ⟨d, hd⟩
      · obtain ⟨d', hd'⟩ := ih _ hd
        exact ⟨d', hd'⟩

theorem entryAt_setRunning {s : State} {i : Nat} {e : Entry} (h : entryAt s i = some e) :
    ∃ d, entryAt (setRunning s i) i = some { e with state := .running, dispatched := d } :=
  entryAt_markDispatched 4 i (e := { e with state := .running }) (by rw [entryAt_entryMod, if_pos rfl, h, Option.map_some])

theorem entryAt_setRunning_other {s : State} {i j : Nat} {e : Entry} (hj : j ≠ i) (h : entryAt s j = some e) :
    ∃ d, entryAt (setRunning s i) j = some { e with dispatched := d } :=
  entryAt_markDispatched 4 i (by rw [entryAt_entryMod, if_neg hj, h])

theorem setRunning_undisturbed (s : State) (i : Nat) : Undisturbed [] s (setRunning s i) :=
  (setRunning_only s i).undisturbed

/-- A command that has begun to run completes with the status that ends it. -/
theorem completes_running {s : State} {sq cid i : Nat} {e : Entry} (hf : findHost s sq cid = some i) (he : entryAt s i = some e)
    (ho : e.origin = .host sq cid) (st : Status) (dw0 dw1 : Nat) :
    Completes s (finish (setRunning s i) i st dw0 dw1) sq cid [] st dw0 dw1 := by
  obtain ⟨d, hd⟩ := entryAt_setRunning he
  exact completes_finish hf hd ho (by simp) st dw0 dw1

theorem finish_running_undisturbed (s : State) (i : Nat) (st : Status) (dw0 dw1 : Nat) :
    Undisturbed [] s (finish (setRunning s i) i st dw0 dw1) :=
  (setRunning_undisturbed s i).trans (finish_undisturbed _ i st dw0 dw1)

theorem AdminTurn.completes {s : State} {h : HostId} {i : Nat} (t : AdminTurn s h i) (st : Status) (dw0 dw1 : Nat) :
    Completes s (finish (setRunning s i) i st dw0 dw1) h.sq h.cid [] st dw0 dw1 := by
  obtain ⟨e, he, ho, -, -⟩ := t.fresh
  exact completes_running t.found he ho st dw0 dw1

theorem IoTurn.completes {s : State} {h : HostId} {i : Nat} (t : IoTurn s h i) (st : Status) (dw0 dw1 : Nat) :
    Completes s (finish (setRunning s i) i st dw0 dw1) h.sq h.cid [] st dw0 dw1 := by
  obtain ⟨e, he, ho, -⟩ := t.fresh
  exact completes_running t.found he ho st dw0 dw1

end Sys2Proof.Machine
end

section
/-! ## The order of the plan (R32) -/

namespace Sys2Proof.Machine

theorem before_iff (i j : Nat) (a b : Entry) : before (i, a) (j, b) = true ↔
    (effClass a < effClass b ∨ (effClass a = effClass b ∧ (b.age < a.age ∨ (a.age = b.age ∧ i < j)))) := by
  unfold before
  dsimp only
  split
  · rw [decide_eq_true_iff]; omega
  · split <;> rw [decide_eq_true_iff] <;> omega

theorem effClass_unpromoted {e : Entry} (h : e.promoted = false) : effClass e = e.cls := by simp [effClass, h]

theorem effClass_promoted {e : Entry} (h : e.promoted = true) (hc : 1 ≤ e.cls) : effClass e = 1 := by
  simp [effClass, h, hc]

end Sys2Proof.Machine

open Sys2Proof Sys2Proof.Machine in
/-- Settles O12: the three comparisons of `before`, in their order. -/
theorem planOrderFollowsEffectiveClass : Obligations.PlanOrderFollowsEffectiveClass :=
  ⟨before_iff, fun _ => ⟨effClass_unpromoted, effClass_promoted⟩⟩

end

section
/-! ## Ageing at a bell edge (R27, R28) -/

namespace Sys2Proof.Machine

theorem raiseRecord_pending {s : State} (r : Record) (h : stopped s = false) :
    (raiseRecord s r).sticky.pending = s.sticky.pending ++ [stamped s r] := by
  simp only [stopped, Bool.or_eq_false_iff, decide_eq_false_iff_not] at h
  simp [raiseRecord, h.1, h.2, stamped]

theorem noteAged_only (s : State) (p : Nat × Entry) : OnlyChanges [.sticky] s (noteAged s p) := by
  unfold noteAged
  split
  · exact raiseRecord_only s _
  · exact .refl _ s

theorem noteAged_pending {s : State} (p : Nat × Entry) (h : stopped s = false) :
    ∃ r : List Record, (noteAged s p).sticky.pending = s.sticky.pending ++ r ∧
      r.map (fun x => x.code) = ([p].filter (fun p => p.2.age = 65534)).map (fun _ => 0x0101) := by
  unfold noteAged
  split
  · next ha => exact ⟨_, raiseRecord_pending _ h, by simp [ha, stamped, Record.of]⟩
  · next ha => exact ⟨[], by simp, by simp [ha]⟩

/-- One record waits for each entry that reaches the highest AGE, in the order of the tally. -/
theorem foldl_noteAged_pending (l : List (Nat × Entry)) {s : State} (h : stopped s = false) :
    ∃ r : List Record, (l.foldl noteAged s).sticky.pending = s.sticky.pending ++ r ∧
      r.map (fun x => x.code) = (l.filter (fun p => p.2.age = 65534)).map (fun _ => 0x0101) := by
  induction l generalizing s with
  | nil => exact ⟨[], by simp, rfl⟩
  | cons p l ih =>
    obtain ⟨r, hr, hc⟩ := noteAged_pending p h
    obtain ⟨q, hq, hd⟩ := ih (s := noteAged s p) ((stopped_congr (noteAged_only s p .dev (by decide))).trans h)
    refine ⟨r ++ q, by rw [List.foldl_cons, hq, hr, List.append_assoc], ?_⟩
    rw [List.map_append, hc, hd, ← List.map_append, ← List.filter_append, List.singleton_append]

theorem foldl_noteAged_only (l : List (Nat × Entry)) (s : State) : OnlyChanges [.sticky] s (l.foldl noteAged s) :=
  .foldl noteAged_only l s

/-- What ageing makes of the tally: every entry one bell older, by the threshold that stands in the dictionary. -/
theorem ageAll_entries (s : State) :
    (ageAll s).tally.entries = s.tally.entries.map (fun p => (p.1, p.2.tick (odVal s 0x2044 0))) := by
  have frame := foldl_noteAged_only s.tally.entries s
  have hod := odVal_congr (frame .od (by decide)) (frame .ident (by decide)) 0x2044 0
  have ht := frame .tally (by decide)
  simp only [Part.same] at ht
  simp [ageAll, hod, ht]

theorem ageAll_only (s : State) : OnlyChanges [.sticky, .tally] s (ageAll s) :=
  ((foldl_noteAged_only s.tally.entries s).mono (by decide)).trans
    (fun p h => by cases p <;> first | exact absurd (by decide) h | rfl)

end Sys2Proof.Machine

open Sys2Proof Sys2Proof.Machine in
/-- Settles O8: the tally is mapped entry by entry, and the records are those of the fold over it. -/
theorem bellEdgeAgesEveryEntry : Obligations.BellEdgeAgesEveryEntry := by
  intro s
  have frame := ageAll_only s
  refine ⟨?_, fun h => foldl_noteAged_pending s.tally.entries h, ?_, frame .od (by decide), frame .ledger (by decide), frame .bell (by decide)⟩
  · rw [ageAll_entries, List.map_map]
    refine List.map_congr_left (fun p _ => ?_)
    simp [Entry.tick, sat, Nat.min_comm]
  · have ht : (s.tally.entries.foldl noteAged s).tally = s.tally := foldl_noteAged_only s.tally.entries s .tally (by decide)
    change (s.tally.entries.foldl noteAged s).tally.waiting = _
    rw [ht]

end

section
/-! ## What the drive has sent only grows -/

namespace Sys2Proof.Machine

/-- What `s` has sent stands at the front of what `t` has sent: outputs are added behind, and none is taken back. -/
def OutGrows (s t : State) : Prop := s.out <+: t.out

theorem OutGrows.refl (s : State) : OutGrows s s := List.prefix_rfl

theorem OutGrows.trans {s t u : State} (a : OutGrows s t) (b : OutGrows t u) : OutGrows s u := List.IsPrefix.trans a b

theorem OutGrows.foldl {α : Type} {f : State → α → State} (hf : ∀ s x, OutGrows s (f s x)) (l : List α) (s : State) :
    OutGrows s (l.foldl f s) :=
  foldl_rel (OutGrows.refl) (fun _ _ _ => .trans) hf l s

theorem OnlyChanges.outGrows {ps : List Part} {s t : State} (a : OnlyChanges ps s t) (h : .out ∉ ps) : OutGrows s t := by
  have e : t.out = s.out := a .out h
  rw [OutGrows, e]

theorem emit_outGrows (s : State) (o : Out) : OutGrows s (emit s o) := List.prefix_append _ _

/-! ## Posting completions (R91, R101 to R103) -/

theorem interrupt_only (s : State) (sq : Nat) : OnlyChanges [.out] s (interrupt s sq) := by
  unfold interrupt
  split
  · exact .ite (emit_only _ _) (.refl _ s)
  · split
    · exact .ite (emit_only _ _) (.refl _ s)
    · exact .ite (emit_only _ _) (.refl _ s)

theorem interrupt_outGrows (s : State) (sq : Nat) : OutGrows s (interrupt s sq) := by
  unfold interrupt
  split
  · split
    · exact emit_outGrows s _
    · exact .refl s
  · split <;> split
    · exact emit_outGrows s _
    · exact .refl s
    · exact emit_outGrows s _
    · exact .refl s

theorem postOnly_only (s : State) (sq cid : Nat) (st : Status) (dw0 dw1 : Nat) : OnlyChanges [.out] s (postOnly s sq cid st dw0 dw1) :=
  (emit_only s _).trans (interrupt_only _ sq)

/-- The completion follows at once on what has been sent. -/
theorem postOnly_prefix (s : State) (sq cid : Nat) (st : Status) (dw0 dw1 : Nat) :
    s.out ++ [.completion sq cid st (statusDnr st) dw0 dw1 (sqHead s sq)] <+: (postOnly s sq cid st dw0 dw1).out :=
  interrupt_outGrows (emit s _) sq

theorem postOnly_outGrows (s : State) (sq cid : Nat) (st : Status) (dw0 dw1 : Nat) : OutGrows s (postOnly s sq cid st dw0 dw1) :=
  (emit_outGrows s _).trans (interrupt_outGrows _ sq)

/-- What a posting can change: beside what the end of a request reaches, the counters, their records, and what is sent. -/
def postingParts : List Part := .sticky :: .counters :: .out :: completionParts

theorem abortOne_only (sq : Nat) (s : State) (c : Nat × Nat × Option Nat) : OnlyChanges postingParts s (abortOne sq s c) := by
  unfold abortOne
  dsimp only
  split
  · exact ((freeFamily_completion s _).mono (by decide)).trans
      (((postOnly_only _ _ _ _ _ _).mono (by decide)).trans ((count_only _ _ _ _).mono (by decide)))
  · exact ((unwait_only s _ _).mono (by decide)).trans
      (((postOnly_only _ _ _ _ _ _).mono (by decide)).trans ((count_only _ _ _ _).mono (by decide)))

theorem abortOne_outGrows (sq : Nat) (s : State) (c : Nat × Nat × Option Nat) : OutGrows s (abortOne sq s c) := by
  unfold abortOne
  dsimp only
  split
  · exact ((freeFamily_completion s _).outGrows (by decide)).trans
      ((postOnly_outGrows _ _ _ _ _ _).trans ((count_only _ _ _ _).outGrows (by decide)))
  · exact ((unwait_only s _ _).outGrows (by decide)).trans
      ((postOnly_outGrows _ _ _ _ _ _).trans ((count_only _ _ _ _).outGrows (by decide)))

/-- Aborting a command admits nothing: an index that was free stays free. -/
theorem abortOne_entryAt_none (sq : Nat) (s : State) (c : Nat × Nat × Option Nat) (j : Nat) (h : entryAt s j = none) :
    entryAt (abortOne sq s c) j = none := by
  have tail (u : State) (hu : entryAt u j = none) : entryAt (count (postOnly u sq c.2.1 .queueFrozenAbort 0 0) 0x600B 0 1) j = none :=
    ((entryAt_congr (count_only _ _ _ _ .tally (by decide)) j).trans
      (entryAt_congr (postOnly_only _ _ _ _ _ _ .tally (by decide)) j)).trans hu
  unfold abortOne
  dsimp only
  split
  · refine tail _ ?_
    rw [entryAt_freeFamily, h, ite_self]
  · exact tail (unwait s sq c.2.1) h

theorem enterQuiet_only (s : State) (sq : Nat) : OnlyChanges [.host] s (enterQuiet s sq) :=
  (sqMod_only s sq _).trans (raiseEvent_only _ _)

/-- What freezing a queue comes to: its commands that were not dispatched are aborted, and for the rest only the host side changes. -/
theorem freezeQueue_only_after (s : State) (sq cid : Nat) (st : Status) (policy packed : Nat) :
    OnlyChanges [.host] ((undispatchedOf s sq).foldl (abortOne sq) (sqMod s sq (fun q => { q with freeze := .draining })))
      (freezeQueue s sq cid st policy packed) := by
  unfold freezeQueue
  dsimp only
  split
  · exact (sqMod_only _ _ _).trans ((raiseEvent_only _ _).trans (enterQuiet_only _ _))
  · exact (sqMod_only _ _ _).trans (raiseEvent_only _ _)

theorem freezeQueue_only (s : State) (sq cid : Nat) (st : Status) (policy packed : Nat) :
    OnlyChanges postingParts s (freezeQueue s sq cid st policy packed) :=
  ((sqMod_only s sq _).mono (by decide)).trans
    ((OnlyChanges.foldl (abortOne_only sq) _ _).trans ((freezeQueue_only_after s sq cid st policy packed).mono (by decide)))

theorem freezeQueue_outGrows (s : State) (sq cid : Nat) (st : Status) (policy packed : Nat) :
    OutGrows s (freezeQueue s sq cid st policy packed) :=
  ((sqMod_only s sq _).outGrows (by decide)).trans
    ((OutGrows.foldl (abortOne_outGrows sq) _ _).trans ((freezeQueue_only_after s sq cid st policy packed).outGrows (by decide)))

theorem foldl_abortOne_entryAt_none (sq : Nat) (l : List (Nat × Nat × Option Nat)) (s : State) (j : Nat) (h : entryAt s j = none) :
    entryAt (l.foldl (abortOne sq) s) j = none := by
  induction l generalizing s with
  | nil => exact h
  | cons c l ih => exact ih _ (abortOne_entryAt_none sq s c j h)

theorem freezeQueue_entryAt_none (s : State) (sq cid : Nat) (st : Status) (policy packed : Nat) (j : Nat) (h : entryAt s j = none) :
    entryAt (freezeQueue s sq cid st policy packed) j = none := by
  rw [entryAt_congr (freezeQueue_only_after s sq cid st policy packed .tally (by decide))]
  exact foldl_abortOne_entryAt_none sq _ _ j h

/-- Judging a completion freezes its queue, changes the host side alone, or does nothing. -/
theorem judge_cases (s : State) (sq cid : Nat) (st : Status) (dispatched : Bool) (packed : Nat) :
    (∃ policy, judge s sq cid st dispatched packed = freezeQueue s sq cid st policy packed) ∨
      OnlyChanges [.host] s (judge s sq cid st dispatched packed) := by
  unfold judge
  split
  · exact .inr (.refl _ s)
  · dsimp only
    split
    · exact .inr (.refl _ s)
    · split
      · exact .inr (.refl _ s)
      · split
        · split
          · exact .inl ⟨_, rfl⟩
          · exact .inr (.refl _ s)
        · split
          · exact .inr (.refl _ s)
          · exact .inr (.ite ((sqMod_only _ _ _).trans (enterQuiet_only _ _)) (sqMod_only _ _ _))
        · exact .inr (.refl _ s)

theorem judge_only (s : State) (sq cid : Nat) (st : Status) (dispatched : Bool) (packed : Nat) :
    OnlyChanges postingParts s (judge s sq cid st dispatched packed) := by
  obtain ⟨policy, e⟩ | h := judge_cases s sq cid st dispatched packed
  · exact e ▸ freezeQueue_only s sq cid st policy packed
  · exact h.mono (by decide)

theorem judge_outGrows (s : State) (sq cid : Nat) (st : Status) (dispatched : Bool) (packed : Nat) :
    OutGrows s (judge s sq cid st dispatched packed) := by
  obtain ⟨policy, e⟩ | h := judge_cases s sq cid st dispatched packed
  · exact e ▸ freezeQueue_outGrows s sq cid st policy packed
  · exact h.outGrows (by decide)

theorem judge_entryAt_none (s : State) (sq cid : Nat) (st : Status) (dispatched : Bool) (packed j : Nat) (h : entryAt s j = none) :
    entryAt (judge s sq cid st dispatched packed) j = none := by
  obtain ⟨policy, e⟩ | hh := judge_cases s sq cid st dispatched packed
  · exact e ▸ freezeQueue_entryAt_none s sq cid st policy packed j h
  · exact (entryAt_congr (hh .tally (by decide)) j).trans h

/-- The data of a posting goes out before anything else of it. -/
def sendData (s : State) (p : Posting) : State := if p.data = [] then s else emit s (.toHost p.sq p.cid p.data)

theorem sendData_only (s : State) (p : Posting) : OnlyChanges [.out] s (sendData s p) := .ite (.refl _ s) (emit_only s _)

theorem sendData_out (s : State) (p : Posting) :
    (sendData s p).out = s.out ++ (if p.data = [] then [] else [.toHost p.sq p.cid p.data]) := by
  unfold sendData
  split <;> simp [*]

/-- The state in which a posting's completion goes out: its data has gone, its place in the line and its entry are free. -/
def beforeCompletion (s : State) (p : Posting) : State :=
  freeFamily { sendData s p with host := { (sendData s p).host with posting := (sendData s p).host.posting.erase p } } p.entry

theorem beforeCompletion_only (s : State) (p : Posting) : OnlyChanges (.out :: completionParts) s (beforeCompletion s p) :=
  ((sendData_only s p).mono (by decide)).trans (((only_host _ _).mono (by decide)).trans ((freeFamily_completion _ _).mono (by decide)))

theorem sqHead_beforeCompletion (s : State) (p : Posting) (sq : Nat) : sqHead (beforeCompletion s p) sq = sqHead s sq := by
  have h : (sendData s p).host = s.host := sendData_only s p .host (by decide)
  simp [sqHead, beforeCompletion, freeFamily, dropWork, h]

theorem beforeCompletion_out (s : State) (p : Posting) : (beforeCompletion s p).out = (sendData s p).out := rfl

/-- A posting without DMA: data, completion, and the judgement for freeze-on-error. -/
theorem postOne_complete {s : State} {p : Posting} (hp : p ∈ s.host.posting) (hd : p.dma = false) : ∃ dispatched packed,
    postOne s p = judge (postOnly (beforeCompletion s p) p.sq p.cid p.st p.dw0 p.dw1) p.sq p.cid p.st dispatched packed := by
  refine ⟨((entryAt s p.entry).map (fun e => e.dispatched)).getD false, ((entryAt s p.entry).map (fun e => e.pack)).getD 0, ?_⟩
  unfold postOne
  rw [if_neg (by simp [hp])]
  simp only [hd, Bool.false_eq_true, if_false]
  rfl

theorem postOne_dma {s : State} {p : Posting} (hp : p ∈ s.host.posting) (hd : p.dma = true) :
    postOne s p = { sendData s p with host := { (sendData s p).host with
      posting := (sendData s p).host.posting.map (fun x => if x = p then { p with data := [], dma := false } else x) } } := by
  unfold postOne
  rw [if_neg (by simp [hp])]
  simp only [hd, if_true]
  rfl

theorem postOne_prefix {s : State} {p : Posting} (hp : p ∈ s.host.posting) (hd : p.dma = false) :
    s.out ++ (if p.data = [] then [] else [.toHost p.sq p.cid p.data]) ++
      [.completion p.sq p.cid p.st (statusDnr p.st) p.dw0 p.dw1 (sqHead s p.sq)] <+: (postOne s p).out := by
  obtain ⟨dispatched, packed, e⟩ := postOne_complete hp hd
  rw [e, ← sendData_out, ← beforeCompletion_out, ← sqHead_beforeCompletion s p]
  exact (postOnly_prefix _ _ _ _ _ _).trans (judge_outGrows _ _ _ _ _ _)

theorem postOne_only (s : State) (p : Posting) : OnlyChanges postingParts s (postOne s p) := by
  by_cases hp : p ∈ s.host.posting
  · cases hd : p.dma
    · obtain ⟨dispatched, packed, e⟩ := postOne_complete hp hd
      rw [e]
      exact ((beforeCompletion_only s p).mono (by decide)).trans
        (((postOnly_only _ _ _ _ _ _).mono (by decide)).trans (judge_only _ _ _ _ _ _))
    · rw [postOne_dma hp hd]
      exact ((sendData_only s p).mono (by decide)).trans ((only_host _ _).mono (by decide))
  · rw [postOne, if_pos (by simp [hp])]
    exact .refl _ s

theorem postOne_entry {s : State} {p : Posting} (hp : p ∈ s.host.posting) (hd : p.dma = false) : entryAt (postOne s p) p.entry = none := by
  obtain ⟨dispatched, packed, e⟩ := postOne_complete hp hd
  rw [e]
  refine judge_entryAt_none _ _ _ _ _ _ _ ?_
  rw [entryAt_congr (postOnly_only _ _ _ _ _ _ .tally (by decide))]
  exact entryAt_freeFamily_self _ _

end Sys2Proof.Machine

open Sys2Proof Sys2Proof.Machine in
/-- Settles O13: what `finish` leaves in the tally and in the line, and the two forms of a posting. -/
theorem completionIsPosted : Obligations.CompletionIsPosted := by
  refine ⟨?_, finish_undisturbed, fun s p hp hd => ⟨postOne_prefix hp hd, postOne_entry hp hd, postOne_only s p⟩, ?_⟩
  · intro s i e sq cid st dw0 dw1 he ho hr
    have hi := mem_family_self he
    rw [finish_line s i sq cid e st dw0 dw1 he ho hr]
    refine ⟨?_, conclude_last .., ?_, ?_, rfl⟩
    · rw [entryAt_conclude, if_pos rfl]
    · intro j hj hji
      rw [entryAt_conclude, if_neg hji, entryAt_freeFamily, if_pos hj]
    · intro j hj
      have hji : j ≠ i := fun h => hj (h ▸ hi)
      rw [entryAt_conclude, if_neg hji, entryAt_freeFamily, if_neg hj]
  · intro s p hp hd
    have hh : (sendData s p).host = s.host := sendData_only s p .host (by decide)
    rw [postOne_dma hp hd]
    refine ⟨sendData_out s p, List.mem_map.mpr ⟨p, hh ▸ hp, if_pos rfl⟩, sendData_only s p .tally (by decide), ?_⟩
    exact ((sendData_only s p).mono (by decide)).trans ((only_host _ _).mono (by decide))

end

section
/-! ## Replies, waits and deadlines (R23, R31, R99) -/

namespace Sys2Proof.Machine

theorem unitReply_late {s : State} {unit epoch : Nat} (index : Nat) (st : Status) (h : stopped s = false) (hu : unit ≤ 245)
    (he : epoch ≠ (unitOf s unit).epoch) : exec (.unitReply unit epoch index st) s = .next (count s (0x6100 + unit) 2 1) := by
  change execUnitReply unit epoch index st s = _
  simp [execUnitReply, h, Nat.not_lt.mpr hu, he]

/-- A reply of the current epoch to a running entry of its unit. -/
theorem unitReply_current {s : State} {unit index : Nat} {e : Entry} (st : Status) (h : stopped s = false) (hu : unit ≤ 245)
    (he : entryAt s index = some e) (hunit : e.unit = unit) (hep : e.epoch = (unitOf s unit).epoch) (hr : e.state = .running) :
    exec (.unitReply unit e.epoch index st) s = .next (if st = .success then (if e.origin.kind = .host then s else
      setState s index .replying) else failRequest s index st 0) := by
  change execUnitReply unit e.epoch index st s = _
  rw [execUnitReply, if_neg (by simp [h, Nat.not_lt.mpr hu]), if_neg (not_not.mpr hep)]
  simp only [he]
  rw [if_neg (by simp [hunit, hr])]
  split <;> rfl

theorem setState_entryAt {s : State} {i : Nat} {e : Entry} (st : EState) (he : entryAt s i = some e) :
    entryAt (setState s i st) i = some { e with state := st } := by
  rw [setState, entryAt_entryMod, if_pos rfl, he, Option.map_some]

theorem setState_entryAt_other {s : State} {i j : Nat} (st : EState) (h : j ≠ i) : entryAt (setState s i st) j = entryAt s j := by
  rw [setState, entryAt_entryMod, if_neg h]

/-- The failure of a request whose root is a host command ends that command. -/
theorem failRequest_host {s : State} {i p sq cid : Nat} {e : Entry} (hroot : rootOf s 4 i = p) (he : entryAt s p = some e)
    (ho : e.origin = .host sq cid) (st : Status) (dw0 : Nat) : failRequest s i st dw0 = finish s p st dw0 0 := by
  simp [failRequest, hroot, he, ho]

theorem Completes.congr {s t u : State} {sq cid dw0 dw1 : Nat} {data : Bytes} {st : Status} (h : Completes s t sq cid data st dw0 dw1)
    (ht : u.tally = t.tally) (hh : u.host = t.host) : Completes s u sq cid data st dw0 dw1 := by
  obtain ⟨i, e, hf, he, ho, hr, hl⟩ := h
  exact ⟨i, e, hf, (entryAt_congr ht i).trans he, ho, hr, hh ▸ hl⟩

theorem endTicket_only (s : State) (inv n st : Nat) : OnlyChanges [.compute] s (endTicket s inv n st) := by
  unfold endTicket
  split
  · exact .refl _ s
  · exact .ite (.refl _ s) ((gangsMod_only s inv _).trans (invMod_only _ inv _))

theorem missTickets_only (s : State) (index : Nat) : OnlyChanges [.compute] s (missTickets s index) :=
  .foldl (f := fun s (x : Nat × Nat) => endTicket s x.1 x.2 3) (fun s x => endTicket_only s x.1 x.2 3) _ s

theorem finishStopping_line {s : State} {i sq cid : Nat} {e : Entry} (st : Status) (dw0 dw1 : Nat) (data : List Nat)
    (he : entryAt s i = some e) (ho : e.origin = .host sq cid) (hr : e.state ≠ .replying) :
    finishStopping s i st dw0 dw1 data = conclude s i sq cid e st dw0 dw1 data false := by
  simp [finishStopping, he, ho, hr]

theorem deadlineEdge_due {s : State} {index sq cid : Nat} {e : Entry} (h : stopped s = false) (hc : s.bell.chime = 0)
    (hp : s.dev.state ≠ .paused) (he : entryAt s index = some e) (ho : e.origin = .host sq cid) (hr : e.state ≠ .replying)
    (hd : e.deadline ≠ 0) (hb : e.admitBell + e.deadline ≤ s.bell.count) (hs : searchOf s index = none) :
    exec (.deadlineEdge index) s = .next (conclude (missTickets s index) index sq cid e .deadlineMissed 0 0 [] false) := by
  have frame := missTickets_only s index
  have he' : entryAt (missTickets s index) index = some e := (entryAt_congr (frame .tally (by decide)) index).trans he
  change execDeadlineEdge index s = _
  rw [← finishStopping_line .deadlineMissed 0 0 [] he' ho hr]
  simp [execDeadlineEdge, he, h, atEdge, hc, hp, ho, Origin.kind, hr, hd, Nat.not_lt.mpr hb, hs]

end Sys2Proof.Machine

open Sys2Proof Sys2Proof.Machine in
/-- Settles O25: the reply's command comes to one count. -/
theorem lateRepliesAreDiscarded : Obligations.LateRepliesAreDiscarded := by
  intro s unit epoch index st h hu he
  have frame := count_only s (0x6100 + unit) 2 1
  exact ⟨_, unitReply_late index st h hu he, rfl, frame .tally (by decide), frame⟩

open Sys2Proof Sys2Proof.Machine in
/-- Settles O26: the three commands at their moment. -/
theorem repliesWaitsAndDeadlines : Obligations.RepliesWaitsAndDeadlines := by
  refine ⟨?_, ?_, ?_⟩
  · intro s unit index e h hu he hunit hep hr
    refine ⟨fun hk => ⟨_, unitReply_current .success h hu he hunit hep hr, ?_⟩, fun st hst => ?_⟩
    · rw [if_pos rfl, if_neg hk]
      exact ⟨setState_entryAt _ he, fun j hj => setState_entryAt_other _ hj, setState_only s index _⟩
    · rw [unitReply_current st h hu he hunit hep hr, if_neg hst]
  · intro s tag p r h hr hp hn
    refine ⟨_, ?_, rfl, ?_⟩
    · change execChildWaitLimit tag s = _
      simp [execChildWaitLimit, hr, hp, h, Nat.not_lt.mpr hn]
    · intro sq cid e hroot he ho hst hf
      have frame := count_only (failRequest s p .tallyFull 0) 0x600A 0 1
      refine Completes.congr ?_ (frame .tally (by decide)) (frame .host (by decide))
      rw [failRequest_host hroot he ho]
      exact completes_finish hf he ho hst _ _ _
  · intro s index sq cid e h hc hp he ho hr hf hd hb hs
    have frame := missTickets_only s index
    have hh : (missTickets s index).host = s.host := frame .host (by decide)
    refine ⟨_, deadlineEdge_due h hc hp he ho hr hd hb hs, ?_, ?_, ?_, ?_⟩
    · exact ⟨index, _, hf, (entryAt_conclude ..).trans (if_pos rfl), ho, rfl, conclude_last ..⟩
    · intro j hj
      rw [entryAt_conclude, if_neg hj, entryAt_congr (frame .tally (by decide))]
    · simp [OnlyPostings, conclude, hh]
    · exact (frame.mono (by decide)).trans ((conclude_only _ _ _ _ _ _ _ _ _ _).mono (by decide))

end

section
/-! ## Unit resets (R29, R30, R74, R100, R361) -/

namespace Sys2Proof.Machine

theorem unitOf_unitMod_same (s : State) (u : Nat) (f : UnitSt → UnitSt) : unitOf (unitMod s u f) u = f (unitOf s u) :=
  tgetD_tput_same _ _ _ _

theorem unitOf_unitMod_other {s : State} {u w : Nat} (f : UnitSt → UnitSt) (h : w ≠ u) : unitOf (unitMod s u f) w = unitOf s w :=
  tgetD_tput_other _ _ _ _ _ h

theorem unitOf_congr {s t : State} (h : t.units = s.units) (u : Nat) : unitOf t u = unitOf s u := by simp [unitOf, h]

/-! Records that wait for the store: they are added behind, and none is taken back. -/

def PendingGrows (s t : State) : Prop := s.sticky.pending <+: t.sticky.pending

theorem PendingGrows.refl (s : State) : PendingGrows s s := List.prefix_rfl

theorem PendingGrows.trans {s t u : State} (a : PendingGrows s t) (b : PendingGrows t u) : PendingGrows s u := List.IsPrefix.trans a b

theorem PendingGrows.foldl {α : Type} {f : State → α → State} (hf : ∀ s x, PendingGrows s (f s x)) (l : List α) (s : State) :
    PendingGrows s (l.foldl f s) :=
  foldl_rel (PendingGrows.refl) (fun _ _ _ => .trans) hf l s

theorem OnlyChanges.pendingGrows {ps : List Part} {s t : State} (a : OnlyChanges ps s t) (h : .sticky ∉ ps := by decide) :
    PendingGrows s t := by
  have e : t.sticky = s.sticky := a .sticky h
  rw [PendingGrows, e]

theorem raiseRecord_pendingGrows (s : State) (r : Record) : PendingGrows s (raiseRecord s r) := by
  unfold raiseRecord
  dsimp only
  split
  · split <;> exact List.prefix_rfl
  · exact List.prefix_append _ _

theorem count_pendingGrows (s : State) (idx sub n : Nat) : PendingGrows s (count s idx sub n) := by
  have put (v : Table Nat) : PendingGrows s { s with counters := v } := List.prefix_rfl
  unfold count
  split
  · exact .refl s
  · split
    · exact .refl s
    · exact put _
    · dsimp only
      split
      · exact (put _).trans (raiseRecord_pendingGrows _ _)
      · exact put _
    · dsimp only
      split
      · exact (put _).trans (raiseRecord_pendingGrows _ _)
      · exact put _

theorem routeMsg_pendingGrows (s : State) (via : Option Nat) (x : Txn) (type status : Nat) (data : List Nat) :
    PendingGrows s (routeMsg s via x type status data) := by
  unfold routeMsg
  split
  · exact (queueMsg_only _ _ _ _ _ _ _).pendingGrows
  · exact count_pendingGrows _ _ _ _

theorem replyTarget_pendingGrows (s : State) (t : TargetTxn) (status : Nat) (data : Bytes) (final : Bool) :
    PendingGrows s (replyTarget s t status data final) :=
  (routeMsg_pendingGrows s none _ t.type status data).trans (only_fabric _ _).pendingGrows

theorem freeFamily_pendingGrows (s : State) (i : Nat) : PendingGrows s (freeFamily s i) := (freeFamily_only s i).pendingGrows

theorem failRequest_pendingGrows (s : State) (i : Nat) (st : Status) (dw0 : Nat) : PendingGrows s (failRequest s i st dw0) := by
  unfold failRequest
  dsimp only
  split
  · exact .refl s
  · split
    · split
      · split
        · exact freeFamily_pendingGrows s _
        · exact (replyTarget_pendingGrows _ _ _ _ _).trans (freeFamily_pendingGrows _ _)
      · exact freeFamily_pendingGrows s _
    · exact (finish_only s _ st dw0 0).pendingGrows

/-! What a unit reset ends beside the unit itself. -/

theorem failTicket_only (s : State) (i : Nat) : OnlyChanges completionParts s (failTicket s i) := by
  unfold failTicket
  split
  · exact (endTicket_only s _ _ 2).comp (freeFamily_completion _ i)
  · exact freeFamily_completion s i

/-- An entry of an old epoch ends by itself, or fails its request. -/
theorem endOldEntry_cases (s : State) (i : Nat) :
    OnlyChanges completionParts s (endOldEntry s i) ∨ endOldEntry s i = failRequest s i .unitReset 0 := by
  unfold endOldEntry
  split
  · exact .inl (.refl _ s)
  · split
    · exact .inl (failTicket_only s i)
    · exact .inl (freeFamily_completion s i)
    · exact .inl (freeFamily_completion s i)
    · exact .inr rfl

theorem endOldEntry_only (s : State) (i : Nat) : OnlyChanges workParts s (endOldEntry s i) := by
  obtain h | h := endOldEntry_cases s i
  · exact h.mono (by decide)
  · exact h ▸ failRequest_only s i .unitReset 0

theorem endOldEntry_pendingGrows (s : State) (i : Nat) : PendingGrows s (endOldEntry s i) := by
  obtain h | h := endOldEntry_cases s i
  · exact h.pendingGrows
  · exact h ▸ failRequest_pendingGrows s i .unitReset 0

theorem retrainPort_only (s : State) (p : Nat) : OnlyChanges [.fabric] s (retrainPort s p) := .ite (.refl _ s) (portMod_only s p _)

theorem restageLoc_only (k : Nat) (s : State) (loc : Nat) : OnlyChanges [.ledger] s (restageLoc k s loc) := by
  unfold restageLoc
  split
  · exact .refl _ s
  · dsimp only
    split
    · exact .refl _ s
    · split <;> exact only_ledger s _

theorem abandonLine_only (s : State) (die : Nat) (p : DieProgram) : OnlyChanges [.flash, .ledger] s (abandonLine s die p) := by
  have put (l : List Nat) (t : State) : OnlyChanges [.flash, .ledger] t (l.foldl (fun s l => putPage s l blankPage false) t) :=
    .foldl (fun s l => putPage_only s l _ _) l t
  have restage (l : List Nat) (k : Nat) (t : State) : OnlyChanges [.flash, .ledger] t (l.foldl (restageLoc k) t) :=
    .foldl (fun s l => (restageLoc_only k s l).mono (by decide)) l t
  unfold abandonLine
  dsimp only
  split
  · exact ((unplace_only s die).comp (restage _ _ _)).trans ((put _ _).trans ((lineDone_only _ _).mono (by decide)))
  · exact (unplace_only s die).comp ((put _ _).trans ((lineDone_only _ _).mono (by decide)))

theorem askAgain_only (s : State) (d : Nat) (p : Pending) : OnlyChanges [.tally] s (askAgain s d p) := by
  cases p <;> exact await_only s _

theorem resetDie_only (s : State) (d : Nat) : OnlyChanges [.tally, .flash, .ledger] s (resetDie s d) := by
  unfold resetDie
  split
  · exact .refl _ s
  · next x _ =>
    have line : OnlyChanges [.flash, .ledger] s (match x.program with | some p => abandonLine s d p | none => s) := by
      split
      · exact abandonLine_only s d _
      · exact .refl _ s
    have clear := fun f => line.comp (dieMod_only _ d f) (rs := [.flash, .ledger])
    dsimp only
    split
    · exact (clear _).comp (askAgain_only _ d _)
    · exact (clear _).mono (by decide)

theorem failInvocation_pendingGrows (st : Status) (s : State) (inv : Nat) : PendingGrows s (failInvocation st s inv) := by
  unfold failInvocation
  split
  · exact .refl s
  · exact failRequest_pendingGrows s _ st 0

theorem failInvocation_only (st : Status) (s : State) (inv : Nat) : OnlyChanges workParts s (failInvocation st s inv) := by
  unfold failInvocation
  split
  · exact .refl _ s
  · exact failRequest_only s _ st 0

theorem only_tally_compute (s : State) (x : Tally) (y : Compute) : OnlyChanges [.tally, .compute] s { s with tally := x, compute := y } :=
  fun p h => by cases p <;> first | exact absurd (by decide) h | rfl

/-- What the chapter of a unit clears lies in the parts of its work, and its records are added behind. -/
theorem clearUnit_frame (s : State) (u : Nat) : OnlyChanges workParts s (clearUnit s u) ∧ PendingGrows s (clearUnit s u) := by
  have both {ps : List Part} {t : State} (a : OnlyChanges ps s t) (hp : ps ⊆ workParts) (hs : .sticky ∉ ps) :
      OnlyChanges workParts s t ∧ PendingGrows s t := ⟨a.mono hp, a.pendingGrows hs⟩
  have retrain (f : State → Nat → Nat) (l : List Nat) : OnlyChanges [.fabric] s (l.foldl (fun t k => retrainPort t (f s k)) s) :=
    .foldl (fun t k => retrainPort_only t (f s k)) l s
  unfold clearUnit
  split
  · exact both (retrain (fun _ k => 5 * (u - 5) + k) _) (by decide) (by decide)
  split
  · exact both (only_tally_compute s _ _) (by decide) (by decide)
  split
  · exact ⟨(OnlyChanges.foldl (failInvocation_only _) _ s).trans ((only_compute _ _).mono (by decide)),
      (PendingGrows.foldl (failInvocation_pendingGrows _) _ s).trans (only_compute _ _).pendingGrows⟩
  split
  · exact ⟨.foldl (fun t i => failRequest_only t i .unitReset 0) _ s, .foldl (fun t i => failRequest_pendingGrows t i .unitReset 0) _ s⟩
  split
  · exact both (.foldl resetDie_only _ s) (by decide) (by decide)
  split
  · exact both (retrainPort_only s _) (by decide) (by decide)
  · exact both (ps := []) (.refl _ s) (by decide) (by decide)

/-- The unit as its reset leaves it (R29, R361). -/
def UnitSt.raised (x : UnitSt) : UnitSt :=
  { x with epoch := (x.epoch + 1) % 256, state := .reset, epochBefore := x.epoch, crossed := 0 }

/-- What becomes of the rest of the drive once the unit itself is in RESET. -/
def endUnitWork (s : State) (u : Nat) : State := clearUnit ((oldEpochEntries s u).foldl endOldEntry s) u

theorem endUnitWork_only (s : State) (u : Nat) : OnlyChanges workParts s (endUnitWork s u) :=
  (OnlyChanges.foldl endOldEntry_only _ s).trans (clearUnit_frame _ u).1

theorem resetUnit_eq (s : State) (u cause : Nat) : ∃ b, resetUnit s u cause =
    count { endUnitWork (unitMod s u UnitSt.raised) u with
      update := { (endUnitWork (unitMod s u UnitSt.raised) u).update with unitReset := u, unitCause := cause, unitBell := b } }
      (0x6100 + u) 3 1 :=
  ⟨_, rfl⟩

theorem resetUnit_only (s : State) (u cause : Nat) : OnlyChanges (.units :: .update :: workParts) s (resetUnit s u cause) := by
  obtain ⟨b, e⟩ := resetUnit_eq s u cause
  rw [e]
  exact ((unitMod_only s u _).comp (endUnitWork_only _ u)).trans ((only_update _ _).comp (count_only _ _ _ _))

/-- The unit is in RESET under the next epoch, and no other unit changes. -/
theorem unitOf_resetUnit (s : State) (u cause w : Nat) :
    unitOf (resetUnit s u cause) w = if w = u then (unitOf s u).raised else unitOf s w := by
  obtain ⟨b, e⟩ := resetUnit_eq s u cause
  rw [e, unitOf_congr (count_only _ _ _ _ .units (by decide)), unitOf_congr (only_update _ _ .units (by decide)),
    unitOf_congr (endUnitWork_only _ u .units (by decide))]
  split
  · next h => rw [h, unitOf_unitMod_same]
  · next h => exact unitOf_unitMod_other _ h

theorem resetUnit_noted (s : State) (u cause : Nat) :
    (resetUnit s u cause).update.unitReset = u ∧ (resetUnit s u cause).update.unitCause = cause := by
  obtain ⟨b, e⟩ := resetUnit_eq s u cause
  rw [e, show (count _ _ _ _).update = _ from count_only _ _ _ _ .update (by decide)]
  exact ⟨rfl, rfl⟩

theorem resetUnit_pendingGrows (s : State) (u cause : Nat) : PendingGrows s (resetUnit s u cause) := by
  obtain ⟨b, e⟩ := resetUnit_eq s u cause
  rw [e]
  exact ((unitMod_only s u _).pendingGrows.trans ((PendingGrows.foldl endOldEntry_pendingGrows _ _).trans (clearUnit_frame _ u).2)).trans
    ((only_update _ _).pendingGrows.trans (count_pendingGrows _ _ _ _))

/-! UNIT_RESET and UNIT_IDLE. -/

/-- UNIT_RESET at its turn, before the checks of R100. -/
theorem unitReset_turn {s : State} {h : HostId} {i : Nat} (t : AdminTurn s h i) (ha : activating s = false) (u serial : Nat) :
    exec (.unitReset h u serial) s = .next (
      if h.reservedOk = false ∨ unitResettable s u = false then finish (setRunning s i) i .invalidField 0 0
      else if holdsPen s .host serial = false then finish (setRunning s i) i .penHeld 0 0
      else
        let r := if (unitOf s u).state = .reset then setRunning s i else resetUnit (setRunning s i) u 1
        setState (unitMod r u (fun x => { x with resetWaiters := x.resetWaiters ++ [(h.sq, h.cid)] })) i .waiting) := by
  have frame := setRunning_only s i
  have hres : unitResettable (setRunning s i) u = unitResettable s u := by
    have e : (setRunning s i).ident = s.ident := frame .ident (by decide)
    simp [unitResettable, unitPresent, e]
  have hpen : holdsPen (setRunning s i) .host serial = holdsPen s .host serial := by
    have e : (setRunning s i).pen = s.pen := frame .pen (by decide)
    simp [holdsPen, e]
  have hu := unitOf_congr (frame .units (by decide)) u
  change execUnitReset h u serial s = _
  simp only [execUnitReset, serveQuietAdmin_turn t ha, hres, hpen, hu, Bool.or_eq_true, Bool.not_eq_eq_eq_not, Bool.not_true]

/-- A unit reset that starts, with its command noted as waiting on the unit. -/
def startedReset (s : State) (i u : Nat) (w : Nat × Nat) : State :=
  setState (unitMod (resetUnit s u 1) u (fun x => { x with resetWaiters := x.resetWaiters ++ [w] })) i .waiting

theorem startedReset_only (s : State) (i u : Nat) (w : Nat × Nat) :
    OnlyChanges (.units :: .update :: workParts) s (startedReset s i u w) :=
  (resetUnit_only s u 1).trans ((unitMod_only _ u _).comp (setState_only _ i _))

theorem unitOf_startedReset (s : State) (i u v : Nat) (w : Nat × Nat) : unitOf (startedReset s i u w) v =
    if v = u then { (unitOf s u).raised with resetWaiters := (unitOf s u).resetWaiters ++ [w] } else unitOf s v := by
  rw [startedReset, unitOf_congr (setState_only _ i _ .units (by decide))]
  split
  · next h => rw [h, unitOf_unitMod_same, unitOf_resetUnit, if_pos rfl]; rfl
  · next h => rw [unitOf_unitMod_other _ h, unitOf_resetUnit, if_neg h]

theorem endUnitReset_undisturbed (dw0 : Nat) (s : State) (w : Nat × Nat) : Undisturbed [] s (endUnitReset dw0 s w) := by
  unfold endUnitReset
  split
  · exact finish_undisturbed s _ _ _ _
  · exact .refl _ s

/-- The unit as UNIT_IDLE leaves it. -/
def freeUnit (s : State) (u : Nat) : State := unitMod s u (fun x => { x with state := .idle, resetWaiters := [] })

/-- UNIT_IDLE frees the unit and completes what waits on it. -/
theorem unitIdle_reset {s : State} {u : Nat} (h : stopped s = false) (hu : (unitOf s u).state = .reset) :
    exec (.unitIdle u) s = .next ((unitOf s u).resetWaiters.foldl
      (endUnitReset (256 * (unitOf s u).epochBefore + (unitOf s u).epoch)) (freeUnit s u)) := by
  change execUnitIdle u s = _
  simp [execUnitIdle, h, hu, freeUnit]

/-! HARD_OVERRUN. -/

/-- The overrun as it is recorded and logged. -/
def notedOverrun (s : State) (u : Nat) : State :=
  bellLog (raiseRecord s { Record.of 0x0301 with unit := some u, b := (unitOf s u).crossed }) 2 u 0 0 (unitOf s u).crossed

theorem notedOverrun_only (s : State) (u : Nat) : OnlyChanges [.sticky, .bell] s (notedOverrun s u) :=
  (raiseRecord_only s _).comp (bellLog_only _ _ _ _ _ _)

theorem notedOverrun_pending {s : State} (u : Nat) (h : stopped s = false) : (notedOverrun s u).sticky.pending =
    s.sticky.pending ++ [stamped s { Record.of 0x0301 with unit := some u, b := (unitOf s u).crossed }] := by
  unfold notedOverrun
  rw [show (bellLog _ _ _ _ _ _).sticky = _ from bellLog_only _ _ _ _ _ _ .sticky (by decide)]
  exact raiseRecord_pending _ h

theorem hardOverrun_due {s : State} {u : Nat} (h : stopped s = false) (hp : unitPresent s u = true)
    (hc : odVal s 0x2081 0 ≤ (unitOf s u).crossed) : exec (.hardOverrun u) s = .next (
      if u = 0 ∨ u = 7 ∨ u = 232 then faultClass (unitMod (notedOverrun s u) u (fun x => { x with crossed := 0 })) 5 (some u)
      else resetUnit (notedOverrun s u) u 2) := by
  change execHardOverrun u s = _
  rw [execHardOverrun]
  rw [if_neg (by simp [h, hp, Nat.not_lt.mpr hc])]
  dsimp only
  split <;> rfl

theorem tget_map_pair {α : Type} (l : List Nat) (f : Nat → α) (w : Nat) :
    tget (l.map (fun u => (u, f u))) w = if w ∈ l then some (f w) else none := by
  induction l with
  | nil => rfl
  | cons k l ih =>
    simp only [List.map_cons, tget, ih, List.mem_cons]
    by_cases h : w = k <;> simp [h]

/-- A fault of class 5 in RUN is a warm reset at once (R351, R386). -/
theorem faultClass_run {s : State} (unit : Option Nat) (h : s.dev.state = .run) :
    faultClass s 5 unit = warmReset (raiseRecord s { Record.of 0x1002 with a := 5, unit := unit }) 4 5 := by
  have hd (r : Record) : (raiseRecord s r).dev = s.dev := raiseRecord_only s r .dev (by decide)
  simp [faultClass, stopped, h, hd, orderWarm, activating]

theorem abandonLines_only (s : State) : OnlyChanges [.flash, .ledger] s (abandonLines s) := by
  unfold abandonLines
  refine .foldl (fun t d => ?_) _ s
  split
  · exact abandonLine_only t _ _
  · exact .refl _ t

/-- The overrun of a unit whose failure is fault class 5, as it is recorded before the reset. -/
def notedFault (s : State) (u : Nat) : State :=
  raiseRecord (unitMod (notedOverrun s u) u (fun x => { x with crossed := 0 })) { Record.of 0x1002 with a := 5, unit := some u }

theorem notedFault_only (s : State) (u : Nat) : OnlyChanges [.sticky, .bell, .units] s (notedFault s u) :=
  (notedOverrun_only s u).comp ((unitMod_only _ u _).comp (raiseRecord_only _ _) (rs := [.units, .sticky]))

theorem notedFault_epoch (s : State) (u w : Nat) : (unitOf (notedFault s u) w).epoch = (unitOf s w).epoch := by
  have noted (w : Nat) := unitOf_congr (notedOverrun_only s u .units (by decide)) w
  rw [notedFault, unitOf_congr (raiseRecord_only _ _ .units (by decide))]
  by_cases h : w = u
  · rw [h, unitOf_unitMod_same, noted]
  · rw [unitOf_unitMod_other _ h, noted]

theorem hardOverrun_warm {s : State} {u : Nat} (h : stopped s = false) (hrun : s.dev.state = .run)
    (hc : odVal s 0x2081 0 ≤ (unitOf s u).crossed) (hu : u = 0 ∨ u = 7 ∨ u = 232) :
    exec (.hardOverrun u) s = .next (warmReset (notedFault s u) 4 5) := by
  have hp : unitPresent s u = true := by obtain rfl | rfl | rfl := hu <;> simp [unitPresent]
  have hd : (notedOverrun s u).dev = s.dev := notedOverrun_only s u .dev (by decide)
  rw [hardOverrun_due h hp hc, if_pos hu, faultClass_run _ (by rw [(unitMod_frame _ _ _).2.1.1, hd, hrun])]
  rfl

/-- What a warm reset leaves of the device, the update state, the pen and the tally. -/
theorem warmReset_fields (s : State) (cause cls : Nat) :
    (warmReset s cause cls).dev.state = .boot ∧ (warmReset s cause cls).dev.lastCause = 11 ∧
    (warmReset s cause cls).update.resetKind = 2 ∧ (warmReset s cause cls).update.resetCause = cause ∧
    (warmReset s cause cls).update.lastClass = cls ∧ (warmReset s cause cls).pen.holder = none ∧
    (warmReset s cause cls).pen.serial = 0 ∧ (warmReset s cause cls).tally.entries = [] ∧ (warmReset s cause cls).tally.waiting = [] := by
  unfold warmReset
  simp only [show (count _ _ _ _).dev = _ from count_only _ _ _ _ .dev (by decide),
    show (count _ _ _ _).update = _ from count_only _ _ _ _ .update (by decide),
    show (count _ _ _ _).pen = _ from count_only _ _ _ _ .pen (by decide),
    show (count _ _ _ _).tally = _ from count_only _ _ _ _ .tally (by decide)]
  and_intros <;> rfl

/-- The dictionary keeps its values through a warm reset (R444). -/
theorem warmReset_od (s : State) (cause cls : Nat) : (warmReset s cause cls).od = s.od := by
  unfold warmReset
  rw [show (count _ _ _ _).od = _ from count_only _ _ _ _ .od (by decide)]
  exact (abandonLines_only _ .od (by decide)).trans (raiseRecord_only s _ .od (by decide))

/-- Every unit of the drive has the next epoch after a warm reset (R29). -/
theorem warmReset_epoch (s : State) (cause cls : Nat) {w : Nat} (hw : w ≤ 245) :
    (unitOf (warmReset s cause cls) w).epoch = ((unitOf s w).epoch + 1) % 256 := by
  have hunits (r : Record) : (endEverything (abandonLines (raiseRecord s r))).units = s.units :=
    (abandonLines_only _ .units (by decide)).trans (raiseRecord_only s r .units (by decide))
  unfold warmReset
  rw [unitOf_congr (count_only _ _ _ _ .units (by decide))]
  dsimp only [unitOf, transition]
  rw [tgetD, tget_map_pair, if_pos (List.mem_range.mpr (by omega))]
  simp only [Option.getD_some, hunits]

end Sys2Proof.Machine

open Sys2Proof Sys2Proof.Machine in
/-- Settles O27: the unit that is reset, the command that waits on it, and the two ways of a hard overrun. -/
theorem unitResetsRaiseTheEpoch : Obligations.UnitResetsRaiseTheEpoch := by
  refine ⟨?_, ?_, ?_, ?_, ?_⟩
  · intro s h i u serial t ha hr hu hh hs hst
    have hpen : holdsPen s .host serial = true := by simp [holdsPen, hh, hs]
    have run := setRunning_only s i
    have hunit (w : Nat) := unitOf_congr (run .units (by decide)) w
    have frame := (run.comp (startedReset_only (setRunning s i) i u (h.sq, h.cid)) : OnlyChanges (.units :: .update :: workParts) _ _)
    refine ⟨startedReset (setRunning s i) i u (h.sq, h.cid), ?_, ?_, ?_, ?_, ?_, ?_, ?_, frame .od (by decide), frame .pen (by decide),
      frame .dev (by decide), frame .bell (by decide)⟩
    · rw [unitReset_turn t ha]
      simp [hr, hu, hpen, hst, startedReset]
    · simp [unitOf_startedReset, hunit, UnitSt.raised]
    · simp [unitOf_startedReset, UnitSt.raised]
    · simp [unitOf_startedReset]
    · exact (resetUnit_noted _ u 1).1
    · exact (resetUnit_noted _ u 1).2
    · intro w hw
      rw [unitOf_startedReset, if_neg hw, hunit]
  · intro s h i u serial t ha
    have done := fun st => t.completes st 0 0
    rw [t.sq] at done
    refine ⟨fun hbad => ⟨_, ?_, done .invalidField, finish_running_undisturbed s i _ _ _⟩,
      fun hr hu hp => ⟨_, ?_, done .penHeld, finish_running_undisturbed s i _ _ _⟩⟩
    · rw [unitReset_turn t ha, if_pos hbad]
    · rw [unitReset_turn t ha, if_neg (by simp [hr, hu]), if_pos hp]
  · intro s u h hu
    have free : OnlyChanges [.units] s (freeUnit s u) := unitMod_only s u _
    have ends := Undisturbed.foldl (endUnitReset_undisturbed (256 * (unitOf s u).epochBefore + (unitOf s u).epoch))
      (unitOf s u).resetWaiters (freeUnit s u)
    have hunit (w : Nat) := unitOf_congr (ends.1 .units (by decide)) w
    have hu' : unitOf (freeUnit s u) u = { unitOf s u with state := .idle, resetWaiters := [] } := unitOf_unitMod_same _ _ _
    refine ⟨_, unitIdle_reset h hu, ?_, ?_, ?_, ?_, ?_, ?_, free.undisturbed.trans (ends.mono (by decide))⟩
    · rw [hunit, hu']
    · rw [hunit, hu']
    · rw [hunit, hu']
    · intro w hw
      rw [hunit]
      exact unitOf_unitMod_other _ hw
    · intro cid i hw st
      obtain ⟨e, he, ho, hr⟩ := st.entry
      have hf : findHost (freeUnit s u) 0 cid = some i := st.found
      have he' : entryAt (freeUnit s u) i = some e := he
      rw [hw, List.foldl_cons, List.foldl_nil, endUnitReset]
      simp only [hf]
      exact completes_finish st.found he' ho hr _ _ _
    · intro hw
      rw [hw]
      exact free
  · intro s u h hp hc h0 h7 h232
    have noted := notedOverrun_only s u
    have hunit (w : Nat) := unitOf_congr (noted .units (by decide)) w
    have frame := (noted.comp (resetUnit_only (notedOverrun s u) u 2) : OnlyChanges (.bell :: .units :: .update :: workParts) _ _)
    have pend := resetUnit_pendingGrows (notedOverrun s u) u 2
    obtain ⟨l, hl⟩ := pend
    refine ⟨resetUnit (notedOverrun s u) u 2, ?_, ?_, ?_, ?_, (resetUnit_noted _ u 2).1, (resetUnit_noted _ u 2).2, ?_, ⟨l, ?_⟩,
      frame .od (by decide), frame .pen (by decide), frame .dev (by decide)⟩
    · rw [hardOverrun_due h hp hc, if_neg (by simp [h0, h7, h232])]
    · simp [unitOf_resetUnit, hunit, UnitSt.raised]
    · simp [unitOf_resetUnit, UnitSt.raised]
    · simp [unitOf_resetUnit, UnitSt.raised]
    · intro w hw
      rw [unitOf_resetUnit, if_neg hw, hunit]
    · rw [← hl, notedOverrun_pending u h, List.append_assoc, List.singleton_append]
  · intro s u h hrun hc hu
    obtain ⟨hboot, hcause, hkind, hrc, hcls, hholder, hserial, hent, hwait⟩ := warmReset_fields (notedFault s u) 4 5
    refine ⟨_, hardOverrun_warm h hrun hc hu, hboot, hcause, hkind, hrc, hcls, hholder, hserial, hent, hwait, ?_, fun w hw => ?_⟩
    · exact (warmReset_od _ 4 5).trans (notedFault_only s u .od (by decide))
    · rw [warmReset_epoch _ 4 5 hw, notedFault_epoch]

end

section
/-! ## The flash array while other work goes on -/

namespace Sys2Proof.Machine

/-- The dies, the pages, the map and what has been sent stand as they are. -/
structure ArrayStands (s t : State) : Prop where
  dies : t.flash.dies = s.flash.dies
  pages : t.flash.pages = s.flash.pages
  map : t.ledger.map = s.ledger.map
  out : t.out = s.out

theorem ArrayStands.refl (s : State) : ArrayStands s s := ⟨rfl, rfl, rfl, rfl⟩

theorem ArrayStands.trans {s t u : State} (a : ArrayStands s t) (b : ArrayStands t u) : ArrayStands s u :=
  ⟨b.dies.trans a.dies, b.pages.trans a.pages, b.map.trans a.map, b.out.trans a.out⟩

theorem ArrayStands.foldl {α : Type} {f : State → α → State} (hf : ∀ s x, ArrayStands s (f s x)) (l : List α) (s : State) :
    ArrayStands s (l.foldl f s) :=
  foldl_rel (ArrayStands.refl) (fun _ _ _ => .trans) hf l s

theorem ArrayStands.ite {s t u : State} {c : Prop} [Decidable c] (a : ArrayStands s t) (b : ArrayStands s u) :
    ArrayStands s (if c then t else u) := by split <;> assumption

theorem OnlyChanges.arrayStands {ps : List Part} {s t : State} (a : OnlyChanges ps s t)
    (h : .flash ∉ ps ∧ .ledger ∉ ps ∧ .out ∉ ps := by decide) : ArrayStands s t := by
  obtain ⟨hf, hl, ho⟩ := h
  have flash : t.flash = s.flash := a .flash hf
  exact ⟨congrArg Flash.dies flash, congrArg Flash.pages flash, congrArg Ledger.map (a .ledger hl), a .out ho⟩

theorem freeFamily_array (s : State) (i : Nat) : ArrayStands s (freeFamily s i) := ⟨rfl, rfl, rfl, rfl⟩

theorem bandMod_array (s : State) (k : Nat) (f : Band → Band) : ArrayStands s (bandMod s k f) := ⟨rfl, rfl, rfl, rfl⟩

theorem noteSlots_array (s : State) : ArrayStands s (noteSlots s) := ⟨rfl, rfl, rfl, rfl⟩

theorem fdpEvent_array (s : State) (code handle rg : Nat) : ArrayStands s (fdpEvent s code handle rg) := ⟨rfl, rfl, rfl, rfl⟩

theorem unplace_array (s : State) (d : Nat) : ArrayStands s (unplace s d) := ⟨rfl, rfl, rfl, rfl⟩

theorem dieOf_congr {s t : State} (h : t.flash.dies = s.flash.dies) (d : Nat) : dieOf t d = dieOf s d := by simp [dieOf, h]

theorem dieOf_dieMod_same (s : State) (d : Nat) (f : Die → Die) : dieOf (dieMod s d f) d = f (dieOf s d) := tgetD_tput_same _ _ _ _

theorem dieOf_dieMod_other {s : State} {d c : Nat} (f : Die → Die) (h : c ≠ d) : dieOf (dieMod s d f) c = dieOf s c :=
  tgetD_tput_other _ _ _ _ _ h

theorem verbEnds_out (s : State) (die verb : Nat) (r : VerbResult) (data : List Nat) :
    (verbEnds s die verb r data).out = s.out ++ [.die die verb r.code data] := rfl

theorem dieOf_verbEnds (s : State) (die verb : Nat) (r : VerbResult) (data : List Nat) (d : Nat) :
    dieOf (verbEnds s die verb r data) d = dieOf s d := rfl

theorem runOn_only (s : State) (i u : Nat) : OnlyChanges [.tally] s (runOn s i u) := (entryMod_only s i _).trans (setRunning_only _ i)

theorem entryAt_runOn {s : State} {i : Nat} {e : Entry} (u : Nat) (h : entryAt s i = some e) :
    ∃ f, entryAt (runOn s i u) i = some f ∧ f.state = .running := by
  have h' := (entryAt_entryMod s i i (fun e => { e with unit := u, epoch := (unitOf s u).epoch })).trans (if_pos rfl)
  rw [h, Option.map_some] at h'
  obtain ⟨d, hd⟩ := entryAt_setRunning h'
  exact ⟨_, hd, rfl⟩

theorem taskEnds_only (s : State) (u : Nat) : OnlyChanges [.units] s (taskEnds s u) := .ite (unitMod_only s u _) (.refl _ s)

/-! ## PROGRAM at the gate (R116 to R118) -/

theorem exec_program {s : State} (die block wl : Nat) (slc : Bool) (pages : List SourcePage) (h : stopped s = false) :
    exec (.program die block wl slc pages) s = .next (gateProgram s die block wl slc pages) := by
  change execProgram die block wl slc pages s = _
  simp [execProgram, flashRuns, h]

theorem gateProgram_badArg {s : State} {die block wl : Nat} {slc : Bool} {pages : List SourcePage}
    (h : s.ident.dies ≤ die ∨ 1840 ≤ block ∨ 768 ≤ wl ∨ pages.length ≠ linePages slc ∨ modeOk s die block slc = false) :
    gateProgram s die block wl slc pages = verbEnds s die 4 .badArg [] := by
  rw [gateProgram, if_pos]
  simpa [or_assoc] using h

/-- The arguments of a PROGRAM that the gate takes up (Table 5.3). -/
def programArgsOk (s : State) (die block wl : Nat) (slc : Bool) (pages : List SourcePage) : Bool :=
  decide (die < s.ident.dies) && decide (block < 1840) && decide (wl < 768) && decide (pages.length = linePages slc) && modeOk s die block slc

/-- The ledger as the gate takes a PROGRAM: its pages placed, the fillers counted, its row's class noted. -/
def takenProgram (s : State) (die block wl : Nat) (pages : List SourcePage) : State :=
  let c := programClass s die block wl pages
  let k := rowKey (bandAt s die block) wl
  let row := tgetD s.ledger.rowClass k c
  let t := count (placePages s die block pages) 0x6006 0 (fillers pages)
  { t with ledger := { t.ledger with rowClass := tput t.ledger.rowClass k (min row.1 c.1, row.2 || c.2) } }

/-- A PROGRAM that the gate has accepted waits on its die, and its request for admission. -/
def acceptedProgram (s : State) (die block wl : Nat) (slc : Bool) (pages : List SourcePage) : State :=
  noteSlots (await (dieMod (takenProgram s die block wl pages) die (fun d =>
    { d with pending := some (.program ⟨block, wl, slc, pages, noEntry, 0⟩) }))
    (jobReq 0x09 (die * 2 ^ 12 + block) (programClass s die block wl pages).1 (channelUnit die)))

/-- The gate's answer to a PROGRAM whose arguments are in order. -/
theorem gateProgram_ok {s : State} {die block wl : Nat} {slc : Bool} {pages : List SourcePage}
    (h : programArgsOk s die block wl slc pages = true) : gateProgram s die block wl slc pages =
      if (dieOf s die).st ≠ .idle ∨ (dieOf s die).pending.isSome = true ∨ channelInReset s die = true then verbEnds s die 4 .dieBusy []
      else if fenceHeld s die = true then verbEnds s die 4 .fence []
      else acceptedProgram s die block wl slc (pages.map (sourceOf s die block wl)) := by
  simp only [programArgsOk, Bool.and_eq_true, decide_eq_true_eq] at h
  obtain ⟨⟨⟨⟨hd, hb⟩, hw⟩, hl⟩, hm⟩ := h
  rw [gateProgram, if_neg (by simp [hd, hb, hw, hl, hm])]
  simp only [ne_eq, decide_not, Bool.or_eq_true, Bool.not_eq_eq_eq_not, Bool.not_true, decide_eq_false_iff_not, or_assoc]
  rfl

/-- Taking a page for a program changes what the ledger has staged, and neither the map nor the array. -/
theorem placePages_stands (s : State) (die block : Nat) (pages : List SourcePage) :
    OnlyChanges [.ledger] s (placePages s die block pages) ∧ ArrayStands s (placePages s die block pages) := by
  have both {t : State} (x : Ledger) (h : x.map = t.ledger.map) :
      OnlyChanges [.ledger] t { t with ledger := x } ∧ ArrayStands t { t with ledger := x } := ⟨only_ledger t x, rfl, rfl, h, rfl⟩
  unfold placePages
  refine foldl_rel (R := fun s t => OnlyChanges [.ledger] s t ∧ ArrayStands s t) (fun t => ⟨.refl _ t, .refl t⟩)
    (fun _ _ _ a b => ⟨a.1.trans b.1, a.2.trans b.2⟩) (fun t p => ?_) pages s
  dsimp only
  split
  · split
    · exact both _ rfl
    · exact ⟨.refl _ t, .refl t⟩
  · split
    · exact both _ rfl
    · exact ⟨.refl _ t, .refl t⟩
  · exact ⟨.refl _ t, .refl t⟩

theorem takenProgram_only (s : State) (die block wl : Nat) (pages : List SourcePage) :
    OnlyChanges [.ledger, .counters, .sticky] s (takenProgram s die block wl pages) :=
  (placePages_stands s die block pages).1.comp ((count_only _ _ _ _).comp (only_ledger _ _) (rs := [.ledger, .counters, .sticky]))

theorem takenProgram_array (s : State) (die block wl : Nat) (pages : List SourcePage) :
    ArrayStands s (takenProgram s die block wl pages) :=
  (placePages_stands s die block pages).2.trans ((count_only _ _ _ _).arrayStands.trans ⟨rfl, rfl, rfl, rfl⟩)

theorem acceptedProgram_only (s : State) (die block wl : Nat) (slc : Bool) (pages : List SourcePage) :
    OnlyChanges [.tally, .flash, .ledger, .counters, .sticky] s (acceptedProgram s die block wl slc pages) :=
  (takenProgram_only s die block wl pages).comp
    (((dieMod_only _ die _).comp (await_only _ _) (rs := [.flash, .tally])).comp (noteSlots_only _) (rs := [.flash, .tally, .ledger]))

theorem acceptedProgram_dies (s : State) (die block wl : Nat) (slc : Bool) (pages : List SourcePage) (d : Nat) :
    dieOf (acceptedProgram s die block wl slc pages) d =
      if d = die then { dieOf s die with pending := some (.program ⟨block, wl, slc, pages, noEntry, 0⟩) } else dieOf s d := by
  have taken := dieOf_congr (takenProgram_array s die block wl pages).dies
  split
  · next h =>
    rw [h]
    exact (dieOf_dieMod_same _ die _).trans (by rw [taken])
  · next h => exact (dieOf_dieMod_other _ h).trans (taken d)

theorem acceptedProgram_tally (s : State) (die block wl : Nat) (slc : Bool) (pages : List SourcePage) :
    (acceptedProgram s die block wl slc pages).tally.entries = s.tally.entries ∧
    ∃ r, (acceptedProgram s die block wl slc pages).tally.waiting = s.tally.waiting ++ [r] ∧
      r.origin = .internal 0x09 (die * 2 ^ 12 + block) ∧ r.unit = channelUnit die ∧ r.parent = none := by
  have taken : (takenProgram s die block wl pages).tally = s.tally := takenProgram_only s die block wl pages .tally (by decide)
  rw [← taken]
  exact ⟨rfl, _, rfl, rfl, rfl, rfl⟩

/-! ## PROGRAM and ERASE start (R117, R118, R449) -/

theorem startPending_program {s : State} {die i : Nat} {p : DieProgram} (hs : (dieOf s die).st = .idle)
    (hp : (dieOf s die).pending = some (.program p)) (hr : channelInReset s die = false) (hj : dieJob s 0x09 die = some i)
    (hf : fenced s die = false) : startPending s die = runOn (dieMod s die (fun d => { d with
      st := .programming, pending := none, program := some { p with entry := i, crossed := 0 }, sinceNs := nowNs s
      endNs := nowNs s + (if p.slc then 200000 else 600000) })) i (channelUnit die) := by
  simp [startPending, hs, hp, hr, hj, hf]

theorem startPending_erase {s : State} {die i : Nat} {e : DieErase} (hs : (dieOf s die).st = .idle)
    (hp : (dieOf s die).pending = some (.erase e)) (hr : channelInReset s die = false) (hj : dieJob s 0x0A die = some i) :
    startPending s die = runOn (dieMod s die (fun d => { d with
      st := .erasing, pending := none, erase := some e, sinceNs := nowNs s, endNs := nowNs s + 500000 })) i (channelUnit die) := by
  simp [startPending, hs, hp, hr, hj]

/-- A die under an entry that runs on its channel is as it was changed. -/
theorem dieOf_runOn_dieMod (s : State) (die : Nat) (f : Die → Die) (i u : Nat) :
    dieOf (runOn (dieMod s die f) i u) die = f (dieOf s die) := by
  have h : (runOn (dieMod s die f) i u).flash = (dieMod s die f).flash := runOn_only _ i u .flash (by decide)
  rw [dieOf_congr (congrArg Flash.dies h), dieOf_dieMod_same]

theorem runOn_dieMod_only (s : State) (die : Nat) (f : Die → Die) (i u : Nat) :
    OnlyChanges [.tally, .flash] s (runOn (dieMod s die f) i u) := (dieMod_only s die f).comp (runOn_only _ i u)

/-! ## PROGRAM completes (R136, R152) -/

/-- The dies and what has been sent stand as they are, and no page has gone. -/
structure PagesStay (s t : State) : Prop where
  dies : t.flash.dies = s.flash.dies
  out : t.out = s.out
  pages : ∀ loc, (tget s.flash.pages loc).isSome = true → (tget t.flash.pages loc).isSome = true

theorem PagesStay.refl (s : State) : PagesStay s s := ⟨rfl, rfl, fun _ h => h⟩

theorem PagesStay.trans {s t u : State} (a : PagesStay s t) (b : PagesStay t u) : PagesStay s u :=
  ⟨b.dies.trans a.dies, b.out.trans a.out, fun loc h => b.pages loc (a.pages loc h)⟩

theorem PagesStay.foldl {α : Type} {f : State → α → State} (hf : ∀ s x, PagesStay s (f s x)) (l : List α) (s : State) :
    PagesStay s (l.foldl f s) := foldl_rel PagesStay.refl (fun _ _ _ => .trans) hf l s

theorem ArrayStands.pagesStay {s t : State} (a : ArrayStands s t) : PagesStay s t := ⟨a.dies, a.out, fun _ h => a.pages ▸ h⟩

theorem ledger_pagesStay (s : State) (x : Ledger) : PagesStay s { s with ledger := x } := ⟨rfl, rfl, fun _ h => h⟩

theorem putPage_pagesStay (s : State) (loc : Nat) (p : FlashPage) (openRow : Bool) : PagesStay s (putPage s loc p openRow) := by
  refine ⟨rfl, rfl, fun l h => ?_⟩
  by_cases hl : l = loc
  · subst hl; simp [putPage]
  · simpa [putPage, tget_tput_other _ _ _ _ hl] using h

theorem putPage_lands (s : State) (loc : Nat) (p : FlashPage) (openRow : Bool) :
    (tget (putPage s loc p openRow).flash.pages loc).isSome = true := by simp [putPage]

theorem mapTo_pagesStay (s : State) (iu loc poison : Nat) : PagesStay s (mapTo s iu loc poison) := by
  unfold mapTo
  dsimp only
  split <;> exact ⟨rfl, rfl, fun _ h => h⟩

/-- Every source page puts a page at its place, and takes none away. -/
theorem landPage_lands (die : Nat) (s : State) (loc : Nat) (p : SourcePage) :
    PagesStay s (landPage die s loc p) ∧ (tget (landPage die s loc p).flash.pages loc).isSome = true := by
  have put (t : State) (h : PagesStay s t) (q : FlashPage) (o : Bool) :
      PagesStay s (putPage t loc q o) ∧ (tget (putPage t loc q o).flash.pages loc).isSome = true :=
    ⟨h.trans (putPage_pagesStay t loc q o), putPage_lands t loc q o⟩
  have after {t u : State} (h : PagesStay s t ∧ (tget t.flash.pages loc).isSome = true) (g : PagesStay t u) :
      PagesStay s u ∧ (tget u.flash.pages loc).isSome = true := ⟨h.1.trans g, g.pages loc h.2⟩
  unfold landPage
  split
  · split
    · exact put s (.refl s) _ _
    · next g _ =>
      unfold landStaged
      dsimp only
      split
      · exact after (put _ (ledger_pagesStay s _) _ _) (mapTo_pagesStay _ _ _ _)
      · exact put _ (ledger_pagesStay s _) _ _
  · split
    · exact put s (.refl s) _ _
    · next c _ =>
      have counted (t : State) (idx n : Nat) : PagesStay t (count t idx 0 n) := (count_only t idx 0 n).arrayStands.pagesStay
      unfold landCopy
      dsimp only
      split
      · exact after (put _ (ledger_pagesStay s _) _ _) ((counted _ _ _).trans (mapTo_pagesStay _ _ _ _))
      · exact after (put _ (ledger_pagesStay s _) _ _) (counted _ _ _)
  · exact put s (.refl s) _ _
  · exact put s (.refl s) _ _
  · exact put s (.refl s) _ _

theorem foldl_landPage_lands (die : Nat) (l : List (Nat × SourcePage)) (s : State) :
    PagesStay s (l.foldl (fun s x => landPage die s x.1 x.2) s) ∧
      ∀ x ∈ l, (tget (l.foldl (fun s x => landPage die s x.1 x.2) s).flash.pages x.1).isSome = true := by
  induction l generalizing s with
  | nil => exact ⟨.refl s, fun _ h => absurd h List.not_mem_nil⟩
  | cons y l ih =>
    obtain ⟨stay, lands⟩ := landPage_lands die s y.1 y.2
    obtain ⟨stays, land⟩ := ih (landPage die s y.1 y.2)
    refine ⟨stay.trans stays, fun x hx => ?_⟩
    rcases List.mem_cons.mp hx with rfl | hx
    · exact stays.pages _ lands
    · exact land x hx

/-- A finished program has a page at every place of its word line. -/
theorem landProgram_lands (s : State) (die : Nat) (p : DieProgram) :
    PagesStay s (landProgram s die p) ∧
      ∀ k, k < p.pages.length → (tget (landProgram s die p).flash.pages (pageLoc die p.block p.wl p.slc k)).isSome = true := by
  let places := ((List.range p.pages.length).map (pageLoc die p.block p.wl p.slc)).zip p.pages
  obtain ⟨stay, land⟩ := foldl_landPage_lands die places s
  have tail : PagesStay (places.foldl (fun s x => landPage die s x.1 x.2) s) (landProgram s die p) := by
    unfold landProgram
    dsimp only
    split <;> split <;> exact ⟨rfl, rfl, fun _ h => h⟩
  refine ⟨stay.trans tail, fun k hk => tail.pages _ (land (pageLoc die p.block p.wl p.slc k, p.pages[k]) ?_)⟩
  refine List.mem_iff_getElem.mpr ⟨k, by simp [places, hk], ?_⟩
  simp only [places, List.getElem_zip, List.getElem_map, List.getElem_range]

theorem noteMoved_array (s : State) (ks : List Nat) : ArrayStands s (noteMoved s ks) := by
  unfold noteMoved
  split
  · exact .foldl (fun t k => fdpEvent_array t _ _ _) ks s
  · exact .refl s

theorem replyTarget_array (s : State) (t : TargetTxn) (status : Nat) (data : Bytes) (final : Bool) :
    ArrayStands s (replyTarget s t status data final) := (replyTarget_only s t status data final).arrayStands

theorem answer_array (s : State) (x : Txn) (status : Nat) (data : Bytes) (final : Bool) : ArrayStands s (answer s x status data final) := by
  unfold answer
  split
  · exact .refl s
  · next t _ =>
    have replied := replyTarget_array s t status data final
    dsimp only
    split
    · split
      · exact replied.trans (freeFamily_array _ _)
      · exact replied
    · exact replied

theorem answerSealed_array (s : State) : ArrayStands s (answerSealed s) := by
  unfold answerSealed
  refine .foldl (fun t i => ?_) _ s
  split
  · split
    · refine .trans ?_ (answer_array (dropJob t i) _ 0 [] true)
      exact ⟨rfl, rfl, rfl, rfl⟩
    · exact .refl t
  · exact .refl t

theorem verbFailed_only (s : State) (unit verb : Nat) (r : VerbResult) (a : FlashAddr) :
    OnlyChanges [.counters, .sticky] s (verbFailed s unit verb r a) := (raiseRecord_only s _).comp (count_only _ _ _ _)

theorem retireLater_array (s : State) (a : FlashAddr) : ArrayStands s (retireLater s a) := .ite (.refl s) (bandMod_array s _ _)

theorem restageLoc_array (k : Nat) (s : State) (loc : Nat) : ArrayStands s (restageLoc k s loc) := by
  unfold restageLoc
  split
  · exact .refl s
  · dsimp only
    split
    · exact .refl s
    · split <;> exact ⟨rfl, rfl, rfl, rfl⟩

theorem parkOldest_array (s : State) : ArrayStands s (parkOldest s) := by
  unfold parkOldest
  split
  · exact .refl s
  · exact (bandMod_array s _ _).trans (count_only _ _ _ _).arrayStands

/-- Opening the band `k` for a pair, where the limit lets it. -/
def openBand (s : State) (handle k : Nat) : State :=
  let s := if openLimit s ≤ (openHostBands s).length then parkOldest s else s
  if openLimit s ≤ (openHostBands s).length then s
  else noteSlots (bandMod s k (fun b => { b with st := .open, handle := some handle, lastWrite := s.bell.ticks }))

theorem openPair_cases (s : State) (handle g : Nat) : openPair s handle g = s ∨ ∃ k, openPair s handle g = openBand s handle k := by
  unfold openPair
  dsimp only
  split
  · split
    · exact .inl rfl
    · exact .inr ⟨_, rfl⟩
  · split
    · exact .inr ⟨_, rfl⟩
    · exact .inl rfl

theorem openBand_array (s : State) (handle k : Nat) : ArrayStands s (openBand s handle k) := by
  have parked : ArrayStands s (if openLimit s ≤ (openHostBands s).length then parkOldest s else s) := .ite (parkOldest_array s) (.refl s)
  exact .ite parked (parked.trans ((bandMod_array _ k _).trans (noteSlots_array _)))

theorem openPair_array (s : State) (handle g : Nat) : ArrayStands s (openPair s handle g) := by
  obtain e | ⟨k, e⟩ := openPair_cases s handle g <;> rw [e]
  · exact .refl s
  · exact openBand_array s handle k

theorem openForStaged_array (s : State) : ArrayStands s (openForStaged s) :=
  ArrayStands.foldl (f := fun s (p : Nat × Nat) => openPair s p.1 p.2) (fun t p => openPair_array t p.1 p.2) _ s

/-- A program that has failed leaves the array and the map (R152). -/
theorem programFailed_array (s : State) (die : Nat) (p : DieProgram) : ArrayStands s (programFailed s die p) := by
  unfold programFailed
  extract_lets k a u
  have failed : ArrayStands s u := (verbFailed_only s _ 4 .programFail a).arrayStands.trans (unplace_array _ die)
  split
  · exact failed.trans (retireLater_array u a)
  · next b t moved v w _ =>
    have restaged : ArrayStands u t := .foldl (restageLoc_array k) _ u
    have noted : ArrayStands t v := .ite (fdpEvent_array t _ _ _) (.refl t)
    exact failed.trans (restaged.trans (noted.trans ((bandMod_array v k _).trans
      ((retireLater_array w a).trans (openForStaged_array _)))))

/-- The program's die is free again, its entry gone, its engine's task over. -/
def programOver (s : State) (die : Nat) (p : DieProgram) : State :=
  taskEnds (dieMod (freeFamily s p.entry) die (fun d => { d with st := .idle, program := none, endNs := nowNs s })) (channelUnit die)

theorem programOver_flash (s : State) (die : Nat) (p : DieProgram) : (dieOf (programOver s die p) die).st = .idle ∧
    (dieOf (programOver s die p) die).program = none ∧ (programOver s die p).flash.pages = s.flash.pages ∧
    (programOver s die p).ledger.map = s.ledger.map ∧ (programOver s die p).out = s.out := by
  have ends := (taskEnds_only (dieMod (freeFamily s p.entry) die
    (fun d => { d with st := .idle, program := none, endNs := nowNs s })) (channelUnit die)).arrayStands
  refine ⟨?_, ?_, ends.pages, ends.map, ends.out⟩
  · rw [programOver, dieOf_congr ends.dies, dieOf_dieMod_same]
  · rw [programOver, dieOf_congr ends.dies, dieOf_dieMod_same]

theorem exec_programComplete {s : State} {die : Nat} {p : DieProgram} (h : stopped s = false) (hs : (dieOf s die).st = .programming)
    (hp : (dieOf s die).program = some p) (ok : Bool) : exec (.programComplete die ok) s = .next (
      if ok then verbEnds (answerSealed (noteSlots (noteMoved (lineDone (landProgram (programOver s die p) die p) (bandAt s die p.block))
        (movedBands (programOver s die p) die p)))) die 4 .done []
      else verbEnds (noteSlots (programFailed (programOver s die p) die p)) die 4 .programFail []) := by
  change execProgramComplete die ok s = _
  simp only [execProgramComplete, flashRuns, h, hs, hp]
  cases ok <;> rfl

/-! ## ERASE and its life (R118, R120, R121, R153) -/

theorem exec_erase {s : State} (die block : Nat) (slc : Bool) (h : stopped s = false) :
    exec (.erase die block slc) s = .next (gateErase s die block slc) := by
  change execErase die block slc s = _
  simp [execErase, flashRuns, h]

/-- The gate's answer to an ERASE whose arguments are in order. -/
theorem gateErase_ok {s : State} {die block : Nat} {slc : Bool} (hd : die < s.ident.dies) (hb : block < 1840)
    (hm : modeOk s die block slc = true) : gateErase s die block slc =
      if (dieOf s die).st ≠ .idle ∨ (dieOf s die).pending.isSome = true ∨ channelInReset s die = true then verbEnds s die 5 .dieBusy []
      else
        let t := dieMod s die (fun d => { d with pending := some (.erase ⟨block, slc, 1, 0, false, 0⟩) })
        await t (jobReq 0x0A (die * 2 ^ 12 + block) (eraseClass t (bandAt t die block)) (channelUnit die)) := by
  rw [gateErase, if_neg (by simp [hd, hb, hm])]
  simp only [ne_eq, decide_not, Bool.or_eq_true, Bool.not_eq_eq_eq_not, Bool.not_true, decide_eq_false_iff_not, or_assoc]

/-- The verbs of an erase reach their work on a die of the drive whose engine runs. -/
structure DieServes (s : State) (die : Nat) : Prop where
  up : stopped s = false
  inside : die < s.ident.dies
  engine : channelInReset s die = false

theorem exec_eraseSuspend {s : State} {die : Nat} (v : DieServes s die) (hs : (dieOf s die).st = .erasing) :
    exec (.eraseSuspend die) s = .next (dieMod s die (fun d => { d with suspendAsked := true })) := by
  change execEraseSuspend die s = _
  simp [execEraseSuspend, flashRuns, v.up, dieOk, v.inside, v.engine, hs]

theorem exec_eraseLock {s : State} {die : Nat} (v : DieServes s die) : exec (.eraseLock die) s = .next (gateLock s die) := by
  change execEraseLock die s = _
  simp [execEraseLock, flashRuns, v.up, dieOk, v.inside, v.engine]

theorem exec_eraseResume {s : State} {die : Nat} (v : DieServes s die) (hs : (dieOf s die).st = .suspended) :
    exec (.eraseResume die) s = .next (if (dieOf s die).read = none then verbEnds (resumeErase s die) die 7 .done []
      else verbEnds s die 7 .dieBusy []) := by
  change execEraseResume die s = _
  simp only [execEraseResume, flashRuns, v.up, dieOk, v.inside, v.engine, hs]
  cases (dieOf s die).read <;> simp

/-- The erase as its suspension leaves it (R120). -/
def DieErase.suspended (e : DieErase) (segment ns : Nat) : DieErase :=
  { e with suspensions := e.suspensions + 1, segment := max e.segment (min 10 segment), spentNs := e.spentNs + ns }

theorem startNext_none {s : State} {die : Nat} (h : ∀ l ∈ s.flash.ladders, l.addr.die = die → l.st ≠ .waiting) : startNext s die = s := by
  have none_waits : s.flash.ladders.filter (fun l => l.st = .waiting && l.addr.die = die) = [] := by
    refine List.filter_eq_nil_iff.mpr (fun l hl => ?_)
    have := h l hl
    simp only [Bool.and_eq_true, decide_eq_true_eq, not_and]
    exact fun hw hd => this hd hw
  simp [startNext, waitingOn, none_waits, sortBy]

/-- A suspension that has come about: the die changed by `f`, the suspension counted, and the verb ended with its segment. -/
def suspendDone (s : State) (die : Nat) (f : Die → Die) (segment : Nat) : State :=
  verbEnds (count (dieMod s die f) (0x6100 + channelUnit die) 5 1) die 6 .suspended [segment]

theorem suspendDone_die (s : State) (die : Nat) (f : Die → Die) (segment : Nat) :
    dieOf (suspendDone s die f segment) die = f (dieOf s die) := by
  rw [suspendDone, dieOf_verbEnds, dieOf_congr (count_only _ _ _ _).arrayStands.dies, dieOf_dieMod_same]

theorem suspendDone_out (s : State) (die : Nat) (f : Die → Die) (segment : Nat) :
    (suspendDone s die f segment).out = s.out ++ [.die die 6 7 [segment]] :=
  congrArg (· ++ _) (count_only (dieMod s die f) (0x6100 + channelUnit die) 5 1).arrayStands.out

theorem suspendDone_only (s : State) (die : Nat) (f : Die → Die) (segment : Nat) :
    OnlyChanges [.flash, .counters, .sticky, .out] s (suspendDone s die f segment) :=
  ((dieMod_only s die f).comp (count_only _ _ 5 1) (rs := [.flash, .counters, .sticky])).comp (verbEnds_only _ _ _ _ _)

theorem exec_eraseSuspended {s : State} {die : Nat} {e : DieErase} (h : stopped s = false) (hs : (dieOf s die).st = .erasing)
    (he : (dieOf s die).erase = some e) (ha : (dieOf s die).suspendAsked = true)
    (hl : ∀ l ∈ s.flash.ladders, l.addr.die = die → l.st ≠ .waiting) (seg : Nat) : exec (.eraseSuspended ⟨die, seg⟩) s = .next (
      suspendDone s die (fun d => { d with
        st := .suspended, suspendAsked := false, endNs := nowNs s
        erase := some (e.suspended seg (nowNs s - (dieOf s die).sinceNs)) }) (max e.segment (min 10 seg))) := by
  change execEraseSuspended ⟨die, seg⟩ s = _
  simp only [execEraseSuspended, flashRuns, hs, he, h, ha]
  have flash (f : Die → Die) : (count (dieMod s die f) (0x6100 + channelUnit die) 5 1).flash = (dieMod s die f).flash :=
    count_only _ _ _ _ .flash (by decide)
  simp only [Bool.not_false, Bool.not_true, Bool.or_self, Bool.false_eq_true, if_false]
  rw [startNext_none]
  · rfl
  · intro l hm
    refine hl l ?_
    simpa [verbEnds, flash] using hm

/-- The lock of an erase as the gate makes it: the issue is counted, the die changed by `f`, and the verb done. -/
def lockDone (s : State) (die : Nat) (f : Die → Die) : State :=
  verbEnds (dieMod (count s (0x6100 + channelUnit die) 6 1) die f) die 8 .done []

theorem lockDone_die (s : State) (die : Nat) (f : Die → Die) : dieOf (lockDone s die f) die = f (dieOf s die) := by
  rw [lockDone, dieOf_verbEnds, dieOf_dieMod_same, dieOf_congr (count_only _ _ _ _).arrayStands.dies]

theorem lockDone_out (s : State) (die : Nat) (f : Die → Die) : (lockDone s die f).out = s.out ++ [.die die 8 0 []] :=
  congrArg (· ++ _) (count_only s (0x6100 + channelUnit die) 6 1).arrayStands.out

theorem lockDone_only (s : State) (die : Nat) (f : Die → Die) : OnlyChanges [.flash, .counters, .sticky, .out] s (lockDone s die f) :=
  ((count_only s _ 6 1).comp (dieMod_only _ die f) (rs := [.flash, .counters, .sticky])).comp (verbEnds_only _ _ _ _ _)

theorem gateLock_erasing {s : State} {die : Nat} {e : DieErase} (hf : fenceHeld s die = false) (hs : (dieOf s die).st = .erasing)
    (he : (dieOf s die).erase = some e) :
    gateLock s die = lockDone s die (fun d => { d with st := .lockedErase, suspendAsked := false }) := by
  simp [gateLock, hf, hs, he, lockDone]

theorem gateLock_suspended {s : State} {die : Nat} {e : DieErase} (hf : fenceHeld s die = false) (hs : (dieOf s die).st = .suspended)
    (he : (dieOf s die).erase = some e) :
    gateLock s die = lockDone s die (fun d => { d with erase := some { e with lockPending := true } }) := by
  simp [gateLock, hf, hs, he, lockDone]

theorem resumeErase_suspended {s : State} {die : Nat} {e : DieErase} (hs : (dieOf s die).st = .suspended)
    (he : (dieOf s die).erase = some e) (hr : (dieOf s die).read = none) : resumeErase s die = dieMod s die (fun d => { d with
      st := if e.lockPending then .lockedErase else .erasing
      erase := some { e with lockPending := false }
      suspendAsked := false
      sinceNs := nowNs s
      endNs := nowNs s + 530000 }) := by
  simp [resumeErase, hs, he, hr]

theorem endDieJob_array (s : State) (job die : Nat) : ArrayStands s (endDieJob s job die) := by
  unfold endDieJob
  split
  · exact freeFamily_array s _
  · exact .refl s

theorem wearCheck_array (s : State) : ArrayStands s (wearCheck s) := by
  unfold wearCheck
  dsimp only
  split
  · refine .trans ?_ (raiseRecord_only _ _).arrayStands
    exact ⟨rfl, rfl, rfl, rfl⟩
  · split
    · exact ⟨rfl, rfl, rfl, rfl⟩
    · exact .refl s

theorem endCare_array (s : State) (k : Nat) : ArrayStands s (endCare s k) := by
  unfold endCare
  refine .foldl (fun t c => ?_) _ s
  dsimp only
  split
  · refine .trans ?_ (freeFamily_array _ _)
    exact ⟨rfl, rfl, rfl, rfl⟩
  · exact ⟨rfl, rfl, rfl, rfl⟩

theorem checkReadOnly_array (s : State) : ArrayStands s (checkReadOnly s) := by
  unfold checkReadOnly
  split
  · exact .refl s
  · refine .trans (.trans ?_ (warnHost_only _ 3 0).arrayStands) (raiseRecord_only _ _).arrayStands
    exact ⟨rfl, rfl, rfl, rfl⟩

theorem retireBlock_array (s : State) (k pos : Nat) : ArrayStands s (retireBlock s k pos) := by
  unfold retireBlock
  extract_lets die _ u
  have counted : ArrayStands s u := by
    refine .trans ?_ (count_only _ _ _ _).arrayStands
    exact ⟨rfl, rfl, rfl, rfl⟩
  split
  · exact counted.trans ⟨rfl, rfl, rfl, rfl⟩
  · next _ t _ _ _ _ _ _ =>
    have joined : ArrayStands u t := by
      refine ArrayStands.foldl (fun _ _ => ?_) _ u
      exact ⟨rfl, rfl, rfl, rfl⟩
    refine counted.trans (joined.trans (.trans (.trans ?_ (raiseRecord_only _ _).arrayStands) (checkReadOnly_array _)))
    exact ⟨rfl, rfl, rfl, rfl⟩

/-- Beside the pages of the block that is gone, an erased block leaves the array as it was. -/
theorem blockErased_array (s : State) (die block : Nat) (ok : Bool) : ArrayStands (dropPages s die block) (blockErased s die block ok) := by
  unfold blockErased
  extract_lets k pos u due waiting v w b
  have retired : ArrayStands v w := .ite (retireBlock_array v k pos) (.refl v)
  have upTo : ArrayStands u w := (bandMod_array u k _).trans retired
  split
  · exact upTo.trans (endCare_array w k)
  · split
    · exact upTo.trans ((endCare_array w k).trans ((bandMod_array _ k _).trans (wearCheck_array _)))
    · exact upTo

/-- The erase's entry is gone, and its die free. -/
def eraseOver (s : State) (die : Nat) : State :=
  dieMod (endDieJob s 0x0A die) die (fun d => { d with st := .idle, erase := none, suspendAsked := false, endNs := nowNs (endDieJob s 0x0A die) })

theorem eraseOver_die (s : State) (die : Nat) : (dieOf (eraseOver s die) die).st = .idle ∧ (dieOf (eraseOver s die) die).erase = none := by
  rw [eraseOver, dieOf_dieMod_same]
  exact ⟨rfl, rfl⟩

theorem eraseOver_pages (s : State) (die : Nat) : (eraseOver s die).flash.pages = (endDieJob s 0x0A die).flash.pages := rfl

theorem dropPages_dies (s : State) (die block : Nat) : (dropPages s die block).flash.dies = s.flash.dies := rfl

theorem dropPages_pages (s : State) (die block : Nat) : (dropPages s die block).flash.pages =
    s.flash.pages.filter (fun p => !(p.1 / 2 ^ 26 = die && p.1 / 2 ^ 12 % 2 ^ 12 = block)) := rfl

theorem exec_eraseComplete {s : State} {die : Nat} {e : DieErase} (h : stopped s = false)
    (hs : (dieOf s die).st = .erasing ∨ (dieOf s die).st = .lockedErase) (he : (dieOf s die).erase = some e) :
    exec (.eraseComplete die true) s = .next (verbEnds (noteSlots (blockErased (eraseOver s die) die e.block true)) die 5 .done []) := by
  change execEraseComplete die true s = _
  rw [execEraseComplete, if_neg (by simpa [flashRuns, h, or_iff_not_imp_left] using hs)]
  simp only [he]
  rfl

end Sys2Proof.Machine

open Sys2Proof Sys2Proof.Machine in
/-- Settles O37: the gate's answers, the start, and the completion. -/
theorem programsKeepTheFence : Obligations.ProgramsKeepTheFence := by
  refine ⟨?_, ?_, ?_⟩
  · intro s die block wl slc pages h
    refine ⟨fun hbad => ?_, fun hd hb hw hl hm => ?_⟩
    · rw [exec_program die block wl slc pages h, gateProgram_badArg hbad]
      rfl
    have args : programArgsOk s die block wl slc pages = true := by simp [programArgsOk, hd, hb, hw, hl, hm, linePages]
    rw [exec_program die block wl slc pages h, gateProgram_ok args]
    refine ⟨fun busy => ?_, fun hs hp hr => ?_⟩
    · rw [if_pos busy]
      rfl
    rw [if_neg (by simp [hs, hp, hr])]
    refine ⟨fun hf => ?_, fun hf => ?_⟩
    · rw [if_pos hf]
      rfl
    rw [if_neg (by simp [hf])]
    have array := takenProgram_array s die block wl (pages.map (sourceOf s die block wl))
    have tally := acceptedProgram_tally s die block wl slc (pages.map (sourceOf s die block wl))
    have dies := acceptedProgram_dies s die block wl slc (pages.map (sourceOf s die block wl))
    exact ⟨_, _, rfl, (dies die).trans (if_pos rfl), rfl, rfl, rfl, rfl, tally.1, tally.2,
      fun d hne => (dies d).trans (if_neg hne), array.pages, array.map, array.out, acceptedProgram_only _ _ _ _ _ _⟩
  · intro s die i p hs hp hr hj hf
    rw [startPending_program hs hp hr hj hf]
    refine ⟨?_, ?_, ?_, fun e he => entryAt_runOn _ he, runOn_dieMod_only _ _ _ _ _⟩ <;> rw [dieOf_runOn_dieMod]
  · intro s die p h hs hp
    obtain ⟨idle, none_, pages, map, out⟩ := programOver_flash s die p
    refine ⟨⟨_, exec_programComplete h hs hp true, ?_⟩, ⟨_, exec_programComplete h hs hp false, ?_⟩⟩
    · obtain ⟨stay, land⟩ := landProgram_lands (programOver s die p) die p
      have rest := ((bandMod_array (landProgram (programOver s die p) die p) (bandAt s die p.block) _).trans
        ((noteMoved_array (lineDone (landProgram (programOver s die p) die p) (bandAt s die p.block))
          (movedBands (programOver s die p) die p)).trans ((noteSlots_array _).trans (answerSealed_array _)))).pagesStay
      have dies := fun d => dieOf_congr (stay.trans rest).dies d
      refine ⟨(congrArg Die.st (dies die)).trans idle, (congrArg Die.program (dies die)).trans none_, fun k hk => rest.pages _ (land k hk), ?_⟩
      exact congrArg (· ++ _) ((stay.trans rest).out.trans out)
    · have rest := (programFailed_array (programOver s die p) die p).trans (noteSlots_array _)
      have dies := fun d => dieOf_congr rest.dies d
      refine ⟨(congrArg Die.st (dies die)).trans idle, (congrArg Die.program (dies die)).trans none_, rest.pages.trans pages,
        rest.map.trans map, congrArg (· ++ _) (rest.out.trans out)⟩

open Sys2Proof Sys2Proof.Machine in
/-- Settles O38: each verb of an erase on its die. -/
theorem erasesSuspendResumeAndLock : Obligations.ErasesSuspendResumeAndLock := by
  refine ⟨?_, ?_, ?_, ?_⟩
  · intro s die block slc h hd hb hm
    rw [exec_erase die block slc h, gateErase_ok hd hb hm]
    refine ⟨fun hs hp hr => ?_, fun busy => ?_⟩
    · rw [if_neg (by simp [hs, hp, hr])]
      exact ⟨_, rfl, dieOf_dieMod_same _ _ _, rfl, ⟨_, rfl, rfl, rfl⟩, fun d hne => dieOf_dieMod_other _ hne, rfl,
        (dieMod_only s die _).comp (await_only _ _)⟩
    · rw [if_pos busy]
      rfl
  · intro s die i e hs hp hr hj
    rw [startPending_erase hs hp hr hj]
    refine ⟨?_, ?_, ?_, runOn_dieMod_only _ _ _ _ _⟩ <;> rw [dieOf_runOn_dieMod]
  · intro s die e h hd hr he
    have v : DieServes s die := ⟨h, hd, hr⟩
    refine ⟨fun hs => ⟨?_, ?_, fun hf => ?_⟩, fun hf => ?_, fun hs => ⟨fun hr => ?_, fun hr => ?_, fun hf => ?_⟩⟩
    · exact ⟨_, exec_eraseSuspend v hs, dieOf_dieMod_same _ _ _, dieMod_only _ _ _, fun d hne => dieOf_dieMod_other _ hne⟩
    · intro seg ha hl
      refine ⟨_, e.suspended seg (nowNs s - (dieOf s die).sinceNs), exec_eraseSuspended h hs he ha hl seg, ?_, ?_, ?_, rfl, rfl, rfl, rfl, rfl,
        suspendDone_out _ _ _ _, suspendDone_only _ _ _ _⟩ <;> rw [suspendDone_die]
    · rw [exec_eraseLock v, gateLock_erasing hf hs he]
      refine ⟨_, rfl, ?_, ?_, lockDone_out _ _ _, lockDone_only _ _ _⟩ <;> rw [lockDone_die]
      exact he
    · rw [exec_eraseLock v, gateLock, if_pos hf]
      rfl
    · rw [exec_eraseResume v hs, if_pos hr, resumeErase_suspended hs he hr]
      exact ⟨_, rfl, congrArg Die.st (dieOf_dieMod_same s die _), congrArg Die.erase (dieOf_dieMod_same s die _), rfl,
        (dieMod_only s die _).comp (verbEnds_only _ _ _ _ _)⟩
    · rw [exec_eraseResume v hs, if_neg hr]
      rfl
    · rw [exec_eraseLock v, gateLock_suspended hf hs he]
      refine ⟨_, rfl, ?_, ?_, lockDone_out _ _ _, lockDone_only _ _ _⟩ <;> rw [lockDone_die]
      exact hs
  · intro s die e h hs he
    obtain ⟨idle, none_⟩ := eraseOver_die s die
    have job := endDieJob_array s 0x0A die
    have rest := (blockErased_array (eraseOver s die) die e.block true).trans (noteSlots_array _)
    have dies := dieOf_congr (rest.dies.trans (dropPages_dies (eraseOver s die) die e.block)) die
    refine ⟨_, exec_eraseComplete h hs he, ?_, ?_, ?_, ?_, ?_⟩
    · rw [dieOf_verbEnds, dies, idle]
    · rw [dieOf_verbEnds, dies, none_]
    · exact rest.pages.trans (by rw [dropPages_pages, eraseOver_pages, job.pages])
    · exact rest.map.trans job.map
    · exact congrArg (· ++ _) (rest.out.trans job.out)

end

section
/-!
SUPPORT. Admission to the tally (R18 to R23): what an admitted request finds at its index, and what a refused one leaves.
-/

namespace Sys2Proof.Machine

/-! ## An admitted request -/

/-- An admitted request has a new entry of its own at the lowest free index (R18, R20). -/
theorem admitEntry_entry (s : State) (r : Request) :
    ∃ e, entryAt (admitEntry s r).2 (freeIndex s.tally.entries 0) = some e ∧ e.origin = r.origin ∧ e.cls = r.cls ∧ e.unit = r.unit ∧
      e.deadline = r.deadline ∧ e.parent = r.parent ∧ e.state = .admitted ∧ e.age = 0 ∧ e.promoted = false ∧
      e.admitBell = s.bell.count ∧ e.admitChime = chimeNow s :=
  ⟨_, tget_tput_same _ _ _, rfl, rfl, rfl, rfl, rfl, rfl, rfl, rfl, rfl, rfl⟩

theorem admitEntry_other (s : State) (r : Request) {j : Nat} (h : j ≠ freeIndex s.tally.entries 0) :
    entryAt (admitEntry s r).2 j = entryAt s j := tget_tput_other _ _ _ _ h

/-! ## Considering a request -/

theorem considerOne_admits {s : State} {r : Request} (hr : r ∈ s.tally.waiting) (h : admits s r.origin.kind r.cls = true) :
    considerOne s r =
      adopt (admitEntry { s with tally := { s.tally with waiting := s.tally.waiting.erase r } } r).2 (freeIndex s.tally.entries 0) r := by
  simp only [considerOne, List.contains_iff_mem.mpr hr, h]
  rfl

theorem considerOne_refuses {s : State} {r : Request} (hr : r ∈ s.tally.waiting) (h : admits s r.origin.kind r.cls = false) :
    considerOne s r = refuse s r := by
  simp [considerOne, hr, h]

theorem considerOne_gone {s : State} {r : Request} (hr : r ∉ s.tally.waiting) : considerOne s r = s := by
  simp [considerOne, hr]

/-! ## A refused request -/

theorem takeArrived_only (s : State) (src tag : Nat) : OnlyChanges [.fabric] s (takeArrived s src tag).2 := by
  unfold takeArrived
  dsimp only
  split
  · exact .refl _ s
  · exact only_fabric _ _

theorem refuseArrived_only (s : State) (a : Arrived) : OnlyChanges [.fabric, .counters, .sticky] s (refuseArrived s a) :=
  (only_fabric s _).comp (sendReply_only _ _ _ _ _ _)

/-- What takes a refused request of a peer away reaches the guild's records and ports alone (R23). -/
theorem dropArrived_only (s : State) (src tag : Nat) : OnlyChanges [.fabric, .counters, .sticky] s (dropArrived s src tag) := by
  unfold dropArrived
  dsimp only
  split
  · exact .refl _ s
  · exact (takeArrived_only s src tag).comp (refuseArrived_only _ _)

/-- A refused request that is not one of a peer keeps its place with one more refusal (R22). -/
theorem refuse_keeps {s : State} {r : Request} (h : (∀ peer tag, r.origin ≠ .fabric peer tag) ∨ r.unit = 255) :
    (refuse s r).tally = { s.tally with waiting := s.tally.waiting.replace r { r with refusals := r.refusals + 1 } } := by
  unfold refuse
  dsimp only
  split
  · next peer tag ho =>
    rw [if_neg (fun hu => h.elim (fun hn => hn peer tag ho) hu)]
  · exact count_only _ _ _ _ .tally (by decide)
  · rfl

/-- A refused request of a peer leaves the line (R23). -/
theorem refuse_drops {s : State} {r : Request} {peer tag : Nat} (ho : r.origin = .fabric peer tag) (hu : r.unit ≠ 255) :
    (refuse s r).tally = { s.tally with waiting := s.tally.waiting.erase r } := by
  unfold refuse
  dsimp only
  rw [ho]
  dsimp only
  rw [if_pos hu]
  exact dropArrived_only _ _ _ .tally (by decide)

theorem refuse_entries (s : State) (r : Request) : (refuse s r).tally.entries = s.tally.entries := by
  by_cases hu : r.unit = 255
  · rw [refuse_keeps (.inr hu)]
  · cases ho : r.origin with
    | fabric peer tag => rw [refuse_drops ho hu]
    | host sq cid => rw [refuse_keeps (.inl (by simp [ho]))]
    | search a b c => rw [refuse_keeps (.inl (by simp [ho]))]
    | stream a b => rw [refuse_keeps (.inl (by simp [ho]))]
    | internal a b => rw [refuse_keeps (.inl (by simp [ho]))]

end Sys2Proof.Machine

open Sys2Proof Sys2Proof.Machine in
/-- Settles O10: a passing request takes the lowest free index and is taken up there; a refused one keeps its place or, of a peer, goes. -/
theorem admissionFollowsTheTest : Obligations.AdmissionFollowsTheTest := by
  unfold Obligations.AdmissionFollowsTheTest
  refine ⟨fun s r hr ha => ?_, fun s r hr ha => ?_, fun s r hr => considerOne_gone hr⟩
  · exact ⟨considerOne_admits hr ha, admitEntry_entry _ r, fun j hj => admitEntry_other _ r hj⟩
  · rw [considerOne_refuses hr ha]
    refine ⟨refuse_entries s r, fun h => ?_, fun peer tag ho hu => ?_⟩
    · rw [refuse_keeps h]
    · rw [refuse_drops ho hu]
end

section
/-!
SUPPORT. Messages (R282, R284, R286, R287): what leaves the ports and the ways as they are, and which messages an operation has left waiting.
-/

namespace Sys2Proof.Machine

/-! ## Operations that say nothing -/

/-- No port and nothing that a route is chosen by differs: the ways of R286 and R287 are the same, and no message is new. -/
structure Silent (s t : State) : Prop where
  ports : t.fabric.ports = s.fabric.ports
  peers : t.fabric.peers = s.fabric.peers
  dims : t.fabric.dims = s.fabric.dims
  memberId : t.fabric.memberId = s.fabric.memberId
  epoch : t.fabric.epoch = s.fabric.epoch

theorem Silent.refl (s : State) : Silent s s := ⟨rfl, rfl, rfl, rfl, rfl⟩

theorem Silent.trans {s t u : State} (a : Silent s t) (b : Silent t u) : Silent s u :=
  ⟨b.ports.trans a.ports, b.peers.trans a.peers, b.dims.trans a.dims, b.memberId.trans a.memberId, b.epoch.trans a.epoch⟩

theorem silent_of_fabric {s t : State} (h : t.fabric = s.fabric) : Silent s t := by
  constructor <;> rw [h]

theorem OnlyChanges.silent {ps : List Part} {s t : State} (a : OnlyChanges ps s t) (h : .fabric ∉ ps := by decide) : Silent s t :=
  silent_of_fabric (a .fabric h)

theorem Silent.foldl {α : Type} {f : State → α → State} (hf : ∀ s x, Silent s (f s x)) (l : List α) (s : State) : Silent s (l.foldl f s) :=
  foldl_rel Silent.refl (fun _ _ _ => .trans) hf l s

theorem freeFamily_silent (s : State) (i : Nat) : Silent s (freeFamily s i) := ⟨rfl, rfl, rfl, rfl, rfl⟩

theorem origMod_silent (s : State) (tag : Nat) (f : OrigTxn → OrigTxn) : Silent s (origMod s tag f) := ⟨rfl, rfl, rfl, rfl, rfl⟩

theorem count_silent (s : State) (idx sub n : Nat) : Silent s (count s idx sub n) := (count_only s idx sub n).silent

/-! ## The ways of messages -/

/-- What a route is chosen by is the same; messages may be new. -/
structure SameWays (s t : State) : Prop where
  states : ∀ p, (portOf t p).st = (portOf s p).st
  peers : t.fabric.peers = s.fabric.peers
  dims : t.fabric.dims = s.fabric.dims
  memberId : t.fabric.memberId = s.fabric.memberId
  epoch : t.fabric.epoch = s.fabric.epoch

theorem SameWays.trans {s t u : State} (a : SameWays s t) (b : SameWays t u) : SameWays s u :=
  ⟨fun p => (b.states p).trans (a.states p), b.peers.trans a.peers, b.dims.trans a.dims, b.memberId.trans a.memberId, b.epoch.trans a.epoch⟩

theorem portOf_congr {s t : State} (h : t.fabric.ports = s.fabric.ports) (p : Nat) : portOf t p = portOf s p := by
  simp only [portOf, h]

theorem Silent.sameWays {s t : State} (a : Silent s t) : SameWays s t :=
  ⟨fun p => by rw [portOf_congr a.ports], a.peers, a.dims, a.memberId, a.epoch⟩

theorem dimSize_congr {s t : State} (h : t.fabric.dims = s.fabric.dims) : dimSize t = dimSize s := by
  funext d
  simp only [dimSize, h]

theorem coordOf_congr {s t : State} (h : t.fabric.dims = s.fabric.dims) : coordOf t = coordOf s := by
  funext m d
  simp only [coordOf, dimStride, dimSize_congr h]

theorem neighbourOf_congr {s t : State} (h : t.fabric.dims = s.fabric.dims) : neighbourOf t = neighbourOf s := by
  funext m p
  simp only [neighbourOf, dimStride, coordOf_congr h, dimSize_congr h]

theorem peerOf_congr {s t : State} (h : t.fabric.peers = s.fabric.peers) (m : Nat) : peerOf t m = peerOf s m := by
  simp only [peerOf, h]

/-- A message to a member leaves by the same port while the ways are the same. -/
theorem SameWays.choosePort {s t : State} (a : SameWays s t) (y : Nat) (via : Option (Nat × Bool)) : choosePort t y via = choosePort s y via := by
  have up (p : Nat) : portUp t p = portUp s p := by simp only [portUp, a.states p]
  have way : wayTo t y via = wayTo s y via := by
    simp only [wayTo, nextPort, a.memberId, coordOf_congr a.dims, dimSize_congr a.dims]
  have opens (p : Nat) : portOpen t p = portOpen s p := by
    rw [portOpen, portOpen, up, peerOf_congr a.peers, a.memberId, neighbourOf_congr a.dims]
  simp only [Machine.choosePort, way, opens, up]

theorem SameWays.replyHeader {s t : State} (a : SameWays s t) (x : Txn) (bell n : Nat) : replyHeader t x bell n = replyHeader s x bell n := by
  simp only [Machine.replyHeader, a.memberId, a.epoch]

/-! ## Messages that wait -/

/-- The messages `ms` to member `y` are new, and the ways are the same. -/
def Posts (y : Nat) (ms : List (Txn × Nat × Nat × List Nat)) (s t : State) : Prop := SameWays s t ∧ Sends s t y ms

theorem Silent.posts {s t : State} (a : Silent s t) (y : Nat) : Posts y [] s t := by
  have same (p : Nat) : portOf t p = portOf s p := portOf_congr a.ports p
  refine ⟨a.sameWays, fun p d _ => ⟨⟨[], by simp [same], by simp, rfl⟩, fun q _ => same q⟩, fun _ => a.ports⟩

theorem Posts.trans {y : Nat} {a b : List (Txn × Nat × Nat × List Nat)} {s t u : State} (f : Posts y a s t) (g : Posts y b t u) :
    Posts y (a ++ b) s u := by
  obtain ⟨fw, fs, fn⟩ := f
  obtain ⟨gw, gs, gn⟩ := g
  refine ⟨fw.trans gw, fun p d hp => ?_, fun h => (gn ((fw.choosePort y none).trans h)).trans (fn h)⟩
  obtain ⟨⟨l, hl, hls, hlm⟩, hq⟩ := fs p d hp
  obtain ⟨⟨k, hk, hks, hkm⟩, hr⟩ := gs p d ((fw.choosePort y none).trans hp)
  refine ⟨⟨l ++ k, by rw [hk, hl, List.append_assoc], fun m hm => ?_, by simp only [List.map_append, hlm, hkm]⟩,
    fun q h => (hr q h).trans (hq q h)⟩
  exact (List.mem_append.mp hm).elim (hls m) (hks m)

/-- What says nothing goes before and after a message without a change. -/
theorem Silent.then {y : Nat} {a : List (Txn × Nat × Nat × List Nat)} {s t u : State} (f : Silent s t) (g : Posts y a t u) :
    Posts y a s u := by simpa using (f.posts y).trans g

theorem Posts.silent {y : Nat} {a : List (Txn × Nat × Nat × List Nat)} {s t u : State} (f : Posts y a s t) (g : Silent t u) :
    Posts y a s u := by simpa using f.trans (g.posts y)

theorem queueMsg_sameWays (s : State) (p : Nat) (r : Bool) (x : Txn) (type status : Nat) (data : List Nat) :
    SameWays s (queueMsg s p r x type status data) :=
  ⟨fun q => portSt_queueMsg s p q r x type status data, rfl, rfl, rfl, rfl⟩

/-- A message of this member waits on the port that leads to its target (R282, R286). -/
theorem sendMsg_posts (s : State) (x : Txn) (type status : Nat) (data : List Nat) :
    Posts x.dst [(x, type, status, data)] s (sendMsg s x type status data) := by
  unfold sendMsg routeMsg
  rw [Option.map_none]
  cases hc : choosePort s x.dst none with
  | none => exact ⟨(count_silent s _ _ _).sameWays, fun p d h => by simp [hc] at h, fun _ => (count_silent s _ _ _).ports⟩
  | some c =>
    obtain ⟨p, d⟩ := c
    refine ⟨queueMsg_sameWays s p _ _ type status data, fun q e h => ?_, fun h => by simp [hc] at h⟩
    obtain ⟨rfl, rfl⟩ : p = q ∧ d = e := by simpa [hc] using h
    refine ⟨⟨_, congrArg Port.tx (portOf_portMod_same s p _), by simp, rfl⟩, fun r hr => portOf_portMod_other s p r _ hr⟩

/-- A reply of this member waits on the port that leads to the source of the request (R284). -/
theorem sendReply_posts (s : State) (x : Txn) (type status bell : Nat) (data : List Nat) :
    Posts x.src [(replyHeader s x bell data.length, type, status, data)] s (sendReply s x type status bell data) :=
  sendMsg_posts s _ type status data

/-! ## The record of a request that this member serves -/

theorem replyTarget_posts (s : State) (g : TargetTxn) (status : Nat) (data : Bytes) (final : Bool) :
    Posts g.x.src [(replyHeader s g.x 0 data.length, g.type, status, data)] s (replyTarget s g status data final) :=
  (sendReply_posts s g.x g.type status 0 data).silent ⟨rfl, rfl, rfl, rfl, rfl⟩

/-- The final answer or the ACCEPT of a request with a record sends one reply (R284). -/
theorem answer_posts {s : State} {x : Txn} {g : TargetTxn} (h : targetOf s x.src x.srcEpoch x.tag = some g) (status : Nat) (data : Bytes)
    (final : Bool) :
    Posts g.x.src [(replyHeader s g.x 0 data.length, g.type, status, data)] s (answer s x status data final) := by
  unfold answer
  rw [h]
  dsimp only
  have r := replyTarget_posts s g status data final
  split
  · split
    · exact r.silent (freeFamily_silent _ _)
    · exact r
  · exact r

theorem answer_only (s : State) (x : Txn) (status : Nat) (data : Bytes) (final : Bool) :
    OnlyChanges workParts s (answer s x status data final) := by
  unfold answer
  split
  · exact .refl _ s
  · next g _ =>
    dsimp only
    have r := replyTarget_only s g status data final
    split
    · split
      · exact r.comp (freeFamily_only _ _)
      · exact r.mono (by decide)
    · exact r.mono (by decide)

theorem replyTarget_undisturbed (s : State) (g : TargetTxn) (status : Nat) (data : Bytes) (final : Bool) :
    Undisturbed [.counters, .sticky] s (replyTarget s g status data final) := (replyTarget_only s g status data final).undisturbed

theorem answer_undisturbed (s : State) (x : Txn) (status : Nat) (data : Bytes) (final : Bool) :
    Undisturbed [.counters, .sticky] s (answer s x status data final) := by
  unfold answer
  split
  · exact .refl _ s
  · next g _ =>
    dsimp only
    have r := replyTarget_undisturbed s g status data final
    split
    · split
      · exact r.trans ((freeFamily_undisturbed _ _).mono (by decide))
      · exact r
    · exact r

end Sys2Proof.Machine
end

section
/-!
SUPPORT. Requests of other members as they arrive (R284, R287, R290, R304): met, refused, repeated, passed on.
-/

namespace Sys2Proof.Machine

/-! ## A request that is met -/

theorem wakeInPs1_awake {s : State} (h : s.power.inForce ≠ 1) : wakeInPs1 s = s := by
  simp [wakeInPs1, h]

/-- A request for this member is judged by its epoch, by the record of its transaction, and by the membership state. -/
theorem meetTxn_here {s : State} {x : Txn} (h : TxnHere s x) (hs : s.fabric.member ≠ .solo) (hj : s.fabric.member ≠ .joining) (type : Nat)
    (data : Bytes) (k : Nat) :
    meetTxn s x type data k =
      if x.dstEpoch ≠ s.fabric.epoch then refuseTxn s x type 4 0 else
      match targetOf s x.src x.srcEpoch x.tag with
      | some t =>
        let s := count s (0x6100 + porterOf x.port) 5 1
        if t.replied then replyTarget s t t.status t.data false else s
      | none =>
        if s.fabric.member ≠ .active then refuseTxn s x type 2 (resumeBellNow s) else
        await { s with fabric := { s.fabric with
            targets := s.fabric.targets ++ [⟨x.src, x.srcEpoch, x.tag, type, none, 0, false, 0, [], x⟩]
            arrived := s.fabric.arrived ++ [⟨x, type, data, k⟩] } }
          ⟨.fabric x.src x.tag, 0, x.cls, porterOf x.port, none, 0, false, false, 0, none⟩ := by
  obtain ⟨hup, hport, hguild, hawake, hhere⟩ := h
  unfold meetTxn
  rw [if_neg (by simp [hup, hport, hguild]), wakeInPs1_awake hawake]
  dsimp only
  rw [if_neg (by simp [hhere])]
  cases hm : s.fabric.member with
  | solo => exact absurd hm hs
  | joining => exact absurd hm hj
  | active => rfl
  | paused => rfl
  | leaving => rfl

/-- A request for another member goes on (R287). -/
theorem meetTxn_elsewhere {s : State} {x : Txn} (hup : stopped s = false) (hport : portUp s x.port = true)
    (hguild : x.guildId = s.fabric.guildId) (hawake : s.power.inForce ≠ 1) (hd : x.dst ≠ s.fabric.memberId) (type : Nat) (data : Bytes)
    (k : Nat) : meetTxn s x type data k = forward s x type data := by
  simp [meetTxn, hup, hport, hguild, wakeInPs1_awake hawake, hd]

/-! ## A request that is refused or repeated -/

/-- A reply of this member waits, and it reaches the ports alone (R284). -/
theorem sendReply_replies (s : State) (x : Txn) (type status bell : Nat) :
    Replies s (sendReply s x type status bell []) x type [(status, bell, [])] := (sendReply_posts s x type status bell []).2

theorem meetTxn_staleEpoch {s : State} {x : Txn} (h : TxnHere s x) (hs : s.fabric.member ≠ .solo) (hj : s.fabric.member ≠ .joining)
    (he : x.dstEpoch ≠ s.fabric.epoch) (type : Nat) (data : Bytes) (k : Nat) :
    meetTxn s x type data k = sendReply s x type 4 0 [] := by
  rw [meetTxn_here h hs hj, if_pos he, refuseTxn]

theorem meetTxn_paused {s : State} {x : Txn} (h : TxnHere s x) (hm : s.fabric.member = .paused) (he : x.dstEpoch = s.fabric.epoch)
    (hn : targetOf s x.src x.srcEpoch x.tag = none) (type : Nat) (data : Bytes) (k : Nat) :
    meetTxn s x type data k = sendReply s x type 2 (resumeBellNow s) [] := by
  rw [meetTxn_here h (by simp [hm]) (by simp [hm])]
  simp [he, hn, hm, refuseTxn]

theorem meetTxn_active {s : State} {x : Txn} (h : TxnHere s x) (hm : s.fabric.member = .active) (he : x.dstEpoch = s.fabric.epoch)
    (hn : targetOf s x.src x.srcEpoch x.tag = none) (type : Nat) (data : Bytes) (k : Nat) :
    meetTxn s x type data k = await { s with fabric := { s.fabric with
            targets := s.fabric.targets ++ [⟨x.src, x.srcEpoch, x.tag, type, none, 0, false, 0, [], x⟩]
            arrived := s.fabric.arrived ++ [⟨x, type, data, k⟩] } }
          ⟨.fabric x.src x.tag, 0, x.cls, porterOf x.port, none, 0, false, false, 0, none⟩ := by
  rw [meetTxn_here h (by simp [hm]) (by simp [hm])]
  simp [he, hn, hm]

theorem meetTxn_repeat {s : State} {x : Txn} {g : TargetTxn} (h : TxnHere s x) (hs : s.fabric.member ≠ .solo)
    (hj : s.fabric.member ≠ .joining) (he : x.dstEpoch = s.fabric.epoch) (hg : targetOf s x.src x.srcEpoch x.tag = some g)
    (hr : g.replied = true) (type : Nat) (data : Bytes) (k : Nat) :
    meetTxn s x type data k = replyTarget (count s (0x6100 + porterOf x.port) 5 1) g g.status g.data false := by
  rw [meetTxn_here h hs hj]
  simp [he, hg, hr]

/-- A message that goes out leaves all of the fabric but the ports. -/
theorem sendReply_fabric (s : State) (x : Txn) (type status bell : Nat) (data : List Nat) :
    { (sendReply s x type status bell data).fabric with ports := s.fabric.ports } = s.fabric := by
  unfold sendReply sendMsg routeMsg
  split
  · rfl
  · have e : (count s 0x6014 4 1).fabric = s.fabric := count_only _ _ _ _ .fabric (by decide)
    rw [e]

/-- A reply to a request that is served leaves all of the fabric but the ports and the records of requests that are served. -/
theorem replyTarget_fabric (s : State) (g : TargetTxn) (status : Nat) (data : Bytes) (final : Bool) :
    { (replyTarget s g status data final).fabric with ports := s.fabric.ports, targets := s.fabric.targets } = s.fabric := by
  have e := congrArg (fun f : Fabric => { f with targets := s.fabric.targets }) (sendReply_fabric s g.x g.type status 0 data)
  exact e

theorem replyTarget_arrived (s : State) (g : TargetTxn) (status : Nat) (data : Bytes) (final : Bool) :
    (replyTarget s g status data final).fabric.arrived = s.fabric.arrived := by
  have e := congrArg Fabric.arrived (replyTarget_fabric s g status data final)
  exact e

theorem replyTarget_staging (s : State) (g : TargetTxn) (status : Nat) (data : Bytes) (final : Bool) :
    (replyTarget s g status data final).fabric.staging = s.fabric.staging := by
  have e := congrArg Fabric.staging (replyTarget_fabric s g status data final)
  exact e

/-- A repeat is counted and answered from its record; nothing is kept of it (R284). -/
theorem repeatAnswered (s : State) (g : TargetTxn) (idx sub : Nat) :
    let t := replyTarget (count s idx sub 1) g g.status g.data false
    Replies s t g.x g.type [(g.status, 0, g.data)] ∧ t.fabric.arrived = s.fabric.arrived ∧ t.fabric.staging = s.fabric.staging ∧
      OnlyChanges [.fabric, .counters, .sticky] s t := by
  have e : (count s idx sub 1).fabric = s.fabric := count_only _ _ _ _ .fabric (by decide)
  have posts := (count_silent s idx sub 1).then (replyTarget_posts _ g g.status g.data false)
  rw [(count_silent s idx sub 1).sameWays.replyHeader] at posts
  refine ⟨posts.2, ?_, ?_, (count_only s _ _ _).comp (replyTarget_only _ _ _ _ _)⟩
  · exact (replyTarget_arrived _ _ _ _ _).trans (congrArg Fabric.arrived e)
  · exact (replyTarget_staging _ _ _ _ _).trans (congrArg Fabric.staging e)

/-! ## A message that goes on -/

/-- A message for another member leaves by the port that its way gives, with one hop more (R287). -/
theorem forward_queues {s : State} {x : Txn} {q : Nat} {d : Bool} (hh : x.hops + 1 < 255)
    (hc : choosePort s x.dst (some (x.port, x.detour)) = some (q, d)) (type : Nat) (data : Bytes) :
    forward s x type data =
      queueMsg s q (some x.port = some (otherWay q) && !d) { x with hops := x.hops + 1, detour := x.detour || d } type 0 data := by
  unfold forward
  rw [if_neg (by omega)]
  simp only [routeMsg, Option.map_some, hc]

theorem queueMsg_port (s : State) (p : Nat) (r : Bool) (x : Txn) (type status : Nat) (data : List Nat) :
    ∃ m : TxMsg, portOf (queueMsg s p r x type status data) p = { portOf s p with tx := (portOf s p).tx ++ [m] } ∧ m.type = type ∧
      m.data = data ∧ m.x = { x with port := p } := ⟨_, portOf_portMod_same s p _, rfl, rfl, rfl⟩

theorem queueMsg_onlyPort (s : State) (p : Nat) (r : Bool) (x : Txn) (type status : Nat) (data : List Nat) :
    OnlyPort s (queueMsg s p r x type status data) p := ⟨fun _ h => portOf_portMod_other s p _ _ h, rfl⟩

/-! ## A request that is dropped -/

theorem takeArrived_found {s : State} {src tag : Nat} {a : Arrived}
    (h : s.fabric.arrived.find? (fun b => b.x.src = src && b.x.tag = tag) = some a) :
    takeArrived s src tag = (some a, { s with fabric := { s.fabric with arrived := s.fabric.arrived.erase a } }) := by
  simp only [takeArrived, h]

/-- The record of the request `x` has gone. -/
def forgetTarget (s : State) (x : Txn) : State :=
  { s with fabric := { s.fabric with targets := s.fabric.targets.filter (fun t => !(t.src = x.src && t.epoch = x.srcEpoch && t.tag = x.tag)) } }

theorem forgetTarget_gone (s : State) (x : Txn) : targetOf (forgetTarget s x) x.src x.srcEpoch x.tag = none := by
  simp only [targetOf, forgetTarget]
  rw [List.find?_eq_none]
  intro t ht
  simpa [imp_iff_not_or, or_assoc] using (List.mem_filter.mp ht).2

theorem targetOf_congr {s t : State} (h : t.fabric.targets = s.fabric.targets) (a b c : Nat) : targetOf t a b c = targetOf s a b c := by
  simp only [targetOf, h]

/-- A request refused at its first chime boundary is answered TALLY_FULL, and no record of it is kept (R23). -/
theorem dropArrived_found {s : State} {a : Arrived}
    (h : s.fabric.arrived.find? (fun b => b.x.src = a.x.src && b.x.tag = a.x.tag) = some a) :
    let t := dropArrived s a.x.src a.x.tag
    Replies s t a.x a.type [(3, 0, [])] ∧ targetOf t a.x.src a.x.srcEpoch a.x.tag = none ∧
      t.fabric.arrived = s.fabric.arrived.erase a := by
  have e : dropArrived s a.x.src a.x.tag =
      sendReply (forgetTarget { s with fabric := { s.fabric with arrived := s.fabric.arrived.erase a } } a.x) a.x a.type 3 0 [] := by
    simp only [dropArrived, takeArrived_found h]
    rfl
  have quiet : Silent s (forgetTarget { s with fabric := { s.fabric with arrived := s.fabric.arrived.erase a } } a.x) :=
    ⟨rfl, rfl, rfl, rfl, rfl⟩
  have posts := quiet.then (sendReply_posts _ a.x a.type 3 0 [])
  rw [quiet.sameWays.replyHeader] at posts
  have f := sendReply_fabric (forgetTarget { s with fabric := { s.fabric with arrived := s.fabric.arrived.erase a } } a.x) a.x a.type 3 0 []
  have targets := congrArg Fabric.targets f
  have arrived := congrArg Fabric.arrived f
  rw [e]
  exact ⟨posts.2, (targetOf_congr targets _ _ _).trans (forgetTarget_gone _ _), arrived⟩

/-! ## Probes -/

theorem exec_controlProbe {s : State} {x : Txn} (h : TxnHere s x) (hs : s.fabric.member ≠ .solo) (hj : s.fabric.member ≠ .joining) :
    exec (.controlProbe x) s = .next (sendReply s x 8 (if x.dstEpoch = s.fabric.epoch then 0 else 4) 0 []) := by
  obtain ⟨hup, hport, hguild, hawake, hhere⟩ := h
  change execControlProbe x s = _
  unfold execControlProbe
  rw [if_neg (by simp [hup, hport, hguild]), wakeInPs1_awake hawake]
  dsimp only
  rw [if_neg (by simp [hhere])]
  cases hm : s.fabric.member with
  | solo => exact absurd hm hs
  | joining => exact absurd hm hj
  | active => rfl
  | paused => rfl
  | leaving => rfl

end Sys2Proof.Machine
end

section
/-!
SUPPORT. Requests of other members as they are served (R284, R290, R293 to R297, R272): the ACCEPT, what a service reads, and its replies.
-/

namespace Sys2Proof.Machine

/-! ## What a service reads -/

/-- The parts that the acceptance of a request reaches. -/
def acceptParts : List Part := [.tally, .fabric, .counters, .sticky]

/-- What reads none of the parts that an acceptance reaches is the same after it. -/
theorem OnlyChanges.reads {α : Type} {s t : State} (h : OnlyChanges acceptParts s t) (F : State → α)
    (hF : ∀ f ta c k, F { s with fabric := f, tally := ta, counters := c, sticky := k } = F s) : F t = F s := by
  have e : t = { s with fabric := t.fabric, tally := t.tally, counters := t.counters, sticky := t.sticky } := by
    have same (p : Part) (hp : p ∉ acceptParts) : p.same s t := h p hp
    obtain ⟨⟩ := t
    have h1 := same .ident (by decide)
    have h2 := same .od (by decide)
    have h3 := same .units (by decide)
    have h4 := same .dev (by decide)
    have h5 := same .pen (by decide)
    have h6 := same .steward (by decide)
    have h7 := same .bell (by decide)
    have h8 := same .host (by decide)
    have h9 := same .freeze (by decide)
    have h10 := same .flash (by decide)
    have h11 := same .ledger (by decide)
    have h12 := same .compute (by decide)
    have h13 := same .streams (by decide)
    have h14 := same .sifters (by decide)
    have h15 := same .milny (by decide)
    have h16 := same .power (by decide)
    have h17 := same .update (by decide)
    have h18 := same .keys (by decide)
    have h19 := same .rails (by decide)
    have h20 := same .sampled (by decide)
    have h21 := same .edge (by decide)
    have h22 := same .free (by decide)
    have h23 := same .out (by decide)
    have h24 := same .pending (by decide)
    simp only [Part.same] at *
    simp only [*]
  rw [e]
  exact hF _ _ _ _

/-! ## The acceptance -/

/-- Give the records of the request `x` the entry `i`. -/
def noteEntry (s : State) (x : Txn) (i : Nat) : State :=
  { s with fabric := { s.fabric with targets := s.fabric.targets.map (fun t =>
      if t.src = x.src ∧ t.epoch = x.srcEpoch ∧ t.tag = x.tag then { t with entry := some i } else t) } }

/-- The state in which the request `a` is served: it has its entry, and the ACCEPT has gone out, but for a SIFT. -/
def acceptedAs (s : State) (a : Arrived) (i : Nat) : State :=
  let t := noteEntry { s with fabric := { s.fabric with arrived := s.fabric.arrived.erase a } } a.x i
  setRunning (if a.type = 5 then t else answer t a.x 1 [] false) i

/-- A map that keeps a record's key keeps what a look-up finds. -/
theorem find?_map_key {α : Type} (l : List α) (p : α → Bool) (f : α → α) (h : ∀ x, p (f x) = p x) :
    (l.map f).find? p = (l.find? p).map f := by
  rw [List.find?_map]
  congr 2
  funext x
  exact h x

theorem targetOf_noteEntry {s : State} {x : Txn} {g : TargetTxn} (i : Nat) (h : targetOf s x.src x.srcEpoch x.tag = some g) :
    targetOf (noteEntry s x i) x.src x.srcEpoch x.tag = some { g with entry := some i } := by
  have key := List.find?_some h
  simp only [Bool.and_eq_true, decide_eq_true_eq] at key
  obtain ⟨⟨hs, he⟩, ht⟩ := key
  unfold targetOf noteEntry
  dsimp only
  rw [find?_map_key _ _ _ (fun t => by split <;> rfl)]
  unfold targetOf at h
  rw [h]
  simp [hs, he, ht]

theorem targetOf_replyTarget {s : State} {x : Txn} {g : TargetTxn} (h : targetOf s x.src x.srcEpoch x.tag = some g) (status : Nat)
    (data : Bytes) :
    targetOf (replyTarget s g status data false) x.src x.srcEpoch x.tag = some { g with status := status, replied := true, data := data } := by
  have e := congrArg Fabric.targets (sendReply_fabric s g.x g.type status 0 data)
  have targets : (sendReply s g.x g.type status 0 data).fabric.targets = s.fabric.targets := e
  unfold targetOf replyTarget
  dsimp only
  rw [find?_map_key _ _ _ (fun t => by split <;> rfl), targets]
  unfold targetOf at h
  rw [h]
  simp

theorem served_eq {s : State} {a : Arrived} {i : Nat} (h : TxnTurn s a i) : served s a i = serveArrived a (acceptedAs s a i) i := by
  simp only [served, adoptArrived, takeArrived_found h.found, h.room]
  rfl

/-- A request that has been accepted has its record; the ACCEPT, but for a SIFT, is the one message new. -/
structure Taken (s : State) (a : Arrived) (u : State) : Prop where
  posts : Posts a.x.src (if a.type = 5 then [] else [(replyHeader s a.x 0 0, a.type, 1, [])]) s u
  record : ∃ g, targetOf u a.x.src a.x.srcEpoch a.x.tag = some g ∧ g.x = a.x ∧ g.type = a.type
  only : OnlyChanges acceptParts s u
  staging : u.fabric.staging = s.fabric.staging

theorem answer_accept {s : State} {x : Txn} {g : TargetTxn} (h : targetOf s x.src x.srcEpoch x.tag = some g) (status : Nat) (data : Bytes) :
    answer s x status data false = replyTarget s g status data false := by
  simp [answer, h]

theorem setRunning_fabric (s : State) (i : Nat) : (setRunning s i).fabric = s.fabric := setRunning_only s i .fabric (by decide)

theorem taken {s : State} {a : Arrived} {i : Nat} (h : TxnTurn s a i) : Taken s a (acceptedAs s a i) := by
  obtain ⟨g, hg, hx, ht, -, -⟩ := h.fresh
  have quiet : Silent s (noteEntry { s with fabric := { s.fabric with arrived := s.fabric.arrived.erase a } } a.x i) :=
    ⟨rfl, rfl, rfl, rfl, rfl⟩
  have noted := targetOf_noteEntry (s := { s with fabric := { s.fabric with arrived := s.fabric.arrived.erase a } }) i hg
  have only : OnlyChanges [.fabric] s (noteEntry { s with fabric := { s.fabric with arrived := s.fabric.arrived.erase a } } a.x i) :=
    only_fabric s _
  have staging : (noteEntry { s with fabric := { s.fabric with arrived := s.fabric.arrived.erase a } } a.x i).fabric.staging =
    s.fabric.staging := rfl
  unfold acceptedAs
  dsimp only
  generalize noteEntry { s with fabric := { s.fabric with arrived := s.fabric.arrived.erase a } } a.x i = n at *
  have running (t : State) : Silent t (setRunning t i) := (setRunning_only t i).silent
  by_cases h5 : a.type = 5
  · rw [if_pos h5]
    refine ⟨?_, ⟨_, (targetOf_congr (congrArg Fabric.targets (setRunning_fabric n i)) _ _ _).trans noted, hx, ht⟩,
      only.comp (setRunning_only n i), (congrArg Fabric.staging (setRunning_fabric n i)).trans staging⟩
    rw [if_pos h5]
    exact (quiet.trans (running n)).posts _
  · rw [if_neg h5, answer_accept noted]
    have posts := quiet.then (replyTarget_posts n { g with entry := some i } 1 [] false)
    rw [quiet.sameWays.replyHeader] at posts
    refine ⟨?_, ⟨_, (targetOf_congr (congrArg Fabric.targets (setRunning_fabric _ i)) _ _ _).trans (targetOf_replyTarget noted 1 []), hx, ht⟩,
      (only.comp (rs := acceptParts) (replyTarget_only n _ 1 [] false)).comp (setRunning_only _ i),
      (congrArg Fabric.staging (setRunning_fabric _ i)).trans ((replyTarget_staging n _ 1 [] false).trans staging)⟩
    rw [if_neg h5, ← hx, ← ht]
    exact posts.silent (running _)

/-- A request at its turn is served in the state that its acceptance gives. -/
theorem TxnTurn.taken {s : State} {a : Arrived} {i : Nat} (h : TxnTurn s a i) : ∃ u, served s a i = serveArrived a u i ∧ Taken s a u :=
  ⟨acceptedAs s a i, served_eq h, Machine.taken h⟩

/-! ## A service and its replies -/

theorem Taken.replies {s : State} {a : Arrived} {u t : State} {rs : List (Nat × Bytes)} (h : Taken s a u)
    (p : Posts a.x.src (rs.map (fun r => (replyHeader s a.x 0 r.2.length, a.type, r.1, r.2))) u t) :
    Replies s t a.x a.type ((if a.type = 5 then [] else [(1, 0, [])]) ++ rs.map (fun r => (r.1, 0, r.2))) := by
  have both := (h.posts.trans p).2
  unfold Replies
  rw [List.map_append, List.map_map]
  convert both using 2
  · split <;> rfl
  · rfl

theorem Taken.undisturbed {s : State} {a : Arrived} {u : State} (h : Taken s a u) : Undisturbed ([.counters, .sticky] ++ []) s u :=
  h.only.undisturbed

/-- A service that sends the replies `rs` and disturbs nothing. -/
theorem Taken.serves {s : State} {a : Arrived} {i : Nat} {u t : State} {rs : List (Nat × Bytes)} (h : Taken s a u) (e : served s a i = t)
    (p : Posts a.x.src (rs.map (fun r => (replyHeader s a.x 0 r.2.length, a.type, r.1, r.2))) u t)
    (d : Undisturbed ([.counters, .sticky] ++ []) u t) : Serves s a i rs [] := by
  unfold Serves
  rw [e]
  exact ⟨h.replies p, h.undisturbed.trans d⟩

/-- The final answer of a service that has said nothing before it is the one message after the ACCEPT. -/
theorem Taken.answerPosts {s : State} {a : Arrived} {u v : State} (h : Taken s a u) (q : Silent u v)
    (qt : v.fabric.targets = u.fabric.targets) (st : Nat) (data : Bytes) :
    Posts a.x.src [(replyHeader s a.x 0 data.length, a.type, st, data)] u (answer v a.x st data true) := by
  obtain ⟨g, hg, hx, ht⟩ := h.record
  have posts := q.then (answer_posts ((targetOf_congr qt _ _ _).trans hg) st data true)
  rw [q.sameWays.replyHeader, h.posts.1.replyHeader, hx, ht] at posts
  exact posts

/-- A service that is one final answer. -/
theorem Taken.answers {s : State} {a : Arrived} {i : Nat} {u v : State} {st : Nat} {data : Bytes} (h : Taken s a u) (q : Silent u v)
    (qt : v.fabric.targets = u.fabric.targets) (d : Undisturbed ([.counters, .sticky] ++ []) u v)
    (e : served s a i = answer v a.x st data true) : Serves s a i [(st, data)] [] :=
  h.serves e (h.answerPosts q qt st data) (d.trans (answer_undisturbed v a.x st data true))

theorem Taken.answersAtOnce {s : State} {a : Arrived} {i : Nat} {u : State} {st : Nat} {data : Bytes} (h : Taken s a u)
    (e : served s a i = answer u a.x st data true) : Serves s a i [(st, data)] [] :=
  h.answers (.refl u) rfl (.refl _ u) e

end Sys2Proof.Machine
end

section
/-!
SUPPORT. The services of the requests of other members, one by one (R293 to R297, R272): what each answers and what it leaves.
-/

namespace Sys2Proof.Machine

/-! ## Fields of a message -/

theorem length_leBytes (n v : Nat) : (leBytes n v).length = n := by
  induction n generalizing v with
  | zero => rfl
  | succ n ih => simp [leBytes, ih]

theorem leNat_leBytes (n : Nat) {v : Nat} (h : v < 256 ^ n) : leNat (leBytes n v) = v := by
  induction n generalizing v with
  | zero => simp [leBytes, leNat]; omega
  | succ n ih =>
    have lt : v / 256 < 256 ^ n := by rw [Nat.div_lt_iff_lt_mul (by decide)]; rwa [Nat.pow_succ] at h
    simp only [leBytes, leNat, ih lt]
    omega

theorem slice_append_left (a b : Bytes) : slice (a ++ b) 0 a.length = a := by
  refine List.ext_getElem (by simp [slice]) (fun k h1 h2 => ?_)
  simp [slice, List.getElem?_append_left h2, h2]

theorem slice_append_right (a b : Bytes) : slice (a ++ b) a.length b.length = b := by
  refine List.ext_getElem (by simp [slice]) (fun k h1 h2 => ?_)
  simp [slice, h2]

theorem fieldAt_left {n v : Nat} (h : v < 256 ^ n) (b : Bytes) : fieldAt (leBytes n v ++ b) 0 n = v := by
  have e := slice_append_left (leBytes n v) b
  rw [length_leBytes] at e
  rw [fieldAt, e, leNat_leBytes n h]

theorem fieldAt_right {k n v : Nat} {a : Bytes} (ha : a.length = k) (h : v < 256 ^ n) : fieldAt (a ++ leBytes n v) k n = v := by
  subst ha
  have e := slice_append_right a (leBytes n v)
  rw [length_leBytes] at e
  rw [fieldAt, e, leNat_leBytes n h]

/-! ## Answers and the staging -/

theorem answer_staging (s : State) (x : Txn) (status : Nat) (data : Bytes) (final : Bool) :
    (answer s x status data final).fabric.staging = s.fabric.staging := by
  unfold answer
  split
  · rfl
  · next g _ =>
    have r := replyTarget_staging s g status data final
    dsimp only
    split
    · split <;> exact r
    · exact r

/-- A message is the last of its group, and no other group has changed (R294). -/
theorem stageMsg_staging (s : State) (x : Txn) (addr : Nat) (data : Bytes) (stream : Option (Nat × Nat × Nat)) :
    (∃ g ∈ (stageMsg s x addr data stream).fabric.staging, sameGroup g x = true ∧ g.msgs.getLast? = some (addr, data)) ∧
    ∀ g ∈ s.fabric.staging, sameGroup g x = false → g ∈ (stageMsg s x addr data stream).fabric.staging := by
  unfold stageMsg
  dsimp only
  split
  · next h =>
    obtain ⟨g, hg, hs⟩ := List.any_eq_true.mp h
    refine ⟨⟨_, List.mem_map.mpr ⟨g, hg, if_pos hs⟩, hs, by simp⟩, fun k hk hn => List.mem_map.mpr ⟨k, hk, by simp [hn]⟩⟩
  · refine ⟨⟨_, List.mem_append_right _ (List.mem_singleton.mpr rfl), by simp [sameGroup], rfl⟩, fun k hk _ => List.mem_append_left _ hk⟩

theorem stageMsg_silent (s : State) (x : Txn) (addr : Nat) (data : Bytes) (stream : Option (Nat × Nat × Nat)) :
    Silent s (stageMsg s x addr data stream) := ⟨rfl, rfl, rfl, rfl, rfl⟩

theorem stageMsg_targets (s : State) (x : Txn) (addr : Nat) (data : Bytes) (stream : Option (Nat × Nat × Nat)) :
    (stageMsg s x addr data stream).fabric.targets = s.fabric.targets := rfl

theorem dropGroup_silent (s : State) (x : Txn) : Silent s (dropGroup s x) := ⟨rfl, rfl, rfl, rfl, rfl⟩

theorem dropGroup_targets (s : State) (x : Txn) : (dropGroup s x).fabric.targets = s.fabric.targets := rfl

theorem dropGroup_staging (s : State) (x : Txn) : ∀ g ∈ (dropGroup s x).fabric.staging, sameGroup g x = false := by
  intro g hg
  simpa using (List.mem_filter.mp hg).2

/-! ## GET -/

theorem serveGet_refused {s : State} {x : Txn} {st : Nat} (h : windowRefusal s x.addr x.length false = some st) (i : Nat) :
    serveGet x s i = answer s x st [] true := by
  simp only [serveGet, h]

theorem serveGet_memory {s : State} {x : Txn} (h : windowRefusal s x.addr x.length false = none)
    (hk : windowField s (windowOf x.addr).1 1 ≠ 2) (i : Nat) :
    serveGet x s i = answer s x 0 (mread s.compute.slm (windowField s (windowOf x.addr).1 4 + (windowOf x.addr).2) x.length) true := by
  simp only [serveGet, h]
  exact if_neg hk

theorem serveGet_flash {s : State} {x : Txn} {ns : Namespace} (h : windowRefusal s x.addr x.length false = none)
    (hk : windowField s (windowOf x.addr).1 1 = 2) (hn : nsOf s (windowField s (windowOf x.addr).1 3) = some ns)
    (hr : rangeError s (windowField s (windowOf x.addr).1 3) (windowLbas s (windowOf x.addr).1 (windowOf x.addr).2 x.length).1
      (windowLbas s (windowOf x.addr).1 (windowOf x.addr).2 x.length).2 = none)
    (hl : ledgerDown s (iusOf ns (unitsOf ns (windowLbas s (windowOf x.addr).1 (windowOf x.addr).2 x.length).1
      (windowLbas s (windowOf x.addr).1 (windowOf x.addr).2 x.length).2)) = false) (i : Nat) :
    let units := unitsOf ns (windowLbas s (windowOf x.addr).1 (windowOf x.addr).2 x.length).1
      (windowLbas s (windowOf x.addr).1 (windowOf x.addr).2 x.length).2
    serveGet x s i = readUnits (toLedger s i (iusOf ns units)) i .get (windowField s (windowOf x.addr).1 3) ns units := by
  unfold serveGet
  simp only [windowOf] at *
  simp only [h, hk, hn, hr, hl]
  rfl

theorem toLedger_only (s : State) (entry : Nat) (ius : List Nat) : OnlyChanges [.tally] s (toLedger s entry ius) := by
  unfold toLedger
  split
  · exact .refl _ s
  · exact entryMod_only _ _ _

theorem countLookups_only (s : State) (ius : List Nat) : OnlyChanges [.counters, .sticky] s (countLookups s ius) :=
  .foldl (fun t _ => count_only t _ _ _) ius s

theorem addLadders_jobs (s : State) (entry : Nat) (a : FlashAddr) (slc : Bool) (ks : List Nat) :
    (addLadders s entry a slc ks).flash.jobs = s.flash.jobs := by
  refine foldl_rel (R := fun s t => t.flash.jobs = s.flash.jobs) (fun _ => rfl) (fun _ _ _ h k => k.trans h) (fun t k => ?_) ks s
  dsimp only
  split <;> rfl

theorem addLadders_only (s : State) (entry : Nat) (a : FlashAddr) (slc : Bool) (ks : List Nat) :
    OnlyChanges [.flash] s (addLadders s entry a slc ks) :=
  .foldl (fun t _ => .ite (.refl _ t) (ladderPut_only t _)) ks s

/-- A read that starts is one of the jobs, for its entry and its units. -/
theorem addJob_job (s : State) (j : ReadJob) :
    ∃ k ∈ (addJob s j).flash.jobs, k.entry = j.entry ∧ k.use = j.use ∧ k.units = j.units := by
  unfold addJob
  dsimp only
  split
  · split
    · rw [addLadders_jobs]
      exact ⟨_, List.mem_append_right _ (List.mem_singleton.mpr rfl), rfl, rfl, rfl⟩
    · exact ⟨j, List.mem_append_right _ (List.mem_singleton.mpr rfl), rfl, rfl, rfl⟩
  · exact ⟨j, List.mem_append_right _ (List.mem_singleton.mpr rfl), rfl, rfl, rfl⟩

theorem addJob_only (s : State) (j : ReadJob) : OnlyChanges [.flash] s (addJob s j) := by
  unfold addJob
  dsimp only
  split
  · split
    · exact .trans (only_flash s _) (addLadders_only _ _ _ _ _)
    · exact only_flash s _
  · exact only_flash s _

theorem readUnits_only (s : State) (entry : Nat) (use : ReadUse) (nsid : Nat) (ns : Namespace) (units : List Nat) :
    OnlyChanges [.flash, .counters, .sticky] s (readUnits s entry use nsid ns units) :=
  (countLookups_only s _).comp (addJob_only _ _)

theorem readUnits_job (s : State) (entry : Nat) (use : ReadUse) (nsid : Nat) (ns : Namespace) (units : List Nat) :
    ∃ j ∈ (readUnits s entry use nsid ns units).flash.jobs, j.entry = entry ∧ j.use = use ∧ j.units = units := addJob_job _ _

/-! ## PUT -/

theorem servePut_refused {s : State} {x : Txn} {data : Bytes} {st : Nat} (h : windowRefusal s x.addr data.length true = some st) :
    servePut x data s = answer s x st [] true := by
  simp only [servePut, h]

theorem servePut_staged {s : State} {x : Txn} {data : Bytes} (h : windowRefusal s x.addr data.length true = none)
    (hg : ∀ g ∈ s.fabric.staging, sameGroup g x = true → g.stream = none) :
    servePut x data s = answer (stageMsg s x x.addr data none) x 0 [] true := by
  have none_ : s.fabric.staging.any (fun g => sameGroup g x && g.stream.isSome) = false := by
    rw [List.any_eq_false]
    intro g m
    cases hs : sameGroup g x
    · simp
    · simp [hg g m hs]
  simp only [servePut, h, none_]
  rfl

/-! ## SEAL -/

theorem serveSeal_differs {s : State} {x : Txn} {g : StageGroup} {m n : Nat} (h : groupOfSeal s x = some g)
    (hd : g.msgs.length ≠ m ∨ (g.msgs.map (fun q => q.2.length)).sum ≠ n) (i : Nat) :
    serveSeal x m n s i = answer (dropGroup s x) x 6 [] true := by
  simp only [serveSeal, h, if_pos hd]

theorem serveSeal_memory {s : State} {x : Txn} {g : StageGroup} (h : groupOfSeal s x = some g) (hs : g.stream = none)
    (hw : groupWrites (dropGroup s x) g = []) (i : Nat) :
    serveSeal x g.msgs.length (g.msgs.map (fun q => q.2.length)).sum s i = answer (g.msgs.foldl commitSlm (dropGroup s x)) x 0 [] true := by
  simp [serveSeal, h, hs, hw, groupRefusal]

theorem commitSlm_only (s : State) (m : Nat × Bytes) : OnlyChanges [.compute] s (commitSlm s m) := by
  unfold commitSlm
  dsimp only
  split
  · exact only_compute s _
  · exact .refl _ s

/-- What a staged message puts into memory depends on the windows and the memory alone. -/
theorem commitSlm_foldl_slm {s t : State} (hod : t.od = s.od) (hid : t.ident = s.ident) (hm : t.compute.slm = s.compute.slm)
    (ms : List (Nat × Bytes)) : (ms.foldl commitSlm t).compute.slm = (ms.foldl commitSlm s).compute.slm := by
  induction ms generalizing s t with
  | nil => exact hm
  | cons m ms ih =>
    have od (u : State) : (commitSlm u m).od = u.od := commitSlm_only u m .od (by decide)
    have ident (u : State) : (commitSlm u m).ident = u.ident := commitSlm_only u m .ident (by decide)
    refine ih (by rw [od, od, hod]) (by rw [ident, ident, hid]) ?_
    have w (k sub : Nat) : windowField t k sub = windowField s k sub := odVal_congr hod hid _ _
    simp only [commitSlm, w]
    split
    · simp only [hm]
    · exact hm

/-! ## SEND -/

/-- A message that a RING window takes goes to its next slot, or finds the ring full (R296). -/
theorem serveSend_ring {s : State} {x : Txn} {data : Bytes} (h1 : windowField s (windowOf x.addr).1 1 = 3)
    (h2 : bit (windowField s (windowOf x.addr).1 2) 1 = true) (h3 : data.length ≤ 4032)
    (h4 : windowField s (windowOf x.addr).1 4 + windowField s (windowOf x.addr).1 5 ≤ slmSize)
    (h5 : (ringFields s (windowOf x.addr).1).2.2 ≠ 0) :
    let w := (windowOf x.addr).1
    let r := ringFields s w
    serveSend x data s = if ringFull r.1 r.2.1 r.2.2 then answer s x 11 [] true else
      answer (slmWrite (slmWrite s (windowField s w 4 + 4096 * (r.2.1 % r.2.2 + 1))
        (leBytes 4 x.src ++ leBytes 4 data.length ++ leBytes 8 s.bell.count ++ List.replicate 48 0 ++ data))
        (windowField s w 4 + 8) (leBytes 8 (r.2.1 + 1))) x 0 [] true := by
  dsimp only
  unfold serveSend
  dsimp only
  rw [if_neg (by simp [h1, h2]), if_neg (by omega)]
  simp only [h5, decide_false, Bool.false_or]
  rfl

theorem slmWrite_twice (s : State) (p q : Nat) (a b : Bytes) :
    (slmWrite (slmWrite s p a) q b).compute.slm = mwrite (mwrite s.compute.slm p a) q b := rfl

/-! ## STREAM -/

theorem serveStream_refused {s : State} {x : Txn} (h : sliceWelcome s x = false) (data : Bytes) (i : Nat) :
    serveStream x data s i = answer s x 9 [] true := by
  simp [serveStream, h]

/-- The record that the entry `i` serves has no entry more, and its time to be kept begins (R284). -/
def closeTarget (s : State) (i : Nat) : State :=
  { s with fabric := { s.fabric with targets := s.fabric.targets.map (fun t =>
      if t.entry = some i then { t with entry := none, expiry := s.bell.ticks } else t) } }

theorem closeTarget_silent (s : State) (i : Nat) : Silent s (closeTarget s i) := ⟨rfl, rfl, rfl, rfl, rfl⟩

theorem closeTarget_only (s : State) (i : Nat) : OnlyChanges [.fabric] s (closeTarget s i) := only_fabric s _

theorem closeTarget_staging (s : State) (i : Nat) : (closeTarget s i).fabric.staging = s.fabric.staging := rfl

theorem freeFamily_staging (s : State) (i : Nat) : (freeFamily s i).fabric.staging = s.fabric.staging := rfl

theorem serveStream_staged {s : State} {x : Txn} {data : Bytes} (h : sliceWelcome s x = true) (hl : data.length ≤ 65536)
    (hg : ∀ g ∈ s.fabric.staging, sameGroup g x = true → g.stream ≠ none) (i : Nat) :
    serveStream x data s i =
      freeFamily (closeTarget (stageMsg s x x.addr data (some (x.addr % 2 ^ 16, x.addr / 2 ^ 16 % 2 ^ 16, x.group))) i) i := by
  have none_ : s.fabric.staging.any (fun g => sameGroup g x && g.stream.isNone) = false := by
    rw [List.any_eq_false]
    intro g m
    cases hs : sameGroup g x
    · simp
    · simpa using hg g m hs
  unfold serveStream
  rw [h, none_, if_neg (by simp), if_neg (by simpa using hl)]
  rfl

/-! ## SIFT -/

theorem serveSift_notMounted {s : State} {x : Txn} {index : Nat} (h : ∀ q, mounted s x.addr = some q → q.indexId ≠ index) (k : Nat)
    (block : Bytes) (i : Nat) : serveSift x k index block s i = answer s x 8 [] true := by
  unfold serveSift
  split
  · rfl
  · next q hq => exact if_pos (h q hq)

theorem serveSift_bad {s : State} {x : Txn} {index k : Nat} {block : Bytes} {q : IndexSlot} (h : mounted s x.addr = some q)
    (hi : q.indexId = index) (hb : queryBad q true k 0 block.length block = true) (i : Nat) :
    serveSift x k index block s i = answer s x 6 [] true := by
  simp [serveSift, h, hi, hb]

theorem serveSift_opens {s : State} {x : Txn} {index k : Nat} {block : Bytes} {q : IndexSlot} (h : mounted s x.addr = some q)
    (hi : q.indexId = index) (hb : queryBad q true k 0 block.length block = false) (i : Nat) :
    serveSift x k index block s i =
      addSearch s (newSearch s i q ⟨x.addr, k, 0, block.length, true⟩ false true x.bell block true) := by
  simp [serveSift, h, hi, hb]

/-- A search that is opened is one of the searches. -/
theorem addSearch_mem (s : State) (q : Search) : q ∈ (addSearch s q).sifters.searches :=
  List.mem_append_right _ (List.mem_singleton.mpr rfl)

end Sys2Proof.Machine
end

section
/-!
SUPPORT. Each request of another member with the replies that it has (R272, R284, R293 to R297), put together from its service.
-/

namespace Sys2Proof.Machine

/-! ## Arrival -/

/-- The commands by which a request arrives are one meeting, with the data that it brings (R284, R290). -/
theorem exec_request (s : State) (x : Txn) (data : Bytes) (m n k index : Nat) :
    ∀ p ∈ [(Instr.getOp x, 1, [], 0), (.putOp x data, 2, data, 0), (.sealOp x m n, 3, leBytes 4 m ++ leBytes 8 n, 0), (.sendOp x data, 4, data, 0),
        (.siftOp x k index data, 5, leBytes 8 index ++ data, k), (.streamOp x data, 6, data, 0)],
      exec p.1 s = .next (meetTxn s x p.2.1 p.2.2.1 p.2.2.2) := by
  intro p hp
  simp only [List.mem_cons, List.not_mem_nil, or_false] at hp
  obtain rfl | rfl | rfl | rfl | rfl | rfl := hp <;> rfl

/-! ## Services -/

section
variable {s : State} {a : Arrived} {i : Nat} (h : TxnTurn s a i)
include h

theorem serves_get (ht : a.type = 1) :
    (∀ st, windowRefusal s a.x.addr a.x.length false = some st → Serves s a i [(st, [])] []) ∧
    (windowRefusal s a.x.addr a.x.length false = none → windowField s (windowOf a.x.addr).1 1 ≠ 2 →
      Serves s a i [(0, mread s.compute.slm (windowField s (windowOf a.x.addr).1 4 + (windowOf a.x.addr).2) a.x.length)] []) := by
  obtain ⟨v, e, u⟩ := h.taken
  simp only [serveArrived, ht] at e
  have refusal := u.only.reads windowRefusal (fun _ _ _ _ => rfl)
  have field := u.only.reads windowField (fun _ _ _ _ => rfl)
  have slm := u.only.reads (fun s => s.compute.slm) (fun _ _ _ _ => rfl)
  refine ⟨fun st hr => u.answersAtOnce (e.trans (serveGet_refused (by rwa [refusal]) i)), fun hr hk => ?_⟩
  have m := serveGet_memory (s := v) (x := a.x) (by rwa [refusal]) (by rwa [field]) i
  rw [field, slm] at m
  exact u.answersAtOnce (e.trans m)

/-- A GET of a namespace window has its ACCEPT, and a read of flash for its entry runs (R293). -/
theorem serves_getFlash (ht : a.type = 1) {ns : Namespace} (hr : windowRefusal s a.x.addr a.x.length false = none)
    (hk : windowField s (windowOf a.x.addr).1 1 = 2) (hn : nsOf s (windowField s (windowOf a.x.addr).1 3) = some ns)
    (he : rangeError s (windowField s (windowOf a.x.addr).1 3) (windowLbas s (windowOf a.x.addr).1 (windowOf a.x.addr).2 a.x.length).1
      (windowLbas s (windowOf a.x.addr).1 (windowOf a.x.addr).2 a.x.length).2 = none)
    (hl : ledgerDown s (iusOf ns (unitsOf ns (windowLbas s (windowOf a.x.addr).1 (windowOf a.x.addr).2 a.x.length).1
      (windowLbas s (windowOf a.x.addr).1 (windowOf a.x.addr).2 a.x.length).2)) = false) :
    Replies s (served s a i) a.x 1 [(1, 0, [])] ∧ ∃ j ∈ (served s a i).flash.jobs, j.entry = i ∧ j.use = .get ∧
      j.units = unitsOf ns (windowLbas s (windowOf a.x.addr).1 (windowOf a.x.addr).2 a.x.length).1
        (windowLbas s (windowOf a.x.addr).1 (windowOf a.x.addr).2 a.x.length).2 := by
  obtain ⟨v, serve, u⟩ := h.taken
  simp only [serveArrived, ht] at serve
  have refusal := u.only.reads windowRefusal (fun _ _ _ _ => rfl)
  have field := u.only.reads windowField (fun _ _ _ _ => rfl)
  have ns_ := u.only.reads nsOf (fun _ _ _ _ => rfl)
  have lbas := u.only.reads windowLbas (fun _ _ _ _ => rfl)
  have range := u.only.reads rangeError (fun _ _ _ _ => rfl)
  have ledger := u.only.reads ledgerDown (fun _ _ _ _ => rfl)
  have e := serveGet_flash (s := v) (x := a.x) (ns := ns) (by rwa [refusal]) (by rwa [field]) (by rwa [ns_, field])
    (by rwa [range, field, lbas]) (by rwa [ledger, lbas]) i
  dsimp only at e
  rw [lbas] at e
  rw [serve, e]
  refine ⟨?_, readUnits_job _ _ _ _ _ _⟩
  have only := (toLedger_only v i (iusOf ns (unitsOf ns (windowLbas s (windowOf a.x.addr).1 (windowOf a.x.addr).2 a.x.length).1
    (windowLbas s (windowOf a.x.addr).1 (windowOf a.x.addr).2 a.x.length).2))).comp (rs := [.tally, .flash, .counters, .sticky])
    (readUnits_only _ i .get (windowField v (windowOf a.x.addr).1 3) ns (unitsOf ns
      (windowLbas s (windowOf a.x.addr).1 (windowOf a.x.addr).2 a.x.length).1
      (windowLbas s (windowOf a.x.addr).1 (windowOf a.x.addr).2 a.x.length).2))
  have replies := u.replies (rs := []) (only.silent.posts _)
  rw [ht] at replies
  exact replies

theorem serves_put (ht : a.type = 2) (hg : ∀ g ∈ s.fabric.staging, sameGroup g a.x = true → g.stream = none) :
    (∀ st, windowRefusal s a.x.addr a.data.length true = some st →
      Serves s a i [(st, [])] [] ∧ (served s a i).fabric.staging = s.fabric.staging) ∧
    (windowRefusal s a.x.addr a.data.length true = none → Serves s a i [(0, [])] [] ∧
      (∃ g ∈ (served s a i).fabric.staging, sameGroup g a.x = true ∧ g.msgs.getLast? = some (a.x.addr, a.data)) ∧
      (∀ g ∈ s.fabric.staging, sameGroup g a.x = false → g ∈ (served s a i).fabric.staging)) := by
  obtain ⟨v, e, u⟩ := h.taken
  simp only [serveArrived, ht] at e
  have refusal := u.only.reads windowRefusal (fun _ _ _ _ => rfl)
  refine ⟨fun st hr => ?_, fun hr => ?_⟩
  · have r := e.trans (servePut_refused (by rwa [refusal]))
    exact ⟨u.answersAtOnce r, by rw [r, answer_staging, u.staging]⟩
  · have r := e.trans (servePut_staged (by rwa [refusal]) (by rwa [u.staging]))
    obtain ⟨last, others⟩ := stageMsg_staging v a.x a.x.addr a.data none
    rw [u.staging] at others
    refine ⟨u.answers (stageMsg_silent _ _ _ _ _) (stageMsg_targets _ _ _ _ _) (stageMsg_only _ _ _ _ _).undisturbed r, ?_, ?_⟩ <;>
      rw [r, answer_staging]
    · exact last
    · exact others

theorem serves_seal {m n : Nat} {g : StageGroup} (ht : a.type = 3) (hm : m < 2 ^ 32) (hn : n < 2 ^ 64)
    (hd : a.data = leBytes 4 m ++ leBytes 8 n) (hg : groupOfSeal s a.x = some g) :
    ((g.msgs.length ≠ m ∨ (g.msgs.map (fun q => q.2.length)).sum ≠ n) → Serves s a i [(6, [])] [] ∧
      ∀ h ∈ (served s a i).fabric.staging, sameGroup h a.x = false) ∧
    (g.msgs.length = m → (g.msgs.map (fun q => q.2.length)).sum = n → g.stream = none → groupWrites s g = [] →
      Replies s (served s a i) a.x 3 [(1, 0, []), (0, 0, [])] ∧ (served s a i).compute.slm = (g.msgs.foldl commitSlm s).compute.slm ∧
        (∀ h ∈ (served s a i).fabric.staging, sameGroup h a.x = false) ∧ (served s a i).ledger.map = s.ledger.map ∧
        (served s a i).flash.pages = s.flash.pages ∧ OnlyChanges ([.counters, .sticky] ++ completionParts) s (served s a i)) := by
  obtain ⟨v, e, u⟩ := h.taken
  simp only [serveArrived, ht, hd] at e
  rw [fieldAt_left (by omega), fieldAt_right (length_leBytes 4 m) (by omega)] at e
  have group : groupOfSeal v a.x = some g := by rw [groupOfSeal, u.staging]; exact hg
  have quiet := dropGroup_silent v a.x
  have gone := dropGroup_staging v a.x
  have drop := dropGroup_only v a.x
  have targets := dropGroup_targets v a.x
  have writes := u.only.comp (rs := acceptParts) drop |>.reads groupWrites (fun _ _ _ _ => rfl)
  refine ⟨fun hne => ?_, fun hl hb hs hw => ?_⟩
  · have r := e.trans (serveSeal_differs group hne i)
    refine ⟨u.answers quiet targets drop.undisturbed r, ?_⟩
    rw [r, answer_staging]
    exact gone
  · subst hl hb
    have r := e.trans (serveSeal_memory group hs (by rwa [writes]) i)
    generalize dropGroup v a.x = d at *
    have fold := OnlyChanges.foldl commitSlm_only g.msgs d
    have only : OnlyChanges ([.counters, .sticky] ++ completionParts) s (g.msgs.foldl commitSlm d) :=
      (u.only.comp (rs := acceptParts) drop).comp fold
    have slm : (g.msgs.foldl commitSlm d).compute.slm = (g.msgs.foldl commitSlm s).compute.slm := by
      have same := u.only.comp (rs := acceptParts) drop
      exact commitSlm_foldl_slm (same .od (by decide)) (same .ident (by decide)) (congrArg Compute.slm (same .compute (by decide))) g.msgs
    have fabric : (g.msgs.foldl commitSlm d).fabric = d.fabric := fold .fabric (by decide)
    have before : Undisturbed [.counters, .sticky] s d := (u.only.comp (rs := acceptParts) drop).undisturbed
    have ledger : (g.msgs.foldl commitSlm d).ledger = d.ledger := fold .ledger (by decide)
    have flash : (g.msgs.foldl commitSlm d).flash = d.flash := fold .flash (by decide)
    have replies := u.replies (rs := [(0, [])])
      (u.answerPosts (quiet.trans fold.silent) ((congrArg Fabric.targets fabric).trans targets) 0 [])
    rw [ht] at replies
    obtain ⟨-, bmap, bpages, -, -⟩ := before
    obtain ⟨aonly, amap, apages, aslm, -⟩ := answer_undisturbed (g.msgs.foldl commitSlm d) a.x 0 [] true
    rw [r]
    refine ⟨replies, aslm.trans slm, ?_, ?_, ?_, only.trans aonly⟩
    · rw [answer_staging, fabric]
      exact gone
    · rw [amap, ledger, bmap]
    · rw [apages, flash, bpages]

theorem serves_send (ht : a.type = 4) (h1 : windowField s (windowOf a.x.addr).1 1 = 3)
    (h2 : bit (windowField s (windowOf a.x.addr).1 2) 1 = true) (h3 : a.data.length ≤ 4032)
    (h4 : windowField s (windowOf a.x.addr).1 4 + windowField s (windowOf a.x.addr).1 5 ≤ slmSize)
    (h5 : (ringFields s (windowOf a.x.addr).1).2.2 ≠ 0) :
    let w := (windowOf a.x.addr).1
    let r := ringFields s w
    let t := served s a i
    (ringFull r.1 r.2.1 r.2.2 = true → Serves s a i [(11, [])] []) ∧
    (ringFull r.1 r.2.1 r.2.2 = false → Replies s t a.x 4 [(1, 0, []), (0, 0, [])] ∧
      t.compute.slm = mwrite (mwrite s.compute.slm (windowField s w 4 + 4096 * (r.2.1 % r.2.2 + 1))
        (leBytes 4 a.x.src ++ leBytes 4 a.data.length ++ leBytes 8 s.bell.count ++ List.replicate 48 0 ++ a.data))
        (windowField s w 4 + 8) (leBytes 8 (r.2.1 + 1)) ∧
      t.ledger.map = s.ledger.map ∧ t.flash.pages = s.flash.pages ∧ OnlyChanges ([.counters, .sticky] ++ completionParts) s t) := by
  obtain ⟨v, serve, u⟩ := h.taken
  simp only [serveArrived, ht] at serve
  have field := u.only.reads windowField (fun _ _ _ _ => rfl)
  have ring := u.only.reads ringFields (fun _ _ _ _ => rfl)
  have bell : v.bell = s.bell := u.only .bell (by decide)
  have compute : v.compute = s.compute := u.only .compute (by decide)
  have e := serveSend_ring (s := v) (x := a.x) (data := a.data) (by rwa [field]) (by rwa [field]) h3 (by rwa [field]) (by rwa [ring])
  dsimp only at e ⊢
  rw [ring, field, bell, ← serve] at e
  generalize ringFields s (windowOf a.x.addr).1 = r at *
  generalize hat : windowField s (windowOf a.x.addr).1 4 + 4096 * (r.2.1 % r.2.2 + 1) = slot at *
  generalize hmsg : leBytes 4 a.x.src ++ leBytes 4 a.data.length ++ leBytes 8 s.bell.count ++ List.replicate 48 0 ++ a.data = msg at *
  refine ⟨fun hf => ?_, fun hf => ?_⟩
  · rw [if_pos hf] at e
    exact u.answersAtOnce e
  · rw [hf, if_neg (by simp)] at e
    have slm := slmWrite_twice v slot (windowField s (windowOf a.x.addr).1 4 + 8) msg (leBytes 8 (r.2.1 + 1))
    have only := (slmWrite_only v slot msg).trans (slmWrite_only _ (windowField s (windowOf a.x.addr).1 4 + 8) (leBytes 8 (r.2.1 + 1)))
    generalize slmWrite (slmWrite v slot msg) (windowField s (windowOf a.x.addr).1 4 + 8) (leBytes 8 (r.2.1 + 1)) = d at *
    have fabric : d.fabric = v.fabric := only .fabric (by decide)
    have ledger : d.ledger = v.ledger := only .ledger (by decide)
    have flash : d.flash = v.flash := only .flash (by decide)
    have ledger' : v.ledger = s.ledger := u.only .ledger (by decide)
    have flash' : v.flash = s.flash := u.only .flash (by decide)
    have replies := u.replies (rs := [(0, [])]) (u.answerPosts only.silent (congrArg Fabric.targets fabric) 0 [])
    rw [ht, ← e] at replies
    obtain ⟨aonly, amap, apages, aslm, -⟩ := answer_undisturbed d a.x 0 [] true
    rw [← e] at aonly amap apages aslm
    refine ⟨replies, ?_, ?_, ?_, (u.only.comp (rs := [.counters, .sticky] ++ completionParts) only).trans aonly⟩
    · rw [aslm, slm, compute]
    · rw [amap, ledger, ledger']
    · rw [apages, flash, flash']

theorem serves_stream (ht : a.type = 6) :
    (sliceWelcome s a.x = false → Serves s a i [(9, [])] []) ∧
    (sliceWelcome s a.x = true → a.data.length ≤ 65536 → (∀ g ∈ s.fabric.staging, sameGroup g a.x = true → g.stream ≠ none) →
      Serves s a i [] [] ∧ ∃ g ∈ (served s a i).fabric.staging, sameGroup g a.x = true ∧ g.msgs.getLast? = some (a.x.addr, a.data)) := by
  obtain ⟨v, e, u⟩ := h.taken
  simp only [serveArrived, ht] at e
  have welcome := u.only.reads sliceWelcome (fun _ _ _ _ => rfl)
  refine ⟨fun hw => u.answersAtOnce (e.trans (serveStream_refused (by rwa [welcome]) _ i)), fun hw hl hg => ?_⟩
  have r := e.trans (serveStream_staged (by rwa [welcome]) hl (by rwa [u.staging]) i)
  obtain ⟨last, -⟩ := stageMsg_staging v a.x a.x.addr a.data (some (a.x.addr % 2 ^ 16, a.x.addr / 2 ^ 16 % 2 ^ 16, a.x.group))
  have quiet := stageMsg_silent v a.x a.x.addr a.data (some (a.x.addr % 2 ^ 16, a.x.addr / 2 ^ 16 % 2 ^ 16, a.x.group))
  have only := stageMsg_only v a.x a.x.addr a.data (some (a.x.addr % 2 ^ 16, a.x.addr / 2 ^ 16 % 2 ^ 16, a.x.group))
  generalize stageMsg v a.x a.x.addr a.data (some (a.x.addr % 2 ^ 16, a.x.addr / 2 ^ 16 % 2 ^ 16, a.x.group)) = d at *
  refine ⟨u.serves r ((quiet.trans ((closeTarget_silent d i).trans (freeFamily_silent _ i))).posts _) ?_, ?_⟩
  · exact (only.trans (closeTarget_only d i)).undisturbed.trans ((freeFamily_undisturbed _ i).mono (by decide))
  · rw [r, freeFamily_staging, closeTarget_staging]
    exact last

theorem serves_sift {index : Nat} {block : Bytes} (ht : a.type = 5) (hi : index < 2 ^ 64) (hd : a.data = leBytes 8 index ++ block) :
    ((∀ q, mounted s a.x.addr = some q → q.indexId ≠ index) → Serves s a i [(8, [])] []) ∧
    (∀ q, mounted s a.x.addr = some q → q.indexId = index → queryBad q true a.k 0 block.length block = true → Serves s a i [(6, [])] []) ∧
    (∀ q, mounted s a.x.addr = some q → q.indexId = index → queryBad q true a.k 0 block.length block = false → Serves s a i [] [] ∧
      ∃ r ∈ (served s a i).sifters.searches, r.entry = i ∧ r.remote = true ∧ r.k = a.k ∧ r.slot = a.x.addr ∧ r.finalise = a.x.bell ∧
        r.buf = block) := by
  obtain ⟨v, e, u⟩ := h.taken
  simp only [serveArrived, ht, hd] at e
  rw [fieldAt_left (by omega), List.drop_left' (length_leBytes 8 index)] at e
  have slots := u.only.reads mounted (fun _ _ _ _ => rfl)
  refine ⟨fun hq => u.answersAtOnce (e.trans (serveSift_notMounted (by rwa [slots]) _ _ i)), fun q hq hx hb => ?_, fun q hq hx hb => ?_⟩
  · exact u.answersAtOnce (e.trans (serveSift_bad (by rwa [slots]) hx hb i))
  · have r := e.trans (serveSift_opens (by rwa [slots]) hx hb i)
    refine ⟨u.serves r ((addSearch_only v _).silent.posts _) (addSearch_only v _).undisturbed, ?_⟩
    rw [r]
    exact ⟨_, addSearch_mem v _, rfl, rfl, rfl, rfl, rfl, rfl⟩

end

/-! ## The end of a GET, of a record, and of a group -/

theorem dropRead_silent (s : State) (j : ReadJob) : Silent s (dropRead s j) := (dropRead_only s j).silent

/-- The data of a GET goes out as its final reply, UNRECOVERED where a codeword is lost, and its entry is freed (R162, R293). -/
theorem getDone_answers {s : State} {j : ReadJob} {g : TargetTxn}
    (hf : s.fabric.targets.find? (fun g => g.entry = some j.entry) = some g) (hg : targetOf s g.x.src g.x.srcEpoch g.x.tag = some g) :
    Replies s (getDone s j) g.x g.type [if j.lost = [] then (0, 0, j.bytes) else (7, 0, [])] ∧ entryAt (getDone s j) j.entry = none := by
  have ge : g.entry = some j.entry := by simpa using List.find?_some hf
  have record : targetOf (dropRead s j) g.x.src g.x.srcEpoch g.x.tag = some g := hg
  have posts (st : Nat) (data : Bytes) := (dropRead_silent s j).then (answer_posts record st data true)
  have freed (st : Nat) (data : Bytes) : entryAt (answer (dropRead s j) g.x st data true) j.entry = none := by
    simp only [answer, record, ge]
    exact entryAt_freeFamily_self _ _
  unfold getDone
  rw [hf]
  dsimp only
  refine ⟨?_, freed _ _⟩
  have p := (posts (if j.lost = [] then 0 else fabricCode .unrecoveredRead) (if j.lost = [] then j.bytes else [])).2
  rw [(dropRead_silent s j).sameWays.replyHeader] at p
  unfold Replies
  convert p using 2
  split <;> rfl

/-- The record of a request that has been answered and has no entry goes at its time and not before (R284). -/
theorem exec_repeatRecordExpiry {s : State} {source epoch tag : Nat} {g : TargetTxn} (hs : stopped s = false)
    (hg : targetOf s source epoch tag = some g) (hn : g.entry = none) (hr : g.replied = true) :
    exec (.repeatRecordExpiry source epoch tag) s =
      if s.bell.ticks < g.expiry + 4 * retryBells s source then .next s
      else .next { s with fabric := { s.fabric with targets := s.fabric.targets.filter (fun u => u ≠ g) } } := by
  change execRepeatRecordExpiry source epoch tag s = _
  simp [execRepeatRecordExpiry, hg, hs, hn, hr]

/-- A group with no SEAL is discarded and counted at its time and not before (R294). -/
theorem exec_stagingTimeout {s : State} {source epoch group : Nat} {g : StageGroup} (hs : stopped s = false)
    (hg : s.fabric.staging.find? (fun g => g.src = source && g.epoch = epoch && g.group = group) = some g) :
    exec (.stagingTimeout source epoch group) s =
      if s.bell.ticks < g.since + odVal s 0x2902 8 then .next s
      else .next (count { s with fabric := { s.fabric with
        staging := s.fabric.staging.filter (fun g => !(g.src = source && g.epoch = epoch && g.group = group)) } } 0x6014 3 1) := by
  change execStagingTimeout source epoch group s = _
  simp only [execStagingTimeout, hg, hs, Bool.false_or, decide_eq_true_eq]

/-- A group that is discarded leaves the staging alone; its messages reach no memory. -/
theorem stagingDiscarded (s : State) (f : StageGroup → Bool) :
    let t := count { s with fabric := { s.fabric with staging := s.fabric.staging.filter f } } 0x6014 3 1
    t.fabric.staging = s.fabric.staging.filter f ∧ t.compute = s.compute ∧ OnlyChanges [.fabric, .counters, .sticky] s t := by
  have c := count_only { s with fabric := { s.fabric with staging := s.fabric.staging.filter f } } 0x6014 3 1
  have fabric : (count { s with fabric := { s.fabric with staging := s.fabric.staging.filter f } } 0x6014 3 1).fabric =
    { s.fabric with staging := s.fabric.staging.filter f } := c .fabric (by decide)
  exact ⟨congrArg Fabric.staging fabric, c .compute (by decide), (only_fabric s _).comp c⟩

end Sys2Proof.Machine

open Sys2Proof Sys2Proof.Machine in
/-- Settles O55: a request is met by its epoch, its record and the membership, served once after its ACCEPT, and its record and group end at
their times. -/
theorem requestsAreServedOnce : Obligations.RequestsAreServedOnce := by
  unfold Obligations.RequestsAreServedOnce
  refine ⟨fun s x data m n k index h p hp => ?_, fun s x data hs hport hguild hawake hd p hp => ?_, fun s x h hs hj => ?_, fun s a h => ?_,
    fun s a i h => ?_, fun s j g hf hg => getDone_answers hf hg, fun s source epoch tag g hs hg hn hr => ?_,
    fun s source epoch group g hs hg => ?_⟩
  · have e := exec_request s x data m n k index p hp
    obtain ⟨c, type, d, q⟩ := p
    dsimp only at e ⊢
    have inGuild (hm : s.fabric.member = .active ∨ s.fabric.member = .paused) : s.fabric.member ≠ .solo ∧ s.fabric.member ≠ .joining := by
      rcases hm with hm | hm <;> simp [hm]
    refine ⟨fun hm he => ?_, fun he hn => ⟨fun hm => ?_, fun hm => ?_⟩, fun hm he g hg hr => ?_⟩
    · obtain ⟨hs, hj⟩ := inGuild hm
      rw [meetTxn_staleEpoch h hs hj he] at e
      exact ⟨_, e, sendReply_replies s x type 4 0, sendReply_only _ _ _ _ _ _⟩
    · rw [meetTxn_paused h hm he hn] at e
      exact ⟨_, e, sendReply_replies s x type 2 _, sendReply_only _ _ _ _ _ _⟩
    · rw [meetTxn_active h hm he hn] at e
      exact ⟨_, _, _, e, rfl, rfl, rfl, rfl, rfl, rfl, rfl, rfl, rfl, rfl, rfl, rfl, rfl, (only_fabric s _).comp (await_only _ _)⟩
    · obtain ⟨hs, hj⟩ := inGuild hm
      rw [meetTxn_repeat h hs hj he hg hr] at e
      exact ⟨_, e, repeatAnswered s g _ _⟩
  · have e : exec p.1 s = .next (forward s x p.2.1 p.2.2) := by
      simp only [List.mem_cons, List.not_mem_nil, or_false] at hp
      obtain rfl | rfl | rfl := hp <;> exact congrArg Host.Outcome.next (meetTxn_elsewhere hs hport hguild hawake hd _ _ _)
    refine ⟨fun hh => ?_, fun q d hh hc => ?_⟩
    · rw [e, forward, if_pos hh]
    · rw [forward_queues hh hc] at e
      obtain ⟨m, hm, ht, hdata, hx⟩ := queueMsg_port s q (some x.port = some (otherWay q) && !d)
        { x with hops := x.hops + 1, detour := x.detour || d } p.2.1 0 p.2.2
      exact ⟨_, m, e, hm, ht, hdata, hx, queueMsg_onlyPort _ _ _ _ _ _ _, queueMsg_only _ _ _ _ _ _ _⟩
  · exact ⟨_, exec_controlProbe h hs hj, sendReply_replies s x 8 _ 0, sendReply_only _ _ _ _ _ _⟩
  · obtain ⟨replies, gone, arrived⟩ := dropArrived_found h
    exact ⟨replies, gone, arrived, dropArrived_only _ _ _⟩
  · dsimp only
    refine ⟨fun ht => ?_, serves_put h, fun m n g ht hm hn hd hg => serves_seal h ht hm hn hd hg,
      fun ht h1 h2 h3 h4 h5 => serves_send h ht h1 h2 h3 h4 h5, serves_stream h, fun index block ht hi hd => serves_sift h ht hi hd⟩
    obtain ⟨refused, memory⟩ := serves_get h ht
    exact ⟨refused, memory, fun ns hr hk hn he hl => serves_getFlash h ht hr hk hn he hl⟩
  · rw [exec_repeatRecordExpiry hs hg hn hr]
    exact ⟨fun hl => if_neg (by omega), fun hl => if_pos hl⟩
  · rw [exec_stagingTimeout hs hg]
    refine ⟨fun hl => ?_, fun hl => if_pos hl⟩
    rw [if_neg (by omega)]
    exact ⟨_, rfl, stagingDiscarded s _⟩
end

section
/-!
SUPPORT. Requests of this member (R31, R284, R303, R305, R443, Table 12.7): their records, what goes out, what a reply does, and how they end.
-/

namespace Sys2Proof.Machine

/-! ## The record of a request -/

theorem origOf_tag {s : State} {tag : Nat} {o : OrigTxn} (h : origOf s tag = some o) : o.x.tag = tag := by
  simpa using List.find?_some h

theorem origOf_congr {s t : State} (h : t.fabric.originated = s.fabric.originated) (tag : Nat) : origOf t tag = origOf s tag := by
  simp only [origOf, h]

theorem OnlyChanges.origOf {ps : List Part} {s t : State} (a : OnlyChanges ps s t) (tag : Nat) (h : .fabric ∉ ps := by decide) :
    origOf t tag = origOf s tag := origOf_congr (congrArg Fabric.originated (a .fabric h)) tag

/-- A change of a record that keeps its tag is what is found there. -/
theorem origOf_origMod {s : State} {tag : Nat} {o : OrigTxn} (f : OrigTxn → OrigTxn) (h : origOf s tag = some o)
    (hf : ∀ p, (f p).x.tag = tag ∨ p.x.tag ≠ tag) : origOf (origMod s tag f) tag = some (f o) := by
  unfold origOf origMod
  dsimp only
  rw [find?_map_key]
  · unfold origOf at h
    rw [h, Option.map_some, if_pos (by simpa using List.find?_some h)]
  · intro p
    by_cases hp : p.x.tag = tag
    · have := (hf p).resolve_right (not_not.mpr hp)
      simp [hp, this]
    · simp [hp]

theorem sendMsg_originated (s : State) (x : Txn) (type status : Nat) (data : List Nat) :
    (sendMsg s x type status data).fabric.originated = s.fabric.originated := by
  unfold sendMsg routeMsg
  split
  · rfl
  · exact congrArg Fabric.originated (count_only s 0x6014 4 1 .fabric (by decide))

theorem setState_silent (s : State) (i : Nat) (st : EState) : Silent s (setState s i st) := (setState_only s i st).silent

theorem setRunning_silent (s : State) (i : Nat) : Silent s (setRunning s i) := (setRunning_only s i).silent

/-! ## What goes out -/

/-- A request that goes out for the first time waits on its port, and its record has the time (R284). -/
theorem sendFirst_sends {s : State} {o : OrigTxn} (h : origOf s o.x.tag = some o) :
    Sends s (sendFirst s o) o.x.dst [(o.x, o.type, 0, o.data)] ∧
      origOf (sendFirst s o) o.x.tag = some { o with sentBell := s.bell.ticks } := by
  have tally := (setRunning_only s o.entry).trans (setState_only (setRunning s o.entry) o.entry .waiting)
  have bell : (setState (setRunning s o.entry) o.entry .waiting).bell = s.bell := tally .bell (by decide)
  have found : origOf (setState (setRunning s o.entry) o.entry .waiting) o.x.tag = some o := (tally.origOf _).trans h
  have quiet := tally.silent.trans
    (origMod_silent _ o.x.tag (fun o => { o with sentBell := (setState (setRunning s o.entry) o.entry .waiting).bell.ticks }))
  unfold sendFirst
  dsimp only
  rw [bell]
  refine ⟨(((tally.silent).trans (origMod_silent _ _ _)).then (sendMsg_posts _ o.x o.type 0 o.data)).2, ?_⟩
  rw [origOf_congr (sendMsg_originated _ _ _ _ _)]
  exact origOf_origMod _ found (fun p => (em (p.x.tag = o.x.tag)))

theorem launch_active {s : State} {o : OrigTxn} (h : (peerOf s o.x.dst).st = .active ∨ ((peerOf s o.x.dst).st = .paused ∧ o.purpose = 6)) :
    launch s o = sendFirst s o := by
  unfold launch
  rcases h with h | ⟨h, hp⟩
  · simp only [h]
  · simp only [h, hp, if_true]

theorem launch_gone {s : State} {o : OrigTxn} (h : (peerOf s o.x.dst).st = .absent ∨ (peerOf s o.x.dst).st = .lost) :
    launch s o = failOrig s o .memberLost 0 1 := by
  unfold launch
  rcases h with h | h <;> simp only [h]

/-- The request as it is sent again, its try raised or not (R284, R305). -/
def again (o : OrigTxn) (raise : Bool) : Txn := if raise then { o.x with tryNo := o.x.tryNo + 1 } else o.x

/-- A request that is sent again waits on its port, HELD no more (R284, R305). -/
theorem resend_posts {s : State} {o : OrigTxn} (h : origOf s o.x.tag = some o) (raise : Bool) :
    Posts o.x.dst [(again o raise, o.type, 0, o.data)] s (resend s o raise) ∧
      origOf (resend s o raise) o.x.tag = some { o with
        x := again o raise, heldUntil := none, sentBell := s.bell.ticks, tries := if raise then o.tries + 1 else o.tries } := by
  have tally := setState_only s o.entry .waiting
  have bell : (setState s o.entry .waiting).bell = s.bell := tally .bell (by decide)
  have found : origOf (setState s o.entry .waiting) o.x.tag = some o := (tally.origOf _).trans h
  have tag : (again o raise).tag = o.x.tag := by cases raise <;> rfl
  have dst : (again o raise).dst = o.x.dst := by cases raise <;> rfl
  have e : resend s o raise = sendMsg (origMod (setState s o.entry .waiting) o.x.tag (fun p => { p with
      x := again o raise, heldUntil := none, sentBell := s.bell.ticks, tries := if raise then p.tries + 1 else p.tries }))
      (again o raise) o.type 0 o.data := by
    unfold resend again
    dsimp only
    rw [bell]
  rw [e]
  refine ⟨?_, ?_⟩
  · have posts := (tally.silent.trans (origMod_silent (setState s o.entry .waiting) o.x.tag (fun p => { p with
      x := again o raise, heldUntil := none, sentBell := s.bell.ticks, tries := if raise then p.tries + 1 else p.tries }))).then
      (sendMsg_posts _ (again o raise) o.type 0 o.data)
    rw [dst] at posts
    exact posts
  · rw [origOf_congr (sendMsg_originated _ _ _ _ _)]
    exact origOf_origMod _ found (fun p => .inl tag)

theorem resend_only (s : State) (o : OrigTxn) (raise : Bool) :
    OnlyChanges [.fabric, .tally, .counters, .sticky] s (resend s o raise) :=
  ((setState_only s o.entry .waiting).comp (rs := [.fabric, .tally]) (origMod_only _ _ _)).comp (sendMsg_only _ _ _ _ _)

/-! ## How a request ends -/

theorem dropOrig_undisturbed (s : State) (o : OrigTxn) : Undisturbed [] s (dropOrig s o) := by
  have drop := only_fabric s { s.fabric with originated := s.fabric.originated.filter (fun p => p.x.tag ≠ o.x.tag) }
  unfold dropOrig
  dsimp only
  split
  · exact (drop.comp (rs := [.fabric, .tally]) (only_tally _ _)).undisturbed
  · exact drop.undisturbed.trans (freeFamily_undisturbed _ _)

/-- No record stands under the tag of a request that has ended, whatever ends with it. -/
theorem dropOrig_gone (s : State) (o : OrigTxn) : ∀ p ∈ (dropOrig s o).fabric.originated, p.x.tag ≠ o.x.tag := by
  intro p hp
  unfold dropOrig at hp
  dsimp only at hp
  split at hp
  · simpa using (List.mem_filter.mp hp).2
  · simpa using (List.mem_filter.mp (List.mem_filter.mp hp).1).2

/-- An entry that is not under the request's own stands on when the request is dropped. -/
theorem dropOrig_entryAt {s : State} {o : OrigTxn} {i : Nat} (h : o.entry = noEntry ∨ i ∉ family s o.entry) :
    entryAt (dropOrig s o) i = entryAt s i := by
  unfold dropOrig
  dsimp only
  split
  · rfl
  · next hn =>
    have f := entryAt_freeFamily
      { s with fabric := { s.fabric with originated := s.fabric.originated.filter (fun p => p.x.tag ≠ o.x.tag) } } o.entry i
    exact f.trans (if_neg (h.resolve_left hn))

theorem rootOf_root {s : State} {i : Nat} {e : Entry} (h : entryAt s i = some e) (hp : e.parent = none) (n : Nat) : rootOf s n i = i := by
  cases n <;> simp [rootOf, h, hp]

theorem TallyOk.root {s : State} {i sq cid : Nat} {e : Entry} (t : TallyOk s) (h : entryAt s i = some e) (ho : e.origin = .host sq cid) :
    e.parent = none := by
  obtain ⟨-, roots, -⟩ := t
  exact roots _ (tget_mem h) (by simp [ho, Origin.kind])

theorem finish_originated (s : State) (i : Nat) (st : Status) (dw0 dw1 : Nat) :
    ∀ p ∈ (finish s i st dw0 dw1).fabric.originated, p ∈ s.fabric.originated := by
  have free (k : Nat) : ∀ p ∈ (freeFamily s k).fabric.originated, p ∈ s.fabric.originated := fun p hp => (List.mem_filter.mp hp).1
  unfold finish finishData
  split
  · exact fun p hp => hp
  · split
    · split
      · exact fun p hp => hp
      · exact free i
    · exact free i

theorem origOf_none {s : State} {tag : Nat} (h : ∀ p ∈ s.fabric.originated, p.x.tag ≠ tag) : origOf s tag = none := by
  simpa [origOf] using h

/-- A command whose request has been dropped completes with the status that ends it, and no record of the request is left. -/
theorem finish_dropOrig {s : State} {o : OrigTxn} {sq cid : Nat} (h : Stands s sq cid o.parent)
    (hf : o.entry = noEntry ∨ o.parent ∉ family s o.entry) (st : Status) (dw0 dw1 : Nat) :
    let t := finish (dropOrig s o) o.parent st dw0 dw1
    Completes s t sq cid [] st dw0 dw1 ∧ origOf t o.x.tag = none ∧ Undisturbed [] s t := by
  obtain ⟨e, he, ho, hr⟩ := h.entry
  refine ⟨completes_finish h.found ((dropOrig_entryAt hf).trans he) ho hr st dw0 dw1, origOf_none (fun p hp => ?_),
    (dropOrig_undisturbed s o).trans (finish_undisturbed _ _ _ _ _)⟩
  exact dropOrig_gone s o p (finish_originated _ _ _ _ _ p hp)

theorem failOrig_finish {s : State} {o : OrigTxn} {sq cid : Nat} (hp : o.purpose ≠ 3) (ht : TallyOk s) (h : Stands s sq cid o.parent)
    (hf : o.entry = noEntry ∨ o.parent ∉ family s o.entry) (st : Status) (dw0 reason : Nat) :
    failOrig s o st dw0 reason = finish (dropOrig s o) o.parent st dw0 0 := by
  obtain ⟨e, he, ho, -⟩ := h.entry
  have he' := (dropOrig_entryAt hf).trans he
  unfold failOrig
  dsimp only
  rw [if_neg hp]
  exact failRequest_host (rootOf_root he' (ht.root he ho) 4) he' ho st dw0

/-- A request that fails completes its host command (Table 12.7, R18). -/
theorem failOrig_completes {s : State} {o : OrigTxn} {sq cid : Nat} (hp : o.purpose ≠ 3) (ht : TallyOk s) (h : Stands s sq cid o.parent)
    (hf : o.entry = noEntry ∨ o.parent ∉ family s o.entry) (st : Status) (dw0 reason : Nat) :
    let t := failOrig s o st dw0 reason
    Completes s t sq cid [] st dw0 0 ∧ origOf t o.x.tag = none ∧ Undisturbed [] s t := by
  dsimp only
  rw [failOrig_finish hp ht h hf]
  exact finish_dropOrig h hf st dw0 0

/-! ## Replies -/

/-- The SIFT requests out, without one that has its reply. -/
def noteReply (s : State) (x : Txn) : State :=
  { s with fabric := { s.fabric with sifts := s.fabric.sifts.filter (fun p => p ≠ (x.src, x.tag)) } }

theorem noteReply_only (s : State) (x : Txn) : OnlyChanges [.fabric] s (noteReply s x) := only_fabric s _

/-- A reply to a request that stands is applied under the peer table's epoch, and counted as late under another (R31). -/
theorem exec_transactionReply {s : State} {x : Txn} {o : OrigTxn} (h : TxnHere s x) (ho : origOf s x.tag = some o) (hd : o.x.dst = x.src)
    (kind status : Nat) (data : Bytes) :
    exec (.transactionReply x ⟨kind, status⟩ data) s =
      .next (if (peerOf s x.src).epoch ≠ x.srcEpoch then count (noteReply s x) (0x6100 + porterOf x.port) 2 1
        else applyReply (noteReply s x) o status x.bell data) := by
  obtain ⟨hup, hport, hguild, -, hhere⟩ := h
  have found : origOf (noteReply s x) x.tag = some o := ho
  change execTransactionReply x ⟨kind, status⟩ data s = _
  unfold execTransactionReply
  rw [if_neg (by simp [hup, hport, hguild]), if_neg (by simp [hhere])]
  dsimp only
  change (match origOf (noteReply s x) x.tag with | none => _ | some o => _) = _
  rw [found]
  by_cases he : (peerOf s x.src).epoch = x.srcEpoch
  · rw [if_neg (not_not.mpr he)]
    exact if_neg (fun c => ((Bool.or_eq_true _ _).mp c).elim (fun k => absurd hd (of_decide_eq_true k)) (fun k => absurd he (of_decide_eq_true k)))
  · rw [if_pos he]
    exact if_pos ((Bool.or_eq_true _ _).mpr (.inr (decide_eq_true he)))

/-- The count of late replies of a porter is one that wraps at 64 bits (R388, Table 16.14). -/
theorem count_late {s : State} (hm : s.ident.meshed = true) (port : Nat) :
    counterVal (count s (0x6100 + porterOf port) 2 1) (0x6100 + porterOf port) 2 =
      wrap 64 (counterVal s (0x6100 + porterOf port) 2 + 1) := by
  have class_ : counterClass (0x6100 + porterOf port) 2 = some .wraps := by
    unfold porterOf
    split <;> rfl
  simp [count, counterDead, hm, class_, counterVal, tgetD]

end Sys2Proof.Machine
end

section
/-!
SUPPORT. What the replies of a request do (R31, R305, Table 12.7), and the Subsystem Local Memory commands and Guild Ping (R291, R292, R310).
-/

namespace Sys2Proof.Machine

/-! ## Replies by their status -/

theorem accepted_marks {s : State} {o : OrigTxn} (h1 : o.purpose ≠ 1) (h4 : o.purpose ≠ 4) :
    accepted s o = origMod s o.x.tag (fun o => { o with accepted := true, full := 0 }) := by
  unfold accepted
  dsimp only
  rw [if_neg h4, if_neg h1]

/-- A PAUSED reply within the limits holds the request (R305). -/
theorem holdOrig_holds {s : State} {o : OrigTxn} {r : Nat} (hp : o.purpose ≠ 3)
    (hd : ∀ e, entryAt s (rootOf s 4 o.parent) = some e → e.deadline = 0) (hl : r - s.bell.count ≤ odVal s 0x2902 7) :
    holdOrig s o r = setState (origMod s o.x.tag (fun o => { o with heldUntil := some r })) o.entry .held := by
  unfold holdOrig
  dsimp only
  rw [if_neg hp]
  refine if_neg ?_
  cases he : entryAt s (rootOf s 4 o.parent) with
  | none => simp [hp, Nat.not_lt.mpr hl]
  | some e => simp [hp, Nat.not_lt.mpr hl, hd e he]

theorem fullReply_waits {s : State} {o : OrigTxn} (h : o.full < odVal s 0x2046 0) :
    fullReply s o = origMod s o.x.tag (fun o => { o with full := o.full + 1, heldUntil := some (s.bell.count + 1) }) := if_neg (by omega)

/-- The failures of Table 12.7 are one end of the request. -/
theorem applyReply_fails (s : State) (o : OrigTxn) (bell : Nat) (data : Bytes) :
    ∀ p ∈ [(4, Status.memberLost), (5, .invalidField), (6, .invalidField), (7, .unrecoveredRead), (8, .invalidField), (9, .streamParked),
        (10, .unitReset), (11, .dataTransferError)], ∃ reason, applyReply s o p.1 bell data = failOrig s o p.2 0 reason := by
  intro p hp
  simp only [List.mem_cons, List.not_mem_nil, or_false] at hp
  obtain rfl | rfl | rfl | rfl | rfl | rfl | rfl | rfl := hp <;> exact ⟨_, rfl⟩

/-- The reply of a PING ends its command with the round trip and the hops (R310). -/
theorem okReply_ping {s : State} {o : OrigTxn} (hp : o.purpose = 6) (data : Bytes) :
    okReply s o data = finish (dropOrig (drawFree s).2 o) o.parent .success ((drawFree s).1 % 2 ^ 32)
      (hopsBetween (drawFree s).2 (drawFree s).2.fabric.memberId o.x.dst) := by
  simp only [okReply, hp]

/-! ## Requests that a command makes -/

/-- A request of this member is new, or none: no other record goes, and nothing else of the fabric but the tags. -/
structure Originates (s t : State) : Prop where
  only : OnlyChanges [.fabric, .tally] s t
  kept : ∀ o ∈ s.fabric.originated, o ∈ t.fabric.originated
  remotes : t.fabric.remotes = s.fabric.remotes
  nextGroup : t.fabric.nextGroup = s.fabric.nextGroup

theorem Originates.refl (s : State) : Originates s s := ⟨.refl _ s, fun _ h => h, rfl, rfl⟩

theorem Originates.trans {s t u : State} (a : Originates s t) (b : Originates t u) : Originates s u :=
  ⟨a.only.trans b.only, fun o h => b.kept o (a.kept o h), b.remotes.trans a.remotes, b.nextGroup.trans a.nextGroup⟩

theorem originate_originates (s : State) (parent type dst addr bell group purpose : Nat) (data : Bytes) (len : Nat) :
    Originates s (originate s parent type dst addr bell group purpose data len).2 := by
  unfold originate
  dsimp only
  split
  · exact .refl s
  · exact ⟨(only_fabric s _).comp (await_only _ _), fun o h => List.mem_append_left _ h, rfl, rfl⟩

/-- A request whose parent stands has a record with its header (R292). -/
theorem originate_record {s : State} {parent : Nat} {e : Entry} (h : entryAt s parent = some e) (type dst addr bell group purpose : Nat)
    (data : Bytes) (len : Nat) :
    ∃ o ∈ (originate s parent type dst addr bell group purpose data len).2.fabric.originated, o.parent = parent ∧ o.type = type ∧
      o.purpose = purpose ∧ o.data = data ∧ o.x.dst = dst ∧ o.x.addr = addr ∧ o.x.length = len ∧ o.x.group = group := by
  unfold originate
  dsimp only
  rw [if_neg (by simp [h])]
  exact ⟨_, List.mem_append_right _ (List.mem_singleton.mpr rfl), rfl, rfl, rfl, rfl, rfl, rfl, rfl, rfl⟩

/-- The first of the pieces begins at 0. -/
theorem pieces_first {len : Nat} (h : 0 < len) (n : Nat) : ∃ rest, pieces (n + 1) len = (0, min len 65536) :: rest := by
  obtain ⟨k, rfl⟩ := Nat.exists_eq_succ_of_ne_zero (Nat.pos_iff_ne_zero.mp h)
  simp only [pieces]
  split
  · next hl => exact ⟨[], by rw [Nat.min_eq_left hl]⟩
  · next hl => exact ⟨_, by rw [Nat.min_eq_right (by omega)]⟩

/-- While a Remote waits for its requests nothing is done. -/
theorem remoteGoesOn_waits {s : State} {rs : List Remote} {r : Remote} (hr : s.fabric.remotes = rs ++ [r])
    (hn : ∀ q ∈ rs, q.entry ≠ r.entry) (hl : r.left ≠ []) (ha : r.sealMsg ≠ none → r.accepts ≠ []) : remoteGoesOn s r.entry = s := by
  have found : s.fabric.remotes.find? (fun q => q.entry = r.entry) = some r := by
    rw [hr, List.find?_append, List.find?_eq_none.mpr (fun q hq => by simpa using hn q hq)]
    simp
  unfold remoteGoesOn
  rw [found]
  dsimp only
  split
  · next m hm => exact if_pos (ha (by simp [hm]))
  · exact if_neg hl

/-! ## Transfers through the aperture -/

/-- The entry `i` waits for the requests of its Remote `r`; the next group is `g`. -/
def beginTransfer (s : State) (i g : Nat) (r : Remote) : State :=
  { setState s i .waiting with fabric := { s.fabric with nextGroup := g, remotes := s.fabric.remotes ++ [r] } }

theorem beginTransfer_only (s : State) (i g : Nat) (r : Remote) : OnlyChanges [.fabric, .tally] s (beginTransfer s i g r) :=
  (setState_only s i .waiting).comp (only_fabric _ _)

/-- The requests of a transfer go one by one, and after the last of them nothing is done before a reply comes (R292). -/
theorem transfer_asked {s : State} {i g : Nat} {r : Remote} (hi : r.entry = i) (hn : ∀ q ∈ s.fabric.remotes, q.entry ≠ i) (hl : r.left ≠ [])
    (ha : r.sealMsg ≠ none → r.accepts ≠ []) {f : State → Nat × Nat → State} (hf : ∀ s x, Originates s (f s x)) (p : Nat × Nat)
    (rest : List (Nat × Nat)) :
    let b := beginTransfer s i g r
    let t := remoteGoesOn ((p :: rest).foldl f b) i
    OnlyChanges [.fabric, .tally] s t ∧ t.fabric.nextGroup = g ∧ ∀ o ∈ (f b p).fabric.originated, o ∈ t.fabric.originated := by
  subst hi
  have first := hf (beginTransfer s r.entry g r) p
  have others := foldl_rel Originates.refl (fun _ _ _ => .trans) hf rest (f (beginTransfer s r.entry g r) p)
  have all := first.trans others
  dsimp only
  rw [List.foldl_cons, remoteGoesOn_waits (all.remotes.trans rfl) hn hl ha]
  exact ⟨(beginTransfer_only s _ g r).trans all.only, all.nextGroup, others.kept⟩

/-- Ask a member for one piece of a read (R292). -/
def askGet (i addr : Nat) (s : State) (p : Nat × Nat) : State :=
  (originate s i 1 (apertureMember addr) (addr % 2 ^ 46 + p.1) 0 0 0 [] p.2).2

/-- Send a member one piece of a write in the group `g` (R292). -/
def askPut (i addr g : Nat) (data : Bytes) (s : State) (p : Nat × Nat) : State :=
  (originate s i 2 (apertureMember addr) (addr % 2 ^ 46 + p.1) 0 g 1 (slice data p.1 p.2) p.2).2

/-- The tags that the requests of a transfer take. -/
def transferTags (s : State) (n : Nat) : List Nat := (List.range n).map (fun k => (s.fabric.nextTag + k) % 2 ^ 23)

theorem remoteRead_eq (s : State) (i addr len : Nat) (dst : Option Nat) :
    remoteRead s i addr len dst = remoteGoesOn ((pieces (len / 65536 + 1) len).foldl (askGet i addr)
      (beginTransfer s i s.fabric.nextGroup ⟨i, transferTags s (pieces (len / 65536 + 1) len).length, [], none, [], dst⟩)) i := rfl

theorem remoteWrite_eq (s : State) (i addr : Nat) (data : Bytes) :
    let parts := pieces (data.length / 65536 + 1) data.length
    remoteWrite s i addr data = remoteGoesOn (parts.foldl (askPut i addr s.fabric.nextGroup data)
      (beginTransfer s i ((s.fabric.nextGroup + 1) % 2 ^ 32) ⟨i, transferTags s parts.length, transferTags s parts.length,
        some (apertureMember addr, s.fabric.nextGroup, parts.length, data.length), [], none⟩)) i := rfl

/-- Bytes from the start of a string. -/
theorem slice_take (b : Bytes) : slice b 0 (min b.length 65536) = b.take 65536 := by
  refine List.ext_getElem (by simp [slice, Nat.min_comm]) (fun k h1 h2 => ?_)
  have : k < b.length := by simp at h2; omega
  simp [slice, this]

section
variable {s : State} {i : Nat} {e : Entry} (he : entryAt s i = some e) (hn : ∀ r ∈ s.fabric.remotes, r.entry ≠ i)
include he hn

/-- A read through the aperture asks for its first piece (R292). -/
theorem remoteRead_asks (addr : Nat) {len : Nat} (hl : 0 < len) (dst : Option Nat) :
    ∃ o ∈ (remoteRead s i addr len dst).fabric.originated, o.parent = i ∧ o.type = 1 ∧ o.x.dst = apertureMember addr ∧
      o.x.addr = addr % 2 ^ 46 ∧ o.x.length = min len 65536 ∧ OnlyChanges [.fabric, .tally] s (remoteRead s i addr len dst) := by
  obtain ⟨rest, hp⟩ := pieces_first hl (len / 65536)
  rw [remoteRead_eq, hp]
  obtain ⟨only, -, kept⟩ := transfer_asked (g := s.fabric.nextGroup)
    (r := ⟨i, transferTags s ((0, min len 65536) :: rest).length, [], none, [], dst⟩) rfl hn (by simp [transferTags]) (by simp)
    (f := askGet i addr) (fun _ _ => originate_originates _ _ _ _ _ _ _ _ _ _) (0, min len 65536) rest
  obtain ⟨o, ho, hpar, ht, -, -, hd, ha, hlen, -⟩ := originate_record (s := beginTransfer s i s.fabric.nextGroup
    ⟨i, transferTags s ((0, min len 65536) :: rest).length, [], none, [], dst⟩) (setState_entryAt .waiting he) 1 (apertureMember addr)
    (addr % 2 ^ 46 + 0) 0 0 0 [] (min len 65536)
  exact ⟨o, kept o ho, hpar, ht, hd, ha, hlen, only⟩

/-- A write through the aperture sends its first piece, under a new group (R292). -/
theorem remoteWrite_asks (addr : Nat) {data : Bytes} (hl : data ≠ []) :
    ∃ o ∈ (remoteWrite s i addr data).fabric.originated, o.parent = i ∧ o.type = 2 ∧ o.x.dst = apertureMember addr ∧
      o.x.addr = addr % 2 ^ 46 ∧ o.x.group = s.fabric.nextGroup ∧ o.data = data.take 65536 ∧
      (remoteWrite s i addr data).fabric.nextGroup = (s.fabric.nextGroup + 1) % 2 ^ 32 ∧
      OnlyChanges [.fabric, .tally] s (remoteWrite s i addr data) := by
  obtain ⟨rest, hp⟩ := pieces_first (List.length_pos_of_ne_nil hl) (data.length / 65536)
  rw [remoteWrite_eq, hp]
  generalize hr : (⟨i, transferTags s ((0, min data.length 65536) :: rest).length,
    transferTags s ((0, min data.length 65536) :: rest).length,
    some (apertureMember addr, s.fabric.nextGroup, ((0, min data.length 65536) :: rest).length, data.length), [], none⟩ : Remote) = r
  obtain ⟨only, group, kept⟩ := transfer_asked (g := (s.fabric.nextGroup + 1) % 2 ^ 32) (r := r) (by rw [← hr]) hn
    (by rw [← hr]; simp [transferTags]) (by rw [← hr]; simp [transferTags])
    (f := askPut i addr s.fabric.nextGroup data) (fun _ _ => originate_originates _ _ _ _ _ _ _ _ _ _) (0, min data.length 65536) rest
  obtain ⟨o, ho, hpar, ht, -, hdata, hd, ha, -, hg⟩ := originate_record (s := beginTransfer s i ((s.fabric.nextGroup + 1) % 2 ^ 32) r)
    (setState_entryAt .waiting he) 2 (apertureMember addr) (addr % 2 ^ 46 + 0) 0 s.fabric.nextGroup 1
    (slice data 0 (min data.length 65536)) (min data.length 65536)
  exact ⟨o, kept o ho, hpar, ht, hd, ha, hg, hdata.trans (slice_take data), group, only⟩

end

end Sys2Proof.Machine
end

section
/-!
SUPPORT. The Subsystem Local Memory commands and Guild Ping at their turn (R291, R292, R310).
-/

namespace Sys2Proof.Machine

/-! ## Local memory -/

/-- A command that writes memory and ends has changed the bytes written, and disturbed nothing else. -/
theorem finish_slmWrite {s : State} {h : HostId} {i : Nat} (t : IoTurn s h i) (addr : Nat) (data : Bytes) :
    let u := finish (slmWrite (setRunning s i) addr data) i .success 0 0
    Completes s u h.sq h.cid [] .success 0 0 ∧ u.compute.slm = mwrite s.compute.slm addr data ∧ u.ledger.map = s.ledger.map ∧
      u.flash.pages = s.flash.pages ∧ OnlyChanges completionParts s u := by
  obtain ⟨e, he, ho, -⟩ := t.fresh
  obtain ⟨d, hd⟩ := entryAt_setRunning he
  obtain ⟨ronly, rmap, rpages, rslm, -⟩ := setRunning_undisturbed s i
  obtain ⟨fonly, fmap, fpages, fslm, -⟩ := finish_undisturbed (slmWrite (setRunning s i) addr data) i .success 0 0
  refine ⟨completes_finish t.found (u := slmWrite (setRunning s i) addr data) hd ho (by simp) .success 0 0, ?_, fmap.trans rmap,
    fpages.trans rpages, (ronly.comp (rs := completionParts) (slmWrite_only _ _ _)).trans fonly⟩
  rw [fslm, ← rslm]
  rfl

/-- A command that reads memory and ends has its bytes for the host. -/
theorem finish_slmRead {s : State} {h : HostId} {i : Nat} (t : IoTurn s h i) (data : Bytes) :
    let u := finishData (setRunning s i) i .success 0 0 data false
    Completes s u h.sq h.cid data .success 0 0 ∧ Undisturbed [] s u := by
  obtain ⟨e, he, ho, -⟩ := t.fresh
  obtain ⟨d, hd⟩ := entryAt_setRunning he
  exact ⟨ends_finishData t.found hd ho (by simp) _ _ _ _ _, (setRunning_undisturbed s i).trans (finishData_undisturbed _ _ _ _ _ _ _)⟩

theorem IoTurn.refused {s : State} {h : HostId} {i : Nat} (t : IoTurn s h i) (st : Status) :
    Completes s (finish (setRunning s i) i st 0 0) h.sq h.cid [] st 0 0 ∧ Undisturbed [] s (finish (setRunning s i) i st 0 0) :=
  ⟨t.completes st 0 0, finish_running_undisturbed s i st 0 0⟩

/-! ## The commands at their turn -/

theorem memberCount_congr {s t : State} (h : t.fabric = s.fabric) : memberCount t = memberCount s := by
  simp only [memberCount, dimStride, dimSize_congr (congrArg Fabric.dims h)]

theorem apertureBad_congr {s t : State} (hf : t.fabric = s.fabric) (hi : t.ident = s.ident) (addr len : Nat) :
    apertureBad t addr len = apertureBad s addr len := by
  simp only [apertureBad, memberCount_congr hf, hf, hi]

theorem apertureBad_setRunning (s : State) (i addr len : Nat) : apertureBad (setRunning s i) addr len = apertureBad s addr len :=
  apertureBad_congr (setRunning_fabric s i) (setRunning_only s i .ident (by decide)) addr len

section
variable {s : State} {h : HostId} {i : Nat} (t : IoTurn s h i)
include t

theorem exec_memoryRead (addr len : Nat) :
    exec (.memoryRead h addr len) s = .next (
      if isAperture addr then
        (if apertureBad s addr len then finish (setRunning s i) i .invalidField 0 0 else remoteRead (setRunning s i) i addr len none)
      else if slmOutside addr len then finish (setRunning s i) i .invalidField 0 0
      else finishData (setRunning s i) i .success 0 0 (mread s.compute.slm addr len) false) := by
  have compute : (setRunning s i).compute = s.compute := setRunning_only s i .compute (by decide)
  change execMemoryRead h addr len s = _
  rw [execMemoryRead, serveIo_turn t, apertureBad_setRunning, compute]

theorem exec_memoryWrite (addr : Nat) (data : Bytes) :
    exec (.memoryWrite h addr data) s = .next (
      if isAperture addr then
        (if apertureBad s addr data.length then finish (setRunning s i) i .invalidField 0 0 else remoteWrite (setRunning s i) i addr data)
      else if slmOutside addr data.length then finish (setRunning s i) i .invalidField 0 0
      else finish (slmWrite (setRunning s i) addr data) i .success 0 0) := by
  change execMemoryWrite h addr data s = _
  rw [execMemoryWrite, serveIo_turn t, apertureBad_setRunning]

theorem exec_memoryCopy_local {dst src : Nat} (hd : isAperture dst = false) (hs : isAperture src = false) (len : Nat) :
    exec (.memoryCopy h dst src len) s = .next (
      if s.ident.meshed || slmOutside dst len || slmOutside src len then finish (setRunning s i) i .invalidField 0 0
      else finish (slmWrite (setRunning s i) dst (mread s.compute.slm src len)) i .success 0 0) := by
  have ident : (setRunning s i).ident = s.ident := setRunning_only s i .ident (by decide)
  have compute : (setRunning s i).compute = s.compute := setRunning_only s i .compute (by decide)
  change execMemoryCopy h dst src len s = _
  simp only [execMemoryCopy, serveIo_turn t, hd, hs, ident, compute]

theorem memoryRead_local {addr : Nat} (ha : isAperture addr = false) (len : Nat) :
    (slmSize < addr + len → ∃ u, exec (.memoryRead h addr len) s = .next u ∧ Completes s u h.sq h.cid [] .invalidField 0 0 ∧
      Undisturbed [] s u) ∧
    (addr + len ≤ slmSize → ∃ u, exec (.memoryRead h addr len) s = .next u ∧
      Completes s u h.sq h.cid (mread s.compute.slm addr len) .success 0 0 ∧ Undisturbed [] s u) := by
  rw [exec_memoryRead t, ha, if_neg (by simp)]
  refine ⟨fun ho => ⟨_, congrArg _ (if_pos (decide_eq_true ho)), t.refused _⟩, fun hi => ⟨_, congrArg _ (if_neg ?_), finish_slmRead t _⟩⟩
  simpa [slmOutside] using hi

theorem memoryWrite_local {addr : Nat} (ha : isAperture addr = false) (data : Bytes) :
    (slmSize < addr + data.length → ∃ u, exec (.memoryWrite h addr data) s = .next u ∧ Completes s u h.sq h.cid [] .invalidField 0 0 ∧
      Undisturbed [] s u) ∧
    (addr + data.length ≤ slmSize → ∃ u, exec (.memoryWrite h addr data) s = .next u ∧ Completes s u h.sq h.cid [] .success 0 0 ∧
      u.compute.slm = mwrite s.compute.slm addr data ∧ u.ledger.map = s.ledger.map ∧ u.flash.pages = s.flash.pages ∧
      OnlyChanges completionParts s u) := by
  rw [exec_memoryWrite t, ha, if_neg (by simp)]
  refine ⟨fun ho => ⟨_, congrArg _ (if_pos (decide_eq_true ho)), t.refused _⟩, fun hi => ⟨_, congrArg _ (if_neg ?_), finish_slmWrite t _ _⟩⟩
  simpa [slmOutside] using hi

theorem memoryCopy_local {dst src : Nat} (hd : isAperture dst = false) (hs : isAperture src = false) (len : Nat) :
    ((s.ident.meshed = true ∨ slmSize < dst + len ∨ slmSize < src + len) → ∃ u, exec (.memoryCopy h dst src len) s = .next u ∧
      Completes s u h.sq h.cid [] .invalidField 0 0 ∧ Undisturbed [] s u) ∧
    (s.ident.meshed = false → dst + len ≤ slmSize → src + len ≤ slmSize → ∃ u, exec (.memoryCopy h dst src len) s = .next u ∧
      Completes s u h.sq h.cid [] .success 0 0 ∧ u.compute.slm = mwrite s.compute.slm dst (mread s.compute.slm src len) ∧
      u.ledger.map = s.ledger.map ∧ u.flash.pages = s.flash.pages ∧ OnlyChanges completionParts s u) := by
  rw [exec_memoryCopy_local t hd hs]
  refine ⟨fun hr => ⟨_, congrArg _ (if_pos ?_), t.refused _⟩, fun hm h1 h2 => ⟨_, congrArg _ (if_neg ?_), finish_slmWrite t _ _⟩⟩
  · simpa [slmOutside, or_assoc] using hr
  · simp [slmOutside, hm, h1, h2]

/-- An access that R291 refuses gives Invalid Field. -/
theorem memory_apertureBad {addr len : Nat} (ha : isAperture addr = true) (hb : apertureBad s addr len = true) :
    (∃ u, exec (.memoryRead h addr len) s = .next u ∧ Completes s u h.sq h.cid [] .invalidField 0 0 ∧ Undisturbed [] s u) ∧
    ∀ data : Bytes, data.length = len →
      ∃ u, exec (.memoryWrite h addr data) s = .next u ∧ Completes s u h.sq h.cid [] .invalidField 0 0 ∧ Undisturbed [] s u := by
  refine ⟨⟨_, ?_, t.refused _⟩, fun data hl => ⟨_, ?_, t.refused _⟩⟩
  · rw [exec_memoryRead t, if_pos ha, if_pos hb]
  · rw [exec_memoryWrite t, if_pos ha, hl, if_pos hb]

theorem memoryRead_aperture {addr len : Nat} (ha : isAperture addr = true) (hb : apertureBad s addr len = false) (hl : 0 < len)
    (hn : ∀ r ∈ s.fabric.remotes, r.entry ≠ i) :
    ∃ u o, exec (.memoryRead h addr len) s = .next u ∧ o ∈ u.fabric.originated ∧ o.parent = i ∧ o.type = 1 ∧
      o.x.dst = apertureMember addr ∧ o.x.addr = addr % 2 ^ 46 ∧ o.x.length = min len 65536 ∧ OnlyChanges [.fabric, .tally] s u := by
  obtain ⟨e, he, -⟩ := t.fresh
  obtain ⟨d, hd⟩ := entryAt_setRunning he
  obtain ⟨o, ho, hpar, ht, hdst, haddr, hlen, only⟩ := remoteRead_asks hd (by rwa [setRunning_fabric]) addr hl none
  refine ⟨_, o, ?_, ho, hpar, ht, hdst, haddr, hlen, (setRunning_only s i).comp only⟩
  rw [exec_memoryRead t, if_pos ha, hb, if_neg (by simp)]

theorem memoryWrite_aperture {addr : Nat} {data : Bytes} (ha : isAperture addr = true) (hb : apertureBad s addr data.length = false)
    (hl : data ≠ []) (hn : ∀ r ∈ s.fabric.remotes, r.entry ≠ i) :
    ∃ u o, exec (.memoryWrite h addr data) s = .next u ∧ o ∈ u.fabric.originated ∧ o.parent = i ∧ o.type = 2 ∧
      o.x.dst = apertureMember addr ∧ o.x.addr = addr % 2 ^ 46 ∧ o.x.group = s.fabric.nextGroup ∧ o.data = data.take 65536 ∧
      u.fabric.nextGroup = (s.fabric.nextGroup + 1) % 2 ^ 32 ∧ OnlyChanges [.fabric, .tally] s u := by
  obtain ⟨e, he, -⟩ := t.fresh
  obtain ⟨d, hd⟩ := entryAt_setRunning he
  obtain ⟨o, ho, hpar, ht, hdst, haddr, hg, hdata, hnext, only⟩ := remoteWrite_asks hd (by rwa [setRunning_fabric]) addr hl
  rw [setRunning_fabric] at hg hnext
  refine ⟨_, o, ?_, ho, hpar, ht, hdst, haddr, hg, hdata, hnext, (setRunning_only s i).comp only⟩
  rw [exec_memoryWrite t, if_pos ha, hb, if_neg (by simp)]

end

/-! ## Guild Ping -/

theorem exec_guildPing {s : State} {h : HostId} {i : Nat} (t : AdminTurn s h i) (hr : h.reservedOk = true) (member : Nat) :
    exec (.guildPing h member) s = .next (
      if s.ident.meshed = false then finish (setRunning s i) i .invalidOpcode 0 0
      else if memberCount s ≤ member ∨ member = s.fabric.memberId then finish (setRunning s i) i .invalidField 0 0
      else (originate (setState (setRunning s i) i .waiting) i 8 member Control.probe.code 0 0 6 [] 0).2) := by
  have ident : (setRunning s i).ident = s.ident := setRunning_only s i .ident (by decide)
  change execGuildPing h member s = _
  rw [execGuildPing, serveGuild, serveVendorAdmin_turn t hr]
  simp only [ident, memberCount_congr (setRunning_fabric s i), setRunning_fabric, Bool.not_eq_true']

theorem AdminTurn.refused {s : State} {h : HostId} {i : Nat} (t : AdminTurn s h i) (st : Status) :
    Completes s (finish (setRunning s i) i st 0 0) h.sq h.cid [] st 0 0 ∧ Undisturbed [] s (finish (setRunning s i) i st 0 0) :=
  ⟨t.completes st 0 0, finish_running_undisturbed s i st 0 0⟩

/-- Guild Ping asks the member with a PROBE of its own (R303, R310). -/
theorem guildPing_asks {s : State} {h : HostId} {i : Nat} (t : AdminTurn s h i) (member : Nat) :
    let u := (originate (setState (setRunning s i) i .waiting) i 8 member Control.probe.code 0 0 6 [] 0).2
    ∃ o, o ∈ u.fabric.originated ∧ o.parent = i ∧ o.purpose = 6 ∧ o.x.dst = member ∧ o.type = 8 ∧ o.x.addr = Control.probe.code ∧
      OnlyChanges [.fabric, .tally] s u := by
  obtain ⟨e, he, -⟩ := t.fresh
  obtain ⟨d, hd⟩ := entryAt_setRunning he
  obtain ⟨o, ho, hpar, ht, hp, -, hdst, haddr, -⟩ := originate_record (setState_entryAt .waiting hd) 8 member Control.probe.code 0 0 6 [] 0
  exact ⟨o, ho, hpar, hp, hdst, ht, haddr,
    ((setRunning_only s i).trans (setState_only _ i .waiting)).comp (originate_originates _ _ _ _ _ _ _ _ _ _).only⟩

/-! ## Retries and holds -/

/-- The unit whose count of retries a request has: the porter of the port that it leaves by. -/
def retryUnit (s : State) (o : OrigTxn) : Nat := match choosePort s o.x.dst none with | some (p, _) => porterOf p | none => 5

theorem exec_e2eRetryTimeout {s : State} {tag : Nat} {o : OrigTxn} (hs : stopped s = false) (ho : origOf s tag = some o)
    (ha : o.accepted = false) (hh : o.heldUntil = none) (he : o.entry ≠ noEntry) (hb : o.sentBell + retryBells s o.x.dst ≤ s.bell.ticks) :
    exec (.e2eRetryTimeout tag) s =
      if odVal s 0x2902 2 ≤ o.tries + 1 then .next (failOrig (count s 0x6014 2 1) o .memberLost 0 1)
      else .next (resend (count s (0x6100 + retryUnit s o) 4 1) o true) := by
  change execE2eRetryTimeout tag s = _
  unfold execE2eRetryTimeout
  rw [ho]
  dsimp only
  rw [if_neg (by simp [hs, ha, hh, he, hb])]
  rfl

theorem exec_heldResend {s : State} {tag r : Nat} {o : OrigTxn} (hs : stopped s = false) (ho : origOf s tag = some o)
    (hh : o.heldUntil = some r) (hp : s.dev.state ≠ .paused) :
    (s.bell.count < r → exec (.heldResend tag) s = .next s) ∧
    (r ≤ s.bell.count → ((peerOf s o.x.dst).st = .active ∨ (peerOf s o.x.dst).st = .paused) →
      exec (.heldResend tag) s = .next (resend s o false)) := by
  change (_ → execHeldResend tag s = _) ∧ (_ → _ → execHeldResend tag s = _)
  simp only [execHeldResend, ho, hh]
  refine ⟨fun hl => if_pos (by simp [hl]), fun hl ha => ?_⟩
  rw [if_neg (by simp [hs, hp, hl])]
  rcases ha with ha | ha <;> rw [ha]

/-- Counting leaves the records, the tally and the time of a request as they are. -/
theorem count_resend {s : State} {o : OrigTxn} (h : origOf s o.x.tag = some o) (idx sub : Nat) :
    Sends s (resend (count s idx sub 1) o true) o.x.dst [(again o true, o.type, 0, o.data)] ∧
      origOf (resend (count s idx sub 1) o true) o.x.tag = some { o with
        x := again o true, heldUntil := none, sentBell := s.bell.ticks, tries := o.tries + 1 } := by
  have c := count_only s idx sub 1
  have bell : (count s idx sub 1).bell = s.bell := c .bell (by decide)
  obtain ⟨posts, found⟩ := resend_posts ((c.origOf _).trans h) true
  rw [bell] at found
  exact ⟨((count_silent s idx sub 1).then posts).2, found⟩

/-- Counting leaves what a failed request ends. -/
theorem count_failOrig {s : State} {o : OrigTxn} {sq cid : Nat} (hp : o.purpose ≠ 3) (ht : TallyOk s) (h : Stands s sq cid o.parent)
    (hf : o.parent ∉ family s o.entry) (idx sub : Nat) (st : Status) (reason : Nat) :
    let t := failOrig (count s idx sub 1) o st 0 reason
    Completes s t sq cid [] st 0 0 ∧ Undisturbed [.counters, .sticky] s t := by
  have c := count_only s idx sub 1
  have tally : (count s idx sub 1).tally = s.tally := c .tally (by decide)
  have ok : TallyOk (count s idx sub 1) := by unfold TallyOk; rwa [tally]
  have found : findHost (count s idx sub 1) sq cid = findHost s sq cid := by simp only [findHost, tally]
  have stands : Stands (count s idx sub 1) sq cid o.parent :=
    ⟨found.trans h.found, by simp only [entryAt, tally]; exact h.entry⟩
  have fam : family (count s idx sub 1) o.entry = family s o.entry := by simp only [family, tally]
  obtain ⟨⟨i, e, hfi, rest⟩, -, und⟩ := failOrig_completes hp ok stands (.inr (by rwa [fam])) st 0 reason
  exact ⟨⟨i, e, found.symm.trans hfi, rest⟩, c.undisturbed.trans (und.mono (by decide))⟩

/-! ## The reply of a request that stands -/

section
variable {s : State} {x : Txn} {o : OrigTxn} (h : TxnHere s x) (ho : origOf s x.tag = some o) (hd : o.x.dst = x.src)
include h ho hd

theorem reply_late (he : (peerOf s x.src).epoch ≠ x.srcEpoch) (kind status : Nat) (data : Bytes) :
    ∃ t, exec (.transactionReply x ⟨kind, status⟩ data) s = .next t ∧ t.fabric.originated = s.fabric.originated ∧
      (s.ident.meshed = true → counterVal t (0x6100 + porterOf x.port) 2 = wrap 64 (counterVal s (0x6100 + porterOf x.port) 2 + 1)) ∧
      OnlyChanges [.fabric, .counters, .sticky] s t := by
  have c := count_only (noteReply s x) (0x6100 + porterOf x.port) 2 1
  refine ⟨_, (exec_transactionReply h ho hd kind status data).trans (congrArg _ (if_pos he)), ?_, fun hm => ?_,
    (noteReply_only s x).comp c⟩
  · have fabric : (count (noteReply s x) (0x6100 + porterOf x.port) 2 1).fabric = (noteReply s x).fabric := c .fabric (by decide)
    rw [fabric]
    rfl
  · exact count_late (s := noteReply s x) hm x.port

theorem reply_current (he : (peerOf s x.src).epoch = x.srcEpoch) (kind status : Nat) (data : Bytes) :
    exec (.transactionReply x ⟨kind, status⟩ data) s = .next (applyReply (noteReply s x) o status x.bell data) :=
  (exec_transactionReply h ho hd kind status data).trans (congrArg _ (if_neg (not_not.mpr he)))

end

theorem routeFrom_congr {s t : State} (h : t.fabric.dims = s.fabric.dims) (n m y : Nat) : routeFrom t n m y = routeFrom s n m y := by
  have next (m : Nat) : nextPort t m y = nextPort s m y := by simp only [nextPort, coordOf_congr h, dimSize_congr h]
  induction n generalizing m with
  | zero => rfl
  | succ n ih => simp only [routeFrom, next, ih, neighbourOf_congr h]

theorem hopsBetween_congr {s t : State} (h : t.fabric.dims = s.fabric.dims) (m y : Nat) : hopsBetween t m y = hopsBetween s m y := by
  simp only [hopsBetween, routeFrom_congr h]

/-- The reply of a PING completes its command with the round trip and the hops (R310). -/
theorem okReply_completes {s : State} {o : OrigTxn} {sq cid : Nat} (h6 : o.purpose = 6) (h : Stands s sq cid o.parent)
    (hf : o.entry = noEntry ∨ o.parent ∉ family s o.entry) (data : Bytes) :
    ∃ ns, Completes s (okReply s o data) sq cid [] .success ns (hopsBetween s s.fabric.memberId o.x.dst) ∧ ns < 2 ^ 32 ∧
      origOf (okReply s o data) o.x.tag = none ∧ Undisturbed [.free] s (okReply s o data) := by
  have free := drawFree_only s
  have tally : (drawFree s).2.tally = s.tally := free .tally (by decide)
  have fabric : (drawFree s).2.fabric = s.fabric := free .fabric (by decide)
  have found : findHost (drawFree s).2 sq cid = findHost s sq cid := by simp only [findHost, tally]
  have stands : Stands (drawFree s).2 sq cid o.parent := ⟨found.trans h.found, by simp only [entryAt, tally]; exact h.entry⟩
  have fam : family (drawFree s).2 o.entry = family s o.entry := by simp only [family, tally]
  obtain ⟨⟨i, e, hfi, rest⟩, gone, und⟩ := finish_dropOrig stands (o := o) (by rwa [fam]) .success ((drawFree s).1 % 2 ^ 32)
    (hopsBetween s s.fabric.memberId o.x.dst)
  rw [okReply_ping h6, hopsBetween_congr (congrArg Fabric.dims fabric), fabric]
  exact ⟨_, ⟨i, e, found.symm.trans hfi, rest⟩, Nat.mod_lt _ (by decide), gone, free.undisturbed.trans (und.mono (by decide))⟩

/-- What changes the record of the request alone finds it changed, and the ports as they were. -/
theorem origMod_noted {s : State} {x : Txn} {o : OrigTxn} (ho : origOf s x.tag = some o) (f : OrigTxn → OrigTxn)
    (hf : ∀ p, (f p).x.tag = p.x.tag) :
    let t := origMod (noteReply s x) o.x.tag f
    ∃ q, origOf t x.tag = some q ∧ q = f o ∧ t.fabric.ports = s.fabric.ports ∧ OnlyChanges [.fabric] s t := by
  have tag := origOf_tag ho
  refine ⟨f o, ?_, rfl, rfl, (noteReply_only s x).trans (origMod_only _ _ _)⟩
  rw [tag]
  refine origOf_origMod f (s := noteReply s x) ho (fun p => ?_)
  rw [hf]
  exact em _

end Sys2Proof.Machine

open Sys2Proof Sys2Proof.Machine in
/-- Settles O56: a request goes out, is answered, held, sent again or failed by its record; the memory commands and Guild Ping end at once or
make the first request. -/
theorem originatedRequestsEnd : Obligations.OriginatedRequestsEnd := by
  unfold Obligations.OriginatedRequestsEnd
  refine ⟨fun s o ho => ⟨fun hp => ?_, fun hp h3 ht sq cid h hf => ?_⟩, fun s x kind data o h ho hd => ⟨fun status he => ?_, fun he => ⟨?_, ?_, ?_, ?_⟩⟩,
    fun s tag o hs ho => ⟨fun ha hh hn hb => ⟨fun ht => ?_, fun ht sq cid hl h3 h hf => ?_⟩, fun r hh hp => ?_⟩, fun s h i t => ?_,
    fun s h i member t hr => ?_⟩
  · rw [launch_active hp]
    obtain ⟨sends, found⟩ := sendFirst_sends ho
    exact ⟨sends, _, found, rfl⟩
  · rw [launch_gone hp]
    exact (failOrig_completes h3 ht h hf .memberLost 0 1).1
  · exact reply_late h ho hd he kind status data
  · intro h1 h4
    obtain ⟨q, found, hq, ports, only⟩ := origMod_noted ho (fun o => { o with accepted := true, full := 0 }) (fun _ => rfl)
    exact ⟨_, q, (reply_current h ho hd he kind 1 data).trans (congrArg _ (accepted_marks h1 h4)), found, hq, ports, only⟩
  · intro h3 hdl hb
    obtain ⟨q, found, hq, ports, only⟩ := origMod_noted ho (fun o => { o with heldUntil := some x.bell }) (fun _ => rfl)
    have held := setState_only (origMod (noteReply s x) o.x.tag (fun o => { o with heldUntil := some x.bell })) o.entry .held
    refine ⟨_, q, (reply_current h ho hd he kind 2 data).trans (congrArg _ (holdOrig_holds (s := noteReply s x) h3 hdl hb)),
      (held.origOf _).trans found, hq, ?_, only.comp held⟩
    exact (held.silent).ports.trans ports
  · intro hfull
    obtain ⟨q, found, hq, ports, only⟩ := origMod_noted ho
      (fun o => { o with full := o.full + 1, heldUntil := some (s.bell.count + 1) }) (fun _ => rfl)
    exact ⟨_, q, (reply_current h ho hd he kind 3 data).trans (congrArg _ (fullReply_waits (s := noteReply s x) hfull)), found, hq, ports, only⟩
  · intro ht sq cid hst hf
    have tag := origOf_tag ho
    have noted : Undisturbed [] s (noteReply s x) := (noteReply_only s x).undisturbed
    refine ⟨fun h3 p hp => ?_, fun h6 => ?_⟩
    · obtain ⟨reason, e⟩ := applyReply_fails (noteReply s x) o x.bell data p hp
      obtain ⟨completes, gone, und⟩ := failOrig_completes (s := noteReply s x) h3 ht ⟨hst.found, hst.entry⟩ hf p.2 0 reason
      rw [tag] at gone
      exact ⟨_, (reply_current h ho hd he kind p.1 data).trans (congrArg _ e), completes, gone, noted.trans und⟩
    · obtain ⟨ns, completes, lt, gone, und⟩ := okReply_completes (s := noteReply s x) h6 ⟨hst.found, hst.entry⟩ hf data
      rw [tag] at gone
      rw [hd] at completes
      rw [hopsBetween_congr (s := s) (t := noteReply s x) rfl] at completes
      exact ⟨_, ns, reply_current h ho hd he kind 0 data, completes, lt, gone, (noted.mono (by decide)).trans und⟩
  · have e := exec_e2eRetryTimeout hs ho ha hh hn hb
    have tag_ := origOf_tag ho
    rw [← tag_] at ho
    obtain ⟨sends, found⟩ := count_resend ho (0x6100 + retryUnit s o) 4
    rw [tag_] at found
    exact ⟨_, _, e.trans (if_neg (by omega)), found, rfl, rfl, rfl, sends, (count_only s _ _ _).comp (resend_only _ _ _)⟩
  · have e := exec_e2eRetryTimeout hs ho ha hh hn hb
    exact ⟨_, e.trans (if_pos hl), count_failOrig h3 ht h hf 0x6014 2 .memberLost 1⟩
  · obtain ⟨waits, goes⟩ := exec_heldResend hs ho hh hp
    have tag_ := origOf_tag ho
    rw [← tag_] at ho
    obtain ⟨posts, found⟩ := resend_posts ho false
    rw [tag_] at found
    exact ⟨waits, fun hr ha => ⟨_, _, goes hr ha, found, rfl, rfl, rfl, rfl, posts.2, resend_only _ _ _⟩⟩
  · exact ⟨fun addr len ha => memoryRead_local t ha len, fun addr data ha => memoryWrite_local t ha data,
      fun dst src len hd hsrc => memoryCopy_local t hd hsrc len, fun addr len ha hb => memory_apertureBad t ha hb,
      fun addr len ha hb hl hn => memoryRead_aperture t ha hb hl hn, fun addr data ha hb hl hn => memoryWrite_aperture t ha hb hl hn⟩
  · have e := exec_guildPing t hr member
    refine ⟨fun hm => ⟨_, e.trans (congrArg _ (if_pos hm)), t.refused _⟩, fun hm hb => ⟨_, e.trans (congrArg _ ?_), t.refused _⟩,
      fun hm h1 h2 => ?_⟩
    · rw [if_neg (by simp [hm]), if_pos hb]
    · obtain ⟨o, asks⟩ := guildPing_asks t member
      refine ⟨_, o, e.trans (congrArg _ ?_), asks⟩
      rw [if_neg (by simp [hm]), if_neg (by omega)]
end

section
/-!
SUPPORT. The expiry of the Milny watchdog that waits for a chime boundary (R327), and the refutation of O9: a held request that has no answer
yet is not discarded.
-/

namespace Sys2Proof.Machine

theorem raiseRecord_milny (s : State) (r : Record) : (raiseRecord s r).milny = s.milny := raiseRecord_only s r .milny (by decide)

theorem setLocate_milny (s : State) (v : Nat) : (setLocate s v).milny = s.milny := by
  unfold setLocate
  split
  · rfl
  · rfl

theorem releasePen_milny (s : State) : (releasePen s).milny = s.milny := releasePen_only s .milny (by decide)

/-- R327 discards a held answer alone: a request without one stays held. -/
theorem expire_held (s : State) : (expire s).milny.held = s.milny.held.filter (fun x => x.answer.isNone) := by
  have counted : (count s 0x6010 6 1).milny = s.milny := count_only s _ _ _ .milny (by decide)
  simp only [expire, raiseRecord_milny, apply_ite State.milny, releasePen_milny, setLocate_milny, counted, ite_self]

/-- A FROZEN drive in which an expiry waits for the chime boundary while the station holds a read that has no answer yet. -/
def expiryOverUnansweredRead : State :=
  { State.reset with
    dev := { State.reset.dev with state := .frozen }
    milny := { Milny.reset with
      watch := .expired, expiryDue := true
      held := some ⟨1, ⟨1, 0x1000, 0, false, false, 0, 0, 4, true, true, []⟩, none, none, false, false⟩ } }

/-- The boundary of that drive runs the expiry and nothing else. -/
theorem chimeBoundary_expiryOverUnansweredRead :
    exec .chimeBoundary expiryOverUnansweredRead =
      .next (expire { expiryOverUnansweredRead with bell := { expiryOverUnansweredRead.bell with chime := 1 } }) := rfl

end Sys2Proof.Machine

open Sys2Proof Sys2Proof.Machine in
/-- Refutes O9: in a drive that is stopped, an expiry of the watchdog at its boundary discards a held answer (R327), but a request that has
no answer yet stays held, so `held` is not `none` afterwards. -/
theorem not_chimeBoundaryRunsTheMainDomain : ¬ Obligations.ChimeBoundaryRunsTheMainDomain := by
  unfold Obligations.ChimeBoundaryRunsTheMainDomain
  rintro ⟨-, stoppedCase, -⟩
  obtain ⟨t, ht, -, -, -, expired, -⟩ := stoppedCase expiryOverUnansweredRead rfl (by decide) rfl
  rw [chimeBoundary_expiryOverUnansweredRead] at ht
  cases ht
  obtain ⟨gone, -⟩ := expired rfl
  rw [expire_held] at gone
  exact absurd gone (by decide)
end

section
/-!
SUPPORT. A tunnel command at its turn: the state in which the steward serves it, and how it ends there (R43, R55, R58).
-/

namespace Sys2Proof.Machine

/-! ## The entry of a command that runs -/

theorem tget_of_mem {α : Type} {t : Table α} {k : Nat} {v : α} (hr : keysRising t = true) (h : (k, v) ∈ t) : tget t k = some v := by
  induction t with
  | nil => cases h
  | cons q t ih =>
    obtain ⟨b, y⟩ := q
    obtain ⟨above, ht⟩ := (keysRising_cons b y t).mp hr
    rcases List.mem_cons.mp h with e | hm
    · cases e; simp [tget]
    · have lt : b < k := above _ hm
      simp [tget, show k ≠ b by omega, ih ht hm]

/-- A map of the tally that keeps what `findHost` looks at keeps what it finds. -/
theorem findHost_map {s t : State} (f : Nat × Entry → Nat × Entry) (ht : t.tally.entries = s.tally.entries.map f) (sq cid : Nat)
    (hk : ∀ p, (f p).1 = p.1)
    (hf : ∀ p ∈ s.tally.entries, (((f p).2.origin = .host sq cid && (f p).2.state ≠ .replying) : Bool) =
      (p.2.origin = .host sq cid && p.2.state ≠ .replying)) : findHost t sq cid = findHost s sq cid := by
  unfold findHost
  rw [ht]
  generalize s.tally.entries = l at hf
  induction l with
  | nil => rfl
  | cons p l ih =>
    have hp := hf p (List.mem_cons_self ..)
    have hl := ih (fun q hq => hf q (List.mem_cons_of_mem _ hq))
    simp only [List.map_cons, List.find?_cons, hp]
    split
    · simp [hk]
    · exact hl

theorem findHost_markDispatched (n : Nat) (s : State) (i sq cid : Nat) :
    findHost (markDispatched s n i) sq cid = findHost s sq cid := by
  have dispatch (s : State) (i : Nat) : findHost (entryMod s i (fun e => { e with dispatched := true })) sq cid = findHost s sq cid :=
    findHost_map _ rfl sq cid (fun p => by split <;> rfl) (fun p _ => by split <;> rfl)
  induction n generalizing s i with
  | zero => rfl
  | succ n ih =>
    unfold markDispatched
    split
    · rfl
    · dsimp only
      split
      · exact dispatch s i
      · exact (ih _ _).trans (dispatch s i)

/-- The entry that `findHost` finds has not ended. -/
theorem findHost_state {s : State} {sq cid i : Nat} {e : Entry} (ht : TallyOk s) (hf : findHost s sq cid = some i)
    (he : entryAt s i = some e) : e.state ≠ .replying := by
  obtain ⟨rising, -, -⟩ := ht
  obtain ⟨⟨k, x⟩, hp, hk⟩ := Option.map_eq_some_iff.mp hf
  cases hk
  have hx : e = x := Option.some.inj (he.symm.trans (tget_of_mem rising (List.mem_of_find?_eq_some hp)))
  have holds := List.find?_some hp
  simp only [Bool.and_eq_true, decide_eq_true_eq] at holds
  exact hx ▸ holds.2

theorem AdminTurn.findHost_setRunning {s : State} {h : HostId} {i : Nat} (t : AdminTurn s h i) (sq cid : Nat) :
    findHost (setRunning s i) sq cid = findHost s sq cid := by
  obtain ⟨e, he, -⟩ := t.fresh
  have stands := findHost_state t.tally t.found he
  obtain ⟨rising, -, -⟩ := t.tally
  refine (findHost_markDispatched 4 _ i sq cid).trans (findHost_map _ rfl sq cid (fun p => by split <;> rfl) (fun p hp => ?_))
  split
  · next hk =>
    have hx : p.2 = e := Option.some.inj ((tget_of_mem rising (by rw [← hk]; exact hp)).symm.trans he)
    simp [hx, stands]
  · rfl

/-! ## The steward serves -/

theorem atSteward_only (s : State) (i : Nat) : OnlyChanges [.tally, .steward, .pen] s (atSteward s i) := by
  have served (t : State) (n : Nat) : OnlyChanges [.tally, .steward, .pen] t { t with steward := { t.steward with served := n } } :=
    fun p h => by cases p <;> first | exact absurd (by decide) h | rfl
  have idle (t : State) (x : Pen) : OnlyChanges [.tally, .steward, .pen] t { t with pen := x } :=
    fun p h => by cases p <;> first | exact absurd (by decide) h | rfl
  have run := ((setRunning_only s i).mono (by decide)).trans (served (setRunning s i) ((setRunning s i).steward.served + 1))
  unfold atSteward
  dsimp only
  split
  · exact run.trans (idle _ _)
  · exact run

theorem atSteward_undisturbed (s : State) (i : Nat) : Undisturbed [.steward, .pen] s (atSteward s i) :=
  (atSteward_only s i).undisturbed

/-- Beside the count of the served requests the steward stands, and of the pen only the idle count differs. -/
theorem atSteward_fields (s : State) (i : Nat) :
    (atSteward s i).steward = { s.steward with served := s.steward.served + 1 } ∧ (atSteward s i).pen.holder = s.pen.holder ∧
    (atSteward s i).pen.serial = s.pen.serial ∧ (atSteward s i).tally = (setRunning s i).tally := by
  have frame := setRunning_only s i
  have hs : (setRunning s i).steward = s.steward := frame .steward (by decide)
  have hp : (setRunning s i).pen = s.pen := frame .pen (by decide)
  unfold atSteward
  dsimp only
  split <;> simp [hs, hp]

/-- What the pen is when the steward serves a request of the host. -/
theorem atSteward_pen (s : State) (i : Nat) :
    (atSteward s i).pen = if s.pen.holder = some .host then { s.pen with idleUs := 0, idleFresh := midBell s } else s.pen := by
  have hp : (setRunning s i).pen = s.pen := setRunning_only s i .pen (by decide)
  unfold atSteward
  dsimp only
  rw [hp]
  split <;> rfl

theorem StewardTurn.findHost_atSteward {s : State} {h : HostId} {i : Nat} (t : StewardTurn s h i) (sq cid : Nat) :
    findHost (atSteward s i) sq cid = findHost s sq cid := by
  obtain ⟨-, -, -, ht⟩ := atSteward_fields s i
  have e : findHost (atSteward s i) sq cid = findHost (setRunning s i) sq cid := by simp only [findHost, ht]
  exact e.trans (t.toAdminTurn.findHost_setRunning sq cid)

theorem StewardTurn.found_atSteward {s : State} {h : HostId} {i : Nat} (t : StewardTurn s h i) :
    findHost (atSteward s i) h.sq h.cid = some i := (t.findHost_atSteward _ _).trans t.found

/-- The command's entry runs while the steward serves its request. -/
theorem StewardTurn.runs {s : State} {h : HostId} {i : Nat} (t : StewardTurn s h i) :
    ∃ e, entryAt (atSteward s i) i = some e ∧ e.origin = .host h.sq h.cid ∧ e.state = .running := by
  obtain ⟨e, he, ho, -⟩ := t.fresh
  obtain ⟨d, hd⟩ := entryAt_setRunning he
  obtain ⟨-, -, -, ht⟩ := atSteward_fields s i
  exact ⟨_, (entryAt_congr ht i).trans hd, ho, rfl⟩

/-- The service of one request of the host, by its operation. -/
def serveOp (s : State) (v : Via) : StewOp → State
  | .read idx sub allsub off len => serveRead s v idx sub allsub off len
  | .write idx sub allsub data => serveWrite s v idx sub allsub data
  | .take force => serveTake s v force
  | .give => serveGive s v

/-- A tunnel command at its turn is served at once (R43). -/
theorem StewardTurn.tunnel_serves {s : State} {h : HostId} {i : Nat} (t : StewardTurn s h i) (serial : Nat) (op : StewOp) :
    tunnel s h serial op = serveOp (atSteward s i) ⟨.host, serial, h⟩ op := by
  have frame := setRunning_only s i
  have hsteward : (setRunning s i).steward = s.steward := frame .steward (by decide)
  have hpower : (setRunning s i).power = s.power := frame .power (by decide)
  have up : stewardUp (setRunning s i) = true := by
    simp [stewardUp, stopped_congr (frame .dev (by decide)), t.up, hpower, t.ps0, t.awake]
  rw [tunnel_turn t.toAdminTurn, submit, if_pos (by simp [up, hsteward, t.alone, t.room])]
  have bell : midBell (setRunning s i) = midBell s := by
    have e : (setRunning s i).bell = s.bell := frame .bell (by decide)
    simp [midBell, e]
  have idle : (if (setRunning s i).pen.holder = some Master.host then
        { setRunning s i with
          steward := { (setRunning s i).steward with served := (setRunning s i).steward.served + 1 }
          pen := { (setRunning s i).pen with idleUs := 0, idleFresh := midBell (setRunning s i) } }
      else { setRunning s i with steward := { (setRunning s i).steward with served := (setRunning s i).steward.served + 1 } }) =
      atSteward s i := by rw [bell]; rfl
  rw [← idle]
  cases op <;> rfl

/-- The fields of a tunnel command at its turn are in order, and so is the length of 1 to 4,096 bytes. -/
theorem StewardTurn.fieldCode_none {s : State} {h : HostId} {i : Nat} (t : StewardTurn s h i) (serial : Nat) :
    fieldCode ⟨.host, serial, h⟩ none = 0 := by
  obtain ⟨hr, hn⟩ := t.fields
  simp [fieldCode, hr, hn]

theorem StewardTurn.fieldCode_some {s : State} {h : HostId} {i : Nat} (t : StewardTurn s h i) (serial n : Nat) :
    fieldCode ⟨.host, serial, h⟩ (some n) = if n = 0 then 8 else if 4096 < n then 9 else 0 := by
  obtain ⟨hr, hn⟩ := t.fields
  unfold fieldCode
  rw [if_neg (by simp [hr, hn])]
  rfl

/-- The state `u` is one in which the steward serves the command: its entry runs, and is the one that stood in `s`. -/
theorem StewardTurn.answerOd_host {s u : State} {h : HostId} {i : Nat} (t : StewardTurn s h i) (hu : u.tally = (atSteward s i).tally)
    (serial : Nat) (read : Bool) (a : OdAnswer) :
    let r := answerOd u ⟨.host, serial, h⟩ read false a
    Completes s r 0 h.cid a.data (codeStatus a.code) (a.code * 2 ^ 24 + a.ty * 2 ^ 16 + a.n) a.full ∧ Undisturbed [] u r := by
  have found : findHost u h.sq h.cid = some i := by
    have e : findHost u h.sq h.cid = findHost (atSteward s i) h.sq h.cid := by simp only [findHost, hu]
    exact e.trans t.found_atSteward
  obtain ⟨e, he, ho, hr⟩ := t.runs
  have ends := ends_finishData t.found ((entryAt_congr hu i).trans he) ho (by simp [hr]) (codeStatus a.code)
    (a.code * 2 ^ 24 + a.ty * 2 ^ 16 + a.n) a.full a.data false
  simp only [answerOd, found]
  exact ⟨t.sq ▸ ends, finishData_undisturbed _ _ _ _ _ _ _⟩

theorem StewardTurn.answerPen_host {s u : State} {h : HostId} {i : Nat} (t : StewardTurn s h i) (hu : u.tally = (atSteward s i).tally)
    (serial service code before now : Nat) :
    let r := answerPen u ⟨.host, serial, h⟩ service code before now
    Completes s r 0 h.cid [] (codeStatus code) (code * 2 ^ 24 + before * 2 ^ 16 + now) 0 ∧ Undisturbed [] u r := by
  have found : findHost u h.sq h.cid = some i := by
    have e : findHost u h.sq h.cid = findHost (atSteward s i) h.sq h.cid := by simp only [findHost, hu]
    exact e.trans t.found_atSteward
  obtain ⟨e, he, ho, hr⟩ := t.runs
  have ends := completes_finish t.found ((entryAt_congr hu i).trans he) ho (by simp [hr]) (codeStatus code)
    (code * 2 ^ 24 + before * 2 ^ 16 + now) 0
  simp only [answerPen, found]
  exact ⟨t.sq ▸ ends, finish_undisturbed _ _ _ _ _⟩

end Sys2Proof.Machine

/-! ## Object reads and writes (O14 to O16) -/

namespace Sys2Proof.Machine

theorem writeVia_host {v : Via} (h : v.master = .host) (s : State) (idx sub : Nat) (data : Bytes) :
    writeVia s v idx sub data = tunnel s v.h v.serial (.write idx sub false data) := by
  unfold writeVia
  rw [h]

theorem writeAllVia_host {v : Via} (h : v.master = .host) (s : State) (idx : Nat) (data : Bytes) :
    writeAllVia s v idx data = tunnel s v.h v.serial (.write idx 0 true data) := by
  unfold writeAllVia
  rw [h]

/-- An object write of the host is a tunnel command of its own. -/
theorem exec_objectWrite {c : Instr} {w : ObjectWrite} (hc : objectWrite c = some w) (hm : w.via.master = .host) (s : State) :
    exec c s = .next (tunnel s w.via.h w.via.serial (.write w.idx w.sub w.allsub w.data)) := by
  cases c <;> simp only [objectWrite, reduceCtorEq, Option.some.injEq] at hc <;> subst hc
  case odWrite => rfl
  case windowWrite => exact congrArg _ (writeAllVia_host hm s _ _)
  all_goals exact congrArg _ (writeVia_host hm s _ _ _)

theorem via_host {v : Via} (h : v.master = .host) : v = ⟨.host, v.serial, v.h⟩ := by cases v; cases h; rfl

/-- Beyond the steward and the pen a completion of the steward's disturbs nothing. -/
theorem atSteward_then_undisturbed {s u : State} {i : Nat} (h : Undisturbed [] (atSteward s i) u) : Undisturbed [.steward, .pen] s u :=
  (atSteward_undisturbed s i).trans (h.mono (by decide))

/-- A completion keeps the steward's accepted writes, and holder and serial of the pen. -/
theorem atSteward_then_fields {s u : State} {i : Nat} (h : Undisturbed [] (atSteward s i) u) :
    u.steward.accepted = s.steward.accepted ∧ u.pen.holder = s.pen.holder ∧ u.pen.serial = s.pen.serial := by
  obtain ⟨frame, -⟩ := h
  have hs : u.steward = (atSteward s i).steward := frame .steward (by decide)
  have hp : u.pen = (atSteward s i).pen := frame .pen (by decide)
  obtain ⟨steward, holder, serial, -⟩ := atSteward_fields s i
  rw [hs, hp, steward]
  exact ⟨rfl, holder, serial⟩

end Sys2Proof.Machine

open Sys2Proof Sys2Proof.Machine in
/-- Settles O14: the check passes in the state in which the steward serves the request, and the write is put behind the accepted ones. -/
theorem objectWriteIsAccepted : Obligations.ObjectWriteIsAccepted := by
  intro c w s i values ty hc hm turn h0 h1 hok
  obtain ⟨steward, holder, serial, ht⟩ := atSteward_fields s i
  have bell : (atSteward s i).bell = s.bell := atSteward_only s i .bell (by decide)
  have fields : fieldCode w.via (some w.data.length) = 0 := by
    rw [via_host hm, turn.fieldCode_some, if_neg (by omega), if_neg (by omega)]
  have served : exec c s = .next { atSteward s i with steward := { (atSteward s i).steward with
      accepted := (atSteward s i).steward.accepted ++ [⟨w.via, w.idx, values, w.data.length, ty, (atSteward s i).bell.ticks, false⟩] } } := by
    rw [exec_objectWrite hc hm, turn.tunnel_serves, ← via_host hm]
    simp only [serveOp, serveWrite, fields, hm, hok, ne_eq, not_true_eq_false, if_false]
  refine ⟨_, served, ?_, ?_, ?_, holder, serial, ?_, ?_⟩
  · simp [steward, bell]
  · simp [steward]
  · simp [steward]
  · exact turn.findHost_atSteward 0 w.via.h.cid
  · exact (atSteward_only s i).trans (fun p h => by cases p <;> first | exact absurd (by decide) h | rfl)

open Sys2Proof Sys2Proof.Machine in
/-- Settles O15: the refused write is answered at service. -/
theorem objectWriteIsRefused : Obligations.ObjectWriteIsRefused := by
  intro c w s i a hc hm turn h0 h1 herr
  have fields : fieldCode w.via (some w.data.length) = 0 := by
    rw [via_host hm, turn.fieldCode_some, if_neg (by omega), if_neg (by omega)]
  have served : exec c s = .next (answerOd (atSteward s i) w.via false false a) := by
    rw [exec_objectWrite hc hm, turn.tunnel_serves, ← via_host hm]
    simp only [serveOp, serveWrite, fields, hm, herr, ne_eq, not_true_eq_false, if_false]
  obtain ⟨ends, frame⟩ := turn.answerOd_host rfl w.via.serial false a
  rw [← via_host hm] at ends frame
  obtain ⟨accepted, holder, serial⟩ := atSteward_then_fields frame
  exact ⟨_, served, ends, accepted, holder, serial, atSteward_then_undisturbed frame⟩

open Sys2Proof Sys2Proof.Machine in
/-- Settles O16: the answer of the read is that of its own fields where they fail, else of `checkRead`. -/
theorem objectReadIsAnswered : Obligations.ObjectReadIsAnswered := by
  intro s h i idx sub allsub off len turn
  have served : exec (.odRead h idx sub allsub off len) s = .next (answerOd (atSteward s i) ⟨.host, 0, h⟩ true false
      (if len = 0 then OdAnswer.bare 8 0 else if 4096 < len then OdAnswer.bare 9 0 else checkRead (atSteward s i) idx sub allsub off len)) := by
    change Host.Outcome.next (tunnel s h 0 (.read idx sub allsub off len)) = _
    rw [turn.tunnel_serves]
    simp only [serveOp, serveRead, turn.fieldCode_some]
    by_cases h0 : len = 0
    · simp [h0]
    · by_cases h1 : 4096 < len <;> simp [h0, h1]
  obtain ⟨ends, frame⟩ := turn.answerOd_host rfl 0 true
    (if len = 0 then OdAnswer.bare 8 0 else if 4096 < len then OdAnswer.bare 9 0 else checkRead (atSteward s i) idx sub allsub off len)
  obtain ⟨accepted, holder, serial⟩ := atSteward_then_fields frame
  exact ⟨_, served, ends, accepted, holder, serial, atSteward_then_undisturbed frame⟩

end

section
/-! ## The pen at a tunnel command's turn (O17, O18) -/

namespace Sys2Proof.Machine

/-- A part that is as it was need not be listed. -/
theorem OnlyChanges.without {ps : List Part} {s t : State} (a : OnlyChanges ps s t) (q : Part) (h : q.same s t) :
    OnlyChanges (ps.filter (fun p => decide (p ≠ q))) s t := by
  intro p hp
  by_cases hq : p = q
  · exact hq ▸ h
  · exact a p (fun hm => hp (List.mem_filter.mpr ⟨hm, by simp [hq]⟩))

/-- What the steward leaves of a state that a pen service has changed. -/
theorem Undisturbed.after_pen {ps : List Part} {s u t : State} {i : Nat} (a : Undisturbed [] u t)
    (hu : OnlyChanges ps (atSteward s i) u) (hp : ps ⊆ [.pen, .dev, .sticky]) : Undisturbed (.steward :: .pen :: ps) s t :=
  ((atSteward_undisturbed s i).mono (by simp)).trans ((hu.undisturbed (fun p hm => by simp [hm])
    ⟨fun h => absurd (hp h) (by decide), fun h => absurd (hp h) (by decide), fun h => absurd (hp h) (by decide),
      fun h => absurd (hp h) (by decide)⟩).trans (a.mono (by simp)))

theorem atSteward_midBell (s : State) (i : Nat) : midBell (atSteward s i) = midBell s := by
  have e : (atSteward s i).bell = s.bell := atSteward_only s i .bell (by decide)
  simp [midBell, e]

theorem atSteward_dev (s : State) (i : Nat) : (atSteward s i).dev = s.dev := atSteward_only s i .dev (by decide)

/-- Pen Take of the host at its turn ends with what `takePen` answers. -/
theorem StewardTurn.takes {s u : State} {h : HostId} {i c : Nat} {force : Bool} (t : StewardTurn s h i)
    (hp : takePen (atSteward s i) .host force = (c, u)) (hu : u.tally = (atSteward s i).tally) :
    ∃ r, exec (.penTake h force) s = .next r ∧ Completes s r 0 h.cid [] (codeStatus c)
      (c * 2 ^ 24 + holderCode s.pen.holder * 2 ^ 16 + if c = 0 then u.pen.serial else 0) 0 ∧ Undisturbed [] u r := by
  obtain ⟨-, holder, -, -⟩ := atSteward_fields s i
  have served : exec (.penTake h force) s = .next (answerPen u ⟨.host, 0, h⟩ 3 c (holderCode s.pen.holder)
      (if c = 0 then u.pen.serial else 0)) := by
    change Host.Outcome.next (tunnel s h 0 (.take force)) = _
    rw [t.tunnel_serves]
    simp only [serveOp, serveTake, t.fieldCode_none, hp, holder, ne_eq, not_true_eq_false, if_false]
  exact ⟨_, served, t.answerPen_host hu 0 3 c _ _⟩

/-- Pen Give of the host at its turn ends with what `givePen` answers. -/
theorem StewardTurn.gives {s u : State} {h : HostId} {i c serial : Nat} (t : StewardTurn s h i)
    (hp : givePen (atSteward s i) .host serial = (c, u)) (hu : u.tally = (atSteward s i).tally) :
    ∃ r, exec (.penGive h serial) s = .next r ∧ Completes s r 0 h.cid [] (codeStatus c) (c * 2 ^ 24) 0 ∧ Undisturbed [] u r := by
  have served : exec (.penGive h serial) s = .next (answerPen u ⟨.host, serial, h⟩ 4 c 0 0) := by
    change Host.Outcome.next (tunnel s h serial .give) = _
    rw [t.tunnel_serves]
    simp only [serveOp, serveGive, t.fieldCode_none, hp, ne_eq, not_true_eq_false, if_false]
  obtain ⟨ends, frame⟩ := t.answerPen_host hu serial 4 c 0 0
  exact ⟨_, served, by simpa using ends, frame⟩

/-- The pen as `grantPen` gives it to the host at a command's turn. -/
theorem grantPen_atSteward (s : State) (i : Nat) : (grantPen (atSteward s i) .host).pen =
    ⟨some .host, if 65535 ≤ s.pen.serial then 1 else s.pen.serial + 1, 0, midBell s⟩ := by
  obtain ⟨-, -, serial, -⟩ := atSteward_fields s i
  simp [grantPen, nextSerial, serial, atSteward_midBell]

theorem Undisturbed.pen {s t : State} (a : Undisturbed [] s t) : t.pen = s.pen := by
  obtain ⟨frame, -⟩ := a
  exact frame .pen (by decide)

theorem Undisturbed.dev {s t : State} (a : Undisturbed [] s t) : t.dev = s.dev := by
  obtain ⟨frame, -⟩ := a
  exact frame .dev (by decide)

theorem Undisturbed.steward {s t : State} (a : Undisturbed [] s t) : t.steward = s.steward := by
  obtain ⟨frame, -⟩ := a
  exact frame .steward (by decide)

theorem Undisturbed.sticky {s t : State} (a : Undisturbed [] s t) : t.sticky = s.sticky := by
  obtain ⟨frame, -⟩ := a
  exact frame .sticky (by decide)

theorem atSteward_accepted (s : State) (i : Nat) : (atSteward s i).steward.accepted = s.steward.accepted := by
  obtain ⟨steward, -⟩ := atSteward_fields s i
  rw [steward]

/-- A free pen goes to the host. -/
theorem penTake_free {s : State} {h : HostId} {i : Nat} (force : Bool) (turn : StewardTurn s h i) (hp : s.pen.holder = none) :
    ∃ t, exec (.penTake h force) s = .next t ∧
      t.pen = ⟨some .host, if 65535 ≤ s.pen.serial then 1 else s.pen.serial + 1, 0, midBell s⟩ ∧ t.dev = { s.dev with lingerUs := 0 } ∧
      Completes s t 0 h.cid [] .success t.pen.serial 0 ∧ t.steward.accepted = s.steward.accepted ∧
      Undisturbed [.steward, .pen, .dev] s t := by
  obtain ⟨-, holder, -, -⟩ := atSteward_fields s i
  obtain ⟨t, ht, ends, frame⟩ := turn.takes (force := force) (u := grantPen (atSteward s i) .host) (c := 0)
    (by simp only [takePen, holder, hp]) rfl
  refine ⟨t, ht, frame.pen.trans (grantPen_atSteward s i), ?_, ?_, ?_, ?_⟩
  · rw [frame.dev]; simp [grantPen, atSteward_dev]
  · rw [frame.pen]; simpa [hp, holderCode, codeStatus] using ends
  · rw [frame.steward]; exact atSteward_accepted s i
  · exact (frame.after_pen (grantPen_only _ _) (by decide)).mono (by decide)

/-- The host's own take restarts the idle count. -/
theorem penTake_own {s : State} {h : HostId} {i : Nat} (force : Bool) (turn : StewardTurn s h i) (hp : s.pen.holder = some .host) :
    ∃ t, exec (.penTake h force) s = .next t ∧ t.pen = ⟨some .host, s.pen.serial, 0, midBell s⟩ ∧
      Completes s t 0 h.cid [] .success (2 ^ 16 + s.pen.serial) 0 ∧ t.steward.accepted = s.steward.accepted ∧
      Undisturbed [.steward, .pen] s t := by
  obtain ⟨-, holder, serial, -⟩ := atSteward_fields s i
  let u : State := { atSteward s i with pen := { (atSteward s i).pen with idleUs := 0, idleFresh := midBell (atSteward s i) } }
  obtain ⟨t, ht, ends, frame⟩ := turn.takes (force := force) (u := u) (c := 0) (by simp only [takePen, holder, hp, if_true, u]) rfl
  refine ⟨t, ht, ?_, ?_, ?_, ?_⟩
  · rw [frame.pen]; simp [u, holder, hp, serial, atSteward_midBell]
  · simpa [hp, holderCode, codeStatus, u, serial] using ends
  · rw [frame.steward]; exact atSteward_accepted s i
  · have restarted : OnlyChanges [.pen] (atSteward s i) u :=
      fun p h => by cases p <;> first | exact absurd (by decide) h | rfl
    exact (frame.after_pen restarted (by decide)).mono (by decide)

/-- A forced take that OD 0x1023 permits moves the pen from the side-band master to the host, and is recorded. -/
theorem penTake_forced {s : State} {h : HostId} {i : Nat} (turn : StewardTurn s h i) (hp : s.pen.holder = some .sideband)
    (hf : bit (odVal s 0x1023 0) 0 = true) :
    ∃ t, exec (.penTake h true) s = .next t ∧
      t.pen = ⟨some .host, if 65535 ≤ s.pen.serial then 1 else s.pen.serial + 1, 0, midBell s⟩ ∧ t.dev = { s.dev with lingerUs := 0 } ∧
      Recorded s t { Record.of 0x0201 with winner := 1, loser := 2, b := t.pen.serial } ∧
      Completes s t 0 h.cid [] .success (2 * 2 ^ 16 + t.pen.serial) 0 ∧ Undisturbed [.steward, .pen, .dev, .sticky] s t := by
  have unmoved := atSteward_only s i
  obtain ⟨-, holder, -, -⟩ := atSteward_fields s i
  have permitted : mayForce (atSteward s i) .host = true := by
    simp only [mayForce, odVal_congr (unmoved .od (by decide)) (unmoved .ident (by decide)), hf]
  let g := grantPen (atSteward s i) .host
  let r : Record := { Record.of 0x0201 with winner := 1, loser := 2, b := g.pen.serial }
  have up : stopped g = false := by
    have e : stopped g = stopped (atSteward s i) := by simp [g, stopped, grantPen]
    rw [e, stopped_congr (atSteward_dev s i), turn.up]
  have raised := raiseRecord_only g r
  obtain ⟨t, ht, ends, frame⟩ := turn.takes (force := true) (u := raiseRecord g r) (c := 0)
    (by simp [takePen, holder, hp, permitted, partyOf, g, r]) (raised .tally (by decide))
  have hpen : t.pen = g.pen := frame.pen.trans (raised .pen (by decide))
  refine ⟨t, ht, hpen.trans (grantPen_atSteward s i), ?_, ?_, ?_, ?_⟩
  · rw [frame.dev, raised .dev (by decide)]; simp [g, grantPen, atSteward_dev]
  · have e1 : (atSteward s i).sticky = s.sticky := unmoved .sticky (by decide)
    have e2 : (atSteward s i).bell = s.bell := unmoved .bell (by decide)
    have e3 : (atSteward s i).ident = s.ident := unmoved .ident (by decide)
    rw [Recorded, frame.sticky, raiseRecord_pending r up, hpen]
    simp [g, r, stamped, fwVersion, e1, e2, e3]
  · have e : (raiseRecord g r).pen = g.pen := raised .pen (by decide)
    rw [hpen]; simpa [hp, holderCode, codeStatus, e] using ends
  · exact (frame.after_pen (ps := [.pen, .dev, .sticky]) (((grantPen_only _ _).mono (by decide)).trans (raised.mono (by decide)))
      (by decide)).mono (by decide)

/-- Any other take against the side-band master is refused. -/
theorem penTake_refused {s : State} {h : HostId} {i : Nat} {force : Bool} (turn : StewardTurn s h i) (hp : s.pen.holder = some .sideband)
    (hf : force = false ∨ bit (odVal s 0x1023 0) 0 = false) :
    ∃ t, exec (.penTake h force) s = .next t ∧ t.pen = s.pen ∧ Completes s t 0 h.cid [] .penHeld (6 * 2 ^ 24 + 2 * 2 ^ 16) 0 ∧
      Undisturbed [.steward] s t := by
  have unmoved := atSteward_only s i
  obtain ⟨-, holder, -, -⟩ := atSteward_fields s i
  have forbidden : (force && mayForce (atSteward s i) .host) = false := by
    simp only [mayForce, odVal_congr (unmoved .od (by decide)) (unmoved .ident (by decide))]
    rcases hf with hf | hf <;> simp [hf]
  have hpen : (atSteward s i).pen = s.pen := by rw [atSteward_pen, if_neg (by simp [hp])]
  obtain ⟨t, ht, ends, frame⟩ := turn.takes (force := force) (u := atSteward s i) (c := 6)
    (by simp [takePen, holder, hp, forbidden]) rfl
  refine ⟨t, ht, frame.pen.trans hpen, by simpa [hp, holderCode, codeStatus] using ends, ?_⟩
  exact ((unmoved.without .pen hpen).undisturbed (qs := [.steward])).trans (frame.mono (by decide))

/-- The holder releases the pen. -/
theorem penGive_held {s : State} {h : HostId} {i : Nat} (turn : StewardTurn s h i) (hp : s.pen.holder = some .host) :
    ∃ t, exec (.penGive h s.pen.serial) s = .next t ∧ t.pen.holder = none ∧ t.pen.serial = s.pen.serial ∧ t.pen.idleUs = 0 ∧
      t.dev = { s.dev with lingerUs := 0, lingerFresh := midBell s } ∧ Completes s t 0 h.cid [] .success 0 0 ∧
      t.steward.accepted = s.steward.accepted ∧ Undisturbed [.steward, .pen, .dev] s t := by
  obtain ⟨-, holder, serial, -⟩ := atSteward_fields s i
  have up : ¬(atSteward s i).dev.state = .frozen := fun hz => by
    have := turn.up
    simp [stopped, ← atSteward_dev s i, hz] at this
  have frozen : releasePen (atSteward s i) = _ := if_neg up
  have released := releasePen_only (atSteward s i)
  obtain ⟨t, ht, ends, frame⟩ := turn.gives (serial := s.pen.serial) (u := releasePen (atSteward s i)) (c := 0)
    (by simp [givePen, holdsPen, holder, serial, hp]) (released .tally (by decide))
  refine ⟨t, ht, ?_, ?_, ?_, ?_, ends, ?_, ?_⟩
  · rw [frame.pen, frozen]
  · rw [frame.pen, frozen]; exact serial
  · rw [frame.pen, frozen]
  · rw [frame.dev, frozen]; simp [atSteward_dev, atSteward_midBell]
  · rw [frame.steward, released .steward (by decide)]; exact atSteward_accepted s i
  · exact (frame.after_pen (released.mono (by decide : _ ⊆ [.pen, .dev])) (by decide)).mono (by decide)

/-- Anyone else gives nothing. -/
theorem penGive_refused {s : State} {h : HostId} {i serial : Nat} (turn : StewardTurn s h i)
    (hp : s.pen.holder ≠ some .host ∨ s.pen.serial ≠ serial) :
    ∃ t, exec (.penGive h serial) s = .next t ∧ t.pen.holder = s.pen.holder ∧ t.pen.serial = s.pen.serial ∧
      Completes s t 0 h.cid [] .penHeld (6 * 2 ^ 24) 0 ∧ Undisturbed [.steward, .pen] s t := by
  obtain ⟨-, holder, same, -⟩ := atSteward_fields s i
  have other : holdsPen (atSteward s i) .host serial = false := by
    simp only [holdsPen, holder, same, Bool.and_eq_false_iff, decide_eq_false_iff_not]
    exact hp
  obtain ⟨t, ht, ends, frame⟩ := turn.gives (serial := serial) (u := atSteward s i) (c := 6) (by simp [givePen, other]) rfl
  obtain ⟨-, hh, hs⟩ := atSteward_then_fields frame
  exact ⟨t, ht, hh, hs, ends, atSteward_then_undisturbed frame⟩

end Sys2Proof.Machine

open Sys2Proof Sys2Proof.Machine in
/-- Settles O17: the four outcomes of `takePen`. -/
theorem penTakeMovesThePen : Obligations.PenTakeMovesThePen :=
  ⟨fun _ _ _ force turn hp => penTake_free force turn hp, fun _ _ _ force turn hp => penTake_own force turn hp,
    fun _ _ _ turn hp hf => penTake_forced turn hp hf, fun _ _ _ _ turn hp hf => penTake_refused turn hp hf⟩

open Sys2Proof Sys2Proof.Machine in
/-- Settles O18: the two outcomes of `givePen`. -/
theorem penGiveReleasesThePen : Obligations.PenGiveReleasesThePen :=
  ⟨fun _ _ _ turn hp => penGive_held turn hp, fun _ _ _ _ turn hp => penGive_refused turn hp⟩

end


section
/-! ## The reset state (O4, O5) -/

open Sys2Proof Sys2Proof.Machine in
/-- Settles O4: each field of the reset state is read off its definition. -/
theorem resetLeavesTheBlockInBoot : Obligations.ResetLeavesTheBlockInBoot := by
  unfold Obligations.ResetLeavesTheBlockInBoot
  refine ⟨rfl, rfl, rfl, rfl, rfl, rfl, rfl, rfl, rfl, rfl, rfl, rfl, rfl, rfl, rfl, rfl, rfl, rfl, rfl, rfl, rfl, rfl, rfl, rfl, rfl⟩

namespace Sys2Proof.Machine

theorem penOk_reset : PenOk State.reset := by unfold PenOk; decide

theorem stickyOk_reset : StickyOk State.reset := by unfold StickyOk; decide

theorem bellOk_reset : BellOk State.reset := by unfold BellOk; decide

theorem tallyOk_reset : TallyOk State.reset := by unfold TallyOk; decide

theorem memoryOk_reset : MemoryOk State.reset := by unfold MemoryOk; decide

end Sys2Proof.Machine

open Sys2Proof Sys2Proof.Machine in
/-- Settles O5, part by part of the invariant: every table of the reset state is empty and every count is 0. -/
theorem resetIsSound : Obligations.ResetIsSound :=
  ⟨penOk_reset, stickyOk_reset, bellOk_reset, tallyOk_reset, memoryOk_reset⟩

end

section
/-! ## Accepted writes at the edge (O19) -/

namespace Sys2Proof.Machine

theorem odVal_odSet_same (s : State) (idx sub v : Nat) : odVal (odSet s idx sub v) idx sub = v := by
  simp [odVal, odSet, tget_tput_same]

theorem holdAnswer_only (s : State) (token : Nat) (payload : Bytes) : OnlyChanges [.milny] s (holdAnswer s token payload) := by
  unfold holdAnswer
  split
  · split
    · exact fun p h => by cases p <;> first | exact absurd (by decide) h | rfl
    · exact .refl _ s
  · exact .refl _ s

/-- The answer of an applied write is the end of the host's command, or the answer of a held side-band request. -/
theorem answerApplied_only (s : State) (a : Accepted) (x : OdAnswer) :
    OnlyChanges (.milny :: completionParts) s (answerApplied s a x) := by
  unfold answerApplied
  split
  · exact .refl _ s
  · unfold answerOd
    split
    · split
      · exact .refl _ s
      · exact (finishData_only _ _ _ _ _ _ _).mono (by decide)
    · exact (holdAnswer_only _ _ _).mono (by decide)

/-- An object that only holds its value takes it, and nothing else follows from the write. -/
theorem applyAccepted_2044 {s : State} {a : Accepted} {v : Nat} (up : stopped s = false) (hb : s.dev.state ≠ .boot)
    (hi : a.idx = 0x2044) (hv : a.values = [(0, v)]) :
    applyAccepted s a = answerApplied (odSet s 0x2044 0 v) a ⟨0, a.ty, a.len, a.len, []⟩ := by
  have member (m : Master) (t : State) : applyMember m t 0x2044 0 v = odSet t 0x2044 0 v := by
    unfold applyMember
    rw [if_neg (by decide), if_neg (by decide)]
    rfl
  simp [applyAccepted, hb, up, hi, hv, member, afterWrite]

end Sys2Proof.Machine

open Sys2Proof Sys2Proof.Machine in
/-- Settles O19. -/
theorem writesTakeEffectAtTheEdge : Obligations.WritesTakeEffectAtTheEdge := by
  refine ⟨fun s up edge => ⟨_, ?_, rfl⟩, fun s edge => ?_, fun s a v up hb hi hv => ?_, fun s a _ hb => ?_⟩
  · have apply : execWriteApply s = .next (settleFault (applyWrites s)) := by simp [execWriteApply, up, atEdge, edge]
    exact apply
  · simp [exec, execWriteApply, atEdge, edge]
  · have answer := answerApplied_only (odSet s 0x2044 0 v) a ⟨0, a.ty, a.len, a.len, []⟩
    rw [applyAccepted_2044 up hb hi hv]
    refine ⟨?_, fun mute => ?_, ((odSet_only s _ _ _).mono (by decide)).trans (answer.mono (by decide))⟩
    · rw [odVal_congr (answer .od (by decide)) (answer .ident (by decide)), odVal_odSet_same]
    · rw [answerApplied, if_pos mute]
      exact odSet_only s 0x2044 0 v .host (by decide)
  · simp [applyAccepted, hb]

end

section
/-! ## What the drive does of its own accord (O23) -/

namespace Sys2Proof.Machine

/-- At a free edge the drive may move of its own accord. -/
theorem EdgeFree.ownMove {s : State} (h : EdgeFree s) : ownMove s = true := by
  obtain ⟨edge, unmoved, noRequest⟩ := h
  have due : requestDue s = false := by
    simp only [requestDue, dueWrite, List.any_eq_false, Bool.and_eq_true, decide_eq_true_eq, not_and, not_lt]
    exact noRequest
  simp [Machine.ownMove, mayMove, atEdge, edge, unmoved, due]

theorem pauseMember_only (s : State) (resume : Nat) (byHoldover : Bool) :
    OnlyChanges [.fabric, .host] s (pauseMember s resume byHoldover) := by
  have noted : OnlyChanges [.fabric, .host] s { s with fabric := { s.fabric with resumeBell := resume, holdoverPaused := byHoldover } } :=
    fun p h => by cases p <;> first | exact absurd (by decide) h | rfl
  unfold pauseMember
  split
  · exact noted.trans ((setMember_only _ _).trans ((flood_only _ _ _ _).mono (by decide)))
  · exact .refl _ s

theorem resumeMember_only (s : State) : OnlyChanges [.fabric, .host] s (resumeMember s) := by
  have noted : OnlyChanges [.fabric, .host] s { s with fabric := { s.fabric with resumeBell := 0 } } :=
    fun p h => by cases p <;> first | exact absurd (by decide) h | rfl
  unfold resumeMember
  split
  · exact noted.trans ((setMember_only _ _).trans ((flood_only _ _ _ _).mono (by decide)))
  · exact .refl _ s

theorem enterJoining_only (s : State) : OnlyChanges [.fabric, .host] s (enterJoining s) := by
  unfold enterJoining forgetLost
  refine .trans (fun p h => ?_) (setMember_only _ _)
  cases p <;> first | exact absurd (by decide) h | rfl

theorem startJoin_only (s : State) : OnlyChanges [.fabric, .host] s (startJoin s) := .ite (enterJoining_only s) (.refl _ s)

/-- The parts that a guild reset can reach. -/
def guildParts : List Part :=
  [.tally, .host, .sticky, .counters, .flash, .ledger, .compute, .streams, .sifters, .fabric, .update]

theorem guildReset_only (s : State) (cause : Nat) : OnlyChanges guildParts s (guildReset s cause) := by
  have freed (l : List Nat) (t : State) : OnlyChanges guildParts t (l.foldl freeFamily t) :=
    OnlyChanges.foldl (fun s i => (freeFamily_only s i).mono (by decide)) l t
  have failed (l : List Nat) (t : State) : OnlyChanges guildParts t (l.foldl (fun s i => failRequest s i .memberLost 0) t) :=
    OnlyChanges.foldl (fun s i => (failRequest_only s i .memberLost 0).mono (by decide)) l t
  have noted (t : State) (old member : Nat) :
      OnlyChanges guildParts t (count (raiseEvent (guildLogWrite t 1 255 old 0 member 0) 5) 0x6015 4 1) :=
    ((guildLogWrite_only t _ _ _ _ _ _).mono (by decide)).trans
      (((raiseEvent_only _ 5).mono (by decide)).trans ((count_only _ _ _ _).mono (by decide)))
  have cleared (t : State) (f : Fabric) (x : Streams) (u : Update) :
      OnlyChanges guildParts t { t with fabric := f, streams := x, update := u } :=
    fun p h => by cases p <;> first | exact absurd (by decide) h | rfl
  unfold guildReset
  exact (freed _ _).trans ((failed _ _).trans ((cleared _ _ _ _).trans (noted _ _ _)))

theorem guildResetJoin_only (s : State) (cause : Nat) : OnlyChanges guildParts s (guildResetJoin s cause) :=
  (guildReset_only s cause).trans ((startJoin_only _).mono (by decide))

/-- A move to RUN reaches, beyond the transition, what the guild takes part in. -/
theorem goTo_run (s : State) (cause : Nat) : OnlyChanges guildParts (transition s .run cause true) (goTo s .run cause 0) ∧
    (s.fabric.rejoin = false → OnlyChanges [.fabric, .host] (transition s .run cause true) (goTo s .run cause 0)) := by
  have resume := resumeMember_only (transition s .run cause true)
  unfold goTo
  dsimp only
  refine ⟨.ite (guildResetJoin_only _ 0) (resume.mono (by decide)), fun h => ?_⟩
  rw [if_neg (by simp [transition, h])]
  exact resume

/-- The idle pen is released (R55). -/
theorem penIdleTimeout_releases {s : State} {m : Master} (up : stopped s = false) (edge : s.bell.chime = 0)
    (hp : s.pen.holder = some m) (due : 1000 * odVal s 0x1022 0 ≤ s.pen.idleUs) :
    ∃ t, exec .penIdleTimeout s = .next t ∧ t.pen = { s.pen with holder := none, idleUs := 0 } ∧
      t.dev = { s.dev with lingerUs := 0, lingerFresh := false } ∧
      Recorded s t { Record.of 0x0202 with loser := partyOf m, b := s.pen.serial } ∧ OnlyChanges [.pen, .dev, .sticky] s t := by
  let r : Record := { Record.of 0x0202 with loser := partyOf m, b := s.pen.serial }
  have raised := raiseRecord_only s r
  have released := releasePen_only (raiseRecord s r)
  have hpen : (raiseRecord s r).pen = s.pen := raised .pen (by decide)
  have hdev : (raiseRecord s r).dev = s.dev := raised .dev (by decide)
  have hbell : (raiseRecord s r).bell = s.bell := raised .bell (by decide)
  have hsticky : (releasePen (raiseRecord s r)).sticky = (raiseRecord s r).sticky := released .sticky (by decide)
  have unfrozen : (raiseRecord s r).dev.state ≠ .frozen := fun h => by simp [stopped, ← hdev, h] at up
  have free : releasePen (raiseRecord s r) = { raiseRecord s r with
      pen := { (raiseRecord s r).pen with holder := none, idleUs := 0 },
      dev := { (raiseRecord s r).dev with lingerUs := 0, lingerFresh := midBell (raiseRecord s r) } } := if_neg unfrozen
  refine ⟨releasePen (raiseRecord s r), ?_, ?_, ?_, ?_, (raised.mono (by decide)).trans (released.mono (by decide))⟩
  · simp [exec, execPenIdleTimeout, hp, up, atEdge, edge, not_lt.mpr due, r]
  · rw [free, hpen]
  · rw [free, hdev]
    simp [midBell, hbell, edge]
  · rw [Recorded, hsticky, raiseRecord_pending r up]

/-- The linger ends in RUN (R48). -/
theorem configLingerExpired_moves {s : State} (hs : s.dev.state = .config) (hp : s.pen.holder = none)
    (due : 1000 * odVal s 0x1012 0 ≤ s.dev.lingerUs) (free : EdgeFree s) :
    exec .configLingerExpired s = .next (goTo s .run 4 0) := by
  simp [exec, execConfigLingerExpired, hs, hp, due, free.ownMove]

/-- A drain in which no entry holds it ends in CONFIG (R48). -/
theorem drainComplete_moves {s : State} (hs : s.dev.state = .drain) (ha : s.dev.drainForActivation = false)
    (due : s.dev.drainBell < s.bell.ticks) (free : EdgeFree s) (drained : ∀ p ∈ s.tally.entries, holdsDrain p.2 = false) :
    exec .drainComplete s = .next (goTo s .config 5 0) := by
  have none : s.tally.entries.any (fun p => holdsDrain p.2) = false := List.any_eq_false.mpr (fun p hp => by simp [drained p hp])
  simp [exec, execDrainComplete, hs, ha, due, free.ownMove, none]

/-- Admin commands and work of the drive's own do not hold a drain. -/
theorem holdsDrain_admin_internal {e : Entry} (h : (∃ cid, e.origin = .host 0 cid) ∨ (∃ j tag, e.origin = .internal j tag)) :
    holdsDrain e = false := by
  rcases h with ⟨cid, h⟩ | ⟨j, tag, h⟩ <;> simp [holdsDrain, h]

end Sys2Proof.Machine

open Sys2Proof Sys2Proof.Machine in
/-- Settles O23: each move is the transition, and what the guild does at it leaves the device state. -/
theorem driveMovesOfItsOwnAccord : Obligations.DriveMovesOfItsOwnAccord := by
  refine ⟨fun s m up edge hp due => penIdleTimeout_releases up edge hp due, fun s hs hp due free => ?_,
    fun s hs ha due free drained => ?_⟩
  · obtain ⟨reach, quiet⟩ := goTo_run s 4
    have moved := transition_only s .run 4 true
    have dev : (goTo s .run 4 0).dev = (transition s .run 4 true).dev := reach .dev (by decide)
    refine ⟨_, configLingerExpired_moves hs hp due free, ?_, ?_, ?_, ?_, ?_, ?_, reach .od (by decide), reach .pen (by decide),
      reach .steward (by decide), reach .bell (by decide), fun h => (moved.mono (by decide)).trans ((quiet h).mono (by decide))⟩
    all_goals rw [dev]; simp [transition, hs, DevState.code]
  · have reach : OnlyChanges [.fabric, .host] (transition s .config 5 true) (goTo s .config 5 0) := pauseMember_only _ 0 false
    have dev : (goTo s .config 5 0).dev = (transition s .config 5 true).dev := reach .dev (by decide)
    refine ⟨_, drainComplete_moves hs ha due free (fun p hp => holdsDrain_admin_internal (drained p hp)), ?_, ?_, ?_, ?_, ?_, ?_, ?_,
      ((transition_only s .config 5 true).mono (by decide)).trans (reach.mono (by decide))⟩
    all_goals rw [dev]; simp [transition, hs, DevState.code]

end


section
/-!
SUPPORT. How far the work of a command reaches into the state, and that it keeps `Sound`: the relation that O6 and O22 rest on, and the laws
that put its instances together.
-/

namespace Sys2Proof.Machine

open Host (Outcome)

/-- How far work reaches: the working parts of the drive alone, its control beside them (pen, steward, device state, station, units, keys,
power), or the platform too. -/
inductive Reach where
  | working | control | platform

/-- The parts that work of any command may change. -/
def workingParts : List Part :=
  [.tally, .host, .sticky, .counters, .flash, .ledger, .compute, .streams, .sifters, .fabric, .free, .out]

/-- The parts that a reach may change. No command changes the queue of the waiting commands. -/
def Reach.parts : Reach → List Part
  | .working => workingParts
  | .control => [.pen, .steward, .dev, .milny, .units, .keys, .power] ++ workingParts
  | .platform => [.ident, .od, .bell, .freeze, .update, .rails, .sampled, .edge] ++
      ([.pen, .steward, .dev, .milny, .units, .keys, .power] ++ workingParts)

/-- Work of reach `r` leads from `s` to `t`: it changes no other part, and keeps what every step keeps. -/
structure Moves (r : Reach) (s t : State) : Prop where
  only : OnlyChanges r.parts s t
  sound : Sound s → Sound t

theorem Moves.refl {r : Reach} {s : State} : Moves r s s := ⟨OnlyChanges.refl _ s, id⟩

theorem Moves.trans {r : Reach} {s t u : State} (a : Moves r s t) (b : Moves r t u) : Moves r s u :=
  ⟨a.only.trans b.only, fun h => b.sound (a.sound h)⟩

theorem Moves.ite {r : Reach} {s t u : State} {c : Prop} [Decidable c] (a : Moves r s t) (b : Moves r s u) :
    Moves r s (if c then t else u) := by split <;> assumption

theorem Moves.foldl {α : Type} {r : Reach} {f : State → α → State} {l : List α} {s : State} (hf : ∀ s x, Moves r s (f s x)) :
    Moves r s (l.foldl f s) := foldl_rel (fun _ => .refl) (fun _ _ _ => .trans) hf l s

/-- What control may reach, the platform may. -/
theorem Moves.up {s t : State} (a : Moves .control s t) : Moves .platform s t :=
  ⟨a.only.mono (List.subset_append_right _ _), a.sound⟩

/-! ## One update of the state -/

/-- An update of working parts changes no other. -/
theorem onlyWorking {s : State} {tally host sticky counters flash ledger compute streams sifters fabric free out} :
    OnlyChanges workingParts s { s with
      tally := tally, host := host, sticky := sticky, counters := counters, flash := flash, ledger := ledger, compute := compute
      streams := streams, sifters := sifters, fabric := fabric, free := free, out := out } := by
  intro p hp
  cases p <;> first | rfl | exact absurd (by decide) hp

theorem workingParts_subset (r : Reach) : workingParts ⊆ r.parts := by cases r <;> decide

/-- An update of the working parts that keeps what `Sound` says of them. -/
theorem Moves.workingWith {r : Reach} {s : State} {tally host sticky counters flash ledger compute streams sifters fabric free out}
    (store : StickyOk s → StickyOk { s with sticky := sticky }) (entries : TallyOk s → TallyOk { s with tally := tally })
    (memory : MemoryOk s → MemoryOk { s with compute := compute }) :
    Moves r s { s with
      tally := tally, host := host, sticky := sticky, counters := counters, flash := flash, ledger := ledger, compute := compute
      streams := streams, sifters := sifters, fabric := fabric, free := free, out := out } :=
  ⟨onlyWorking.mono (workingParts_subset r), fun ⟨p, k, b, a, m⟩ => ⟨p, store k, b, entries a, memory m⟩⟩

/-- An update of the working parts that `Sound` does not speak of. -/
theorem Moves.working {r : Reach} {s : State} {host counters flash ledger streams sifters fabric free out} :
    Moves r s { s with
      host := host, counters := counters, flash := flash, ledger := ledger, streams := streams, sifters := sifters, fabric := fabric
      free := free, out := out } :=
  .workingWith id id id

/-- An update of compute beside others, Subsystem Local Memory apart. -/
theorem Moves.compute {r : Reach} {s : State} {host counters flash ledger compute streams sifters fabric free out}
    (slm : compute.slm = s.compute.slm) :
    Moves r s { s with
      host := host, counters := counters, flash := flash, ledger := ledger, compute := compute, streams := streams
      sifters := sifters, fabric := fabric, free := free, out := out } :=
  .workingWith id id (fun h => by rw [MemoryOk, slm]; exact h)

/-- An update of the sticky store's queues beside others; its slots stand. -/
theorem Moves.sticky {r : Reach} {s : State} {host sticky counters flash ledger streams sifters fabric free out}
    (slots : sticky.slots = s.sticky.slots) (written : s.sticky.written ≤ sticky.written) :
    Moves r s { s with
      host := host, sticky := sticky, counters := counters, flash := flash, ledger := ledger, streams := streams
      sifters := sifters, fabric := fabric, free := free, out := out } := by
  refine .workingWith (fun ⟨rising, bound⟩ => ?_) id id
  rw [StickyOk, slots]
  refine ⟨rising, fun p hp => ?_⟩
  obtain ⟨index, seq⟩ := bound p hp
  exact ⟨index, seq.trans written⟩

/-- An update of the parts of control and of the working parts that keeps what `Sound` says of them. -/
theorem Moves.controlWith {s : State} {tally host sticky counters flash ledger compute streams sifters fabric free out}
    {pen steward dev milny units keys power} (serial : PenOk s → PenOk { s with pen := pen })
    (store : StickyOk s → StickyOk { s with sticky := sticky }) (entries : TallyOk s → TallyOk { s with tally := tally })
    (memory : MemoryOk s → MemoryOk { s with compute := compute }) :
    Moves .control s { s with
      pen := pen, steward := steward, dev := dev, milny := milny, units := units, keys := keys, power := power
      tally := tally, host := host, sticky := sticky, counters := counters, flash := flash, ledger := ledger, compute := compute
      streams := streams, sifters := sifters, fabric := fabric, free := free, out := out } :=
  ⟨fun p hp => by cases p <;> first | rfl | exact absurd (by decide) hp,
    fun ⟨p, k, b, a, m⟩ => ⟨serial p, store k, b, entries a, memory m⟩⟩

/-- An update of control and of working parts that `Sound` does not speak of. -/
theorem Moves.control {s : State} {host counters flash ledger streams sifters fabric free out steward dev milny units keys power} :
    Moves .control s { s with
      steward := steward, dev := dev, milny := milny, units := units, keys := keys, power := power
      host := host, counters := counters, flash := flash, ledger := ledger, streams := streams, sifters := sifters, fabric := fabric
      free := free, out := out } :=
  .controlWith id id id id

/-- An update of any part but the queue of the waiting commands that keeps what `Sound` says. -/
theorem Moves.platformWith {s : State} {ident od tally units dev pen steward bell host sticky counters freeze flash ledger compute}
    {streams sifters fabric milny power update keys rails sampled edge free out}
    (serial : PenOk s → PenOk { s with pen := pen }) (store : StickyOk s → StickyOk { s with sticky := sticky })
    (keeper : BellOk s → BellOk { s with bell := bell }) (entries : TallyOk s → TallyOk { s with tally := tally })
    (memory : MemoryOk s → MemoryOk { s with compute := compute }) :
    Moves .platform s ⟨ident, od, tally, units, dev, pen, steward, bell, host, sticky, counters, freeze, flash, ledger, compute, streams,
      sifters, fabric, milny, power, update, keys, rails, sampled, edge, free, out, s.pending⟩ :=
  ⟨fun p hp => by cases p <;> first | rfl | exact absurd (by decide) hp,
    fun ⟨p, k, b, a, m⟩ => ⟨serial p, store k, keeper b, entries a, memory m⟩⟩

/-- An update of parts that `Sound` does not speak of. -/
theorem Moves.platform {s : State} {ident od units dev steward host counters freeze flash ledger streams sifters fabric milny power}
    {update keys rails sampled edge free out} :
    Moves .platform s ⟨ident, od, s.tally, units, dev, s.pen, steward, s.bell, host, s.sticky, counters, freeze, flash, ledger,
      s.compute, streams, sifters, fabric, milny, power, update, keys, rails, sampled, edge, free, out, s.pending⟩ :=
  .platformWith id id id id id

theorem OnlyChanges.withinReach {ps : List Part} {r : Reach} {s t : State} (a : OnlyChanges ps s t)
    (h : ps ⊆ workingParts) : OnlyChanges r.parts s t := (a.mono h).mono (workingParts_subset r)

/-- What is sound of the state that work begins in may be used where the work is one that changes no part out of reach. -/
theorem Moves.given {r : Reach} {s t : State} (only : OnlyChanges r.parts s t) (h : Sound s → Moves r s t) : Moves r s t :=
  ⟨only, fun hs => (h hs).sound hs⟩

/-- What a command answers, it answers within reach. -/
structure Answers (r : Reach) (s : State) (o : Outcome State Fault Refusal) : Prop where
  moves : ∀ t, o = .next t → Moves r s t

theorem Answers.next {r : Reach} {s t : State} (h : Moves r s t) : Answers r s (.next t) := ⟨fun _ e => by cases e; exact h⟩

theorem Answers.ite {r : Reach} {s : State} {o p : Outcome State Fault Refusal} {c : Prop} [Decidable c] (a : Answers r s o)
    (b : Answers r s p) : Answers r s (if c then o else p) := by split <;> assumption

end Sys2Proof.Machine
end

section
/-! ## The tables that `Sound` speaks of -/

namespace Sys2Proof.Machine

open Host (Outcome)

variable {ρ : Reach}

/-- The entry `q` stands where `p` stands, and is one of the host only where `p` is, with the same parent. -/
def SameRoot (p q : Nat × Entry) : Prop := q.1 = p.1 ∧ (q.2.origin.kind = .host → p.2.origin.kind = .host ∧ q.2.parent = p.2.parent)

theorem TallyOk.mapEntries {s t : State} {f : Nat × Entry → Nat × Entry} (h : TallyOk s) (hf : ∀ p, SameRoot p (f p))
    (entries : t.tally.entries = s.tally.entries.map f) (waiting : t.tally.waiting ⊆ s.tally.waiting) : TallyOk t := by
  obtain ⟨rising, roots, waits⟩ := h
  refine ⟨?_, ?_, fun r hr => waits r (waiting hr)⟩
  · rw [entries]; exact map_rising _ _ (fun p => (hf p).1) rising
  · rw [entries]
    intro q hq hk
    obtain ⟨p, hp, rfl⟩ := List.mem_map.mp hq
    obtain ⟨-, same⟩ := hf p
    obtain ⟨host, parent⟩ := same hk
    rw [parent]
    exact roots p hp host

theorem TallyOk.filterEntries {s t : State} {f : Nat × Entry → Bool} (h : TallyOk s)
    (entries : t.tally.entries = s.tally.entries.filter f) (waiting : t.tally.waiting ⊆ s.tally.waiting) : TallyOk t := by
  obtain ⟨rising, roots, waits⟩ := h
  refine ⟨?_, ?_, fun r hr => waits r (waiting hr)⟩
  · rw [entries]; exact filter_rising _ _ rising
  · rw [entries]
    exact fun p hp => roots p (List.mem_filter.mp hp).1

theorem TallyOk.put {s t : State} {i : Nat} {e : Entry} (h : TallyOk s) (root : e.origin.kind = .host → e.parent = none)
    (entries : t.tally.entries = tput s.tally.entries i e) (waiting : t.tally.waiting ⊆ s.tally.waiting) : TallyOk t := by
  obtain ⟨rising, roots, waits⟩ := h
  refine ⟨?_, ?_, fun r hr => waits r (waiting hr)⟩
  · rw [entries]; exact tput_rising _ _ _ rising
  · rw [entries]
    intro p hp
    rcases mem_tput _ _ _ _ hp with rfl | hp
    · exact root
    · exact roots p hp

theorem TallyOk.waits {s t : State} (h : TallyOk s) (entries : t.tally.entries = s.tally.entries)
    (waiting : ∀ r ∈ t.tally.waiting, r ∈ s.tally.waiting ∨ (r.origin.kind = .host → r.parent = none)) : TallyOk t := by
  obtain ⟨rising, roots, waits⟩ := h
  refine ⟨entries ▸ rising, entries ▸ roots, fun r hr => ?_⟩
  rcases waiting r hr with h | h
  · exact waits r h
  · exact h

theorem Sound.tally {s : State} (h : Sound s) : TallyOk s := by
  obtain ⟨-, -, -, tally, -⟩ := h
  exact tally

/-- Every listed entry of the tally that is of the host is a root. -/
theorem TallyOk.rootOfEntry {s : State} {i : Nat} {e : Entry} (h : TallyOk s) (he : entryAt s i = some e) :
    e.origin.kind = .host → e.parent = none := by
  obtain ⟨-, roots, -⟩ := h
  exact roots _ (tget_mem he)

/-- Entries change in what says neither where they stand nor where they came from. -/
theorem Moves.mapEntries {s : State} {f : Nat × Entry → Nat × Entry} (hf : ∀ p, SameRoot p (f p)) :
    Moves ρ s { s with tally := { s.tally with entries := s.tally.entries.map f } } :=
  .workingWith id (fun h => h.mapEntries hf rfl (List.Subset.refl _)) id

/-- Requests leave the line of those that wait, beside an update of other working parts. -/
theorem Moves.unwait {s : State} {f : Request → Bool} {host counters flash ledger streams sifters fabric free out} :
    Moves ρ s { s with
      tally := { s.tally with waiting := s.tally.waiting.filter f }, host := host, counters := counters, flash := flash
      ledger := ledger, streams := streams, sifters := sifters, fabric := fabric, free := free, out := out } :=
  .workingWith id (fun h => h.waits rfl (fun _ hr => .inl (List.mem_filter.mp hr).1)) id

theorem Moves.unwaitOne {s : State} {r : Request} :
    Moves ρ s { s with tally := { s.tally with waiting := s.tally.waiting.erase r } } :=
  .workingWith id (fun h => h.waits rfl (fun _ hr => .inl (List.mem_of_mem_erase hr))) id

theorem mem_replace {α : Type} [BEq α] [LawfulBEq α] {l : List α} {a b x : α} (h : x ∈ l.replace a b) : x ∈ l ∨ (a ∈ l ∧ x = b) := by
  induction l with
  | nil => cases h
  | cons y l ih =>
    rw [List.replace_cons] at h
    split at h
    · next e =>
      rcases List.mem_cons.mp h with rfl | h
      · exact .inr ⟨by simp [eq_of_beq e], rfl⟩
      · exact .inl (List.mem_cons_of_mem _ h)
    · rcases List.mem_cons.mp h with rfl | h
      · exact .inl (List.mem_cons_self ..)
      · exact (ih h).imp (List.mem_cons_of_mem _) (fun ⟨ha, hb⟩ => ⟨List.mem_cons_of_mem _ ha, hb⟩)

/-- A request that is refused stays where it stood in the line. -/
theorem Moves.refused {s : State} {r : Request} {n : Nat} :
    Moves ρ s { s with tally := { s.tally with waiting := s.tally.waiting.replace r { r with refusals := n } } } := by
  refine .workingWith id (fun h => h.waits rfl (fun q hq => ?_)) id
  obtain ⟨-, -, waits⟩ := h
  exact (mem_replace hq).imp_right (fun ⟨hr, e⟩ => e ▸ waits r hr)

/-- Subsystem Local Memory takes a run of bytes. -/
theorem Moves.writeSlm {s : State} {a : Nat} {b : Bytes} :
    Moves ρ s { s with compute := { s.compute with slm := mwrite s.compute.slm a b } } :=
  .workingWith id id (mwrite_wf _ _ _)

theorem BellOk.ofSame {s t : State} (h : BellOk s) (count : t.bell.count = s.bell.count) (step : t.bell.step = s.bell.step)
    (chime : t.bell.chime = s.bell.chime) (log : t.bell.log = s.bell.log) : BellOk t := by
  rw [BellOk, count, step, chime, log]
  exact h

/-- The bell keeper changes alone. -/
theorem Moves.setBell {s : State} {b : Bell} (keeper : BellOk s → BellOk { s with bell := b }) :
    Moves .platform s { s with bell := b } := .platformWith id id keeper id id

theorem StickyOk.ofSlots {s t : State} (h : StickyOk s) (slots : t.sticky.slots = s.sticky.slots)
    (written : s.sticky.written ≤ t.sticky.written) : StickyOk t := by
  obtain ⟨rising, bound⟩ := h
  rw [StickyOk, slots]
  refine ⟨rising, fun p hp => ?_⟩
  obtain ⟨index, seq⟩ := bound p hp
  exact ⟨index, seq.trans written⟩

theorem StickyOk.put {s t : State} {i : Nat} {x : StickySlot} (h : StickyOk s) (hi : i < 768) (seq : x.record.seq ≤ t.sticky.written)
    (slots : t.sticky.slots = tput s.sticky.slots i x) (written : s.sticky.written ≤ t.sticky.written) : StickyOk t := by
  obtain ⟨rising, bound⟩ := h
  rw [StickyOk, slots]
  refine ⟨tput_rising _ _ _ rising, fun p hp => ?_⟩
  rcases mem_tput _ _ _ _ hp with rfl | hp
  · exact ⟨hi, seq⟩
  · obtain ⟨index, seq⟩ := bound p hp
    exact ⟨index, seq.trans written⟩

theorem mem_insertBy {α : Type} {le : α → α → Bool} {x y : α} {l : List α} (h : y ∈ insertBy le x l) : y = x ∨ y ∈ l := by
  induction l with
  | nil => exact .inl (by simpa [insertBy] using h)
  | cons z l ih =>
    unfold insertBy at h
    split at h
    · exact List.mem_cons.mp h
    · rcases List.mem_cons.mp h with rfl | h
      · exact .inr (List.mem_cons_self ..)
      · exact (ih h).imp_right (List.mem_cons_of_mem _)

theorem mem_of_mem_sortBy {α : Type} {le : α → α → Bool} {y : α} {l : List α} (h : y ∈ sortBy le l) : y ∈ l := by
  induction l with
  | nil => exact h
  | cons x l ih =>
    rcases mem_insertBy h with rfl | h
    · exact List.mem_cons_self ..
    · exact List.mem_cons_of_mem _ (ih h)

/-- The slot that a record goes to is one of the 768. -/
theorem stickySlotFor_lt {s : State} {i : Nat} (h : StickyOk s) (hi : stickySlotFor s.sticky.slots = some i) : i < 768 := by
  obtain ⟨-, bound⟩ := h
  unfold stickySlotFor at hi
  split at hi
  · next j hj =>
    cases hi
    exact List.mem_range.mp (List.mem_of_find?_eq_some hj)
  · obtain ⟨p, hp, rfl⟩ := Option.map_eq_some_iff.mp hi
    have cleared := mem_of_mem_sortBy (List.mem_of_head? hp)
    exact (bound p (List.mem_filter.mp cleared).1).1

theorem nextSerial_bounds (n : Nat) : nextSerial n < 65536 ∧ nextSerial n ≠ 0 := by
  unfold nextSerial
  split <;> omega

end Sys2Proof.Machine
end

section
/-! ## The torus: how far the work reaches, and what it keeps -/

namespace Sys2Proof.Machine

variable {ρ : Reach}

theorem portMod_moves (s : State) (p : Nat) (f : Port → Port) : Moves ρ s (portMod s p f) := .working

end Sys2Proof.Machine
end

section
/-! ## The named operations: how far the work reaches, and what it keeps -/

namespace Sys2Proof.Machine

variable {ρ : Reach}

theorem odSet_moves (s : State) (idx sub v : Nat) : Moves .platform s (odSet s idx sub v) := .platform

theorem drawFree_moves (s : State) : Moves ρ s (drawFree s).2 := .working

theorem drawBytes_moves (s : State) (n : Nat) : Moves ρ s (drawBytes s n).2 := .working

theorem emit_moves (s : State) (o : Out) : Moves ρ s (emit s o) := .working

theorem raiseRecord_moves (s : State) (r : Record) : Moves ρ s (raiseRecord s r) := by
  unfold raiseRecord
  dsimp only
  exact .ite (.ite (.sticky rfl (Nat.le_refl _)) (.sticky rfl (Nat.le_succ _))) (.sticky rfl (Nat.le_refl _))

theorem bellLog_moves (s : State) (code unit old new : Nat) (detail : Int) : Moves .platform s (bellLog s code unit old new detail) :=
  .platformWith id id (fun ⟨count, step, chime, _⟩ => ⟨count, step, chime, by simp only [List.length_drop]; omega⟩) id id

theorem count_moves (s : State) (idx sub n : Nat) : Moves ρ s (count s idx sub n) := by
  unfold count
  dsimp only
  refine .ite .refl ?_
  split
  · exact .refl
  · exact .working
  · exact .trans .working <| .ite (raiseRecord_moves ..) .refl
  · exact .trans .working <| .ite (raiseRecord_moves ..) .refl

theorem unitMod_moves (s : State) (u : Nat) (f : UnitSt → UnitSt) : Moves .control s (unitMod s u f) := .control

theorem taskEnds_moves (s : State) (u : Nat) : Moves .control s (taskEnds s u) := .ite (unitMod_moves ..) .refl

theorem queueMsg_moves (s : State) (p : Nat) (onRing : Bool) (x : Txn) (type status : Nat) (data : List Nat) :
    Moves ρ s (queueMsg s p onRing x type status data) := portMod_moves ..

theorem routeMsg_moves (s : State) (via : Option Nat) (x : Txn) (type status : Nat) (data : List Nat) :
    Moves ρ s (routeMsg s via x type status data) := by
  unfold routeMsg
  split
  · exact queueMsg_moves ..
  · exact count_moves ..

theorem sendMsg_moves (s : State) (x : Txn) (type status : Nat) (data : List Nat) : Moves ρ s (sendMsg s x type status data) :=
  routeMsg_moves ..

theorem sendReply_moves (s : State) (x : Txn) (type status bell : Nat) (data : List Nat) :
    Moves ρ s (sendReply s x type status bell data) :=
  sendMsg_moves ..

theorem admitEntry_moves (s : State) (r : Request) (root : r.origin.kind = .host → r.parent = none) :
    Moves ρ s (admitEntry s r).2 := .workingWith id (fun h => h.put root rfl (List.Subset.refl _)) id

theorem entryMod_moves (s : State) (i : Nat) (f : Entry → Entry)
    (kept : ∀ e, (f e).origin.kind = .host → e.origin.kind = .host ∧ (f e).parent = e.parent) : Moves ρ s (entryMod s i f) :=
  .mapEntries (fun p => by
    split
    · exact ⟨rfl, kept p.2⟩
    · exact ⟨rfl, fun h => ⟨h, rfl⟩⟩)

theorem markDispatched_moves (s : State) (n i : Nat) : Moves ρ s (markDispatched s n i) := by
  induction n generalizing s i with
  | zero => exact .refl
  | succ n ih =>
    unfold markDispatched
    split
    · exact .refl
    · dsimp only
      have marked := entryMod_moves (ρ := ρ) s i (fun e => { e with dispatched := true }) (fun _ h => ⟨h, rfl⟩)
      split
      · exact marked
      · exact marked.trans (ih ..)

theorem setRunning_moves (s : State) (i : Nat) : Moves ρ s (setRunning s i) :=
  .trans (entryMod_moves _ _ _ (by exact fun _ h => ⟨h, rfl⟩)) <| markDispatched_moves ..

theorem setState_moves (s : State) (i : Nat) (st : EState) : Moves ρ s (setState s i st) :=
  entryMod_moves _ _ _ (by exact fun _ h => ⟨h, rfl⟩)

theorem replan_moves (s : State) (entry : Nat) (st : EState) : Moves ρ s (replan s entry st) :=
  entryMod_moves _ _ _ (by exact fun _ h => ⟨h, rfl⟩)

theorem charge_moves (s : State) (i : Nat) : Moves .control s (charge s i) := .control

theorem defer_moves (s : State) (i : Nat) : Moves .control s (defer s i) := .ite (.trans .control <| count_moves ..) .refl

theorem withBudget_moves {place : State → State} (hp : ∀ s, Moves .control s (place s)) (s : State) (i : Nat) :
    Moves .control s (withBudget s i place) := .ite (.trans (charge_moves ..) <| hp _) (defer_moves ..)

theorem await_moves (s : State) (r : Request) (root : r.origin.kind = .host → r.parent = none) :
    Moves ρ s (await s r) := by
  refine .workingWith id (fun h => h.waits rfl (fun q hq => (List.mem_append.mp hq).imp_right (fun hr => ?_))) id
  rw [List.mem_singleton.mp hr]
  exact root

theorem dropWork_moves (s : State) (gone : List Nat) : Moves ρ s (dropWork s gone) :=
  .workingWith id (fun h => h.filterEntries rfl (fun _ hr => (List.mem_filter.mp hr).1)) id

theorem freeFamily_moves (s : State) (i : Nat) : Moves ρ s (freeFamily s i) := dropWork_moves ..

theorem raiseEvent_moves (s : State) (info : Nat) : Moves ρ s (raiseEvent s info) := .ite .working .refl

theorem warnHost_moves (s : State) (k info : Nat) : Moves ρ s (warnHost s k info) := .ite .refl (.trans .working <| raiseEvent_moves ..)

theorem pageRead_moves (s : State) (page : Nat) (rae : Bool) : Moves ρ s (pageRead s page rae) := .ite .refl .working

theorem interrupt_moves (s : State) (sq : Nat) : Moves ρ s (interrupt s sq) := by
  unfold interrupt
  split
  · exact .ite (emit_moves ..) .refl
  · split <;> exact .ite (emit_moves ..) .refl

theorem postOnly_moves (s : State) (sq cid : Nat) (st : Status) (dw0 dw1 : Nat) : Moves ρ s (postOnly s sq cid st dw0 dw1) :=
  .trans (emit_moves ..) <| interrupt_moves ..

theorem reportEvents_moves (s : State) (aers events : List Nat) : Moves ρ s (reportEvents s aers events) := by
  induction aers generalizing s events with
  | nil => exact .refl
  | cons cid aers ih =>
    cases events with
    | nil => exact .refl
    | cons info events => exact (Moves.trans .working (emit_moves ..)).trans ((interrupt_moves ..).trans (ih ..))

theorem postEvents_moves (s : State) : Moves ρ s (postEvents s) := reportEvents_moves ..

theorem unwait_moves (s : State) (sq cid : Nat) : Moves ρ s (unwait s sq cid) := .unwait

theorem abortOne_moves (sq : Nat) (s : State) (c : Nat × Nat × Option Nat) : Moves ρ s (abortOne sq s c) := by
  unfold abortOne
  dsimp only
  refine .trans ?_ <| .trans (postOnly_moves ..) <| count_moves ..
  split
  · exact freeFamily_moves ..
  · exact unwait_moves ..

theorem sqMod_moves (s : State) (sq : Nat) (f : Sq → Sq) : Moves ρ s (sqMod s sq f) := .working

theorem enterQuiet_moves (s : State) (sq : Nat) : Moves ρ s (enterQuiet s sq) := .trans (sqMod_moves ..) <| raiseEvent_moves ..

theorem freezeQueue_moves (s : State) (sq cid : Nat) (st : Status) (policy packed : Nat) :
    Moves ρ s (freezeQueue s sq cid st policy packed) :=
  .trans (sqMod_moves ..) <| .trans (.foldl (fun _ _ => abortOne_moves ..)) <| .trans (sqMod_moves ..) <| .trans (raiseEvent_moves ..) <|
    .ite (enterQuiet_moves ..) .refl

theorem judge_moves (s : State) (sq cid : Nat) (st : Status) (dispatched : Bool) (packed : Nat) :
    Moves ρ s (judge s sq cid st dispatched packed) := by
  unfold judge
  dsimp only
  split
  · exact .refl
  · refine .ite .refl (.ite .refl ?_)
    split
    · exact .ite (freezeQueue_moves ..) .refl
    · exact .ite .refl (.trans (sqMod_moves ..) <| .ite (enterQuiet_moves ..) .refl)
    · exact .refl

theorem queuePosting_moves (s : State) (p : Posting) : Moves ρ s (queuePosting s p) := .working

theorem conclude_moves (s : State) (i sq cid : Nat) (e : Entry) (st : Status) (dw0 dw1 : Nat) (data : List Nat) (dma : Bool)
    (root : e.origin.kind = .host → e.parent = none) : Moves ρ s (conclude s i sq cid e st dw0 dw1 data dma) := by
  refine .trans (.workingWith id (fun h => ?_) id) (queuePosting_moves ..)
  exact h.put (e := { e with state := .replying }) root rfl (List.Subset.refl _)

/-- The entry that ends stood in the tally, so that one of the host is a root. -/
theorem finishData_moves (s : State) (i : Nat) (st : Status) (dw0 dw1 : Nat) (data : List Nat) (dma : Bool) :
    Moves ρ s (finishData s i st dw0 dw1 data dma) := by
  refine .given (OnlyChanges.withinReach (finishData_only s i st dw0 dw1 data dma) (by decide)) (fun h => ?_)
  unfold finishData
  split
  · exact .refl
  · next e he =>
    split
    · exact .ite .refl (.trans (freeFamily_moves ..) (conclude_moves _ _ _ _ _ _ _ _ _ _ (h.tally.rootOfEntry he)))
    · exact freeFamily_moves ..

theorem finish_moves (s : State) (i : Nat) (st : Status) (dw0 dw1 : Nat) : Moves ρ s (finish s i st dw0 dw1) := finishData_moves ..

/-- The entry that ends stood in the tally, so that one of the host is a root. -/
theorem finishStopping_moves (s : State) (i : Nat) (st : Status) (dw0 dw1 : Nat) (data : List Nat) :
    Moves ρ s (finishStopping s i st dw0 dw1 data) := by
  refine .given (OnlyChanges.withinReach (finishStopping_only s i st dw0 dw1 data) (by decide)) (fun h => ?_)
  unfold finishStopping
  split
  · exact .refl
  · next e he =>
    split
    · exact .ite .refl (conclude_moves _ _ _ _ _ _ _ _ _ _ (h.tally.rootOfEntry he))
    · exact .refl

theorem postOne_moves (s : State) (p : Posting) : Moves ρ s (postOne s p) :=
  .ite .refl (.trans (.ite .refl (emit_moves ..)) <| .ite .working (.trans .working <| .trans (freeFamily_moves ..) <|
    .trans (postOnly_moves ..) <| judge_moves ..))

theorem closeDeleted_moves (s : State) (p : Nat × Nat) : Moves ρ s (closeDeleted s p) := by
  unfold closeDeleted
  dsimp only
  refine .ite .refl ?_
  split
  · exact .trans .working <| finish_moves ..
  · exact .working

theorem postAll_moves (s : State) : Moves ρ s (postAll s) :=
  .trans (.foldl (fun _ _ => postOne_moves ..)) <| .trans (.foldl (fun _ _ => closeDeleted_moves ..)) <|
    .foldl (fun _ _ => postOne_moves ..)

theorem replyTarget_moves (s : State) (t : TargetTxn) (status : Nat) (data : Bytes) (final : Bool) :
    Moves ρ s (replyTarget s t status data final) := .trans (sendReply_moves ..) <| .working

theorem failRequest_moves (s : State) (i : Nat) (st : Status) (dw0 : Nat) : Moves ρ s (failRequest s i st dw0) := by
  unfold failRequest
  dsimp only
  split
  · exact .refl
  · split
    · split
      · exact .ite (freeFamily_moves ..) (.trans (replyTarget_moves ..) <| freeFamily_moves ..)
      · exact freeFamily_moves ..
    · exact finish_moves ..

theorem transition_moves (s : State) (dst : DevState) (cause : Nat) (edge : Bool) : Moves .control s (transition s dst cause edge) :=
  .control

theorem drbg_moves (s : State) (n : Nat) : Moves .control s (drbg s n) := .control

theorem releasePen_moves (s : State) : Moves .control s (releasePen s) :=
  .ite .refl (.controlWith (fun ⟨fits, _⟩ => ⟨fits, nofun⟩) id id id)

theorem releasePenOf_moves (s : State) (m : Master) : Moves .control s (releasePenOf s m) := .ite (releasePen_moves ..) .refl

end Sys2Proof.Machine
end

section
/-! ## How a host command meets its meaning: how far the work reaches, and what it keeps -/

namespace Sys2Proof.Machine

variable {ρ : Reach}

theorem meetIo_moves {act : State → Nat → State} (ha : ∀ s i, Moves ρ s (act s i)) (s : State) (h : HostId) :
    Moves ρ s (meetIo s h act) := by
  unfold meetIo
  refine .ite .refl ?_
  split
  · exact .refl
  · exact .ite .refl (.ite (setState_moves ..) (.ite .refl (.ite (finish_moves ..) (.ite (finish_moves ..) (.ite (finish_moves ..)
      (.ite .refl (ha _ _)))))))

theorem serveIo_moves {act : State → Nat → State} (ha : ∀ s i, Moves ρ s (act s i)) (s : State) (h : HostId) :
    Moves ρ s (serveIo s h act) :=
  meetIo_moves (fun _ _ => .trans (setRunning_moves ..) <| ha _ _) ..

theorem rejectUnlisted_moves (s : State) : Moves ρ s (rejectUnlisted s) := .ite .refl (.foldl (fun _ _ => finish_moves ..))

theorem serveAdmin_moves {act : State → Nat → State} (ha : ∀ s i, Moves ρ s (act s i)) (s : State) (h : HostId) (inFault : Bool) :
    Moves ρ s (serveAdmin s h inFault act) := by
  unfold serveAdmin
  refine .ite .refl ?_
  split
  · exact .refl
  · exact .ite .refl (.ite (setState_moves ..) (.ite (finish_moves ..) (.trans (setRunning_moves ..) <| ha _ _)))

theorem serveQuietAdmin_moves {act : State → Nat → State} (ha : ∀ s i, Moves ρ s (act s i)) (s : State) (h : HostId) :
    Moves ρ s (serveQuietAdmin s h act) := by
  unfold serveQuietAdmin
  refine .ite ?_ (serveAdmin_moves (fun _ _ => ha _ _) ..)
  split
  · exact .refl
  · exact .ite .refl (.trans (setRunning_moves ..) <| finish_moves ..)

theorem serveVendorAdmin_moves {act : State → Nat → State} (ha : ∀ s i, Moves ρ s (act s i)) (s : State) (h : HostId) (inFault : Bool) :
    Moves ρ s (serveVendorAdmin s h inFault act) := serveAdmin_moves (fun _ _ => .ite (ha _ _) (finish_moves ..)) ..

theorem serveVendorIo_moves {act : State → Nat → State} (ha : ∀ s i, Moves ρ s (act s i)) (s : State) (h : HostId) :
    Moves ρ s (serveVendorIo s h act) := serveIo_moves (fun _ _ => .ite (ha _ _) (finish_moves ..)) ..

theorem meetVendorIo_moves {act : State → Nat → State} (ha : ∀ s i, Moves ρ s (act s i)) (s : State) (h : HostId) :
    Moves ρ s (meetVendorIo s h act) := meetIo_moves (fun _ _ => .ite (ha _ _) (finish_moves ..)) ..

end Sys2Proof.Machine
end

section
/-! ## Dies, the map and bands: how far the work reaches, and what it keeps -/

namespace Sys2Proof.Machine

variable {ρ : Reach}

theorem dieMod_moves (s : State) (d : Nat) (f : Die → Die) : Moves ρ s (dieMod s d f) := .working

theorem mapSet_moves (s : State) (iu : Nat) (e : MapEntry) : Moves ρ s (mapSet s iu e) := .working

theorem checkpointSegment_moves (s : State) (seg : Nat) : Moves ρ s (checkpointSegment s seg) := .working

theorem bandMod_moves (s : State) (k : Nat) (f : Band → Band) : Moves ρ s (bandMod s k f) := .working

theorem accrueOne_moves (s : State) (g : Nat) : Moves ρ s (accrueOne s g) := .working

theorem accrueCredit_moves (s : State) : Moves ρ s (accrueCredit s) := .foldl (fun _ _ => .ite .refl (accrueOne_moves ..))

theorem wearCheck_moves (s : State) : Moves ρ s (wearCheck s) := .ite (.trans .working <| raiseRecord_moves ..) (.ite .working .refl)

theorem lowerValid_moves (s : State) (loc : Nat) : Moves ρ s (lowerValid s loc) := bandMod_moves ..

theorem unmapIu_moves (s : State) (iu : Nat) : Moves ρ s (unmapIu s iu) :=
  .ite .refl (.trans (.ite (lowerValid_moves ..) .refl) <| mapSet_moves ..)

theorem unmapExtent_moves (s : State) (x : Nat) : Moves ρ s (unmapExtent s x) := .foldl (fun _ _ => unmapIu_moves ..)

end Sys2Proof.Machine
end

section
/-! ## Stripe rows and word lines: how far the work reaches, and what it keeps -/

namespace Sys2Proof.Machine

variable {ρ : Reach}

theorem placePages_moves (s : State) (die block : Nat) (pages : List SourcePage) : Moves ρ s (placePages s die block pages) :=
  .foldl (fun _ _ => by
    split
    · split
      · exact .working
      · exact .refl
    · split
      · exact .working
      · exact .refl
    · exact .refl)

theorem unplace_moves (s : State) (d : Nat) : Moves ρ s (unplace s d) := .working

theorem mapTo_moves (s : State) (iu loc poison : Nat) : Moves ρ s (mapTo s iu loc poison) :=
  .trans (.ite (lowerValid_moves ..) .refl) <| .trans .working <| .trans (mapSet_moves ..) <| bandMod_moves ..

theorem putPage_moves (s : State) (loc : Nat) (p : FlashPage) (openRow : Bool) : Moves ρ s (putPage s loc p openRow) := .working

theorem landStaged_moves (s : State) (loc : Nat) (g : Staged) : Moves ρ s (landStaged s loc g) :=
  .trans .working <| .trans (putPage_moves ..) <| .ite (mapTo_moves ..) .refl

theorem landCopy_moves (s : State) (loc : Nat) (c : Copied) : Moves ρ s (landCopy s loc c) :=
  .trans .working <| .trans (putPage_moves ..) <| .ite (.trans (count_moves ..) <| mapTo_moves ..) (count_moves ..)

theorem landPage_moves (die : Nat) (s : State) (loc : Nat) (p : SourcePage) : Moves ρ s (landPage die s loc p) := by
  unfold landPage
  split
  · split
    · exact putPage_moves ..
    · exact landStaged_moves ..
  · split
    · exact putPage_moves ..
    · exact landCopy_moves ..
  · exact putPage_moves ..
  · exact putPage_moves ..
  · exact putPage_moves ..

theorem landProgram_moves (s : State) (die : Nat) (p : DieProgram) : Moves ρ s (landProgram s die p) :=
  .trans (.foldl (fun _ _ => landPage_moves ..)) <| .trans (.ite .working .refl) <| .ite .refl .working

theorem lineDone_moves (s : State) (k : Nat) : Moves ρ s (lineDone s k) := bandMod_moves ..

theorem restageLoc_moves (k : Nat) (s : State) (loc : Nat) : Moves ρ s (restageLoc k s loc) := by
  unfold restageLoc
  dsimp only
  split
  · exact .refl
  · refine .ite .refl ?_
    split <;> exact .working

theorem abandonLine_moves (s : State) (die : Nat) (p : DieProgram) : Moves ρ s (abandonLine s die p) :=
  .trans (unplace_moves ..) <| .trans (.ite (.foldl (fun _ _ => restageLoc_moves ..)) .refl) <|
    .trans (.foldl (fun _ _ => putPage_moves ..)) <| lineDone_moves ..

theorem fdpEvent_moves (s : State) (code handle rg : Nat) : Moves ρ s (fdpEvent s code handle rg) := .working

end Sys2Proof.Machine
end

section
/-! ## Resets: how far the work reaches, and what it keeps -/

namespace Sys2Proof.Machine

variable {ρ : Reach}

theorem storeOne_moves (s : State) (r : Record) : Moves ρ s (storeOne s r) := by
  unfold storeOne
  dsimp only
  refine .trans ?_ (raiseEvent_moves ..)
  split
  next i hi => exact .workingWith (fun h => h.put (stickySlotFor_lt h hi) (Nat.le_refl _) rfl (Nat.le_succ _)) id id
  next => exact .sticky rfl (Nat.le_succ _)

theorem storeRecords_moves (s : State) : Moves ρ s (storeRecords s) :=
  .ite .refl (.trans (.sticky (by rfl) (by exact Nat.le_refl _)) <| .foldl (fun _ _ => storeOne_moves ..))

theorem gangsMod_moves (s : State) (inv : Nat) (f : Gang → Gang) : Moves ρ s (gangsMod s inv f) := .compute (by rfl)

theorem invMod_moves (s : State) (inv : Nat) (f : Invocation → Invocation) : Moves ρ s (invMod s inv f) := .compute (by rfl)

theorem endTicket_moves (s : State) (inv n st : Nat) : Moves ρ s (endTicket s inv n st) := by
  unfold endTicket
  dsimp only
  split
  · exact .refl
  · exact .ite .refl (.trans (gangsMod_moves ..) <| invMod_moves ..)

theorem failTicket_moves (s : State) (i : Nat) : Moves ρ s (failTicket s i) := by
  unfold failTicket
  split
  · exact .trans (endTicket_moves ..) <| freeFamily_moves ..
  · exact freeFamily_moves ..

theorem endOldEntry_moves (s : State) (i : Nat) : Moves ρ s (endOldEntry s i) := by
  unfold endOldEntry
  split
  · exact .refl
  · split
    · exact failTicket_moves ..
    · exact freeFamily_moves ..
    · exact freeFamily_moves ..
    · exact failRequest_moves ..

theorem askAgain_moves (s : State) (d : Nat) (p : Pending) : Moves ρ s (askAgain s d p) := by
  unfold askAgain
  split <;> exact await_moves _ _ (by nofun)

theorem resetDie_moves (s : State) (d : Nat) : Moves ρ s (resetDie s d) := by
  unfold resetDie
  dsimp only
  split
  · exact .refl
  · split
    · refine .trans ?_ <| .trans (dieMod_moves ..) <| askAgain_moves ..
      split
      · exact abandonLine_moves ..
      · exact .refl
    · refine .trans ?_ <| dieMod_moves ..
      split
      · exact abandonLine_moves ..
      · exact .refl

theorem retrainPort_moves (s : State) (p : Nat) : Moves ρ s (retrainPort s p) := .ite .refl (portMod_moves ..)

theorem failInvocation_moves (st : Status) (s : State) (inv : Nat) : Moves ρ s (failInvocation st s inv) := by
  unfold failInvocation
  split
  · exact .refl
  · exact failRequest_moves ..

theorem clearUnit_moves (s : State) (u : Nat) : Moves ρ s (clearUnit s u) := by
  refine .ite (.foldl fun _ _ => retrainPort_moves ..) (.ite ?_ (.ite ?_ (.ite (.foldl fun _ _ => failRequest_moves ..)
    (.ite (.foldl fun _ _ => resetDie_moves ..) (.ite (retrainPort_moves ..) .refl)))))
  · exact .workingWith id (fun h => h.waits rfl (fun _ hr => .inl (List.mem_filter.mp hr).1)) id
  · exact .trans (.foldl fun _ _ => failInvocation_moves ..) (.compute (by rfl))

theorem resetUnit_moves (s : State) (u cause : Nat) : Moves .platform s (resetUnit s u cause) :=
  .trans (.up (unitMod_moves ..)) <| .trans (.foldl (fun _ _ => endOldEntry_moves ..)) <| .trans (clearUnit_moves ..) <|
    .trans .platform <| count_moves ..

theorem featuresReset_moves (s : State) : Moves .control s (featuresReset s) := .control

theorem dropHostWork_moves (s : State) : Moves ρ s (dropHostWork s) := by
  have replying (p : Nat × Entry) :
      SameRoot p (if p.2.origin.kind = .host then (p.1, { p.2 with state := .replying }) else p) := by
    split <;> exact ⟨rfl, fun h => ⟨h, rfl⟩⟩
  exact .trans (dropWork_moves ..)
    (.workingWith id (fun h => h.mapEntries replying rfl (fun _ hr => (List.mem_filter.mp hr).1)) id)

theorem stopWork_moves (s : State) : Moves ρ s (stopWork s) := dropWork_moves ..

theorem policiesReset_moves (s : State) : Moves .platform s (policiesReset s) := .platform

theorem controllerReset_moves (s : State) (kind : Nat) : Moves .platform s (controllerReset s kind) := by
  unfold controllerReset
  dsimp only
  refine .trans ?_ (count_moves ..)
  refine .trans ?_ (.up (releasePenOf_moves ..))
  refine .trans ?_ (.up (unitMod_moves ..))
  refine .trans ?_ (.up (featuresReset_moves ..))
  refine .trans ?_ .platform
  exact .trans (dropHostWork_moves ..) (policiesReset_moves ..)

theorem guildLogWrite_moves (s : State) (code port old new member : Nat) (detail : Int) :
    Moves ρ s (guildLogWrite s code port old new member detail) := .working

theorem guildReset_moves (s : State) (cause : Nat) : Moves .platform s (guildReset s cause) := by
  unfold guildReset
  dsimp only
  refine .trans ?_ (count_moves ..)
  refine .trans ?_ (raiseEvent_moves ..)
  refine .trans ?_ (guildLogWrite_moves ..)
  refine .trans ?_ .platform
  exact .trans (.foldl fun _ _ => freeFamily_moves ..) (.foldl fun _ _ => failRequest_moves ..)

theorem save_moves (s : State) (durationUs : Nat) (markerOk : Bool) : Moves ρ s (save s durationUs markerOk) :=
  .trans (.sticky (by rfl) (by exact Nat.le_refl _)) <| .foldl (fun _ _ => storeOne_moves ..)

theorem endEverything_moves (s : State) : Moves .platform s (endEverything s) :=
  .platformWith (fun _ => penOk_reset) id id (fun _ => tallyOk_reset) id

theorem abandonLines_moves (s : State) : Moves ρ s (abandonLines s) := .foldl (fun _ _ => by
    split
    · exact abandonLine_moves ..
    · exact .refl)

theorem warmReset_moves (s : State) (cause cls : Nat) : Moves .platform s (warmReset s cause cls) := by
  unfold warmReset
  dsimp only
  refine .trans ?_ (count_moves ..)
  refine .trans ?_ (.up (transition_moves ..))
  refine .trans ?_ (.platformWith id id (by exact id) id (by exact id))
  exact .trans (raiseRecord_moves ..) (.trans (abandonLines_moves ..) (endEverything_moves ..))

theorem linkDown_moves (s : State) : Moves ρ s (linkDown s) := .working

theorem loseVolatile_moves (s : State) : Moves .platform s (loseVolatile s) :=
  (endEverything_moves ..).trans (.trans (linkDown_moves ..) (.platformWith id id id id (fun _ => memoryOk_reset)))

theorem coldReset_moves (s : State) (cause durationUs : Nat) (markerOk : Bool) :
    Moves .platform s (coldReset s cause durationUs markerOk) := by
  unfold coldReset
  dsimp only
  refine .trans ?_ (count_moves ..)
  refine .trans ?_ (.up (transition_moves ..))
  refine .trans ?_ .platform
  exact .trans (save_moves ..) (loseVolatile_moves ..)

theorem portsDown_moves (s : State) : Moves ρ s (portsDown s) := .working

theorem orderWarm_moves (s : State) (cause cls : Nat) : Moves .platform s (orderWarm s cause cls) := .ite .platform (warmReset_moves ..)

theorem releaseHeld_moves (s : State) : Moves ρ s (releaseHeld s) := .mapEntries (fun p => by split <;> exact ⟨rfl, fun h => ⟨h, rfl⟩⟩)

theorem enterFault_moves (s : State) : Moves .platform s (enterFault s) := by
  unfold enterFault
  dsimp only
  split
  · exact .trans (portsDown_moves ..) <| .trans (.up (transition_moves ..)) <| .trans (releaseHeld_moves ..) <| .trans .platform <|
      warmReset_moves ..
  · exact .trans (portsDown_moves ..) <| .trans (.up (transition_moves ..)) <| .trans (releaseHeld_moves ..) <| .trans .platform <|
      .ite (controllerReset_moves ..) .refl

theorem settleFault_moves (s : State) : Moves .platform s (settleFault s) := .ite (enterFault_moves ..) .refl

theorem faultClass_moves (s : State) (cls : Nat) (unit : Option Nat) : Moves .platform s (faultClass s cls unit) :=
  .ite .refl (.trans (raiseRecord_moves ..) <| .ite (orderWarm_moves ..) (.trans .platform <| settleFault_moves ..))

end Sys2Proof.Machine
end

section
/-! ## Limits and wake events: how far the work reaches, and what it keeps -/

namespace Sys2Proof.Machine

theorem idleTick_moves (s : State) : Moves .control s (idleTick s) := .ite .refl .control

theorem checkCaps_moves (s : State) : Moves .control s (checkCaps s) :=
  .trans (.ite (.trans .control <| raiseRecord_moves ..) .refl) <| .ite (.trans .control <| raiseRecord_moves ..) .refl

theorem wakeEvent_moves (s : State) (cause : Nat) : Moves .control s (wakeEvent s cause) :=
  .ite .refl (.trans .control <| .ite (count_moves ..) .refl)

end Sys2Proof.Machine
end

section
/-! ## The fabric and the guild: how far the work reaches, and what it keeps -/

namespace Sys2Proof.Machine

variable {ρ : Reach}

theorem peerMod_moves (s : State) (m : Nat) (f : Peer → Peer) : Moves ρ s (peerMod s m f) := .working

theorem setPort_moves (s : State) (p : Nat) (st : PortSt) : Moves ρ s (setPort s p st) :=
  .ite .refl (.trans (portMod_moves ..) <| .trans (guildLogWrite_moves ..) <| .working)

theorem sendPart_moves (s : State) (p : Nat) (k : Control) (part : Nat) (data : List Nat) : Moves ρ s (sendPart s p k part data) :=
  .ite (emit_moves ..) (queueMsg_moves ..)

theorem sendControl_moves (s : State) (p : Nat) (k : Control) (data : List Nat) : Moves ρ s (sendControl s p k data) := sendPart_moves ..

theorem sendRows_moves (s : State) (p : Nat) (k : Control) (width : Nat) (head : List Nat) (rows : List (List Nat)) :
    Moves ρ s (sendRows s p k width head rows) := .foldl (fun _ _ => sendPart_moves ..)

theorem flood_moves (s : State) (except : Option Nat) (k : Control) (data : List Nat) : Moves ρ s (flood s except k data) :=
  .foldl (fun _ _ => sendControl_moves ..)

theorem portDown_moves (s : State) (p : Nat) : Moves ρ s (portDown s p) := .trans (setPort_moves ..) <| portMod_moves ..

theorem dropPort_moves (s : State) (p : Nat) : Moves ρ s (dropPort s p) := .trans (portDown_moves ..) <| .ite .refl (setPort_moves ..)

theorem setMember_moves (s : State) (m : MemberSt) : Moves ρ s (setMember s m) :=
  .ite .refl (.trans .working <| .trans (guildLogWrite_moves ..) <| raiseEvent_moves ..)

theorem forgetLost_moves (s : State) (member epoch : Nat) : Moves ρ s (forgetLost s member epoch) := .working

theorem enterJoining_moves (s : State) : Moves ρ s (enterJoining s) :=
  .trans (forgetLost_moves ..) <| .trans .working <| setMember_moves ..

theorem startJoin_moves (s : State) : Moves ρ s (startJoin s) := .ite (enterJoining_moves ..) .refl

theorem pauseMember_moves (s : State) (resume : Nat) (byHoldover : Bool) : Moves ρ s (pauseMember s resume byHoldover) :=
  .ite (.trans .working <| .trans (setMember_moves ..) <| flood_moves ..) .refl

theorem resumeMember_moves (s : State) : Moves ρ s (resumeMember s) :=
  .ite (.trans .working <| .trans (setMember_moves ..) <| flood_moves ..) .refl

theorem guildResetJoin_moves (s : State) (cause : Nat) : Moves .platform s (guildResetJoin s cause) :=
  .trans (guildReset_moves ..) <| startJoin_moves ..

theorem goTo_moves (s : State) (dst : DevState) (cause resume : Nat) : Moves .platform s (goTo s dst cause resume) := by
  unfold goTo
  dsimp only
  split
  · exact .trans (.up (transition_moves ..)) <| pauseMember_moves ..
  · exact .trans (.up (transition_moves ..)) <| pauseMember_moves ..
  · exact .trans (.up (transition_moves ..)) <| pauseMember_moves ..
  · exact .trans (.up (transition_moves ..)) <| .ite (guildResetJoin_moves ..) (resumeMember_moves ..)
  · exact .up (transition_moves ..)

theorem origMod_moves (s : State) (tag : Nat) (f : OrigTxn → OrigTxn) : Moves ρ s (origMod s tag f) := .working

theorem dropOrig_moves (s : State) (o : OrigTxn) : Moves ρ s (dropOrig s o) := .ite .unwait (.trans .working <| freeFamily_moves ..)

theorem markMissing_moves (s : State) (parent member reason : Nat) : Moves ρ s (markMissing s parent member reason) := .working

theorem noteResume_moves (s : State) (parent member resume : Nat) : Moves ρ s (noteResume s parent member resume) := .working

theorem failOrig_moves (s : State) (o : OrigTxn) (st : Status) (dw0 reason : Nat) : Moves ρ s (failOrig s o st dw0 reason) :=
  .trans (dropOrig_moves ..) <| .ite (markMissing_moves ..) (failRequest_moves ..)

theorem holdOrig_moves (s : State) (o : OrigTxn) (r : Nat) : Moves ρ s (holdOrig s o r) :=
  .trans (.ite (noteResume_moves ..) .refl) <| .ite (failOrig_moves ..) (.trans (origMod_moves ..) <| setState_moves ..)

theorem sendFirst_moves (s : State) (o : OrigTxn) : Moves ρ s (sendFirst s o) :=
  .trans (setRunning_moves ..) <| .trans (setState_moves ..) <| .trans (origMod_moves ..) <| sendMsg_moves ..

theorem launch_moves (s : State) (o : OrigTxn) : Moves ρ s (launch s o) := by
  unfold launch
  dsimp only
  split
  · exact failOrig_moves ..
  · exact failOrig_moves ..
  · exact .ite (sendFirst_moves ..) (holdOrig_moves ..)
  · exact sendFirst_moves ..

theorem originate_moves (s : State) (parent type dst addr bell group purpose : Nat) (data : Bytes) (len : Nat) :
    Moves ρ s (originate s parent type dst addr bell group purpose data len).2 := by
  unfold originate
  dsimp only
  split
  · exact .refl
  · exact .trans .working <| await_moves _ _ (by nofun)

theorem refuseTxn_moves (s : State) (x : Txn) (type status bell : Nat) : Moves ρ s (refuseTxn s x type status bell) := sendReply_moves ..

theorem answer_moves (s : State) (x : Txn) (status : Nat) (data : Bytes) (final : Bool) : Moves ρ s (answer s x status data final) := by
  unfold answer
  dsimp only
  split
  · exact .refl
  · refine .ite ?_ (replyTarget_moves ..)
    split
    · exact .trans (replyTarget_moves ..) <| freeFamily_moves ..
    · exact replyTarget_moves ..

theorem forward_moves (s : State) (x : Txn) (type : Nat) (data : Bytes) : Moves ρ s (forward s x type data) :=
  .ite (count_moves ..) (routeMsg_moves ..)

theorem wakeInPs1_moves (s : State) : Moves .control s (wakeInPs1 s) := .ite (wakeEvent_moves ..) .refl

theorem meetTxn_moves (s : State) (x : Txn) (type : Nat) (data : Bytes) (k : Nat) : Moves .control s (meetTxn s x type data k) := by
  unfold meetTxn
  dsimp only
  refine .ite .refl (.ite (.trans (wakeInPs1_moves ..) <| forward_moves ..) ?_)
  split
  · exact wakeInPs1_moves ..
  · exact wakeInPs1_moves ..
  · refine .ite (.trans (wakeInPs1_moves ..) <| refuseTxn_moves ..) ?_
    split
    · exact .trans (wakeInPs1_moves ..) <| .trans (count_moves ..) <| .ite (replyTarget_moves ..) .refl
    · exact .trans (wakeInPs1_moves ..) <| .ite (refuseTxn_moves ..) (.trans .working <| await_moves _ _ (by nofun))

theorem takeArrived_moves (s : State) (src tag : Nat) : Moves ρ s (takeArrived s src tag).2 := by
  unfold takeArrived
  dsimp only
  split
  · exact .refl
  · exact .working

theorem refuseArrived_moves (s : State) (a : Arrived) : Moves ρ s (refuseArrived s a) := .trans .working <| refuseTxn_moves ..

theorem acceptArrived_moves {act : State → Nat → State} (ha : ∀ s i, Moves ρ s (act s i)) (s : State) (a : Arrived) (i : Nat) :
    Moves ρ s (acceptArrived s a i act) :=
  .trans .working <| .trans (.ite .refl (answer_moves ..)) <| .trans (setRunning_moves ..) <| ha _ _

theorem remoteMod_moves (s : State) (entry : Nat) (f : Remote → Remote) : Moves ρ s (remoteMod s entry f) := .working

theorem stageMsg_moves (s : State) (x : Txn) (addr : Nat) (data : Bytes) (stream : Option (Nat × Nat × Nat)) :
    Moves ρ s (stageMsg s x addr data stream) := .working

theorem dropGroup_moves (s : State) (x : Txn) : Moves ρ s (dropGroup s x) := .working

end Sys2Proof.Machine
end

section
/-! ## The bell keeper: how far the work reaches, and what it keeps -/

namespace Sys2Proof.Machine

theorem setAlign_moves (s : State) (a : Align) (lost : Nat) : Moves .platform s (setAlign s a lost) := by
  unfold setAlign
  dsimp only
  refine .ite .refl ?_
  refine .trans ?_ <| .trans (.setBell (by exact id)) <| .ite (raiseEvent_moves ..) .refl
  split
  · exact .trans (bellLog_moves ..) <| raiseRecord_moves ..
  · exact .trans (bellLog_moves ..) <| .ite (raiseRecord_moves ..) .refl
  · exact bellLog_moves ..

theorem takeUp_moves (s : State) (cnt : Nat) (phaseNs : Int) : Moves .platform s (takeUp s cnt phaseNs) := by
  unfold takeUp
  split
  · exact .setBell (fun ⟨count, _, chime, log⟩ => ⟨count, nofun, chime, log⟩)
  · dsimp only
    refine .trans ?_ (bellLog_moves ..)
    refine .setBell (fun ⟨count, _, chime, log⟩ => ⟨count, fun p hp => ?_, chime, log⟩)
    cases hp
    omega

theorem loadStep_only (s : State) (stretch new : Nat) : OnlyChanges [.bell, .sticky] s (loadStep s stretch new) := by
  have loaded (b : Bell) : OnlyChanges [.bell, .sticky] s { s with bell := b } :=
    fun p h => by cases p <;> first | exact absurd (by decide) h | rfl
  have logged (t : State) (d : Int) : OnlyChanges [.bell, .sticky] t (bellLog t 6 0 0 0 d) :=
    (bellLog_only t 6 0 0 0 d).mono (by decide)
  have recorded (t : State) (r : Record) : OnlyChanges [.bell, .sticky] t (raiseRecord t r) := (raiseRecord_only t r).mono (by decide)
  exact (loaded _).trans ((logged _ _).trans (recorded _ _))

/-- A count that is loaded fits 64 bits. -/
theorem loadStep_moves (s : State) (stretch : Nat) {new : Nat} (fits : new < 2 ^ 64) : Moves .platform s (loadStep s stretch new) := by
  unfold loadStep
  dsimp only
  refine .trans ?_ (raiseRecord_moves ..)
  refine .trans ?_ (bellLog_moves ..)
  exact .setBell (fun ⟨_, _, chime, log⟩ => ⟨fits, nofun, chime, log⟩)

theorem followSource_moves (s : State) (src cnt : Nat) (phaseNs : Int) : Moves .platform s (followSource s src cnt phaseNs) := by
  have followed (u : State) : Moves .platform u { u with bell := { u.bell with
      followed := src, hadSource := u.bell.hadSource || decide (src ≠ 0), slewPs := 0 } } :=
    .setBell fun h => h.ofSame rfl rfl rfl rfl
  unfold followSource
  dsimp only
  refine .ite .refl (.trans (bellLog_moves s 4 0 s.bell.followed src 0) (.trans (followed _) ?_))
  exact .ite (setAlign_moves ..) (.trans (takeUp_moves ..) (setAlign_moves ..))

theorem fallBack_moves (s : State) : Moves .platform s (fallBack s) :=
  .ite (.trans (drawFree_moves ..) <| followSource_moves ..) (followSource_moves ..)

theorem loseBellIn_moves (s : State) : Moves .platform s (loseBellIn s) :=
  .trans (.setBell (by exact id)) <| .ite (fallBack_moves ..) .refl

theorem loseGuild_moves (s : State) : Moves .platform s (loseGuild s) := .trans (.setBell (by exact id)) <| .ite (fallBack_moves ..) .refl

theorem measure_moves (s : State) (ps : Int) : Moves .platform s (measure s ps) :=
  .trans (drawFree_moves ..) <| .trans (.setBell (by exact id)) <| .ite (bellLog_moves ..) .refl

theorem changePeriod_moves (s : State) (code : Nat) : Moves .platform s (changePeriod s code) :=
  .ite .refl (.trans (odSet_moves ..) <| bellLog_moves ..)

end Sys2Proof.Machine
end

section
/-! ## Events of the bell keeper: how far the work reaches, and what it keeps -/

namespace Sys2Proof.Machine

theorem execHardOverrun_answers (unit : Nat) (s : State) :
    Answers .platform s (execHardOverrun unit s) :=
  .ite (.next .refl) (.ite (.next (.trans (raiseRecord_moves ..) <| .trans (bellLog_moves ..) <| .trans (.up (unitMod_moves ..)) <|
    faultClass_moves ..)) (.next (.trans (raiseRecord_moves ..) <| .trans (bellLog_moves ..) <| resetUnit_moves ..)))

theorem execSourceQualified_answers (src : BellSource) (srcCount : Nat) (phaseNs : Int) (s : State) :
    Answers .platform s (execSourceQualified src srcCount phaseNs s) := .ite (.next .refl) (.next (followSource_moves ..))

theorem execBellInFrame_answers (count : Nat) (intervalsOk : Bool) (s : State) :
    Answers .platform s (execBellInFrame count intervalsOk s) :=
  .ite (.next .refl) (.next (.trans (.ite (bellLog_moves ..) .refl) <| .trans (.ite (loseBellIn_moves ..) .refl) <|
    .setBell (by exact id)))

theorem execBellInLost_answers (_overCorrection : Bool) (s : State) :
    Answers .platform s (execBellInLost _overCorrection s) := .ite (.next .refl) (.next (loseBellIn_moves ..))

theorem execGuildSourceLost_answers (overCorrection : Bool) (s : State) :
    Answers .platform s (execGuildSourceLost overCorrection s) := .ite (.next .refl) (.next (loseGuild_moves ..))

theorem execAlignmentLocked_answers (s : State) :
    Answers .platform s (execAlignmentLocked s) :=
  .ite (.next .refl) (.next (.trans (setAlign_moves ..) <| .trans .platform <| resumeMember_moves ..))

theorem execAlignmentUnlocked_answers (s : State) :
    Answers .platform s (execAlignmentUnlocked s) := .ite (.next .refl) (.next (setAlign_moves ..))

end Sys2Proof.Machine
end

section
/-! ## Port sessions: how far the work reaches, and what it keeps -/

namespace Sys2Proof.Machine

variable {ρ : Reach}

theorem sessionMod_moves (s : State) (p : Nat) (f : Session → Session) : Moves ρ s (sessionMod s p f) := portMod_moves ..

theorem enterSecuring_moves (s : State) (p : Nat) : Moves .control s (enterSecuring s p) :=
  .trans (drbg_moves ..) <| .trans (drawFree_moves ..) <| .trans (drawFree_moves ..) <| .trans (setPort_moves ..) <|
    .trans (sessionMod_moves ..) <| sendControl_moves ..

theorem nextSession_moves (s : State) (p : Nat) : Moves .control s (nextSession s p) := .control

theorem enterChecking_moves (s : State) (p : Nat) : Moves .control s (enterChecking s p) :=
  .trans (setPort_moves ..) <| .trans (nextSession_moves ..) <| .trans (sessionMod_moves ..) <| .trans (portMod_moves ..) <|
    sendControl_moves ..

theorem execSessionHello_answers (port cert ephemeral random : Nat) (s : State) :
    Answers ρ s (execSessionHello port cert ephemeral random s) :=
  .ite (.next .refl) (.ite (.next (.trans (sessionMod_moves ..) <| .trans (drawFree_moves ..) <|
    sendControl_moves ..)) (.next (setPort_moves ..)))

theorem execSessionProof_answers (port signature : Nat) (s : State) :
    Answers .control s (execSessionProof port signature s) :=
  .ite (.next .refl) (.ite (.next (.trans (sessionMod_moves ..) <| enterChecking_moves ..)) (.next (setPort_moves ..)))

theorem execSecuringTimeout_answers (port : Nat) (s : State) :
    Answers ρ s (execSecuringTimeout port s) := .ite (.next .refl) (.next (setPort_moves ..))

theorem sendRekeyReq_moves (s : State) (p : Nat) : Moves .control s (sendRekeyReq s p) :=
  .trans (drbg_moves ..) <| .trans (drawFree_moves ..) <| .trans (drawFree_moves ..) <| .trans (drawFree_moves ..) <|
    .trans (sessionMod_moves ..) <| sendControl_moves ..

theorem execRekeyThreshold_answers (port : Nat) (s : State) :
    Answers .control s (execRekeyThreshold port s) := .ite (.next .refl) (.next (sendRekeyReq_moves ..))

theorem execRekeyReq_answers (port ephemeral random slot signature : Nat) (s : State) :
    Answers .control s (execRekeyReq port ephemeral random slot signature s) :=
  .ite (.next .refl) (.ite (.next .refl) (.ite (.next (.trans (drbg_moves ..) <| .trans (drawFree_moves ..) <|
    .trans (drawFree_moves ..) <| .trans (drawFree_moves ..) <| .trans (sessionMod_moves ..) <| sendControl_moves ..)) (.next .refl)))

theorem execRekeyRsp_answers (port ephemeral random slot signature : Nat) (s : State) :
    Answers ρ s (execRekeyRsp port ephemeral random slot signature s) :=
  .ite (.next .refl) (.ite (.next (sessionMod_moves ..)) (.next .refl))

theorem rekeyDone_moves (s : State) (p : Nat) : Moves ρ s (rekeyDone s p) := .ite (sessionMod_moves ..) .refl

theorem execRekeySwitch_answers (port : Nat) (transmit : Bool) (s : State) :
    Answers .control s (execRekeySwitch port transmit s) :=
  .ite (.next .refl) (.next (.trans (.ite (nextSession_moves ..) .refl) <| .trans (sessionMod_moves ..) <| rekeyDone_moves ..))

theorem execRekeyRetry_answers (port : Nat) (s : State) :
    Answers .control s (execRekeyRetry port s) := .ite (.next .refl) (.next (sendRekeyReq_moves ..))

theorem execNonceHardStop_answers (port : Nat) (s : State) :
    Answers ρ s (execNonceHardStop port s) := .ite (.next .refl) (.next (.trans (dropPort_moves ..) <| sessionMod_moves ..))

end Sys2Proof.Machine
end

section
/-! ## What a port sends: how far the work reaches, and what it keeps -/

namespace Sys2Proof.Machine

variable {ρ : Reach}

theorem portSlots_moves (s : State) (p : Nat) : Moves ρ s (portSlots s p) :=
  .ite .refl (.trans (portMod_moves ..) <| .trans (.ite .refl (emit_moves ..)) <| .trans (count_moves ..) <|
    .foldl (fun _ _ => emit_moves ..))

theorem portsChime_moves (s : State) : Moves ρ s (portsChime s) := .foldl (fun _ _ => portSlots_moves ..)

theorem dropDetours_moves (s : State) (p : Nat) : Moves ρ s (dropDetours s p) := .ite .refl (.trans (portMod_moves ..) <| count_moves ..)

end Sys2Proof.Machine
end

section
/-! ## Ports and links: how far the work reaches, and what it keeps -/

namespace Sys2Proof.Machine

variable {ρ : Reach}

theorem execPortProtectionDown_answers (port : Nat) (s : State) :
    Answers ρ s (execPortProtectionDown port s) :=
  .ite (.next .refl) (.next (.trans (.ite .refl (raiseRecord_moves ..)) <| dropPort_moves ..))

theorem execRateAdapt_answers (port ber12 : Nat) (s : State) :
    Answers ρ s (execRateAdapt port ber12 s) := by
  unfold execRateAdapt
  dsimp only
  refine .ite (.next .refl) ?_
  split
  · exact .next (.ite .refl (portMod_moves ..))
  · exact .ite (.next (.trans (.ite .refl (portMod_moves ..)) <| .trans (guildLogWrite_moves ..) <| .trans (dropPort_moves ..) <|
      portMod_moves ..)) (.ite (.next (.trans (.ite .refl (portMod_moves ..)) <| .trans (portMod_moves ..) <|
        raiseRecord_moves ..)) (.next (.ite .refl (portMod_moves ..))))

theorem execPortTrained_answers (port : Nat) (ok : Bool) (s : State) :
    Answers .control s (execPortTrained port ok s) :=
  .ite (.next .refl) (.ite (.next (.trans (drawFree_moves ..) <| .trans (portMod_moves ..) <|
    enterSecuring_moves ..)) (.ite (.next (.trans (portMod_moves ..) <| setPort_moves ..)) (.next (portMod_moves ..))))

theorem execLinkDown_answers (port : Nat) (s : State) :
    Answers ρ s (execLinkDown port s) := .ite (.next .refl) (.next (dropPort_moves ..))

theorem execAliveTimeout_answers (port : Nat) (s : State) :
    Answers ρ s (execAliveTimeout port s) := .ite (.next .refl) (.next (dropPort_moves ..))

theorem execControlAlive_answers (port : Nat) (s : State) :
    Answers ρ s (execControlAlive port s) := .ite (.next .refl) (.next (portMod_moves ..))

theorem badFlit_moves (s : State) (p : Nat) (tagFailed : Bool) : Moves ρ s (badFlit s p tagFailed) :=
  .trans (count_moves ..) <| .trans (portMod_moves ..) <| .ite (emit_moves ..) .refl

theorem goodFlit_moves (s : State) (p : Nat) (f : Flit) : Moves ρ s (goodFlit s p f) :=
  .ite .refl (.trans (portMod_moves ..) <| .ite (count_moves ..) .refl)

theorem execFlitReceived_answers (port : Nat) (f : Flit) (s : State) :
    Answers ρ s (execFlitReceived port f s) :=
  .ite (.next .refl) (.ite (.next (.trans (sessionMod_moves ..) <| badFlit_moves ..)) (.ite (.next (.trans (sessionMod_moves ..) <|
    badFlit_moves ..)) (.ite (.next (.trans (sessionMod_moves ..) <| portMod_moves ..)) (.ite (.next (.trans (sessionMod_moves ..) <|
      .trans (portMod_moves ..) <| .trans (portMod_moves ..) <| goodFlit_moves ..)) (.next (.trans (sessionMod_moves ..) <|
        .trans (portMod_moves ..) <| portMod_moves ..))))))

theorem execNak_answers (port seq : Nat) (s : State) :
    Answers ρ s (execNak port seq s) := .ite (.next .refl) (.next (.trans (sessionMod_moves ..) <| count_moves ..))

theorem execDetourDiscard_answers (port : Nat) (s : State) :
    Answers ρ s (execDetourDiscard port s) := .ite (.next .refl) (.next (dropDetours_moves ..))

theorem sendTables_moves (s : State) (p : Nat) : Moves ρ s (sendTables s p) := .trans (sendRows_moves ..) <| sendRows_moves ..

theorem execControlIdentity_answers (port guild member _epoch digest : Nat) (s : State) :
    Answers ρ s (execControlIdentity port guild member _epoch digest s) :=
  .ite (.next .refl) (.ite (.next (.trans (portMod_moves ..) <| .trans (portMod_moves ..) <| .trans (setPort_moves ..) <|
    .ite (sendTables_moves ..) .refl)) (.next (.trans (portMod_moves ..) <| .trans (setPort_moves ..) <|
      .trans (guildLogWrite_moves ..) <| raiseRecord_moves ..)))

theorem sendTime_moves (s : State) (p kind : Nat) (data : List Nat) : Moves ρ s (sendTime s p kind data) := queueMsg_moves ..

theorem execTimeTransferInterval_answers (s : State) :
    Answers ρ s (execTimeTransferInterval s) :=
  .ite (.next .refl) (.next (.foldl (fun _ _ => .trans (drawFree_moves ..) <| sendTime_moves ..)))

theorem execSyncOp_answers (_x : Txn) (port : Nat) (t1 t2 : Int) (s : State) :
    Answers ρ s (execSyncOp _x port t1 t2 s) :=
  .ite (.next .refl) (.next (.trans (drawFree_moves ..) <| .trans (portMod_moves ..) <| sendTime_moves ..))

theorem execDelayReq_answers (_x : Txn) (port : Nat) (t3 t4 : Int) (s : State) :
    Answers ρ s (execDelayReq _x port t3 t4 s) := .ite (.next .refl) (.next (sendTime_moves ..))

theorem noteDelay_moves (s : State) (p ns : Nat) : Moves ρ s (noteDelay s p ns) :=
  .trans (portMod_moves ..) <| .ite (flood_moves ..) .refl

theorem execDelayResp_answers (_x : Txn) (port : Nat) (t3 t4 : Int) (s : State) :
    Answers .platform s (execDelayResp _x port t3 t4 s) := by
  unfold execDelayResp
  dsimp only
  split
  · exact .next .refl
  · exact .ite (.next .refl) (.ite (.next (.trans (portMod_moves ..) <| .trans (noteDelay_moves ..) <| .trans (.setBell (by exact id)) <|
      .ite (measure_moves ..) .refl)) (.next (.trans (portMod_moves ..) <| noteDelay_moves ..)))

end Sys2Proof.Machine
end

section
/-! ## Gangs that issue: how far the work reaches, and what it keeps -/

namespace Sys2Proof.Machine

variable {ρ : Reach}

theorem coreMod_moves (s : State) (unit : Nat) (f : Core → Core) : Moves ρ s (coreMod s unit f) := .compute (by rfl)

theorem gangPut_moves (s : State) (ref : GangRef) (g : Gang) : Moves ρ s (gangPut s ref g) := coreMod_moves ..

theorem faultWith_moves (s : State) (ref : GangRef) (g : Gang) (f : GangFault) : Moves ρ s (faultWith s ref g f) :=
  .trans (.compute (by rfl)) <| gangPut_moves ..

theorem faultGang_moves (s : State) (ref : GangRef) (g : Gang) (code lanes addr detail : Nat) :
    Moves ρ s (faultGang s ref g code lanes addr detail) := faultWith_moves ..

theorem gangStep_moves {act : State → Invocation → Gang → Nat → State} (ha : ∀ s v g m, Moves ρ s (act s v g m)) (s : State)
    (ref : GangRef) (ok : Bool) : Moves ρ s (gangStep s ref ok act) := by
  unfold gangStep
  refine .ite .refl ?_
  split
  · exact .refl
  · exact .ite (faultGang_moves ..) (.trans (count_moves ..) <| ha _ _ _ _)

theorem gangWrite_moves (s : State) (ref : GangRef) (ok : Bool) (rd : Nat) (f : Invocation → Gang → Nat → Nat → Word) :
    Moves ρ s (gangWrite s ref ok rd f) := gangStep_moves (fun _ _ _ _ => gangPut_moves ..) ..

theorem gangAlu_moves (s : State) (ref : GangRef) (r : RFields) (mask : Nat) (extra : Bool) (f : Word → Word → Word → Word) :
    Moves ρ s (gangAlu s ref r mask extra f) := gangWrite_moves ..

theorem releaseBarrier_moves (s : State) (inv : Nat) (b : Barrier) : Moves ρ s (releaseBarrier s inv b) := by
  unfold releaseBarrier
  exact .trans (.compute (by rfl)) <| invMod_moves ..

theorem checkBarriers_moves (s : State) (inv : Nat) : Moves ρ s (checkBarriers s inv) := by
  unfold checkBarriers
  split
  · exact .refl
  · exact .foldl (fun _ _ => releaseBarrier_moves ..)

theorem arriveBarrier_moves (s : State) (ref : GangRef) (g : Gang) (lanes : List Nat) (scope ident : Nat) :
    Moves ρ s (arriveBarrier s ref g lanes scope ident) := .trans (gangPut_moves ..) <| .trans (invMod_moves ..) <| checkBarriers_moves ..

theorem exitLanes_moves (s : State) (ref : GangRef) (g : Gang) (mask : Nat) (value : Nat → Nat) :
    Moves ρ s (exitLanes s ref g mask value) :=
  .trans (.ite (coreMod_moves ..) (gangPut_moves ..)) <| .trans (invMod_moves ..) <| checkBarriers_moves ..

end Sys2Proof.Machine
end

section
/-! ## Memory of gang code: how far the work reaches, and what it keeps -/

namespace Sys2Proof.Machine

variable {ρ : Reach}

theorem spaceWrite_moves (s : State) (unit inv : Nat) (v : Invocation) (space addr n value : Nat) :
    Moves ρ s (spaceWrite s unit inv v space addr n value) := by
  unfold spaceWrite
  split
  · exact coreMod_moves ..
  · exact invMod_moves ..
  · exact .refl
  · exact .writeSlm

theorem gangAccess_moves {act : State → Invocation → Gang → List Nat → State × Gang} (ha : ∀ s v g m, Moves ρ s (act s v g m).1)
    (s : State)
    (ref : GangRef) (ok : Bool) (m : MemFields) (store load : Bool) : Moves ρ s (gangAccess s ref ok m store load act) :=
  gangStep_moves (fun _ _ _ _ => by
    split
    · exact faultWith_moves ..
    · exact .trans (.ite (count_moves ..) .refl) <| .trans (ha _ _ _ _) <| gangPut_moves ..) ..

theorem atomicLanes_moves (ref : GangRef) (m : MemFields) (src : Gang) (f : Nat → Nat → Option Nat) (p : State × Gang) (v : Invocation)
    (lanes : List Nat) : Moves ρ p.1 (atomicLanes ref m src f p v lanes).1 := by
  induction lanes generalizing p with
  | nil => exact .refl
  | cons i rest ih =>
    unfold atomicLanes
    refine .trans ?_ (ih _)
    split
    · exact spaceWrite_moves ..
    · exact .refl

theorem execLd_answers (g : GangRef) (m : MemFields) (s : State) :
    Answers ρ s (execLd g m s) := .next (gangAccess_moves (fun _ _ _ _ => .refl) ..)

theorem execSt_answers (g : GangRef) (m : MemFields) (s : State) :
    Answers ρ s (execSt g m s) := .next (gangAccess_moves (fun _ _ _ _ => .foldl (fun _ _ => spaceWrite_moves ..)) ..)

theorem execAtom_answers (g : GangRef) (m : MemFields) (op : Nat) (s : State) : Answers ρ s (execAtom g m op s) :=
  .next (gangAccess_moves (fun s v h lanes => atomicLanes_moves g m h _ (s, h) v lanes) ..)

theorem execCas_answers (g : GangRef) (m : MemFields) (s : State) : Answers ρ s (execCas g m s) :=
  .next (gangAccess_moves (fun s v h lanes => atomicLanes_moves g m h _ (s, h) v lanes) ..)

theorem execFence_answers (g : GangRef) (scope : Nat) (s : State) :
    Answers ρ s (execFence g scope s) := .next (gangStep_moves (fun _ _ _ _ => gangPut_moves ..) ..)

end Sys2Proof.Machine
end

section
/-! ## Looms and fullers: how far the work reaches, and what it keeps -/

namespace Sys2Proof.Machine

variable {ρ : Reach}

theorem loomMod_moves (s : State) (l : Nat) (f : Loom → Loom) : Moves ρ s (loomMod s l f) := .compute (by rfl)

theorem unplaced_moves (s : State) (p : Option Placed) : Moves ρ s (unplaced s p) := by
  unfold unplaced
  split
  · exact replan_moves ..
  · exact .refl

theorem dropNext_moves (s : State) (l : Nat) : Moves ρ s (dropNext s l) := .trans (loomMod_moves ..) <| unplaced_moves ..

theorem dropPlan_moves (s : State) (l : Nat) : Moves ρ s (dropPlan s l) := .trans (loomMod_moves ..) <| unplaced_moves ..

theorem dropPlaced_moves (s : State) : Moves ρ s (dropPlaced s) := .foldl (fun _ _ => .trans (dropNext_moves ..) <| dropPlan_moves ..)

theorem putNext_moves (s : State) (w : LoomWork) (start l : Nat) : Moves ρ s (putNext s w start l) :=
  .trans (dropNext_moves ..) <| .trans (loomMod_moves ..) <| replan_moves ..

theorem putPlan_moves (s : State) (w : LoomWork) (l : Nat) : Moves ρ s (putPlan s w l) := .trans (loomMod_moves ..) <| replan_moves ..

theorem amendLoom_moves {s t : State} {start : Nat} {w : LoomWork} (h : amendLoom s start w = some t) : Moves ρ s t := by
  unfold amendLoom at h
  split at h
  · cases h
  · dsimp only at h
    split at h
    · cases h; exact putNext_moves ..
    · obtain ⟨l, -, rfl⟩ := Option.map_eq_some_iff.mp h
      exact putNext_moves ..

theorem planLoom_moves {s t : State} {w : LoomWork} (h : planLoom s w = some t) : Moves ρ s t := by
  unfold planLoom at h
  split at h
  · cases h
  · obtain ⟨l, -, rfl⟩ := Option.map_eq_some_iff.mp h
    exact putPlan_moves ..

theorem startStep_moves (s : State) (l holder : Nat) (p : Placed) (slots : Nat) (st : LoomStep) :
    Moves ρ s (startStep s l holder p slots st) :=
  .trans (loomMod_moves ..) <| .trans (entryMod_moves _ _ _ (by exact fun _ h => ⟨h, rfl⟩)) <| .trans (replan_moves ..) <|
    setRunning_moves ..

theorem clearStep_moves (s : State) (l : Nat) : Moves .control s (clearStep s l) := .trans (loomMod_moves ..) <| taskEnds_moves ..

end Sys2Proof.Machine
end

section
/-! ## The call gate: how far the work reaches, and what it keeps -/

namespace Sys2Proof.Machine

variable {ρ : Reach}

theorem verbEnds_moves (s : State) (die verb : Nat) (r : VerbResult) (data : List Nat) : Moves ρ s (verbEnds s die verb r data) :=
  emit_moves ..

theorem verbFailed_moves (s : State) (unit verb : Nat) (r : VerbResult) (a : FlashAddr) : Moves ρ s (verbFailed s unit verb r a) :=
  .trans (raiseRecord_moves ..) <| count_moves ..

theorem runOn_moves (s : State) (i u : Nat) : Moves ρ s (runOn s i u) :=
  .trans (entryMod_moves _ _ _ (by exact fun _ h => ⟨h, rfl⟩)) <| setRunning_moves ..

theorem ladderMod_moves (s : State) (f : List Ladder → List Ladder) : Moves ρ s (ladderMod s f) := .working

theorem ladderPut_moves (s : State) (l : Ladder) : Moves ρ s (ladderPut s l) := ladderMod_moves ..

theorem ladderDel_moves (s : State) (entry : Nat) (a : FlashAddr) : Moves ρ s (ladderDel s entry a) := ladderMod_moves ..

theorem addLadders_moves (s : State) (entry : Nat) (a : FlashAddr) (slc : Bool) (ks : List Nat) :
    Moves ρ s (addLadders s entry a slc ks) :=
  .foldl (fun _ _ => .ite .refl (ladderPut_moves ..))

theorem startSense_moves (s : State) (r : DieRead) : Moves ρ s (startSense s r) :=
  .trans (.ite (count_moves ..) .refl) <| .trans (.ite (count_moves ..) .refl) <| .trans (ladderMod_moves ..) <|
    .trans (dieMod_moves ..) <| runOn_moves ..

theorem gateRead_moves (s : State) (verb : Nat) (r : DieRead) : Moves ρ s (gateRead s verb r) :=
  .ite (verbEnds_moves ..) (.trans (.ite (addLadders_moves ..) .refl) <| .ite (startSense_moves ..) (verbEnds_moves ..))

theorem cancelRead_moves (s : State) (die : Nat) : Moves ρ s (cancelRead s die) := by
  unfold cancelRead
  dsimp only
  split
  · exact .refl
  · exact .ite .refl (.trans (ladderMod_moves ..) <| .trans (dieMod_moves ..) <|
      .trans (entryMod_moves _ _ _ (by intro _; split <;> exact fun h => ⟨h, rfl⟩)) <| verbEnds_moves ..)

theorem refreshBand_moves (s : State) (a : FlashAddr) : Moves ρ s (refreshBand s a) :=
  .ite .refl (.trans (bandMod_moves ..) <| count_moves ..)

theorem retireLater_moves (s : State) (a : FlashAddr) : Moves ρ s (retireLater s a) := .ite .refl (bandMod_moves ..)

theorem noteRung3_moves (s : State) (a : FlashAddr) : Moves ρ s (noteRung3 s a) :=
  .ite .refl (.trans (bandMod_moves ..) <| .ite (retireLater_moves ..) .refl)

theorem noteBits_moves (s : State) (a : FlashAddr) (bits : Nat) : Moves ρ s (noteBits s a bits) := .ite .working .working

theorem noteDecoded_moves (s : State) (a : FlashAddr) (rung bits : Nat) : Moves ρ s (noteDecoded s a rung bits) :=
  .trans (noteBits_moves ..) <| .trans (.ite (.trans (refreshBand_moves ..) <| noteRung3_moves ..) .refl) <|
    .ite (refreshBand_moves ..) .refl

theorem noteSlots_moves (s : State) : Moves ρ s (noteSlots s) := .working

theorem gateProgram_moves (s : State) (die block wl : Nat) (slc : Bool) (pages : List SourcePage) :
    Moves ρ s (gateProgram s die block wl slc pages) :=
  .ite (verbEnds_moves ..) (.ite (verbEnds_moves ..) (.ite (verbEnds_moves ..) (.trans (placePages_moves ..) <|
    .trans (count_moves ..) <| .trans .working <| .trans (dieMod_moves ..) <| .trans (await_moves _ _ (by nofun)) <| noteSlots_moves ..)))

theorem gateErase_moves (s : State) (die block : Nat) (slc : Bool) : Moves ρ s (gateErase s die block slc) :=
  .ite (verbEnds_moves ..) (.ite (verbEnds_moves ..) (.trans (dieMod_moves ..) <| await_moves _ _ (by nofun)))

theorem endDieJob_moves (s : State) (job die : Nat) : Moves ρ s (endDieJob s job die) := by
  unfold endDieJob
  split
  · exact freeFamily_moves ..
  · exact .refl

theorem startPending_moves (s : State) (die : Nat) : Moves ρ s (startPending s die) := by
  unfold startPending
  dsimp only
  refine .ite .refl ?_
  split
  · split
    · exact .ite .refl (.trans (dieMod_moves ..) <| runOn_moves ..)
    · exact .refl
  · split
    · exact .trans (dieMod_moves ..) <| runOn_moves ..
    · exact .refl
  · exact .refl

theorem resumeErase_moves (s : State) (die : Nat) : Moves ρ s (resumeErase s die) := by
  unfold resumeErase
  dsimp only
  split
  · exact dieMod_moves ..
  · exact .refl

theorem gateLock_moves (s : State) (die : Nat) : Moves ρ s (gateLock s die) := by
  unfold gateLock
  dsimp only
  refine .ite (verbEnds_moves ..) ?_
  split
  · exact .trans (count_moves ..) <| .trans (dieMod_moves ..) <| verbEnds_moves ..
  · exact .trans (count_moves ..) <| .trans (dieMod_moves ..) <| verbEnds_moves ..
  · exact verbEnds_moves ..
  · exact verbEnds_moves ..

end Sys2Proof.Machine
end

section
/-! ## Verbs and events of dies: how far the work reaches, and what it keeps -/

namespace Sys2Proof.Machine

variable {ρ : Reach}

theorem deliver_moves (s : State) (entry : Nat) (a : FlashAddr) (v : Nat) : Moves ρ s (deliver s entry a v) := .working

theorem loseCw_moves (s : State) (entry : Nat) (a : FlashAddr) : Moves ρ s (loseCw s entry a) := .working

theorem endReader_moves (s : State) (entry : Nat) : Moves ρ s (endReader s entry) := .ite (freeFamily_moves ..) .refl

theorem cancelCw_moves (s : State) (entry : Nat) (a : FlashAddr) : Moves ρ s (cancelCw s entry a) := dieMod_moves ..

theorem dropSibling_moves (s : State) (i : Nat) : Moves ρ s (dropSibling s i) :=
  .trans (.foldl (fun _ _ => cancelRead_moves ..)) <| freeFamily_moves ..

theorem dropRebuild_moves (s : State) (l : Ladder) : Moves ρ s (dropRebuild s l) :=
  .trans .unwait <| .foldl (fun _ _ => dropSibling_moves ..)

theorem ladderDone_moves (s : State) (l : Ladder) (v : Nat) : Moves ρ s (ladderDone s l v) :=
  .trans (cancelCw_moves ..) <| .trans (ladderDel_moves ..) <| .trans (dropRebuild_moves ..) <| .trans (deliver_moves ..) <|
    endReader_moves ..

theorem startRebuild_moves (s : State) (l : Ladder) : Moves ρ s (startRebuild s l) :=
  .trans (count_moves ..) <| .trans (.ite (count_moves ..) .refl) <| .trans (ladderPut_moves ..) <|
    .foldl (fun _ _ => await_moves _ _ (by nofun))

theorem adoptFoundSibling_moves (s : State) (i : Nat) (l : Option Ladder) (e : Option Entry) (mates : FlashAddr → List FlashAddr) :
    Moves ρ s (match l, e with
      | some l, some e => match (mates l.addr).find? (fun b => channelUnit b.die = e.unit) with
        | some b => ladderPut s { newLadder s i b l.slc with urgent := l.urgent }
        | none => s
      | _, _ => freeFamily s i) := by
  split
  · split
    · exact ladderPut_moves ..
    · exact .refl
  · exact freeFamily_moves ..

theorem adoptSibling_moves (s : State) (i : Nat) : Moves ρ s (adoptSibling s i) := adoptFoundSibling_moves ..

theorem noteUrgentOverrun_moves (s : State) (l : Ladder) : Moves ρ s (noteUrgentOverrun s l) :=
  .ite .refl (.trans (ladderMod_moves ..) <| count_moves ..)

theorem rebuildFails_moves (s : State) (l : Ladder) (position : Nat) : Moves ρ s (rebuildFails s l position) :=
  .trans (dropRebuild_moves ..) <| .ite (ladderPut_moves ..) (.ite (ladderPut_moves ..) (ladderPut_moves ..))

theorem ladderFailed_moves (s : State) (l : Ladder) : Moves ρ s (ladderFailed s l) := by
  unfold ladderFailed
  refine .ite ?_ (ladderPut_moves ..)
  split
  · exact rebuildFails_moves ..
  · exact freeFamily_moves ..

theorem toRebuild_moves (s : State) (l : Ladder) : Moves ρ s (toRebuild s l) :=
  .ite (ladderPut_moves ..) (.ite (startRebuild_moves ..) (ladderFailed_moves ..))

theorem ladderNext_moves (s : State) (l : Ladder) (erased : Bool) : Moves ρ s (ladderNext s l erased) :=
  .ite (toRebuild_moves ..) (.ite (.ite (startRebuild_moves ..) (ladderPut_moves ..)) (.ite (.trans (.ite
    (noteUrgentOverrun_moves ..) .refl) <| ladderPut_moves ..) (ladderPut_moves ..)))

theorem rebuilt_moves (s : State) (l : Ladder) : Moves ρ s (rebuilt s l) :=
  .trans (.ite .refl (.trans (refreshBand_moves ..) <| noteRung3_moves ..)) <| ladderDone_moves ..

theorem siblingDone_moves (s : State) (child : Nat) : Moves ρ s (siblingDone s child) := by
  unfold siblingDone
  dsimp only
  split
  · exact freeFamily_moves ..
  · split
    · exact .trans (freeFamily_moves ..) <| ladderPut_moves ..
    · exact .trans (freeFamily_moves ..) <| rebuilt_moves ..
    · exact freeFamily_moves ..

theorem meetOutcome_moves (r : DieRead) (s : State) (k : Nat) (o : DecodeResult) : Moves ρ s (meetOutcome r s k o) := by
  unfold meetOutcome
  dsimp only
  split
  · exact .trans (noteDecoded_moves ..) <| .ite (siblingDone_moves ..) (ladderDone_moves ..)
  · exact noteDecoded_moves ..
  · exact ladderNext_moves ..
  · exact ladderNext_moves ..
  · exact .refl

theorem startLadder_moves (s : State) (l : Ladder) : Moves ρ s (startLadder s l) := startSense_moves ..

theorem startNext_moves (s : State) (die : Nat) : Moves ρ s (startNext s die) := by
  unfold startNext
  refine .ite ?_ .refl
  split
  · exact startLadder_moves ..
  · exact .refl

theorem continueRead_moves (s : State) (r : DieRead) : Moves ρ s (continueRead s r) := by
  unfold continueRead
  refine .ite ?_ .refl
  split
  · exact startLadder_moves ..
  · exact .refl

theorem execRead_answers (a : FlashAddr) (mask : Nat) (level : LevelSource) (slc : Bool) (index : Nat) (s : State) :
    Answers ρ s (execRead a mask level slc index s) := by
  unfold execRead
  dsimp only
  refine .ite (.next .refl) ?_
  split
  · exact .next (gateRead_moves ..)
  · exact .next (gateRead_moves ..)
  · exact .ite (.next (verbEnds_moves ..)) (.next (gateRead_moves ..))

theorem execReadSoft_answers (a : FlashAddr) (mask : Nat) (slc : Bool) (index : Nat) (s : State) :
    Answers ρ s (execReadSoft a mask slc index s) := .ite (.next .refl) (.next (gateRead_moves ..))

theorem execReadCancel_answers (die : Nat) (s : State) :
    Answers ρ s (execReadCancel die s) :=
  .ite (.next .refl) (.ite (.next (verbEnds_moves ..)) (.ite (.next (verbEnds_moves ..)) (.ite (.next (verbEnds_moves ..)) (.next (.trans
    (cancelRead_moves ..) <| verbEnds_moves ..)))))

theorem execProgram_answers (die block wl : Nat) (slc : Bool) (pages : List SourcePage) (s : State) :
    Answers ρ s (execProgram die block wl slc pages s) := .ite (.next .refl) (.next (gateProgram_moves ..))

theorem execErase_answers (die block : Nat) (slc : Bool) (s : State) :
    Answers ρ s (execErase die block slc s) := .ite (.next .refl) (.next (gateErase_moves ..))

theorem execEraseSuspend_answers (die : Nat) (s : State) :
    Answers ρ s (execEraseSuspend die s) := by
  unfold execEraseSuspend
  refine .ite (.next .refl) (.ite (.next (verbEnds_moves ..)) ?_)
  refine .ite (.next (verbEnds_moves ..)) ?_
  split
  · exact .next (dieMod_moves ..)
  · exact .next (verbEnds_moves ..)
  · exact .next (verbEnds_moves ..)

theorem execEraseResume_answers (die : Nat) (s : State) :
    Answers ρ s (execEraseResume die s) := by
  unfold execEraseResume
  dsimp only
  refine .ite (.next .refl) (.ite (.next (verbEnds_moves ..)) ?_)
  refine .ite (.next (verbEnds_moves ..)) ?_
  split
  · exact .next (.trans (resumeErase_moves ..) <| verbEnds_moves ..)
  · exact .next (verbEnds_moves ..)
  · exact .next (verbEnds_moves ..)

theorem execEraseLock_answers (die : Nat) (s : State) :
    Answers ρ s (execEraseLock die s) :=
  .ite (.next .refl) (.ite (.next (verbEnds_moves ..)) (.ite (.next (verbEnds_moves ..)) (.next (gateLock_moves ..))))

theorem execSetLevels_answers (die group : Nat) (offsets : List Int) (s : State) :
    Answers ρ s (execSetLevels die group offsets s) :=
  .ite (.next .refl) (.ite (.next (verbEnds_moves ..)) (.ite (.next (verbEnds_moves ..)) (.next (.trans .working <| verbEnds_moves ..))))

theorem execSenseValley_answers (a : FlashAddr) (level : Nat) (sweep counts : List Int) (s : State) :
    Answers ρ s (execSenseValley a level sweep counts s) :=
  .ite (.next .refl) (.ite (.next (verbEnds_moves ..)) (.ite (.next (verbEnds_moves ..)) (.next (verbEnds_moves ..))))

theorem execDieStatus_answers (die : Nat) (s : State) :
    Answers ρ s (execDieStatus die s) := .ite (.next .refl) (.ite (.next (verbEnds_moves ..)) (.next (verbEnds_moves ..)))

theorem clearDie_moves (s : State) (die : Nat) : Moves ρ s (clearDie s die) := by
  unfold clearDie
  dsimp only
  refine .trans ?_ <| dieMod_moves ..
  split
  · refine .trans ?_ <| .trans (.ite (endDieJob_moves ..) .refl) <| ladderMod_moves ..
    split
    · exact .trans (abandonLine_moves ..) <| freeFamily_moves ..
    · exact .refl
  · refine .trans ?_ <| .ite (endDieJob_moves ..) .refl
    split
    · exact .trans (abandonLine_moves ..) <| freeFamily_moves ..
    · exact .refl

theorem execDieReset_answers (die : Nat) (ended : Bool) (s : State) :
    Answers ρ s (execDieReset die ended s) :=
  .ite (.next .refl) (.ite (.next (verbEnds_moves ..)) (.ite (.next (.trans (clearDie_moves ..) <|
    verbEnds_moves ..)) (.next (.trans (verbFailed_moves ..) <| verbEnds_moves ..))))

theorem execChannelTrain_answers (channel : Nat) (trained : Bool) (s : State) :
    Answers ρ s (execChannelTrain channel trained s) :=
  .ite (.next .refl) (.ite (.next (verbEnds_moves ..)) (.ite (.next (verbEnds_moves ..)) (.ite (.next (.trans .working <|
    verbEnds_moves ..)) (.next (.trans .working <| .trans (verbFailed_moves ..) <| verbEnds_moves ..)))))

theorem execReadParams_answers (die : Nat) (s : State) :
    Answers ρ s (execReadParams die s) :=
  .ite (.next .refl) (.ite (.next (verbEnds_moves ..)) (.ite (.next (verbEnds_moves ..)) (.next (verbEnds_moves ..))))

theorem execDieReadComplete_answers (die : Nat) (outcomes : List CwOutcome) (s : State) :
    Answers .control s (execDieReadComplete die outcomes s) := by
  unfold execDieReadComplete
  dsimp only
  refine .ite (.next .refl) ?_
  split
  · exact .next .refl
  · exact .next (.trans (dieMod_moves ..) <| .trans (entryMod_moves _ _ _ (by intro _; split <;> exact fun h => ⟨h, rfl⟩)) <|
      .trans (verbEnds_moves ..) <| .trans (.foldl (fun _ _ => meetOutcome_moves ..)) <| .trans (taskEnds_moves ..) <|
        continueRead_moves ..)

theorem execEraseSuspended_answers (stop : EraseStop) (s : State) :
    Answers ρ s (execEraseSuspended stop s) := by
  unfold execEraseSuspended
  dsimp only
  split
  · exact .ite (.next .refl) (.next (.trans (dieMod_moves ..) <| .trans (count_moves ..) <| .trans (verbEnds_moves ..) <|
      startNext_moves ..))
  · exact .next .refl

theorem execDieTimeout_answers (die : Nat) (s : State) :
    Answers ρ s (execDieTimeout die s) := by
  unfold execDieTimeout
  dsimp only
  split
  · exact .next .refl
  · refine .ite (.next .refl) ?_
    refine .next ?_
    refine .trans ?_ <| .trans (clearDie_moves ..) <| .trans (verbFailed_moves ..) <| verbEnds_moves ..
    split
    · exact .refl
    · exact .foldl (fun _ _ => meetOutcome_moves ..)

theorem checkDivergence_moves (s : State) : Moves ρ s (checkDivergence s) := by
  unfold checkDivergence
  dsimp only
  refine .ite .refl ?_
  split
  · exact .refl
  · exact .trans .working <| raiseRecord_moves ..

theorem execTrackerRun_answers (die group : Nat) (minima : List Int) (s : State) :
    Answers ρ s (execTrackerRun die group minima s) := by
  unfold execTrackerRun
  dsimp only
  refine .ite (.next .refl) ?_
  split
  · exact .ite (.next .refl) (.next (await_moves _ _ (by nofun)))
  · exact .ite (.next .refl) (.next (.trans .working <| .trans (freeFamily_moves ..) <| .trans (dieMod_moves ..) <|
      checkDivergence_moves ..))

end Sys2Proof.Machine
end

section
/-! ## Operations of the ledger: how far the work reaches, and what it keeps -/

namespace Sys2Proof.Machine

variable {ρ : Reach}

theorem countLookups_moves (s : State) (ius : List Nat) : Moves ρ s (countLookups s ius) := .foldl (fun _ _ => count_moves ..)

theorem addJob_moves (s : State) (j : ReadJob) : Moves ρ s (addJob s j) := by
  unfold addJob
  dsimp only
  split
  · exact .ite (.trans .working <| addLadders_moves ..) .working
  · exact .working

theorem adoptPage_moves (s : State) (i loc : Nat) : Moves ρ s (adoptPage s i loc) := by
  unfold adoptPage
  dsimp only
  split
  · exact freeFamily_moves ..
  · exact .ite (freeFamily_moves ..) (addLadders_moves ..)

theorem dropRead_moves (s : State) (j : ReadJob) : Moves ρ s (dropRead s j) := .working

theorem readUnits_moves (s : State) (entry : Nat) (use : ReadUse) (nsid : Nat) (ns : Namespace) (units : List Nat) :
    Moves ρ s (readUnits s entry use nsid ns units) := .trans (countLookups_moves ..) <| addJob_moves ..

theorem toLedger_moves (s : State) (entry : Nat) (ius : List Nat) : Moves ρ s (toLedger s entry ius) := by
  unfold toLedger
  split
  · exact .refl
  · exact entryMod_moves _ _ _ (by exact fun _ h => ⟨h, rfl⟩)

theorem padBand_moves (s : State) (k : Nat) (dest : BandSt) : Moves ρ s (padBand s k dest) := bandMod_moves ..

theorem parkOldest_moves (s : State) : Moves ρ s (parkOldest s) := by
  unfold parkOldest
  split
  · exact .refl
  · exact .trans (padBand_moves ..) <| count_moves ..

theorem fillNext_moves (s : State) (k : Nat) : Moves ρ s (fillNext s k) := by
  unfold fillNext
  dsimp only
  refine .ite .refl ?_
  split
  · exact .refl
  · exact gateProgram_moves ..

theorem fillBands_moves (s : State) : Moves ρ s (fillBands s) := .foldl (fun _ _ => fillNext_moves ..)

theorem openPair_moves (s : State) (handle g : Nat) : Moves ρ s (openPair s handle g) := by
  unfold openPair
  dsimp only
  split
  · exact .ite .refl (.trans (.ite (parkOldest_moves ..) .refl) <| .ite .refl (.trans (bandMod_moves ..) <| noteSlots_moves ..))
  · split
    · exact .trans (.ite (parkOldest_moves ..) .refl) <| .ite .refl (.trans (bandMod_moves ..) <| noteSlots_moves ..)
    · exact .refl

theorem placementOf_moves (s : State) (pid : Option Nat) : Moves ρ s (placementOf s pid).2.2 := by
  unfold placementOf
  split
  · split
    · exact .refl
    · split
      · exact .refl
      · exact fdpEvent_moves ..
  · exact .refl

theorem putStaged_moves (s : State) (w : WriteJob) (iu mask : Nat) (rest : List (Nat × List Nat × Nat)) (page : PageParts) :
    Moves ρ s (putStaged s w iu mask rest page) := by
  unfold putStaged
  dsimp only
  refine .trans ?_ <| .trans .working <| .ite (setRunning_moves ..) .refl
  split
  · exact .trans (.ite .refl (count_moves ..)) <| dropRead_moves ..
  · exact .ite .refl (count_moves ..)

theorem stageNext_moves {s t : State} {entry : Nat} (h : stageNext s entry = some t) : Moves ρ s t := by
  unfold stageNext at h
  split at h
  · cases h
  · split at h
    · cases h
    · split at h
      · cases h
      · split at h <;> cases h
        · exact putStaged_moves ..
        · exact addJob_moves ..

theorem stageWrite_moves (s : State) (entry n : Nat) : Moves ρ s (stageWrite s entry n) := by
  induction n generalizing s with
  | zero => exact .refl
  | succ n ih =>
    unfold stageWrite
    split
    next t ht => exact (stageNext_moves ht).trans (ih t)
    next => exact .refl

theorem openForStaged_moves (s : State) : Moves ρ s (openForStaged s) := .foldl (fun _ _ => openPair_moves ..)

theorem stageAll_moves (s : State) : Moves ρ s (stageAll s) :=
  .ite .refl (.trans (.foldl (fun _ _ => stageWrite_moves ..)) <| openForStaged_moves ..)

theorem dropJob_moves (s : State) (entry : Nat) : Moves ρ s (dropJob s entry) := .working

theorem startWrite_moves (s : State) (entry nsid : Nat) (ns : Namespace) (units data : List Nat) (pid : Option Nat) :
    Moves ρ s (startWrite s entry nsid ns units data pid) :=
  .trans (placementOf_moves ..) <| .trans (countLookups_moves ..) <| .trans .working <| stageAll_moves ..

theorem programFailed_moves (s : State) (die : Nat) (p : DieProgram) : Moves ρ s (programFailed s die p) :=
  .trans (verbFailed_moves ..) <| .trans (unplace_moves ..) <|
    .ite (retireLater_moves ..) (.trans (.foldl (fun _ _ => restageLoc_moves ..)) <| .trans (.ite (fdpEvent_moves ..) .refl) <|
      .trans (bandMod_moves ..) <| .trans (retireLater_moves ..) <| openForStaged_moves ..)

theorem noteMoved_moves (s : State) (ks : List Nat) : Moves ρ s (noteMoved s ks) := .ite (.foldl (fun _ _ => fdpEvent_moves ..)) .refl

theorem answerSealed_moves (s : State) : Moves ρ s (answerSealed s) := .foldl (fun _ _ => by
    refine .ite ?_ .refl
    split
    · exact .trans (dropJob_moves ..) <| answer_moves ..
    · exact .refl)

theorem checkReadOnly_moves (s : State) : Moves ρ s (checkReadOnly s) :=
  .ite .refl (.trans .working <| .trans (warnHost_moves ..) <| raiseRecord_moves ..)

theorem retireBlock_moves (s : State) (k pos : Nat) : Moves ρ s (retireBlock s k pos) := by
  unfold retireBlock
  dsimp only
  split
  · exact .trans .working <| .trans (count_moves ..) <| .trans .working <| bandMod_moves ..
  · exact .trans .working <| .trans (count_moves ..) <| .trans (.foldl (fun _ _ => .working)) <| .trans .working <|
      .trans (bandMod_moves ..) <| .trans (raiseRecord_moves ..) <| checkReadOnly_moves ..

theorem dropPages_moves (s : State) (die block : Nat) : Moves ρ s (dropPages s die block) := .working

theorem endCare_moves (s : State) (k : Nat) : Moves ρ s (endCare s k) := .foldl (fun _ _ => by
    split
    · exact .trans .working <| freeFamily_moves ..
    · exact .unwait)

theorem blockErased_moves (s : State) (die block : Nat) (ok : Bool) : Moves ρ s (blockErased s die block ok) :=
  .trans (dropPages_moves ..) <| .trans (bandMod_moves ..) <| .trans (.ite (retireBlock_moves ..) .refl) <|
    .ite (endCare_moves ..) (.ite (.trans (endCare_moves ..) <| .trans (bandMod_moves ..) <| wearCheck_moves ..) .refl)

theorem poisonOne_moves (s : State) (a : FlashAddr) : Moves ρ s (poisonOne s a).2 := by
  unfold poisonOne
  dsimp only
  split
  · exact .refl
  · split
    · exact .refl
    · exact .trans (mapSet_moves ..) <| retireLater_moves ..

theorem poisonRow_moves (s : State) (row : List FlashAddr) : Moves ρ s (poisonRow s row).2 := by
  induction row generalizing s with
  | nil => exact .refl
  | cons a rest ih => exact (poisonOne_moves s a).trans (ih _)

theorem newKey_moves (s : State) (nsid : Nat) : Moves .control s (newKey s nsid) := .trans (drbg_moves ..) <| .control

theorem releaseBound_moves (s : State) (nsid : Nat) : Moves ρ s (releaseBound s nsid) :=
  .trans .working <| .foldl (fun _ _ => failRequest_moves ..)

theorem endWrites_moves (s : State) (nsid : Nat) (st : Status) : Moves ρ s (endWrites s nsid st) :=
  .trans (.foldl (fun _ _ => failRequest_moves ..)) <| .working

theorem wipeNs_moves (s : State) (nsid lbaf : Nat) : Moves .control s (wipeNs s nsid lbaf) := by
  unfold wipeNs
  dsimp only
  split
  · exact .refl
  · exact .trans (endWrites_moves ..) <| .trans (releaseBound_moves ..) <| .trans (.foldl (fun _ _ => unmapExtent_moves ..)) <|
      .trans (newKey_moves ..) <| .control

theorem sanitizeBand_moves (s : State) (k : Nat) : Moves ρ s (sanitizeBand s k) :=
  .ite .refl (.trans (bandMod_moves ..) <| .foldl (fun _ _ => retireBlock_moves ..))

theorem quietDie_moves (s : State) (d : Nat) : Moves ρ s (quietDie s d) :=
  .trans (dieMod_moves ..) <| .trans (endDieJob_moves ..) <| .trans (endDieJob_moves ..) <| .unwait

theorem eraseAllBands_moves (s : State) : Moves ρ s (eraseAllBands s) :=
  .trans (.foldl (fun _ _ => quietDie_moves ..)) <| .trans (.foldl (fun _ _ => endCare_moves ..)) <| .trans .working <|
    .foldl (fun _ _ => .ite (sanitizeBand_moves ..) .refl)

theorem sanitizeSteps_moves (s : State) (kind : Nat) : Moves .control s (sanitizeSteps s kind) :=
  .trans (.foldl (fun _ _ => endWrites_moves ..)) <| .trans (.foldl (fun _ _ => wipeNs_moves ..)) <| .ite (eraseAllBands_moves ..) .refl

theorem resumeSanitize_moves (s : State) : Moves .control s (resumeSanitize s) := .ite .refl (sanitizeSteps_moves ..)

theorem fillLine_moves (s : State) (k pos : Nat) : Moves ρ s (fillLine s k pos) :=
  .trans (.foldl (fun _ _ => putPage_moves ..)) <| .trans (.ite .working .refl) <| lineDone_moves ..

theorem completeGroup_moves (s : State) (k : Nat) : Moves ρ s (completeGroup s k) := .ite .refl (.foldl (fun _ _ => fillLine_moves ..))

theorem blankSaved_moves (s : State) (l : SavedLine) : Moves ρ s (blankSaved s l) :=
  .trans (.foldl (fun _ _ => putPage_moves ..)) <| lineDone_moves ..

theorem closeSaved_moves (s : State) : Moves ρ s (closeSaved s) := .foldl (fun _ _ => .trans (completeGroup_moves ..) <| bandMod_moves ..)

theorem landLine_moves (s : State) (k : Nat) (gs : List Staged) : Moves ρ s (landLine s k gs) := by
  unfold landLine
  dsimp only
  split
  · exact .working
  · split
    · exact .trans (.foldl (fun _ _ => by
    split
    · exact landStaged_moves ..
    · exact putPage_moves ..)) <| .trans (lineDone_moves ..) <| .ite (fillLine_moves ..) .refl
    · exact .trans (.foldl (fun _ _ => by
    split
    · exact landStaged_moves ..
    · exact putPage_moves ..)) <| lineDone_moves ..

theorem landSaved_moves (s : State) (l : SavedLine) : Moves ρ s (landSaved s l) := by
  unfold landSaved
  dsimp only
  refine .ite .refl ?_
  split
  · exact .trans (openPair_moves ..) <| landLine_moves ..
  · exact .trans (openPair_moves ..) <| .working

theorem poisonSaved_moves (s : State) : Moves ρ s (poisonSaved s) :=
  .trans (.foldl (fun _ _ => mapSet_moves ..)) <| .trans .working <| raiseRecord_moves ..

theorem recoverSave_moves (s : State) (markerFound : Bool) : Moves ρ s (recoverSave s markerFound) :=
  .trans .working <| .trans (.foldl (fun _ _ => blankSaved_moves ..)) <| .trans (closeSaved_moves ..) <|
    .trans (.ite (.foldl (fun _ _ => landSaved_moves ..)) (poisonSaved_moves ..)) <| .working

theorem restartErases_moves (s : State) : Moves ρ s (restartErases s) := .trans .working <| .foldl (fun _ _ => gateErase_moves ..)

end Sys2Proof.Machine
end

section
/-! ## Loom tickets: how far the work reaches, and what it keeps -/

namespace Sys2Proof.Machine

variable {ρ : Reach}

theorem takeTicket_moves (s : State) (ref : GangRef) (g : Gang) (v : Invocation) (lane rd plan at_ : Nat) :
    Moves ρ s (takeTicket s ref g v lane rd plan at_) := .trans (gangPut_moves ..) <| .trans (invMod_moves ..) <| count_moves ..

theorem retryOne_moves (s : State) (ref : GangRef) : Moves ρ s (retryOne s ref) := by
  unfold retryOne
  dsimp only
  split
  · exact .refl
  · split
    · refine .ite .refl ?_
      split
      · exact faultWith_moves ..
      · exact takeTicket_moves ..
    · exact .refl

theorem retryTickets_moves (s : State) : Moves ρ s (retryTickets s) := .foldl (fun _ _ => retryOne_moves ..)

theorem releaseTickets_moves (s : State) (inv : Nat) (ns : List Nat) : Moves ρ s (releaseTickets s inv ns) := invMod_moves ..

end Sys2Proof.Machine
end

section
/-! ## Loom Direct and plan steps: how far the work reaches, and what it keeps -/

namespace Sys2Proof.Machine

variable {ρ : Reach}

theorem directMod_moves (s : State) (entry : Nat) (f : Direct → Direct) : Moves ρ s (directMod s entry f) := .compute (by rfl)

theorem execLoomDirect_answers (h : HostId) (length : Nat) (desc matrices : Bytes) (s : State) :
    Answers ρ s (execLoomDirect h length desc matrices s) := .next (meetVendorIo_moves (fun _ _ => by
    refine .ite .refl (.ite (finish_moves ..) ?_)
    refine .ite (finish_moves ..) ?_
    split
    · exact .compute (by rfl)) ..)

theorem startPlaced_moves (s : State) (l : Nat) (p : Placed) (child : Nat) : Moves ρ s (startPlaced s l p child) := by
  unfold startPlaced
  dsimp only
  split
  · split
    · exact .refl
    · exact .trans (directMod_moves ..) <| startStep_moves ..
  · split
    · exact .refl
    · split
      · exact .refl
      · exact startStep_moves ..

theorem loomDue_moves (s : State) (l : Nat) : Moves ρ s (loomDue s l) := by
  unfold loomDue
  split
  · exact .refl
  · next p _ =>
    refine .ite .refl (.ite (dropNext_moves ..) ?_)
    split
    · exact startPlaced_moves ..
    · exact .ite .refl (await_moves _ _ (by cases p.kind <;> nofun))

theorem loomsDue_moves (s : State) : Moves ρ s (loomsDue s) := .foldl (fun _ _ => loomDue_moves ..)

theorem adoptStep_moves (s : State) (i : Nat) : Moves ρ s (adoptStep s i) := by
  unfold adoptStep
  split
  · exact .refl
  · split
    · exact .ite (startPlaced_moves ..) .refl
    · exact .refl

theorem putTarget_moves (s : State) (inv : Nat) (b : Bytes) (m : Mem) (wf : MemoryOk s → planTarget b ≠ 0 → Mem.wf m = true) :
    Moves ρ s (putTarget s inv b m) := by
  unfold putTarget
  split
  · exact invMod_moves ..
  · next other => exact .workingWith id id (fun h => wf h other)

theorem writeOutput_moves (s : State) (inv : Nat) (v : Invocation) (b : Bytes) (o : Nat) (bytes : Bytes) :
    Moves ρ s (writeOutput s inv v b o bytes) := by
  unfold writeOutput
  dsimp only
  split
  · exact invMod_moves ..
  · split
    · exact .writeSlm
    · exact .refl
  · exact .working

theorem foldl_wf {α : Type} {f : Mem → α → Mem} (hf : ∀ m x, Mem.wf m = true → Mem.wf (f m x) = true) (l : List α) {m : Mem}
    (h : Mem.wf m = true) : Mem.wf (l.foldl f m) = true := by
  induction l generalizing m with
  | nil => exact h
  | cons x l ih => exact ih (hf m x h)

theorem putCode_wf (fmt a i c : Nat) {m : Mem} (h : Mem.wf m = true) : Mem.wf (putCode fmt m a i c) = true := by
  unfold putCode
  split <;> exact mput_wf _ _ _ h

theorem kvRow_wf (value : Bool) (a t : Nat) (codes : List Nat) {m : Mem} (h : Mem.wf m = true) :
    Mem.wf (kvRow value a t codes m) = true :=
  foldl_wf (fun _ _ hm => by split <;> exact putCode_wf _ _ _ _ hm) _ h

/-- What is written into a KV page keeps the canonical form of the memory that holds it. -/
theorem kvWrite_wf (dram : Bool) (k : KvPut) (a : Nat) (rows : List KvRow) (codes : List (List Nat)) {m : Mem}
    (h : Mem.wf m = true) : Mem.wf (kvWrite dram k a rows m codes).2 = true := by
  unfold kvWrite
  generalize codes.zipIdx = l
  induction l generalizing rows m with
  | nil => exact h
  | cons c l ih =>
    have row := kvRow_wf k.value a (k.token + c.2) c.1 h
    rw [List.foldl_cons]
    dsimp only
    split
    · exact ih rows h
    · split
      · exact ih _ (mwrite_wf _ _ _ row)
      · exact ih _ row

/-- A KV page that does not lie in the window lies in Subsystem Local Memory. -/
theorem kvTarget_memory {s : State} {v : Invocation} {b : Bytes} {kv : Option KvPut} {k : KvPut} {m : Mem} {a : Nat}
    (h : kvTarget s v b kv = some (k, m, a)) (ht : planTarget b ≠ 0) : m = s.compute.slm := by
  obtain ⟨_, -, h⟩ := Option.bind_eq_some_iff.mp h
  obtain ⟨p, hp, h⟩ := Option.bind_eq_some_iff.mp h
  split at h
  · cases h
    unfold targetMem at hp
    split at hp
    · next e => exact absurd e ht
    · obtain ⟨_, -, rfl⟩ := Option.map_eq_some_iff.mp hp
      rfl
    · cases hp
  · cases h

/-- The rows of a tile go into the KV page that they are for. -/
theorem putKvPage_moves {u t : State} {v : Invocation} {b : Bytes} {kv : Option KvPut} {k : KvPut} {m : Mem} {a : Nat}
    (reached : Moves ρ u t) (same : t.compute = u.compute) (page : kvTarget u v b kv = some (k, m, a)) (dram : Bool) (inv : Nat)
    (rows : List KvRow) (codes : List (List Nat)) (f : Invocation → Invocation) :
    Moves ρ u (invMod (putTarget t inv b (kvWrite dram k a rows m codes).2) inv f) := by
  refine reached.trans (.trans (putTarget_moves _ _ _ _ (fun h other => kvWrite_wf _ _ _ _ _ ?_)) (invMod_moves ..))
  rw [kvTarget_memory page other, ← same]
  exact h

theorem ticketDrained_moves (s : State) (l : Nat) (st : LoomStep) (inv n plan : Nat) (kv : Option KvPut) :
    Moves .control s (ticketDrained s l st inv n plan kv) := by
  have counted (u : State) (x : Nat) : (count u (0x6108 + l) 4 x).compute = u.compute := count_only u _ 4 x .compute (by decide)
  unfold ticketDrained
  split
  · exact clearStep_moves ..
  · next v _ =>
    dsimp only
    refine .trans ?_ (retryTickets_moves ..)
    refine .trans ?_ (freeFamily_moves ..)
    refine .trans ?_ (endTicket_moves ..)
    refine .trans (t := count (clearStep s l) (0x6108 + l) 5 1) (.trans (clearStep_moves ..) (count_moves ..)) (.ite ?_ ?_)
    · split
      · next page =>
        refine putKvPage_moves ?_ ?_ page ..
        · split
          · exact .ite (.trans (count_moves ..) .working) (count_moves ..)
          · exact count_moves ..
        · split
          · split <;> exact counted ..
          · exact counted ..
      · refine .trans ?_ (writeOutput_moves ..)
        split
        · exact .ite (.trans (count_moves ..) .working) (count_moves ..)
        · exact count_moves ..
    · exact .trans (count_moves ..) (.trans (count_moves ..) (writeOutput_moves ..))

theorem tileDrained_moves (s : State) (l : Nat) (st : LoomStep) (t : Nat) : Moves .control s (tileDrained s l st t) := by
  unfold tileDrained
  split
  · exact clearStep_moves ..
  · split
    · exact clearStep_moves ..
    · split
      · exact .trans (clearStep_moves ..) <| .trans (count_moves ..) <| .trans (count_moves ..) <| .trans (count_moves ..) <|
          .trans (directMod_moves ..) <| .trans (freeFamily_moves ..) <| .ite (finishData_moves ..) .refl

theorem execLoomStepComplete_answers (loom : Nat) (done : StepEnd) (s : State) :
    Answers .control s (execLoomStepComplete loom done s) := by
  unfold execLoomStepComplete
  refine .ite (.next .refl) ?_
  split
  · exact .next .refl
  · refine .ite (.next .refl) ?_
    refine .next ?_
    split
    · exact tileDrained_moves ..
    · exact ticketDrained_moves ..

end Sys2Proof.Machine
end

section
/-! ## Operations of the streams: how far the work reaches, and what it keeps -/

namespace Sys2Proof.Machine

variable {ρ : Reach}

theorem streamPut_moves (s : State) (sid : Nat) (st : Stream) : Moves ρ s (streamPut s sid st) := .working

theorem streamMod_moves (s : State) (sid : Nat) (f : Stream → Stream) : Moves ρ s (streamMod s sid f) := by
  unfold streamMod
  split
  · exact streamPut_moves ..
  · exact .refl

theorem streamDrop_moves (s : State) (sid : Nat) : Moves ρ s (streamDrop s sid) := .working

theorem commitChunk_moves (s : State) (sid : Nat) (k : Chunk) : Moves ρ s (commitChunk s sid k) := streamMod_moves ..

theorem commitEnded_moves (s : State) : Moves ρ s (commitEnded s) := .working

end Sys2Proof.Machine
end

section
/-! ## Programs and invocations: how far the work reaches, and what it keeps -/

namespace Sys2Proof.Machine

variable {ρ : Reach}

theorem programMod_moves (s : State) (p : Nat) (f : Program → Program) : Moves ρ s (programMod s p f) := .compute (by rfl)

theorem execLoadProgram_answers (h : HostId) (pind off : Nat) (data : Bytes) (s : State) :
    Answers ρ s (execLoadProgram h pind off data s) :=
  .next (serveQuietAdmin_moves (fun _ _ => .ite (finish_moves ..) (.ite (finish_moves ..) (.ite (finish_moves ..) (.trans
    (programMod_moves ..) <| finish_moves ..)))) ..)

theorem recordActivation_moves (s : State) (pind code detail : Nat) : Moves ρ s (recordActivation s pind code detail) :=
  .trans (.compute (by rfl)) <| count_moves ..

theorem translate_moves (s : State) (pind : Nat) : Moves ρ s (translate s pind).2 := by
  have kept (t : State) (c : Nat) : Moves ρ t (count (programMod t pind (fun p => { p with
      digest := headerDigest (programOf s pind), physRegs := physRegsOf (headerDigest (programOf s pind)) })) 0x600C c 1) :=
    .trans (programMod_moves ..) (count_moves ..)
  unfold translate
  dsimp only
  split
  · exact kept s 4
  · split
    · exact .refl
    · exact .trans (.compute (by rfl)) (kept _ 3)

theorem allocate_moves (s : State) (pind : Nat) (cores : List Nat) : Moves ρ s (allocate s pind cores) :=
  .trans (.foldl (fun _ _ => coreMod_moves ..)) <| programMod_moves ..

theorem deallocate_moves (s : State) (pind : Nat) : Moves ρ s (deallocate s pind) :=
  .trans (.foldl (fun _ _ => coreMod_moves ..)) <| programMod_moves ..

theorem activate_moves (s : State) (pind : Nat) : Moves ρ s (activate s pind).2 := by
  unfold activate
  dsimp only
  split
  · exact .refl
  · split
    · exact translate_moves ..
    · exact .trans (translate_moves ..) <| .trans (allocate_moves ..) <| programMod_moves ..

theorem execProgramActivate_answers (h : HostId) (pind : Nat) (s : State) : Answers ρ s (execProgramActivate h pind s) := by
  refine .next (serveQuietAdmin_moves (fun s i => .ite (finish_moves ..) (.ite (finish_moves ..) ?_)) ..)
  split
  · exact .trans (recordActivation_moves ..) (finish_moves ..)
  · exact .trans (drawFree_moves ..) (.trans (recordActivation_moves ..) (finish_moves ..))
  · have active := activate_moves (ρ := ρ) s pind
    split
    all_goals
      next e =>
        rw [e] at active
        exact .trans active (.trans (recordActivation_moves ..) (finish_moves ..))

theorem execProgramDeactivate_answers (h : HostId) (pind : Nat) (s : State) :
    Answers ρ s (execProgramDeactivate h pind s) :=
  .next (serveQuietAdmin_moves (fun _ _ => .ite (finish_moves ..) (.ite (finish_moves ..) (.ite (.trans (deallocate_moves ..) <|
    .trans (programMod_moves ..) <| finish_moves ..) (finish_moves ..)))) ..)

theorem execMemoryRangeSetManagement_answers (h : HostId) (create : Bool) (rsid : Nat) (ranges : List (Nat × Nat)) (s : State) :
    Answers ρ s (execMemoryRangeSetManagement h create rsid ranges s) :=
  .next (serveAdmin_moves (fun _ _ => .ite (.ite (finish_moves ..) (.trans (.compute (by rfl)) <|
    finish_moves ..)) (.ite (finish_moves ..) (.ite (finish_moves ..) (.trans (.compute (by rfl)) <| finish_moves ..)))) ..)

theorem addInvocation_moves (s : State) (v : Invocation) : Moves ρ s (addInvocation s v).2 :=
  .trans (.compute (by rfl)) <| setState_moves ..

theorem execRunKernel_answers (h : HostId) (pind rsid gangs length : Nat) (buf : Bytes) (s : State) :
    Answers ρ s (execRunKernel h pind rsid gangs length buf s) :=
  .next (meetVendorIo_moves (fun _ _ => .ite .refl (.ite (finish_moves ..) (.ite (finish_moves ..) (.ite (finish_moves ..) (.ite
    (finish_moves ..) (addInvocation_moves ..)))))) ..)

theorem execExecuteProgram_answers (h : HostId) (pind ptype rsid : Nat) (data : Bytes) (s : State) :
    Answers ρ s (execExecuteProgram h pind ptype rsid data s) :=
  .next (meetIo_moves (fun _ _ => .ite .refl (.ite (finish_moves ..) (.ite (finish_moves ..) (addInvocation_moves ..)))) ..)

theorem placeGangs_moves (s : State) (inv n : Nat) : Moves ρ s (placeGangs s inv n) := by
  induction n generalizing s with
  | zero => exact .refl
  | succ n ih =>
    unfold placeGangs
    split
    · exact .refl
    · refine .ite .refl ?_
      dsimp only
      split
      · exact .refl
      · exact (coreMod_moves ..).trans ((invMod_moves ..).trans (ih _))

theorem beginGangs_moves (s : State) (inv : Nat) (v : Invocation) (chime : Nat) : Moves ρ s (beginGangs s inv v chime) :=
  .trans (.ite (.trans (translate_moves ..) <| programMod_moves ..) .refl) <| .trans (invMod_moves ..) <| setRunning_moves ..

theorem execInvocationStart_answers (inv : Nat) (s : State) :
    Answers ρ s (execInvocationStart inv s) := by
  unfold execInvocationStart
  dsimp only
  split
  · exact .next .refl
  · refine .ite (.next .refl) ?_
    split
    · exact .next (.trans (invMod_moves ..) <| beginGangs_moves ..)
    · exact .ite (.next (.trans (invMod_moves ..) <| beginGangs_moves ..)) (.ite (.next (.trans (invMod_moves ..) <|
        failRequest_moves ..)) (.next (.trans (invMod_moves ..) <| readUnits_moves ..)))

theorem stagedDone_moves (s : State) (inv : Nat) (j : ReadJob) : Moves ρ s (stagedDone s inv j) := by
  unfold stagedDone
  dsimp only
  split
  · exact dropRead_moves ..
  · exact .trans (dropRead_moves ..) <| .ite (failRequest_moves ..) (.trans (invMod_moves ..) <| beginGangs_moves ..)

theorem placeInvocation_moves (s : State) (inv : Nat) : Moves .control s (placeInvocation s inv) := by
  unfold placeInvocation
  split
  · exact .refl
  · exact .ite .refl (withBudget_moves (fun _ => placeGangs_moves ..) ..)

theorem execGangPlacement_answers (s : State) :
    Answers .control s (execGangPlacement s) := .ite (.next .refl) (.next (.foldl (fun _ _ => placeInvocation_moves ..)))

theorem endInvocation_moves (s : State) (v : Invocation) (entry dw1 : Nat) :
    Moves ρ s (endInvocation s v entry dw1) := finishData_moves ..

theorem execInvocationEnd_answers (inv : Nat) (s : State) :
    Answers ρ s (execInvocationEnd inv s) := by
  unfold execInvocationEnd
  split
  · exact .next .refl
  · refine .ite (.next .refl) ?_
    split
    · exact .ite (.next (.trans (commitChunk_moves ..) <| freeFamily_moves ..)) (.next (.trans (endInvocation_moves ..) <|
        streamMod_moves ..))
    · exact .next (endInvocation_moves ..)

theorem execGangStall_answers (ref : GangRef) (s : State) :
    Answers ρ s (execGangStall ref s) := by
  unfold execGangStall
  split
  · exact .next .refl
  · exact .ite (.next .refl) (.next (.trans (faultGang_moves ..) <| count_moves ..))

theorem timeOutBarrier_moves (inv : Nat) (s : State) (b : Barrier) : Moves ρ s (timeOutBarrier inv s b) :=
  .foldl (fun _ _ => .ite .refl (faultGang_moves ..))

theorem execBarrierTimeout_answers (inv scope ident : Nat) (s : State) :
    Answers ρ s (execBarrierTimeout inv scope ident s) := by
  unfold execBarrierTimeout
  split
  · exact .next .refl
  · exact .ite (.next .refl) (.next (.foldl (fun _ _ => timeOutBarrier_moves ..)))

theorem execGangFault_answers (inv : Nat) (s : State) :
    Answers ρ s (execGangFault inv s) := by
  unfold execGangFault
  dsimp only
  split
  · exact .next .refl
  · split
    · exact .next .refl
    · exact .ite (.next .refl) (.next (.trans (drawFree_moves ..) <| .trans (.compute (by rfl)) <| .trans (raiseEvent_moves ..) <|
        .trans (count_moves ..) <| failRequest_moves ..))

end Sys2Proof.Machine
end

section
/-! ## Searches: how far the work reaches, and what it keeps -/

namespace Sys2Proof.Machine

variable {ρ : Reach}

theorem searchMod_moves (s : State) (entry : Nat) (f : Search → Search) : Moves ρ s (searchMod s entry f) := .working

theorem contextMod_moves (s : State) (search entry : Nat) (f : Context → Context) : Moves ρ s (contextMod s search entry f) :=
  searchMod_moves ..

theorem runNext_moves (s : State) (sf : Nat) : Moves ρ s (runNext s sf) := by
  unfold runNext
  dsimp only
  refine .ite .refl ?_
  split
  · exact .refl
  · exact .trans .working <| contextMod_moves ..

theorem placeContext_moves (s : State) (search entry : Nat) : Moves .control s (placeContext s search entry) := by
  unfold placeContext
  dsimp only
  split
  · exact .refl
  · exact withBudget_moves (fun _ => .trans (contextMod_moves ..) <| .trans (entryMod_moves _ _ _ (by exact fun _ => nofun)) <|
      .trans (setRunning_moves ..) <| runNext_moves ..) ..

theorem placeShelved_moves (s : State) : Moves .control s (placeShelved s) := .ite .refl (.foldl (fun _ _ => placeContext_moves ..))

theorem shelve_moves (s : State) (search : Nat) (c : Context) : Moves ρ s (shelve s search c) :=
  .trans (contextMod_moves ..) <| .trans (entryMod_moves _ _ _ (by exact fun _ h => ⟨h, rfl⟩)) <| .trans (count_moves ..) <|
    runNext_moves ..

theorem seize_moves (s : State) (n : Nat) : Moves ρ s (seize s n) := by
  induction n generalizing s with
  | zero => exact .refl
  | succ n ih =>
    unfold seize
    split
    · exact .refl
    · exact (count_moves ..).trans (.trans (.ite (contextMod_moves ..) (shelve_moves ..)) (ih _))

theorem placeContexts_moves (s : State) : Moves .control s (placeContexts s) :=
  .trans (placeShelved_moves ..) <| .ite .refl (.trans (seize_moves ..) <| placeShelved_moves ..)

theorem askContext_moves (search : Nat) (s : State) (_k : Nat) : Moves ρ s (askContext search s _k) := await_moves _ _ (by nofun)

theorem adoptContext_moves (s : State) (i search : Nat) : Moves ρ s (adoptContext s i search) :=
  .ite (.trans (searchMod_moves ..) <| setState_moves ..) (freeFamily_moves ..)

theorem startSearch_moves (s : State) (entry : Nat) : Moves ρ s (startSearch s entry) := by
  unfold startSearch
  dsimp only
  split
  · exact .refl
  · split
    · exact .refl
    · exact .ite .refl (.trans (searchMod_moves ..) <| .trans (setRunning_moves ..) <| .foldl (fun _ _ => askContext_moves ..))

theorem startSearches_moves (s : State) : Moves ρ s (startSearches s) := .foldl (fun _ _ => startSearch_moves ..)

theorem readIndex_moves (s : State) (i slot nsid : Nat) (ns : Namespace) (slba : Nat) (regions : List (Nat × Nat)) :
    Moves ρ s (readIndex s i slot nsid ns slba regions) := .ite (failRequest_moves ..) (readUnits_moves ..)

theorem mountAsked_moves (s : State) (i slot slba : Nat) (resident : Bool) : Moves ρ s (mountAsked s i slot slba resident) := .working

theorem execSiftMount_answers (h : HostId) (slot slba : Nat) (resident : Bool) (s : State) :
    Answers ρ s (execSiftMount h slot slba resident s) := .next (serveVendorIo_moves (fun _ _ => by
    split
    · exact finish_moves ..
    · exact .ite (finish_moves ..) (.ite (finish_moves ..) (.trans (mountAsked_moves ..) <| readIndex_moves ..))) ..)

theorem headerRead_moves (s : State) (m : MountReq) (j : ReadJob) : Moves ρ s (headerRead s m j) := by
  unfold headerRead
  dsimp only
  split
  · exact finish_moves ..
  · exact .ite (finish_moves ..) (.ite (finish_moves ..) (.ite (finish_moves ..) (.trans .working <| readIndex_moves ..)))

theorem copyRead_moves (s : State) (slot : Nat) (x : IndexSlot) (j : ReadJob) : Moves ρ s (copyRead s slot x j) :=
  .trans .working <| finish_moves ..

theorem mountDone_moves (s : State) (slot : Nat) (j : ReadJob) : Moves ρ s (mountDone s slot j) := by
  unfold mountDone
  dsimp only
  refine .ite (.trans (dropRead_moves ..) <| .trans .working <| finish_moves ..) ?_
  split
  · exact .trans (dropRead_moves ..) <| .trans .working <| headerRead_moves ..
  · exact .trans (dropRead_moves ..) <| .trans .working <| copyRead_moves ..
  · exact .trans (dropRead_moves ..) <| .working

theorem execSiftUnmount_answers (h : HostId) (slot : Nat) (s : State) :
    Answers ρ s (execSiftUnmount h slot s) := .next (serveVendorIo_moves (fun _ _ => by
    refine .ite (finish_moves ..) ?_
    split
    · exact finish_moves ..
    · exact .ite (finish_moves ..) (.ite (finish_moves ..) (.trans .working <| finish_moves ..))) ..)

theorem addSearch_moves (s : State) (q : Search) : Moves ρ s (addSearch s q) := .trans .working <| setState_moves ..

theorem execSiftQuery_answers (h : HostId) (q : SiftFields) (buf : Bytes) (s : State) :
    Answers ρ s (execSiftQuery h q buf s) := .next (meetVendorIo_moves (fun _ _ => by
    refine .ite .refl (.ite (finish_moves ..) ?_)
    split
    · exact finish_moves ..
    · exact .ite (finish_moves ..) (.ite (finish_moves ..) (addSearch_moves ..))) ..)

theorem askMember_moves (entry slot index k finalise admitBell : Nat) (buf : Bytes) (s : State) (m : Nat) :
    Moves ρ s (askMember entry slot index k finalise admitBell buf s m) :=
  .ite (searchMod_moves ..) (.trans (searchMod_moves ..) <| originate_moves ..)

theorem execGuildSift_answers (h : HostId) (q : SiftFields) (buf : Bytes) (s : State) :
    Answers ρ s (execGuildSift h q buf s) :=
  .next (meetVendorIo_moves (fun _ _ => by
    refine .ite (finish_moves ..) (.ite .refl ?_)
    refine .ite (finish_moves ..) ?_
    split
    · exact finish_moves ..
    · exact .ite (finish_moves ..) (.ite (finish_moves ..) (.trans (addSearch_moves ..) <| .trans (setRunning_moves ..) <|
        .foldl (fun _ _ => askMember_moves ..)))) ..)

theorem completeSearch_moves (s : State) (entry : Nat) : Moves ρ s (completeSearch s entry) := by
  unfold completeSearch
  dsimp only
  split
  · split
    · exact .trans (drawBytes_moves ..) <| finishData_moves ..
    · split
      · exact .trans (drawBytes_moves ..) <| answer_moves ..
      · exact .trans (drawBytes_moves ..) <| freeFamily_moves ..
  · exact .refl

theorem freeContexts_moves (s : State) (entry : Nat) : Moves ρ s (freeContexts s entry) :=
  .trans (.foldl (fun _ _ => freeFamily_moves ..)) <| .trans .unwait <| .foldl (fun _ _ => runNext_moves ..)

theorem ownPartDone_moves (s : State) (entry : Nat) : Moves .control s (ownPartDone s entry) := by
  unfold ownPartDone
  dsimp only
  split
  · exact .trans (freeContexts_moves ..) <| .trans (searchMod_moves ..) <| .trans (.ite .refl (completeSearch_moves ..)) <|
      placeShelved_moves ..
  · exact .trans (freeContexts_moves ..) <| searchMod_moves ..

theorem scanTask_moves (s : State) (x : IndexSlot) (q : Search) (c : Context) : Moves ρ s (scanTask s x q c) := by
  unfold scanTask
  dsimp only
  split
  · exact .refl
  · exact .trans .working <| .trans (searchMod_moves ..) <| .trans (count_moves ..) <| count_moves ..

theorem takeUpTask_moves (s : State) (x : IndexSlot) (q : Search) (c : Context) : Moves ρ s (takeUpTask s x q c) := by
  unfold takeUpTask
  dsimp only
  split
  · exact .refl
  · refine .ite (.trans (searchMod_moves ..) <| contextMod_moves ..) ?_
    split
    · exact .trans (searchMod_moves ..) <| contextMod_moves ..
    · exact .trans (searchMod_moves ..) <| .trans (contextMod_moves ..) <| .ite (failRequest_moves ..) (readUnits_moves ..)

theorem readySearch_moves (s : State) (entry : Nat) : Moves ρ s (readySearch s entry) := by
  unfold readySearch
  dsimp only
  split
  · exact .refl
  · exact .trans (searchMod_moves ..) <| .foldl (fun _ _ => runNext_moves ..)

theorem contextRead_moves (s : State) (j : ReadJob) : Moves ρ s (contextRead s j) := by
  unfold contextRead
  split
  · exact readySearch_moves ..
  · exact dropRead_moves ..

theorem yieldOn_moves (s : State) (x : IndexSlot) (entry : Nat) (c : Context) : Moves .control s (yieldOn s x entry c) := by
  unfold yieldOn
  split
  · exact .refl
  · exact .ite (.trans (shelve_moves ..) <| placeShelved_moves ..) (.ite (.ite (contextMod_moves ..) (.trans (freeFamily_moves ..) <|
      placeShelved_moves ..)) (takeUpTask_moves ..))

theorem execYieldPoint_answers (sifter ctx : Nat) (s : State) :
    Answers .control s (execYieldPoint sifter ctx s) := by
  unfold execYieldPoint
  dsimp only
  split
  · exact .next .refl
  · exact .ite (.next .refl) (.ite (.next (.trans (taskEnds_moves ..) <| .trans (scanTask_moves ..) <|
      ownPartDone_moves ..)) (.next (.trans (taskEnds_moves ..) <| .trans (scanTask_moves ..) <| .trans (yieldOn_moves ..) <|
        .trans (runNext_moves ..) <| readySearch_moves ..)))

theorem finaliseSearch_moves (s : State) (entry flag : Nat) : Moves .control s (finaliseSearch s entry flag) := by
  unfold finaliseSearch
  split
  · exact .refl
  · exact .ite .refl (.trans (freeContexts_moves ..) <| .trans (searchMod_moves ..) <| placeShelved_moves ..)

theorem execSearchFinalise_answers (search : Nat) (s : State) :
    Answers .control s (execSearchFinalise search s) := by
  unfold execSearchFinalise
  split
  · exact .next .refl
  · exact .ite (.next .refl) (.next (.trans (finaliseSearch_moves ..) <| completeSearch_moves ..))

theorem execReplyByFinalise_answers (search : Nat) (s : State) :
    Answers .control s (execReplyByFinalise search s) := by
  unfold execReplyByFinalise
  split
  · exact .next .refl
  · exact .ite (.next .refl) (.ite (.ite (.next (.trans (finaliseSearch_moves ..) <|
      completeSearch_moves ..)) (.next .refl)) (.ite (.next (finaliseSearch_moves ..)) (.next .refl)))

theorem execGuildMerge_answers (search : Nat) (s : State) :
    Answers .control s (execGuildMerge search s) := by
  unfold execGuildMerge
  dsimp only
  split
  · exact .next .refl
  · exact .ite (.next .refl) (.next (.trans (finaliseSearch_moves ..) <| .trans (searchMod_moves ..) <| completeSearch_moves ..))

theorem mergeReply_moves (s : State) (entry member : Nat) (data : Bytes) :
    Moves ρ s (mergeReply s entry member data) := searchMod_moves ..

end Sys2Proof.Machine
end

section
/-! ## Stream commands, chunks and slices: how far the work reaches, and what it keeps -/

namespace Sys2Proof.Machine

variable {ρ : Reach}

theorem addChunk_moves (s : State) (sid : Nat) (st : Stream) (carrier gangs rsid viewAt : Nat) (sliceAt : Option Nat) (buf : Bytes) :
    Moves ρ s (addChunk s sid st carrier gangs rsid viewAt sliceAt buf) :=
  .trans (await_moves _ _ (by nofun)) <| .trans (streamPut_moves ..) <| setState_moves ..

theorem adoptChunk_moves (s : State) (i sid seq : Nat) : Moves ρ s (adoptChunk s i sid seq) := by
  unfold adoptChunk
  split
  · exact freeFamily_moves ..
  · exact .trans (streamMod_moves ..) <| setState_moves ..

theorem execStreamFeed_answers (h : HostId) (sid rsid gangs length : Nat) (check : Option Nat) (buf : Bytes) (s : State) :
    Answers ρ s (execStreamFeed h sid rsid gangs length check buf s) := .next (meetVendorIo_moves (fun _ _ => by
    refine .ite .refl ?_
    split
    · exact .ite (finish_moves ..) (finish_moves ..)
    · exact .ite (finish_moves ..) (.ite (finish_moves ..) (.ite (finish_moves ..) (.ite (finish_moves ..) (addChunk_moves ..))))) ..)

theorem makeRoom_moves (s : State) (sid need n : Nat) : Moves ρ s (makeRoom s sid need n) := by
  induction n generalizing s with
  | zero => exact .refl
  | succ n ih =>
    unfold makeRoom
    refine .ite .refl ?_
    split
    · exact .refl
    · exact (streamPut_moves ..).trans ((count_moves ..).trans (ih _))

theorem dispatchChunk_moves (s : State) (sid : Nat) (st : Stream) (k : Chunk) : Moves ρ s (dispatchChunk s sid st k) :=
  .trans (makeRoom_moves ..) <| .ite .refl (.trans (.ite .refl (count_moves ..)) <| .trans (addInvocation_moves ..) <| streamMod_moves ..)

theorem execChunkDispatch_answers (sid : Nat) (s : State) :
    Answers ρ s (execChunkDispatch sid s) := by
  unfold execChunkDispatch
  split
  · exact .next .refl
  · split
    · exact .next .refl
    · exact .ite (.next .refl) (.ite (.next (failRequest_moves ..)) (.ite (.next .refl) (.ite (.next (dispatchChunk_moves ..)) (.ite
        (.next .refl) (.next (await_moves _ _ (by nofun)))))))

theorem adoptLoad_moves (s : State) (i sid : Nat) : Moves ρ s (adoptLoad s i sid) := by
  unfold adoptLoad
  dsimp only
  split
  · exact freeFamily_moves ..
  · exact .ite (.trans (dispatchChunk_moves ..) <| setRunning_moves ..) (freeFamily_moves ..)

theorem endLoads_moves (s : State) : Moves ρ s (endLoads s) := .foldl (fun _ _ => freeFamily_moves ..)

theorem addPark_moves (s : State) (sid : Nat) (st : Stream) (p : Park) (to_ : StreamSt) : Moves ρ s (addPark s sid st p to_) :=
  .trans (streamPut_moves ..) <| setState_moves ..

theorem startSave_moves (sid : Nat) (s : State) (k : Park) : Moves ρ s (startSave sid s k) := by
  unfold startSave
  dsimp only
  split
  · refine .ite .refl ?_
    split
    · exact failRequest_moves ..
    · exact .ite (failRequest_moves ..) (.ite (failRequest_moves ..) (.ite (failRequest_moves ..) (startWrite_moves ..)))
  · exact .refl

theorem endPark_moves (last : Nat) (s : State) (k : Park) : Moves ρ s (endPark last s k) := .trans (dropJob_moves ..) <| finish_moves ..

theorem evict_moves (s : State) (sid : Nat) : Moves ρ s (evict s sid) := by
  unfold evict
  dsimp only
  split
  · exact .refl
  · exact .ite .refl (.trans (.ite (.trans (streamPut_moves ..) <| count_moves ..) .refl) <|
      .trans (.foldl (fun _ _ => startSave_moves ..)) <| .ite .refl (.trans (streamMod_moves ..) <|
        .trans (.ite (streamDrop_moves ..) .refl) <| .foldl (fun _ _ => endPark_moves ..)))

theorem execStreamPark_answers (h : HostId) (sid : Nat) (release save : Bool) (slba : Nat) (s : State) :
    Answers ρ s (execStreamPark h sid release save slba s) := .next (meetVendorIo_moves (fun _ _ => by
    refine .ite .refl ?_
    split
    · exact finish_moves ..
    · refine .ite (finish_moves ..) ?_
      split
      · exact finish_moves ..
      · exact addPark_moves ..
      · exact .trans (addPark_moves ..) <| evict_moves ..) ..)

theorem stopChunks_moves (s : State) (st : Stream) : Moves ρ s (stopChunks s st) := .foldl (fun _ _ => failRequest_moves ..)

theorem parkNow_moves (s : State) (sid : Nat) : Moves ρ s (parkNow s sid) := by
  unfold parkNow
  dsimp only
  split
  · exact .refl
  · exact .ite .refl (.trans (stopChunks_moves ..) <| .trans (streamMod_moves ..) <| evict_moves ..)

theorem parkTick_moves (s : State) : Moves ρ s (parkTick s) := .foldl (fun _ _ => parkNow_moves ..)

theorem execStreamParkNow_answers (h : HostId) (sid : Nat) (release save : Bool) (slba : Nat) (s : State) :
    Answers ρ s (execStreamParkNow h sid release save slba s) := .next (meetVendorIo_moves (fun _ _ => by
    refine .ite .refl ?_
    split
    · exact finish_moves ..
    · exact .ite (finish_moves ..) (.ite (.trans (addPark_moves ..) <| evict_moves ..) (addPark_moves ..))) ..)

theorem execStreamEviction_answers (sid : Nat) (s : State) :
    Answers ρ s (execStreamEviction sid s) := .ite (.next .refl) (.next (evict_moves ..))

theorem resumeFrom_moves (s : State) (i sid nsid : Nat) (b : Bytes) : Moves ρ s (resumeFrom s i sid nsid b) :=
  .ite (finish_moves ..) (.ite (finish_moves ..) (.trans (streamPut_moves ..) <| finish_moves ..))

theorem execStreamResumeHome_answers (h : HostId) (sid : Nat) (s : State) :
    Answers ρ s (execStreamResumeHome h sid s) := .next (serveVendorIo_moves (fun _ _ => by
    split
    · exact finish_moves ..
    · exact .ite (finish_moves ..) (.ite (finish_moves ..) (.trans (streamPut_moves ..) <| finish_moves ..))) ..)

theorem execStreamResumeInit_answers (h : HostId) (sid length : Nat) (image : Bytes) (s : State) :
    Answers ρ s (execStreamResumeInit h sid length image s) :=
  .next (serveVendorIo_moves (fun _ _ => .ite (finish_moves ..) (.ite (finish_moves ..) (.ite (finish_moves ..)
    (resumeFrom_moves ..)))) ..)

theorem execStreamResumeLoad_answers (h : HostId) (sid slba nlb : Nat) (s : State) :
    Answers ρ s (execStreamResumeLoad h sid slba nlb s) := .next (serveVendorIo_moves (fun _ _ => by
    refine .ite (finish_moves ..) ?_
    split
    · exact finish_moves ..
    · exact .ite (finish_moves ..) (.ite (finish_moves ..) (.ite (finish_moves ..) (readUnits_moves ..)))) ..)

theorem loadDone_moves (s : State) (sid : Nat) (j : ReadJob) : Moves ρ s (loadDone s sid j) :=
  .trans (dropRead_moves ..) <| .ite (finish_moves ..) (.ite (finish_moves ..) (.ite (finish_moves ..) (resumeFrom_moves ..)))

theorem sendSlice_moves (v : Invocation) (inv seq n : Nat) (s : State) (handle : Nat) : Moves ρ s (sendSlice v inv seq n s handle) :=
  .trans (.foldl (fun _ _ => originate_moves ..)) <| originate_moves ..

theorem execSliceSeal_answers (inv : Nat) (s : State) :
    Answers ρ s (execSliceSeal inv s) := by
  unfold execSliceSeal
  dsimp only
  split
  · exact .next .refl
  · split
    · exact .next .refl
    · exact .ite (.next .refl) (.next (.foldl (fun _ _ => sendSlice_moves ..)))

theorem execSliceAdmit_answers (sid : Nat) (s : State) :
    Answers ρ s (execSliceAdmit sid s) := by
  unfold execSliceAdmit
  dsimp only
  split
  · exact .next .refl
  · refine .ite (.next .refl) ?_
    split
    · exact .next (.trans .working <| .trans (count_moves ..) <| freeFamily_moves ..)
    · exact .ite (.next (.trans .working <| .trans (streamPut_moves ..) <| .trans (count_moves ..) <|
        freeFamily_moves ..)) (.next (.trans .working <| addChunk_moves ..))

end Sys2Proof.Machine
end

section
/-! ## Transactions of the guild: how far the work reaches, and what it keeps -/

namespace Sys2Proof.Machine

variable {ρ : Reach}

theorem serveGet_moves (x : Txn) (s : State) (i : Nat) : Moves ρ s (serveGet x s i) := by
  unfold serveGet
  dsimp only
  split
  · exact answer_moves ..
  · refine .ite ?_ (answer_moves ..)
    split
    · exact answer_moves ..
    · exact answer_moves ..
    · exact .ite (answer_moves ..) (.trans (toLedger_moves ..) <| readUnits_moves ..)

theorem getDone_moves (s : State) (j : ReadJob) : Moves ρ s (getDone s j) := by
  unfold getDone
  split
  · exact .trans (dropRead_moves ..) <| answer_moves ..
  · exact .trans (dropRead_moves ..) <| freeFamily_moves ..

theorem execGetOp_answers (x : Txn) (s : State) :
    Answers .control s (execGetOp x s) := .next (meetTxn_moves ..)

theorem servePut_moves (x : Txn) (data : Bytes) (s : State) : Moves ρ s (servePut x data s) := by
  unfold servePut
  split
  · exact answer_moves ..
  · exact .ite (answer_moves ..) (.trans (stageMsg_moves ..) <| answer_moves ..)

theorem execPutOp_answers (x : Txn) (data : Bytes) (s : State) :
    Answers .control s (execPutOp x data s) := .next (meetTxn_moves ..)

theorem serveStream_moves (x : Txn) (data : Bytes) (s : State) (i : Nat) : Moves ρ s (serveStream x data s i) :=
  .ite (answer_moves ..) (.ite (answer_moves ..) (.trans (stageMsg_moves ..) <| .trans .working <| freeFamily_moves ..))

theorem execStreamOp_answers (x : Txn) (data : Bytes) (s : State) :
    Answers .control s (execStreamOp x data s) := .next (meetTxn_moves ..)

theorem commitSlm_moves (s : State) (m : Nat × Bytes) : Moves ρ s (commitSlm s m) := .ite .writeSlm .refl

theorem commitNs_moves (entry : Nat) (s : State) (w : Nat × Nat × Nat × Bytes) : Moves ρ s (commitNs entry s w) := by
  unfold commitNs
  dsimp only
  split
  · exact .refl
  · exact startWrite_moves ..

theorem commitSlice_moves (s : State) (x : Txn) (i : Nat) (g : StageGroup) : Moves ρ s (commitSlice s x i g) := by
  unfold commitSlice
  dsimp only
  split
  · exact .trans (.ite (count_moves ..) .refl) <| .trans .working <| .trans (setState_moves ..) <| .trans (answer_moves ..) <| .working
  · exact answer_moves ..

theorem serveSeal_moves (x : Txn) (messages bytes : Nat) (s : State) (i : Nat) : Moves ρ s (serveSeal x messages bytes s i) := by
  unfold serveSeal
  dsimp only
  split
  · exact .ite (.trans (count_moves ..) <| answer_moves ..) (answer_moves ..)
  · refine .ite (.trans (dropGroup_moves ..) <| answer_moves ..) ?_
    split
    · exact .trans (dropGroup_moves ..) <| .ite (commitSlice_moves ..) (.trans (count_moves ..) <| answer_moves ..)
    · split
      · exact .trans (dropGroup_moves ..) <| answer_moves ..
      · exact .trans (dropGroup_moves ..) <| .trans (.foldl (fun _ _ => commitSlm_moves ..)) <|
          .ite (answer_moves ..) (.foldl (fun _ _ => commitNs_moves ..))

theorem execSealOp_answers (x : Txn) (messages bytes : Nat) (s : State) :
    Answers .control s (execSealOp x messages bytes s) := .next (meetTxn_moves ..)

theorem slmWrite_moves (s : State) (a : Nat) (b : Bytes) : Moves ρ s (slmWrite s a b) := .writeSlm

theorem ringInit_moves (s : State) (w : Nat) : Moves ρ s (ringInit s w) := slmWrite_moves ..

theorem serveSend_moves (x : Txn) (data : Bytes) (s : State) : Moves ρ s (serveSend x data s) := by
  unfold serveSend
  refine .ite (answer_moves ..) (.ite (answer_moves ..) ?_)
  split
  · exact .ite (answer_moves ..) (.trans (slmWrite_moves ..) <| .trans (slmWrite_moves ..) <| answer_moves ..)

theorem execSendOp_answers (x : Txn) (data : Bytes) (s : State) :
    Answers .control s (execSendOp x data s) := .next (meetTxn_moves ..)

theorem serveSift_moves (x : Txn) (k index : Nat) (block : Bytes) (s : State) (i : Nat) : Moves ρ s (serveSift x k index block s i) := by
  unfold serveSift
  split
  · exact answer_moves ..
  · exact .ite (answer_moves ..) (.ite (answer_moves ..) (addSearch_moves ..))

theorem execSiftOp_answers (x : Txn) (k index : Nat) (block : Bytes) (s : State) :
    Answers .control s (execSiftOp x k index block s) := .next (meetTxn_moves ..)

theorem serveArrived_moves (a : Arrived) (s : State) (i : Nat) : Moves ρ s (serveArrived a s i) := by
  unfold serveArrived
  split
  · exact serveGet_moves ..
  · exact servePut_moves ..
  · exact serveSeal_moves ..
  · exact serveSend_moves ..
  · exact serveSift_moves ..
  · exact serveStream_moves ..

theorem adoptArrived_moves (s : State) (src tag i : Nat) : Moves ρ s (adoptArrived s src tag i) := by
  unfold adoptArrived
  dsimp only
  split
  · exact freeFamily_moves ..
  · exact .trans (takeArrived_moves ..) <|
      .ite (acceptArrived_moves (fun _ _ => serveArrived_moves ..) ..) (.trans (freeFamily_moves ..) <| refuseArrived_moves ..)

theorem dropArrived_moves (s : State) (src tag : Nat) : Moves ρ s (dropArrived s src tag) := by
  unfold dropArrived
  dsimp only
  split
  · exact .refl
  · exact .trans (takeArrived_moves ..) <| refuseArrived_moves ..

theorem execControlProbe_answers (x : Txn) (s : State) :
    Answers .control s (execControlProbe x s) := by
  unfold execControlProbe
  dsimp only
  refine .ite (.next .refl) (.ite (.next (.trans (wakeInPs1_moves ..) <| forward_moves ..)) ?_)
  split
  · exact .next (wakeInPs1_moves ..)
  · exact .next (wakeInPs1_moves ..)
  · exact .next (.trans (wakeInPs1_moves ..) <| refuseTxn_moves ..)

theorem remoteDone_moves (s : State) (r : Remote) : Moves ρ s (remoteDone s r) := by
  unfold remoteDone
  dsimp only
  split
  · exact .trans .working <| .trans (slmWrite_moves ..) <| finish_moves ..
  · exact .trans .working <| finishData_moves ..

theorem remoteGoesOn_moves (s : State) (entry : Nat) : Moves ρ s (remoteGoesOn s entry) := by
  unfold remoteGoesOn
  dsimp only
  split
  · exact .refl
  · split
    · exact .ite .refl (.trans (originate_moves ..) <| remoteMod_moves ..)
    · exact .ite (remoteDone_moves ..) .refl

theorem accepted_moves (s : State) (o : OrigTxn) : Moves ρ s (accepted s o) :=
  .trans (origMod_moves ..) <| .ite (dropOrig_moves ..) (.ite (.trans (remoteMod_moves ..) <| remoteGoesOn_moves ..) .refl)

theorem okReply_moves (s : State) (o : OrigTxn) (data : Bytes) : Moves ρ s (okReply s o data) := by
  unfold okReply
  dsimp only
  split
  · exact .trans (dropOrig_moves ..) <| .trans (remoteMod_moves ..) <| remoteGoesOn_moves ..
  · exact .trans (dropOrig_moves ..) <| .trans (remoteMod_moves ..) <| remoteGoesOn_moves ..
  · exact .trans (dropOrig_moves ..) <| .trans (remoteMod_moves ..) <| remoteGoesOn_moves ..
  · exact .trans (dropOrig_moves ..) <| .ite (mergeReply_moves ..) (count_moves ..)
  · exact .trans (dropOrig_moves ..) <| .working
  · exact .trans (drawFree_moves ..) <| .trans (dropOrig_moves ..) <| finish_moves ..
  · exact .trans (dropOrig_moves ..) <| .working
  · exact dropOrig_moves ..

theorem fullReply_moves (s : State) (o : OrigTxn) : Moves ρ s (fullReply s o) :=
  .ite (.trans (failOrig_moves ..) <| count_moves ..) (origMod_moves ..)

theorem applyReply_moves (s : State) (o : OrigTxn) (status bell : Nat) (data : Bytes) : Moves ρ s (applyReply s o status bell data) := by
  unfold applyReply
  split
  · exact okReply_moves ..
  · exact accepted_moves ..
  · exact holdOrig_moves ..
  · exact fullReply_moves ..
  · exact failOrig_moves ..
  · exact failOrig_moves ..
  · exact failOrig_moves ..
  · exact failOrig_moves ..
  · exact failOrig_moves ..
  · exact failOrig_moves ..
  · exact failOrig_moves ..
  · exact failOrig_moves ..
  · exact .refl

theorem execTransactionReply_answers (x : Txn) (head : ReplyHead) (data : Bytes) (s : State) :
    Answers ρ s (execTransactionReply x head data s) := by
  unfold execTransactionReply
  dsimp only
  refine .ite (.next .refl) (.ite (.next (.ite (count_moves ..) (routeMsg_moves ..))) ?_)
  split
  · exact .next (.trans .working <| .ite (count_moves ..) (count_moves ..))
  · exact .ite (.next (.trans .working <| count_moves ..)) (.next (.trans .working <| applyReply_moves ..))

theorem resend_moves (s : State) (o : OrigTxn) (raise : Bool) : Moves ρ s (resend s o raise) :=
  .trans (setState_moves ..) <| .trans (origMod_moves ..) <| sendMsg_moves ..

theorem execE2eRetryTimeout_answers (tag : Nat) (s : State) :
    Answers ρ s (execE2eRetryTimeout tag s) := by
  unfold execE2eRetryTimeout
  dsimp only
  split
  · exact .next .refl
  · exact .ite (.next .refl) (.ite (.next (.trans (count_moves ..) <| failOrig_moves ..)) (.next (.trans (count_moves ..) <|
      resend_moves ..)))

theorem execHeldResend_answers (tag : Nat) (s : State) :
    Answers ρ s (execHeldResend tag s) := by
  unfold execHeldResend
  split
  · exact .next .refl
  · split
    · exact .next .refl
    · refine .ite (.next .refl) ?_
      split
      · exact .next (failOrig_moves ..)
      · exact .next (failOrig_moves ..)
      · exact .next (resend_moves ..)

theorem execRepeatRecordExpiry_answers (source epoch tag : Nat) (s : State) :
    Answers ρ s (execRepeatRecordExpiry source epoch tag s) := by
  unfold execRepeatRecordExpiry
  dsimp only
  split
  · exact .next .refl
  · exact .ite (.next .refl) (.next .working)

theorem execStagingTimeout_answers (source epoch group : Nat) (s : State) :
    Answers ρ s (execStagingTimeout source epoch group s) := by
  unfold execStagingTimeout
  dsimp only
  split
  · exact .next .refl
  · exact .ite (.next .refl) (.next (.trans .working <| count_moves ..))

end Sys2Proof.Machine
end

section
/-! ## Members of the guild: how far the work reaches, and what it keeps -/

namespace Sys2Proof.Machine

variable {ρ : Reach}

theorem failWaiting_moves (s : State) (member : Nat) (st : Status) (reason : Nat) : Moves ρ s (failWaiting s member st reason) :=
  .foldl (fun _ _ => failOrig_moves ..)

theorem takeEpoch_moves (s : State) (member epoch : Nat) : Moves ρ s (takeEpoch s member epoch) :=
  .ite .refl (.trans (failWaiting_moves ..) <| .trans (forgetLost_moves ..) <| peerMod_moves ..)

theorem stopServing_moves (s : State) (mine : Nat → Bool) : Moves ρ s (stopServing s mine) := .foldl (fun _ _ => freeFamily_moves ..)

theorem markLost_moves (s : State) (member epoch : Nat) : Moves ρ s (markLost s member epoch) :=
  .trans (peerMod_moves ..) <| .trans (failWaiting_moves ..) <| .trans (stopServing_moves ..) <| .trans .working <|
    .trans (guildLogWrite_moves ..) <| raiseEvent_moves ..

theorem loseMembership_moves (s : State) (why : Nat) : Moves ρ s (loseMembership s why) :=
  .trans (.foldl (fun _ _ => failOrig_moves ..)) <| .trans (stopServing_moves ..) <| .trans (raiseRecord_moves ..) <|
    .trans (guildLogWrite_moves ..) <| .trans (raiseEvent_moves ..) <| .trans .working <| enterJoining_moves ..

theorem meetNotice_moves {act : State → State} (ha : ∀ s, Moves .control s (act s)) (s : State) (port : Nat) :
    Moves .control s (meetNotice s port act) := .ite .refl (.trans (wakeInPs1_moves ..) <| ha _)

theorem settleLost_moves (s : State) : Moves ρ s (settleLost s) := .trans .working <| .foldl (fun _ _ => .ite (markLost_moves ..) .refl)

theorem execControlLost_answers (port member epoch : Nat) (s : State) :
    Answers .control s (execControlLost port member epoch s) :=
  .next (meetNotice_moves (fun _ => .ite .refl (.trans .control <| .trans (count_moves ..) <| .trans (flood_moves ..) <|
    .ite (.ite (loseMembership_moves ..) .refl) .control)) ..)

theorem execControlPaused_answers (port member epoch resume : Nat) (s : State) :
    Answers .control s (execControlPaused port member epoch resume s) :=
  .next (meetNotice_moves (fun _ => .ite .refl (.trans (takeEpoch_moves ..) <| .trans (peerMod_moves ..) <|
    .trans (guildLogWrite_moves ..) <| flood_moves ..)) ..)

theorem peerActive_moves (s : State) (port member epoch : Nat) (k : Control) : Moves ρ s (peerActive s port member epoch k) :=
  .trans (takeEpoch_moves ..) <| .trans (peerMod_moves ..) <| .trans (guildLogWrite_moves ..) <| flood_moves ..

theorem execControlResumed_answers (port member epoch : Nat) (s : State) :
    Answers .control s (execControlResumed port member epoch s) := .next (meetNotice_moves (fun _ => .ite .refl (peerActive_moves ..)) ..)

theorem execControlJoined_answers (port member epoch : Nat) (s : State) :
    Answers .control s (execControlJoined port member epoch s) := .next (meetNotice_moves (fun _ => .ite .refl (peerActive_moves ..)) ..)

theorem execControlPeriod_answers (port code bell : Nat) (s : State) :
    Answers .control s (execControlPeriod port code bell s) :=
  .next (meetNotice_moves (fun _ => .ite .refl (.trans .control <| flood_moves ..)) ..)

theorem takePart_moves (s : State) (port kind part : Nat) (last : Bool) (rows : List (Nat × Nat × Nat × Nat)) :
    Moves ρ s (takePart s port kind part last rows).2 := by
  unfold takePart
  dsimp only
  split
  · exact .working
  · split <;> exact .working

theorem execControlTable_answers (port part : Nat) (last : Bool) (code : Nat) (entries : List (Nat × Nat × Nat × Nat)) (s : State) :
    Answers .control s (execControlTable port part last code entries s) := by
  refine .next (meetNotice_moves (fun s => .ite .refl ?_) ..)
  refine .trans (takePart_moves s port 9 part last entries) ?_
  dsimp only
  split
  · exact .refl
  · exact .trans (.foldl fun _ _ => .ite .refl (.trans (takeEpoch_moves ..) (peerMod_moves ..))) .working

theorem execControlDelays_answers (port part : Nat) (last : Bool) (entries : List (Nat × Nat × Nat)) (s : State) :
    Answers .control s (execControlDelays port part last entries s) := by
  refine .next (meetNotice_moves (fun s => .ite .refl ?_) ..)
  refine .trans (takePart_moves s port 10 part last (entries.map fun r => (r.1, r.2.1, r.2.2, 0))) ?_
  dsimp only
  split
  · exact .refl
  · exact .trans (.foldl fun _ _ => peerMod_moves ..) (.trans .working (.ite .refl (flood_moves ..)))

theorem execPartSequenceTimeout_answers (port : Nat) (s : State) :
    Answers ρ s (execPartSequenceTimeout port s) := .ite (.next .refl) (.next .working)

theorem probeNeighbour_moves (s : State) (port : Nat) : Moves ρ s (probeNeighbour s port) :=
  .trans (portMod_moves ..) <| .trans .working <| sendMsg_moves ..

theorem sendProbes_moves (s : State) : Moves ρ s (sendProbes s) := .foldl (fun _ _ => probeNeighbour_moves ..)

theorem execProbeWindowExpiry_answers (port : Nat) (s : State) :
    Answers ρ s (execProbeWindowExpiry port s) := by
  unfold execProbeWindowExpiry
  dsimp only
  split
  · exact .next .refl
  · exact .ite (.next .refl) (.ite (.next (.trans (portMod_moves ..) <| .working)) (.next (.trans (portMod_moves ..) <|
      .trans .working <| .trans (flood_moves ..) <| markLost_moves ..)))

theorem execNoPortUpExpiry_answers (s : State) :
    Answers ρ s (execNoPortUpExpiry s) := by
  unfold execNoPortUpExpiry
  dsimp only
  split
  · exact .next .refl
  · exact .ite (.next .refl) (.next (loseMembership_moves ..))

theorem execHoldoverPause_answers (s : State) :
    Answers ρ s (execHoldoverPause s) := .ite (.next .refl) (.next (pauseMember_moves ..))

theorem execJoinComplete_answers (s : State) :
    Answers .platform s (execJoinComplete s) := by
  unfold execJoinComplete
  dsimp only
  refine .ite (.next .refl) ?_
  refine .next ?_
  split
  · exact .trans (setMember_moves ..) <| .trans (flood_moves ..) <| .trans (flood_moves ..) <| changePeriod_moves ..
  · exact .trans (setMember_moves ..) <| .trans (flood_moves ..) <| flood_moves ..

theorem execPeriodChangeAtE_answers (s : State) :
    Answers .platform s (execPeriodChangeAtE s) := by
  unfold execPeriodChangeAtE
  dsimp only
  split
  · exact .next .refl
  · exact .ite (.next .refl) (.next (.trans .platform <| .trans (guildLogWrite_moves ..) <| changePeriod_moves ..))

theorem execLeaveComplete_answers (s : State) :
    Answers ρ s (execLeaveComplete s) := .ite (.next .refl) (.next (.trans .working <| setMember_moves ..))

theorem serveGuild_moves {act : State → Nat → State} (ha : ∀ s i, Moves ρ s (act s i)) (s : State) (h : HostId) (serial : Option Nat) :
    Moves ρ s (serveGuild s h serial act) := serveVendorAdmin_moves (fun _ _ => by
    refine .ite (finish_moves ..) ?_
    split
    · exact .ite (ha _ _) (finish_moves ..)
    · exact ha _ _) ..

theorem settlePort_moves (s : State) (p : Nat) : Moves ρ s (settlePort s p) :=
  .ite (.ite .refl (portDown_moves ..)) (.ite (setPort_moves ..) .refl)

theorem execGuildSetGeometry_answers (h : HostId) (serial length : Nat) (block : Bytes) (s : State) :
    Answers ρ s (execGuildSetGeometry h serial length block s) :=
  .next (serveGuild_moves (fun _ _ => .ite (finish_moves ..) (.ite (finish_moves ..) (.trans .working <|
    .trans (.foldl (fun _ _ => settlePort_moves ..)) <| finish_moves ..))) ..)

theorem execGuildJoin_answers (h : HostId) (serial : Nat) (s : State) :
    Answers ρ s (execGuildJoin h serial s) :=
  .next (serveGuild_moves (fun _ _ => .ite (finish_moves ..) (.trans (startJoin_moves ..) <| finish_moves ..)) ..)

theorem execGuildLeave_answers (h : HostId) (serial : Nat) (s : State) :
    Answers ρ s (execGuildLeave h serial s) :=
  .next (serveGuild_moves (fun _ _ => .ite (finish_moves ..) (.trans .working <| .trans (flood_moves ..) <|
    .trans (setMember_moves ..) <| finish_moves ..)) ..)

theorem execGuildSetPeriod_answers (h : HostId) (serial code bell : Nat) (s : State) :
    Answers ρ s (execGuildSetPeriod h serial code bell s) :=
  .next (serveGuild_moves (fun _ _ => .ite (finish_moves ..) (.ite (finish_moves ..) (.trans .working <| .trans (flood_moves ..) <|
    finish_moves ..))) ..)

theorem execGuildPing_answers (h : HostId) (member : Nat) (s : State) :
    Answers ρ s (execGuildPing h member s) :=
  .next (serveGuild_moves (fun _ _ => .ite (finish_moves ..) (.trans (setState_moves ..) <| originate_moves ..)) ..)

theorem remoteRead_moves (s : State) (i addr len : Nat) (dst : Option Nat) : Moves ρ s (remoteRead s i addr len dst) :=
  .trans (setState_moves ..) <| .trans .working <| .trans (.foldl (fun _ _ => originate_moves ..)) <| remoteGoesOn_moves ..

theorem remoteWrite_moves (s : State) (i addr : Nat) (data : Bytes) : Moves ρ s (remoteWrite s i addr data) :=
  .trans (setState_moves ..) <| .trans .working <| .trans (.foldl (fun _ _ => originate_moves ..)) <| remoteGoesOn_moves ..

theorem execMemoryRead_answers (h : HostId) (addr len : Nat) (s : State) :
    Answers ρ s (execMemoryRead h addr len s) :=
  .next (serveIo_moves (fun _ _ => .ite (.ite (finish_moves ..) (remoteRead_moves ..)) (.ite (finish_moves ..) (finishData_moves ..))) ..)

theorem execMemoryWrite_answers (h : HostId) (addr : Nat) (data : Bytes) (s : State) :
    Answers ρ s (execMemoryWrite h addr data s) :=
  .next (serveIo_moves (fun _ _ => .ite (.ite (finish_moves ..) (remoteWrite_moves ..)) (.ite (finish_moves ..) (.trans
    (slmWrite_moves ..) <| finish_moves ..))) ..)

theorem execMemoryCopy_answers (h : HostId) (dst src len : Nat) (s : State) :
    Answers ρ s (execMemoryCopy h dst src len s) := .next (serveIo_moves (fun _ _ => by
    split
    · exact finish_moves ..
    · exact .ite (finish_moves ..) (remoteWrite_moves ..)
    · exact .ite (finish_moves ..) (remoteRead_moves ..)
    · exact .ite (finish_moves ..) (.trans (slmWrite_moves ..) <| finish_moves ..)) ..)

end Sys2Proof.Machine
end

section
/-! ## Entering FROZEN: how far the work reaches, and what it keeps -/

namespace Sys2Proof.Machine

theorem dropUnanswered_moves (s : State) : Moves .control s (dropUnanswered s) := by
  unfold dropUnanswered
  dsimp only
  split
  · exact .ite .control .refl
  · exact .refl

theorem freezeNow_moves (s : State) (cause : Nat) : Moves .platform s (freezeNow s cause) :=
  .ite (count_moves ..) (.ite .refl (.trans .platform <| .trans (.up (dropUnanswered_moves ..)) <| .trans (.up (transition_moves ..)) <|
    raiseRecord_moves ..))

end Sys2Proof.Machine
end

section
/-! ## The steward: how far the work reaches, and what it keeps -/

namespace Sys2Proof.Machine

variable {ρ : Reach}

theorem sendAcy_moves (s : State) (payload : Bytes) : Moves ρ s (sendAcy s payload) := emit_moves ..

theorem holdAnswer_moves (s : State) (token : Nat) (payload : Bytes) : Moves .control s (holdAnswer s token payload) := by
  unfold holdAnswer
  dsimp only
  split
  · exact .ite .control .refl
  · exact .refl

theorem holdLater_moves (s : State) (token : Nat) (payload : Bytes) : Moves .control s (holdLater s token payload) := by
  unfold holdLater
  dsimp only
  split
  · exact .ite .control .refl
  · exact .refl

theorem answersReady_moves (s : State) : Moves .control s (answersReady s) := by
  unfold answersReady
  dsimp only
  split
  · split
    · exact .control
    · exact .refl
  · exact .refl

theorem answerOd_moves (s : State) (v : Via) (read applied : Bool) (a : OdAnswer) : Moves .control s (answerOd s v read applied a) := by
  unfold answerOd
  split
  · split
    · exact .refl
    · exact finishData_moves ..
  · cases applied
    · exact holdLater_moves ..
    · exact holdAnswer_moves ..

theorem answerPen_moves (s : State) (v : Via) (service code before serial : Nat) :
    Moves .control s (answerPen s v service code before serial) := by
  unfold answerPen
  split
  · split
    · exact .refl
    · exact finish_moves ..
  · exact holdLater_moves ..

theorem grantPen_moves (s : State) (m : Master) : Moves .control s (grantPen s m) :=
  .controlWith (fun _ => ⟨(nextSerial_bounds _).1, fun _ => (nextSerial_bounds _).2⟩) id id id

theorem takePen_moves (s : State) (m : Master) (force : Bool) : Moves .control s (takePen s m force).2 := by
  unfold takePen
  dsimp only
  split
  · exact grantPen_moves ..
  · split
    · exact .controlWith id id id (by exact id)
    · split
      · exact .trans (grantPen_moves ..) <| raiseRecord_moves ..
      · exact .refl

theorem givePen_moves (s : State) (m : Master) (serial : Nat) : Moves .control s (givePen s m serial).2 := by
  unfold givePen
  split
  · exact releasePen_moves ..
  · exact .refl

theorem serveWrite_moves (s : State) (v : Via) (idx sub : Nat) (allsub : Bool) (data : Bytes) :
    Moves .control s (serveWrite s v idx sub allsub data) := by
  unfold serveWrite
  dsimp only
  refine .ite (answerOd_moves ..) ?_
  split
  · exact answerOd_moves ..
  · exact .control

theorem serveRead_moves (s : State) (v : Via) (idx sub : Nat) (allsub : Bool) (off len : Nat) :
    Moves .control s (serveRead s v idx sub allsub off len) := answerOd_moves ..

theorem serveTake_moves (s : State) (v : Via) (force : Bool) : Moves .control s (serveTake s v force) :=
  .ite (answerPen_moves ..) (.trans (takePen_moves ..) <| answerPen_moves ..)

theorem serveGive_moves (s : State) (v : Via) : Moves .control s (serveGive s v) :=
  .ite (answerPen_moves ..) (.trans (givePen_moves ..) <| answerPen_moves ..)

theorem serveRequest_moves (s : State) (r : StewReq) : Moves .control s (serveRequest s r) := by
  unfold serveRequest
  dsimp only
  have fresh : Moves .control s (if s.pen.holder = some r.via.master then
      { s with pen := { s.pen with idleUs := 0, idleFresh := midBell s } } else s) :=
    .ite (.controlWith (by exact id) id id id) .refl
  split
  · exact fresh.trans (serveRead_moves ..)
  · exact fresh.trans (serveWrite_moves ..)
  · exact fresh.trans (serveTake_moves ..)
  · exact fresh.trans (serveGive_moves ..)

theorem submit_moves (s : State) (v : Via) (op : StewOp) : Moves .control s (submit s v op) :=
  .ite (.trans .control <| serveRequest_moves ..) .control

theorem serveUpTo_moves (n : Nat) (s : State) : Moves .control s (serveUpTo n s) := by
  induction n generalizing s with
  | zero => exact .refl
  | succ n ih =>
    unfold serveUpTo
    split
    · exact .refl
    · exact (Moves.trans .control (serveRequest_moves ..)).trans (ih ..)

theorem serveQueue_moves (s : State) : Moves .control s (serveQueue s) := .trans .control <| .ite (serveUpTo_moves ..) .refl

theorem holdTunnel_moves (s : State) (h : HostId) (serial : Nat) (op : StewOp) : Moves .control s (holdTunnel s h serial op) := by
  unfold holdTunnel
  dsimp only
  split
  · exact .refl
  · exact .ite .refl (.trans .control <| setState_moves ..)

theorem tunnel_moves (s : State) (h : HostId) (serial : Nat) (op : StewOp) : Moves .control s (tunnel s h serial op) :=
  .ite (holdTunnel_moves ..) (serveAdmin_moves (fun _ _ => submit_moves ..) ..)

theorem resumeTunnels_moves (s : State) : Moves .control s (resumeTunnels s) := .trans .control <| .foldl (fun _ _ => by
    split
    · exact .trans (setRunning_moves ..) <| .control
    · exact .refl)

theorem replyHeld_moves (s : State) (service token : Nat) : Moves .control s (replyHeld s service token) := by
  unfold replyHeld
  dsimp only
  split
  · split
    · exact .trans .control <| sendAcy_moves ..
    · exact sendAcy_moves ..
  · exact sendAcy_moves ..

theorem acyTake_moves (s : State) (service : Nat) (r : AcyReq) : Moves .control s (acyTake s service r) := by
  unfold acyTake
  dsimp only
  refine .ite (sendAcy_moves ..) ?_
  refine .trans ?_ <| replyHeld_moves ..
  split
  · exact .trans (.ite (count_moves ..) .refl) <| .trans .control <| holdAnswer_moves ..
  · exact .trans (.ite (count_moves ..) .refl) <| .trans .control <| holdAnswer_moves ..
  · exact .trans (.ite (count_moves ..) .refl) <| .trans .control <| .trans (submit_moves ..) <| wakeEvent_moves ..
  · exact .trans (.ite (count_moves ..) .refl) <| .trans .control <| submit_moves ..

theorem acyServe_moves (s : State) (service : Nat) (r : AcyReq) : Moves .control s (acyServe s service r) := by
  unfold acyServe
  dsimp only
  refine .ite .refl (.ite (.trans (count_moves ..) <| sendAcy_moves ..) ?_)
  split
  · exact .trans (count_moves ..) <| acyTake_moves ..
  · exact .trans (count_moves ..) <| .ite (.trans (count_moves ..) <| replyHeld_moves ..) (.ite (sendAcy_moves ..) (acyTake_moves ..))

theorem writeVia_moves (s : State) (v : Via) (idx sub : Nat) (data : Bytes) : Moves .control s (writeVia s v idx sub data) := by
  unfold writeVia
  split
  · exact tunnel_moves ..
  · exact acyServe_moves ..

theorem writeAllVia_moves (s : State) (v : Via) (idx : Nat) (data : Bytes) : Moves .control s (writeAllVia s v idx data) := by
  unfold writeAllVia
  split
  · exact tunnel_moves ..
  · exact acyServe_moves ..

theorem slotMod_moves (s : State) (f : Nat × StickySlot → StickySlot)
    (kept : ∀ p, (f p).record = p.2.record) : Moves ρ s (slotMod s f) := by
  refine .workingWith (fun ⟨rising, bound⟩ => ⟨map_rising _ _ (fun _ => rfl) rising, fun q hq => ?_⟩) id id
  obtain ⟨p, hp, rfl⟩ := List.mem_map.mp hq
  rw [kept]
  exact bound p hp

theorem rewritePort_moves (s : State) (p : Nat) (again : Bool) : Moves ρ s (rewritePort s p again) :=
  .trans (portMod_moves ..) <| .trans (.ite (setPort_moves ..) (.ite (portDown_moves ..) .refl)) <| settlePort_moves ..

theorem orderReset_moves (s : State) (m : Master) (v : Nat) : Moves .platform s (orderReset s m v) := by
  unfold orderReset
  dsimp only
  split
  · exact orderWarm_moves ..
  · exact .trans (raiseRecord_moves ..) <| .trans (drawFree_moves ..) <| coldReset_moves ..
  · exact guildResetJoin_moves ..

theorem applyMember_moves (m : Master) (s : State) (idx sub v : Nat) : Moves .platform s (applyMember m s idx sub v) := by
  unfold applyMember
  dsimp only
  refine .ite .platform (.ite (.ite (slotMod_moves _ _ (by intro _; split <;> rfl)) .refl) ?_)
  split
  · exact .platform
  · exact .platform
  · exact .ite .platform .refl
  · exact changePeriod_moves ..
  · exact slotMod_moves _ _ (by intro _; split <;> rfl)
  · exact .ite .platform .refl
  · exact orderReset_moves ..
  · exact .trans (odSet_moves ..) <| .platform
  · exact .trans (odSet_moves ..) <| .platform
  · exact .trans (odSet_moves ..) <| rewritePort_moves ..
  · exact .trans (odSet_moves ..) <| .trans .platform <| .trans (portMod_moves ..) <| rewritePort_moves ..
  · exact .trans (odSet_moves ..) <| .platform
  · exact odSet_moves ..

theorem afterWrite_moves (s : State) (idx : Nat) : Moves .platform s (afterWrite s idx) := by
  unfold afterWrite
  dsimp only
  refine .ite (.ite (ringInit_moves ..) .refl) ?_
  split
  · exact .ite .refl (fallBack_moves ..)
  · exact checkDivergence_moves ..
  · exact checkDivergence_moves ..
  · exact checkDivergence_moves ..
  · exact .ite .refl .platform
  · exact .up (checkCaps_moves ..)
  · exact .ite (.up (wakeEvent_moves ..)) .refl
  · exact .ite (.up (wakeEvent_moves ..)) .refl
  · exact .refl

theorem applyRequest_moves {s t : State} {m : Master} {v : Nat} (h : applyRequest s m v = some t) : Moves .platform s t := by
  have asked := odSet_moves s 0x1011 0 v
  have moved (u : State) (d : Device) (dst : DevState) (c : Nat) : Moves .platform u (goTo { u with dev := d } dst c 0) :=
    .trans .platform (goTo_moves ..)
  unfold applyRequest at h
  dsimp only at h
  split at h
  · cases h
  · split at h
    · split at h
      · split at h <;> cases h
        exact asked.trans (moved _ _ _ _)
      · cases h; exact asked
    · split at h
      · cases h; exact asked
      · split at h <;> cases h
        exact asked.trans (goTo_moves ..)

theorem answerApplied_moves (s : State) (a : Accepted) (x : OdAnswer) : Moves .control s (answerApplied s a x) :=
  .ite .refl (answerOd_moves ..)

theorem applyAccepted_moves (s : State) (a : Accepted) : Moves .platform s (applyAccepted s a) := by
  refine .ite .refl (.ite ?_ ?_)
  · split
    · exact (answerApplied_moves ..).up
    · next t ht => exact (applyRequest_moves ht).trans (answerApplied_moves ..).up
  · exact .trans (.foldl fun _ _ => applyMember_moves ..) ((afterWrite_moves ..).trans (answerApplied_moves ..).up)

theorem applyWrites_moves (s : State) : Moves .platform s (applyWrites s) :=
  .trans .platform <| .foldl (fun _ _ => applyAccepted_moves ..)

end Sys2Proof.Machine
end

section
/-! ## The power ladder: how far the work reaches, and what it keeps -/

namespace Sys2Proof.Machine

variable {ρ : Reach}

theorem parkBands_moves (s : State) : Moves ρ s (parkBands s) := .foldl (fun _ _ => .trans (padBand_moves ..) <| count_moves ..)

theorem streamsHome_moves (s : State) : Moves ρ s (streamsHome s) := .foldl (fun _ _ => .trans (streamPut_moves ..) <| count_moves ..)

theorem holdInternal_moves (s : State) : Moves ρ s (holdInternal s) := .mapEntries (fun p => by split <;> exact ⟨rfl, fun h => ⟨h, rfl⟩⟩)

theorem resumeInternal_moves (s : State) : Moves ρ s (resumeInternal s) :=
  .mapEntries (fun p => by split <;> exact ⟨rfl, fun h => ⟨h, rfl⟩⟩)

theorem prepare_moves (s : State) : Moves ρ s (prepare s) :=
  .ite .refl (.trans (.ite (holdInternal_moves ..) .refl) <| .trans (.ite (streamsHome_moves ..) .refl) <|
    .ite (parkBands_moves ..) .refl)

theorem chooseTarget_moves (s : State) : Moves .control s (chooseTarget s) :=
  .ite .refl (.trans .control <| .ite (pauseMember_moves ..) (.trans (.ite .refl (resumeInternal_moves ..)) <| resumeMember_moves ..))

theorem execPowerStateEntry_answers (s : State) :
    Answers .control s (execPowerStateEntry s) := .ite (.next .refl) (.next .control)

theorem loseBelow_moves (s : State) (t : Nat) : Moves .platform s (loseBelow s t) :=
  .trans (.ite (.trans (portsDown_moves ..) (loseGuild_moves ..)) .refl)
    (.trans (.ite (.compute (by rfl)) .refl) (.ite (.platformWith id id id id (fun _ => memoryOk_reset)) .refl))

theorem execPowerStateEntryComplete_answers (s : State) :
    Answers .platform s (execPowerStateEntryComplete s) :=
  .ite (.next .refl) (.next (.trans .platform <| .trans (loseBelow_moves ..) <| count_moves ..))

theorem execPs0Reached_answers (s : State) :
    Answers .control s (execPs0Reached s) :=
  .ite (.next .refl) (.next (.trans .control <| .trans (.ite .refl (count_moves ..)) <|
    .trans (.ite (.foldl (fun _ _ => settlePort_moves ..)) .refl) <| .trans (.ite .control .refl) <| .trans (resumeInternal_moves ..) <|
      resumeMember_moves ..))

theorem execApstIdleExpiry_answers (s : State) :
    Answers .control s (execApstIdleExpiry s) := by
  unfold execApstIdleExpiry
  dsimp only
  split
  · exact .next .refl
  · exact .ite (.next .refl) (.next .control)

theorem execMediaCareWake_answers (hoursLeft : Nat) (s : State) :
    Answers .control s (execMediaCareWake hoursLeft s) :=
  .ite (.next .refl) (.ite (.ite (.next .control) (.next .refl)) (.ite (.next .refl) (.ite (.ite (.next (.trans .control <|
    wakeEvent_moves ..)) (.next .refl)) (.ite (.next (.trans (raiseRecord_moves ..) <| .trans .control <|
      wakeEvent_moves ..)) (.next .refl)))))

theorem execThermalEvaluation_answers (readings : List Int) (drawn : Nat) (s : State) :
    Answers .control s (execThermalEvaluation readings drawn s) :=
  .ite (.next .refl) (.next (.trans (.ite (warnHost_moves ..) .control) <| .trans .control <|
    .trans (.ite (raiseRecord_moves ..) .refl) <| checkCaps_moves ..))

theorem execRear12vLost_answers (s : State) :
    Answers .control s (execRear12vLost s) :=
  .ite (.next .refl) (.next (.trans .control <| .trans (raiseRecord_moves ..) <| checkCaps_moves ..))

theorem execRear12vReturn_answers (s : State) :
    Answers .control s (execRear12vReturn s) := .ite (.next .refl) (.ite (.next .control) (.ite (.next .control) (.next .refl)))

end Sys2Proof.Machine
end

section
/-! ## Admin commands: how far the work reaches, and what it keeps -/

namespace Sys2Proof.Machine

variable {ρ : Reach}

theorem execAbort_answers (h : HostId) (targetSq targetCid : Nat) (s : State) :
    Answers ρ s (execAbort h targetSq targetCid s) := .next (serveAdmin_moves (fun _ _ => by
    split
    · exact finish_moves ..
    · exact .ite (.trans (finish_moves ..) <| finish_moves ..) (finish_moves ..)) ..)

theorem freePage_moves (s : State) (n : Nat) (fields : List (Nat × Bytes)) : Moves ρ s (freePage s n fields).2 := drawBytes_moves ..

theorem namespacePage_moves (s : State) (fields : List (Nat × Bytes)) : Moves ρ s (namespacePage s fields).2 := drawBytes_moves ..

theorem answerPage_moves (s : State) (i : Nat) (data : Bytes) : Moves ρ s (answerPage s i data) := finishData_moves ..

theorem execIdentify_answers (h : HostId) (cns : Nat) (s : State) :
    Answers ρ s (execIdentify h cns s) :=
  .next (serveAdmin_moves (fun _ _ => by
    refine .ite (finish_moves ..) (.ite ?_ (.ite (.trans (freePage_moves ..) <|
      answerPage_moves ..) (.ite (answerPage_moves ..) (.trans (freePage_moves ..) <| answerPage_moves ..))))
    split
    · exact .trans (namespacePage_moves ..) <| answerPage_moves ..
    · exact .ite (finish_moves ..) (.ite (.trans (namespacePage_moves ..) <| answerPage_moves ..) (answerPage_moves ..))) ..)

theorem execGetFeatures_answers (h : HostId) (fid : Nat) (s : State) :
    Answers ρ s (execGetFeatures h fid s) := .next (serveAdmin_moves (fun _ _ => by
    split
    · exact finish_moves ..
    · exact finish_moves ..
    · exact finish_moves ..
    · exact finish_moves ..
    · exact finishData_moves ..
    · exact finish_moves ..
    · exact finish_moves ..
    · exact finish_moves ..) ..)

theorem execSetFeaturesPowerManagement_answers (h : HostId) (ps wh : Nat) (s : State) :
    Answers .control s (execSetFeaturesPowerManagement h ps wh s) :=
  .next (serveAdmin_moves (fun _ _ => .ite (finish_moves ..) (.trans .control <| finish_moves ..)) ..)

theorem execSetFeaturesApst_answers (h : HostId) (enable : Bool) (table : List (Nat × Nat)) (s : State) :
    Answers .control s (execSetFeaturesApst h enable table s) :=
  .next (serveAdmin_moves (fun _ _ => .ite (finish_moves ..) (.trans .control <| finish_moves ..)) ..)

theorem execSetFeaturesNoppme_answers (h : HostId) (enable : Bool) (s : State) :
    Answers .control s (execSetFeaturesNoppme h enable s) := .next (serveAdmin_moves (fun _ _ => .trans .control <| finish_moves ..) ..)

theorem execSetFeaturesArbitration_answers (h : HostId) (burst low medium high : Nat) (s : State) :
    Answers ρ s (execSetFeaturesArbitration h burst low medium high s) :=
  .next (serveAdmin_moves (fun _ _ => .trans .working <| finish_moves ..) ..)

theorem execSetFeaturesFdp_answers (h : HostId) (enable : Bool) (s : State) :
    Answers ρ s (execSetFeaturesFdp h enable s) :=
  .next (serveAdmin_moves (fun _ _ => .ite (finish_moves ..) (.trans .working <| finish_moves ..)) ..)

theorem execAsynchronousEventRequest_answers (h : HostId) (s : State) :
    Answers ρ s (execAsynchronousEventRequest h s) :=
  .next (serveAdmin_moves (fun _ _ => .ite (finish_moves ..) (.trans (freeFamily_moves ..) <| .working)) ..)

theorem execCreateIoSq_answers (h : HostId) (qid size prio cqid : Nat) (contiguous : Bool) (s : State) :
    Answers ρ s (execCreateIoSq h qid size prio cqid contiguous s) :=
  .next (serveAdmin_moves (fun _ _ => .ite (finish_moves ..) (.ite (finish_moves ..) (.ite (finish_moves ..) (.ite (finish_moves ..)
    (.trans .working <| finish_moves ..))))) ..)

theorem execCreateIoCq_answers (h : HostId) (qid size vector : Nat) (ien contiguous : Bool) (s : State) :
    Answers ρ s (execCreateIoCq h qid size vector ien contiguous s) :=
  .next (serveAdmin_moves (fun _ _ => .ite (finish_moves ..) (.ite (finish_moves ..) (.ite (finish_moves ..) (.ite (finish_moves ..)
    (.trans .working <| finish_moves ..))))) ..)

theorem failThaw_moves (s : State) (t : Thaw) : Moves ρ s (failThaw s t) := by
  unfold failThaw
  split
  · exact finish_moves ..
  · exact .refl

theorem abortDeleted_moves (sq : Nat) (s : State) (c : Nat × Nat × Option Nat) : Moves ρ s (abortDeleted sq s c) := by
  unfold abortDeleted
  split
  · exact finish_moves ..
  · exact .trans (unwait_moves ..) <| queuePosting_moves ..

theorem execDeleteIoSq_answers (h : HostId) (qid : Nat) (s : State) :
    Answers ρ s (execDeleteIoSq h qid s) :=
  .next (serveAdmin_moves (fun _ _ => by
    split
    · exact finish_moves ..
    · exact .ite (finish_moves ..) (.trans (.foldl (fun _ _ => failThaw_moves ..)) <| .trans (sqMod_moves ..) <|
        .trans (.foldl (fun _ _ => abortDeleted_moves ..)) <| .trans (setState_moves ..) <| closeDeleted_moves ..)) ..)

theorem execDeleteIoCq_answers (h : HostId) (qid : Nat) (s : State) :
    Answers ρ s (execDeleteIoCq h qid s) :=
  .next (serveAdmin_moves (fun _ _ => .ite (finish_moves ..) (.ite (finish_moves ..) (.trans .working <| finish_moves ..))) ..)

theorem execQueueThaw_answers (h : HostId) (serial sqid : Nat) (discard : Bool) (s : State) :
    Answers ρ s (execQueueThaw h serial sqid discard s) := .next (serveVendorAdmin_moves (fun _ _ => by
    split
    · exact finish_moves ..
    · exact .ite (finish_moves ..) (.trans (sqMod_moves ..) <| setState_moves ..)) ..)

theorem execQueueQuiet_answers (sq : Nat) (s : State) :
    Answers ρ s (execQueueQuiet sq s) := by
  unfold execQueueQuiet
  split
  · exact .next .refl
  · exact .ite (.next .refl) (.next (enterQuiet_moves ..))

theorem popSlot_moves (s : State) (sq : Nat) : Moves ρ s (popSlot s sq) := .trans (sqMod_moves ..) <| count_moves ..

theorem discardOne_moves (sq : Nat) (s : State) (c : SqCmd) : Moves ρ s (discardOne sq s c) :=
  .trans (popSlot_moves ..) <| .trans (postOnly_moves ..) <| count_moves ..

theorem serveThaw_moves (sq : Nat) (s : State) (t : Thaw) : Moves ρ s (serveThaw sq s t) := by
  unfold serveThaw
  dsimp only
  split
  · exact .trans (.foldl (fun _ _ => discardOne_moves ..)) <| finish_moves ..
  · exact .foldl (fun _ _ => discardOne_moves ..)

theorem openQueue_moves (s : State) (sq : Nat) : Moves ρ s (openQueue s sq) := by
  unfold openQueue
  split
  · exact .refl
  · exact .ite .refl (.trans (sqMod_moves ..) <| .foldl (fun _ _ => serveThaw_moves ..))

theorem execQueueReopen_answers (sq : Nat) (s : State) :
    Answers ρ s (execQueueReopen sq s) := .next (openQueue_moves ..)

theorem execUnitReset_answers (h : HostId) (unit serial : Nat) (s : State) :
    Answers .platform s (execUnitReset h unit serial s) :=
  .next (serveQuietAdmin_moves (fun _ _ => .ite (finish_moves ..) (.ite (finish_moves ..) (.trans (.ite .refl (resetUnit_moves ..)) <|
    .trans (.up (unitMod_moves ..)) <| setState_moves ..))) ..)

theorem endUnitReset_moves (dw0 : Nat) (s : State) (w : Nat × Nat) : Moves ρ s (endUnitReset dw0 s w) := by
  unfold endUnitReset
  split
  · exact finish_moves ..
  · exact .refl

theorem execUnitIdle_answers (unit : Nat) (s : State) :
    Answers .control s (execUnitIdle unit s) :=
  .ite (.next .refl) (.next (.trans (unitMod_moves ..) <| .foldl (fun _ _ => endUnitReset_moves ..)))

theorem execSnapshotFetch_answers (h : HostId) (off len : Nat) (s : State) :
    Answers ρ s (execSnapshotFetch h off len s) := .next (serveVendorAdmin_moves (fun _ _ => by
    refine .ite (finish_moves ..) ?_
    split
    · exact finish_moves ..
    · exact .ite (finish_moves ..) (finishData_moves ..)) ..)

theorem missTickets_moves (s : State) (index : Nat) : Moves ρ s (missTickets s index) := .foldl (fun _ _ => endTicket_moves ..)

theorem execDeadlineEdge_answers (index : Nat) (s : State) :
    Answers .control s (execDeadlineEdge index s) := by
  unfold execDeadlineEdge
  split
  · exact .next .refl
  · refine .ite (.next .refl) ?_
    split
    · exact .next (.trans (finaliseSearch_moves ..) <| completeSearch_moves ..)
    · exact .next (.trans (missTickets_moves ..) <| finishStopping_moves ..)

theorem execChildWaitLimit_answers (tag : Nat) (s : State) :
    Answers ρ s (execChildWaitLimit tag s) := by
  unfold execChildWaitLimit
  split
  · exact .next .refl
  · split
    · exact .next .refl
    · exact .ite (.next .refl) (.next (.trans (failRequest_moves ..) <| count_moves ..))

theorem execUnitReply_answers (unit epoch index : Nat) (status : Status) (s : State) :
    Answers ρ s (execUnitReply unit epoch index status s) := by
  unfold execUnitReply
  refine .ite (.next .refl) (.ite (.next (count_moves ..)) ?_)
  split
  · exact .next .refl
  · exact .ite (.next .refl) (.ite (.next (.ite .refl (setState_moves ..))) (.next (failRequest_moves ..)))

end Sys2Proof.Machine
end

section
/-! ## Commands and jobs of the ledger: how far the work reaches, and what it keeps -/

namespace Sys2Proof.Machine

variable {ρ : Reach}

theorem execNvmRead_answers (h : HostId) (slbaLow slbaHigh nlb : Nat) (s : State) :
    Answers ρ s (execNvmRead h slbaLow slbaHigh nlb s) := .next (serveIo_moves (fun _ _ => by
    split
    · exact finish_moves ..
    · exact .refl
    · exact .ite (finish_moves ..) (.trans (toLedger_moves ..) <| readUnits_moves ..)) ..)

theorem hostReadDone_moves (s : State) (j : ReadJob) : Moves ρ s (hostReadDone s j) := .trans (dropRead_moves ..) <| finishData_moves ..

theorem execNvmWrite_answers (h : HostId) (slba nlb : Nat) (pid : Option Nat) (data : List Nat) (s : State) :
    Answers ρ s (execNvmWrite h slba nlb pid data s) :=
  .next (meetIo_moves (fun _ _ => by
    refine .ite (stageAll_moves ..) ?_
    split
    · exact finish_moves ..
    · exact .refl
    · exact .ite (finish_moves ..) (.ite (finish_moves ..) (.ite (finish_moves ..) (.trans (toLedger_moves ..) <|
        startWrite_moves ..)))) ..)

theorem execWriteComplete_answers (h : HostId) (s : State) :
    Answers ρ s (execWriteComplete h s) := by
  unfold execWriteComplete
  refine .ite (.next .refl) ?_
  split
  · exact .next .refl
  · exact .ite (.next .refl) (.next (.trans (dropJob_moves ..) <| finish_moves ..))

theorem execFlush_answers (h : HostId) (s : State) :
    Answers ρ s (execFlush h s) := .next (serveIo_moves (fun _ _ => .ite (finish_moves ..) (finish_moves ..)) ..)

theorem execDatasetManagement_answers (h : HostId) (deallocate : Bool) (ranges : List (Nat × Nat)) (s : State) :
    Answers ρ s (execDatasetManagement h deallocate ranges s) :=
  .next (serveIo_moves (fun _ _ => by
    split
    · exact finish_moves ..
    · exact .ite (finish_moves ..) (.ite (finish_moves ..) (.ite (finish_moves ..) (.trans (.foldl (fun _ _ => unmapIu_moves ..)) <|
        finish_moves ..)))) ..)

theorem execProgramComplete_answers (die : Nat) (ok : Bool) (s : State) :
    Answers .control s (execProgramComplete die ok s) := by
  unfold execProgramComplete
  dsimp only
  refine .ite (.next .refl) ?_
  split
  · exact .ite (.next (.trans (freeFamily_moves ..) <| .trans (dieMod_moves ..) <| .trans (taskEnds_moves ..) <|
      .trans (landProgram_moves ..) <| .trans (lineDone_moves ..) <| .trans (noteMoved_moves ..) <| .trans (noteSlots_moves ..) <|
        .trans (answerSealed_moves ..) <| verbEnds_moves ..)) (.next (.trans (freeFamily_moves ..) <| .trans (dieMod_moves ..) <|
          .trans (taskEnds_moves ..) <| .trans (programFailed_moves ..) <| .trans (noteSlots_moves ..) <| verbEnds_moves ..))
  · exact .next .refl

theorem execEraseComplete_answers (die : Nat) (ok : Bool) (s : State) :
    Answers ρ s (execEraseComplete die ok s) := by
  unfold execEraseComplete
  dsimp only
  refine .ite (.next .refl) ?_
  split
  · exact .next .refl
  · exact .next (.trans (endDieJob_moves ..) <| .trans (dieMod_moves ..) <| .trans (.ite .refl (verbFailed_moves ..)) <|
      .trans (blockErased_moves ..) <| .trans (noteSlots_moves ..) <| verbEnds_moves ..)

theorem readerFails_moves (s : State) (l : Ladder) : Moves ρ s (readerFails s l) :=
  .trans (ladderDel_moves ..) <| .trans (loseCw_moves ..) <| endReader_moves ..

/-- The LBAs of a lost row are poisoned, and where there are any the drive says so. -/
theorem poisonFound_moves (s : State) (a : FlashAddr) (row : List FlashAddr) : Moves ρ s (
    let p := poisonRow s row
    let s := p.2
    if p.1 = [] then s else
    let first := p.1.headD (0, 0)
    let s := raiseRecord s (poisonRecord a p.1)
    let s := { warnHost s 2 0 with
      ledger := { s.ledger with poisonNsid := first.1, poisonLba := first.2, poisonBell := s.bell.count } }
    raiseEvent s 3) := by
  have recorded := raiseRecord_moves (ρ := ρ) (poisonRow s row).2 (poisonRecord a (poisonRow s row).1)
  refine .trans (poisonRow_moves s row) (.ite .refl (recorded.trans (.trans (warnHost_moves _ 2 0) (.trans ?_ (raiseEvent_moves ..)))))
  exact .working

theorem execDecodeFail_answers (unit : Nat) (a : FlashAddr) (s : State) : Answers ρ s (execDecodeFail unit a s) := by
  unfold execDecodeFail
  dsimp only
  split
  · exact .next .refl
  · exact .next (.trans (poisonFound_moves s a _) (.foldl fun _ _ => readerFails_moves ..))

theorem execGatherTimeout_answers (die : Nat) (s : State) :
    Answers ρ s (execGatherTimeout die s) := by
  unfold execGatherTimeout
  refine .ite (.next .refl) ?_
  split
  · exact .next .refl
  · refine .ite (.next .refl) ?_
    split
    · exact .next .refl
    · exact .next (gateProgram_moves ..)

theorem startCare_moves (s : State) (job k : Nat) : Moves ρ s (startCare s job k) := .trans .working <| await_moves _ _ (by nofun)

theorem adoptCare_moves (s : State) (i job k : Nat) : Moves ρ s (adoptCare s i job k) :=
  .ite (.trans .working <| setState_moves ..) (freeFamily_moves ..)

theorem eraseBand_moves (s : State) (k : Nat) : Moves ρ s (eraseBand s k) :=
  .ite .refl (.trans (bandMod_moves ..) <| .trans .working <| .foldl (fun _ _ => .ite (gateErase_moves ..) .refl))

theorem readForCopy_moves (s : State) (i k : Nat) : Moves ρ s (readForCopy s i k) := .ite .refl (.ite .refl (addJob_moves ..))

theorem copyReadDone_moves (s : State) (k : Nat) (j : ReadJob) : Moves ρ s (copyReadDone s k j) :=
  .trans (dropRead_moves ..) <| .foldl (fun _ _ => .ite .working (count_moves ..))

theorem copyLine_moves (s : State) (k pos : Nat) : Moves ρ s (copyLine s k pos) :=
  .ite .refl (.ite (.ite (gateProgram_moves ..) .refl) (.ite .refl (gateProgram_moves ..)))

theorem copyTo_moves (s : State) (rg die block : Nat) : Moves ρ s (copyTo s rg die block) := by
  unfold copyTo
  dsimp only
  refine .ite .refl ?_
  split
  · exact .ite .refl (.trans (.ite (bandMod_moves ..) .refl) <| copyLine_moves ..)
  · exact .ite (.trans (bandMod_moves ..) <| copyLine_moves ..) .refl

theorem execReclaimJob_answers (rg job : Nat) (dst : DieBlock) (s : State) :
    Answers ρ s (execReclaimJob rg job dst s) := by
  unfold execReclaimJob
  dsimp only
  refine .ite (.next .refl) ?_
  split
  · split
    · exact .next (startCare_moves ..)
    · exact .next .refl
  · split
    · exact .next .refl
    · exact .next (.trans (.ite (eraseBand_moves ..) (readForCopy_moves ..)) <| copyTo_moves ..)

theorem execWearLevelJob_answers (rg : Nat) (s : State) :
    Answers ρ s (execWearLevelJob rg s) := by
  unfold execWearLevelJob
  dsimp only
  refine .ite (.next .refl) (.ite (.next (wearCheck_moves ..)) ?_)
  split
  · exact .next (wearCheck_moves ..)
  · exact .next (.trans (wearCheck_moves ..) <| bandMod_moves ..)

theorem execScrubPass_answers (stripe block : Nat) (s : State) :
    Answers ρ s (execScrubPass stripe block s) := .ite (.next .refl) (.next (startCare_moves ..))

theorem startScrub_moves (s : State) (i k : Nat) : Moves ρ s (startScrub s i k) := addJob_moves ..

theorem scrubDone_moves (s : State) (k : Nat) (j : ReadJob) : Moves ρ s (scrubDone s k j) :=
  .trans (dropRead_moves ..) <| .trans (count_moves ..) <| .trans .working <| .trans (freeFamily_moves ..) <| .ite .working .working

theorem askOnce_moves (s : State) (job tag cls : Nat) : Moves ρ s (askOnce s job tag cls) := .ite .refl (await_moves _ _ (by nofun))

theorem execCheckpointSegment_answers (segment : Nat) (s : State) :
    Answers ρ s (execCheckpointSegment segment s) := by
  unfold execCheckpointSegment
  refine .ite (.next .refl) ?_
  split
  · exact .next (askOnce_moves ..)
  · exact .next (.trans (checkpointSegment_moves ..) <| freeFamily_moves ..)

theorem journalNext_moves (s : State) : Moves ρ s (journalNext s) := by
  unfold journalNext
  dsimp only
  refine .ite .refl ?_
  split
  · exact .trans (freeFamily_moves ..) <| gateProgram_moves ..
  · exact .refl
  · exact askOnce_moves ..

theorem boundJournal_moves (s : State) : Moves ρ s (boundJournal s) := by
  unfold boundJournal
  refine .ite ?_ .refl
  split
  · exact checkpointSegment_moves ..
  · exact .refl

theorem ledgerTick_moves (s : State) : Moves ρ s (ledgerTick s) :=
  .trans (fillBands_moves ..) <| .trans (journalNext_moves ..) <| .trans (boundJournal_moves ..) <| noteSlots_moves ..

theorem execNamespaceCreate_answers (h : HostId) (nsze ncap lbaf : Nat) (s : State) :
    Answers .control s (execNamespaceCreate h nsze ncap lbaf s) := by
  refine .next (serveAdmin_moves (fun s i => .ite (finish_moves ..) (.ite (finish_moves ..) ?_)) ..)
  cases takeExtents s (nsze * lbaSize lbaf / 16384) <;> cases (List.range 64).find? (fun n => (nsOf s (n + 1)).isNone)
  case some.some xs n =>
    refine .trans (.foldl (f := unmapExtent) (l := xs) unmapExtent_moves)
      (.trans (newKey_moves _ (n + 1)) (.trans ?_ (finish_moves ..)))
    exact .working
  all_goals exact finish_moves ..

theorem execNamespaceDelete_answers (h : HostId) (s : State) :
    Answers ρ s (execNamespaceDelete h s) :=
  .next (serveAdmin_moves (fun _ _ => .ite (finish_moves ..) (.ite (finish_moves ..) (.trans (.foldl (fun _ _ => .trans
    (endWrites_moves ..) <| .trans (releaseBound_moves ..) <| .trans (.foldl (fun _ _ => unmapExtent_moves ..)) <| .working)) <|
      finish_moves ..))) ..)

theorem execFormatNvm_answers (h : HostId) (lbaf ses : Nat) (s : State) :
    Answers .control s (execFormatNvm h lbaf ses s) :=
  .next (serveAdmin_moves (fun _ _ => .ite (finish_moves ..) (.ite (finish_moves ..) (.ite (finish_moves ..) (.ite (finish_moves ..)
    (.ite (finish_moves ..) (.trans (.foldl (fun _ _ => wipeNs_moves ..)) <| finish_moves ..)))))) ..)

theorem sanitize_moves (s : State) (i kind : Nat) : Moves .control s (sanitize s i kind) :=
  .ite (finish_moves ..) (.ite (finish_moves ..) (.trans (sanitizeSteps_moves ..) <| .control))

theorem execSanitizeCryptoErase_answers (h : HostId) (s : State) :
    Answers .control s (execSanitizeCryptoErase h s) := .next (serveAdmin_moves (fun _ _ => sanitize_moves ..) ..)

theorem execSanitizeBlockErase_answers (h : HostId) (s : State) :
    Answers .control s (execSanitizeBlockErase h s) := .next (serveAdmin_moves (fun _ _ => sanitize_moves ..) ..)

theorem closePair_moves (s : State) (pid : Nat) : Moves ρ s (closePair s pid) := by
  unfold closePair
  dsimp only
  split
  · exact .refl
  · exact .trans (.ite (fdpEvent_moves ..) .refl) <| padBand_moves ..

theorem execIoManagementSend_answers (h : HostId) (pids : List Nat) (s : State) :
    Answers ρ s (execIoManagementSend h pids s) :=
  .next (serveIo_moves (fun _ _ => .ite (finish_moves ..) (.ite (finish_moves ..) (.ite (finish_moves ..) (.trans (.foldl
    (fun _ _ => closePair_moves ..)) <| finish_moves ..)))) ..)

theorem execIoManagementReceive_answers (h : HostId) (s : State) :
    Answers ρ s (execIoManagementReceive h s) := .next (serveIo_moves (fun _ _ => by
    split
    · exact finish_moves ..
    · exact .ite (finish_moves ..) (finishData_moves ..)) ..)

end Sys2Proof.Machine
end

section
/-! ## The planner over the dies: how far the work reaches, and what it keeps -/

namespace Sys2Proof.Machine

variable {ρ : Reach}

theorem readyDie_moves (s : State) (cls entry die : Nat) : Moves ρ s (readyDie s cls entry die) := by
  unfold readyDie
  dsimp only
  split
  · exact .ite (cancelRead_moves ..) .refl
  · refine .ite ?_ .refl
    refine .trans ?_ <| dieMod_moves ..
    split
    · exact .ite .refl (replan_moves ..)
    · exact .refl

theorem readyRow_moves (s : State) (l : Ladder) : Moves ρ s (readyRow s l) :=
  .trans (.ite (readyDie_moves ..) .refl) <| .ite (.foldl (fun _ _ => readyDie_moves ..)) .refl

theorem prepareLadder_moves (s : State) (l : Ladder) : Moves ρ s (prepareLadder s l) :=
  .ite (.ite (readyRow_moves ..) (.ite (startRebuild_moves ..) (.ite (failRequest_moves ..) (.ite .refl
    (noteUrgentOverrun_moves ..))))) .refl

theorem askPage_moves (s : State) (use : ReadUse) (entry loc : Nat) : Moves ρ s (askPage s use entry loc) := await_moves _ _ (by nofun)

/-- One page of a read is asked for, or stays. -/
def askedPage (j : ReadJob) (q : List Nat × List Nat × State) (loc : Nat) : List Nat × List Nat × State :=
  if pageDue q.2.2 j.entry loc && (!q.1.contains (loc / 2 ^ 26) || urgentEntry q.2.2 j.entry) then
    (loc / 2 ^ 26 :: q.1, q.2.1, askPage q.2.2 j.use j.entry loc)
  else (q.1, q.2.1 ++ [loc], q.2.2)

theorem askedPages_moves (j : ReadJob) (pages : List Nat) (q : List Nat × List Nat × State) :
    Moves ρ q.2.2 (pages.foldl (askedPage j) q).2.2 := by
  induction pages generalizing q with
  | nil => exact .refl
  | cons loc pages ih =>
    refine .trans ?_ (ih _)
    unfold askedPage
    split
    · exact askPage_moves ..
    · exact .refl

theorem askJob_moves (p : List Nat × State) (j : ReadJob) : Moves ρ p.2 (askJob p j).2 :=
  .trans (askedPages_moves j j.pages (p.1, [], p.2)) .working

theorem askJobs_moves (jobs : List ReadJob) (p : List Nat × State) : Moves ρ p.2 (jobs.foldl askJob p).2 := by
  induction jobs generalizing p with
  | nil => exact .refl
  | cons j jobs ih => exact (askJob_moves p j).trans (ih _)

theorem prepareReads_moves (s : State) : Moves ρ s (prepareReads s) :=
  .trans (.foldl fun _ _ => prepareLadder_moves ..) (askJobs_moves _ ([], _))

theorem startReads_moves (s : State) (i : Nat) : Moves .control s (startReads s i) := .foldl (fun _ _ => by
    refine .ite ?_ .refl
    split
    · exact withBudget_moves (fun _ => startLadder_moves ..) ..
    · exact .refl)

theorem startOperation_moves (s : State) (i : Nat) : Moves .control s (startOperation s i) := by
  unfold startOperation
  dsimp only
  split
  · exact .refl
  · exact .ite (withBudget_moves (fun _ => startPending_moves ..) ..) .refl

theorem placeFlash_moves (s : State) (i : Nat) : Moves .control s (placeFlash s i) :=
  .trans (startOperation_moves ..) <| startReads_moves ..

theorem crossPages_moves (n : Nat) (s : State) (d : Nat) : Moves ρ s (crossPages n s d) := dieMod_moves ..

theorem channelStep_moves (s : State) (c : Nat) : Moves ρ s (channelStep s c) := by
  unfold channelStep
  dsimp only
  refine .ite .refl ?_
  refine .trans ?_ <| .foldl (fun _ _ => crossPages_moves ..)
  split
  · exact .trans (drawFree_moves ..) <| .ite (dieMod_moves ..) .refl
  · exact drawFree_moves ..

theorem channelTick_moves (s : State) : Moves ρ s (channelTick s) := .foldl (fun _ _ => channelStep_moves ..)

theorem planDie_moves (s : State) (d : Nat) : Moves ρ s (planDie s d) := by
  unfold planDie
  dsimp only
  refine .ite .refl ?_
  split
  · exact .trans (dieMod_moves ..) <| replan_moves ..
  · split
    · exact .refl
    · exact .ite (.trans (dieMod_moves ..) <| replan_moves ..) (.trans (askPage_moves ..) <| .trans .working <|
        .trans (dieMod_moves ..) <| replan_moves ..)

theorem planDies_moves (s : State) : Moves ρ s (planDies s) := .foldl (fun _ _ => planDie_moves ..)

theorem dropDiePlans_moves (s : State) : Moves ρ s (dropDiePlans s) := .foldl (fun _ _ => by
    split
    · exact .trans (dieMod_moves ..) <| replan_moves ..
    · exact .refl)

theorem dieEdge_moves (s : State) (die : Nat) : Moves .control s (dieEdge s die) := by
  unfold dieEdge
  dsimp only
  refine .trans ?_ <| dieMod_moves ..
  split
  · refine .trans ?_ <| .ite .refl (.trans (.ite (defer_moves ..) .refl) <| replan_moves ..)
    split
    · exact replan_moves ..
    · exact .refl
  · split
    · exact replan_moves ..
    · exact .refl

theorem diesTick_moves (s : State) : Moves .control s (diesTick s) :=
  .trans (.foldl (fun _ _ => dieEdge_moves ..)) <| .ite (.foldl (fun _ _ => resumeErase_moves ..)) .refl

theorem lockOne_moves (s : State) (d : Nat) : Moves ρ s (lockOne s d) := .ite (gateLock_moves ..) .refl

theorem eraseLocks_moves (s : State) : Moves ρ s (eraseLocks s) :=
  .trans (.foldl (fun _ _ => resumeErase_moves ..)) <| .foldl (fun _ _ => lockOne_moves ..)

end Sys2Proof.Machine
end

section
/-! ## Admission and fetch: how far the work reaches, and what it keeps -/

namespace Sys2Proof.Machine

variable {ρ : Reach}

theorem adoptJob_moves (s : State) (i job tag : Nat) : Moves ρ s (adoptJob s i job tag) := by
  unfold adoptJob
  split
  · exact adoptCare_moves ..
  · exact adoptCare_moves ..
  · exact .trans (adoptCare_moves ..) <| startScrub_moves ..
  · exact adoptCare_moves ..
  · exact adoptSibling_moves ..
  · exact entryMod_moves _ _ _ (by exact fun _ h => ⟨h, rfl⟩)
  · exact adoptStep_moves ..
  · exact adoptStep_moves ..
  · exact adoptPage_moves ..
  · exact adoptLoad_moves ..
  · exact adoptPage_moves ..
  · exact .refl

theorem adopt_moves (s : State) (i : Nat) (r : Request) : Moves ρ s (adopt s i r) := by
  unfold adopt
  split
  · exact .ite (setState_moves ..) .refl
  · refine .ite (adoptArrived_moves ..) ?_
    split
    · exact .trans (origMod_moves ..) <| launch_moves ..
    · exact freeFamily_moves ..
  · exact adoptContext_moves ..
  · exact adoptChunk_moves ..
  · exact adoptJob_moves ..

theorem refuse_moves (s : State) (r : Request) : Moves ρ s (refuse s r) := by
  unfold refuse
  dsimp only
  split
  · exact .ite (.trans .unwaitOne (dropArrived_moves ..)) .refused
  · exact .trans .refused (count_moves ..)
  · exact .refused

/-- A request that is admitted stood in the line, so that one of the host is a root. -/
theorem considerOne_moves (s : State) (r : Request) : Moves ρ s (considerOne s r) := by
  unfold considerOne
  split
  · exact .refl
  · next waits =>
    refine .ite ?_ (refuse_moves ..)
    have here : r ∈ s.tally.waiting := by simpa using waits
    have left : Moves ρ s { s with tally := { s.tally with waiting := s.tally.waiting.erase r } } := .unwaitOne
    refine .trans (.given (left.only.trans ((admitEntry_only _ r).withinReach (by decide))) (fun h => ?_)) (adopt_moves ..)
    · obtain ⟨-, -, -, ⟨-, -, waiting⟩, -⟩ := h
      exact left.trans (admitEntry_moves _ r (waiting r here))

theorem admitWaiting_moves (s : State) : Moves ρ s (admitWaiting s) := .foldl (fun _ _ => considerOne_moves ..)

theorem fetchOne_moves (s : State) (sq : Nat) (c : SqCmd) : Moves ρ s (fetchOne s sq c) :=
  .trans (await_moves s (hostRequest s sq c.cid c.fam c.ord c.deadline) (fun _ => rfl)) (.trans .working (popSlot_moves ..))

theorem fetchTurn_moves (n sq : Nat) (s : State) : Moves ρ s (fetchTurn n sq s).2 := by
  induction n generalizing s with
  | zero => exact .refl
  | succ n ih =>
    unfold fetchTurn
    split
    · exact (fetchOne_moves ..).trans (ih _)
    · exact .refl

theorem fetchRound_moves (round : Nat) (qs : List Nat) (fuel n : Nat) (s : State) : Moves ρ s (fetchRound round qs fuel n s).2 := by
  induction fuel generalizing n s with
  | zero => exact .refl
  | succ fuel ih =>
    unfold fetchRound
    split
    · exact .refl
    · split
      · exact .refl
      · exact .trans .working ((fetchTurn_moves ..).trans (ih _ _))

theorem fetchWeight_moves (round weight : Nat) (qs : List Nat) (n : Nat) (s : State) : Moves ρ s (fetchWeight round weight qs n s).2 :=
  fetchRound_moves ..

theorem fetchWeighted_moves (high med low : List Nat) (fuel n : Nat) (s : State) :
    Moves ρ s (fetchWeighted high med low fuel n s).2 := by
  induction fuel generalizing n s with
  | zero => exact .refl
  | succ fuel ih =>
    have round (n : Nat) (s : State) := fetchWeight_moves (ρ := ρ) 1 s.host.wHigh high n s
    unfold fetchWeighted
    dsimp only
    split
    · exact (round _ _).trans ((fetchWeight_moves ..).trans (fetchWeight_moves ..))
    · exact (round _ _).trans ((fetchWeight_moves ..).trans ((fetchWeight_moves ..).trans (ih _ _)))

theorem fetchCommands_moves (s : State) : Moves ρ s (fetchCommands s) :=
  (fetchTurn_moves ..).trans (.ite ((fetchRound_moves ..).trans (fetchWeighted_moves ..)) (fetchRound_moves ..))

end Sys2Proof.Machine
end

section
/-! ## The Milny station: how far the work reaches, and what it keeps -/

namespace Sys2Proof.Machine

variable {ρ : Reach}

theorem frameIn_moves (s : State) : Moves ρ s (frameIn s) := count_moves ..

theorem sendMilny_moves (s : State) (ty : Nat) (payload : Bytes) : Moves ρ s (sendMilny s ty payload) := emit_moves ..

theorem setLocate_moves (s : State) (v : Nat) : Moves .platform s (setLocate s v) := .ite .refl (.trans .platform <| emit_moves ..)

theorem applyImage_moves (s : State) (cycle : Nat) (image : Bytes) : Moves .platform s (applyImage s cycle image) :=
  .trans (.platformWith id id (by exact id) id (by exact id)) <| .trans (setLocate_moves ..) <| .ite (freezeNow_moves ..) .refl

theorem noteConflict_moves (s : State) : Moves .control s (noteConflict s) := .trans .control <| raiseRecord_moves ..

theorem execCycOut_answers (dst src cycle period : Nat) (image : Bytes) (s : State) :
    Answers .platform s (execCycOut dst src cycle period image s) :=
  .ite (.next .refl) (.next (.trans (frameIn_moves ..) <| .trans (.ite (.up (noteConflict_moves ..)) .refl) <|
    .trans (.ite (.trans .platform <| count_moves ..) (.trans .platform <| applyImage_moves ..)) <| .trans .platform <|
      sendMilny_moves ..))

theorem execDiscover_answers (round slots : Nat) (all : Bool) (s : State) :
    Answers ρ s (execDiscover round slots all s) :=
  .ite (.next .refl) (.ite (.next (frameIn_moves ..)) (.next (.trans (frameIn_moves ..) <| emit_moves ..)))

theorem execAssignOp_answers (serial : Nat) (address : Nat) (setTerm term : Bool) (s : State) :
    Answers .control s (execAssignOp serial address setTerm term s) :=
  .ite (.next .refl) (.ite (.next (frameIn_moves ..)) (.next (.trans (frameIn_moves ..) <| .trans .control <| sendMilny_moves ..)))

theorem execAcyOdRead_answers (r : AcyReq) (s : State) :
    Answers .control s (execAcyOdRead r s) := .next (acyServe_moves ..)

theorem execAcyOdWrite_answers (r : AcyReq) (s : State) :
    Answers .control s (execAcyOdWrite r s) := .next (acyServe_moves ..)

theorem execAcyPenTake_answers (r : AcyReq) (s : State) :
    Answers .control s (execAcyPenTake r s) := .next (acyServe_moves ..)

theorem execAcyPenGive_answers (r : AcyReq) (s : State) :
    Answers .control s (execAcyPenGive r s) := .next (acyServe_moves ..)

theorem execAcySnapshotRead_answers (r : AcyReq) (s : State) :
    Answers .control s (execAcySnapshotRead r s) := .next (acyServe_moves ..)

theorem execAcyPoll_answers (token : Nat) (s : State) :
    Answers .control s (execAcyPoll token s) := by
  unfold execAcyPoll
  dsimp only
  refine .ite (.next .refl) ?_
  split
  · exact .ite (.next (.trans (frameIn_moves ..) <| replyHeld_moves ..)) (.next (.trans (frameIn_moves ..) <| sendAcy_moves ..))
  · exact .next (.trans (frameIn_moves ..) <| sendAcy_moves ..)

theorem expire_moves (s : State) : Moves .platform s (expire s) :=
  .trans (.ite (count_moves ..) .refl) <| .trans (.platformWith id id (by exact id) id (by exact id)) <| .trans (setLocate_moves ..) <|
    .trans (.ite (.trans (raiseRecord_moves ..) <| .up (releasePen_moves ..)) .refl) <| raiseRecord_moves ..

theorem expiryTick_moves (s : State) : Moves .platform s (expiryTick s) := .ite (expire_moves ..) .refl

theorem execMilnyWatchdogExpiry_answers (s : State) :
    Answers .platform s (execMilnyWatchdogExpiry s) :=
  .ite (.next .refl) (.next (.trans .platform <| .trans (count_moves ..) <| .ite (expire_moves ..) .platform))

theorem execInvalidMilnyFrame_answers (frame : Bytes) (s : State) :
    Answers ρ s (execInvalidMilnyFrame frame s) := .ite (.next .refl) (.next (count_moves ..))

theorem execOwnAddressFrame_answers (ftype src : Nat) (s : State) :
    Answers .control s (execOwnAddressFrame ftype src s) := .ite (.next .refl) (.next (noteConflict_moves ..))

end Sys2Proof.Machine
end

section
/-! ## Firmware images: how far the work reaches, and what it keeps -/

namespace Sys2Proof.Machine

variable {ρ : Reach}

theorem startSlotWrite_moves (s : State) (i k : Nat) (img : Image) (pend : Bool) : Moves .platform s (startSlotWrite s i k img pend) :=
  .trans .platform <| setState_moves ..

theorem endSlotWrite_moves (s : State) (w : SlotWrite) (rest : List SlotWrite) : Moves .platform s (endSlotWrite s w rest) := by
  unfold endSlotWrite
  dsimp only
  split
  · exact .trans .platform <| finish_moves ..
  · exact .platform

theorem raiseFloors_moves (s : State) (security : List Nat) : Moves .platform s (raiseFloors s security) := .platform

theorem emptyCache_moves (s : State) : Moves ρ s (emptyCache s) := .compute (by rfl)

theorem switchTo_moves (s : State) (k : Nat) : Moves .platform s (switchTo s k) := by
  unfold switchTo
  dsimp only
  split
  · exact .refl
  · exact .trans (raiseFloors_moves ..) <| .trans .platform <| .trans (.ite .refl (emptyCache_moves ..)) <|
      .ite (await_moves _ _ (by nofun)) .refl

theorem endCopy_moves (s : State) : Moves .platform s (endCopy s) := by
  unfold endCopy
  dsimp only
  split
  · exact .refl
  · exact .trans .platform <| .foldl (fun _ _ => freeFamily_moves ..)

theorem holdEntries_moves (s : State) : Moves ρ s (holdEntries s) := .mapEntries (fun p => by split <;> exact ⟨rfl, fun h => ⟨h, rfl⟩⟩)

theorem resumeEntries_moves (s : State) : Moves ρ s (resumeEntries s) :=
  .mapEntries (fun p => by split <;> exact ⟨rfl, fun h => ⟨h, rfl⟩⟩)

theorem shelveAll_moves (s : State) : Moves ρ s (shelveAll s) :=
  .foldl (fun _ _ => .ite .refl (.ite (contextMod_moves ..) (shelve_moves ..)))

theorem suspendErases_moves (s : State) : Moves ρ s (suspendErases s) := .working

theorem announcePause_moves (s : State) (resume : Nat) : Moves ρ s (announcePause s resume) :=
  .ite (.trans .working <| flood_moves ..) .refl

theorem controllerLevel_moves (s : State) (kind : Nat) : Moves .platform s (controllerLevel s kind) :=
  .trans (controllerReset_moves ..) <| .trans (.up (wakeEvent_moves ..)) <| .ite .refl .platform

end Sys2Proof.Machine
end

section
/-! ## The chime boundary: how far the work reaches, and what it keeps -/

namespace Sys2Proof.Machine

variable {ρ : Reach}

theorem thawQueues_moves (s : State) : Moves ρ s (thawQueues s) := .trans .working <| .foldl (fun _ _ => openQueue_moves ..)

theorem amendOne_moves (start : Nat) (s : State) (w : LoomWork) : Moves .control s (amendOne start s w) := by
  refine .ite .refl ?_
  split
  · exact .refl
  · next t ht => exact .ite ((amendLoom_moves ht).trans (charge_moves ..)) (defer_moves ..)

theorem amendLooms_moves (start : Nat) (ws : List LoomWork) (s : State) : Moves .control s (amendLooms start ws s) :=
  .foldl (fun _ _ => amendOne_moves ..)

theorem planOne_moves (s : State) (w : LoomWork) : Moves ρ s (planOne s w) := by
  refine .ite ?_ .refl
  cases h : planLoom s w with
  | none => exact .refl
  | some t => exact planLoom_moves h

theorem fixPlan_moves (s : State) : Moves ρ s (fixPlan s) :=
  .ite .refl (.trans (.foldl (fun _ _ => planOne_moves ..)) <| planDies_moves ..)

theorem resumeJob_moves (s : State) (j : ReadJob) : Moves ρ s (resumeJob s j) := by
  unfold resumeJob
  refine .ite .refl ?_
  split
  · exact hostReadDone_moves ..
  · exact stagedDone_moves ..
  · exact getDone_moves ..
  · exact loadDone_moves ..
  · exact mountDone_moves ..
  · exact contextRead_moves ..
  · exact .refl
  · exact copyReadDone_moves ..
  · exact scrubDone_moves ..

theorem resumeJobs_moves (s : State) : Moves ρ s (resumeJobs s) := .foldl (fun _ _ => resumeJob_moves ..)

theorem gangsChime_moves (s : State) : Moves ρ s (gangsChime s) := .compute (by rfl)

theorem sanitizeTick_moves (s : State) : Moves .control s (sanitizeTick s) := by
  unfold sanitizeTick
  dsimp only
  refine .ite .refl (.ite (drawFree_moves ..) ?_)
  split
  · exact .trans (drawFree_moves ..) <| .trans .control <| finish_moves ..
  · exact .trans (drawFree_moves ..) <| .control

theorem slotWriteTick_moves (s : State) : Moves .platform s (slotWriteTick s) := by
  unfold slotWriteTick
  split
  · exact .refl
  · exact .ite .refl (.trans (drawFree_moves ..) <| .ite .refl (endSlotWrite_moves ..))

theorem sampleAll_moves (s : State) : Moves .platform s (sampleAll s) := .platform

theorem endsDue_moves (s : State) : Moves .platform s (endsDue s) :=
  .trans (portsChime_moves ..) <| .trans (thawQueues_moves ..) <| .trans (expiryTick_moves ..) <| .trans (settleLost_moves ..) <|
    .trans (stopWork_moves ..) <| .trans (parkTick_moves ..) <| .trans (endLoads_moves ..) <| .trans (commitEnded_moves ..) <|
      postAll_moves ..

theorem startsDue_moves (s : State) : Moves .control s (startsDue s) := by
  have looms (t : State) : Moves .control t (amendLooms (chimeNow t - 1) (freshDirects t) (channelTick t)) :=
    .trans (channelTick_moves ..) (amendLooms_moves ..)
  have searches (t : State) : Moves .control t (startSearches (prepareReads (loomsDue t))) :=
    .trans (loomsDue_moves ..) (.trans (prepareReads_moves ..) (startSearches_moves ..))
  unfold startsDue
  dsimp only
  refine .trans ?_ (placeContexts_moves ..)
  refine .trans ?_ (.foldl fun _ _ => placeFlash_moves ..)
  refine .trans ?_ (admitWaiting_moves ..)
  exact .trans (looms s) (searches _)

theorem holdWork_moves (s : State) : Moves ρ s (holdWork s) :=
  .trans (dropPlaced_moves ..) <| .trans (dropDiePlans_moves ..) <| .trans (channelTick_moves ..) <| .trans (admitWaiting_moves ..) <|
    .ite .refl (.trans (gangsChime_moves ..) <| resumeJobs_moves ..)

theorem amendPlan_moves (s : State) : Moves .control s (amendPlan s) :=
  .trans (retryTickets_moves ..) <| .trans (.ite .refl (amendLooms_moves ..)) <| fixPlan_moves ..

theorem mediaWork_moves (s : State) : Moves ρ s (mediaWork s) :=
  .trans (eraseLocks_moves ..) <| .trans (stageAll_moves ..) <| ledgerTick_moves ..

theorem serviceWork_moves (s : State) : Moves .control s (serviceWork s) :=
  .trans (storeRecords_moves ..) <| .trans (fetchCommands_moves ..) <| .trans (answersReady_moves ..) <| .trans (serveQueue_moves ..) <|
    rejectUnlisted_moves ..

theorem chimeWork_moves (s : State) : Moves .platform s (chimeWork s) :=
  .trans (endsDue_moves ..) <| .trans (.ite (.trans (holdWork_moves ..) <| .up (serviceWork_moves ..)) (.trans (gangsChime_moves ..) <|
    .trans (.up (startsDue_moves ..)) <| .trans (resumeJobs_moves ..) <| .trans (.up (serviceWork_moves ..)) <|
      .trans (.up (amendPlan_moves ..)) <| mediaWork_moves ..)) <| .trans (sendProbes_moves ..) <| .trans (prepare_moves ..) <|
        .trans (.up (sanitizeTick_moves ..)) <| .trans (slotWriteTick_moves ..) <| .trans (.up (idleTick_moves ..)) <|
          .trans (postEvents_moves ..) <| sampleAll_moves ..

/-- A boundary passes only where fewer than eight have. -/
theorem execChimeBoundary_answers (s : State) : Answers .platform s (execChimeBoundary s) := by
  unfold execChimeBoundary
  split
  · exact .next .refl
  next early =>
    simp only [Bool.or_eq_true, decide_eq_true_eq, not_or, not_le] at early
    obtain ⟨-, early⟩ := early
    have passed : Moves .platform s { s with bell := { s.bell with chime := s.bell.chime + 1 } } :=
      .platformWith id id (fun ⟨count, step, _, log⟩ => ⟨count, step, early, log⟩) id id
    exact .next (passed.trans (.ite (expiryTick_moves ..) (chimeWork_moves ..)))

end Sys2Proof.Machine
end

section
/-! ## Object commands and device states: how far the work reaches, and what it keeps -/

namespace Sys2Proof.Machine

theorem execOdRead_answers (h : HostId) (idx sub : Nat) (allsub : Bool) (off len : Nat) (s : State) :
    Answers .control s (execOdRead h idx sub allsub off len s) := .next (tunnel_moves ..)

theorem execOdWrite_answers (h : HostId) (idx sub : Nat) (allsub : Bool) (serial : Nat) (data : Bytes) (s : State) :
    Answers .control s (execOdWrite h idx sub allsub serial data s) := .next (tunnel_moves ..)

theorem execPenTake_answers (h : HostId) (force : Bool) (s : State) :
    Answers .control s (execPenTake h force s) := .next (tunnel_moves ..)

theorem execPenGive_answers (h : HostId) (serial : Nat) (s : State) :
    Answers .control s (execPenGive h serial s) := .next (tunnel_moves ..)

theorem execWriteApply_answers (s : State) :
    Answers .platform s (execWriteApply s) := .ite (.next .refl) (.next (.trans (applyWrites_moves ..) <| settleFault_moves ..))

theorem execPenIdleTimeout_answers (s : State) :
    Answers .control s (execPenIdleTimeout s) := by
  unfold execPenIdleTimeout
  dsimp only
  split
  · exact .next .refl
  · exact .ite (.next .refl) (.next (.trans (raiseRecord_moves ..) <| releasePen_moves ..))

theorem execStateRequestConfig_answers (v : Via) (s : State) :
    Answers .control s (execStateRequestConfig v s) := .next (writeVia_moves ..)

theorem execStateRequestRun_answers (v : Via) (s : State) :
    Answers .control s (execStateRequestRun v s) := .next (writeVia_moves ..)

theorem execConfigLingerExpired_answers (s : State) :
    Answers .platform s (execConfigLingerExpired s) := .ite (.next (goTo_moves ..)) (.next .refl)

theorem execDrainComplete_answers (s : State) :
    Answers .platform s (execDrainComplete s) := .ite (.next (goTo_moves ..)) (.next .refl)

theorem execTallyQuotaWrite_answers (v : Via) (ceiling : Bool) (sub value : Nat) (s : State) :
    Answers .control s (execTallyQuotaWrite v ceiling sub value s) := .next (writeVia_moves ..)

theorem execBellPeriodWrite_answers (v : Via) (code : Nat) (s : State) :
    Answers .control s (execBellPeriodWrite v code s) := .next (writeVia_moves ..)

theorem execThresholdPinWrite_answers (v : Via) (idx sub : Nat) (value : Int) (s : State) :
    Answers .control s (execThresholdPinWrite v idx sub value s) := .next (writeVia_moves ..)

theorem execRatePinWrite_answers (v : Via) (port value : Nat) (s : State) :
    Answers .control s (execRatePinWrite v port value s) := .next (writeVia_moves ..)

theorem execPortModeWrite_answers (v : Via) (port value : Nat) (s : State) :
    Answers .control s (execPortModeWrite v port value s) := .next (writeVia_moves ..)

theorem execWindowWrite_answers (v : Via) (window : Nat) (fields : List Nat) (s : State) :
    Answers .control s (execWindowWrite v window fields s) := .next (writeAllVia_moves ..)

theorem execHandoffHandleWrite_answers (v : Via) (handle value : Nat) (s : State) :
    Answers .control s (execHandoffHandleWrite v handle value s) := .next (writeVia_moves ..)

theorem execPowerFloorWrite_answers (v : Via) (memoryPermit : Bool) (value : Nat) (s : State) :
    Answers .control s (execPowerFloorWrite v memoryPermit value s) := .next (writeVia_moves ..)

theorem execHostCapWrite_answers (v : Via) (value : Nat) (s : State) :
    Answers .control s (execHostCapWrite v value s) := .next (writeVia_moves ..)

theorem execResetRequestWarm_answers (v : Via) (s : State) :
    Answers .control s (execResetRequestWarm v s) := .next (writeVia_moves ..)

theorem execResetRequestCold_answers (v : Via) (s : State) :
    Answers .control s (execResetRequestCold v s) := .next (writeVia_moves ..)

theorem execResetRequestGuild_answers (v : Via) (s : State) :
    Answers .control s (execResetRequestGuild v s) := .next (writeVia_moves ..)

theorem execStickyRecordClear_answers (v : Via) (slot : Nat) (s : State) :
    Answers .control s (execStickyRecordClear v slot s) := .next (writeVia_moves ..)

theorem execClearThrough_answers (v : Via) (seq : Nat) (s : State) :
    Answers .control s (execClearThrough v seq s) := .next (writeVia_moves ..)

theorem execCounterClear_answers (v : Via) (idx sub value : Nat) (s : State) :
    Answers .control s (execCounterClear v idx sub value s) := .next (writeVia_moves ..)

theorem execDiscardSnapshot_answers (v : Via) (s : State) :
    Answers .control s (execDiscardSnapshot v s) := .next (writeVia_moves ..)

theorem execMemberCertificateWrite_answers (v : Via) (cert : Nat) (s : State) :
    Answers .control s (execMemberCertificateWrite v cert s) := .next (writeVia_moves ..)

theorem execKernelKeyWrite_answers (v : Via) (slot key : Nat) (s : State) :
    Answers .control s (execKernelKeyWrite v slot key s) := .next (writeVia_moves ..)

end Sys2Proof.Machine
end

section
/-! ## The bell edge: how far the work reaches, and what it keeps -/

namespace Sys2Proof.Machine

variable {ρ : Reach}

/-- The count goes on modulo 2^64, and a step that is due loads a count that fits. -/
theorem keeperAdvance_moves (s : State) : Moves .platform s (keeperAdvance s) := by
  have ticked : Moves .platform s { s with
      bell := keeperTick ((periodNs s : Int) + slewStep s / 1000).toNat (slewStep s) s.bell } :=
    .setBell (fun ⟨_, step, _, log⟩ => ⟨Nat.mod_lt _ (by decide), step, Nat.zero_le _, log⟩)
  unfold keeperAdvance
  dsimp only
  split
  next stretch new due =>
    refine .given (ticked.only.trans ((loadStep_only _ stretch new).mono (by decide)))
      (fun h => ticked.trans (loadStep_moves _ _ ?_))
    obtain ⟨-, -, ⟨-, step, -⟩, -⟩ := h
    exact step _ due
  next => exact ticked

theorem bellOutTick_moves (s : State) : Moves ρ s (bellOutTick s) := .ite (emit_moves ..) .refl

theorem keeperEdge_moves (s : State) (bellInPs : Option Int) : Moves .platform s (keeperEdge s bellInPs) := by
  unfold keeperEdge
  dsimp only
  split
  · exact .trans .platform <| .trans (keeperAdvance_moves ..) <| .trans (bellOutTick_moves ..) <| .ite (measure_moves ..) .refl
  · exact .trans .platform <| .trans (keeperAdvance_moves ..) <| bellOutTick_moves ..

theorem noteAged_moves (s : State) (p : Nat × Entry) : Moves ρ s (noteAged s p) := .ite (raiseRecord_moves ..) .refl

theorem ageAll_moves (s : State) : Moves ρ s (ageAll s) :=
  .trans (.foldl noteAged_moves) (.mapEntries (fun _ => ⟨rfl, fun h => ⟨h, rfl⟩⟩))

theorem crossEdge_moves (s : State) (o : Nat × Nat) : Moves .platform s (crossEdge s o) := by
  have noted (u : State) : Moves .platform u { u with bell := { u.bell with
      overUnit := o.1, overBell := u.bell.count, overLate := o.2 } } := .setBell fun h => h.ofSame rfl rfl rfl rfl
  unfold crossEdge
  refine .ite .refl ?_
  dsimp only
  refine .trans (.up (unitMod_moves ..)) (.ite (.trans ?_ (noted _)) .refl)
  exact .trans (count_moves ..) (bellLog_moves ..)

theorem overrunTick_moves (s : State) (overruns : List (Nat × Nat)) (planLateNs : Nat) :
    Moves .platform s (overrunTick s overruns planLateNs) :=
  .trans (.ite .refl (.trans (.foldl (fun _ _ => dropPlan_moves ..)) <| .trans (dropDiePlans_moves ..) <| bellLog_moves ..)) <|
    .trans .platform <| .foldl (fun _ _ => crossEdge_moves ..)

theorem drawBudget_moves (s : State) : Moves .control s (drawBudget s) := .trans (drawFree_moves ..) <| .control

theorem creditTick_moves (s : State) : Moves ρ s (creditTick s) := by
  unfold creditTick
  exact .trans (accrueCredit_moves ..) <| .ite .refl (stageAll_moves ..)

theorem timesTick_moves (s : State) : Moves .control s (timesTick s) := .controlWith id id id (by exact id)

theorem thermalTick_moves (s : State) : Moves ρ s (thermalTick s) := by
  unfold thermalTick
  split
  · exact count_moves ..
  · exact count_moves ..
  · exact .refl

theorem mapTick_moves (s : State) : Moves .control s (mapTick s) := by
  unfold mapTick
  dsimp only
  refine .ite .refl ?_
  split
  · exact askOnce_moves ..
  · exact .trans (drawFree_moves ..) <| .trans .control <| .ite (freeFamily_moves ..) .refl

theorem aliveTick_moves (s : State) : Moves ρ s (aliveTick s) := .ite .refl (.trans (drawFree_moves ..) <| .ite (flood_moves ..) .refl)

theorem portsTick_moves (s : State) : Moves ρ s (portsTick s) := .trans (.foldl (fun _ _ => portMod_moves ..)) <| aliveTick_moves ..

theorem loomEdge_moves (s : State) (l : Nat) : Moves .control s (loomEdge s l) := by
  unfold loomEdge
  dsimp only
  split
  · exact .trans (dropNext_moves ..) <| loomMod_moves ..
  · exact .trans (dropNext_moves ..) <| .trans (loomMod_moves ..) <| .ite (dropPlan_moves ..) (.ite (.trans (loomMod_moves ..) <|
      charge_moves ..) (.trans (defer_moves ..) <| dropPlan_moves ..))

theorem loomsTick_moves (s : State) : Moves .control s (loomsTick s) := .foldl (fun _ _ => loomEdge_moves ..)

theorem copyEdge_moves (s : State) : Moves .platform s (copyEdge s) := .platform

theorem mainEdge_moves (s : State) (overruns : List (Nat × Nat)) (planLateNs : Nat) :
    Moves .platform s (mainEdge s overruns planLateNs) :=
  .trans (ageAll_moves ..) <| .trans (overrunTick_moves ..) <| .trans (.up (drawBudget_moves ..)) <| .trans (.up (loomsTick_moves ..)) <|
    .trans (.up (diesTick_moves ..)) <| .trans (creditTick_moves ..) <| .trans (.up (timesTick_moves ..)) <|
      .trans (.up (checkCaps_moves ..)) <| .trans (thermalTick_moves ..) <| .trans (.up (mapTick_moves ..)) <|
        .trans (portsTick_moves ..) <| .trans (.up (chooseTarget_moves ..)) <| .trans (settleFault_moves ..) <| copyEdge_moves ..

theorem execBellEdge_answers (overruns : List (Nat × Nat)) (planLateNs : Nat) (bellInPs : Option Int) (s : State) :
    Answers .platform s (execBellEdge overruns planLateNs bellInPs s) :=
  .ite (.next .refl) (.next (.trans (keeperEdge_moves ..) <| .ite .refl (mainEdge_moves ..)))

end Sys2Proof.Machine
end

section
/-! ## Control operations of gang code: how far the work reaches, and what it keeps -/

namespace Sys2Proof.Machine

variable {ρ : Reach}

theorem branchLanes_moves (s : State) (ref : GangRef) (v : Invocation) (g : Gang) (mask target point : Nat) (taking : List Nat) :
    Moves ρ s (branchLanes s ref v g mask target point taking) :=
  .ite (gangPut_moves ..) (.ite (gangPut_moves ..) (.ite (faultGang_moves ..) (gangPut_moves ..)))

theorem execBra_answers (g : GangRef) (target : Nat) (s : State) :
    Answers ρ s (execBra g target s) := .next (gangStep_moves (fun _ _ _ _ => .ite .refl (branchLanes_moves ..)) ..)

theorem execBrz_answers (g : GangRef) (ra target reconv : Nat) (s : State) :
    Answers ρ s (execBrz g ra target reconv s) := .next (gangStep_moves (fun _ _ _ _ => .ite .refl (branchLanes_moves ..)) ..)

theorem execBrnz_answers (g : GangRef) (ra target reconv : Nat) (s : State) :
    Answers ρ s (execBrnz g ra target reconv s) := .next (gangStep_moves (fun _ _ _ _ => .ite .refl (branchLanes_moves ..)) ..)

theorem execReconv_answers (g : GangRef) (s : State) :
    Answers ρ s (execReconv g s) := .next (gangStep_moves (fun _ _ _ _ => gangPut_moves ..) ..)

theorem execBar_answers (g : GangRef) (scope ident : Nat) (s : State) :
    Answers ρ s (execBar g scope ident s) := .next (gangStep_moves (fun _ _ _ _ => .ite (faultGang_moves ..) (arriveBarrier_moves ..)) ..)

theorem execTicket_answers (g : GangRef) (rd ra rb : Nat) (s : State) : Answers ρ s (execTicket g rd ra rb s) := by
  refine .next (gangStep_moves (fun s v h mask => ?_) ..)
  split
  · dsimp only
    split
    · exact faultWith_moves ..
    · exact .ite (gangPut_moves ..) (takeTicket_moves ..)
  · exact faultGang_moves ..

theorem execWaitOp_answers (g : GangRef) (rd ra : Nat) (s : State) :
    Answers ρ s (execWaitOp g rd ra s) :=
  .next (gangStep_moves (fun _ _ _ _ => .trans .working <| .trans (gangPut_moves ..) <| releaseTickets_moves ..) ..)

theorem execPollOp_answers (g : GangRef) (rd ra : Nat) (s : State) :
    Answers ρ s (execPollOp g rd ra s) :=
  .next (gangStep_moves (fun _ _ _ _ => .trans .working <| .trans (gangPut_moves ..) <| releaseTickets_moves ..) ..)

theorem execPulse_answers (g : GangRef) (s : State) :
    Answers ρ s (execPulse g s) := .next (gangStep_moves (fun _ _ _ _ => gangPut_moves ..) ..)

theorem execExitOp_answers (g : GangRef) (ra : Nat) (s : State) :
    Answers ρ s (execExitOp g ra s) := .next (gangStep_moves (fun _ _ _ _ => exitLanes_moves ..) ..)

theorem execTrapOp_answers (g : GangRef) (imm : Nat) (s : State) :
    Answers ρ s (execTrapOp g imm s) := .next (gangStep_moves (fun _ _ _ _ => faultGang_moves ..) ..)

theorem execNopOp_answers (g : GangRef) (s : State) :
    Answers ρ s (execNopOp g s) := .next (gangStep_moves (fun _ _ _ _ => gangPut_moves ..) ..)

end Sys2Proof.Machine
end

section
/-! ## FP32 operations of gang code: how far the work reaches, and what it keeps -/

namespace Sys2Proof.Machine

variable {ρ : Reach}

theorem gangFp2_moves (s : State) (ref : GangRef) (r : RFields) (f : Fv → Fv → Fv) : Moves ρ s (gangFp2 s ref r f) := gangAlu_moves ..

theorem gangFp1_moves (s : State) (ref : GangRef) (r : RFields) (f : Fv → Fv) : Moves ρ s (gangFp1 s ref r f) := gangAlu_moves ..

theorem execFadd_answers (g : GangRef) (r : RFields) (s : State) :
    Answers ρ s (execFadd g r s) := .next (gangFp2_moves ..)

theorem execFsub_answers (g : GangRef) (r : RFields) (s : State) :
    Answers ρ s (execFsub g r s) := .next (gangFp2_moves ..)

theorem execFmul_answers (g : GangRef) (r : RFields) (s : State) :
    Answers ρ s (execFmul g r s) := .next (gangFp2_moves ..)

theorem execFfma_answers (g : GangRef) (r : RFields) (s : State) :
    Answers ρ s (execFfma g r s) := .next (gangAlu_moves ..)

theorem execFmin_answers (g : GangRef) (r : RFields) (s : State) :
    Answers ρ s (execFmin g r s) := .next (gangFp2_moves ..)

theorem execFmax_answers (g : GangRef) (r : RFields) (s : State) :
    Answers ρ s (execFmax g r s) := .next (gangFp2_moves ..)

theorem execFcmp_answers (g : GangRef) (r : RFields) (s : State) :
    Answers ρ s (execFcmp g r s) := .next (gangAlu_moves ..)

theorem execFrnd_answers (g : GangRef) (r : RFields) (s : State) :
    Answers ρ s (execFrnd g r s) := .next (gangAlu_moves ..)

theorem execFclass_answers (g : GangRef) (r : RFields) (s : State) :
    Answers ρ s (execFclass g r s) := .next (gangAlu_moves ..)

theorem execCvt_answers (g : GangRef) (r : RFields) (s : State) :
    Answers ρ s (execCvt g r s) := .next (gangAlu_moves ..)

theorem execFdiv_answers (g : GangRef) (r : RFields) (s : State) :
    Answers ρ s (execFdiv g r s) := .next (gangFp2_moves ..)

theorem execFsqrt_answers (g : GangRef) (r : RFields) (s : State) :
    Answers ρ s (execFsqrt g r s) := .next (gangFp1_moves ..)

theorem execFrcp_answers (g : GangRef) (r : RFields) (s : State) :
    Answers ρ s (execFrcp g r s) := .next (gangFp1_moves ..)

theorem execFexp2_answers (g : GangRef) (r : RFields) (s : State) :
    Answers ρ s (execFexp2 g r s) := .next (gangFp1_moves ..)

theorem execFlog2_answers (g : GangRef) (r : RFields) (s : State) :
    Answers ρ s (execFlog2 g r s) := .next (gangFp1_moves ..)

end Sys2Proof.Machine
end

section
/-! ## Integer operations of gang code: how far the work reaches, and what it keeps -/

namespace Sys2Proof.Machine

variable {ρ : Reach}

theorem execIadd_answers (g : GangRef) (r : RFields) (s : State) :
    Answers ρ s (execIadd g r s) := .next (gangAlu_moves ..)

theorem execIsub_answers (g : GangRef) (r : RFields) (s : State) :
    Answers ρ s (execIsub g r s) := .next (gangAlu_moves ..)

theorem execImul_answers (g : GangRef) (r : RFields) (s : State) :
    Answers ρ s (execImul g r s) := .next (gangAlu_moves ..)

theorem execImulhi_answers (g : GangRef) (r : RFields) (s : State) :
    Answers ρ s (execImulhi g r s) := .next (gangAlu_moves ..)

theorem execImad_answers (g : GangRef) (r : RFields) (s : State) :
    Answers ρ s (execImad g r s) := .next (gangAlu_moves ..)

theorem execIaddi_answers (g : GangRef) (rd ra imm : Nat) (s : State) :
    Answers ρ s (execIaddi g rd ra imm s) := .next (gangWrite_moves ..)

theorem execAndOp_answers (g : GangRef) (r : RFields) (s : State) :
    Answers ρ s (execAndOp g r s) := .next (gangAlu_moves ..)

theorem execOrOp_answers (g : GangRef) (r : RFields) (s : State) :
    Answers ρ s (execOrOp g r s) := .next (gangAlu_moves ..)

theorem execXorOp_answers (g : GangRef) (r : RFields) (s : State) :
    Answers ρ s (execXorOp g r s) := .next (gangAlu_moves ..)

theorem execShl_answers (g : GangRef) (r : RFields) (s : State) :
    Answers ρ s (execShl g r s) := .next (gangAlu_moves ..)

theorem execShr_answers (g : GangRef) (r : RFields) (s : State) :
    Answers ρ s (execShr g r s) := .next (gangAlu_moves ..)

theorem execSar_answers (g : GangRef) (r : RFields) (s : State) :
    Answers ρ s (execSar g r s) := .next (gangAlu_moves ..)

theorem execImin_answers (g : GangRef) (r : RFields) (s : State) :
    Answers ρ s (execImin g r s) := .next (gangAlu_moves ..)

theorem execImax_answers (g : GangRef) (r : RFields) (s : State) :
    Answers ρ s (execImax g r s) := .next (gangAlu_moves ..)

theorem execPopc_answers (g : GangRef) (r : RFields) (s : State) :
    Answers ρ s (execPopc g r s) := .next (gangAlu_moves ..)

theorem execClz_answers (g : GangRef) (r : RFields) (s : State) :
    Answers ρ s (execClz g r s) := .next (gangAlu_moves ..)

theorem execIcmp_answers (g : GangRef) (r : RFields) (s : State) :
    Answers ρ s (execIcmp g r s) := .next (gangAlu_moves ..)

theorem execSel_answers (g : GangRef) (r : RFields) (s : State) :
    Answers ρ s (execSel g r s) := .next (gangAlu_moves ..)

theorem execMov_answers (g : GangRef) (r : RFields) (s : State) :
    Answers ρ s (execMov g r s) := .next (gangAlu_moves ..)

theorem execMovi_answers (g : GangRef) (rd imm : Nat) (s : State) :
    Answers ρ s (execMovi g rd imm s) := .next (gangWrite_moves ..)

theorem execBfe_answers (g : GangRef) (r : RFields) (s : State) :
    Answers ρ s (execBfe g r s) := .next (gangAlu_moves ..)

theorem execSreg_answers (g : GangRef) (rd imm : Nat) (s : State) :
    Answers ρ s (execSreg g rd imm s) := .next (gangWrite_moves ..)

theorem execIdiv_answers (g : GangRef) (r : RFields) (s : State) :
    Answers ρ s (execIdiv g r s) := .next (gangAlu_moves ..)

theorem execIrem_answers (g : GangRef) (r : RFields) (s : State) :
    Answers ρ s (execIrem g r s) := .next (gangAlu_moves ..)

theorem execShfl_answers (g : GangRef) (r : RFields) (s : State) :
    Answers ρ s (execShfl g r s) := .next (gangWrite_moves ..)

theorem execVote_answers (g : GangRef) (r : RFields) (s : State) :
    Answers ρ s (execVote g r s) := .next (gangWrite_moves ..)

end Sys2Proof.Machine
end

section
/-! ## Controller registers and the link: how far the work reaches, and what it keeps -/

namespace Sys2Proof.Machine

variable {ρ : Reach}

theorem absorbReset_moves (s : State) : Moves .platform s (absorbReset s) := .trans .platform <| policiesReset_moves ..

theorem execCcEnClear_answers (s : State) :
    Answers .platform s (execCcEnClear s) :=
  .ite (.next .refl) (.ite (.next (absorbReset_moves ..)) (.ite (.next .platform) (.ite (.next .platform) (.next
    (controllerLevel_moves ..)))))

theorem execCcEnSet_answers (ams asq acq : Nat) (s : State) :
    Answers ρ s (execCcEnSet ams asq acq s) := .ite (.next .refl) (.next .working)

theorem execFunctionLevelReset_answers (s : State) :
    Answers .platform s (execFunctionLevelReset s) :=
  .ite (.next .refl) (.ite (.next (absorbReset_moves ..)) (.next (controllerLevel_moves ..)))

theorem execPerstAssert_answers (s : State) :
    Answers .platform s (execPerstAssert s) :=
  .ite (.next .refl) (.ite (.next .platform) (.ite (.next (.trans .platform <| .trans (absorbReset_moves ..) <|
    linkDown_moves ..)) (.next (.trans .platform <| .trans (controllerLevel_moves ..) <| linkDown_moves ..))))

theorem execPerstDeassert_answers (speed width : Nat) (s : State) :
    Answers ρ s (execPerstDeassert speed width s) := .ite (.next .working) (.next .working)

theorem execDoorbellWrite_answers (sq tail : Nat) (cmds : List SqCmd) (s : State) :
    Answers .control s (execDoorbellWrite sq tail cmds s) := by
  unfold execDoorbellWrite
  split
  · exact .next .refl
  · exact .ite (.next .refl) (.next (.trans (sqMod_moves ..) <| wakeEvent_moves ..))

end Sys2Proof.Machine
end

section
/-! ## Log pages and the management bus: how far the work reaches, and what it keeps -/

namespace Sys2Proof.Machine

variable {ρ : Reach}

theorem pageOut_moves (s : State) (page : Bytes) (off len : Nat) : Moves ρ s (pageOut s page off len).2 := drawBytes_moves ..

theorem logOut_moves (s : State) (i : Nat) (h : HostId) (lid : Nat) (page : Bytes) (off len : Nat) (rae : Bool) :
    Moves ρ s (logOut s i h lid page off len rae) :=
  .ite (finish_moves ..) (.trans (pageOut_moves ..) <| .trans (pageRead_moves ..) <| answerPage_moves ..)

theorem execGetLogPage_answers (h : HostId) (lid off len : Nat) (rae : Bool) (s : State) :
    Answers ρ s (execGetLogPage h lid off len rae s) := .next (serveAdmin_moves (fun _ _ => by
    split
    · exact .trans (freePage_moves ..) <| logOut_moves ..
    · exact .trans (freePage_moves ..) <| logOut_moves ..
    · exact .trans (drawBytes_moves ..) <| logOut_moves ..
    · exact .trans (freePage_moves ..) <| logOut_moves ..
    · exact .trans (freePage_moves ..) <| logOut_moves ..
    · exact .ite (.trans (freePage_moves ..) <| logOut_moves ..) (finish_moves ..)) ..)

theorem execStickySummaryLog_answers (h : HostId) (off len : Nat) (rae : Bool) (s : State) :
    Answers ρ s (execStickySummaryLog h off len rae s) := .next (serveAdmin_moves (fun _ _ => logOut_moves ..) ..)

theorem execFreezeLog_answers (h : HostId) (off len : Nat) (rae : Bool) (s : State) :
    Answers ρ s (execFreezeLog h off len rae s) := .next (serveAdmin_moves (fun _ _ => logOut_moves ..) ..)

theorem execBellLog_answers (h : HostId) (off len : Nat) (rae : Bool) (s : State) :
    Answers ρ s (execBellLog h off len rae s) := .next (serveAdmin_moves (fun _ _ => logOut_moves ..) ..)

theorem execGuildLog_answers (h : HostId) (off len : Nat) (rae : Bool) (s : State) :
    Answers ρ s (execGuildLog h off len rae s) := .next (serveAdmin_moves (fun _ _ => .ite (logOut_moves ..) (finish_moves ..)) ..)

theorem execKernelFaultLog_answers (h : HostId) (off len : Nat) (rae : Bool) (s : State) :
    Answers ρ s (execKernelFaultLog h off len rae s) := .next (serveAdmin_moves (fun _ _ => logOut_moves ..) ..)

theorem miOut_moves (s : State) (n : Nat) (fields : List (Nat × Bytes)) : Moves ρ s (miOut s n fields) :=
  .ite .refl (.trans (freePage_moves ..) <| emit_moves ..)

theorem execNvmeMiBasicManagement_answers (s : State) :
    Answers ρ s (execNvmeMiBasicManagement s) := .next (miOut_moves ..)

theorem execHealthStatusPoll_answers (s : State) :
    Answers ρ s (execHealthStatusPoll s) := .next (miOut_moves ..)

theorem execControllerHealthStatusPoll_answers (s : State) :
    Answers ρ s (execControllerHealthStatusPoll s) := .next (miOut_moves ..)

theorem execReadNvmeMiDataStructure_answers (dtyp : Nat) (s : State) :
    Answers ρ s (execReadNvmeMiDataStructure dtyp s) := .next (.ite (.ite .refl (emit_moves ..)) (miOut_moves ..))

end Sys2Proof.Machine
end

section
/-! ## Firmware download, commit and activation: how far the work reaches, and what it keeps -/

namespace Sys2Proof.Machine

variable {ρ : Reach}

theorem execFirmwareImageDownload_answers (h : HostId) (off : Nat) (piece : Bytes) (s : State) :
    Answers .platform s (execFirmwareImageDownload h off piece s) :=
  .next (serveQuietAdmin_moves (fun _ _ => .ite (finish_moves ..) (.ite (finish_moves ..) (.trans .platform <| finish_moves ..))) ..)

theorem serveCommit_moves {act : State → Nat → Nat → State} (ha : ∀ s i k, Moves ρ s (act s i k)) (s : State) (h : HostId) (slot : Nat) :
    Moves ρ s (serveCommit s h slot act) := serveQuietAdmin_moves (fun _ _ => by
    split
    · exact finish_moves ..
    · exact ha _ _ _) ..

theorem execFirmwareCommitAction0_answers (h : HostId) (slot : Nat) (s : State) :
    Answers .platform s (execFirmwareCommitAction0 h slot s) := .next (serveCommit_moves (fun _ _ _ => by
    refine .ite (finish_moves ..) (.ite (finish_moves ..) ?_)
    split
    · exact finish_moves ..
    · exact startSlotWrite_moves ..) ..)

theorem execFirmwareCommitAction1_answers (h : HostId) (slot : Nat) (s : State) :
    Answers .platform s (execFirmwareCommitAction1 h slot s) := .next (serveCommit_moves (fun _ _ _ => by
    refine .ite (finish_moves ..) ?_
    split
    · exact finish_moves ..
    · exact .ite (startSlotWrite_moves ..) (.ite (finish_moves ..) (.trans .platform <| finish_moves ..))) ..)

theorem execFirmwareCommitAction2_answers (h : HostId) (slot : Nat) (s : State) :
    Answers .platform s (execFirmwareCommitAction2 h slot s) := .next (serveCommit_moves (fun _ _ _ => by
    refine .ite (.trans .platform <| finish_moves ..) ?_
    split
    · exact finish_moves ..
    · exact .trans .platform <| finish_moves ..) ..)

theorem execFirmwareCommitAction3_answers (h : HostId) (slot : Nat) (s : State) :
    Answers .platform s (execFirmwareCommitAction3 h slot s) := .next (serveCommit_moves (fun _ _ _ => by
    refine .ite (finish_moves ..) (.ite (finish_moves ..) ?_)
    refine .ite (finish_moves ..) ?_
    split
    · exact finish_moves ..
    · exact .trans .platform <| setState_moves ..) ..)

theorem execActivationStart_answers (s : State) :
    Answers .platform s (execActivationStart s) := by
  unfold execActivationStart
  dsimp only
  split
  · exact .next .refl
  · refine .ite (.next .refl) ?_
    split
    · exact .next (.trans .platform <| .trans (announcePause_moves ..) <| .trans (goTo_moves ..) <| .trans (shelveAll_moves ..) <|
        raiseEvent_moves ..)
    · exact .next (.trans .platform <| .trans (announcePause_moves ..) <| .trans (goTo_moves ..) <| .trans (shelveAll_moves ..) <|
        holdEntries_moves ..)
    · exact .next .refl

theorem loaderEnds_moves (s : State) (failedPart : Option Nat) (pauseUs : Nat) : Moves .platform s (loaderEnds s failedPart pauseUs) := by
  unfold loaderEnds
  dsimp only
  split
  · exact .trans .platform <| .trans (count_moves ..) <| switchTo_moves ..
  · exact .trans .platform <| .trans (count_moves ..) <| raiseRecord_moves ..

theorem execActivationPause_answers (failedPart : Option Nat) (pauseUs : Nat) (s : State) :
    Answers .platform s (execActivationPause failedPart pauseUs s) := by
  unfold execActivationPause
  dsimp only
  refine .ite (.next .refl) ?_
  split
  · exact .ite (.next .refl) (.next (.trans .platform <| .trans (goTo_moves ..) <| .trans (holdEntries_moves ..) <|
      .trans (suspendErases_moves ..) <| loaderEnds_moves ..))
  · exact .next (.trans (suspendErases_moves ..) <| loaderEnds_moves ..)
  · exact .next .refl

theorem commitEnds_moves (s : State) : Moves .platform s (commitEnds s) := by
  unfold commitEnds
  dsimp only
  split
  · exact .refl
  · split
    · exact .trans .platform <| finish_moves ..
    · exact .platform

theorem afterPause_moves (s : State) : Moves .platform s (afterPause s) := by
  unfold afterPause
  dsimp only
  split
  · exact .trans .platform <| warmReset_moves ..
  · exact .ite (controllerLevel_moves ..) (commitEnds_moves ..)

theorem execActivationEnd_answers (s : State) :
    Answers .platform s (execActivationEnd s) :=
  .ite (.next .refl) (.next (.trans .platform <| .trans (goTo_moves ..) <| .trans (resumeEntries_moves ..) <|
    .trans (.up (resumeTunnels_moves ..)) <| afterPause_moves ..))

theorem execImageCopyPart_answers (s : State) :
    Answers .platform s (execImageCopyPart s) := .ite (.next .refl) (.next (.trans .platform <| .ite (endCopy_moves ..) .refl))

theorem finishCopy_moves (s : State) : Moves .platform s (finishCopy s) := .ite (.trans (endCopy_moves ..) <| .ite .platform .refl) .refl

theorem dropPending_moves (s : State) (part : Nat) : Moves .platform s (dropPending s part) :=
  .trans (count_moves ..) <| .trans .platform <| raiseRecord_moves ..

theorem chooseImage_moves (s : State) (c : BootChecks) : Moves .platform s (chooseImage s c).2 := by
  unfold chooseImage
  dsimp only
  split
  · split
    · exact .trans (switchTo_moves ..) <| .platform
    · exact dropPending_moves ..
  · exact .refl

theorem bootFails_moves (s : State) (cls : Nat) : Moves .platform s (bootFails s cls) := faultClass_moves ..

theorem execBootComplete_answers (checks : BootChecks) (s : State) :
    Answers .platform s (execBootComplete checks s) :=
  .ite (.next .refl) (.ite (.next (bootFails_moves ..)) (.ite (.next (.trans (finishCopy_moves ..) <| .trans (chooseImage_moves ..) <|
    bootFails_moves ..)) (.ite (.next (.trans (finishCopy_moves ..) <| .trans (chooseImage_moves ..) <|
      bootFails_moves ..)) (.ite (.next (.trans (finishCopy_moves ..) <| .trans (chooseImage_moves ..) <|
        bootFails_moves ..)) (.next (.trans (finishCopy_moves ..) <| .trans (chooseImage_moves ..) <| .trans (.ite (.trans .platform <|
          recoverSave_moves ..) .refl) <| .trans .platform <| .trans (restartErases_moves ..) <| .trans (goTo_moves ..) <|
            .up (resumeSanitize_moves ..)))))))

theorem execUncorrectableError_answers (cls : Nat) (s : State) :
    Answers .platform s (execUncorrectableError cls s) := .next (.ite (faultClass_moves ..) .refl)

end Sys2Proof.Machine
end

section
/-! ## Rails and pins: how far the work reaches, and what it keeps -/

namespace Sys2Proof.Machine

theorem cutActivation_moves (s : State) : Moves .platform s (cutActivation s) :=
  .ite .refl (.ite (.trans .platform <| count_moves ..) (.trans .platform <| .trans (count_moves ..) <| raiseRecord_moves ..))

theorem storeSnapshot_moves (s : State) : Moves .platform s (storeSnapshot s) := by
  unfold storeSnapshot
  dsimp only
  split
  · exact .platform
  · exact .refl

theorem losePower_moves (s : State) (cause durationUs : Nat) (markerOk : Bool) :
    Moves .platform s (losePower s cause durationUs markerOk) :=
  .trans (cutActivation_moves ..) <| .trans (storeSnapshot_moves ..) <| .trans (save_moves ..) <| .trans (loseVolatile_moves ..) <|
    .trans .platform <| .up (transition_moves ..)

theorem execMainPowerLost_answers (durationUs : Nat) (markerOk : Bool) (s : State) :
    Answers .platform s (execMainPowerLost durationUs markerOk s) := .next (.trans .platform <| .ite .refl (losePower_moves ..))

theorem execPwrdisAssert_answers (durationUs : Nat) (markerOk : Bool) (s : State) :
    Answers .platform s (execPwrdisAssert durationUs markerOk s) := .next (.trans .platform <| .ite .refl (losePower_moves ..))

theorem startUp_moves (s : State) : Moves .platform s (startUp s) := by
  unfold startUp
  exact .trans .platform <| .trans (.up (transition_moves ..)) <| count_moves ..

theorem alwaysOnUp_moves (s : State) : Moves .platform s (alwaysOnUp s) := .platformWith id id (fun _ => bellOk_reset) id id

theorem execMainPowerGood_answers (s : State) :
    Answers .platform s (execMainPowerGood s) :=
  .next (.trans .platform <| .trans (.ite .refl (alwaysOnUp_moves ..)) <| .ite (startUp_moves ..) .refl)

theorem execPowerRestart_answers (s : State) :
    Answers .platform s (execPowerRestart s) := .ite (.next .refl) (.next (.trans .platform <| startUp_moves ..))

theorem execAlwaysOnPowerUp_answers (s : State) :
    Answers .platform s (execAlwaysOnPowerUp s) := .ite (.next .refl) (.next (alwaysOnUp_moves ..))

theorem execAlwaysOnPowerLoss_answers (s : State) : Answers .platform s (execAlwaysOnPowerLoss s) :=
  .ite (.next .refl) (.next (.platformWith id id (fun _ => bellOk_reset) id id))

theorem execFreezePin_answers (lowNs : Nat) (s : State) :
    Answers .platform s (execFreezePin lowNs s) :=
  .ite (.next .refl) (.ite (.next (.trans .platform <| freezeNow_moves ..)) (.next (.trans (drawFree_moves ..) <|
    .ite (freezeNow_moves ..) .refl)))

theorem execFreezePinRelease_answers (s : State) :
    Answers .platform s (execFreezePinRelease s) := .next .platform

end Sys2Proof.Machine
end

section
/-! ## Every command (O6, O22) -/

namespace Sys2Proof.Machine

/-- How far a command reaches: by the two named lists of commands. -/
def reachOf (c : Instr) : Reach := if platformCommand c then .platform else if controlCommand c then .control else .working

/-- What a command answers, it answers within its reach. -/
theorem exec_answers (s : State) : ∀ c : Instr, Answers (reachOf c) s (exec c s)
  | .bellEdge .. => execBellEdge_answers ..
  | .chimeBoundary => execChimeBoundary_answers ..
  | .hardOverrun .. => execHardOverrun_answers ..
  | .childWaitLimit .. => execChildWaitLimit_answers ..
  | .unitReply .. => execUnitReply_answers ..
  | .writeApply => execWriteApply_answers ..
  | .odRead .. => execOdRead_answers ..
  | .odWrite .. => execOdWrite_answers ..
  | .penTake .. => execPenTake_answers ..
  | .penGive .. => execPenGive_answers ..
  | .penIdleTimeout => execPenIdleTimeout_answers ..
  | .stateRequestConfig .. => execStateRequestConfig_answers ..
  | .stateRequestRun .. => execStateRequestRun_answers ..
  | .configLingerExpired => execConfigLingerExpired_answers ..
  | .drainComplete => execDrainComplete_answers ..
  | .tallyQuotaWrite .. => execTallyQuotaWrite_answers ..
  | .bellPeriodWrite .. => execBellPeriodWrite_answers ..
  | .sourceQualified .. => execSourceQualified_answers ..
  | .bellInFrame .. => execBellInFrame_answers ..
  | .bellInLost overCorrection => execBellInLost_answers overCorrection s
  | .guildSourceLost .. => execGuildSourceLost_answers ..
  | .alignmentLocked => execAlignmentLocked_answers ..
  | .alignmentUnlocked => execAlignmentUnlocked_answers ..
  | .doorbellWrite .. => execDoorbellWrite_answers ..
  | .nvmRead .. => execNvmRead_answers ..
  | .nvmWrite .. => execNvmWrite_answers ..
  | .flush .. => execFlush_answers ..
  | .datasetManagement .. => execDatasetManagement_answers ..
  | .formatNvm .. => execFormatNvm_answers ..
  | .sanitizeCryptoErase .. => execSanitizeCryptoErase_answers ..
  | .sanitizeBlockErase .. => execSanitizeBlockErase_answers ..
  | .namespaceCreate .. => execNamespaceCreate_answers ..
  | .namespaceDelete .. => execNamespaceDelete_answers ..
  | .ioManagementSend .. => execIoManagementSend_answers ..
  | .ioManagementReceive .. => execIoManagementReceive_answers ..
  | .abort .. => execAbort_answers ..
  | .identify .. => execIdentify_answers ..
  | .getFeatures .. => execGetFeatures_answers ..
  | .setFeaturesPowerManagement .. => execSetFeaturesPowerManagement_answers ..
  | .setFeaturesApst .. => execSetFeaturesApst_answers ..
  | .setFeaturesNoppme .. => execSetFeaturesNoppme_answers ..
  | .setFeaturesArbitration .. => execSetFeaturesArbitration_answers ..
  | .setFeaturesFdp .. => execSetFeaturesFdp_answers ..
  | .asynchronousEventRequest .. => execAsynchronousEventRequest_answers ..
  | .createIoSq .. => execCreateIoSq_answers ..
  | .createIoCq .. => execCreateIoCq_answers ..
  | .deleteIoSq .. => execDeleteIoSq_answers ..
  | .deleteIoCq .. => execDeleteIoCq_answers ..
  | .getLogPage .. => execGetLogPage_answers ..
  | .stickySummaryLog .. => execStickySummaryLog_answers ..
  | .freezeLog .. => execFreezeLog_answers ..
  | .bellLog .. => execBellLog_answers ..
  | .guildLog .. => execGuildLog_answers ..
  | .kernelFaultLog .. => execKernelFaultLog_answers ..
  | .queueThaw .. => execQueueThaw_answers ..
  | .queueQuiet .. => execQueueQuiet_answers ..
  | .queueReopen .. => execQueueReopen_answers ..
  | .deadlineEdge .. => execDeadlineEdge_answers ..
  | .unitReset .. => execUnitReset_answers ..
  | .unitIdle .. => execUnitIdle_answers ..
  | .snapshotFetch .. => execSnapshotFetch_answers ..
  | .ccEnClear => execCcEnClear_answers ..
  | .ccEnSet .. => execCcEnSet_answers ..
  | .functionLevelReset => execFunctionLevelReset_answers ..
  | .perstAssert => execPerstAssert_answers ..
  | .perstDeassert .. => execPerstDeassert_answers ..
  | .nvmeMiBasicManagement => execNvmeMiBasicManagement_answers ..
  | .healthStatusPoll => execHealthStatusPoll_answers ..
  | .controllerHealthStatusPoll => execControllerHealthStatusPoll_answers ..
  | .readNvmeMiDataStructure .. => execReadNvmeMiDataStructure_answers ..
  | .read .. => execRead_answers ..
  | .readSoft .. => execReadSoft_answers ..
  | .readCancel .. => execReadCancel_answers ..
  | .program .. => execProgram_answers ..
  | .erase .. => execErase_answers ..
  | .eraseSuspend .. => execEraseSuspend_answers ..
  | .eraseResume .. => execEraseResume_answers ..
  | .eraseLock .. => execEraseLock_answers ..
  | .setLevels .. => execSetLevels_answers ..
  | .senseValley .. => execSenseValley_answers ..
  | .dieStatus .. => execDieStatus_answers ..
  | .dieReset .. => execDieReset_answers ..
  | .channelTrain .. => execChannelTrain_answers ..
  | .readParams .. => execReadParams_answers ..
  | .dieReadComplete .. => execDieReadComplete_answers ..
  | .programComplete .. => execProgramComplete_answers ..
  | .eraseComplete .. => execEraseComplete_answers ..
  | .eraseSuspended .. => execEraseSuspended_answers ..
  | .dieTimeout .. => execDieTimeout_answers ..
  | .trackerRun .. => execTrackerRun_answers ..
  | .thresholdPinWrite .. => execThresholdPinWrite_answers ..
  | .decodeFail .. => execDecodeFail_answers ..
  | .writeComplete .. => execWriteComplete_answers ..
  | .gatherTimeout .. => execGatherTimeout_answers ..
  | .reclaimJob .. => execReclaimJob_answers ..
  | .wearLevelJob .. => execWearLevelJob_answers ..
  | .scrubPass .. => execScrubPass_answers ..
  | .checkpointSegment .. => execCheckpointSegment_answers ..
  | .mainPowerLost .. => execMainPowerLost_answers ..
  | .mainPowerGood => execMainPowerGood_answers ..
  | .powerRestart => execPowerRestart_answers ..
  | .pwrdisAssert .. => execPwrdisAssert_answers ..
  | .bootComplete .. => execBootComplete_answers ..
  | .loomDirect .. => execLoomDirect_answers ..
  | .loomStepComplete .. => execLoomStepComplete_answers ..
  | .loadProgram .. => execLoadProgram_answers ..
  | .programActivate .. => execProgramActivate_answers ..
  | .programDeactivate .. => execProgramDeactivate_answers ..
  | .executeProgram .. => execExecuteProgram_answers ..
  | .memoryRangeSetManagement .. => execMemoryRangeSetManagement_answers ..
  | .runKernel .. => execRunKernel_answers ..
  | .invocationStart .. => execInvocationStart_answers ..
  | .gangPlacement => execGangPlacement_answers ..
  | .invocationEnd .. => execInvocationEnd_answers ..
  | .gangStall .. => execGangStall_answers ..
  | .barrierTimeout .. => execBarrierTimeout_answers ..
  | .gangFault .. => execGangFault_answers ..
  | .iadd .. => execIadd_answers ..
  | .isub .. => execIsub_answers ..
  | .imul .. => execImul_answers ..
  | .imulhi .. => execImulhi_answers ..
  | .imad .. => execImad_answers ..
  | .iaddi .. => execIaddi_answers ..
  | .andOp .. => execAndOp_answers ..
  | .orOp .. => execOrOp_answers ..
  | .xorOp .. => execXorOp_answers ..
  | .shl .. => execShl_answers ..
  | .shr .. => execShr_answers ..
  | .sar .. => execSar_answers ..
  | .imin .. => execImin_answers ..
  | .imax .. => execImax_answers ..
  | .popc .. => execPopc_answers ..
  | .clz .. => execClz_answers ..
  | .icmp .. => execIcmp_answers ..
  | .sel .. => execSel_answers ..
  | .mov .. => execMov_answers ..
  | .movi .. => execMovi_answers ..
  | .bfe .. => execBfe_answers ..
  | .sreg .. => execSreg_answers ..
  | .fadd .. => execFadd_answers ..
  | .fsub .. => execFsub_answers ..
  | .fmul .. => execFmul_answers ..
  | .ffma .. => execFfma_answers ..
  | .fmin .. => execFmin_answers ..
  | .fmax .. => execFmax_answers ..
  | .fcmp .. => execFcmp_answers ..
  | .frnd .. => execFrnd_answers ..
  | .fclass .. => execFclass_answers ..
  | .cvt .. => execCvt_answers ..
  | .fdiv .. => execFdiv_answers ..
  | .fsqrt .. => execFsqrt_answers ..
  | .frcp .. => execFrcp_answers ..
  | .fexp2 .. => execFexp2_answers ..
  | .flog2 .. => execFlog2_answers ..
  | .idiv .. => execIdiv_answers ..
  | .irem .. => execIrem_answers ..
  | .shfl .. => execShfl_answers ..
  | .vote .. => execVote_answers ..
  | .ld .. => execLd_answers ..
  | .st .. => execSt_answers ..
  | .atom .. => execAtom_answers ..
  | .cas .. => execCas_answers ..
  | .fence .. => execFence_answers ..
  | .bra .. => execBra_answers ..
  | .brz .. => execBrz_answers ..
  | .brnz .. => execBrnz_answers ..
  | .reconv .. => execReconv_answers ..
  | .bar .. => execBar_answers ..
  | .ticket .. => execTicket_answers ..
  | .waitOp .. => execWaitOp_answers ..
  | .pollOp .. => execPollOp_answers ..
  | .pulse .. => execPulse_answers ..
  | .exitOp .. => execExitOp_answers ..
  | .trapOp .. => execTrapOp_answers ..
  | .nopOp .. => execNopOp_answers ..
  | .streamFeed .. => execStreamFeed_answers ..
  | .streamPark .. => execStreamPark_answers ..
  | .streamParkNow .. => execStreamParkNow_answers ..
  | .streamResumeHome .. => execStreamResumeHome_answers ..
  | .streamResumeInit .. => execStreamResumeInit_answers ..
  | .streamResumeLoad .. => execStreamResumeLoad_answers ..
  | .chunkDispatch .. => execChunkDispatch_answers ..
  | .streamEviction .. => execStreamEviction_answers ..
  | .sliceSeal .. => execSliceSeal_answers ..
  | .sliceAdmit .. => execSliceAdmit_answers ..
  | .siftQuery .. => execSiftQuery_answers ..
  | .siftMount .. => execSiftMount_answers ..
  | .siftUnmount .. => execSiftUnmount_answers ..
  | .guildSift .. => execGuildSift_answers ..
  | .yieldPoint .. => execYieldPoint_answers ..
  | .searchFinalise .. => execSearchFinalise_answers ..
  | .replyByFinalise .. => execReplyByFinalise_answers ..
  | .guildMerge .. => execGuildMerge_answers ..
  | .flitReceived .. => execFlitReceived_answers ..
  | .nak .. => execNak_answers ..
  | .portProtectionDown .. => execPortProtectionDown_answers ..
  | .linkDown .. => execLinkDown_answers ..
  | .aliveTimeout .. => execAliveTimeout_answers ..
  | .rateAdapt .. => execRateAdapt_answers ..
  | .portTrained .. => execPortTrained_answers ..
  | .ratePinWrite .. => execRatePinWrite_answers ..
  | .portModeWrite .. => execPortModeWrite_answers ..
  | .windowWrite .. => execWindowWrite_answers ..
  | .getOp .. => execGetOp_answers ..
  | .putOp .. => execPutOp_answers ..
  | .sealOp .. => execSealOp_answers ..
  | .sendOp .. => execSendOp_answers ..
  | .siftOp .. => execSiftOp_answers ..
  | .streamOp .. => execStreamOp_answers ..
  | .syncOp x _ _ _ => execSyncOp_answers x _ _ _ s
  | .delayReq x _ _ _ => execDelayReq_answers x _ _ _ s
  | .delayResp x _ _ _ => execDelayResp_answers x _ _ _ s
  | .timeTransferInterval => execTimeTransferInterval_answers ..
  | .controlAlive .. => execControlAlive_answers ..
  | .controlProbe .. => execControlProbe_answers ..
  | .controlLost .. => execControlLost_answers ..
  | .controlPaused .. => execControlPaused_answers ..
  | .controlResumed .. => execControlResumed_answers ..
  | .controlJoined .. => execControlJoined_answers ..
  | .controlPeriod .. => execControlPeriod_answers ..
  | .controlIdentity _ _ _ epoch _ => execControlIdentity_answers _ _ _ epoch _ s
  | .controlTable .. => execControlTable_answers ..
  | .controlDelays .. => execControlDelays_answers ..
  | .partSequenceTimeout .. => execPartSequenceTimeout_answers ..
  | .transactionReply .. => execTransactionReply_answers ..
  | .e2eRetryTimeout .. => execE2eRetryTimeout_answers ..
  | .repeatRecordExpiry .. => execRepeatRecordExpiry_answers ..
  | .detourDiscard .. => execDetourDiscard_answers ..
  | .stagingTimeout .. => execStagingTimeout_answers ..
  | .heldResend .. => execHeldResend_answers ..
  | .probeWindowExpiry .. => execProbeWindowExpiry_answers ..
  | .noPortUpExpiry => execNoPortUpExpiry_answers ..
  | .holdoverPause => execHoldoverPause_answers ..
  | .joinComplete => execJoinComplete_answers ..
  | .periodChangeAtE => execPeriodChangeAtE_answers ..
  | .leaveComplete => execLeaveComplete_answers ..
  | .guildSetGeometry .. => execGuildSetGeometry_answers ..
  | .guildJoin .. => execGuildJoin_answers ..
  | .guildLeave .. => execGuildLeave_answers ..
  | .guildSetPeriod .. => execGuildSetPeriod_answers ..
  | .guildPing .. => execGuildPing_answers ..
  | .memoryRead .. => execMemoryRead_answers ..
  | .memoryWrite .. => execMemoryWrite_answers ..
  | .memoryCopy .. => execMemoryCopy_answers ..
  | .handoffHandleWrite .. => execHandoffHandleWrite_answers ..
  | .cycOut .. => execCycOut_answers ..
  | .discover .. => execDiscover_answers ..
  | .assignOp .. => execAssignOp_answers ..
  | .acyOdRead .. => execAcyOdRead_answers ..
  | .acyOdWrite .. => execAcyOdWrite_answers ..
  | .acyPenTake .. => execAcyPenTake_answers ..
  | .acyPenGive .. => execAcyPenGive_answers ..
  | .acyPoll .. => execAcyPoll_answers ..
  | .acySnapshotRead .. => execAcySnapshotRead_answers ..
  | .milnyWatchdogExpiry => execMilnyWatchdogExpiry_answers ..
  | .apstIdleExpiry => execApstIdleExpiry_answers ..
  | .powerStateEntry => execPowerStateEntry_answers ..
  | .ps0Reached => execPs0Reached_answers ..
  | .mediaCareWake .. => execMediaCareWake_answers ..
  | .powerFloorWrite .. => execPowerFloorWrite_answers ..
  | .hostCapWrite .. => execHostCapWrite_answers ..
  | .thermalEvaluation .. => execThermalEvaluation_answers ..
  | .rear12vLost => execRear12vLost_answers ..
  | .rear12vReturn => execRear12vReturn_answers ..
  | .resetRequestWarm .. => execResetRequestWarm_answers ..
  | .resetRequestCold .. => execResetRequestCold_answers ..
  | .resetRequestGuild .. => execResetRequestGuild_answers ..
  | .firmwareImageDownload .. => execFirmwareImageDownload_answers ..
  | .firmwareCommitAction0 .. => execFirmwareCommitAction0_answers ..
  | .firmwareCommitAction1 .. => execFirmwareCommitAction1_answers ..
  | .firmwareCommitAction2 .. => execFirmwareCommitAction2_answers ..
  | .firmwareCommitAction3 .. => execFirmwareCommitAction3_answers ..
  | .activationStart => execActivationStart_answers ..
  | .activationPause .. => execActivationPause_answers ..
  | .activationEnd => execActivationEnd_answers ..
  | .imageCopyPart => execImageCopyPart_answers ..
  | .freezePin .. => execFreezePin_answers ..
  | .stickyRecordClear .. => execStickyRecordClear_answers ..
  | .clearThrough .. => execClearThrough_answers ..
  | .counterClear .. => execCounterClear_answers ..
  | .discardSnapshot .. => execDiscardSnapshot_answers ..
  | .memberCertificateWrite .. => execMemberCertificateWrite_answers ..
  | .kernelKeyWrite .. => execKernelKeyWrite_answers ..
  | .sessionHello .. => execSessionHello_answers ..
  | .sessionProof .. => execSessionProof_answers ..
  | .securingTimeout .. => execSecuringTimeout_answers ..
  | .rekeyThreshold .. => execRekeyThreshold_answers ..
  | .rekeyReq .. => execRekeyReq_answers ..
  | .rekeyRsp .. => execRekeyRsp_answers ..
  | .rekeySwitch .. => execRekeySwitch_answers ..
  | .rekeyRetry .. => execRekeyRetry_answers ..
  | .nonceHardStop .. => execNonceHardStop_answers ..
  | .alwaysOnPowerUp => execAlwaysOnPowerUp_answers ..
  | .alwaysOnPowerLoss => execAlwaysOnPowerLoss_answers ..
  | .uncorrectableError .. => execUncorrectableError_answers ..
  | .invalidMilnyFrame .. => execInvalidMilnyFrame_answers ..
  | .ownAddressFrame .. => execOwnAddressFrame_answers ..
  | .freezePinRelease => execFreezePinRelease_answers ..
  | .powerStateEntryComplete => execPowerStateEntryComplete_answers ..

/-- A command that is none of the platform's leaves the platform. -/
theorem reachOf_noPlatform {c : Instr} (h : platformCommand c = false) : (reachOf c).parts ⊆ (Reach.control).parts := by
  unfold reachOf
  rw [if_neg (by simp [h])]
  split <;> decide

/-- A command in neither list leaves control as well. -/
theorem reachOf_neither {c : Instr} (hp : platformCommand c = false) (hc : controlCommand c = false) :
    (reachOf c).parts ⊆ workingParts := by
  unfold reachOf
  rw [if_neg (by simp [hp]), if_neg (by simp [hc])]
  exact List.Subset.refl _

/-- `Sound` does not speak of the queue of the waiting commands. -/
theorem Sound.withPending {s : State} (h : Sound s) (l : List Instr) : Sound { s with pending := l } := h

end Sys2Proof.Machine

open Sys2Proof Sys2Proof.Machine in
/-- Settles O6: every command keeps what is sound, and the queue is no part of it. -/
theorem stepsKeepTheBlockSound : Obligations.StepsKeepTheBlockSound := by
  intro s t sound h
  unfold step at h
  split at h
  · cases h
    exact sound
  · next c rest _ => exact ((exec_answers _ c).moves t h).sound (sound.withPending rest)

open Sys2Proof Sys2Proof.Machine in
/-- Settles O22: what a command may change is what its reach names. -/
theorem onlyPlatformCommandsChangeThePlatform : Obligations.OnlyPlatformCommandsChangeThePlatform := by
  intro c s t hp h
  have reach := ((exec_answers s c).moves t h).only
  have platform := reach.mono (reachOf_noPlatform hp)
  refine ⟨⟨platform .ident (by decide), platform .od (by decide), platform .bell (by decide), platform .freeze (by decide),
    platform .update (by decide), platform .rails (by decide), platform .sampled (by decide), platform .edge (by decide)⟩, fun hc => ?_⟩
  have control := reach.mono (reachOf_neither hp hc)
  exact ⟨control .pen (by decide), control .steward (by decide), control .dev (by decide), control .milny (by decide),
    control .units (by decide), control .keys (by decide), control .power (by decide)⟩

end

section
/-!
The bell count at an edge (R65, R77): what the keeper makes of it, and that the rest of the edge leaves the count and the chime of the
keeper alone (O7).
-/

namespace Sys2Proof.Machine

/-! ## Updates of the keeper alone -/

theorem only_bell (s : State) (b : Bell) : OnlyChanges [.bell] s { s with bell := b } :=
  fun p h => by cases p <;> first | exact absurd (by decide) h | rfl

/-- An entry of the Bell log changes the log alone. -/
theorem bellLog_bell (s : State) (code unit old new : Nat) (detail : Int) : ∃ log written,
    (bellLog s code unit old new detail).bell = { s.bell with log := log, logWritten := written } := by
  unfold bellLog
  exact ⟨_, _, rfl⟩

/-! ## The keeper at an edge -/

/-- The cap of the output image comes into force (R323), as it does first at an edge. -/
def capInForce (s : State) : State := { s with milny := { s.milny with cap := s.milny.capPending.getD s.milny.cap, capPending := none } }

/-- The keeper has counted the edge; a step of the bell, where one ends here, is not made yet. -/
def counted (s : State) : State :=
  { s with bell := keeperTick ((periodNs s : Int) + slewStep s / 1000).toNat (slewStep s) s.bell }

theorem capInForce_only (s : State) : OnlyChanges [.milny] s (capInForce s) :=
  fun p h => by cases p <;> first | exact absurd (by decide) h | rfl

theorem counted_only (s : State) : OnlyChanges [.bell] s (counted s) := only_bell _ _

theorem keeperAdvance_noStep {s : State} (h : s.bell.step = none) : keeperAdvance s = counted s := by
  simp only [keeperAdvance, h, counted]

theorem keeperAdvance_step {s : State} {stretch new : Nat} (h : s.bell.step = some (stretch, new)) :
    keeperAdvance s = loadStep (counted s) stretch new := by
  simp only [keeperAdvance, h, counted]

/-- The keeper of a step that is made (R77): the count is the source's, the chimes and the edges counted stand. -/
theorem loadStep_bell (s : State) (stretch new : Nat) : (loadStep s stretch new).bell.count = new ∧
    (loadStep s stretch new).bell.chime = s.bell.chime ∧ (loadStep s stretch new).bell.ticks = s.bell.ticks := by
  unfold loadStep
  dsimp only
  rw [raiseRecord_only _ _ .bell (by decide)]
  exact ⟨rfl, rfl, rfl⟩

theorem keeperAdvance_only (s : State) : OnlyChanges [.bell, .sticky] s (keeperAdvance s) := by
  cases h : s.bell.step with
  | none => exact keeperAdvance_noStep h ▸ (counted_only s).mono (by decide)
  | some p => exact keeperAdvance_step h ▸ ((counted_only s).mono (by decide)).trans (loadStep_only _ _ _)

theorem keeperAdvance_chime (s : State) : (keeperAdvance s).bell.chime = 0 := by
  cases h : s.bell.step with
  | none => rw [keeperAdvance_noStep h]; rfl
  | some p =>
    obtain ⟨-, chime, -⟩ := loadStep_bell (counted s) p.1 p.2
    rw [keeperAdvance_step h, chime]
    rfl

theorem keeperAdvance_ticks (s : State) : (keeperAdvance s).bell.ticks = s.bell.ticks + 1 := by
  cases h : s.bell.step with
  | none => rw [keeperAdvance_noStep h]; rfl
  | some p =>
    obtain ⟨-, -, ticks⟩ := loadStep_bell (counted s) p.1 p.2
    rw [keeperAdvance_step h, ticks]
    rfl

/-- The count at an edge: one more, or what a step of the bell loads (R65, R77). -/
theorem keeperAdvance_count (s : State) : (keeperAdvance s).bell.count =
    (match s.bell.step with | none => (s.bell.count + 1) % 2 ^ 64 | some (_, n) => n) := by
  split
  · next h => rw [keeperAdvance_noStep h]; rfl
  · next stretch new h =>
    obtain ⟨count, -, -⟩ := loadStep_bell (counted s) stretch new
    rw [keeperAdvance_step h, count]

theorem bellOutTick_only (s : State) : OnlyChanges [.out] s (bellOutTick s) := .ite (emit_only _ _) (.refl _ s)

theorem measure_only (s : State) (ps : Int) : OnlyChanges [.bell, .free] s (measure s ps) := by
  have kept (b : Bell) : OnlyChanges [.bell, .free] s { (drawFree s).2 with bell := b } :=
    fun p h => by cases p <;> first | exact absurd (by decide) h | rfl
  exact (kept _).trans (.ite ((bellLog_only _ _ _ _ _ _).mono (by decide)) (.refl _ _))

theorem keeperEdge_none (s : State) : keeperEdge s none = bellOutTick (keeperAdvance (capInForce s)) := rfl

/-- A measurement at the edge (R83) follows what the keeper does without one. -/
theorem keeperEdge_some (s : State) (ps : Int) : keeperEdge s (some ps) =
    if (keeperEdge s none).bell.followed = 1 then measure (keeperEdge s none) (ps - 1000 * (odVal (keeperEdge s none) 0x2007 0 : Int))
    else keeperEdge s none := rfl

theorem keeperEdge_none_only (s : State) : OnlyChanges [.bell, .milny, .sticky, .out] s (keeperEdge s none) :=
  ((capInForce_only s).mono (by decide)).trans <| ((keeperAdvance_only _).mono (by decide)).trans <| (bellOutTick_only _).mono (by decide)

theorem keeperEdge_only (s : State) (ps : Option Int) : OnlyChanges [.bell, .milny, .sticky, .out, .free] s (keeperEdge s ps) := by
  have unmeasured := (keeperEdge_none_only s).mono (qs := [.bell, .milny, .sticky, .out, .free]) (by decide)
  cases ps with
  | none => exact unmeasured
  | some ps =>
    rw [keeperEdge_some]
    exact unmeasured.trans (.ite ((measure_only _ _).mono (by decide)) (.refl _ _))

theorem keeperEdge_none_bell (s : State) : (keeperEdge s none).bell = (keeperAdvance (capInForce s)).bell :=
  bellOutTick_only _ .bell (by decide)

/-- Without a step that ends at the edge, no record is raised. -/
theorem keeperEdge_none_sticky {s : State} (h : s.bell.step = none) : (keeperEdge s none).sticky = s.sticky := by
  have counts : OnlyChanges [.bell] (capInForce s) (keeperAdvance (capInForce s)) :=
    keeperAdvance_noStep (s := capInForce s) h ▸ counted_only _
  exact (bellOutTick_only _ .sticky (by decide)).trans (counts .sticky (by decide))

/-- BELL_OUT is silent unless OD 0x2006 is 1 (R83). -/
theorem keeperEdge_none_silent {s : State} (h : odVal s 0x2006 0 ≠ 1) : (keeperEdge s none).out = s.out := by
  have frame := ((capInForce_only s).mono (by decide)).trans ((keeperAdvance_only _).mono (qs := [.bell, .milny, .sticky]) (by decide))
  have off : odVal (keeperAdvance (capInForce s)) 0x2006 0 ≠ 1 := by
    rwa [odVal_congr (frame .od (by decide)) (frame .ident (by decide))]
  rw [keeperEdge_none, bellOutTick, if_neg off]
  exact frame .out (by decide)

/-! ## What leaves the clock alone -/

/-- The bell count and the chimes of the present bell are as they were. -/
structure SameClock (s t : State) : Prop where
  count : t.bell.count = s.bell.count
  chime : t.bell.chime = s.bell.chime

theorem SameClock.refl (s : State) : SameClock s s := ⟨rfl, rfl⟩

theorem SameClock.trans {s t u : State} (a : SameClock s t) (b : SameClock t u) : SameClock s u :=
  ⟨b.count.trans a.count, b.chime.trans a.chime⟩

theorem SameClock.ite {s t u : State} {c : Prop} [Decidable c] (a : SameClock s t) (b : SameClock s u) :
    SameClock s (if c then t else u) := by split <;> assumption

theorem SameClock.foldl {α : Type} {f : State → α → State} (hf : ∀ s x, SameClock s (f s x)) (l : List α) (s : State) :
    SameClock s (l.foldl f s) := foldl_rel SameClock.refl (fun _ _ _ => .trans) hf l s

theorem sameClock_of_bell {s t : State} (h : t.bell = s.bell) : SameClock s t := ⟨by rw [h], by rw [h]⟩

/-- Work that stays within control leaves the bell keeper alone. -/
theorem Moves.sameClock {s t : State} (a : Moves .control s t) : SameClock s t := sameClock_of_bell (a.only .bell (by decide))

theorem bellLog_sameClock (s : State) (code unit old new : Nat) (detail : Int) : SameClock s (bellLog s code unit old new detail) := by
  obtain ⟨log, written, e⟩ := bellLog_bell s code unit old new detail
  constructor <;> rw [e]

theorem measure_sameClock (s : State) (ps : Int) : SameClock s (measure s ps) := by
  have measured (f : Int) (i o : Nat) : SameClock s { (drawFree s).2 with
      bell := { s.bell with phase := ps, freq := f, inBound := i, outBound := o } } := ⟨rfl, rfl⟩
  exact (measured _ _ _).trans (.ite (bellLog_sameClock ..) (.refl _))

theorem crossEdge_sameClock (s : State) (o : Nat × Nat) : SameClock s (crossEdge s o) := by
  have noted (u : State) : SameClock u { u with bell := { u.bell with
      overUnit := o.1, overBell := u.bell.count, overLate := o.2 } } := ⟨rfl, rfl⟩
  unfold crossEdge
  dsimp only
  refine .ite (.refl s) (.trans (unitMod_moves ..).sameClock (.ite ?_ (.refl _)))
  exact .trans (Moves.sameClock (count_moves ..)) (.trans (bellLog_sameClock ..) (noted _))

theorem overrunTick_sameClock (s : State) (overruns : List (Nat × Nat)) (planLateNs : Nat) :
    SameClock s (overrunTick s overruns planLateNs) := by
  have units (u : State) (x : Table UnitSt) : SameClock u { u with units := x } := ⟨rfl, rfl⟩
  have dropped (l : List Nat) : SameClock s (l.foldl dropPlan s) := .foldl (fun _ _ => (dropPlan_moves ..).sameClock) l s
  unfold overrunTick
  exact .trans (.ite (.refl s) ((dropped _).trans ((dropDiePlans_moves _).sameClock.trans (bellLog_sameClock ..))))
    ((units _ _).trans (.foldl crossEdge_sameClock ..))

theorem controllerReset_sameClock (s : State) (kind : Nat) : SameClock s (controllerReset s kind) := by
  unfold controllerReset
  dsimp only
  refine .trans ?_ (Moves.sameClock (count_moves ..))
  refine .trans ?_ (releasePenOf_moves ..).sameClock
  refine .trans ?_ (unitMod_moves ..).sameClock
  refine .trans ?_ (featuresReset_moves ..).sameClock
  exact sameClock_of_bell rfl

/-- A warm reset leaves the always-on domain's bell as it runs (R357). -/
theorem warmReset_sameClock (s : State) (cause cls : Nat) : SameClock s (warmReset s cause cls) := by
  have ended (u : State) : SameClock u (endEverything u) := ⟨rfl, rfl⟩
  have ends (r : Record) : SameClock s (endEverything (abandonLines (raiseRecord s r))) :=
    (Moves.sameClock (raiseRecord_moves s r)).trans ((Moves.sameClock (abandonLines_moves _)).trans (ended _))
  unfold warmReset
  dsimp only
  refine .trans ?_ (Moves.sameClock (count_moves ..))
  refine .trans ?_ (transition_moves ..).sameClock
  exact ⟨(ends _).count, (ends _).chime⟩

theorem enterFault_sameClock (s : State) : SameClock s (enterFault s) := by
  have entered (d : Device) (h : HostSide) (x : Update) :
      SameClock s { releaseHeld (transition (portsDown s) .fault 10 true) with dev := d, host := h, update := x } := ⟨rfl, rfl⟩
  unfold enterFault
  dsimp only
  split
  · exact (entered _ _ _).trans (warmReset_sameClock ..)
  · exact (entered _ _ _).trans (.ite (controllerReset_sameClock ..) (.refl _))

theorem settleFault_sameClock (s : State) : SameClock s (settleFault s) := .ite (enterFault_sameClock s) (.refl s)

/-- What the main domain does at an edge, the overruns and a fault that waited for it among it, leaves the count. -/
theorem mainEdge_sameClock (s : State) (overruns : List (Nat × Nat)) (planLateNs : Nat) :
    SameClock s (mainEdge s overruns planLateNs) :=
  .trans (Moves.sameClock (ageAll_moves ..)) <| .trans (overrunTick_sameClock ..) <| .trans (drawBudget_moves ..).sameClock <|
    .trans (loomsTick_moves ..).sameClock <| .trans (diesTick_moves ..).sameClock <| .trans (Moves.sameClock (creditTick_moves ..)) <|
      .trans (timesTick_moves ..).sameClock <| .trans (checkCaps_moves ..).sameClock <| .trans (Moves.sameClock (thermalTick_moves ..)) <|
        .trans (mapTick_moves ..).sameClock <| .trans (Moves.sameClock (portsTick_moves ..)) <|
          .trans (chooseTarget_moves ..).sameClock <| .trans (settleFault_sameClock ..) (sameClock_of_bell (copyEdge_only _ .bell (by decide)))

theorem keeperEdge_sameClock (s : State) (ps : Option Int) : SameClock (keeperAdvance (capInForce s)) (keeperEdge s ps) := by
  have unmeasured : SameClock (keeperAdvance (capInForce s)) (keeperEdge s none) := sameClock_of_bell (keeperEdge_none_bell s)
  cases ps with
  | none => exact unmeasured
  | some ps =>
    rw [keeperEdge_some]
    exact unmeasured.trans (.ite (measure_sameClock ..) (.refl _))

/-! ## BELL_EDGE -/

theorem stopped_keeperEdge (s : State) (ps : Option Int) : stopped (keeperEdge s ps) = stopped s :=
  stopped_congr (keeperEdge_only s ps .dev (by decide))

theorem bellEdge_running {s : State} (on : s.rails.alwaysOn = true) (up : stopped s = false) (ov : List (Nat × Nat)) (late : Nat)
    (ps : Option Int) : exec (.bellEdge ov late ps) s = .next (mainEdge (keeperEdge s ps) ov late) := by
  simp [exec, execBellEdge, on, stopped_keeperEdge, up]

theorem bellEdge_stopped {s : State} (on : s.rails.alwaysOn = true) (down : stopped s = true) (ov : List (Nat × Nat)) (late : Nat)
    (ps : Option Int) : exec (.bellEdge ov late ps) s = .next (keeperEdge s ps) := by
  simp [exec, execBellEdge, on, stopped_keeperEdge, down]

end Sys2Proof.Machine

open Sys2Proof Sys2Proof.Machine in
/-- Settles O7: the keeper counts the edge, and whatever the main domain does at it leaves the clock. -/
theorem bellEdgeAdvancesTheCount : Obligations.BellEdgeAdvancesTheCount := by
  refine ⟨fun s ov late ps on up => ?_, fun s ov late on down => ?_⟩
  · have clock := (keeperEdge_sameClock s ps).trans (mainEdge_sameClock (keeperEdge s ps) ov late)
    exact ⟨_, bellEdge_running on up ov late ps, rfl, clock.count.trans (keeperAdvance_count (capInForce s)),
      clock.chime.trans (keeperAdvance_chime _)⟩
  · have bell := keeperEdge_none_bell s
    refine ⟨_, bellEdge_stopped on down ov late none, ?_, ?_, ?_, keeperEdge_none_only s, keeperEdge_none_sticky, keeperEdge_none_silent⟩
    · rw [bell]; exact keeperAdvance_count (capInForce s)
    · rw [bell]; exact keeperAdvance_chime _
    · rw [bell]; exact keeperAdvance_ticks _

end

section
/-!
The sources of the bell (R75 to R77, R80, R82, R83): what following another source, the end of a qualification and a change of alignment
make of the keeper, and what they leave (O24).
-/

namespace Sys2Proof.Machine

/-! ## What the keeper's operations leave -/

/-- The bell count and the state of either source are as they were. -/
structure SameSources (s t : State) : Prop where
  count : t.bell.count = s.bell.count
  bellIn : t.bell.bellIn = s.bell.bellIn
  guild : t.bell.guild = s.bell.guild

theorem SameSources.trans {s t u : State} (a : SameSources s t) (b : SameSources t u) : SameSources s u :=
  ⟨b.count.trans a.count, b.bellIn.trans a.bellIn, b.guild.trans a.guild⟩

theorem bellLog_followed (s : State) (code unit old new : Nat) (detail : Int) :
    (bellLog s code unit old new detail).bell.followed = s.bell.followed := by
  obtain ⟨log, written, e⟩ := bellLog_bell s code unit old new detail
  rw [e]

theorem bellLog_sources (s : State) (code unit old new : Nat) (detail : Int) : SameSources s (bellLog s code unit old new detail) := by
  obtain ⟨log, written, e⟩ := bellLog_bell s code unit old new detail
  constructor <;> rw [e]

theorem bellLog_newest (s : State) (code unit old new : Nat) (detail : Int) :
    (bellLog s code unit old new detail).bell.log.getLast? = some ⟨s.bell.count, code, unit, old, new, detail⟩ := by
  unfold bellLog
  dsimp only
  rw [List.getLast?_drop, if_neg (by simp only [List.length_append, List.length_singleton]; omega), List.getLast?_concat]

/-! ## Alignment states (R80) -/

theorem setAlign_only (s : State) (a : Align) (lost : Nat) : OnlyChanges [.bell, .host, .sticky] s (setAlign s a lost) := by
  have logged (u o n : Nat) (d : Int) : OnlyChanges [.bell, .host, .sticky] s (bellLog s 5 u o n d) := (bellLog_only _ _ _ _ _ _).mono (by decide)
  have recorded (t : State) (r : Record) : OnlyChanges [.bell, .host, .sticky] t (raiseRecord t r) := (raiseRecord_only t r).mono (by decide)
  have event (t : State) (k : Nat) : OnlyChanges [.bell, .host, .sticky] t (raiseEvent t k) := (raiseEvent_only t k).mono (by decide)
  unfold setAlign
  dsimp only
  refine .ite (.refl _ s) (.trans ?_ (.trans ((only_bell _ _).mono (by decide)) (.ite (event _ _) (.refl _ _))))
  split
  · exact (logged _ _ _ _).trans (recorded _ _)
  · exact (logged _ _ _ _).trans (.ite (recorded _ _) (.refl _ _))
  · exact logged _ _ _ _

/-- The keeper at a change of alignment: the state is the new one, the counts of measurements begin again, and the log has an entry more. -/
theorem setAlign_bell {s : State} {a : Align} (lost : Nat) (h : s.bell.align ≠ a) : ∃ log written, (setAlign s a lost).bell =
    { s.bell with align := a, inBound := 0, outBound := 0, holdover := 0, log := log, logWritten := written } := by
  have event (t : State) (k : Nat) : (raiseEvent t k).bell = t.bell := raiseEvent_only t k .bell (by decide)
  have recorded (t : State) (r : Record) : (raiseRecord t r).bell = t.bell := raiseRecord_only t r .bell (by decide)
  obtain ⟨log, written, e⟩ := bellLog_bell s 5 (alignUnit s) s.bell.align.code a.code s.bell.phase
  refine ⟨log, written, ?_⟩
  unfold setAlign
  rw [if_neg h]
  dsimp only
  rw [apply_ite State.bell, event, ite_self]
  cases a <;> simp only [apply_ite State.bell, recorded, ite_self, e]

theorem setAlign_align (s : State) (a : Align) (lost : Nat) : (setAlign s a lost).bell.align = a := by
  by_cases h : s.bell.align = a
  · rw [setAlign, if_pos h, h]
  · obtain ⟨log, written, e⟩ := setAlign_bell lost h
    rw [e]

/-- Beside the alignment and the log nothing of the keeper changes with the alignment state. -/
theorem setAlign_keeps (s : State) (a : Align) (lost : Nat) :
    { (setAlign s a lost).bell with
      align := s.bell.align, inBound := s.bell.inBound, outBound := s.bell.outBound, holdover := s.bell.holdover, log := s.bell.log
      logWritten := s.bell.logWritten } = s.bell := by
  by_cases h : s.bell.align = a
  · rw [setAlign, if_pos h]
  · obtain ⟨log, written, e⟩ := setAlign_bell lost h
    rw [e]

theorem setAlign_sources (s : State) (a : Align) (lost : Nat) : SameSources s (setAlign s a lost) := by
  have e := setAlign_keeps s a lost
  exact ⟨(congrArg Bell.count e :), (congrArg Bell.bellIn e :), (congrArg Bell.guild e :)⟩

/-! ## Taking up a source (R77) -/

theorem periodNs_pos (s : State) : 0 < periodNs s := by
  unfold periodNs periodOf
  split <;> decide

theorem periodNs_congr {s t : State} (hod : t.od = s.od) (hid : t.ident = s.ident) : periodNs t = periodNs s := by
  simp only [periodNs, odVal_congr hod hid]

theorem takeUp_slews {s : State} {cnt : Nat} {e : Int} (hc : cnt = s.bell.count) (hq : e.natAbs * 4 ≤ periodNs s) :
    takeUp s cnt e = { s with bell := { s.bell with phase := e * 1000, slewPs := e * 1000, step := none } } := if_pos ⟨hc, hq⟩

/-- The count of the source at the end of the stretched bell: the source is `e / p` whole bells behind its count one edge on. -/
theorem stretched_bells {p : Int} (hp : 0 < p) (e : Int) : (p + e % p - e) / p = 1 - e / p := by
  have whole : p + e % p - e = p * (1 - e / p) := by
    have := Int.emod_add_mul_ediv e p
    rw [mul_sub, mul_one]
    omega
  rw [whole, Int.mul_ediv_cancel_left _ (by omega)]

theorem takeUp_steps {s : State} {cnt : Nat} {e : Int} (h : cnt ≠ s.bell.count ∨ periodNs s < e.natAbs * 4) :
    (takeUp s cnt e).bell.slewPs = 0 ∧ (takeUp s cnt e).bell.step =
      some ((e % (periodNs s : Int)).toNat, (((cnt : Int) + 1 - e / (periodNs s : Int)) % 2 ^ 64).toNat) := by
  have far : ¬(cnt = s.bell.count ∧ e.natAbs * 4 ≤ periodNs s) := fun ⟨hc, hq⟩ => h.elim (fun n => n hc) (fun n => absurd hq (by omega))
  have there : (cnt : Int) + (periodNs s + e % (periodNs s : Int) - e) / (periodNs s : Int) = cnt + 1 - e / (periodNs s : Int) := by
    rw [stretched_bells (by exact_mod_cast periodNs_pos s)]
    omega
  rw [takeUp, if_neg far, ← there]
  exact ⟨rfl, rfl⟩

theorem takeUp_only (s : State) (cnt : Nat) (e : Int) : OnlyChanges [.bell] s (takeUp s cnt e) := by
  unfold takeUp
  exact .ite (only_bell _ _) ((only_bell _ _).trans (bellLog_only _ _ _ _ _ _))

/-- Beside the phase, the slew, the step and the log nothing of the keeper changes as a source is taken up. -/
theorem takeUp_keeps (s : State) (cnt : Nat) (e : Int) :
    { (takeUp s cnt e).bell with
      phase := s.bell.phase, slewPs := s.bell.slewPs, step := s.bell.step, log := s.bell.log, logWritten := s.bell.logWritten } = s.bell := by
  unfold takeUp
  split <;> rfl

/-! ## Following another source (R75) -/

/-- The keeper has turned to the source `src`: the log says so, and what was to be slewed against the old one is dropped. -/
def turned (s : State) (src : Nat) : State :=
  let u := bellLog s 4 0 s.bell.followed src 0
  { u with bell := { u.bell with followed := src, hadSource := u.bell.hadSource || decide (src ≠ 0), slewPs := 0 } }

theorem turned_sources (s : State) (src : Nat) : SameSources s (turned s src) := by
  have follows (u : State) (had : Bool) : SameSources u { u with bell := { u.bell with followed := src, hadSource := had, slewPs := 0 } } :=
    ⟨rfl, rfl, rfl⟩
  exact (bellLog_sources s 4 0 s.bell.followed src 0).trans (follows _ _)

theorem turned_only (s : State) (src : Nat) : OnlyChanges [.bell] s (turned s src) := (bellLog_only _ _ _ _ _ _).trans (only_bell _ _)

theorem followSource_oscillator {s : State} (h : s.bell.followed ≠ 0) (cnt : Nat) (e : Int) :
    followSource s 0 cnt e = setAlign (turned s 0) .holdover s.bell.followed := if_neg (Ne.symm h)

theorem followSource_source {s : State} {src : Nat} (h : s.bell.followed ≠ src) (h0 : src ≠ 0) (cnt : Nat) (e : Int) :
    followSource s src cnt e = setAlign (takeUp (turned s src) cnt e) .acquire s.bell.followed :=
  (if_neg (Ne.symm h)).trans (if_neg h0)

theorem followSource_only (s : State) (src cnt : Nat) (e : Int) : OnlyChanges [.bell, .host, .sticky] s (followSource s src cnt e) := by
  have turns : OnlyChanges [.bell, .host, .sticky] s (turned s src) := (turned_only s src).mono (by decide)
  exact .ite (.refl _ s) (.ite (turns.trans (setAlign_only _ _ _))
    (turns.trans (((takeUp_only _ cnt e).mono (by decide)).trans (setAlign_only _ _ _))))

/-- The oscillator is followed in HOLDOVER, the sources as they were. -/
theorem followSource_oscillator_bell {s : State} (h : s.bell.followed ≠ 0) (cnt : Nat) (e : Int) :
    (followSource s 0 cnt e).bell.followed = 0 ∧ (followSource s 0 cnt e).bell.align = .holdover ∧
      SameSources s (followSource s 0 cnt e) := by
  rw [followSource_oscillator h]
  have keeps := setAlign_keeps (turned s 0) .holdover s.bell.followed
  exact ⟨(congrArg Bell.followed keeps :), setAlign_align .., (turned_sources s 0).trans (setAlign_sources ..)⟩

/-- Another source is followed in ACQUIRE and taken up, the sources as they were. -/
theorem followSource_source_bell {s : State} {src : Nat} (h : s.bell.followed ≠ src) (h0 : src ≠ 0) (cnt : Nat) (e : Int) :
    (followSource s src cnt e).bell.followed = src ∧ (followSource s src cnt e).bell.hadSource = true ∧
      (followSource s src cnt e).bell.align = .acquire ∧ SameSources s (followSource s src cnt e) := by
  rw [followSource_source h h0]
  have takes := takeUp_keeps (turned s src) cnt e
  have keeps := setAlign_keeps (takeUp (turned s src) cnt e) .acquire s.bell.followed
  have had : (turned s src).bell.hadSource = true := by simp [turned, h0]
  have taken : SameSources (turned s src) (takeUp (turned s src) cnt e) :=
    ⟨(congrArg Bell.count takes :), (congrArg Bell.bellIn takes :), (congrArg Bell.guild takes :)⟩
  exact ⟨(congrArg Bell.followed keeps).trans (congrArg Bell.followed takes :),
    ((congrArg Bell.hadSource keeps).trans (congrArg Bell.hadSource takes :)).trans had, setAlign_align ..,
    (turned_sources s src).trans (taken.trans (setAlign_sources ..))⟩

/-- What is slewed and what step is set is what the take-up says. -/
theorem followSource_slew_step {s : State} {src : Nat} (h : s.bell.followed ≠ src) (h0 : src ≠ 0) (cnt : Nat) (e : Int) :
    (followSource s src cnt e).bell.slewPs = (takeUp (turned s src) cnt e).bell.slewPs ∧
      (followSource s src cnt e).bell.step = (takeUp (turned s src) cnt e).bell.step := by
  rw [followSource_source h h0]
  have keeps := setAlign_keeps (takeUp (turned s src) cnt e) .acquire s.bell.followed
  exact ⟨(congrArg Bell.slewPs keeps :), (congrArg Bell.step keeps :)⟩

/-! ## Which source is selectable (R75) -/

theorem selectable_guild_congr {s t : State} (hod : t.od = s.od) (hid : t.ident = s.ident) (hf : t.fabric = s.fabric)
    (hg : t.bell.guild = s.bell.guild) : selectable t 2 = selectable s 2 := by
  simp only [selectable, sourceEnabled, isRoot, odVal_congr hod hid, hid, hf, hg]

theorem selectable_bellIn_congr {s t : State} (hod : t.od = s.od) (hid : t.ident = s.ident)
    (hb : t.bell.bellIn = s.bell.bellIn) : selectable t 1 = selectable s 1 := by
  simp only [selectable, sourceEnabled, odVal_congr hod hid, hb]

theorem selectable_bellIn_unqualified {s : State} (h : s.bell.bellIn.qualified = false) : selectable s 1 = false := by
  simp [selectable, h]

theorem selectable_guild_unqualified {s : State} (h : s.bell.guild.qualified = false) : selectable s 2 = false := by
  simp [selectable, h]

theorem selectable_bestSource {s : State} {code : Nat} (h0 : code ≠ 0) (h : bestSource s = code) : selectable s code = true := by
  unfold bestSource at h
  split at h
  · next guild => rw [← h, guild]
  · split at h
    · next bellIn => rw [← h, bellIn]
    · exact absurd h.symm h0

/-! ## Losing a source (R75, R76) -/

theorem fallBack_of_ne {s : State} (h : bestSource s ≠ 1) : fallBack s = followSource s (bestSource s) s.bell.count 0 := if_neg h

/-- Falling back to BELL_IN draws its phase, and takes its count from its last frame. -/
theorem fallBack_bellIn {s : State} (h : bestSource s = 1) : fallBack s = followSource (drawFree s).2 1
    (((s.bell.count : Int) + s.bell.bellInAhead).toNat) (toInt 16 (drawFree s).1) := if_pos h

theorem fallBack_only (s : State) : OnlyChanges [.bell, .host, .sticky, .free] s (fallBack s) := by
  by_cases h : bestSource s = 1
  · rw [fallBack_bellIn h]
    exact ((drawFree_only s).mono (by decide)).trans ((followSource_only _ _ _ _).mono (by decide))
  · rw [fallBack_of_ne h]
    exact (followSource_only _ _ _ _).mono (by decide)

/-- BELL_IN is no longer qualified, and its frames begin anew. -/
def withoutBellIn (s : State) : State := { s with bell := { s.bell with bellIn := ⟨false, 0⟩, bellInLast := none, bellInGood := false } }

/-- The guild source is no longer qualified. -/
def withoutGuild (s : State) : State := { s with bell := { s.bell with guild := ⟨false, 0⟩, guildSince := 0 } }

theorem withoutBellIn_only (s : State) : OnlyChanges [.bell] s (withoutBellIn s) := only_bell _ _

theorem withoutBellIn_log (s : State) : (withoutBellIn s).bell.log = s.bell.log := rfl

theorem withoutGuild_only (s : State) : OnlyChanges [.bell] s (withoutGuild s) := only_bell _ _

theorem loseBellIn_other {s : State} (h : s.bell.followed ≠ 1) : loseBellIn s = withoutBellIn s := if_neg h

theorem loseGuild_other {s : State} (h : s.bell.followed ≠ 2) : loseGuild s = withoutGuild s := if_neg h

/-- Without BELL_IN the guild source is the best one where it is selectable, and else the oscillator. -/
theorem bestSource_withoutBellIn (s : State) : bestSource (withoutBellIn s) = if selectable s 2 then 2 else 0 := by
  have guild : selectable (withoutBellIn s) 2 = selectable s 2 := selectable_guild_congr rfl rfl rfl rfl
  rw [bestSource, guild, selectable_bellIn_unqualified (s := withoutBellIn s) rfl, if_neg Bool.false_ne_true]

/-- Without the guild source BELL_IN is the best one where it is selectable, and else the oscillator. -/
theorem bestSource_withoutGuild (s : State) : bestSource (withoutGuild s) = if selectable s 1 then 1 else 0 := by
  have bellIn : selectable (withoutGuild s) 1 = selectable s 1 := selectable_bellIn_congr rfl rfl rfl
  rw [bestSource, bellIn, selectable_guild_unqualified (s := withoutGuild s) rfl, if_neg Bool.false_ne_true]

theorem loseBellIn_followed {s : State} (h : s.bell.followed = 1) :
    loseBellIn s = followSource (withoutBellIn s) (if selectable s 2 then 2 else 0) s.bell.count 0 := by
  have best := bestSource_withoutBellIn s
  have other : bestSource (withoutBellIn s) ≠ 1 := by rw [best]; split <;> decide
  rw [← best]
  exact (if_pos h).trans (fallBack_of_ne other)

theorem loseGuild_followed {s : State} (h : s.bell.followed = 2) : loseGuild s = fallBack (withoutGuild s) := if_pos h

theorem loseBellIn_oscillator {s : State} (h : s.bell.followed = 1) (hs : selectable s 2 = false) :
    (loseBellIn s).bell.followed = 0 ∧ (loseBellIn s).bell.align = .holdover ∧ SameSources (withoutBellIn s) (loseBellIn s) := by
  have other : (withoutBellIn s).bell.followed ≠ 0 := fun e => absurd (h.symm.trans e) (by decide)
  rw [loseBellIn_followed h, if_neg (by rw [hs]; decide)]
  exact followSource_oscillator_bell other _ _

theorem loseBellIn_guild {s : State} (h : s.bell.followed = 1) (hs : selectable s 2 = true) :
    (loseBellIn s).bell.followed = 2 ∧ (loseBellIn s).bell.align = .acquire ∧ SameSources (withoutBellIn s) (loseBellIn s) := by
  have other : (withoutBellIn s).bell.followed ≠ 2 := fun e => absurd (h.symm.trans e) (by decide)
  rw [loseBellIn_followed h, if_pos hs]
  obtain ⟨followed, -, align, sources⟩ := followSource_source_bell other (by decide) s.bell.count 0
  exact ⟨followed, align, sources⟩

theorem loseBellIn_sources (s : State) : SameSources (withoutBellIn s) (loseBellIn s) := by
  by_cases h : s.bell.followed = 1
  · cases hs : selectable s 2 with
    | false => obtain ⟨-, -, sources⟩ := loseBellIn_oscillator h hs; exact sources
    | true => obtain ⟨-, -, sources⟩ := loseBellIn_guild h hs; exact sources
  · rw [loseBellIn_other h]
    exact ⟨rfl, rfl, rfl⟩

theorem loseBellIn_only (s : State) : OnlyChanges [.bell, .host, .sticky] s (loseBellIn s) := by
  by_cases h : s.bell.followed = 1
  · rw [loseBellIn_followed h]
    exact ((withoutBellIn_only s).mono (by decide)).trans (followSource_only _ _ _ _)
  · rw [loseBellIn_other h]
    exact (withoutBellIn_only s).mono (by decide)

theorem loseGuild_oscillator {s : State} (h : s.bell.followed = 2) (hs : selectable s 1 = false) :
    (loseGuild s).bell.followed = 0 ∧ (loseGuild s).bell.align = .holdover ∧ SameSources (withoutGuild s) (loseGuild s) := by
  have best : bestSource (withoutGuild s) = 0 := by rw [bestSource_withoutGuild, hs]; rfl
  have other : (withoutGuild s).bell.followed ≠ 0 := fun e => absurd (h.symm.trans e) (by decide)
  rw [loseGuild_followed h, fallBack_of_ne (by rw [best]; decide), best]
  exact followSource_oscillator_bell other _ _

theorem loseGuild_bellIn {s : State} (h : s.bell.followed = 2) (hs : selectable s 1 = true) :
    (loseGuild s).bell.followed = 1 ∧ (loseGuild s).bell.align = .acquire ∧ SameSources (withoutGuild s) (loseGuild s) := by
  have best : bestSource (withoutGuild s) = 1 := by rw [bestSource_withoutGuild, hs]; rfl
  have other : (drawFree (withoutGuild s)).2.bell.followed ≠ 1 := fun e => absurd (h.symm.trans e) (by decide)
  rw [loseGuild_followed h, fallBack_bellIn best]
  obtain ⟨followed, -, align, count, bellIn, guild⟩ := followSource_source_bell other (by decide) _ _
  exact ⟨followed, align, count, bellIn, guild⟩

theorem loseGuild_sources (s : State) : SameSources (withoutGuild s) (loseGuild s) := by
  by_cases h : s.bell.followed = 2
  · cases hs : selectable s 1 with
    | false => obtain ⟨-, -, sources⟩ := loseGuild_oscillator h hs; exact sources
    | true => obtain ⟨-, -, sources⟩ := loseGuild_bellIn h hs; exact sources
  · rw [loseGuild_other h]
    exact ⟨rfl, rfl, rfl⟩

theorem loseGuild_only (s : State) : OnlyChanges [.bell, .host, .sticky, .free] s (loseGuild s) := by
  by_cases h : s.bell.followed = 2
  · rw [loseGuild_followed h]
    exact ((withoutGuild_only s).mono (by decide)).trans (fallBack_only _)
  · rw [loseGuild_other h]
    exact (withoutGuild_only s).mono (by decide)

/-! ## SOURCE_QUALIFIED -/

/-- The phase error that a source is taken up with: of BELL_IN less the delay of OD 0x2007 (R83). -/
theorem sourceQualified_follows {s : State} {src : BellSource} {code : Nat} (on : s.rails.alwaysOn = true)
    (hc : code = (match src with | .guild => 2 | .bellIn => 1)) (best : bestSource s = code) (cnt : Nat) (ph : Int) :
    exec (.sourceQualified src cnt ph) s =
      .next (followSource s code cnt (if code = 1 then ph - (odVal s 0x2007 0 : Int) else ph)) := by
  have sel : selectable s code = true := selectable_bestSource (by cases src <;> simp [hc]) best
  cases src <;> subst hc <;> simp [exec, execSourceQualified, on, sel, best, bellInPhase]

/-- A source that is followed anew, by a slew or by a step of the bell (R77). -/
theorem followSource_takesUp {s : State} {src : Nat} (h : s.bell.followed ≠ src) (h0 : src ≠ 0) (cnt : Nat) (e : Int) :
    (cnt = s.bell.count → e.natAbs * 4 ≤ periodNs s →
      (followSource s src cnt e).bell.slewPs = e * 1000 ∧ (followSource s src cnt e).bell.step = none) ∧
    (cnt ≠ s.bell.count ∨ periodNs s < e.natAbs * 4 → (followSource s src cnt e).bell.slewPs = 0 ∧
      (followSource s src cnt e).bell.step =
        some ((e % (periodNs s : Int)).toNat, (((cnt : Int) + 1 - e / (periodNs s : Int)) % 2 ^ 64).toNat)) := by
  obtain ⟨slew, step⟩ := followSource_slew_step h h0 cnt e
  have period : periodNs (turned s src) = periodNs s :=
    periodNs_congr (turned_only s src .od (by decide)) (turned_only s src .ident (by decide))
  rw [slew, step, ← period, ← (turned_sources s src).count]
  refine ⟨fun hc hq => ?_, fun far => takeUp_steps (s := turned s src) far⟩
  rw [takeUp_slews (s := turned s src) hc hq]
  exact ⟨rfl, rfl⟩

/-! ## BELL_IN_FRAME -/

/-- The keeper has noted a frame of BELL_IN and whether it was a good one (R76, R82). -/
def frameNoted (s : State) (n : Nat) (good : Bool) : State :=
  { s with bell := { s.bell with
      bellInLast := some n, bellInGood := good, bellInCount := n, bellInAhead := (n : Int) + 64 - (s.bell.count : Int) } }

theorem frameNoted_keeps (s : State) (n : Nat) (good : Bool) :
    (frameNoted s n good).bell.bellIn = s.bell.bellIn ∧ (frameNoted s n good).bell.log = s.bell.log := ⟨rfl, rfl⟩

theorem bellInFrame_agrees {s : State} {c : Nat} (on : s.rails.alwaysOn = true) (last : s.bell.bellInLast = some c)
    (good : s.bell.bellInGood = true) (hc : c % 64 = 0) : exec (.bellInFrame (c + 64) true) s =
      .next { frameNoted s (c + 64) true with bell := { (frameNoted s (c + 64) true).bell with
        bellIn := { s.bell.bellIn with qualified := true } } } := by
  simp [exec, execBellInFrame, on, last, good, hc, frameNoted]

/-- What a frame that does not agree with the one before it leaves: an entry of the log, and no qualification. -/
def disagreed (s : State) (n : Nat) (good : Bool) : State :=
  frameNoted (if s.bell.bellIn.qualified then loseBellIn (bellLog s 9 0 0 0 n) else bellLog s 9 0 0 0 n) n good

theorem bellInFrame_disagrees {s : State} {c n : Nat} (ok : Bool) (on : s.rails.alwaysOn = true) (last : s.bell.bellInLast = some c)
    (hn : n ≠ c + 64) : exec (.bellInFrame n ok) s = .next (disagreed s n (ok && decide (n % 64 = 0))) := by
  have disagrees : (decide (s.bell.bellInLast = some (n - 64)) && decide (64 ≤ n)) = false := by
    simp only [last, Option.some.injEq, Bool.and_eq_false_iff, decide_eq_false_iff_not]
    omega
  have off : ¬(!s.rails.alwaysOn) = true := by simp [on]
  refine (if_neg off).trans ?_
  simp only [disagrees]
  simp [last, disagreed, frameNoted]

theorem disagreed_qualified {s : State} (q : s.bell.bellIn.qualified = true) (other : s.bell.followed ≠ 1) (n : Nat) (good : Bool) :
    disagreed s n good = frameNoted (withoutBellIn (bellLog s 9 0 0 0 n)) n good := by
  have elsewhere : (bellLog s 9 0 0 0 n).bell.followed ≠ 1 := by rwa [bellLog_followed]
  rw [disagreed, if_pos q, loseBellIn_other elsewhere]

theorem disagreed_unqualified {s : State} (q : s.bell.bellIn.qualified = false) (n : Nat) (good : Bool) :
    disagreed s n good = frameNoted (bellLog s 9 0 0 0 n) n good := by
  rw [disagreed, if_neg (by rw [q]; decide)]

/-- The disagreeing frame of a source that is not followed (R76, R82): event 9 is logged, and a qualification is gone. -/
theorem disagreed_leaves {s : State} (other : s.bell.followed ≠ 1) (n : Nat) (good : Bool) :
    (s.bell.bellIn.qualified = true → (disagreed s n good).bell.bellIn = ⟨false, 0⟩) ∧
    (s.bell.bellIn.qualified = false → (disagreed s n good).bell.bellIn = s.bell.bellIn) ∧
    (disagreed s n good).bell.bellInLast = some n ∧
    (disagreed s n good).bell.log.getLast? = some ⟨s.bell.count, 9, 0, 0, 0, n⟩ ∧ OnlyChanges [.bell] s (disagreed s n good) := by
  have logged := bellLog_newest s 9 0 0 0 n
  have changed := bellLog_only s 9 0 0 0 n
  cases q : s.bell.bellIn.qualified with
  | false =>
    obtain ⟨kept, log⟩ := frameNoted_keeps (bellLog s 9 0 0 0 n) n good
    rw [disagreed_unqualified q, kept, log]
    exact ⟨nofun, fun _ => (bellLog_sources s 9 0 0 0 n).bellIn, rfl, logged, changed.trans (only_bell _ _)⟩
  | true =>
    obtain ⟨kept, log⟩ := frameNoted_keeps (withoutBellIn (bellLog s 9 0 0 0 n)) n good
    rw [disagreed_qualified q other, kept, log, withoutBellIn_log]
    exact ⟨fun _ => rfl, nofun, rfl, logged, changed.trans ((withoutBellIn_only _).trans (only_bell _ _))⟩

/-! ## Losses and alignment -/

theorem bellInLost_loses {s : State} (on : s.rails.alwaysOn = true) (q : s.bell.bellIn.qualified = true) (oc : Bool) :
    exec (.bellInLost oc) s = .next (loseBellIn s) := by
  simp [exec, execBellInLost, on, q]

theorem guildSourceLost_loses {s : State} {oc : Bool} (on : s.rails.alwaysOn = true) (q : s.bell.guild.qualified = true)
    (due : oc = true ∨ 64 ≤ s.bell.guildSince) : exec (.guildSourceLost oc) s = .next (loseGuild s) := by
  have kept : ¬(oc = false ∧ s.bell.guildSince < 64) := by rintro ⟨rfl, h⟩; simp at due; omega
  simp [exec, execGuildSourceLost, on, q, kept]

theorem flood_holdoverPaused (s : State) (except : Option Nat) (k : Control) (data : List Nat) :
    (flood s except k data).fabric.holdoverPaused = s.fabric.holdoverPaused :=
  foldl_rel (R := fun s t => t.fabric.holdoverPaused = s.fabric.holdoverPaused) (fun _ => rfl) (fun _ _ _ a b => b.trans a)
    (fun s p => by unfold sendControl sendPart; dsimp only; split <;> rfl) _ s

theorem setMember_holdoverPaused (s : State) (m : MemberSt) : (setMember s m).fabric.holdoverPaused = s.fabric.holdoverPaused := by
  have event (t : State) : (raiseEvent t 5).fabric = t.fabric := raiseEvent_only t 5 .fabric (by decide)
  unfold setMember
  split
  · rfl
  · rw [event]; rfl

theorem resumeMember_holdoverPaused (s : State) : (resumeMember s).fabric.holdoverPaused = s.fabric.holdoverPaused := by
  unfold resumeMember
  split
  · exact (flood_holdoverPaused ..).trans (setMember_holdoverPaused ..)
  · rfl

/-- The keeper is LOCKED, and a pause of holdover is over (R80, R301). -/
def locked (s : State) : State :=
  resumeMember { setAlign s .locked 0 with fabric := { (setAlign s .locked 0).fabric with holdoverPaused := false } }

theorem alignmentLocked_locks {s : State} (on : s.rails.alwaysOn = true) (ha : s.bell.align = .acquire) (hn : 16 ≤ s.bell.inBound) :
    exec .alignmentLocked s = .next (locked s) := by
  simp [exec, execAlignmentLocked, on, ha, not_lt.mpr hn, locked]

theorem locked_bell (s : State) : (locked s).bell = (setAlign s .locked 0).bell := resumeMember_only _ .bell (by decide)

theorem locked_only (s : State) : OnlyChanges [.bell, .host, .sticky, .fabric] s (locked s) :=
  ((setAlign_only s .locked 0).mono (by decide)).trans <| ((only_fabric _ _).mono (by decide)).trans <|
    (resumeMember_only _).mono (by decide)

theorem alignmentUnlocked_acquires {s : State} (on : s.rails.alwaysOn = true) (ha : s.bell.align = .locked) (hn : 16 ≤ s.bell.outBound) :
    exec .alignmentUnlocked s = .next (setAlign s .acquire 0) := by
  simp [exec, execAlignmentUnlocked, on, ha, not_lt.mpr hn]

end Sys2Proof.Machine

open Sys2Proof Sys2Proof.Machine in
/-- Settles O24: each event is one operation of the keeper, and what the operation leaves is said of it above. -/
theorem bellSourcesAreTakenUpAndLost : Obligations.BellSourcesAreTakenUpAndLost := by
  refine ⟨fun s src cnt ph code on hc best other => ?_, fun s c on last good hc => ?_, fun s c n ok on last hn other => ?_,
    fun s oc on q => ?_, fun s oc on q due => ?_, fun s on ha hn => ?_, fun s on ha hn => ?_⟩
  · have h0 : code ≠ 0 := by cases src <;> simp [hc]
    obtain ⟨followed, had, align, sources⟩ := followSource_source_bell other h0 cnt (if code = 1 then ph - (odVal s 0x2007 0 : Int) else ph)
    exact ⟨_, sourceQualified_follows on hc best cnt ph, followed, had, align, sources.count, followSource_takesUp other h0 cnt _,
      followSource_only _ _ _ _⟩
  · exact ⟨_, bellInFrame_agrees on last good hc, rfl, rfl, rfl, rfl, rfl, only_bell _ _⟩
  · exact ⟨_, bellInFrame_disagrees ok on last hn, disagreed_leaves other n _⟩
  · obtain ⟨count, bellIn, -⟩ := loseBellIn_sources s
    refine ⟨_, bellInLost_loses on q oc, bellIn, count, fun h => ?_, fun h hs => ?_, fun h hs => ?_, loseBellIn_only s⟩
    · rw [loseBellIn_other h]; exact ⟨rfl, withoutBellIn_only s⟩
    · obtain ⟨followed, align, -⟩ := loseBellIn_oscillator h hs; exact ⟨followed, align⟩
    · obtain ⟨followed, align, -⟩ := loseBellIn_guild h hs; exact ⟨followed, align⟩
  · obtain ⟨count, -, guild⟩ := loseGuild_sources s
    refine ⟨_, guildSourceLost_loses on q due, guild, count, fun h => ?_, fun h hs => ?_, fun h hs => ?_, loseGuild_only s⟩
    · rw [loseGuild_other h]; exact ⟨rfl, withoutGuild_only s⟩
    · obtain ⟨followed, align, -⟩ := loseGuild_oscillator h hs; exact ⟨followed, align⟩
    · obtain ⟨followed, align, -⟩ := loseGuild_bellIn h hs; exact ⟨followed, align⟩
  · have keeps := setAlign_keeps s .locked 0
    refine ⟨_, alignmentLocked_locks on ha hn, ?_, ?_, ?_, resumeMember_holdoverPaused _, (locked_only s).mono (by decide)⟩
    · rw [locked_bell, setAlign_align]
    · rw [locked_bell]; exact (congrArg Bell.count keeps :)
    · rw [locked_bell]; exact (congrArg Bell.phase keeps :)
  · obtain ⟨log, written, bell⟩ := setAlign_bell 0 (show s.bell.align ≠ .acquire by rw [ha]; decide)
    refine ⟨_, alignmentUnlocked_acquires on ha hn, ?_, ?_, ?_, setAlign_only _ _ _⟩ <;> rw [bell]

end

section
/-!
Log pages, the stored snapshot, event requests and the management bus (R84, R88, R106, R209, R312, R385, R396): what a read of a page
answers and leaves, and what the bus sends (O32).
-/

namespace Sys2Proof.Machine

open Host (Outcome)

/-! ## Pages and their free bytes -/

theorem drawBytes_only (s : State) (n : Nat) : OnlyChanges [.free] s (drawBytes s n).2 :=
  fun p h => by cases p <;> first | exact absurd (by decide) h | rfl

theorem drawBytes_congr {s t : State} (h : t.free = s.free) (n : Nat) : (drawBytes t n).1 = (drawBytes s n).1 := by
  simp only [drawBytes, h]

theorem freePage_only (s : State) (n : Nat) (fields : List (Nat × Bytes)) : OnlyChanges [.free] s (freePage s n fields).2 :=
  drawBytes_only s n

theorem length_le_patch (bs : Bytes) (off : Nat) (new : Bytes) : bs.length ≤ (patch bs off new).length := by
  simp only [patch, List.length_append, List.length_take, List.length_drop]
  omega

/-- Fields put into a page leave it at least as long. -/
theorem length_le_patchAll (bs : Bytes) (fields : List (Nat × Bytes)) : bs.length ≤ (patchAll bs fields).length := by
  induction fields generalizing bs with
  | nil => exact Nat.le_refl _
  | cons f fields ih => exact (length_le_patch bs f.1 f.2).trans (ih _)

theorem le_length_freePage (s : State) (n : Nat) (fields : List (Nat × Bytes)) : n ≤ (freePage s n fields).1.length := by
  have drawn : (drawBytes s n).1.length = n := by simp [drawBytes]
  exact drawn.symm.le.trans (length_le_patchAll _ fields)

/-- A read within the page takes its bytes, and draws none. -/
theorem pageOut_inside {page : Bytes} {off len : Nat} (s : State) (h : off + len ≤ page.length) :
    pageOut s page off len = ((page.drop off).take len, s) := by
  have whole : len - ((page.drop off).take len).length = 0 := by
    simp only [List.length_take, List.length_drop]
    omega
  unfold pageOut
  dsimp only
  rw [whole]
  exact Prod.ext (List.append_nil _) rfl

theorem logOut_inside {page : Bytes} {off len : Nat} (s : State) (i : Nat) (h : HostId) (lid : Nat) (rae : Bool)
    (inside : off + len ≤ page.length) : logOut s i h lid page off len rae =
      finishData (pageRead s lid rae) i .success 0 0 ((page.drop off).take len) false := by
  rw [logOut, if_neg (by omega), pageOut_inside s inside]
  rfl

/-! ## A page is read (R106) -/

/-- The host side as reading page `lid` leaves it: its codes are armed, and events of them that wait are dropped. -/
def armedHost (x : HostSide) (lid : Nat) : HostSide :=
  { x with
    masked := x.masked.filter (fun c => eventPage c ≠ lid)
    pendingEvents := x.pendingEvents.filter (fun c => eventPage c ≠ lid) }

theorem pageRead_retained (s : State) (lid : Nat) : pageRead s lid true = s := rfl

theorem pageRead_armed (s : State) (lid : Nat) : pageRead s lid false = { s with host := armedHost s.host lid } := rfl

theorem pageRead_tally (s : State) (lid : Nat) (rae : Bool) : (pageRead s lid rae).tally = s.tally := by
  cases rae <;> rfl

/-- An update of the host side disturbs nothing, where the host side is listed. -/
theorem host_undisturbed {ps : List Part} (s : State) (x : HostSide) (h : .host ∈ ps) : Undisturbed ps s { s with host := x } :=
  ⟨(only_host s x).mono (List.cons_subset.mpr ⟨List.mem_append_left _ h, List.nil_subset _⟩), rfl, rfl, rfl, fun n => absurd h n⟩

theorem pageRead_undisturbed {ps : List Part} (s : State) (lid : Nat) (rae : Bool) (h : .host ∈ ps) :
    Undisturbed ps s (pageRead s lid rae) := by
  cases rae with
  | true => exact .refl ps s
  | false => exact host_undisturbed s _ h

theorem onlyPostings_congr {s u t : State} (h : u.host = s.host) (a : OnlyPostings u t) : OnlyPostings s t := by
  unfold OnlyPostings at a ⊢
  rw [← h]
  exact a

/-- An admin command that runs completes with the data and status that end it, whatever else its service did meanwhile. -/
theorem AdminTurn.answers {s u : State} {h : HostId} {i : Nat} (t : AdminTurn s h i) (hu : u.tally = (setRunning s i).tally) (st : Status)
    (dw0 dw1 : Nat) (data : Bytes) : Completes s (finishData u i st dw0 dw1 data false) 0 h.cid data st dw0 dw1 := by
  obtain ⟨e, he, ho, -, -⟩ := t.fresh
  obtain ⟨d, hd⟩ := entryAt_setRunning he
  have found := t.found
  rw [t.sq] at found ho
  exact ends_finishData found ((entryAt_congr hu i).trans hd) ho (by simp) st dw0 dw1 data false

/-- The read of a page by a command that runs: the bytes asked for and success; of the drive only the host side and the free values
differ. -/
theorem logOut_reads {s u : State} {h : HostId} {i : Nat} (t : AdminTurn s h i) (hu : OnlyChanges [.free] (setRunning s i) u) {page : Bytes}
    {off len : Nat} (lid : Nat) (rae : Bool) (inside : off + len ≤ page.length) :
    Completes s (logOut u i h lid page off len rae) 0 h.cid ((page.drop off).take len) .success 0 0 ∧
      Undisturbed [.host, .free] s (logOut u i h lid page off len rae) := by
  rw [logOut_inside u i h lid rae inside]
  refine ⟨t.answers ((pageRead_tally ..).trans (hu .tally (by decide))) .success 0 0 _, ?_⟩
  have runs := (setRunning_undisturbed s i).mono (qs := [.host, .free]) (List.nil_subset _)
  exact runs.trans <| hu.undisturbed.trans <| (pageRead_undisturbed u lid rae (by decide)).trans <|
    (finishData_undisturbed ..).mono (List.nil_subset _)

/-- What reading a page leaves of the host side, with Retain Asynchronous Event set and clear (R106). -/
theorem logOut_arms (s : State) (i : Nat) (h : HostId) (lid : Nat) {page : Bytes} {off len : Nat} (rae : Bool)
    (inside : off + len ≤ page.length) :
    (rae = true → OnlyPostings s (logOut (setRunning s i) i h lid page off len rae)) ∧
    (rae = false → OnlyPostings { s with host := armedHost s.host lid } (logOut (setRunning s i) i h lid page off len rae)) := by
  have host : (setRunning s i).host = s.host := setRunning_only s i .host (by decide)
  obtain ⟨-, -, -, -, ends⟩ := finishData_undisturbed (pageRead (setRunning s i) lid rae) i .success 0 0 ((page.drop off).take len) false
  rw [logOut_inside _ i h lid rae inside]
  refine ⟨fun e => ?_, fun e => ?_⟩ <;> subst e
  · exact onlyPostings_congr host (ends (by decide))
  · exact onlyPostings_congr (by rw [pageRead_armed, host]) (ends (by decide))

/-! ## The commands at their turn -/

section

variable {s : State} {h : HostId} {i : Nat} (t : AdminTurn s h i) (off len : Nat) (rae : Bool)
include t

theorem stickySummaryLog_turn : exec (.stickySummaryLog h off len rae) s =
    .next (logOut (setRunning s i) i h 0xC0 (stickyPage (setRunning s i)) off len rae) :=
  congrArg Outcome.next (serveAdmin_turn t true _)

theorem freezeLog_turn : exec (.freezeLog h off len rae) s =
    .next (logOut (setRunning s i) i h 0xC1 (freezePage (setRunning s i)) off len rae) :=
  congrArg Outcome.next (serveAdmin_turn t true _)

theorem bellLog_turn : exec (.bellLog h off len rae) s =
    .next (logOut (setRunning s i) i h 0xC2 (bellPage (setRunning s i)) off len rae) :=
  congrArg Outcome.next (serveAdmin_turn t true _)

theorem guildLog_turn (m : s.ident.meshed = true) : exec (.guildLog h off len rae) s =
    .next (logOut (setRunning s i) i h 0xC3 (guildPage (setRunning s i)) off len rae) := by
  have ident : (setRunning s i).ident = s.ident := setRunning_only s i .ident (by decide)
  exact congrArg Outcome.next ((serveAdmin_turn t true _).trans (if_pos (by rw [ident, m])))

theorem kernelFaultLog_turn : exec (.kernelFaultLog h off len rae) s =
    .next (logOut (setRunning s i) i h 0xC4 (faultPage (setRunning s i)) off len rae) :=
  congrArg Outcome.next (serveAdmin_turn t true _)

/-- SMART/Health: the fixed fields as copied at the last edge, in a page that is else free (R445). -/
theorem getSmartLog_turn : exec (.getLogPage h 2 off len rae) s =
    .next (logOut (freePage (setRunning s i) 512 (smartFields s.edge)).2 i h 2
      (freePage (setRunning s i) 512 (smartFields s.edge)).1 off len rae) := by
  have edge : (setRunning s i).edge = s.edge := setRunning_only s i .edge (by decide)
  rw [← edge]
  exact congrArg Outcome.next (serveAdmin_turn t true _)

variable {off len} (fields : h.reservedOk = true) (whole : len % 4 = 0) (least : 4 ≤ len) (most : len ≤ 2097152)
include fields whole least most

theorem snapshotFetch_stored {c : SnapCopy} (stored : s.freeze.stored = some c) (inside : off + len ≤ snapLength) :
    exec (.snapshotFetch h off len) s =
      .next (finishData (setRunning s i) i .success snapLength (c.bell % 2 ^ 32) (snapRead c off len) false) := by
  have freeze : (setRunning s i).freeze = s.freeze := setRunning_only s i .freeze (by decide)
  refine congrArg Outcome.next ((serveVendorAdmin_turn t fields true _).trans ?_)
  rw [if_neg (by omega), freeze, stored]
  exact if_neg (by omega)

theorem snapshotFetch_none (stored : s.freeze.stored = none) :
    exec (.snapshotFetch h off len) s = .next (finish (setRunning s i) i .commandSequenceError 0 0) := by
  have freeze : (setRunning s i).freeze = s.freeze := setRunning_only s i .freeze (by decide)
  refine congrArg Outcome.next ((serveVendorAdmin_turn t fields true _).trans ?_)
  rw [if_neg (by omega), freeze, stored]

end

/-- An event request that is kept: its entry is freed, and it stands among those outstanding (R106). -/
theorem asynchronousEventRequest_kept {s : State} {h : HostId} {i : Nat} (t : AdminTurn s h i) (room : s.host.aers.length < 8) :
    exec (.asynchronousEventRequest h) s = .next { freeFamily (setRunning s i) i with
      host := { (freeFamily (setRunning s i) i).host with aers := s.host.aers ++ [h.cid] } } := by
  have host : (setRunning s i).host = s.host := setRunning_only s i .host (by decide)
  rw [← host]
  exact congrArg Outcome.next ((serveAdmin_turn t true _).trans (if_neg (by rw [host]; omega)))

/-- Of the host side an event request that is kept changes the requests outstanding, and the freed entry's completions. -/
theorem freeFamily_aers (s : State) (i : Nat) (aers : List Nat) :
    OnlyPostings { s with host := { s.host with aers := aers } }
      { freeFamily (setRunning s i) i with host := { (freeFamily (setRunning s i) i).host with aers := aers } } := by
  have host : (setRunning s i).host = s.host := setRunning_only s i .host (by decide)
  obtain ⟨-, -, -, -, frees⟩ := freeFamily_undisturbed (setRunning s i) i
  have kept : OnlyPostings s (freeFamily (setRunning s i) i) := onlyPostings_congr host (frees (by decide))
  exact congrArg (fun x : HostSide => { x with aers := aers }) kept

/-! ## The management bus (R88) -/

theorem miOut_sends {s : State} (up : stopped s = false) (n : Nat) (fields : List (Nat × Bytes)) :
    (miOut s n fields).out = s.out ++ [.mi (patchAll (drawBytes s n).1 fields)] ∧ OnlyChanges [.free, .out] s (miOut s n fields) := by
  have sends : miOut s n fields = emit (freePage s n fields).2 (.mi (freePage s n fields).1) := if_neg (by rw [up]; decide)
  rw [sends]
  exact ⟨rfl, ((freePage_only _ _ _).mono (by decide)).trans ((emit_only _ _).mono (by decide))⟩

theorem readNvmeMiDataStructure_known {d : Nat} (h : d ≤ 4) (s : State) :
    exec (.readNvmeMiDataStructure d) s = .next (miOut s 32 []) :=
  congrArg Outcome.next (if_neg (by omega))

theorem readNvmeMiDataStructure_other {s : State} {d : Nat} (h : 4 < d) (up : stopped s = false) :
    exec (.readNvmeMiDataStructure d) s = .next (emit s (.mi [4])) :=
  congrArg Outcome.next ((if_pos h).trans (if_neg (by rw [up]; decide)))

end Sys2Proof.Machine

open Sys2Proof Sys2Proof.Machine in
/-- Settles O32: every page goes out by `logOut`, every answer of the bus by `miOut`. -/
theorem logsAreReadAndEventsArmed : Obligations.LogsAreReadAndEventsArmed := by
  refine ⟨fun s h i off len rae t => ?_, fun s h i off len rae t inside => ?_, fun s h i off len c t fields whole least most stored inside => ?_,
    fun s h i off len t fields whole least most stored => ?_, fun s h i t room => ?_, fun s up => ⟨?_, fun d hd => ?_, fun d hd => ?_⟩⟩
  · have reads (lid : Nat) {page : Bytes} (inside : off + len ≤ page.length) :=
      and_assoc.mp ⟨logOut_reads t (.refl _ (setRunning s i)) lid rae inside, logOut_arms s i h lid rae inside⟩
    simp only [List.forall_mem_cons, List.not_mem_nil, false_implies, implies_true, and_true]
    exact ⟨fun _ inside => ⟨_, stickySummaryLog_turn t off len rae, reads 0xC0 inside⟩,
      fun _ inside => ⟨_, freezeLog_turn t off len rae, reads 0xC1 inside⟩,
      fun _ inside => ⟨_, bellLog_turn t off len rae, reads 0xC2 inside⟩,
      fun m inside => ⟨_, guildLog_turn t off len rae (m.resolve_left (fun n => n rfl)), reads 0xC3 inside⟩,
      fun _ inside => ⟨_, kernelFaultLog_turn t off len rae, reads 0xC4 inside⟩⟩
  · have free : (setRunning s i).free = s.free := setRunning_only s i .free (by decide)
    have page : (freePage (setRunning s i) 512 (smartFields s.edge)).1 = patchAll (drawBytes s 512).1 (smartFields s.edge) :=
      congrArg (patchAll · (smartFields s.edge)) (drawBytes_congr free 512)
    obtain ⟨completes, undisturbed⟩ := logOut_reads t (freePage_only (setRunning s i) 512 (smartFields s.edge)) 2 rae
      (inside.trans (le_length_freePage ..))
    exact ⟨_, getSmartLog_turn t off len rae, undisturbed, page ▸ completes⟩
  · exact ⟨_, snapshotFetch_stored t fields whole least most stored inside, t.answers rfl .success _ _ _,
      (setRunning_undisturbed s i).trans (finishData_undisturbed ..)⟩
  · exact ⟨_, snapshotFetch_none t fields whole least most stored, t.answers rfl .commandSequenceError 0 0 [],
      finish_running_undisturbed s i _ 0 0⟩
  · have frees := (setRunning_undisturbed s i).trans (freeFamily_undisturbed (setRunning s i) i)
    have out : (freeFamily (setRunning s i) i).out = s.out :=
      (freeFamily_only _ i .out (by decide)).trans (setRunning_only s i .out (by decide))
    exact ⟨_, asynchronousEventRequest_kept t room, entryAt_freeFamily_self (setRunning s i) i, out, freeFamily_aers s i _,
      (frees.mono (List.nil_subset _)).trans (host_undisturbed _ _ (by decide))⟩
  · simp only [List.forall_mem_cons, List.not_mem_nil, false_implies, implies_true, and_true]
    exact ⟨⟨_, rfl, miOut_sends up 32 _⟩, ⟨_, rfl, miOut_sends up 8 _⟩, ⟨_, rfl, miOut_sends up 16 _⟩⟩
  · exact ⟨_, readNvmeMiDataStructure_known hd s, miOut_sends up 32 []⟩
  · exact ⟨_, readNvmeMiDataStructure_other hd up, rfl, emit_only _ _⟩

end

section
/-!
Command fetch (R90, R92): how many commands each turn, round and weighted round can fetch (O11).
-/

namespace Sys2Proof.Machine

/-- Of `n` commands that may be fetched `r.1` are left, and each of the others has taken the next number. -/
def Fetches (n : Nat) (s : State) (r : Nat × State) : Prop := r.1 ≤ n ∧ r.2.host.fetchNo = s.host.fetchNo + (n - r.1)

theorem Fetches.none (n : Nat) (s : State) : Fetches n s (n, s) := ⟨Nat.le_refl n, by simp⟩

theorem Fetches.all {n : Nat} {s : State} (h : n = 0) : Fetches n s (0, s) := h ▸ .none 0 s

/-- What is left of one fetch bounds the next. -/
theorem Fetches.trans {n : Nat} {s : State} {a b : Nat × State} (ha : Fetches n s a) (hb : Fetches a.1 a.2 b) : Fetches n s b := by
  obtain ⟨la, na⟩ := ha
  obtain ⟨lb, nb⟩ := hb
  exact ⟨lb.trans la, by omega⟩

/-- A fetch that is held to `w` of the `n` commands leaves the others. -/
theorem Fetches.within {w n : Nat} {s : State} {r : Nat × State} (h : Fetches w s r) (hw : w ≤ n) : Fetches n s (n - (w - r.1), r.2) := by
  obtain ⟨l, e⟩ := h
  exact ⟨Nat.sub_le _ _, by simp only; omega⟩

theorem fetchOne_fetchNo (s : State) (sq : Nat) (c : SqCmd) : (fetchOne s sq c).host.fetchNo = s.host.fetchNo + 1 :=
  congrArg HostSide.fetchNo (count_only _ _ _ _ .host (by decide))

theorem fetchTurn_fetches (n sq : Nat) (s : State) : Fetches n s (fetchTurn n sq s) := by
  induction n generalizing s with
  | zero => exact .none 0 s
  | succ n ih =>
    unfold fetchTurn
    split
    · next c _ =>
      obtain ⟨l, e⟩ := ih (fetchOne s sq c)
      rw [fetchOne_fetchNo] at e
      exact ⟨by omega, by omega⟩
    · exact .none _ s

/-- A turn of round robin is held to the arbitration burst. -/
theorem turn_le (burst n : Nat) : (if burst = 0 then n else min n burst) ≤ n := by split <;> omega

theorem fetchRound_fetches (round : Nat) (qs : List Nat) (fuel n : Nat) (s : State) : Fetches n s (fetchRound round qs fuel n s) := by
  induction fuel generalizing n s with
  | zero => exact .none n s
  | succ fuel ih =>
    unfold fetchRound
    split
    · next h => exact .all h
    · split
      · exact .none n s
      · next q _ =>
        have turn := (fetchTurn_fetches (if s.host.burst = 0 then n else min n s.host.burst) q
          { s with host := { s.host with rr := tput s.host.rr round q } }).within (turn_le s.host.burst n)
        exact turn.trans (ih _ _)

theorem fetchWeight_fetches (round weight : Nat) (qs : List Nat) (n : Nat) (s : State) :
    Fetches n s (fetchWeight round weight qs n s) := (fetchRound_fetches round qs _ _ s).within (Nat.min_le_left n weight)

theorem fetchWeighted_fetches (high med low : List Nat) (fuel n : Nat) (s : State) :
    Fetches n s (fetchWeighted high med low fuel n s) := by
  induction fuel generalizing n s with
  | zero => exact .none n s
  | succ fuel ih =>
    have classes := (fetchWeight_fetches 1 s.host.wHigh high n s).trans <|
      (fetchWeight_fetches 2 s.host.wMed med _ _).trans (fetchWeight_fetches 3 s.host.wLow low _ _)
    unfold fetchWeighted
    dsimp only
    split
    · exact classes
    · exact classes.trans (ih _ _)

/-- The admin queue and the arbitration share one allowance. -/
theorem fetchCommands_fetches (s : State) : ∃ left, Fetches (odVal s 0x2102 0) s (left, fetchCommands s) := by
  have admin := fetchTurn_fetches (odVal s 0x2102 0) 0 s
  unfold fetchCommands
  dsimp only
  split
  · exact ⟨_, admin.trans ((fetchRound_fetches ..).trans (fetchWeighted_fetches ..))⟩
  · exact ⟨_, admin.trans (fetchRound_fetches ..)⟩

end Sys2Proof.Machine

open Sys2Proof Sys2Proof.Machine in
/-- Settles O11: every fetch takes the next number and one of the OD 0x2102 that a boundary may fetch. -/
theorem fetchStaysWithinItsLimit : Obligations.FetchStaysWithinItsLimit := by
  intro s
  obtain ⟨left, -, number⟩ := fetchCommands_fetches s
  dsimp only at number
  omega

end

section
/-!
SUPPORT. The roots of the tally: which entry a host command stands under, and that the end of another command leaves it.
-/

namespace Sys2Proof.Machine

/-- What `findHost` finds is the command's own entry. -/
theorem findHost_origin {s : State} {sq cid i : Nat} {e : Entry} (ht : TallyOk s) (hf : findHost s sq cid = some i)
    (he : entryAt s i = some e) : e.origin = .host sq cid := by
  obtain ⟨rising, -, -⟩ := ht
  obtain ⟨⟨k, x⟩, hp, hk⟩ := Option.map_eq_some_iff.mp hf
  cases hk
  have hx : e = x := Option.some.inj (he.symm.trans (tget_of_mem rising (List.mem_of_find?_eq_some hp)))
  have holds := List.find?_some hp
  simp only [Bool.and_eq_true, decide_eq_true_eq] at holds
  exact hx ▸ holds.1

/-- A root stands in no family but its own. -/
theorem root_not_mem_family {s : State} {i j : Nat} {e : Entry} (he : entryAt s j = some e) (hp : e.parent = none) (hj : j ≠ i) :
    j ∉ family s i := by
  intro h
  obtain ⟨⟨k, x⟩, hm, rfl⟩ := List.mem_map.mp h
  have d := (List.mem_filter.mp hm).2
  have ht : tget s.tally.entries k = some e := he
  simp [descends, Ne.symm hj, ht, hp] at d

/-- The end of a request leaves every entry outside its family. -/
theorem entryAt_finish_other {s : State} {i j : Nat} (hj : j ≠ i) (hf : j ∉ family s i) (st : Status) (dw0 dw1 : Nat) :
    entryAt (finish s i st dw0 dw1) j = entryAt s j := by
  have freed : entryAt (freeFamily s i) j = entryAt s j := (entryAt_freeFamily s i j).trans (if_neg hf)
  unfold finish finishData
  split
  · rfl
  · split
    · split
      · rfl
      · exact (entryAt_conclude ..).trans ((if_neg hj).trans freed)
    · exact freed

/-- The end of a command leaves every other root of the tally. -/
theorem entryAt_finish_root {s : State} {i j : Nat} {e : Entry} (he : entryAt s j = some e) (hp : e.parent = none) (hj : j ≠ i)
    (st : Status) (dw0 dw1 : Nat) : entryAt (finish s i st dw0 dw1) j = some e :=
  (entryAt_finish_other hj (root_not_mem_family he hp hj) st dw0 dw1).trans he

theorem entryAt_finish_self {s : State} {i sq cid : Nat} {e : Entry} (he : entryAt s i = some e) (ho : e.origin = .host sq cid)
    (hr : e.state ≠ .replying) (st : Status) (dw0 dw1 : Nat) :
    entryAt (finish s i st dw0 dw1) i = some { e with state := .replying } := by
  rw [finish_line s i sq cid e st dw0 dw1 he ho hr, entryAt_conclude, if_pos rfl]

end Sys2Proof.Machine
end

section
/-!
Abort (R89): which commands it ends, and what it leaves (O30).
-/

namespace Sys2Proof.Machine

section
variable {s : State} {h : HostId} {i tsq tcid : Nat} (t : AdminTurn s h i)
include t

theorem abort_none (hf : findHost s tsq tcid = none) : exec (.abort h tsq tcid) s = .next (finish (setRunning s i) i .success 1 0) := by
  change execAbort h tsq tcid s = _
  simp only [execAbort, serveAdmin_turn t, t.findHost_setRunning, hf]

/-- The entry of another command as an Abort meets it. -/
theorem abort_found {j : Nat} {e : Entry} (hf : findHost s tsq tcid = some j) (he : entryAt s j = some e) (hj : j ≠ i) :
    exec (.abort h tsq tcid) s = .next (if e.state = .admitted ∨ e.state = .planned then
      finish (finish (setRunning s i) j .abortRequested 0 0) i .success 0 0 else finish (setRunning s i) i .success 1 0) := by
  obtain ⟨d, hd⟩ := entryAt_setRunning_other hj he
  change execAbort h tsq tcid s = _
  simp [execAbort, serveAdmin_turn t, t.findHost_setRunning, hf, hd, hj]

/-- An Abort of itself ends nothing else. -/
theorem abort_itself (hf : findHost s tsq tcid = some i) : exec (.abort h tsq tcid) s = .next (finish (setRunning s i) i .success 1 0) := by
  change execAbort h tsq tcid s = _
  simp [execAbort, serveAdmin_turn t, t.findHost_setRunning, hf]

/-- An entry that is not in a state to be aborted stands on beside the Abort. -/
theorem abort_leaves {j : Nat} {e : Entry} (hf : findHost s tsq tcid = some j) (he : entryAt s j = some e) (ha : e.state ≠ .admitted)
    (hp : e.state ≠ .planned) : exec (.abort h tsq tcid) s = .next (finish (setRunning s i) i .success 1 0) := by
  by_cases hj : j = i
  · subst hj
    exact abort_itself t hf
  · rw [abort_found t hf he hj, if_neg (not_or.mpr ⟨ha, hp⟩)]

/-- The Abort completes with DW0 bit 0 at 1, and nothing else ends. -/
theorem abort_runsOn : Completes s (finish (setRunning s i) i .success 1 0) 0 h.cid [] .success 1 0 ∧
    Undisturbed [] s (finish (setRunning s i) i .success 1 0) :=
  ⟨t.answers rfl .success 1 0 [], finish_running_undisturbed s i .success 1 0⟩

end

end Sys2Proof.Machine

open Sys2Proof Sys2Proof.Machine in
/-- Settles O30: the target of an Abort is a root of the tally, so the end of the Abort's own family passes it by. -/
theorem abortTakesOnlyWaitingCommands : Obligations.AbortTakesOnlyWaitingCommands := by
  intro s h i tsq tcid t
  refine ⟨fun j e hf he hj waits => ?_, fun j e hf he ha hp => ?_, fun hf => ⟨_, abort_none t hf, abort_runsOn t⟩⟩
  · have origin := findHost_origin t.tally hf he
    have root := t.tally.root he origin
    obtain ⟨d, runs⟩ := entryAt_setRunning_other hj he
    have stands := findHost_state t.tally hf he
    have ended := entryAt_finish_self runs origin stands .abortRequested 0 0
    refine ⟨_, (abort_found t hf he hj).trans (by rw [if_pos waits]), rfl, fun _ => ?_⟩
    exact ⟨_, entryAt_finish_root ended root hj .success 0 0, rfl, rfl⟩
  · refine ⟨_, abort_leaves t hf he ha hp, (abort_runsOn t).1, (abort_runsOn t).2, fun outside => ?_⟩
    have hj : j ≠ i := fun x => outside (by subst x; exact mem_family_self he)
    have root := t.tally.root he (findHost_origin t.tally hf he)
    obtain ⟨d, runs⟩ := entryAt_setRunning_other hj he
    exact ⟨_, entryAt_finish_root runs root hj .success 1 0, rfl, rfl⟩

end

section
/-!
SUPPORT. A wake event and a controller-level reset (R339, R359, R360): what each can reach, and what the reset leaves of the host side.
-/

namespace Sys2Proof.Machine

theorem only_power (s : State) (x : Power) : OnlyChanges [.power] s { s with power := x } :=
  fun p h => by cases p <;> first | exact absurd (by decide) h | rfl

/-- The parts that a wake event can reach. -/
theorem wakeEvent_only (s : State) (cause : Nat) : OnlyChanges [.power, .counters, .sticky] s (wakeEvent s cause) := by
  unfold wakeEvent
  split
  · exact .refl _ s
  · have woken (x : Power) : OnlyChanges [.power, .counters, .sticky] s { s with power := x } := (only_power s x).mono (by decide)
    exact .ite ((woken _).trans ((count_only _ _ _ _).mono (by decide))) (woken _)

/-- A wake leaves what the host has set of the features of power. -/
theorem wakeEvent_features (s : State) (cause : Nat) :
    (wakeEvent s cause).power.hostPs = s.power.hostPs ∧ (wakeEvent s cause).power.noppme = s.power.noppme := by
  unfold wakeEvent
  split
  · exact ⟨rfl, rfl⟩
  · dsimp only
    split
    · have counted (t : State) : (count t 0x6012 0 1).power = t.power := count_only t _ _ _ .power (by decide)
      rw [counted]
      exact ⟨rfl, rfl⟩
    · exact ⟨rfl, rfl⟩

/-- A controller-level reset before it releases the pen and counts itself. -/
def withoutHost (s : State) (kind : Nat) : State :=
  let s := policiesReset (dropHostWork s)
  unitMod (featuresReset { s with
    steward := dropHostRequests s.steward
    host := { s.host with sqs := [], cqs := [], rr := [], aers := [], pendingEvents := [], masked := [], en := false,
                          rdy := false, ams := 0, enClearDeferred := false }
    units := s.units.map (fun p => (p.1, { p.2 with resetWaiters := [] }))
    keys := { s.keys with sanitizeEntry := none }
    update := { s.update with resetKind := kind, resetCause := 2, resetBell := s.bell.count, cfs := false, buffer := [],
                              commit := none, writing := s.update.writing.map (fun w => { w with entry := none }) } })
    232 (fun x => { x with epoch := (x.epoch + 1) % 256 })

theorem controllerReset_eq (s : State) (kind : Nat) :
    controllerReset s kind = count (releasePenOf (withoutHost s kind) .host) 0x6015 3 1 := rfl

/-- What the release of the pen, the count, the wake and the order of a pending image reach. -/
theorem controllerLevel_only (s : State) (kind : Nat) :
    OnlyChanges [.pen, .dev, .counters, .sticky, .power, .update] (withoutHost s kind) (controllerLevel s kind) := by
  have reset : OnlyChanges [.pen, .dev, .counters, .sticky, .power, .update] (withoutHost s kind) (controllerReset s kind) :=
    (releasePenOf_only _ _).comp (count_only _ _ _ _)
  have woken := reset.trans ((wakeEvent_only (controllerReset s kind) 1).mono (by decide))
  exact .ite woken (woken.trans ((only_update _ _).mono (by decide)))

/-- A reset that orders a pending image differs from one that does not in the update state alone, and there not in its kind. -/
theorem controllerLevel_woken (s : State) (kind : Nat) : let w := wakeEvent (controllerReset s kind) 1
    OnlyChanges [.update] w (controllerLevel s kind) ∧ (controllerLevel s kind).update.resetKind = w.update.resetKind := by
  unfold controllerLevel
  dsimp only
  split
  · exact ⟨.refl _ _, rfl⟩
  · exact ⟨only_update _ _, rfl⟩

/-! ## The pen -/

theorem releasePenOf_holder {s : State} (m : Master) (h : s.dev.state ≠ .frozen) : (releasePenOf s m).pen.holder ≠ some m := by
  by_cases held : s.pen.holder = some m
  · simp [releasePenOf, releasePen, held, h]
  · rwa [releasePenOf, if_neg held]

theorem releasePenOf_other {s : State} {m : Master} (h : s.pen.holder ≠ some m) : releasePenOf s m = s := if_neg h

theorem releasePenOf_state (s : State) (m : Master) : (releasePenOf s m).dev.state = s.dev.state := by
  unfold releasePenOf releasePen
  split
  · split <;> rfl
  · rfl

/-! ## What the reset takes and what it leaves -/

/-- The host side as a controller-level reset of kind `kind` leaves it (R359, R360, R105, Table 15.3). -/
structure HostSideGone (s t : State) (kind : Nat) : Prop where
  en : t.host.en = false
  rdy : t.host.rdy = false
  sqs : t.host.sqs = []
  cqs : t.host.cqs = []
  aers : t.host.aers = []
  posting : t.host.posting = []
  entries : ∀ e ∈ t.tally.entries, e.2.origin.kind = .host → e.2.state = .replying ∧ e.1 ∈ t.host.stopping
  waiting : ∀ r ∈ t.tally.waiting, r.origin.kind ≠ .host
  policies : ∀ q, q < 256 → tget t.od (odKey 0x2120 q) = none
  objects : ∀ k, k / 256 ≠ 0x2120 → tget t.od k = tget s.od k
  burst : t.host.burst = 8
  hostPs : t.power.hostPs = 0
  noppme : t.power.noppme = true
  pen : t.pen.holder ≠ some .host
  penOther : s.pen.holder ≠ some .host → t.pen = s.pen
  kind : t.update.resetKind = kind

/-- What a controller-level reset leaves (R359): the device state, the bell, memory, programs, range sets, the map and the pages, the index
slots in use, and membership. -/
structure RestStands (s t : State) : Prop where
  dev : t.dev.state = s.dev.state
  bell : t.bell = s.bell
  slm : t.compute.slm = s.compute.slm
  programs : t.compute.programs = s.compute.programs
  rangeSets : t.compute.rangeSets = s.compute.rangeSets
  map : t.ledger.map = s.ledger.map
  slots : t.sifters.slots.filter (fun x => x.2.st = 2) = s.sifters.slots.filter (fun x => x.2.st = 2)
  pages : t.flash.pages = s.flash.pages
  member : t.fabric.member = s.fabric.member

/-- The entries that the reset leaves of the host are those that it notes for the boundary. -/
theorem dropHostWork_entries (s : State) : ∀ e ∈ (dropHostWork s).tally.entries, e.2.origin.kind = .host →
    e.2.state = .replying ∧ e.1 ∈ (dropHostWork s).host.stopping := by
  intro e he hk
  obtain ⟨p, hp, rfl⟩ := List.mem_map.mp he
  by_cases kind : p.2.origin.kind = .host
  · have noted : p.1 ∈ (dropHostWork s).host.stopping := List.mem_map.mpr ⟨p, List.mem_filter.mpr ⟨hp, by simp [kind]⟩, rfl⟩
    simpa [kind] using noted
  · simp [kind] at hk

theorem dropHostWork_waiting (s : State) : ∀ r ∈ (dropHostWork s).tally.waiting, r.origin.kind ≠ .host :=
  fun _ hr => of_decide_eq_true (List.mem_filter.mp hr).2

theorem policiesReset_policy (s : State) {q : Nat} (h : q < 256) : tget (policiesReset s).od (odKey 0x2120 q) = none := by
  have index : odKey 0x2120 q / 256 = 0x2120 := by unfold odKey; omega
  exact (tget_filter_key s.od (fun k => k / 256 ≠ 0x2120) _).trans (if_neg (by simp [index]))

theorem policiesReset_other (s : State) {k : Nat} (h : k / 256 ≠ 0x2120) : tget (policiesReset s).od k = tget s.od k :=
  (tget_filter_key s.od (fun k => k / 256 ≠ 0x2120) _).trans (if_pos (by simp [h]))

/-- An index slot in use is none of those that wait for a mount to end. -/
theorem dropWork_slots (s : State) (gone : List Nat) :
    (dropWork s gone).sifters.slots.filter (fun x => x.2.st = 2) = s.sifters.slots.filter (fun x => x.2.st = 2) := by
  refine List.filter_filter.trans (List.filter_congr (fun x _ => ?_))
  by_cases h : x.2.st = 2 <;> simp [h]

theorem controllerReset_pen {s : State} (h : stopped s = false) (kind : Nat) : (controllerReset s kind).pen.holder ≠ some .host ∧
    (s.pen.holder ≠ some .host → (controllerReset s kind).pen = s.pen) := by
  have counted : (controllerReset s kind).pen = (releasePenOf (withoutHost s kind) .host).pen := count_only _ _ _ _ .pen (by decide)
  simp only [stopped, Bool.or_eq_false_iff, decide_eq_false_iff_not] at h
  rw [counted]
  refine ⟨releasePenOf_holder _ h.1, fun other => ?_⟩
  have held : (withoutHost s kind).pen.holder ≠ some .host := other
  rw [releasePenOf_other held]
  rfl

theorem controllerLevel_gone {s : State} (h : stopped s = false) (kind : Nat) : HostSideGone s (controllerLevel s kind) kind := by
  have only := controllerLevel_only s kind
  have host : (controllerLevel s kind).host = (withoutHost s kind).host := only .host (by decide)
  have tally : (controllerLevel s kind).tally = (dropHostWork s).tally := only .tally (by decide)
  have od : (controllerLevel s kind).od = (policiesReset (dropHostWork s)).od := only .od (by decide)
  obtain ⟨woken, ordered⟩ := controllerLevel_woken s kind
  have power : (controllerLevel s kind).power = (wakeEvent (controllerReset s kind) 1).power := woken .power (by decide)
  have pen : (controllerLevel s kind).pen = (controllerReset s kind).pen :=
    (woken .pen (by decide)).trans (wakeEvent_only _ 1 .pen (by decide))
  have reset : OnlyChanges [.pen, .dev, .counters, .sticky] (withoutHost s kind) (controllerReset s kind) :=
    (releasePenOf_only _ _).comp (count_only _ _ _ _)
  have features : (controllerReset s kind).power = (withoutHost s kind).power := reset .power (by decide)
  have update : (wakeEvent (controllerReset s kind) 1).update = (withoutHost s kind).update :=
    (wakeEvent_only _ 1 .update (by decide)).trans (reset .update (by decide))
  obtain ⟨hostPs, noppme⟩ := wakeEvent_features (controllerReset s kind) 1
  obtain ⟨released, other⟩ := controllerReset_pen h kind
  exact {
    en := by rw [host]; rfl
    rdy := by rw [host]; rfl
    sqs := by rw [host]; rfl
    cqs := by rw [host]; rfl
    aers := by rw [host]; rfl
    posting := by rw [host]; rfl
    entries := by rw [host, tally]; exact dropHostWork_entries s
    waiting := by rw [tally]; exact dropHostWork_waiting s
    policies := fun q hq => by rw [od]; exact policiesReset_policy _ hq
    objects := fun k hk => by rw [od]; exact policiesReset_other _ hk
    burst := by rw [host]; rfl
    hostPs := by rw [power, hostPs, features]; rfl
    noppme := by rw [power, noppme, features]; rfl
    pen := by rw [pen]; exact released
    penOther := fun x => by rw [pen]; exact other x
    kind := by rw [ordered, update]; rfl }

theorem controllerLevel_rest (s : State) (kind : Nat) : RestStands s (controllerLevel s kind) := by
  have only := controllerLevel_only s kind
  have compute : (controllerLevel s kind).compute = (withoutHost s kind).compute := only .compute (by decide)
  obtain ⟨woken, -⟩ := controllerLevel_woken s kind
  have dev : (controllerLevel s kind).dev = (controllerReset s kind).dev :=
    (woken .dev (by decide)).trans (wakeEvent_only _ 1 .dev (by decide))
  have counted : (controllerReset s kind).dev = (releasePenOf (withoutHost s kind) .host).dev := count_only _ _ _ _ .dev (by decide)
  have sifters : (controllerLevel s kind).sifters = (withoutHost s kind).sifters := only .sifters (by decide)
  have ledger : (controllerLevel s kind).ledger = (withoutHost s kind).ledger := only .ledger (by decide)
  have flash : (controllerLevel s kind).flash = (withoutHost s kind).flash := only .flash (by decide)
  have fabric : (controllerLevel s kind).fabric = (withoutHost s kind).fabric := only .fabric (by decide)
  exact {
    dev := by rw [dev, counted, releasePenOf_state]; rfl
    bell := only .bell (by decide)
    slm := by rw [compute]; rfl
    programs := by rw [compute]; rfl
    rangeSets := by rw [compute]; rfl
    map := by rw [ledger]; rfl
    slots := by rw [sifters]; exact dropWork_slots s _
    pages := by rw [flash]; rfl
    member := by rw [fabric]; rfl }

theorem linkDown_gone {s t : State} {kind : Nat} (g : HostSideGone s t kind) : HostSideGone s (linkDown t) kind := { g with }

theorem linkDown_rest {s t : State} (r : RestStands s t) : RestStands s (linkDown t) := { r with }

/-- The pin is no part of what the reset is measured by. -/
theorem HostSideGone.ofHost {s t : State} {x : HostSide} {kind : Nat} (g : HostSideGone { s with host := x } t kind) :
    HostSideGone s t kind := { g with }

theorem RestStands.ofHost {s t : State} {x : HostSide} (r : RestStands { s with host := x } t) : RestStands s t := { r with }

end Sys2Proof.Machine
end

section
/-!
Controller resets and the link (R85, R87, R105, R110, R350, R358 to R360): what goes and what stands (O33).
-/

namespace Sys2Proof.Machine

/-! ## The resets past BOOT -/

theorem ccEnClear_resets {s : State} (up : stopped s = false) (boot : s.dev.state ≠ .boot) (en : s.host.en = true)
    (quiet : activating s = false) : exec .ccEnClear s = .next (controllerLevel s 3) := by
  change execCcEnClear s = _
  simp [execCcEnClear, up, boot, en, quiet]

theorem functionLevelReset_resets {s : State} (up : stopped s = false) (boot : s.dev.state ≠ .boot) :
    exec .functionLevelReset s = .next (controllerLevel s 4) := by
  change execFunctionLevelReset s = _
  simp [execFunctionLevelReset, up, boot]

theorem perstAssert_resets {s : State} (up : stopped s = false) (boot : s.dev.state ≠ .boot) (high : s.host.perst = false) :
    exec .perstAssert s = .next (linkDown (controllerLevel { s with host := { s.host with perst := true } } 5)) := by
  change execPerstAssert s = _
  simp [execPerstAssert, up, boot, high]

/-- PERST# stays as it is through the reset. -/
theorem controllerLevel_perst (s : State) (kind : Nat) : (controllerLevel s kind).host.perst = s.host.perst := by
  have host : (controllerLevel s kind).host = (withoutHost s kind).host := controllerLevel_only s kind .host (by decide)
  rw [host]
  rfl

/-- The three resets in a drive past BOOT, each with its kind (Table 15.3). -/
theorem reset_leaves {s : State} (up : stopped s = false) (boot : s.dev.state ≠ .boot) {p : Instr × Nat}
    (hp : p ∈ [(Instr.ccEnClear, 3), (.functionLevelReset, 4), (.perstAssert, 5)])
    (enabled : p.2 = 3 → s.host.en = true ∧ activating s = false) (high : p.2 = 5 → s.host.perst = false) :
    ∃ t, exec p.1 s = .next t ∧ HostSideGone s t p.2 ∧ RestStands s t ∧ (p.2 = 5 → t.host.perst = true ∧ t.host.speed = 0) := by
  simp only [List.mem_cons, List.not_mem_nil, or_false] at hp
  obtain rfl | rfl | rfl := hp
  · obtain ⟨en, quiet⟩ := enabled rfl
    exact ⟨_, ccEnClear_resets up boot en quiet, controllerLevel_gone up 3, controllerLevel_rest s 3, fun x => absurd x (by decide)⟩
  · exact ⟨_, functionLevelReset_resets up boot, controllerLevel_gone up 4, controllerLevel_rest s 4, fun x => absurd x (by decide)⟩
  · have up' : stopped { s with host := { s.host with perst := true } } = false := up
    exact ⟨_, perstAssert_resets up boot (high rfl), linkDown_gone (controllerLevel_gone up' 5).ofHost,
      linkDown_rest (controllerLevel_rest _ 5).ofHost, fun _ => ⟨controllerLevel_perst _ 5, rfl⟩⟩

/-! ## The resets in BOOT (R350) -/

theorem absorbReset_only (s : State) : OnlyChanges [.od, .host, .update] s (absorbReset s) :=
  fun p h => by cases p <;> first | exact absurd (by decide) h | rfl

theorem stopped_boot {s : State} (h : s.dev.state = .boot) : stopped s = false := by simp [stopped, h]

/-- In BOOT each reset is absorbed into the start; PERST# takes the link down after it. -/
theorem reset_absorbed {s : State} (h : s.dev.state = .boot) {c : Instr} (hc : c ∈ [Instr.ccEnClear, .functionLevelReset, .perstAssert])
    (high : c = .perstAssert → s.host.perst = false) : exec c s = .next (absorbReset s) ∨
      exec c s = .next (linkDown (absorbReset { s with host := { s.host with perst := true } })) := by
  simp only [List.mem_cons, List.not_mem_nil, or_false] at hc
  obtain rfl | rfl | rfl := hc
  · refine .inl ?_
    change execCcEnClear s = _
    simp [execCcEnClear, stopped_boot h, h]
  · refine .inl ?_
    change execFunctionLevelReset s = _
    simp [execFunctionLevelReset, stopped_boot h, h]
  · refine .inr ?_
    change execPerstAssert s = _
    simp [execPerstAssert, stopped_boot h, h, high rfl]

/-! ## An activation, enabling, and the link -/

theorem ccEnClear_deferred {s : State} (up : stopped s = false) (en : s.host.en = true) (act : activating s = true) :
    exec .ccEnClear s = .next { s with host := { s.host with en := false, rdy := false, enClearDeferred := true } } := by
  have boot : s.dev.state ≠ .boot := fun x => by simp [activating, x] at act
  change execCcEnClear s = _
  simp [execCcEnClear, up, boot, en, act]

theorem ccEnSet_enables {s : State} {ams asq acq : Nat} (up : stopped s = false) (high : s.host.perst = false) (en : s.host.en = false)
    (cfs : s.update.cfs = false) (deferred : s.host.enClearDeferred = false) (arb : ams ≤ 1) (sq : adminQueueSize asq = true)
    (cq : adminQueueSize acq = true) : exec (.ccEnSet ams asq acq) s = .next { s with host := { s.host with
      en := true, ams := ams, rdy := s.dev.state ≠ .boot, rr := []
      sqs := tput s.host.sqs 0 (Sq.fresh asq 0 0), cqs := tput s.host.cqs 0 (Cq.fresh acq 0 true) } } :=
  if_neg (by simp [up, high, en, cfs, deferred, sq, cq, arb])

theorem perstDeassert_trains {s : State} {speed width : Nat} (up : stopped s = false) (low : s.host.perst = true)
    (hs : speed ∈ [1, 2, 3]) (hw : width ∈ [1, 2, 4, 8]) : exec (.perstDeassert speed width) s = .next { s with
      host := { s.host with perst := false, speed := speed, width := width, flit := decide (speed = 3) } } := by
  have speeds : [1, 2, 3].contains speed = true := List.contains_iff_mem.mpr hs
  have widths : [1, 2, 4, 8].contains width = true := List.contains_iff_mem.mpr hw
  exact if_neg (by simp only [up, low, speeds, widths, Bool.not_true, Bool.false_and, Bool.and_self, Bool.or_self, Bool.false_eq_true,
    not_false_eq_true])

end Sys2Proof.Machine

open Sys2Proof Sys2Proof.Machine in
/-- Settles O33: past BOOT every reset is `controllerLevel`, of which only the host side's share reaches the host side. -/
theorem controllerResetsLeaveTheRest : Obligations.ControllerResetsLeaveTheRest := by
  refine ⟨fun s up boot p hp enabled high => ?_, fun s boot c hc high => ?_, fun s up en act => ?_,
    fun s ams asq acq up high en cfs deferred arb sq cq => ?_, fun s speed width up low hs hw => ?_⟩
  · obtain ⟨t, run, g, r, link⟩ := reset_leaves up boot hp enabled high
    exact ⟨t, run, g.en, g.rdy, g.sqs, g.cqs, g.aers, g.posting, g.entries, g.waiting, g.policies, g.objects, g.burst, g.hostPs, g.noppme,
      g.pen, g.penOther, g.kind, r.dev, r.bell, r.slm, r.programs, r.rangeSets, r.map, r.slots, r.pages, r.member, link⟩
  · obtain run | run := reset_absorbed boot hc high
    · exact ⟨_, run, rfl, rfl, rfl, rfl, rfl, rfl, absorbReset_only s⟩
    · exact ⟨_, run, rfl, rfl, rfl, rfl, rfl, rfl,
        (only_host s _).comp ((absorbReset_only _).comp (linkDown_only _) (rs := [.od, .host, .update]))⟩
  · exact ⟨_, ccEnClear_deferred up en act, rfl, only_host s _⟩
  · refine ⟨_, ccEnSet_enables up high en cfs deferred arb sq cq, rfl, rfl, decide_eq_true_iff, ?_, ?_, only_host s _⟩
    · exact tget_tput_same ..
    · exact tget_tput_same ..
  · exact ⟨_, perstDeassert_trains up low hs hw, rfl, only_host s _⟩

end

section
/-!
SUPPORT. Submission queues, and the entry of an admin command that runs or waits: what the host side and the tally show of each.
-/

namespace Sys2Proof.Machine

/-! ## Submission queues -/

theorem tget_sqMod_same {s : State} {sq : Nat} {q : Sq} (h : tget s.host.sqs sq = some q) (f : Sq → Sq) :
    tget (sqMod s sq f).host.sqs sq = some (f q) :=
  (tget_map_key s.host.sqs f sq sq).trans (by rw [if_pos rfl, h, Option.map_some])

theorem tget_sqMod_other (s : State) {sq k : Nat} (h : k ≠ sq) (f : Sq → Sq) : tget (sqMod s sq f).host.sqs k = tget s.host.sqs k :=
  (tget_map_key s.host.sqs f sq k).trans (if_neg h)

/-- What changes no part of the media and the compute units disturbs nothing beyond its parts, where the host side is listed. -/
theorem OnlyChanges.undisturbedHost {ps qs : List Part} {s t : State} (a : OnlyChanges ps s t) (h : ps ⊆ qs ++ completionParts := by decide)
    (hm : .ledger ∉ ps ∧ .flash ∉ ps ∧ .compute ∉ ps := by decide) (hh : .host ∈ qs := by decide) : Undisturbed qs s t := by
  obtain ⟨hl, hf, hc⟩ := hm
  exact ⟨a.mono h, congrArg Ledger.map (a .ledger hl), congrArg Flash.pages (a .flash hf), congrArg Compute.slm (a .compute hc),
    fun n => absurd hh n⟩

/-- The end of a command leaves every queue as it is. -/
theorem finish_sqs (s : State) (i : Nat) (st : Status) (dw0 dw1 : Nat) : (finish s i st dw0 dw1).host.sqs = s.host.sqs := by
  obtain ⟨-, -, -, -, postings⟩ := finish_undisturbed s i st dw0 dw1
  have sqs := congrArg HostSide.sqs (postings (by decide))
  exact sqs

/-! ## The entry of an admin command -/

theorem findHost_congr {s t : State} (h : t.tally = s.tally) (sq cid : Nat) : findHost t sq cid = findHost s sq cid := by
  simp only [findHost, h]

theorem undispatchedOf_congr {s t : State} (h : t.tally = s.tally) (sq : Nat) : undispatchedOf t sq = undispatchedOf s sq := by
  simp only [undispatchedOf, h]

theorem queueStands_congr {s t : State} (h : t.tally = s.tally) (hp : t.host.posting = s.host.posting) (sq : Nat) :
    queueStands t sq = queueStands s sq := by
  simp only [queueStands, h, hp]

theorem entryMod_entryMod (s : State) (i : Nat) (f g : Entry → Entry) : entryMod (entryMod s i f) i g = entryMod s i (g ∘ f) := by
  simp only [entryMod, List.map_map]
  congr 3
  funext p
  by_cases h : p.1 = i <;> simp [h]

/-- An entry as its command's service leaves it where the command goes on in state `st`. -/
def servedIn (st : EState) (e : Entry) : Entry := { e with state := st, dispatched := true }

theorem queueStands_served (s : State) (i : Nat) (st : EState) (q : Nat) : queueStands (entryMod s i (servedIn st)) q = queueStands s q := by
  unfold queueStands
  simp only [entryMod_tally, List.any_map]
  congr 2
  funext p
  by_cases hi : p.1 = i <;> simp [hi, servedIn]

section
variable {s : State} {h : HostId} {i : Nat} (t : AdminTurn s h i)
include t

/-- The entry of an admin command is a root, so nothing else is dispatched with it. -/
theorem AdminTurn.setRunning_eq : setRunning s i = entryMod s i (servedIn .running) := by
  obtain ⟨e, he, ho, -⟩ := t.fresh
  have root := t.tally.root he ho
  have running : entryAt (entryMod s i (fun e => { e with state := .running })) i = some { e with state := .running } := by
    rw [entryAt_entryMod, if_pos rfl, he, Option.map_some]
  unfold setRunning markDispatched
  rw [running]
  dsimp only
  rw [root]
  exact entryMod_entryMod s i _ _

/-- The tally of a command that goes on in another state, after whatever its service did beside the tally. -/
theorem AdminTurn.setState_tally {u : State} (hu : u.tally = (setRunning s i).tally) (st : EState) :
    (setState u i st).tally = (entryMod s i (servedIn st)).tally := by
  have entries : (setState u i st).tally = (entryMod (setRunning s i) i (fun e => { e with state := st })).tally := by
    simp only [setState, entryMod_tally, hu]
  rw [entries, t.setRunning_eq, entryMod_entryMod]
  rfl

/-- No other entry stands at the index of the command. -/
theorem AdminTurn.entry_own {p : Nat × Entry} (hp : p ∈ s.tally.entries) (hi : p.1 = i) :
    p.2.origin = .host 0 h.cid ∧ p.2.state ≠ .replying := by
  obtain ⟨e, he, ho, -⟩ := t.fresh
  obtain ⟨rising, -, -⟩ := t.tally
  have own : p.2 = e := Option.some.inj ((tget_of_mem rising (show (i, p.2) ∈ s.tally.entries from hi ▸ hp)).symm.trans he)
  rw [own]
  exact ⟨t.sq ▸ ho, findHost_state t.tally t.found he⟩

theorem AdminTurn.found_zero : findHost s 0 h.cid = some i := t.sq ▸ t.found

theorem AdminTurn.findHost_served {st : EState} (hst : st ≠ .replying) (sq cid : Nat) :
    findHost (entryMod s i (servedIn st)) sq cid = findHost s sq cid := by
  refine findHost_map _ rfl sq cid (fun p => by split <;> rfl) (fun p hp => ?_)
  split
  · next hk =>
    obtain ⟨-, live⟩ := t.entry_own hp hk
    exact congrArg (decide (p.2.origin = .host sq cid) && ·) (by simp [servedIn, live, hst])
  · rfl

/-- A command that goes on counts as dispatched, and stands under no I/O queue. -/
theorem AdminTurn.undispatchedOf_served (st : EState) {q : Nat} (hq : q ≠ 0) :
    undispatchedOf (entryMod s i (servedIn st)) q = undispatchedOf s q := by
  unfold undispatchedOf
  simp only [entryMod_tally, List.filterMap_map]
  congr 2
  refine List.filterMap_congr (fun p hp => ?_)
  by_cases hi : p.1 = i
  · simp [hi, servedIn, (t.entry_own hp hi).1, Ne.symm hq]
  · simp [hi]

/-- A command that changes the host side to `x`, and completes. -/
theorem AdminTurn.setsHost (x : HostSide) : let v := finish { setRunning s i with host := x } i .success 0 0
    Completes s v 0 h.cid [] .success 0 0 ∧ Undisturbed [.host] s v ∧ OnlyPostings { s with host := x } v := by
  have ends := finish_undisturbed { setRunning s i with host := x } i .success 0 0
  have ⟨_, _, _, _, postings⟩ := ends
  refine ⟨t.answers (u := { setRunning s i with host := x }) rfl .success 0 0 [], ?_, onlyPostings_congr rfl (postings (by decide))⟩
  have runs := (setRunning_undisturbed s i).mono (List.nil_subset [Part.host])
  exact runs.trans ((host_undisturbed _ x (List.mem_singleton_self _)).trans (ends.mono (List.nil_subset _)))

end

end Sys2Proof.Machine
end

section
/-!
Queues of the host (R90, R92, R105, R339, R447): doorbells, and how queues are created and deleted (O28).
-/

namespace Sys2Proof.Machine

/-! ## Doorbells -/

theorem wakeEvent_host (s : State) (cause : Nat) : (wakeEvent s cause).host = s.host := wakeEvent_only s cause .host (by decide)

theorem doorbellWrite_queues {s : State} {sq tail : Nat} {q : Sq} {cmds : List SqCmd} (up : stopped s = false) (en : s.host.en = true)
    (rdy : s.host.rdy = true) (hq : tget s.host.sqs sq = some q) (nonempty : cmds ≠ []) (ht : tail = (q.tail + cmds.length) % q.size)
    (room : q.slots.length + cmds.length < q.size) : exec (.doorbellWrite sq tail cmds) s =
      .next (wakeEvent (sqMod s sq (fun q => { q with tail := tail, slots := q.slots ++ cmds })) 1) := by
  change execDoorbellWrite sq tail cmds s = _
  unfold execDoorbellWrite
  rw [hq]
  exact if_neg (by simp [up, en, rdy, nonempty, ← ht]; omega)

/-! ## Creation -/

section
variable {s : State} {h : HostId} {i : Nat} (t : AdminTurn s h i)
include t

theorem createIoSq_turn {qid size prio cqid : Nat} (hq : ioQueue qid = true) (free : tget s.host.sqs qid = none)
    (hc : ioQueue cqid = true) (cq : (tget s.host.cqs cqid).isSome = true) (hs : ioQueueSize size = true) (hp : prio ≤ 3) :
    exec (.createIoSq h qid size prio cqid true) s = .next (finish { setRunning s i with
      host := { s.host with sqs := tput s.host.sqs qid (Sq.fresh size prio cqid) } } i .success 0 0) := by
  have host : (setRunning s i).host = s.host := setRunning_only s i .host (by decide)
  have bound : tget s.host.cqs cqid ≠ none := Option.isSome_iff_ne_none.mp cq
  change execCreateIoSq h qid size prio cqid true s = _
  simp [execCreateIoSq, serveAdmin_turn t, host, hq, free, hc, bound, hs, Nat.not_lt.mpr hp]

theorem createIoCq_turn {qid size vector : Nat} (ien : Bool) (hq : ioQueue qid = true) (free : tget s.host.cqs qid = none)
    (hs : ioQueueSize size = true) (hv : vector ≤ 128) : exec (.createIoCq h qid size vector ien true) s =
      .next (finish { setRunning s i with host := { s.host with cqs := tput s.host.cqs qid (Cq.fresh size vector ien) } }
        i .success 0 0) := by
  have host : (setRunning s i).host = s.host := setRunning_only s i .host (by decide)
  change execCreateIoCq h qid size vector ien true s = _
  simp [execCreateIoCq, serveAdmin_turn t, host, hq, free, hs, Nat.not_lt.mpr hv]

/-! ## Deletion -/

theorem deleteIoCq_turn {qid : Nat} (h0 : qid ≠ 0) (hq : (tget s.host.cqs qid).isSome = true)
    (free : ∀ p ∈ s.host.sqs, p.1 ≠ 0 → p.2.cq ≠ qid) : exec (.deleteIoCq h qid) s =
      .next (finish { setRunning s i with host := { s.host with cqs := tdel s.host.cqs qid } } i .success 0 0) := by
  have host : (setRunning s i).host = s.host := setRunning_only s i .host (by decide)
  have unbound : s.host.sqs.any (fun p => p.1 ≠ 0 && p.2.cq = qid) = false := by
    simpa using fun a b hp (ha : ¬a = 0) => free (a, b) hp ha
  have stands : tget s.host.cqs qid ≠ none := Option.isSome_iff_ne_none.mp hq
  change execDeleteIoCq h qid s = _
  simp only [execDeleteIoCq, serveAdmin_turn t, host]
  rw [if_neg (by simp [h0, stands]), if_neg (by rw [unbound]; decide)]

/-- A queue that is being deleted for the command `cid` (R105). -/
def Sq.closing (cid : Nat) (q : Sq) : Sq := { q with freeze := .opened, log := none, thaws := [], slots := [], deleting := some cid }

/-- The state in which a deleted queue waits until nothing of its own stands: the Delete command is WAITING. -/
def closingQueue (s : State) (i qid cid : Nat) : State := setState (sqMod (setRunning s i) qid (Sq.closing cid)) i .waiting

theorem closingQueue_tally (qid cid : Nat) : (closingQueue s i qid cid).tally = (entryMod s i (servedIn .waiting)).tally :=
  t.setState_tally (u := sqMod (setRunning s i) qid (Sq.closing cid)) rfl .waiting

theorem deleteIoSq_turn {qid : Nat} {q : Sq} (h0 : qid ≠ 0) (hq : tget s.host.sqs qid = some q) (hd : q.deleting = none)
    (ht : q.thaws = []) (hu : undispatchedOf s qid = []) :
    exec (.deleteIoSq h qid) s = .next (closeDeleted (closingQueue s i qid h.cid) (qid, h.cid)) := by
  have host : (setRunning s i).host = s.host := setRunning_only s i .host (by decide)
  have idle : undispatchedOf (sqMod (setRunning s i) qid (Sq.closing h.cid)) qid = [] := by
    refine (undispatchedOf_congr (s := setRunning s i) rfl qid).trans ?_
    rw [t.setRunning_eq, t.undispatchedOf_served .running h0, hu]
  change execDeleteIoSq h qid s = _
  simp only [execDeleteIoSq, serveAdmin_turn t, host, if_neg h0, hq, hd, ht, Option.isSome_none, Bool.false_eq_true, if_false,
    List.foldl_nil]
  exact congrArg (fun l => Host.Outcome.next (closeDeleted (setState (List.foldl (abortDeleted qid)
    (sqMod (setRunning s i) qid (Sq.closing h.cid)) l) i .waiting) (qid, h.cid))) idle

end

theorem closingQueue_only (s : State) (i qid cid : Nat) : OnlyChanges [.tally, .host] s (closingQueue s i qid cid) :=
  (setRunning_only s i).comp ((sqMod_only _ qid _).comp (setState_only _ i .waiting) (rs := [.tally, .host]))

theorem closingQueue_host (s : State) (i qid cid : Nat) : (closingQueue s i qid cid).host = (sqMod s qid (Sq.closing cid)).host := by
  have host : (setRunning s i).host = s.host := setRunning_only s i .host (by decide)
  exact congrArg (fun x : HostSide => { x with sqs := x.sqs.map (fun p : Nat × Sq => if p.1 = qid then (p.1, Sq.closing cid p.2) else p) }) host

/-- A state from which a queue is gone. -/
def withoutQueue (s : State) (qid : Nat) : State :=
  { s with host := { s.host with sqs := tdel s.host.sqs qid, rr := s.host.rr.filter (fun r => r.2 ≠ qid) } }

theorem closeDeleted_waits {s : State} {qid cid : Nat} (h : queueStands s qid = true) : closeDeleted s (qid, cid) = s := if_pos h

theorem closeDeleted_ends {s : State} {qid cid i : Nat} (h : queueStands s qid = false) (hf : findHost s 0 cid = some i) :
    closeDeleted s (qid, cid) = finish (withoutQueue s qid) i .success 0 0 := by
  rw [closeDeleted, if_neg (by rw [h]; decide)]
  dsimp only
  split
  · next j hj =>
    cases (hf.symm.trans hj : some i = some j)
    rfl
  · next hn => cases (hf.symm.trans hn : some i = none)

/-- A queue that is deleted: gone with its Delete command at once, or noted until what it has standing has ended (R105). -/
theorem closeDeleted_closing {s : State} {h : HostId} {i qid : Nat} {q : Sq} (t : AdminTurn s h i) (hq : tget s.host.sqs qid = some q)
    (ht : q.thaws = []) : let u := closeDeleted (closingQueue s i qid h.cid) (qid, h.cid)
    (∀ k, k ≠ qid → tget u.host.sqs k = tget s.host.sqs k) ∧ Undisturbed [.host] s u ∧
    (queueStands s qid = false → tget u.host.sqs qid = none ∧ Completes s u 0 h.cid [] .success 0 0) ∧
    (queueStands s qid = true → u.host.posting = s.host.posting ∧
      tget u.host.sqs qid = some { q with freeze := .opened, log := none, slots := [], deleting := some h.cid }) := by
  have tally := closingQueue_tally t qid h.cid
  have host := closingQueue_host s i qid h.cid
  have posting : (closingQueue s i qid h.cid).host.posting = s.host.posting := by rw [host]; rfl
  have same : queueStands (closingQueue s i qid h.cid) qid = queueStands s qid :=
    (queueStands_congr (s := entryMod s i (servedIn .waiting)) tally posting qid).trans (queueStands_served s i .waiting qid)
  have found : findHost (closingQueue s i qid h.cid) 0 h.cid = some i :=
    (findHost_congr tally 0 h.cid).trans ((t.findHost_served (by decide) 0 h.cid).trans t.found_zero)
  have noted := (closingQueue_only s i qid h.cid).undisturbedHost (qs := [.host])
  cases stands : queueStands s qid with
  | true =>
    rw [closeDeleted_waits (same.trans stands)]
    refine ⟨fun k hk => ?_, noted, fun x => by simp at x, fun _ => ⟨posting, ?_⟩⟩
    · rw [host, tget_sqMod_other s hk]
    · rw [host, tget_sqMod_same hq, Sq.closing, ← ht]
  | false =>
    rw [closeDeleted_ends (same.trans stands) found]
    obtain ⟨e, he, ho, -⟩ := t.fresh
    have waits : entryAt (withoutQueue (closingQueue s i qid h.cid) qid) i = some (servedIn .waiting e) := by
      refine (entryAt_congr (s := entryMod s i (servedIn .waiting)) tally i).trans ?_
      rw [entryAt_entryMod, if_pos rfl, he, Option.map_some]
    have ends := finish_undisturbed (withoutQueue (closingQueue s i qid h.cid) qid) i .success 0 0
    have sqs := (finish_sqs (withoutQueue (closingQueue s i qid h.cid) qid) i .success 0 0).trans
      (congrArg (fun x : HostSide => tdel x.sqs qid) host)
    refine ⟨fun k hk => ?_, ?_, fun _ => ⟨?_, completes_finish t.found_zero waits (t.sq ▸ ho) (by simp [servedIn]) .success 0 0⟩, fun x => by simp at x⟩
    · rw [sqs, tget_tdel, if_neg hk, tget_sqMod_other s hk]
    · exact noted.trans ((host_undisturbed _ _ (List.mem_singleton_self _)).trans (ends.mono (List.nil_subset _)))
    · rw [sqs, tget_tdel, if_pos rfl]

end Sys2Proof.Machine

open Sys2Proof Sys2Proof.Machine in
/-- Settles O28: creation and deletion change one queue of the host side and complete; a doorbell changes one and wakes the drive. -/
theorem hostQueuesComeAndGo : Obligations.HostQueuesComeAndGo := by
  refine ⟨fun s sq tail q cmds up en rdy hq nonempty ht room => ?_, fun s h i qid size prio cqid t hq free hc cq hs hp => ?_,
    fun s h i qid size vector ien t hq free hs hv => ?_, fun s h i qid q t h0 hq hd ht hu => ?_, fun s h i qid t h0 hq free => ?_⟩
  · refine ⟨_, doorbellWrite_queues up en rdy hq nonempty ht room, ?_, fun k hk => ?_, ?_, (sqMod_only s sq _).comp (wakeEvent_only _ 1)⟩ <;>
      rw [wakeEvent_host]
    · exact tget_sqMod_same hq _
    · exact tget_sqMod_other s hk _
    · rfl
  · obtain ⟨completes, undisturbed, postings⟩ := t.setsHost { s.host with sqs := tput s.host.sqs qid (Sq.fresh size prio cqid) }
    have sqs := congrArg HostSide.sqs postings
    dsimp only at sqs
    refine ⟨_, createIoSq_turn t hq free hc cq hs hp, ?_, fun k hk => ?_, completes, undisturbed, ?_⟩ <;> rw [sqs]
    · exact tget_tput_same ..
    · exact tget_tput_other _ _ _ _ hk
    · exact postings
  · obtain ⟨completes, undisturbed, postings⟩ := t.setsHost { s.host with cqs := tput s.host.cqs qid (Cq.fresh size vector ien) }
    have cqs := congrArg HostSide.cqs postings
    dsimp only at cqs
    refine ⟨_, createIoCq_turn t ien hq free hs hv, ?_, fun k hk => ?_, completes, undisturbed, ?_⟩ <;> rw [cqs]
    · exact tget_tput_same ..
    · exact tget_tput_other _ _ _ _ hk
    · exact postings
  · exact ⟨_, deleteIoSq_turn t h0 hq hd ht hu, closeDeleted_closing t hq ht⟩
  · obtain ⟨completes, undisturbed, postings⟩ := t.setsHost { s.host with cqs := tdel s.host.cqs qid }
    have cqs := congrArg HostSide.cqs postings
    dsimp only at cqs
    refine ⟨_, deleteIoCq_turn t h0 hq free, ?_, fun k hk => ?_, completes, undisturbed, ?_⟩ <;> rw [cqs]
    · rw [tget_tdel, if_pos rfl]
    · rw [tget_tdel, if_neg hk]
    · exact postings

end

section
/-!
Freezes and thaws (R103, R104): a Thaw that waits, a queue that falls quiet, and one that opens (O29).
-/

namespace Sys2Proof.Machine

/-! ## A Thaw waits -/

/-- A Thaw that has been accepted is noted last on its queue. -/
def Sq.withThaw (x : Thaw) (q : Sq) : Sq := { q with thaws := q.thaws ++ [x] }

section
variable {s : State} {h : HostId} {i serial sqid : Nat} (t : AdminTurn s h i) (fields : h.reservedOk = true)
include t fields

theorem queueThaw_waits {q : Sq} (discard : Bool) (h0 : sqid ≠ 0) (hq : tget s.host.sqs sqid = some q) (hf : q.freeze ≠ .opened)
    (hs : q.serial = serial) : exec (.queueThaw h serial sqid discard) s =
      .next (setState (sqMod (setRunning s i) sqid (Sq.withThaw ⟨sqid, h.cid, discard⟩)) i .waiting) := by
  have host : (setRunning s i).host = s.host := setRunning_only s i .host (by decide)
  change execQueueThaw h serial sqid discard s = _
  simp only [execQueueThaw, serveVendorAdmin_turn t fields, host, if_neg h0, hq]
  exact congrArg Host.Outcome.next (if_neg (by simp [hf, hs]))

theorem queueThaw_refused (discard : Bool)
    (hq : ∀ q, sqid ≠ 0 → tget s.host.sqs sqid = some q → q.freeze = .opened ∨ q.serial ≠ serial) :
    exec (.queueThaw h serial sqid discard) s = .next (finish (setRunning s i) i .commandSequenceError 0 0) := by
  have host : (setRunning s i).host = s.host := setRunning_only s i .host (by decide)
  change execQueueThaw h serial sqid discard s = _
  simp only [execQueueThaw, serveVendorAdmin_turn t fields, host]
  split
  · rfl
  · next q found =>
    split at found
    · cases found
    · next h0 => rw [if_pos (hq q h0 found)]

end

/-! ## A queue falls quiet -/

theorem queueQuiet_quiets {s : State} {sq : Nat} {q : Sq} (up : stopped s = false) (hq : tget s.host.sqs sq = some q)
    (hf : q.freeze = .draining) (hd : dispatchedOf s sq = 0) : exec (.queueQuiet sq) s = .next (enterQuiet s sq) := by
  change execQueueQuiet sq s = _
  simp [execQueueQuiet, hq, up, hf, hd]

/-- An event that is raised leaves the queues and the line of completions. -/
theorem raiseEvent_queues (s : State) (info : Nat) :
    (raiseEvent s info).host.sqs = s.host.sqs ∧ (raiseEvent s info).host.posting = s.host.posting := by
  unfold raiseEvent
  split <;> exact ⟨rfl, rfl⟩

theorem enterQuiet_sqs (s : State) (sq : Nat) : (enterQuiet s sq).host.sqs = (sqMod s sq (fun q => { q with
    freeze := .quiet, log := q.log.map (fun l => { l with quietBell := s.bell.count, outstanding := 0 }) })).host.sqs :=
  (raiseEvent_queues _ 2).1

theorem enterQuiet_posting (s : State) (sq : Nat) : (enterQuiet s sq).host.posting = s.host.posting :=
  (raiseEvent_queues _ 2).2

/-! ## Commands that a Thaw discards -/

theorem popSlot_only (s : State) (sq : Nat) : OnlyChanges [.host, .counters, .sticky] s (popSlot s sq) :=
  (sqMod_only s sq _).comp (count_only _ _ _ _)

theorem discardOne_only (sq : Nat) (s : State) (c : SqCmd) : OnlyChanges [.host, .counters, .sticky, .out] s (discardOne sq s c) :=
  (popSlot_only s sq).comp ((postOnly_only _ sq c.cid _ 0 0).comp (count_only _ _ _ _) (rs := [.host, .counters, .sticky, .out]))

theorem discardOne_host (sq : Nat) (s : State) (c : SqCmd) : (discardOne sq s c).host =
    (sqMod s sq (fun q => { q with slots := q.slots.tail, head := (q.head + 1) % q.size })).host :=
  (count_only _ _ _ _ .host (by decide)).trans
    ((postOnly_only _ sq c.cid _ 0 0 .host (by decide)).trans (count_only _ _ _ _ .host (by decide)))

theorem discardOne_outGrows (sq : Nat) (s : State) (c : SqCmd) : OutGrows s (discardOne sq s c) :=
  ((popSlot_only s sq).outGrows (by decide)).trans ((postOnly_outGrows _ _ _ _ _ _).trans ((count_only _ _ _ _).outGrows (by decide)))

theorem discardOne_completion (sq : Nat) (s : State) (c : SqCmd) :
    ∃ hd, Out.completion sq c.cid .queueFrozenAbort false 0 0 hd ∈ (discardOne sq s c).out := by
  have posted := (postOnly_prefix (popSlot s sq) sq c.cid .queueFrozenAbort 0 0).trans
    ((count_only (postOnly (popSlot s sq) sq c.cid .queueFrozenAbort 0 0) 0x600B 0 1).outGrows (by decide))
  exact ⟨_, posted.subset (List.mem_append_right _ (List.mem_singleton_self _))⟩

/-- The commands of a list are fetched from a queue and completed without being executed (R104). -/
def discardAll (sq : Nat) (s : State) (cs : List SqCmd) : State := cs.foldl (discardOne sq) s

theorem discardAll_only (sq : Nat) (s : State) (cs : List SqCmd) : OnlyChanges [.host, .counters, .sticky, .out] s (discardAll sq s cs) :=
  .foldl (discardOne_only sq) cs s

theorem discardAll_completions (sq : Nat) (s : State) (cs : List SqCmd) :
    ∀ c ∈ cs, ∃ hd, Out.completion sq c.cid .queueFrozenAbort false 0 0 hd ∈ (discardAll sq s cs).out := by
  induction cs generalizing s with
  | nil => simp
  | cons c cs ih =>
    refine List.forall_mem_cons.mpr ⟨?_, ih _⟩
    obtain ⟨hd, posted⟩ := discardOne_completion sq s c
    exact ⟨hd, (OutGrows.foldl (discardOne_outGrows sq) cs _).subset posted⟩

/-- The queue that the commands are taken from: its oldest are gone, and of the rest only its head differs. -/
theorem discardAll_queue {sq : Nat} {s : State} {q : Sq} (cs : List SqCmd) (hq : tget s.host.sqs sq = some q) :
    ∃ head, tget (discardAll sq s cs).host.sqs sq = some { q with slots := q.slots.drop cs.length, head := head } := by
  induction cs generalizing s q with
  | nil => exact ⟨q.head, hq⟩
  | cons c cs ih =>
    have popped : tget (discardOne sq s c).host.sqs sq = some { q with slots := q.slots.tail, head := (q.head + 1) % q.size } := by
      rw [discardOne_host]
      exact tget_sqMod_same hq _
    obtain ⟨head, rest⟩ := ih popped
    exact ⟨head, rest.trans (by simp [List.drop_tail])⟩

theorem discardAll_other {sq k : Nat} (hk : k ≠ sq) (s : State) (cs : List SqCmd) :
    tget (discardAll sq s cs).host.sqs k = tget s.host.sqs k := by
  induction cs generalizing s with
  | nil => rfl
  | cons c cs ih =>
    refine (ih _).trans ?_
    rw [discardOne_host]
    exact tget_sqMod_other s hk _

/-! ## A queue opens -/

/-- The queue as it opens, with no Thaw waiting. -/
def Sq.reopened (q : Sq) : Sq := { q with freeze := .opened, justOpened := true, thaws := [] }

/-- What a Thaw takes from its queue. -/
def discarded (discard : Bool) (q : Sq) : List SqCmd := if discard then q.slots else []

/-- The queue has opened, and what the Thaw discards has been completed. -/
def openedQueue (s : State) (sq : Nat) (discard : Bool) (q : Sq) : State := discardAll sq (sqMod s sq Sq.reopened) (discarded discard q)

theorem openedQueue_only (s : State) (sq : Nat) (discard : Bool) (q : Sq) :
    OnlyChanges [.host, .counters, .sticky, .out] s (openedQueue s sq discard q) :=
  (sqMod_only s sq _).comp (discardAll_only sq _ _)

theorem queueReopen_opens {s : State} {sq cid i : Nat} {discard : Bool} {q : Sq} (up : stopped s = false) (hp : s.dev.state ≠ .paused)
    (hq : tget s.host.sqs sq = some q) (hf : q.freeze = .quiet) (ht : q.thaws = [⟨sq, cid, discard⟩]) (found : findHost s 0 cid = some i) :
    exec (.queueReopen sq) s =
      .next (finish (openedQueue s sq discard q) i .success (if discard then q.slots.length else 0) 0) := by
  have slots : ((tget (sqMod s sq Sq.reopened).host.sqs sq).map (fun q => q.slots)).getD [] = q.slots := by
    rw [tget_sqMod_same hq]
    rfl
  have cmds : (if discard then ((tget (sqMod s sq Sq.reopened).host.sqs sq).map (fun q => q.slots)).getD [] else []) = discarded discard q := by
    rw [slots, discarded]
  have length : (discarded discard q).length = if discard then q.slots.length else 0 := by cases discard <;> rfl
  have stands : findHost ((discarded discard q).foldl (discardOne sq) (sqMod s sq Sq.reopened)) 0 cid = some i :=
    (findHost_congr (openedQueue_only s sq discard q .tally (by decide)) 0 cid).trans found
  have served : serveThaw sq (sqMod s sq Sq.reopened) ⟨sq, cid, discard⟩ =
      finish (openedQueue s sq discard q) i .success (if discard then q.slots.length else 0) 0 := by
    unfold serveThaw
    dsimp only
    rw [cmds, length, stands]
    rfl
  refine congrArg Host.Outcome.next ?_
  unfold openQueue
  rw [hq]
  dsimp only
  rw [if_neg (by simp [up, hp, hf, ht]), ht]
  exact served

/-- What a queue that opens leaves of itself, of the other queues and of what has been sent. -/
theorem openedQueue_opens {s : State} {sq : Nat} {q : Sq} (discard : Bool) (hq : tget s.host.sqs sq = some q) :
    (∃ p, tget (openedQueue s sq discard q).host.sqs sq = some p ∧ p.freeze = .opened ∧ p.justOpened = true ∧ p.thaws = [] ∧
      p.tail = q.tail ∧ p.slots = if discard then [] else q.slots) ∧
    (∀ k, k ≠ sq → tget (openedQueue s sq discard q).host.sqs k = tget s.host.sqs k) ∧
    (discard = true → ∀ c ∈ q.slots, ∃ hd, Out.completion sq c.cid .queueFrozenAbort false 0 0 hd ∈ (openedQueue s sq discard q).out) ∧
    (discard = false → (openedQueue s sq discard q).out = s.out) := by
  obtain ⟨head, queue⟩ := discardAll_queue (discarded discard q) (tget_sqMod_same hq Sq.reopened)
  refine ⟨⟨_, queue, rfl, rfl, rfl, rfl, ?_⟩, fun k hk => ?_, fun hd => ?_, fun hd => ?_⟩
  · cases discard <;> simp [discarded, Sq.reopened]
  · exact (discardAll_other hk _ _).trans (tget_sqMod_other s hk _)
  · subst hd
    exact discardAll_completions sq _ _
  · subst hd
    rfl

end Sys2Proof.Machine

open Sys2Proof Sys2Proof.Machine in
/-- Settles O29: a Thaw takes its place on the queue; QUIET is noted; the queue that opens gives up what the Thaw discards. -/
theorem frozenQueuesAreThawed : Obligations.FrozenQueuesAreThawed := by
  refine ⟨fun s h i serial sqid discard q t fields h0 hq hf hs => ?_, fun s h i serial sqid discard t fields hq => ?_,
    fun s sq q up hq hf hd => ?_, fun s sq cid i discard q up hp h0 hq hf ht ⟨found, e, he, ho, hr⟩ => ?_⟩
  · have host : (setRunning s i).host = s.host := setRunning_only s i .host (by decide)
    obtain ⟨e, he, -⟩ := t.fresh
    obtain ⟨d, runs⟩ := entryAt_setRunning he
    have stands : entryAt (sqMod (setRunning s i) sqid (Sq.withThaw ⟨sqid, h.cid, discard⟩)) i = _ := runs
    refine ⟨_, _, queueThaw_waits t fields discard h0 hq hf hs, ?_, fun k hk => ?_, ?_, setState_entryAt .waiting stands, rfl,
      (setRunning_only s i).comp ((sqMod_only _ sqid _).comp (setState_only _ i .waiting) (rs := [.tally, .host]))⟩
    · exact tget_sqMod_same (s := setRunning s i) (host ▸ hq) (Sq.withThaw ⟨sqid, h.cid, discard⟩)
    · exact (tget_sqMod_other (setRunning s i) hk (Sq.withThaw ⟨sqid, h.cid, discard⟩)).trans (by rw [host])
    · exact congrArg (fun x : HostSide => { x with sqs := s.host.sqs }) host
  · exact ⟨_, queueThaw_refused t fields discard hq, t.answers rfl .commandSequenceError 0 0 [],
      finish_running_undisturbed s i .commandSequenceError 0 0⟩
  · refine ⟨_, queueQuiet_quiets up hq hf hd, ?_, fun k hk => ?_, enterQuiet_posting s sq, enterQuiet_only s sq⟩ <;> rw [enterQuiet_sqs]
    · exact tget_sqMod_same hq _
    · exact tget_sqMod_other s hk _
  · have only := openedQueue_only s sq discard q
    obtain ⟨⟨p, queue, opened⟩, other, gone, kept⟩ := openedQueue_opens discard hq
    have out : (finish (openedQueue s sq discard q) i .success (if discard then q.slots.length else 0) 0).out = _ :=
      finish_only _ i .success _ 0 .out (by decide)
    have stands := (entryAt_congr (only .tally (by decide)) i).trans he
    obtain ⟨freeze, just, thaws, tail, slots⟩ := opened
    refine ⟨_, p, queueReopen_opens up hp hq hf ht found, ?_, freeze, just, thaws, tail, slots, ?_, ?_, ?_,
      completes_finish found stands ho hr .success _ 0, ?_⟩
    · rw [finish_sqs, queue]
    · rw [finish_sqs]
      exact other
    · rw [out]
      exact gone
    · rw [out]
      exact kept
    · exact only.undisturbedHost.trans ((finish_undisturbed _ i .success _ 0).mono (List.nil_subset _))

end

section
/-!
SUPPORT. Pages of which the spec fixes some fields (R88, R133): which byte each field puts where.
-/

namespace Sys2Proof.Machine

/-- The byte that the last of the fields over offset `k` puts there. -/
def fieldByte (fields : List (Nat × Bytes)) (k : Nat) : Option Nat :=
  fields.foldl (fun b f => if f.1 ≤ k ∧ k < f.1 + f.2.length then some (f.2.getD (k - f.1) 0) else b) none

theorem fieldByte_concat (fields : List (Nat × Bytes)) (f : Nat × Bytes) (k : Nat) : fieldByte (fields ++ [f]) k =
    if f.1 ≤ k ∧ k < f.1 + f.2.length then some (f.2.getD (k - f.1) 0) else fieldByte fields k := by
  simp only [fieldByte, List.foldl_append, List.foldl_cons, List.foldl_nil]

theorem patchAll_concat (bs : Bytes) (fields : List (Nat × Bytes)) (f : Nat × Bytes) :
    patchAll bs (fields ++ [f]) = patch (patchAll bs fields) f.1 f.2 := by
  simp only [patchAll, List.foldl_append, List.foldl_cons, List.foldl_nil]

theorem length_patch {bs new : Bytes} {off : Nat} (h : off + new.length ≤ bs.length) : (patch bs off new).length = bs.length := by
  simp only [patch, List.length_append, List.length_take, List.length_drop]
  omega

theorem getD_patch {bs new : Bytes} {off : Nat} (h : off + new.length ≤ bs.length) (k : Nat) :
    (patch bs off new).getD k 0 = if off ≤ k ∧ k < off + new.length then new.getD (k - off) 0 else bs.getD k 0 := by
  have front : (bs.take off).length = off := by rw [List.length_take]; omega
  unfold patch
  by_cases below : k < off
  · rw [if_neg (by omega), List.append_assoc, List.getD_append _ _ _ _ (by omega)]
    simp [below]
  · by_cases inside : k < off + new.length
    · rw [if_pos (by omega), List.getD_append _ _ _ _ (by rw [List.length_append]; omega), List.getD_append_right _ _ _ _ (by omega), front]
    · rw [if_neg (by omega), List.getD_append_right _ _ _ _ (by rw [List.length_append]; omega), List.length_append, front]
      simp only [List.getD_eq_getElem?_getD, List.getElem?_drop]
      congr 3
      omega

/-- Fields within a page leave its length, and each byte is that of the last field over it, or the page's own. -/
theorem patchAll_page (bs : Bytes) (fields : List (Nat × Bytes)) (h : ∀ f ∈ fields, f.1 + f.2.length ≤ bs.length) :
    (patchAll bs fields).length = bs.length ∧ ∀ k, (patchAll bs fields).getD k 0 = (fieldByte fields k).getD (bs.getD k 0) := by
  induction fields using List.reverseRecOn with
  | nil => exact ⟨rfl, fun _ => rfl⟩
  | append_singleton fields f ih =>
    obtain ⟨length, bytes⟩ := ih (fun g hg => h g (List.mem_append_left _ hg))
    have inside : f.1 + f.2.length ≤ (patchAll bs fields).length := length ▸ h f (List.mem_append_right _ (List.mem_singleton_self f))
    rw [patchAll_concat]
    refine ⟨(length_patch inside).trans length, fun k => ?_⟩
    rw [getD_patch inside, fieldByte_concat]
    split
    · rfl
    · exact bytes k

theorem bit_eq_testBit (n i : Nat) : bit n i = n.testBit i := (Nat.testBit_eq_decide_div_mod_eq ..).symm

end Sys2Proof.Machine
end

section
/-!
Features and Identify (R88, R92, R111, R133, R141, R157, R337, R341): what each answers from the state, and what setting a feature changes
(O31).
-/

namespace Sys2Proof.Machine

open Host (Outcome)

section
variable {s : State} {h : HostId} {i : Nat} (t : AdminTurn s h i)
include t

/-! ## Answers -/

/-- A command that answers a value in DW0 and does nothing else. -/
theorem AdminTurn.answersValue {c : Instr} {v w : Nat} (run : exec c s = .next (finish (setRunning s i) i .success v 0)) (hv : v = w) :
    ∃ u, exec c s = .next u ∧ Completes s u 0 h.cid [] .success w 0 ∧ Undisturbed [] s u :=
  ⟨_, run, hv ▸ t.answers rfl .success v 0 [], finish_running_undisturbed s i .success v 0⟩

/-- A command that answers data, for which it may have drawn free values. -/
theorem AdminTurn.answersPage {u : State} {ps : List Part} (hu : OnlyChanges ps (setRunning s i) u) (dw0 : Nat) (data : Bytes)
    (ht : .tally ∉ ps := by decide) (hm : .ledger ∉ ps ∧ .flash ∉ ps ∧ .compute ∉ ps ∧ .host ∉ ps := by decide) :
    Completes s (finishData u i .success dw0 0 data false) 0 h.cid data .success dw0 0 ∧
      Undisturbed ps s (finishData u i .success dw0 0 data false) := by
  refine ⟨t.answers (hu .tally ht) .success dw0 0 data, ?_⟩
  have runs := (setRunning_undisturbed s i).mono (List.nil_subset ps)
  exact runs.trans ((hu.undisturbed (List.subset_append_left _ _) hm).trans ((finishData_undisturbed ..).mono (List.nil_subset _)))

/-! ## Get Features -/

theorem getFeatures_apst : exec (.getFeatures h 0x0C) s =
    .next (finishData (setRunning s i) i .success (if s.power.apst then 1 else 0) 0 (apstBytes s.power.apstTable) false) := by
  have power : (setRunning s i).power = s.power := setRunning_only s i .power (by decide)
  rw [← power]
  exact congrArg Outcome.next (serveAdmin_turn t true _)

theorem getFeatures_other {fid : Nat} (other : fid ∉ [1, 2, 4, 7, 12, 0x11, 0x1D]) :
    exec (.getFeatures h fid) s = .next (finish (setRunning s i) i .invalidField 0 0) := by
  change execGetFeatures h fid s = _
  simp only [execGetFeatures, serveAdmin_turn t]
  split
  case h_8 => rfl
  all_goals exact absurd (by decide) other

/-! ## Set Features -/

theorem setFeaturesPowerManagement_turn {ps : Nat} (wh : Nat) (hp : ps ≤ 5) : exec (.setFeaturesPowerManagement h ps wh) s =
    .next (finish { setRunning s i with power := { s.power with hostPs := ps, hostWh := wh % 8, request := ps } } i .success 0 0) := by
  have power : (setRunning s i).power = s.power := setRunning_only s i .power (by decide)
  rw [← power]
  exact congrArg Outcome.next ((serveAdmin_turn t false _).trans (if_neg (by omega)))

theorem setFeaturesApst_turn (en : Bool) {table : List (Nat × Nat)} (short : table.length ≤ 32)
    (fields : ∀ e ∈ table, e.1 < 2 ^ 24 ∧ e.2 ≤ 5) : exec (.setFeaturesApst h en table) s =
    .next (finish { setRunning s i with power := { s.power with apst := en, apstTable := table, apstPs := 0 } } i .success 0 0) := by
  have power : (setRunning s i).power = s.power := setRunning_only s i .power (by decide)
  have within : table.any (fun e => decide (5 < e.2) || decide (2 ^ 24 ≤ e.1)) = false := by
    refine List.any_eq_false.mpr (fun e he => ?_)
    obtain ⟨time, state⟩ := fields e he
    simp only [Bool.or_eq_true, decide_eq_true_eq]
    omega
  rw [← power]
  exact congrArg Outcome.next ((serveAdmin_turn t false _).trans (if_neg (by simp only [within, Bool.or_false, decide_eq_true_eq]; omega)))

theorem setFeaturesNoppme_turn (en : Bool) : exec (.setFeaturesNoppme h en) s =
    .next (finish { setRunning s i with power := { s.power with noppme := en } } i .success 0 0) := by
  have power : (setRunning s i).power = s.power := setRunning_only s i .power (by decide)
  rw [← power]
  exact congrArg Outcome.next (serveAdmin_turn t false _)

/-- What a command that sets the power state `x` of the host leaves (R337, R341). -/
theorem AdminTurn.setsPower {c : Instr} {x : Power} (run : exec c s = .next (finish { setRunning s i with power := x } i .success 0 0)) :
    ∃ u, exec c s = .next u ∧ u.power = x ∧ Completes s u 0 h.cid [] .success 0 0 ∧ Undisturbed [.power] s u := by
  obtain ⟨completes, undisturbed⟩ := t.answersPage (only_power (setRunning s i) x) 0 []
  exact ⟨_, run, finish_only _ i .success 0 0 .power (by decide), completes, undisturbed⟩

theorem setFeaturesArbitration_turn (b l m g : Nat) : exec (.setFeaturesArbitration h b l m g) s =
    .next (finish { setRunning s i with host := { s.host with
      burst := if b % 8 = 7 then 0 else 2 ^ (b % 8), wLow := l % 256 + 1, wMed := m % 256 + 1, wHigh := g % 256 + 1 } } i .success 0 0) := by
  have host : (setRunning s i).host = s.host := setRunning_only s i .host (by decide)
  rw [← host]
  exact congrArg Outcome.next (serveAdmin_turn t false _)

theorem setFeaturesFdp_turn (en : Bool) (empty : s.ledger.nss = []) : exec (.setFeaturesFdp h en) s =
    .next (finish { setRunning s i with ledger := { s.ledger with fdp := en } } i .success 0 0) := by
  have ledger : (setRunning s i).ledger = s.ledger := setRunning_only s i .ledger (by decide)
  rw [← ledger]
  exact congrArg Outcome.next ((serveAdmin_turn t false _).trans (if_neg (by rw [ledger]; simp [empty])))

/-! ## Identify -/

theorem identify_list : exec (.identify h 2) s = .next (finishData (setRunning s i) i .success 0 0
    (slice ((s.ledger.nss.filter (fun p => decide (h.nsid < p.1))).flatMap (fun p => leBytes 4 p.1)) 0 4096) false) := by
  have ledger : (setRunning s i).ledger = s.ledger := setRunning_only s i .ledger (by decide)
  rw [← ledger]
  exact congrArg Outcome.next (serveAdmin_turn t true _)

theorem controllerFields_setRunning : controllerFields (setRunning s i) = controllerFields s := by rw [t.setRunning_eq]; rfl

theorem identify_controller : exec (.identify h 1) s = .next (finishData (drawBytes (setRunning s i) 4096).2 i .success 0 0
    (patchAll (drawBytes s 4096).1 (controllerFields s)) false) := by
  have free : (setRunning s i).free = s.free := setRunning_only s i .free (by decide)
  rw [← drawBytes_congr free, ← controllerFields_setRunning t]
  exact congrArg Outcome.next (serveAdmin_turn t true _)

theorem identify_namespace {ns : Namespace} (hn : nsOf s h.nsid = some ns) : exec (.identify h 0) s =
    .next (finishData (drawBytes (setRunning s i) 4096).2 i .success 0 0 (namespacePage (setRunning s i) (namespaceFields ns)).1 false) := by
  have found : nsOf (setRunning s i) h.nsid = some ns := by rw [t.setRunning_eq]; exact hn
  change execIdentify h 0 s = _
  simp only [execIdentify, serveAdmin_turn t, found]
  rfl

end

theorem finish_namespaces (s : State) (i : Nat) (st : Status) (dw0 dw1 : Nat) :
    (finish s i st dw0 dw1).ledger.fdp = s.ledger.fdp ∧ (finish s i st dw0 dw1).ledger.nss = s.ledger.nss := by
  unfold finish finishData
  split
  · exact ⟨rfl, rfl⟩
  · split
    · split <;> exact ⟨rfl, rfl⟩
    · exact ⟨rfl, rfl⟩

/-- The fields of an Identify Namespace page over the bytes `d`, of which two keep some bits. -/
def namespacePageFields (ns : Namespace) (d : Bytes) : List (Nat × Bytes) :=
  namespaceFields ns ++ [(24, [d.getD 24 0 ||| 16]), (33, [d.getD 33 0 / 8 * 8])]

theorem namespacePageFields_inside (ns : Namespace) (d : Bytes) : ∀ f ∈ namespacePageFields ns d, f.1 + f.2.length ≤ 4096 := by
  simp [namespacePageFields, namespaceFields, lbaFormats, length_leBytes]

/-- What the spec fixes of a page `b` that has its bytes from the fields over `d` (R133, R138, R157). -/
theorem namespacePageFields_read {ns : Namespace} {b d : Bytes}
    (bytes : ∀ k, b.getD k 0 = (fieldByte (namespacePageFields ns d) k).getD (d.getD k 0)) :
    slice b 0 8 = leBytes 8 ns.nsze ∧ b.getD 26 0 = ns.lbaf ∧ slice b 64 2 = leBytes 2 (if ns.lbaf = 0 then 3 else 0) ∧
      slice b 128 8 = [0, 0, 12, 2, 0, 0, 14, 0] ∧ b.getD 33 0 % 8 = 0 ∧ bit (b.getD 24 0) 4 = true := by
  refine ⟨?_, bytes 26, ?_, ?_, ?_, ?_⟩
  · simp only [slice, bytes]
    rfl
  · simp only [slice, bytes]
    rfl
  · simp only [slice, bytes]
    rfl
  · rw [bytes]
    exact Nat.mul_mod_left (d.getD 33 0 / 8) 8
  · rw [bytes, bit_eq_testBit]
    exact (Nat.testBit_or (d.getD 24 0) 16 4).trans (Bool.or_true _)

theorem namespacePage_page (s : State) (ns : Namespace) : (namespacePage s (namespaceFields ns)).1.length = 4096 ∧
    ∀ k, (namespacePage s (namespaceFields ns)).1.getD k 0 =
      (fieldByte (namespacePageFields ns (drawBytes s 4096).1) k).getD ((drawBytes s 4096).1.getD k 0) := by
  have drawn : (drawBytes s 4096).1.length = 4096 := by simp [drawBytes]
  obtain ⟨length, bytes⟩ := patchAll_page (drawBytes s 4096).1 (namespacePageFields ns (drawBytes s 4096).1)
    (fun f hf => (namespacePageFields_inside ns _ f hf).trans drawn.ge)
  exact ⟨length.trans drawn, bytes⟩

end Sys2Proof.Machine

open Sys2Proof Sys2Proof.Machine in
/-- Settles O31: what a feature answers is read from the state, which the command's own entry is no part of. -/
theorem featuresAnswerAndTakeEffect : Obligations.FeaturesAnswerAndTakeEffect := by
  refine ⟨fun s h i t => ⟨?_, ?_, fun fid other => ?_⟩, fun s h i ps wh t hp => ?_, fun s h i en table t short fields => ?_,
    fun s h i en t => ?_, fun s h i b l m g t => ?_, fun s h i en t empty => ?_, fun s h i t => ⟨?_, ?_, fun ns hn => ?_⟩⟩
  · have host : (setRunning s i).host = s.host := setRunning_only s i .host (by decide)
    have power : (setRunning s i).power = s.power := setRunning_only s i .power (by decide)
    have ledger : (setRunning s i).ledger = s.ledger := setRunning_only s i .ledger (by decide)
    simp only [List.forall_mem_cons, List.not_mem_nil, false_implies, implies_true, and_true]
    exact ⟨t.answersValue (congrArg _ (serveAdmin_turn t true _)) (by rw [host]),
      t.answersValue (congrArg _ (serveAdmin_turn t true _)) (by rw [power]),
      t.answersValue (congrArg _ (serveAdmin_turn t true _)) rfl,
      t.answersValue (congrArg _ (serveAdmin_turn t true _)) rfl,
      t.answersValue (congrArg _ (serveAdmin_turn t true _)) (by rw [power]),
      t.answersValue (congrArg _ (serveAdmin_turn t true _)) (by rw [ledger])⟩
  · exact ⟨_, getFeatures_apst t, t.answersPage (.refl [] _) _ _⟩
  · exact ⟨_, getFeatures_other t other, t.answers rfl .invalidField 0 0 [], finish_running_undisturbed s i .invalidField 0 0⟩
  · exact t.setsPower (setFeaturesPowerManagement_turn t wh hp)
  · exact t.setsPower (setFeaturesApst_turn t en short fields)
  · exact t.setsPower (setFeaturesNoppme_turn t en)
  · obtain ⟨completes, undisturbed, postings⟩ := t.setsHost { s.host with
      burst := if b % 8 = 7 then 0 else 2 ^ (b % 8), wLow := l % 256 + 1, wMed := m % 256 + 1, wHigh := g % 256 + 1 }
    exact ⟨_, setFeaturesArbitration_turn t b l m g, postings, completes, undisturbed⟩
  · obtain ⟨fdp, nss⟩ := finish_namespaces { setRunning s i with ledger := { s.ledger with fdp := en } } i .success 0 0
    have ledger : (setRunning s i).ledger = s.ledger := setRunning_only s i .ledger (by decide)
    have map : s.ledger.map = (setRunning s i).ledger.map := congrArg Ledger.map ledger.symm
    have set : Undisturbed [] (setRunning s i) { setRunning s i with ledger := { s.ledger with fdp := en } } :=
      ⟨(only_ledger _ _).mono (by decide), map, rfl, rfl, fun _ => rfl⟩
    exact ⟨_, setFeaturesFdp_turn t en empty, fdp, nss.trans empty,
      t.answers (u := { setRunning s i with ledger := { s.ledger with fdp := en } }) rfl .success 0 0 [],
      (setRunning_undisturbed s i).trans (set.trans (finish_undisturbed _ i .success 0 0))⟩
  · exact ⟨_, identify_list t, (t.answersPage (.refl [] _) _ _).symm⟩
  · exact ⟨_, identify_controller t, (t.answersPage (drawBytes_only _ _) _ _).symm⟩
  · obtain ⟨completes, undisturbed⟩ := t.answersPage (drawBytes_only (setRunning s i) 4096) 0
      (namespacePage (setRunning s i) (namespaceFields ns)).1
    obtain ⟨length, bytes⟩ := namespacePage_page (setRunning s i) ns
    exact ⟨_, _, identify_namespace t hn, undisturbed, completes, length, namespacePageFields_read bytes⟩

end

section
/-!
SUPPORT. Services of a die (R115, R116, R126, R129): what each verb answers on a die that can take it, and what is left of a die whose
work is cleared.
-/

namespace Sys2Proof.Machine

/-! ## Verbs on an IDLE die (R126, Table 5.5) -/

section
variable {s : State} {die : Nat} (v : DieServes s die) (idle : (dieOf s die).st = .idle)
include v idle

theorem exec_setLevels {group : Nat} {o : List Int} (hg : group < 29) (ho : o.length = 7) : exec (.setLevels die group o) s =
    .next (verbEnds { s with flash := { s.flash with levels := tput s.flash.levels (die * 32 + group) o } } die 9 .done []) := by
  change execSetLevels die group o s = _
  simp [execSetLevels, flashRuns, v.up, dieOk, v.inside, v.engine, idle, hg, ho]

theorem exec_senseValley {a : FlashAddr} {level : Nat} {sweep : List Int} (counts : List Int) (ha : a.die = die)
    (hok : addrOk s a false = true) (low : 1 ≤ level) (high : level ≤ 7) (hw : sweep.length = 16) : exec (.senseValley a level sweep counts) s =
      .next (verbEnds s die 10 .done ((List.range 16).map (fun i => (counts.getD i 0).toNat))) := by
  subst ha
  change execSenseValley a level sweep counts s = _
  simp [execSenseValley, flashRuns, v.up, v.engine, idle, hok, hw, Nat.ne_of_gt low, Nat.not_lt.mpr high]

theorem exec_readParams : exec (.readParams die) s =
    .next (verbEnds s die 14 .done ((List.range 256).map (fun i => Config.paramByte die i % 256))) := by
  change execReadParams die s = _
  simp [execReadParams, flashRuns, v.up, dieOk, v.inside, v.engine, idle]

end

/-! ## Clearing a die (R115, R129) -/

theorem exec_dieStatus {s : State} {die : Nat} (h : stopped s = false) (hd : die < s.ident.dies) :
    exec (.dieStatus die) s = .next (verbEnds s die 11 .done [(dieOf s die).st.code]) := by
  change execDieStatus die s = _
  simp [execDieStatus, flashRuns, h, dieOk, hd]

theorem exec_dieReset {s : State} {die : Nat} (h : stopped s = false) (hd : die < s.ident.dies) :
    exec (.dieReset die true) s = .next (verbEnds (clearDie s die) die 12 .done []) := by
  change execDieReset die true s = _
  simp [execDieReset, flashRuns, h, dieOk, hd]

/-- The dies, the map and what has been sent stand as they are. -/
structure DiesStand (s t : State) : Prop where
  dies : t.flash.dies = s.flash.dies
  map : t.ledger.map = s.ledger.map
  out : t.out = s.out

theorem DiesStand.refl (s : State) : DiesStand s s := ⟨rfl, rfl, rfl⟩

theorem DiesStand.trans {s t u : State} (a : DiesStand s t) (b : DiesStand t u) : DiesStand s u :=
  ⟨b.dies.trans a.dies, b.map.trans a.map, b.out.trans a.out⟩

theorem ArrayStands.diesStand {s t : State} (a : ArrayStands s t) : DiesStand s t := ⟨a.dies, a.map, a.out⟩

theorem foldl_putBlank_stands (ls : List Nat) (s : State) : DiesStand s (ls.foldl (fun s l => putPage s l blankPage false) s) :=
  foldl_rel (f := fun s l => putPage s l blankPage false) DiesStand.refl (fun _ _ _ => .trans) (fun _ _ => ⟨rfl, rfl, rfl⟩) ls s

/-- A blank page stays where it is while more are put. -/
theorem foldl_putBlank_keeps (ls : List Nat) {s : State} {l : Nat} (h : tget s.flash.pages l = some blankPage) :
    tget (ls.foldl (fun s l => putPage s l blankPage false) s).flash.pages l = some blankPage := by
  refine foldl_rel (R := fun s t => tget s.flash.pages l = some blankPage → tget t.flash.pages l = some blankPage)
    (fun _ h => h) (fun _ _ _ a b h => b (a h)) (fun t k ht => ?_) ls s h
  by_cases hl : l = k
  · subst hl
    exact tget_tput_same _ _ _
  · exact (tget_tput_other _ _ _ _ hl).trans ht

theorem foldl_putBlank_blank (ls : List Nat) (s : State) :
    ∀ l ∈ ls, tget (ls.foldl (fun s l => putPage s l blankPage false) s).flash.pages l = some blankPage := by
  induction ls generalizing s with
  | nil => exact fun _ h => absurd h List.not_mem_nil
  | cons k ls ih =>
    intro l hl
    rcases List.mem_cons.mp hl with rfl | hl
    · exact foldl_putBlank_keeps ls (tget_tput_same _ _ _)
    · exact ih _ l hl

/-- The word line of an abandoned program is blank, and dies, map and what has been sent stand (R129). -/
theorem abandonLine_blanks (s : State) (die : Nat) (p : DieProgram) : DiesStand s (abandonLine s die p) ∧
    ∀ l ∈ lineLocs die p.block p.wl p.slc, tget (abandonLine s die p).flash.pages l = some blankPage := by
  unfold abandonLine
  extract_lets k u v
  have waits : ArrayStands u v := .ite (.foldl (restageLoc_array k) _ u) (.refl u)
  exact ⟨((unplace_array s die).trans waits).diesStand.trans ((foldl_putBlank_stands _ v).trans (bandMod_array _ k _).diesStand),
    foldl_putBlank_blank _ v⟩

/-- A die's program, where it has one, is over, and its word line abandoned. -/
def programAbandoned (s : State) (die : Nat) : State :=
  match (dieOf s die).program with
  | some p => freeFamily (abandonLine s die p) p.entry
  | none => s

theorem programAbandoned_none {s : State} {die : Nat} (h : (dieOf s die).program = none) : programAbandoned s die = s := by
  simp [programAbandoned, h]

theorem programAbandoned_some {s : State} {die : Nat} {p : DieProgram} (h : (dieOf s die).program = some p) :
    programAbandoned s die = freeFamily (abandonLine s die p) p.entry := by
  simp [programAbandoned, h]

theorem programAbandoned_stands (s : State) (die : Nat) : DiesStand s (programAbandoned s die) := by
  cases hp : (dieOf s die).program with
  | none =>
    rw [programAbandoned_none hp]
    exact .refl s
  | some p =>
    rw [programAbandoned_some hp]
    exact (abandonLine_blanks s die p).1.trans (freeFamily_array _ _).diesStand

/-- A die with nothing on it but what it has not begun. -/
def Die.cleared (d : Die) (ns : Nat) : Die :=
  { Die.reset with pending := d.pending, placed := d.placed, plan := d.plan, trackedBell := d.trackedBell, sinceNs := ns, endNs := ns }

/-- Beside its program's word line, clearing a die leaves the array as it was. -/
theorem clearDie_array (s : State) (die : Nat) : ∃ t, ArrayStands (programAbandoned s die) t ∧
    clearDie s die = dieMod t die (fun d => d.cleared (nowNs t)) := by
  unfold clearDie
  extract_lets d u v w
  refine ⟨w, ?_, rfl⟩
  have erased : ArrayStands u v := .ite (endDieJob_array u 0x0A die) (.refl u)
  refine erased.trans ?_
  unfold w
  split
  · exact ⟨rfl, rfl, rfl, rfl⟩
  · exact .refl v

/-- What a cleared die is, and what clearing it leaves as it was. -/
theorem clearDie_clears (s : State) (die : Nat) : ∃ ns, dieOf (clearDie s die) die = (dieOf s die).cleared ns ∧
    (clearDie s die).flash.pages = (programAbandoned s die).flash.pages ∧ (clearDie s die).ledger.map = s.ledger.map ∧
    (clearDie s die).out = s.out := by
  obtain ⟨t, array, e⟩ := clearDie_array s die
  have stands := (programAbandoned_stands s die).trans array.diesStand
  rw [e]
  exact ⟨nowNs t, by rw [dieOf_dieMod_same, dieOf_congr stands.dies], array.pages, stands.map, stands.out⟩

/-! ## CHANNEL_TRAIN (Table 5.5) -/

/-- Channel `ch` is no longer noted as trained. -/
def untrained (s : State) (ch : Nat) : State :=
  { s with flash := { s.flash with trained := s.flash.trained.filter (fun c => c ≠ ch) } }

theorem exec_channelTrain {s : State} {ch : Nat} (h : stopped s = false) (hc : ch < 32) (hu : (unitOf s (200 + ch)).state ≠ .reset)
    (idle : ∀ p ∈ s.flash.dies, p.1 % 32 = ch → p.2.st = .idle) (ok : Bool) : exec (.channelTrain ch ok) s = .next (
      if ok then verbEnds { s with flash := { s.flash with trained := (untrained s ch).flash.trained ++ [ch] } } ch 13 .done []
      else verbEnds (verbFailed (untrained s ch) (200 + ch) 13 .trainFail ⟨ch, 0, 0, 0, 0⟩)
        ch 13 .trainFail []) := by
  have free : s.flash.dies.any (fun p => p.1 % 32 = ch && p.2.st ≠ .idle) = false := by
    refine List.any_eq_false.mpr (fun p hp => ?_)
    simpa using idle p hp
  change execChannelTrain ch ok s = _
  simp only [execChannelTrain, flashRuns, h, free]
  rw [if_neg (by decide), if_neg (by omega), if_neg (by simpa using hu)]
  cases ok <;> rfl

/-! ## DIE_TIMEOUT (R115) -/

/-- The map stands as it is, and whatever is sent follows what has been sent. -/
structure SendsOn (s t : State) : Prop where
  map : t.ledger.map = s.ledger.map
  out : s.out <+: t.out

theorem SendsOn.refl (s : State) : SendsOn s s := ⟨rfl, List.prefix_rfl⟩

theorem SendsOn.trans {s t u : State} (a : SendsOn s t) (b : SendsOn t u) : SendsOn s u := ⟨b.map.trans a.map, a.out.trans b.out⟩

theorem SendsOn.foldl {α : Type} {f : State → α → State} (hf : ∀ s x, SendsOn s (f s x)) (l : List α) (s : State) :
    SendsOn s (l.foldl f s) := foldl_rel SendsOn.refl (fun _ _ _ => .trans) hf l s

theorem SendsOn.ite {s t u : State} {c : Prop} [Decidable c] (a : SendsOn s t) (b : SendsOn s u) : SendsOn s (if c then t else u) := by
  split <;> assumption

theorem OnlyChanges.sendsOn {ps : List Part} {s t : State} (a : OnlyChanges ps s t) (h : .ledger ∉ ps ∧ .out ∉ ps := by decide) :
    SendsOn s t := by
  have out : t.out = s.out := a .out h.2
  exact ⟨congrArg Ledger.map (a .ledger h.1), out ▸ List.prefix_rfl⟩

theorem freeFamily_sendsOn (s : State) (i : Nat) : SendsOn s (freeFamily s i) := ⟨rfl, List.prefix_rfl⟩

theorem cancelRead_sendsOn (s : State) (die : Nat) : SendsOn s (cancelRead s die) := by
  unfold cancelRead
  split
  · exact .refl s
  · exact .ite (.refl s) ⟨rfl, List.prefix_append _ _⟩

theorem dropSibling_sendsOn (s : State) (i : Nat) : SendsOn s (dropSibling s i) :=
  (SendsOn.foldl cancelRead_sendsOn _ s).trans (freeFamily_sendsOn _ i)

theorem dropRebuild_sendsOn (s : State) (l : Ladder) : SendsOn s (dropRebuild s l) :=
  .trans (only_tally s _).sendsOn (.foldl dropSibling_sendsOn _ _)

theorem rebuildFails_sendsOn (s : State) (l : Ladder) (position : Nat) : SendsOn s (rebuildFails s l position) := by
  unfold rebuildFails
  extract_lets m t
  have put (n : Ladder) : SendsOn t (ladderPut t n) := (ladderPut_only t n).sendsOn
  exact (dropRebuild_sendsOn s m).trans (.ite (put _) (.ite (put _) (put _)))

theorem ladderFailed_sendsOn (s : State) (l : Ladder) : SendsOn s (ladderFailed s l) := by
  unfold ladderFailed
  split
  · split
    · exact rebuildFails_sendsOn s _ _
    · exact freeFamily_sendsOn s _
  · exact (ladderPut_only s _).sendsOn

theorem startRebuild_sendsOn (s : State) (l : Ladder) : SendsOn s (startRebuild s l) := by
  unfold startRebuild
  extract_lets u t v w
  have counted : SendsOn s v := (count_only s u 9 1).sendsOn.trans (.ite (count_only t u 4 1).sendsOn (.refl t))
  exact counted.trans ((ladderPut_only v _).sendsOn.trans (.foldl (fun x b => (await_only x _).sendsOn) _ w))

theorem toRebuild_sendsOn (s : State) (l : Ladder) : SendsOn s (toRebuild s l) :=
  .ite (ladderPut_only s _).sendsOn (.ite (startRebuild_sendsOn s _) (ladderFailed_sendsOn s _))

theorem noteUrgentOverrun_sendsOn (s : State) (l : Ladder) : SendsOn s (noteUrgentOverrun s l) :=
  .ite (.refl s) ((ladderMod_only s _).sendsOn.trans (count_only _ _ _ _).sendsOn)

theorem ladderNext_sendsOn (s : State) (l : Ladder) (erased : Bool) : SendsOn s (ladderNext s l erased) := by
  refine .ite (toRebuild_sendsOn s l) (.ite (.ite (startRebuild_sendsOn s _) (ladderPut_only s _).sendsOn) (.ite ?_ (ladderPut_only s _).sendsOn))
  exact .trans (.ite (noteUrgentOverrun_sendsOn s l) (.refl s)) (ladderPut_only _ _).sendsOn

/-- A codeword whose read has failed goes on with its ladder, which maps nothing. -/
theorem meetOutcome_failed_sendsOn (r : DieRead) (s : State) (k : Nat) : SendsOn s (meetOutcome r s k .failed) := by
  unfold meetOutcome
  dsimp only
  split
  case h_3 => exact ladderNext_sendsOn s _ false
  case h_5 => exact .refl s
  all_goals contradiction

/-- The codewords that a die reads, where it reads, have failed at this step. -/
def readFails (s : State) (die : Nat) : State :=
  match (dieOf s die).read with
  | none => s
  | some r => (maskBits r.mask).foldl (fun s k => meetOutcome r s k .failed) s

theorem readFails_none {s : State} {die : Nat} (h : (dieOf s die).read = none) : readFails s die = s := by simp [readFails, h]

theorem readFails_sendsOn (s : State) (die : Nat) : SendsOn s (readFails s die) := by
  unfold readFails
  split
  · exact .refl s
  · next r _ => exact .foldl (meetOutcome_failed_sendsOn r) _ s

/-- Where the record of a die that has been busy too long points: the page of its read, or the block of its program or erase. -/
def timeoutAddr (d : Die) (die : Nat) : FlashAddr :=
  (d.read.map (fun r => r.addr)).getD ⟨die, 0, (d.program.map (fun p => p.block)).getD ((d.erase.map (fun e => e.block)).getD 0), 0, 0⟩

theorem exec_dieTimeout {s : State} {die verb most ns : Nat} (h : stopped s = false)
    (ho : operation s (dieOf s die) = some (verb, most, ns)) : exec (.dieTimeout die) s = .next (if ns ≤ 2 * most then s
      else verbEnds (verbFailed (clearDie (readFails s die) die) (channelUnit die) verb .dieTimeout (timeoutAddr (dieOf s die) die))
        die verb .dieTimeout []) := by
  change execDieTimeout die s = _
  simp only [execDieTimeout, ho, flashRuns, h, Bool.not_false, Bool.not_true, Bool.false_or, decide_eq_true_eq]
  split <;> rfl

end Sys2Proof.Machine
end

section
/-!
SUPPORT. The threshold tracker (R126 to R128) and a codeword that cannot be decoded (R161).
-/

namespace Sys2Proof.Machine

/-! ## TRACKER_RUN (R126, R127) -/

/-- Seven offsets, each moved by a step of the tracker towards its valley. -/
def valleyStep (old minima : List Int) : List Int :=
  (List.range 7).map (fun l => moveOffset (old.getD l 0) (minima.getD l (old.getD l 0)))

theorem valleyStep_length (old minima : List Int) : (valleyStep old minima).length = 7 := by simp [valleyStep]

theorem moveOffset_near (now target : Int) : (moveOffset now target - now).natAbs ≤ 2 := by
  unfold moveOffset
  omega

theorem valleyStep_near (old minima : List Int) {l : Nat} (h : l < 7) : ((valleyStep old minima).getD l 0 - old.getD l 0).natAbs ≤ 2 := by
  have moved : (valleyStep old minima).getD l 0 = moveOffset (old.getD l 0) (minima.getD l (old.getD l 0)) := by
    simp [valleyStep, List.getD_eq_getElem?_getD, h]
  rw [moved]
  exact moveOffset_near _ _

/-- The tracker's new offsets for a group, proposed, and loaded unless the table is pinned. -/
def retuned (s : State) (k : Nat) (new : List Int) : State :=
  { s with flash := { s.flash with
      proposals := tput s.flash.proposals k new
      levels := if odVal s 0x2210 0 = 1 then s.flash.levels else tput s.flash.levels k new
      meanBits := tput s.flash.meanBits k (0, 0)
      hot := s.flash.hot.filter (fun x => x ≠ k) } }

/-- A run of the tracker: the new offsets, its entry gone, and the die's interval begun again. -/
def trackerDone (s : State) (die i k : Nat) (new : List Int) : State :=
  dieMod (freeFamily (retuned s k new) i) die (fun d => { d with trackedBell := s.bell.ticks })

section
variable {s : State} {die group : Nat} (h : stopped s = false) (hd : die < s.ident.dies) (hg : group < 29)
include h hd hg

theorem exec_trackerRun_asks (minima : List Int) (none_ : trackerEntry s die group = none) (quiet : trackerWaits s die group = false)
    (due : trackerDue s die group = true) :
    exec (.trackerRun die group minima) s = .next (await s (jobReq 0x07 (trackerTag die group) 3 (channelUnit die))) := by
  change execTrackerRun die group minima s = _
  simp [execTrackerRun, flashRuns, h, dieOk, hd, hg, none_, quiet, due]

theorem exec_trackerRun_runs (minima : List Int) {i : Nat} (found : trackerEntry s die group = some i) (may : trackerMayRun s die = true) :
    exec (.trackerRun die group minima) s = .next (checkDivergence (trackerDone s die i (trackerTag die group)
      (valleyStep (trackerOffsets s (trackerTag die group)) minima))) := by
  change execTrackerRun die group minima s = _
  simp only [execTrackerRun, flashRuns, h, dieOk, hd, hg, found, may]
  rfl

end

/-- The check of the pin against the tracker writes its record once, and changes no level, proposal, die or page (R128). -/
theorem checkDivergence_records (s : State) : OnlyChanges [.flash, .sticky] s (checkDivergence s) ∧ ArrayStands s (checkDivergence s) ∧
    (checkDivergence s).flash.levels = s.flash.levels ∧ (checkDivergence s).flash.proposals = s.flash.proposals := by
  unfold checkDivergence
  split
  · exact ⟨.refl _ s, .refl s, rfl, rfl⟩
  · split
    · exact ⟨.refl _ s, .refl s, rfl, rfl⟩
    · have raised (u : State) (r : Record) : OnlyChanges [.sticky] u (raiseRecord u r) := raiseRecord_only u r
      have levels (u : State) (r : Record) : (raiseRecord u r).flash.levels = u.flash.levels :=
        congrArg Flash.levels (raised u r .flash (by decide))
      have proposals (u : State) (r : Record) : (raiseRecord u r).flash.proposals = u.flash.proposals :=
        congrArg Flash.proposals (raised u r .flash (by decide))
      refine ⟨(only_flash s _).comp (raised _ _), .trans ?_ (raised _ _).arrayStands, levels _ _, proposals _ _⟩
      exact ⟨rfl, rfl, rfl, rfl⟩

theorem trackerDone_only (s : State) (die i k : Nat) (new : List Int) : OnlyChanges completionParts s (trackerDone s die i k new) :=
  ((only_flash s _).comp (freeFamily_completion _ i) (rs := completionParts)).comp (dieMod_only _ die _)

theorem trackerDone_die (s : State) (die i k : Nat) (new : List Int) :
    (dieOf (trackerDone s die i k new) die).trackedBell = s.bell.ticks := congrArg Die.trackedBell (dieOf_dieMod_same _ die _)

/-! ## DECODE_FAIL (R161) -/

theorem mapAt_mapSet_same (s : State) (iu : Nat) {e : MapEntry} (h : e ≠ .empty) : mapAt (mapSet s iu e) iu = e := by
  simp [mapAt, mapSet, mapPut, h]

theorem mapAt_mapSet_other (s : State) {iu j : Nat} (e : MapEntry) (h : j ≠ iu) : mapAt (mapSet s iu e) j = mapAt s j := by
  simp only [mapAt, mapSet, mapPut]
  split
  · simp [tgetD, tget_tdel, h]
  · exact tgetD_tput_other _ _ _ _ _ h

theorem mapAt_congr {s t : State} (h : t.ledger.map = s.ledger.map) (iu : Nat) : mapAt t iu = mapAt s iu := by simp [mapAt, h]

theorem iuAt_mapped {s : State} {a : FlashAddr} {iu : Nat} (h : iuAt s a = some iu) : (mapAt s iu).mapped = true := by
  obtain ⟨-, found⟩ := Option.filter_eq_some_iff.mp h
  simp only [Bool.and_eq_true] at found
  exact found.1

/-- The IU with the POISON bit of a codeword set; its die block is retired at its next erase. -/
def poisoned (s : State) (a : FlashAddr) (iu : Nat) : State :=
  retireLater (mapSet s iu { mapAt s iu with poison := setBit (mapAt s iu).poison a.cw }) a

theorem poisonOne_poisons {s : State} {a : FlashAddr} {iu : Nat} (h : iuAt s a = some iu) (hb : bit (mapAt s iu).poison a.cw = false) :
    poisonOne s a = (poisonedLbas s iu (setBit 0 a.cw), poisoned s a iu) := by
  simp [poisonOne, h, hb, poisoned]

theorem retireLater_only (s : State) (a : FlashAddr) : OnlyChanges [.ledger] s (retireLater s a) := .ite (.refl _ s) (bandMod_only s _ _)

theorem poisoned_only (s : State) (a : FlashAddr) (iu : Nat) : OnlyChanges [.ledger] s (poisoned s a iu) :=
  (mapSet_only s iu _).trans (retireLater_only _ a)

theorem poisoned_map {s : State} {a : FlashAddr} {iu : Nat} (h : iuAt s a = some iu) :
    mapAt (poisoned s a iu) iu = { mapAt s iu with poison := setBit (mapAt s iu).poison a.cw } ∧
    ∀ j, j ≠ iu → mapAt (poisoned s a iu) j = mapAt s j := by
  have kept := mapAt_congr (retireLater_array (mapSet s iu { mapAt s iu with poison := setBit (mapAt s iu).poison a.cw }) a).map
  refine ⟨(kept iu).trans (mapAt_mapSet_same s iu (fun he => ?_)), fun j hj => (kept j).trans (mapAt_mapSet_other s _ hj)⟩
  have mapped := congrArg MapEntry.mapped he
  exact absurd ((iuAt_mapped h).symm.trans mapped) (by decide)

/-- The drive says which LBAs it has lost, where it has lost any: the record, the warning, and event 0x03. -/
def lossNoted (s : State) (a : FlashAddr) (lbas : List (Nat × Nat)) : State :=
  if lbas = [] then s else
  let first := lbas.headD (0, 0)
  let s := raiseRecord s (poisonRecord a lbas)
  let s := { warnHost s 2 0 with ledger := { s.ledger with poisonNsid := first.1, poisonLba := first.2, poisonBell := s.bell.count } }
  raiseEvent s 3

theorem lossNoted_only (s : State) (a : FlashAddr) (lbas : List (Nat × Nat)) :
    OnlyChanges [.sticky, .host, .ledger] s (lossNoted s a lbas) ∧ (lossNoted s a lbas).ledger.map = s.ledger.map := by
  unfold lossNoted
  split
  · exact ⟨.refl _ s, rfl⟩
  · extract_lets first t w _ u
    have recorded : OnlyChanges [.sticky] s t := raiseRecord_only s _
    have warned : OnlyChanges [.host, .ledger] t u := (warnHost_only t 2 0).comp (only_ledger w _)
    have event : OnlyChanges [.host] u (raiseEvent u 3) := raiseEvent_only u 3
    refine ⟨recorded.comp (warned.comp event (rs := [.host, .ledger])), ?_⟩
    have last : (raiseEvent u 3).ledger.map = u.ledger.map := congrArg Ledger.map (event .ledger (by decide))
    have start : t.ledger.map = s.ledger.map := congrArg Ledger.map (recorded .ledger (by decide))
    exact last.trans start

/-- The codeword of a DECODE_FAIL with those of its row whose own failure made its rebuild fail. -/
def lostRow (s : State) (a : FlashAddr) : List FlashAddr :=
  a :: (siblings s a).filter (fun b => (((failedAt s a).flatMap (fun l => l.lost)).dedup).contains (positionOf b.die))

theorem lostRow_alone {s : State} {a : FlashAddr} {l : Ladder} (hf : failedAt s a = [l]) (alone : l.lost = []) : lostRow s a = [a] := by
  simp [lostRow, hf, alone]

theorem execDecodeFail_eq (unit : Nat) (a : FlashAddr) (s : State) : execDecodeFail unit a s =
    if !flashRuns s || unit ≠ channelUnit a.die || failedAt s a = [] then .next s
    else .next ((failedAt s a).foldl readerFails (lossNoted (poisonRow s (lostRow s a)).2 a (poisonRow s (lostRow s a)).1)) := rfl

theorem exec_decodeFail {s : State} {a : FlashAddr} {iu : Nat} {l : Ladder} (h : stopped s = false) (hf : failedAt s a = [l])
    (alone : l.lost = []) (hi : iuAt s a = some iu) (hb : bit (mapAt s iu).poison a.cw = false) :
    exec (.decodeFail (channelUnit a.die) a) s =
      .next (readerFails (lossNoted (poisoned s a iu) a (poisonedLbas s iu (setBit 0 a.cw))) l) := by
  have lost : poisonRow s [a] = (poisonedLbas s iu (setBit 0 a.cw), poisoned s a iu) := by
    simp only [poisonRow, poisonOne_poisons hi hb, List.append_nil]
  have run := (execDecodeFail_eq (channelUnit a.die) a s).trans (if_neg (by simp [flashRuns, h, hf]))
  rw [lostRow_alone hf alone, lost, hf] at run
  exact run

theorem endReader_only (s : State) (entry : Nat) : OnlyChanges completionParts s (endReader s entry) :=
  .ite (freeFamily_completion s entry) (.refl _ s)

theorem endReader_array (s : State) (entry : Nat) : ArrayStands s (endReader s entry) := .ite (freeFamily_array s entry) (.refl s)

theorem endReader_ladders (s : State) (entry : Nat) : ∀ m ∈ (endReader s entry).flash.ladders, m ∈ s.flash.ladders := by
  unfold endReader
  split
  · exact fun m hm => (List.mem_filter.mp hm).1
  · exact fun m hm => hm

/-- The end of a ladder leaves of the ladders that stood none for its entry and codeword. -/
theorem readerFails_ladders {s : State} {l m : Ladder} (h : m ∈ (readerFails s l).flash.ladders) :
    m ∈ s.flash.ladders ∧ ¬(m.entry = l.entry ∧ m.addr = l.addr) := by
  obtain ⟨stood, other⟩ := List.mem_filter.mp (endReader_ladders _ _ m h)
  exact ⟨stood, not_and_or.mpr (by simpa using other)⟩

theorem mem_failedAt {s : State} {a : FlashAddr} {l : Ladder} :
    l ∈ failedAt s a ↔ l ∈ s.flash.ladders ∧ l.addr = a ∧ l.st = .failed := by
  simp [failedAt]

theorem addr_of_failedAt {s : State} {a : FlashAddr} {l : Ladder} (h : failedAt s a = [l]) : l.addr = a :=
  (mem_failedAt.mp (h ▸ List.mem_singleton_self l)).2.1

/-- Once the only exhausted ladder of a codeword has ended, no other stands there. -/
theorem failedAt_readerFails {s : State} {a : FlashAddr} {l : Ladder} (h : failedAt s a = [l]) : failedAt (readerFails s l) a = [] := by
  refine List.eq_nil_iff_forall_not_mem.mpr (fun m hm => ?_)
  obtain ⟨left, at_, exhausted⟩ := mem_failedAt.mp hm
  obtain ⟨stood, gone⟩ := readerFails_ladders left
  have same : m ∈ [l] := h ▸ mem_failedAt.mpr ⟨stood, at_, exhausted⟩
  exact gone ⟨congrArg Ladder.entry (List.mem_singleton.mp same), at_.trans (addr_of_failedAt h).symm⟩

theorem readerFails_only (s : State) (l : Ladder) : OnlyChanges completionParts s (readerFails s l) :=
  (ladderDel_only s _ _).comp ((loseCw_only _ _ _).comp (endReader_only _ _) (rs := completionParts))

theorem readerFails_array (s : State) (l : Ladder) : ArrayStands s (readerFails s l) := by
  refine .trans ?_ (endReader_array _ _)
  exact ⟨rfl, rfl, rfl, rfl⟩

theorem isJob_congr {s t : State} (h : t.tally = s.tally) (i job : Nat) : isJob t i job = isJob s i job := by
  unfold isJob
  rw [entryAt_congr h]

/-- A reader that is no child keeps its jobs, and the codeword that could not be decoded is lost to those that asked for it. -/
theorem readerFails_loses {s : State} {l : Ladder} (hp : isJob s l.entry 0x0F = false) (hm : isJob s l.entry 0x13 = false) {j : ReadJob}
    (hj : j ∈ s.flash.jobs) (he : j.entry = l.entry) {w : Want} (hw : w ∈ j.wants) (ask : w.asks l.addr = true) :
    ∃ k ∈ (readerFails s l).flash.jobs, k.entry = j.entry ∧ k.use = j.use ∧ w.place ∈ k.lost := by
  have stays : readerFails s l = loseCw (ladderDel s l.entry l.addr) l.entry l.addr :=
    if_neg (by simp [isJob_congr (s := s) (t := loseCw (ladderDel s l.entry l.addr) l.entry l.addr) rfl, hp, hm])
  rw [stays]
  refine ⟨_, List.mem_map_of_mem hj, ?_⟩
  rw [if_pos (by simp [jobServes, he])]
  exact ⟨rfl, rfl, List.mem_append_right _ (List.mem_map_of_mem (List.mem_filter.mpr ⟨hw, ask⟩))⟩

end Sys2Proof.Machine

open Sys2Proof Sys2Proof.Machine in
/-- Settles O39: each service of a die, the tracker, and a codeword that is lost. -/
theorem dieServicesAndTheTracker : Obligations.DieServicesAndTheTracker := by
  refine ⟨?_, ?_, ?_, ?_, ?_, ?_⟩
  · intro s die h hd hr idle
    have v : DieServes s die := ⟨h, hd, hr⟩
    refine ⟨fun group o hg ho => ?_, fun a level sweep counts ha hok low high hw => ?_, exec_readParams v idle⟩
    · exact ⟨_, exec_setLevels v idle hg ho, tget_tput_same _ _ _, fun k hk => tget_tput_other _ _ _ _ hk, rfl, rfl, rfl,
        (only_flash s _).comp (verbEnds_only _ _ _ _ _)⟩
    · exact exec_senseValley v idle counts ha hok low high hw
  · intro s die group minima h hd hg
    refine ⟨fun none_ quiet due => ?_, fun i found may => ?_⟩
    · exact ⟨_, _, exec_trackerRun_asks h hd hg minima none_ quiet due, rfl, rfl, rfl, await_only s _⟩
    let new := valleyStep (trackerOffsets s (trackerTag die group)) minima
    let u := trackerDone s die i (trackerTag die group) new
    obtain ⟨records, array, levels, proposals⟩ := checkDivergence_records u
    have loaded : (checkDivergence u).flash.levels =
        if odVal s 0x2210 0 = 1 then s.flash.levels else tput s.flash.levels (trackerTag die group) new := levels
    refine ⟨_, new, exec_trackerRun_runs h hd hg minima found may, ?_, valleyStep_length _ _, fun l hl => valleyStep_near _ _ hl,
      fun pinned => ?_, fun free => ?_,
      (congrArg Die.trackedBell (dieOf_congr array.dies die)).trans (trackerDone_die s die i _ new), array.pages, array.map,
      (trackerDone_only s die i _ new).comp records⟩
    · exact (congrArg (tget · (trackerTag die group)) proposals).trans (tget_tput_same _ _ _)
    · exact loaded.trans (if_pos pinned)
    · rw [loaded, if_neg free]
      exact tget_tput_same _ _ _
  · intro s die h hd
    obtain ⟨ns, cleared, pages, map, out⟩ := clearDie_clears s die
    refine ⟨exec_dieStatus h hd, _, exec_dieReset h hd, congrArg Die.st cleared, congrArg Die.read cleared, congrArg Die.program cleared,
      congrArg Die.erase cleared, ?_, fun none_ => ?_, fun p hp l hl => ?_, map, congrArg (· ++ _) out⟩
    · exact (congrArg Die.pending cleared).trans rfl
    · exact pages.trans (by rw [programAbandoned_none none_])
    · refine (congrArg (tget · l) (pages.trans ?_)).trans ((abandonLine_blanks s die p).2 l hl)
      rw [programAbandoned_some hp]
      rfl
  · intro s ch h hc hu idle
    have trains := exec_channelTrain h hc hu idle
    have failed := verbFailed_only (untrained s ch) (200 + ch) 13 .trainFail ⟨ch, 0, 0, 0, 0⟩
    have flash := failed .flash (by decide)
    refine ⟨⟨_, trains true, List.mem_append_right _ (List.mem_singleton_self ch), rfl, (only_flash s _).comp (verbEnds_only _ _ _ _ _)⟩,
      ⟨_, trains false, ?_, congrArg (· ++ _) (failed .out (by decide)),
        ((only_flash s _).comp failed (rs := [.flash, .sticky, .counters])).comp (verbEnds_only _ _ _ _ _)⟩⟩
    intro hm
    have listed : ch ∈ (untrained s ch).flash.trained := by
      rw [← flash]
      exact hm
    simp [untrained] at listed
  · intro s die verb most ns h ho
    rw [exec_dieTimeout h ho]
    refine ⟨fun early => by rw [if_pos early], fun late => ?_⟩
    obtain ⟨now, cleared, -, map, out⟩ := clearDie_clears (readFails s die) die
    obtain ⟨mapped, more, sent⟩ := readFails_sendsOn s die
    have failed := (verbFailed_only (clearDie (readFails s die) die) (channelUnit die) verb .dieTimeout
      (timeoutAddr (dieOf s die) die)).arrayStands
    have dies := (dieOf_congr failed.dies die).trans cleared
    refine ⟨_, more, congrArg _ (if_neg (Nat.not_le.mpr late)), congrArg Die.st dies, congrArg Die.read dies,
      congrArg Die.program dies, congrArg Die.erase dies, failed.map.trans (map.trans mapped),
      congrArg (· ++ _) (failed.out.trans (out.trans sent.symm)), fun none_ => ?_⟩
    rw [readFails_none none_] at sent
    simpa using sent
  · intro s a iu l h hf alone hi hb
    let t := lossNoted (poisoned s a iu) a (poisonedLbas s iu (setBit 0 a.cw))
    obtain ⟨noted, map⟩ := lossNoted_only (poisoned s a iu) a (poisonedLbas s iu (setBit 0 a.cw))
    have upTo : OnlyChanges [.sticky, .host, .ledger] s t := (poisoned_only s a iu).comp noted
    have array := readerFails_array t l
    have flash : t.flash = s.flash := upTo .flash (by decide)
    have tally : t.tally = s.tally := upTo .tally (by decide)
    have maps := mapAt_congr (array.map.trans map)
    obtain ⟨here, others⟩ := poisoned_map hi
    have failed : failedAt t a = [l] := by rw [failedAt, flash]; exact hf
    refine ⟨_, exec_decodeFail h hf alone hi hb, (maps iu).trans here, fun j hj => (maps j).trans (others j hj),
      failedAt_readerFails failed, fun hp hm j hj he w hw ask => ?_, array.pages.trans (congrArg Flash.pages flash),
      upTo.comp (readerFails_only t l)⟩
    refine readerFails_loses ?_ ?_ (flash ▸ hj) he hw ((addr_of_failedAt hf).symm ▸ ask)
    · rw [isJob_congr tally, hp]
    · rw [isJob_congr tally, hm]
end

section
/-!
SUPPORT. The refutation of O36. Nothing in the statement asks that the table of dies lists each die once. A sibling read that is given up
is cancelled on the dies that are listed as reading for it, and the die is then looked up in the table, which answers its first listing.
-/

namespace Sys2Proof.Machine

/-- A page of die 0, and a read of one of its codewords at retry step 1. -/
def sharedPage : FlashAddr := ⟨0, 3, 9, 0, 0⟩

def retryOf (mask entry : Nat) : DieRead := ⟨sharedPage, mask, false, 1, false, entry, List.replicate 7 0, false⟩

/-- A die that senses for a read. -/
def sensingDie (r : DieRead) : Die := { Die.reset with st := .sensing, read := some r }

/-- The ladder of codeword `cw` of the page for entry 5, whose retry step 1 runs. -/
def readingLadder (cw : Nat) : Ladder := ⟨5, { sharedPage with cw := cw }, false, false, .reading, 1, none, false, false, false, false, []⟩

/-- A sibling read (job 0x08) of the rebuild of codeword 0 for entry 5. -/
def siblingOfFive : Entry :=
  ⟨.internal 0x08 (rebuildTag sharedPage), 0, 0, 0, 3, .running, false, false, 0, 0, 0, 0, 0, some 5, false, false, none, 0⟩

/-- Die 0 reads codeword 0 for entry 5. Die 32 is listed twice: first it reads codeword 1 for entry 5, then codeword 0 for the sibling
read in entry 6. -/
def dieListedTwice : State :=
  { State.reset with
    flash := { State.reset.flash with
      dies := [(0, sensingDie (retryOf 1 5)), (32, sensingDie (retryOf 2 5)), (32, sensingDie (retryOf 1 6))]
      ladders := [readingLadder 0, readingLadder 1] }
    tally := { State.reset.tally with entries := [(6, siblingOfFive)] } }

/-- The one codeword that die 0 reads decodes. -/
def firstDecodes : List CwOutcome := [⟨0, .corrected 2⟩]

/-- The codewords that die 0 reads once a command is done. -/
def maskAfter : Host.Outcome State Fault Refusal → Option Nat
  | .next t => (dieOf t 0).read.map DieRead.mask
  | _ => none

/-- Codeword 0 is recovered and the sibling read given up, which cancels the first listing of die 32: the ladder of codeword 1 waits again,
and its read starts on die 0 at once. -/
theorem dieReadComplete_dieListedTwice : maskAfter (exec (.dieReadComplete 0 firstDecodes) dieListedTwice) = some 2 := by
  decide +kernel

end Sys2Proof.Machine

open Sys2Proof Sys2Proof.Machine in
/-- Refutes O36: where the table lists a die twice, the end of a read whose codewords are all corrected can leave its die with the next
read of the same entry, so that die still holds a read. -/
theorem not_flashReadsRunOnReadableDies : ¬ Obligations.FlashReadsRunOnReadableDies := by
  unfold Obligations.FlashReadsRunOnReadableDies
  rintro ⟨-, -, -, completes⟩
  obtain ⟨t, more, ht, gone, -⟩ := completes dieListedTwice 0 (retryOf 1 5) firstDecodes (fun _ => 2) rfl rfl rfl (by decide) (by decide)
  have reads := dieReadComplete_dieListedTwice
  rw [ht, maskAfter, gone] at reads
  cases reads
end

section
/-!
SUPPORT. Work of the ledger that leaves the media as they are: the map and the programmed pages stand until a program completes (R136,
R149). What a read of flash finds, and how it stands among the jobs (R123, R139, R162).
-/

namespace Sys2Proof.Machine

/-! ## The media while other work goes on -/

/-- Work that changes no part but `ps`, and leaves the map and the programmed pages as they are. -/
structure MediaStand (ps : List Part) (s t : State) : Prop where
  only : OnlyChanges ps s t
  map : t.ledger.map = s.ledger.map
  pages : t.flash.pages = s.flash.pages

theorem MediaStand.refl (ps : List Part) (s : State) : MediaStand ps s s := ⟨.refl ps s, rfl, rfl⟩

theorem MediaStand.trans {ps : List Part} {s t u : State} (a : MediaStand ps s t) (b : MediaStand ps t u) : MediaStand ps s u :=
  ⟨a.only.trans b.only, b.map.trans a.map, b.pages.trans a.pages⟩

theorem MediaStand.mono {ps qs : List Part} {s t : State} (a : MediaStand ps s t) (h : ps ⊆ qs := by decide) : MediaStand qs s t :=
  ⟨a.only.mono h, a.map, a.pages⟩

theorem MediaStand.foldl {α : Type} {ps : List Part} {f : State → α → State} (hf : ∀ s x, MediaStand ps s (f s x)) (l : List α)
    (s : State) : MediaStand ps s (l.foldl f s) := foldl_rel (.refl ps) (fun _ _ _ => .trans) hf l s

theorem MediaStand.ite {ps : List Part} {s t u : State} {c : Prop} [Decidable c] (a : MediaStand ps s t) (b : MediaStand ps s u) :
    MediaStand ps s (if c then t else u) := by split <;> assumption

theorem ArrayStands.mediaStand {ps : List Part} {s t : State} (a : ArrayStands s t) (only : OnlyChanges ps s t) : MediaStand ps s t :=
  ⟨only, a.map, a.pages⟩

/-- What changes neither the array nor the ledger leaves the media. -/
theorem OnlyChanges.mediaStand {ps qs : List Part} {s t : State} (a : OnlyChanges ps s t) (h : ps ⊆ qs := by decide)
    (hm : .flash ∉ ps ∧ .ledger ∉ ps := by decide) : MediaStand qs s t :=
  ⟨a.mono h, congrArg Ledger.map (a .ledger hm.2), congrArg Flash.pages (a .flash hm.1)⟩

theorem bandMod_media (s : State) (k : Nat) (f : Band → Band) : MediaStand [.ledger] s (bandMod s k f) := ⟨bandMod_only s k f, rfl, rfl⟩

/-! ## A read among the jobs -/

theorem addLadders_media (s : State) (entry : Nat) (a : FlashAddr) (slc : Bool) (ks : List Nat) :
    MediaStand [.flash] s (addLadders s entry a slc ks) := by
  refine .foldl (fun t k => ?_) ks s
  dsimp only
  exact .ite (.refl _ t) ⟨ladderPut_only t _, rfl, rfl⟩

theorem addJob_media (s : State) (j : ReadJob) : MediaStand [.flash] s (addJob s j) := by
  have put (k : ReadJob) : MediaStand [.flash] s { s with flash := { s.flash with jobs := s.flash.jobs ++ [k] } } :=
    ⟨only_flash s _, rfl, rfl⟩
  unfold addJob
  dsimp only
  split
  · split
    · exact (put _).trans (addLadders_media _ _ _ _ _)
    · exact put j
  · exact put j

/-- A read that starts stands among the jobs; only the pages that no entry reads yet may differ. -/
theorem addJob_stands (s : State) (j : ReadJob) : ∃ ps, { j with pages := ps } ∈ (addJob s j).flash.jobs := by
  have last (k : ReadJob) : k ∈ s.flash.jobs ++ [k] := List.mem_append_right _ (List.mem_singleton_self k)
  unfold addJob
  dsimp only
  split
  · split
    · rw [addLadders_jobs]
      exact ⟨[], last _⟩
    · exact ⟨j.pages, last j⟩
  · exact ⟨j.pages, last j⟩

/-! ## What a read finds (R139, R162) -/

/-- What one codeword puts into a read's table of what has come. -/
def Spot.into (t : Table Nat) (x : Spot × Nat) : Table Nat :=
  match x.1 with
  | .value v => tput t x.2 v
  | _ => t

theorem jobFor_got (entry : Nat) (use : ReadUse) (nsid : Nat) (units : List Nat) (spots : List Spot) :
    (jobFor entry use nsid units spots).got = spots.zipIdx.foldl Spot.into [] := rfl

/-- A place that is written with one value alone reads that value. -/
theorem foldl_into {l : List (Spot × Nat)} {k v : Nat} (same : ∀ x ∈ l, x.2 = k → x.1 = .value v) (t : Table Nat)
    (h : tget t k = some v ∨ (.value v, k) ∈ l) : tget (l.foldl Spot.into t) k = some v := by
  induction l generalizing t with
  | nil => exact h.resolve_right List.not_mem_nil
  | cons x l ih =>
    obtain ⟨spot, n⟩ := x
    refine ih (fun y hy => same y (List.mem_cons_of_mem _ hy)) _ ?_
    by_cases hn : n = k
    · subst hn
      have hs : spot = .value v := same _ (List.mem_cons_self ..) rfl
      subst hs
      exact .inl (tget_tput_same t n v)
    · have kept : tget (Spot.into t (spot, n)) k = tget t k := by
        cases spot
        · exact tget_tput_other t n k _ (Ne.symm hn)
        · rfl
        · rfl
      rcases h with h | h
      · exact .inl (kept.trans h)
      · rcases List.mem_cons.mp h with h | h
        · cases h
          exact absurd rfl hn
        · exact .inr h

section
variable {spots : List Spot} {k : Nat} (entry : Nat) (use : ReadUse) (nsid : Nat) (units : List Nat)

theorem jobFor_value {v : Nat} (h : spots[k]? = some (.value v)) : tget (jobFor entry use nsid units spots).got k = some v := by
  rw [jobFor_got]
  refine foldl_into (fun x hx hk => ?_) [] (.inr (List.mem_zipIdx_iff_getElem?.mpr h))
  have hx := List.mem_zipIdx_iff_getElem?.mp hx
  rw [hk, h] at hx
  exact (Option.some.inj hx).symm

theorem jobFor_lost (h : spots[k]? = some .lost) : k ∈ (jobFor entry use nsid units spots).lost :=
  List.mem_filterMap.mpr ⟨(.lost, k), List.mem_zipIdx_iff_getElem?.mpr h, rfl⟩

theorem jobFor_wants {l c : Nat} (h : spots[k]? = some (.flash l c)) : ⟨k, l, c⟩ ∈ (jobFor entry use nsid units spots).wants :=
  List.mem_filterMap.mpr ⟨(.flash l c, k), List.mem_zipIdx_iff_getElem?.mpr h, rfl⟩

end

end Sys2Proof.Machine
end

section
/-!
SUPPORT. The data commands of the host (R134 to R139, R156 to R158, R162, R447): what reads find, how writes are staged, what Deallocate
clears, and O34.
-/

namespace Sys2Proof.Machine

/-! ## What the checks of a command look at -/

theorem nsOf_congr {s t : State} (h : t.ledger = s.ledger) (n : Nat) : nsOf t n = nsOf s n := by simp [nsOf, h]

theorem rangeError_congr {s t : State} (h : t.ledger = s.ledger) (nsid slba nlb : Nat) :
    rangeError t nsid slba nlb = rangeError s nsid slba nlb := by
  simp only [rangeError, nsOf_congr h]

theorem ledgerDown_congr {s t : State} (h : t.units = s.units) (ius : List Nat) : ledgerDown t ius = ledgerDown s ius := by
  simp only [ledgerDown, unitOf_congr h]

theorem pageSpot_congr {s t : State} (hl : t.ledger = s.ledger) (hf : t.flash = s.flash) (loc cw : Nat) :
    pageSpot t loc cw = pageSpot s loc cw := by
  have row : inOpenRow t loc = inOpenRow s loc := by simp only [inOpenRow, hl]
  have word : pageCw t loc cw = pageCw s loc cw := by simp only [pageCw, pageCws, hf]
  simp only [pageSpot, row, word]

theorem unitSpot_congr {s t : State} (hl : t.ledger = s.ledger) (hf : t.flash = s.flash) (ns : Namespace) (u : Nat) :
    unitSpot t ns u = unitSpot s ns u := by
  simp only [unitSpot, iuSpot, mapAt_congr (congrArg Ledger.map hl), pageSpot_congr hl hf]

theorem setRunning_ledger (s : State) (i : Nat) : (setRunning s i).ledger = s.ledger := setRunning_only s i .ledger (by decide)

/-- An I/O command that runs completes with the status that ends it, whatever else its service did meanwhile. -/
theorem IoTurn.answers {s u : State} {h : HostId} {i : Nat} (t : IoTurn s h i) (hu : u.tally = (setRunning s i).tally) (st : Status)
    (dw0 dw1 : Nat) : Completes s (finish u i st dw0 dw1) h.sq h.cid [] st dw0 dw1 := by
  obtain ⟨e, he, ho, -⟩ := t.fresh
  obtain ⟨d, hd⟩ := entryAt_setRunning he
  exact completes_finish t.found ((entryAt_congr hu i).trans hd) ho (by simp) st dw0 dw1

/-! ## NVM_READ and its end (R139, R158, R162, R447) -/

theorem entryAt_toLedger {s : State} {i : Nat} {e : Entry} (h : entryAt s i = some e) (ius : List Nat) :
    ∃ f, entryAt (toLedger s i ius) i = some f ∧ f.state = e.state := by
  unfold toLedger
  split
  · exact ⟨e, h, rfl⟩
  · rw [entryAt_entryMod, if_pos rfl, h]
    exact ⟨_, rfl, rfl⟩

/-- The read of data units: where each was found, its place in the job that stands for it. -/
theorem readUnits_finds (s : State) (entry : Nat) (use : ReadUse) (nsid : Nat) (ns : Namespace) (units : List Nat) :
    MediaStand [.flash, .counters, .sticky] s (readUnits s entry use nsid ns units) ∧
    ∃ j ∈ (readUnits s entry use nsid ns units).flash.jobs, j.entry = entry ∧ j.use = use ∧ j.nsid = nsid ∧ j.units = units ∧
      (∀ k u v, units[k]? = some u → unitSpot s ns u = .value v → tget j.got k = some v) ∧
      (∀ k u, units[k]? = some u → unitSpot s ns u = .lost → k ∈ j.lost) ∧
      (∀ k u l c, units[k]? = some u → unitSpot s ns u = .flash l c → ⟨k, l, c⟩ ∈ j.wants) := by
  have spot {k u : Nat} {x : Spot} (hu : units[k]? = some u) (hx : unitSpot s ns u = x) : (units.map (unitSpot s ns))[k]? = some x := by
    rw [List.getElem?_map, hu, Option.map_some, hx]
  have counted : MediaStand [.flash, .counters, .sticky] s (countLookups s (iusOf ns units)) := (countLookups_only s _).mediaStand
  refine ⟨counted.trans (addJob_media _ _).mono, ?_⟩
  obtain ⟨ps, hj⟩ := addJob_stands (countLookups s (iusOf ns units)) (jobFor entry use nsid units (units.map (unitSpot s ns)))
  exact ⟨_, hj, rfl, rfl, rfl, rfl, fun k u v hu hv => jobFor_value entry use nsid units (spot hu hv),
    fun k u hu hl => jobFor_lost entry use nsid units (spot hu hl), fun k u l c hu hf => jobFor_wants entry use nsid units (spot hu hf)⟩

/-- The ledger takes up an I/O command that runs. -/
def ledgerRuns (s : State) (i : Nat) (ius : List Nat) : State := toLedger (setRunning s i) i ius

theorem ledgerRuns_only (s : State) (i : Nat) (ius : List Nat) : OnlyChanges [.tally] s (ledgerRuns s i ius) :=
  (setRunning_only s i).trans (toLedger_only _ i ius)

theorem exec_nvmRead {s : State} {h : HostId} {i low high nlb : Nat} {ns : Namespace} (t : IoTurn s h i) (hn : nsOf s h.nsid = some ns)
    (range : rangeError s h.nsid (low + 2 ^ 32 * high) nlb = none)
    (up : ledgerDown s (iusOf ns (unitsOf ns (low + 2 ^ 32 * high) nlb)) = false) :
    exec (.nvmRead h low high nlb) s = .next (readUnits (ledgerRuns s i (iusOf ns (unitsOf ns (low + 2 ^ 32 * high) nlb))) i .host h.nsid ns
      (unitsOf ns (low + 2 ^ 32 * high) nlb)) := by
  have ledger := setRunning_ledger s i
  have units : (setRunning s i).units = s.units := setRunning_only s i .units (by decide)
  change execNvmRead h low high nlb s = _
  simp only [execNvmRead, serveIo_turn t, rangeError_congr ledger, range, nsOf_congr ledger, hn, ledgerDown_congr units, up, ledgerRuns]
  rfl

/-- What a host read transfers: where nothing is lost, every unit in its order. -/
theorem hostReadDone_data (s : State) (j : ReadJob) : ∃ data, data.length ≤ j.units.length ∧
    (j.lost = [] → data = (List.range j.units.length).map j.value) ∧
    hostReadDone s j = finishData (dropRead s j) j.entry j.status 0 0 data (decide (data ≠ [])) := by
  refine ⟨_, ?_, fun whole => ?_, rfl⟩
  · rw [List.length_map]
    exact (List.length_filter_le _ _).trans (by simp)
  · rw [whole, List.filter_eq_self.mpr (by simp)]
    refine List.ext_getElem (by simp) (fun n hn hm => ?_)
    simp

theorem dropRead_undisturbed (s : State) (j : ReadJob) : Undisturbed [] s (dropRead s j) :=
  ⟨(only_flash s _).mono (by decide), rfl, rfl, rfl, fun _ => rfl⟩

/-! ## NVM_WRITE and its completion (R134 to R137) -/

/-- The parts that the staging of writes reaches. -/
def stagingParts : List Part := [.tally, .flash, .ledger, .counters, .sticky]

/-- Staging goes on: the media stand, no write is numbered, and each write of before stands with its entry and namespace. -/
structure Stages (s t : State) : Prop extends MediaStand stagingParts s t where
  number : t.ledger.writeNo = s.ledger.writeNo
  writes : ∀ w ∈ s.ledger.writes, ∃ v ∈ t.ledger.writes, v.entry = w.entry ∧ v.nsid = w.nsid

theorem Stages.refl (s : State) : Stages s s := ⟨.refl _ s, rfl, fun w hw => ⟨w, hw, rfl, rfl⟩⟩

theorem Stages.trans {s t u : State} (a : Stages s t) (b : Stages t u) : Stages s u := by
  refine ⟨a.toMediaStand.trans b.toMediaStand, b.number.trans a.number, fun w hw => ?_⟩
  obtain ⟨v, hv, entry, nsid⟩ := a.writes w hw
  obtain ⟨x, hx, entry', nsid'⟩ := b.writes v hv
  exact ⟨x, hx, entry'.trans entry, nsid'.trans nsid⟩

theorem Stages.foldl {α : Type} {f : State → α → State} (hf : ∀ s x, Stages s (f s x)) (l : List α) (s : State) :
    Stages s (l.foldl f s) := foldl_rel .refl (fun _ _ _ => .trans) hf l s

theorem Stages.ite {s t u : State} {c : Prop} [Decidable c] (a : Stages s t) (b : Stages s u) : Stages s (if c then t else u) := by
  split <;> assumption

/-- What leaves the ledger leaves its writes. -/
theorem MediaStand.stages {ps : List Part} {s t : State} (a : MediaStand ps s t) (hl : .ledger ∉ ps := by decide)
    (h : ps ⊆ stagingParts := by decide) : Stages s t := by
  have ledger : t.ledger = s.ledger := a.only .ledger hl
  exact ⟨a.mono h, congrArg Ledger.writeNo ledger, fun w hw => ⟨w, by rwa [ledger], rfl, rfl⟩⟩

theorem count_stages (s : State) (idx sub n : Nat) : Stages s (count s idx sub n) :=
  ((count_only s idx sub n).mediaStand (qs := [.counters, .sticky])).stages

theorem bandMod_stages (s : State) (k : Nat) (f : Band → Band) : Stages s (bandMod s k f) :=
  ⟨(bandMod_media s k f).mono, rfl, fun w hw => ⟨w, hw, rfl, rfl⟩⟩

theorem noteSlots_stages (s : State) : Stages s (noteSlots s) :=
  ⟨((noteSlots_array s).mediaStand (noteSlots_only s)).mono, rfl, fun w hw => ⟨w, hw, rfl, rfl⟩⟩

theorem parkOldest_stages (s : State) : Stages s (parkOldest s) := by
  unfold parkOldest
  split
  · exact .refl s
  · exact (bandMod_stages s _ _).trans (count_stages _ _ _ _)

theorem openBand_stages (s : State) (handle k : Nat) : Stages s (openBand s handle k) := by
  have parked : Stages s (if openLimit s ≤ (openHostBands s).length then parkOldest s else s) := .ite (parkOldest_stages s) (.refl s)
  exact .ite parked (parked.trans ((bandMod_stages _ k _).trans (noteSlots_stages _)))

theorem openForStaged_stages (s : State) : Stages s (openForStaged s) := by
  refine Stages.foldl (f := fun s (p : Nat × Nat) => openPair s p.1 p.2) (fun t p => ?_) _ s
  obtain e | ⟨k, e⟩ := openPair_cases t p.1 p.2 <;> rw [e]
  · exact .refl t
  · exact openBand_stages t p.1 k

theorem dropRead_stages (s : State) (j : ReadJob) : Stages s (dropRead s j) :=
  MediaStand.stages (ps := [.flash]) ⟨only_flash s _, rfl, rfl⟩

theorem putStaged_stages (s : State) (w : WriteJob) (iu mask : Nat) (rest : List (Nat × List Nat × Nat)) (page : PageParts) :
    Stages s (putStaged s w iu mask rest page) := by
  unfold putStaged
  extract_lets gen u v ledger r
  have counted : Stages s u := .ite (.refl s) (count_stages _ _ _ _)
  have merged : Stages u v := by
    unfold v
    split
    · exact dropRead_stages u _
    · exact .refl u
  have staged : Stages v r := by
    refine ⟨⟨(only_ledger v _).mono (by decide), rfl, rfl⟩, rfl, fun x hx => ⟨_, List.mem_map_of_mem hx, ?_⟩⟩
    split <;> exact ⟨rfl, rfl⟩
  refine counted.trans (merged.trans (staged.trans (.ite ?_ (.refl r))))
  exact ((setRunning_only r _).mediaStand (qs := [.tally])).stages

/-- What one more IU of a write does: it is staged, or its old page is read first. -/
theorem stageNext_cases {s t : State} {entry : Nat} (h : stageNext s entry = some t) :
    (∃ w iu mask rest page, t = putStaged s w iu mask rest page) ∨ ∃ j, t = addJob s j := by
  unfold stageNext at h
  split at h
  · cases h
  · split at h
    · cases h
    · split at h
      · cases h
      · split at h <;> cases h
        · exact .inl ⟨_, _, _, _, _, rfl⟩
        · exact .inr ⟨_, rfl⟩

theorem stageWrite_stages (s : State) (entry n : Nat) : Stages s (stageWrite s entry n) := by
  induction n generalizing s with
  | zero => exact .refl s
  | succ n ih =>
    unfold stageWrite
    split
    next t ht =>
      refine .trans ?_ (ih t)
      obtain ⟨w, iu, mask, rest, page, e⟩ | ⟨j, e⟩ := stageNext_cases ht <;> rw [e]
      · exact putStaged_stages s w iu mask rest page
      · exact (addJob_media s j).stages
    next => exact .refl s

theorem stageAll_stages (s : State) : Stages s (stageAll s) := by
  unfold stageAll
  split
  · exact .refl s
  · exact .trans (.foldl (fun t i => stageWrite_stages t i _) _ s) (openForStaged_stages _)

theorem placementOf_stages (s : State) (pid : Option Nat) : Stages s (placementOf s pid).2.2 := by
  have noted (code handle rg : Nat) : Stages s (fdpEvent s code handle rg) :=
    ⟨((fdpEvent_array s code handle rg).mediaStand (fdpEvent_only s code handle rg)).mono, rfl, fun w hw => ⟨w, hw, rfl, rfl⟩⟩
  unfold placementOf
  split
  · split
    · exact .refl s
    · split
      · exact .refl s
      · exact noted _ _ _
  · exact .refl s

/-- A write that starts takes the next number, and stands among the writes for its entry and namespace. -/
theorem startWrite_starts (s : State) (entry nsid : Nat) (ns : Namespace) (units data : List Nat) (pid : Option Nat) :
    MediaStand stagingParts s (startWrite s entry nsid ns units data pid) ∧
    (startWrite s entry nsid ns units data pid).ledger.writeNo = s.ledger.writeNo + 1 ∧
    ∃ w ∈ (startWrite s entry nsid ns units data pid).ledger.writes, w.entry = entry ∧ w.nsid = nsid := by
  unfold startWrite
  extract_lets p ius u
  have looked : Stages s u := (placementOf_stages s pid).trans (.foldl (fun t _ => count_stages t _ _ _) _ _)
  have staged := stageAll_stages { u with ledger := { u.ledger with
    writeNo := u.ledger.writeNo + 1, writes := u.ledger.writes ++ [⟨entry, p.1, p.2.1, nsid, u.ledger.writeNo + 1, ius⟩] } }
  have numbered : MediaStand stagingParts u { u with ledger := { u.ledger with
      writeNo := u.ledger.writeNo + 1, writes := u.ledger.writes ++ [⟨entry, p.1, p.2.1, nsid, u.ledger.writeNo + 1, ius⟩] } } :=
    ⟨(only_ledger u _).mono (by decide), rfl, rfl⟩
  exact ⟨looked.toMediaStand.trans (numbered.trans staged.toMediaStand), staged.number.trans (congrArg (· + 1) looked.number),
    staged.writes _ (List.mem_append_right _ (List.mem_singleton_self _))⟩

theorem exec_nvmWrite {s : State} {h : HostId} {i slba nlb : Nat} {ns : Namespace} (t : IoTurn s h i) (hn : nsOf s h.nsid = some ns)
    (range : rangeError s h.nsid slba nlb = none) (new : ∀ w ∈ s.ledger.writes, w.entry ≠ i) (rw_ : s.ledger.readOnly = false)
    (up : ledgerDown s (iusOf ns (unitsOf ns slba nlb)) = false) (some_ : nlb ≠ 0) (pid : Option Nat) (data : List Nat) :
    exec (.nvmWrite h slba nlb pid data) s = .next (startWrite (toLedger s i (iusOf ns (unitsOf ns slba nlb))) i h.nsid ns
      (unitsOf ns slba nlb) data pid) := by
  have fresh : s.ledger.writes.any (fun w => w.entry = i) = false := List.any_eq_false.mpr (fun w hw => by simpa using new w hw)
  change execNvmWrite h slba nlb pid data s = _
  simp only [execNvmWrite, meetIo_turn t, fresh, range, hn, rw_, up, some_]
  rfl

theorem exec_writeComplete {s : State} {h : HostId} {i : Nat} (up : stopped s = false) (found : findHost s h.sq h.cid = some i)
    (done : jobDone s i = true) (parks : ∀ p ∈ s.streams.table, ∀ k ∈ p.2.parks, k.entry ≠ i) :
    exec (.writeComplete h) s = .next (finish (dropJob s i) i .success 0 0) := by
  have none_ : s.streams.table.any (fun p => p.2.parks.any (fun k => k.entry = i)) = false :=
    List.any_eq_false.mpr (fun p hp => by simpa using parks p hp)
  change execWriteComplete h s = _
  simp only [execWriteComplete, up, found, done, none_]
  rfl

theorem dropJob_undisturbed (s : State) (entry : Nat) : Undisturbed [] s (dropJob s entry) :=
  ⟨(only_ledger s _).mono (by decide), rfl, rfl, rfl, fun _ => rfl⟩

/-! ## FLUSH -/

theorem namedNs_congr {s t : State} (h : t.ledger = s.ledger) (n : Nat) : namedNs t n = namedNs s n := by simp only [namedNs, nsOf_congr h, h]

theorem exec_flush {s : State} {h : HostId} {i : Nat} (t : IoTurn s h i) (hn : namedNs s h.nsid ≠ [] ∨ h.nsid = 0xFFFFFFFF) :
    exec (.flush h) s = .next (finish (setRunning s i) i .success 0 0) := by
  change execFlush h s = _
  rw [execFlush, serveIo_turn t, namedNs_congr (setRunning_ledger s i), if_neg (by tauto)]

/-! ## Deallocate (R156, R157) -/

theorem mapAt_mapSet_empty (s : State) (iu : Nat) : mapAt (mapSet s iu .empty) iu = .empty := by
  simp [mapAt, mapSet, mapPut, tgetD, tget_tdel]

theorem mapAt_unmapIu (s : State) (iu j : Nat) : mapAt (unmapIu s iu) j = if j = iu then .empty else mapAt s j := by
  unfold unmapIu
  dsimp only
  split
  · next h =>
    split
    · next hj => rw [hj, h]
    · rfl
  · have lowered : mapAt (if (mapAt s iu).mapped then lowerValid s (mapAt s iu).loc else s) j = mapAt s j := by split <;> rfl
    by_cases hj : j = iu
    · rw [hj, mapAt_mapSet_empty, if_pos rfl]
    · rw [mapAt_mapSet_other _ _ hj, lowered, if_neg hj]

/-- Clearing IUs clears each of them and no other. -/
theorem mapAt_foldl_unmapIu (l : List Nat) (s : State) (j : Nat) :
    mapAt (l.foldl unmapIu s) j = if j ∈ l then .empty else mapAt s j := by
  induction l generalizing s with
  | nil => rfl
  | cons iu l ih =>
    rw [List.foldl_cons, ih, mapAt_unmapIu]
    by_cases hl : j ∈ l <;> by_cases hj : j = iu <;> simp [hl, hj]

theorem unmapIu_only (s : State) (iu : Nat) : OnlyChanges [.ledger] s (unmapIu s iu) := by
  unfold unmapIu
  dsimp only
  exact .ite (.refl _ s) (.trans (.ite (lowerValid_only s _) (.refl _ s)) (mapSet_only _ iu _))

theorem exec_deallocate {s : State} {h : HostId} {i : Nat} {ranges : List (Nat × Nat)} {ns : Namespace} (t : IoTurn s h i)
    (hn : nsOf s h.nsid = some ns) (rw_ : s.ledger.readOnly = false) (inside : ∀ r ∈ ranges, r.1 + r.2 ≤ ns.nsze) :
    exec (.datasetManagement h true ranges) s = .next (finish (((ranges.flatMap (wholeIus ns)).filter (fun iu =>
      mapAt s iu ≠ .empty)).foldl unmapIu (setRunning s i)) i .success 0 0) := by
  have ledger := setRunning_ledger s i
  have within_ : ranges.any (fun r => decide (ns.nsze < r.1 + r.2)) = false :=
    List.any_eq_false.mpr (fun r hr => by simpa using inside r hr)
  change execDatasetManagement h true ranges s = _
  simp only [execDatasetManagement, serveIo_turn t, nsOf_congr ledger, hn, within_, mapAt_congr (congrArg Ledger.map ledger), ledger, rw_]
  rfl

/-- What Deallocate leaves of the map, and which parts it reaches. -/
theorem deallocate_clears (s : State) (i : Nat) (ius : List Nat) :
    let u := finish ((ius.filter (fun iu => mapAt s iu ≠ .empty)).foldl unmapIu (setRunning s i)) i .success 0 0
    (∀ iu, mapAt u iu = if iu ∈ ius then ⟨0, false, 0⟩ else mapAt s iu) ∧ u.flash.pages = s.flash.pages ∧
      u.compute.slm = s.compute.slm ∧ OnlyPostings s u ∧ OnlyChanges completionParts s u := by
  intro u
  have cleared : OnlyChanges [.tally, .ledger] s ((ius.filter (fun iu => mapAt s iu ≠ .empty)).foldl unmapIu (setRunning s i)) :=
    (setRunning_only s i).comp (.foldl unmapIu_only _ _)
  obtain ⟨only, map, pages, slm, host⟩ := finish_undisturbed
    ((ius.filter (fun iu => mapAt s iu ≠ .empty)).foldl unmapIu (setRunning s i)) i .success 0 0
  refine ⟨fun iu => ?_, pages.trans (congrArg Flash.pages (cleared .flash (by decide))),
    slm.trans (congrArg Compute.slm (cleared .compute (by decide))), onlyPostings_congr (cleared .host (by decide)) (host (by decide)),
    cleared.comp only⟩
  rw [mapAt_congr map, mapAt_foldl_unmapIu, mapAt_congr (congrArg Ledger.map (setRunning_ledger s i))]
  by_cases listed : iu ∈ ius
  · by_cases held : mapAt s iu = .empty
    · rw [if_neg (by simp [held]), if_pos listed, held]
      rfl
    · rw [if_pos (by simp [listed, held]), if_pos listed]
      rfl
  · rw [if_neg (by simp [listed]), if_neg listed]

end Sys2Proof.Machine

open Sys2Proof Sys2Proof.Machine in
/-- Settles O34, command by command: each is served at its turn by an operation of which the lemmas above say what it finds and leaves. -/
theorem nvmDataCommands : Obligations.NvmDataCommands := by
  unfold Obligations.NvmDataCommands
  refine ⟨?read, ?readDone, ?write, ?writeComplete, ?flush, ?deallocate⟩
  case read =>
    intro s h i low high nlb ns t hn slba range up
    let ius := iusOf ns (unitsOf ns slba nlb)
    have takes := ledgerRuns_only s i ius
    obtain ⟨media, j, hj, entry, use, nsid, units, got, lost, wants⟩ :=
      readUnits_finds (ledgerRuns s i ius) i .host h.nsid ns (unitsOf ns slba nlb)
    simp only [unitSpot_congr (takes .ledger (by decide)) (takes .flash (by decide))] at got lost wants
    obtain ⟨e, he, -⟩ := t.fresh
    obtain ⟨d, hd⟩ := entryAt_setRunning he
    obtain ⟨f, hf, runs⟩ := entryAt_toLedger hd ius
    exact ⟨_, j, f, exec_nvmRead t hn range up, hj, entry, use, nsid, units, got, lost, wants,
      (entryAt_congr (media.only .tally (by decide)) i).trans hf, runs, media.pages.trans (congrArg Flash.pages (takes .flash (by decide))),
      takes.comp media.only⟩
  case readDone =>
    intro s j sq cid stands
    obtain ⟨data, short, whole, done⟩ := hostReadDone_data s j
    obtain ⟨e, he, ho, hr⟩ := stands.entry
    have ends := ends_finishData (u := dropRead s j) stands.found he ho hr j.status 0 0 data (decide (data ≠ []))
    rw [done]
    refine ⟨fun none_ => ?_, fun some_ => ⟨data, short, ?_⟩, (dropRead_undisturbed s j).trans (finishData_undisturbed _ _ _ _ _ _ _)⟩
    · have nonempty : decide (data ≠ []) = decide (j.units ≠ []) := by
        rw [whole none_]
        simp
      rwa [ReadJob.status, if_pos none_, nonempty, whole none_] at ends ⊢
    · rwa [ReadJob.status, if_neg some_] at ends ⊢
  case write =>
    intro s h i slba nlb pid data ns t hn range new rw_ up some_
    have takes := toLedger_only s i (iusOf ns (unitsOf ns slba nlb))
    have ledger : _ = s.ledger := takes .ledger (by decide)
    obtain ⟨media, number, writes⟩ := startWrite_starts (toLedger s i (iusOf ns (unitsOf ns slba nlb))) i h.nsid ns
      (unitsOf ns slba nlb) data pid
    exact ⟨_, exec_nvmWrite t hn range new rw_ up some_ pid data, writes, number.trans (by rw [ledger]),
      media.map.trans (congrArg Ledger.map ledger), media.pages.trans (congrArg Flash.pages (takes .flash (by decide))),
      (takes.mono (by decide)).trans media.only⟩
  case writeComplete =>
    intro s h i up stands done parks
    obtain ⟨e, he, ho, hr⟩ := stands.entry
    exact ⟨_, exec_writeComplete up stands.found done parks, completes_finish (u := dropJob s i) stands.found he ho hr .success 0 0,
      (dropJob_undisturbed s i).trans (finish_undisturbed _ i .success 0 0)⟩
  case flush =>
    intro s h i t hn
    exact ⟨_, exec_flush t hn, t.completes .success 0 0, finish_running_undisturbed s i .success 0 0⟩
  case deallocate =>
    intro s h i ranges ns t hn rw_ inside
    have tally := OnlyChanges.foldl unmapIu_only ((ranges.flatMap (wholeIus ns)).filter (fun iu => mapAt s iu ≠ .empty)) (setRunning s i)
    exact ⟨_, exec_deallocate t hn rw_ inside, t.answers (tally .tally (by decide)) .success 0 0, deallocate_clears s i _⟩
end

section
/-!
SUPPORT. The refutation of O35. Nothing in the statement asks that the table of bands lists its keys in rising order. Where it does not,
the update of a band's count of valid IUs lists that band a second time, before another band in which the same spare block stands in, and
the spare's pages are from then on looked up in the wrong band.
-/

namespace Sys2Proof.Machine

/-- A band in which the spare block 1,832 stands in at position 0. -/
def spareBand : Band := { Band.reset with standIn := [(0, 1832)] }

/-- The first page of the spare block of die 0. -/
def sparePage : Nat := locOf ⟨0, 0, 1832, 0, 0⟩

/-- The Sanitize command of the admin queue. -/
def sanitizeCommand : HostId := ⟨0, 7, 0, false, 0, true⟩

/-- The entry of that command, fetched and not yet served. -/
def sanitizeEntry : Entry := ⟨.host 0 7, 0, 0, 0, 1, .admitted, false, false, 232, 0, 0, 0, 0, none, false, false, none, 0⟩

/-- A namespace of one IU, which lies in the cellar block 5 of stripe 0, and a table that lists the data band 10 before the cellar band 5.
The same spare of die 0 stands in for a block of both, so that its page is one of band 10. -/
def bandsOutOfOrder : State :=
  { State.reset with
    dev := { State.reset.dev with state := .run }
    host := { State.reset.host with rdy := true }
    tally := { State.reset.tally with entries := [(0, sanitizeEntry)] }
    flash := { State.reset.flash with pages := [(sparePage, blankPage)] }
    ledger := { State.reset.ledger with
      nss := [(1, ⟨0, 4, [0], 1⟩)]
      map := [(0, ⟨0, true, locOf ⟨0, 0, 5, 0, 0⟩⟩)]
      bands := [(10, spareBand), (5, spareBand)] } }

theorem bandsOutOfOrder_turn : AdminTurn bandsOutOfOrder sanitizeCommand 0 where
  up := rfl
  boot := by decide
  paused := by decide
  fault := by decide
  rdy := rfl
  tally := ⟨rfl, by decide, by decide⟩
  sq := rfl
  found := by decide
  fresh := ⟨sanitizeEntry, rfl, rfl, by decide, rfl⟩

theorem bandsOutOfOrder_unburdened : Unburdened bandsOutOfOrder 0 := ⟨by decide, by decide, by decide⟩

/-- The page of the spare block is one of a data band. -/
theorem bandOfLoc_sparePage : bandOfLoc bandsOutOfOrder sparePage = 10 := by decide

/-- The pages that the array holds once a command is done. -/
def pagesAfter : Host.Outcome State Fault Refusal → Table FlashPage
  | .next t => t.flash.pages
  | _ => []

/-- The IU is unmapped and band 5 is listed anew, before band 10: the page of the spare counts as one of the cellar and is kept. -/
theorem sanitizeBlockErase_keepsSparePage :
    pagesAfter (exec (.sanitizeBlockErase sanitizeCommand) bandsOutOfOrder) = [(sparePage, blankPage)] := by decide +kernel

end Sys2Proof.Machine

open Sys2Proof Sys2Proof.Machine in
/-- Refutes O35: where the bands are listed out of order, a block erase can leave a page that lay in a data band. -/
theorem not_namespacesAreMadeAndWiped : ¬ Obligations.NamespacesAreMadeAndWiped := by
  unfold Obligations.NamespacesAreMadeAndWiped
  rintro ⟨-, -, -, -, blockErase, -⟩
  obtain ⟨t, ht, -, -, -, pages, -⟩ := blockErase bandsOutOfOrder sanitizeCommand 0 bandsOutOfOrder_turn bandsOutOfOrder_unburdened rfl
    (by decide) (by decide)
  have kept := sanitizeBlockErase_keepsSparePage
  rw [ht, pagesAfter] at kept
  obtain ⟨-, cellar⟩ := pages (sparePage, blankPage) (kept ▸ List.mem_singleton_self _)
  rw [bandOfLoc_sparePage] at cellar
  exact absurd cellar (by decide)
end

section
/-!
SUPPORT. The jobs of the ledger (R137, R142, R146 to R150, R159, R164): what each asks for, what it does once it has its entry, and O40.
-/

namespace Sys2Proof.Machine

/-! ## At the gate (R116 to R118) -/

/-- The parts that a job of the ledger reaches as it reads, programs and erases. -/
def gateParts : List Part := [.tally, .flash, .ledger, .counters, .sticky, .out]

theorem acceptedProgram_media (s : State) (die block wl : Nat) (slc : Bool) (pages : List SourcePage) :
    MediaStand gateParts s (acceptedProgram s die block wl slc pages) := by
  have taken := takenProgram_array s die block wl pages
  exact ⟨(acceptedProgram_only s die block wl slc pages).mono (by decide), taken.map, taken.pages⟩

theorem verbEnds_media (s : State) (die verb : Nat) (r : VerbResult) (data : List Nat) :
    MediaStand gateParts s (verbEnds s die verb r data) := (verbEnds_only s die verb r data).mediaStand

/-- A PROGRAM at the gate leaves the media: pages and map change when it completes. -/
theorem gateProgram_media (s : State) (die block wl : Nat) (slc : Bool) (pages : List SourcePage) :
    MediaStand gateParts s (gateProgram s die block wl slc pages) :=
  .ite (verbEnds_media ..) (.ite (verbEnds_media ..) (.ite (verbEnds_media ..) (acceptedProgram_media ..)))

/-- An ERASE at the gate leaves the media. -/
theorem gateErase_media (s : State) (die block : Nat) (slc : Bool) : MediaStand gateParts s (gateErase s die block slc) := by
  have waits (f : Die → Die) (r : State → Request) : MediaStand gateParts s (await (dieMod s die f) (r (dieMod s die f))) :=
    ⟨((dieMod_only s die f).comp (await_only _ _) (rs := [.tally, .flash])).mono (by decide), rfl, rfl⟩
  exact .ite (verbEnds_media ..) (.ite (verbEnds_media ..)
    (waits _ (fun t => jobReq 0x0A (die * 2 ^ 12 + block) (eraseClass t (bandAt t die block)) (channelUnit die))))

/-! ## GATHER_TIMEOUT (R137) -/

theorem exec_gatherTimeout {s : State} {die since k : Nat} {b : Band} (up : stopped s = false) (hd : die < s.ident.dies)
    (open_ : tget s.ledger.gatherFrom die = some since) (due : since + odVal s 0x2307 0 ≤ s.bell.ticks)
    (found : (openHostBands s).find? (fun p => p.1 / 2048 = stripeOf die && gatherReady s p.1 (positionOf die) p.2) = some (k, b)) :
    exec (.gatherTimeout die) s =
      .next (gateProgram s die (dieBlock s k (positionOf die)) (currentLine b) false (gatherPages s k (positionOf die))) := by
  change execGatherTimeout die s = _
  simp only [execGatherTimeout, flashRuns, up, dieOk, hd, open_, Nat.not_lt.mpr due, found]
  rfl

/-! ## RECLAIM_JOB (R142, R146, R148) -/

/-- A job without a band in its group takes one up and asks for its entry. -/
theorem exec_reclaimJob_asks {s : State} {rg job k : Nat} (dst : DieBlock) (up : stopped s = false) (hg : rg < 8)
    (none_ : ∀ c ∈ s.ledger.care, c.job = job → rgOfBand s c.band ≠ rg) (target : careTarget s rg job = some k) :
    exec (.reclaimJob rg job dst) s = .next (startCare s job k) := by
  have idle : s.ledger.care.find? (fun c => c.job = job && job ≠ 3 && rgOfBand s c.band = rg) = none := by
    refine List.find?_eq_none.mpr (fun c hc => ?_)
    simp only [Bool.and_eq_true, decide_eq_true_eq]
    exact fun ⟨⟨hj, _⟩, hr⟩ => none_ c hc hj hr
  change execReclaimJob rg job dst s = _
  simp only [execReclaimJob, flashRuns, up, hg, idle, target]
  rfl

/-- A job that has its entry erases its band or reads on, and programs what it has read. -/
theorem exec_reclaimJob_goesOn {s : State} {rg job i : Nat} {c : CareJob} (dst : DieBlock) (up : stopped s = false) (hg : rg < 8)
    (found : s.ledger.care.find? (fun c => c.job = job && job ≠ 3 && rgOfBand s c.band = rg) = some c) (entry : c.entry = some i) :
    exec (.reclaimJob rg job dst) s =
      .next (copyTo (if (bandOf s c.band).valid = 0 then eraseBand s c.band else readForCopy s i c.band) rg dst.die dst.block) := by
  change execReclaimJob rg job dst s = _
  simp only [execReclaimJob, flashRuns, up, hg, found, entry]
  rfl

theorem eraseBand_media (s : State) (k : Nat) : MediaStand gateParts s (eraseBand s k) := by
  have copiesDropped (t : State) (l : List Copied) : MediaStand gateParts t { t with ledger := { t.ledger with copies := l } } :=
    ⟨(only_ledger t _).mono (by decide), rfl, rfl⟩
  exact .ite (.refl _ s) (.trans (bandMod_media s k _).mono (.trans (copiesDropped _ _)
    (.foldl (fun t p => .ite (gateErase_media t _ _ _) (.refl _ t)) _ _)))

theorem readForCopy_media (s : State) (i k : Nat) : MediaStand gateParts s (readForCopy s i k) :=
  .ite (.refl _ s) (.ite (.refl _ s) (addJob_media s _).mono)

theorem copyLine_media (s : State) (k pos : Nat) : MediaStand gateParts s (copyLine s k pos) :=
  .ite (.refl _ s) (.ite (.ite (gateProgram_media ..) (.refl _ s)) (.ite (.refl _ s) (gateProgram_media ..)))

theorem copyTo_media (s : State) (rg die block : Nat) : MediaStand gateParts s (copyTo s rg die block) := by
  have opened (k : Nat) (f : Band → Band) : MediaStand gateParts s (bandMod s k f) := (bandMod_media s k f).mono
  unfold copyTo
  dsimp only
  refine .ite (.refl _ s) ?_
  split
  · exact .ite (.refl _ s) (.trans (.ite (opened _ _) (.refl _ s)) (copyLine_media ..))
  · exact .ite (.trans (opened _ _) (copyLine_media ..)) (.refl _ s)

/-- A job that reads nothing now and has placed what it has read reads the next unread IUs of its band. -/
theorem readForCopy_reads {s : State} {i k : Nat} (quiet : ∀ j ∈ s.flash.jobs, j.entry ≠ i)
    (placed : ∀ c ∈ s.ledger.copies, c.entry = i → c.placed ≠ none) (unread : unreadIus s k ≠ []) :
    readForCopy s i k =
      addJob s (jobFor i (.copy k) 0 ((unreadIus s k).take 12) (((unreadIus s k).take 12).flatMap (copySpots s))) := by
  have some_ : (unreadIus s k).take 12 ≠ [] := fun e => unread ((List.take_eq_nil_iff.mp e).resolve_left (by decide))
  have idle : (s.flash.jobs.any (fun j => j.entry = i) || s.ledger.copies.any (fun c => c.entry = i && c.placed.isNone)) = false := by
    rw [Bool.or_eq_false_iff, List.any_eq_false, List.any_eq_false]
    refine ⟨fun j hj => by simpa using quiet j hj, fun c hc => ?_⟩
    simpa using placed c hc
  simp only [readForCopy, idle, some_]
  rfl

/-! ## WEAR_LEVEL_JOB (R150, R151) -/

/-- The comparison of the groups notes that it has spoken, and changes nothing else of the ledger. -/
theorem wearCheck_ledger (s : State) : ∃ armed, (wearCheck s).ledger = { s.ledger with wearArmed := armed } := by
  have recorded (x : Ledger) (r : Record) : (raiseRecord { s with ledger := x } r).ledger = x := raiseRecord_only _ r .ledger (by decide)
  unfold wearCheck
  dsimp only
  split
  · exact ⟨false, recorded _ _⟩
  · split
    · exact ⟨true, rfl⟩
    · exact ⟨s.ledger.wearArmed, rfl⟩

theorem wearCheck_only (s : State) : OnlyChanges [.ledger, .sticky] s (wearCheck s) := by
  unfold wearCheck
  dsimp only
  exact .ite ((only_ledger s _).comp (raiseRecord_only _ _)) (.ite ((only_ledger s _).mono (by decide)) (.refl _ s))

theorem bandsOfRg_congr {s t : State} (hb : t.ledger.bands = s.ledger.bands) (hi : t.ident = s.ident) (g : Nat) :
    bandsOfRg t g = bandsOfRg s g := by
  have group (k : Nat) : rgOfBand t k = rgOfBand s k := by simp only [rgOfBand, rgOfStripe, stripesPerRg, stripeCount, hi]
  simp only [bandsOfRg, group, hb]

theorem meanErases_congr {s t : State} (hb : t.ledger.bands = s.ledger.bands) (ha : t.ledger.allErases = s.ledger.allErases)
    (hi : t.ident = s.ident) (g : Nat) : meanErases t g = meanErases s g := by
  simp only [meanErases, bandsOfRg_congr hb hi, stripesPerRg, stripeCount, ha, hi]

/-- A band that lags its group is marked. -/
theorem exec_wearLevelJob {s : State} {rg k : Nat} {b : Band} (up : stopped s = false) (hg : rg < 8) (rw_ : s.ledger.readOnly = false)
    (found : (bandsOfRg s rg).find? (fun p => p.2.st = .closed && !p.2.level &&
      decide (p.2.erases + s.ledger.allErases + odVal s 0x2340 2 ≤ meanErases s rg)) = some (k, b)) :
    exec (.wearLevelJob rg) s = .next (bandMod (wearCheck s) k (fun b => { b with level := true })) := by
  have only := wearCheck_only s
  have ident : (wearCheck s).ident = s.ident := only .ident (by decide)
  obtain ⟨armed, ledger⟩ := wearCheck_ledger s
  have bands : (wearCheck s).ledger.bands = s.ledger.bands := by rw [ledger]
  have erases : (wearCheck s).ledger.allErases = s.ledger.allErases := by rw [ledger]
  have readOnly : (wearCheck s).ledger.readOnly = false := by rw [ledger]; exact rw_
  change execWearLevelJob rg s = _
  simp only [execWearLevelJob, flashRuns, up, hg, readOnly, bandsOfRg_congr bands ident, erases,
    odVal_congr (only .od (by decide)) ident, meanErases_congr bands erases ident, found]
  rfl

/-! ## SCRUB_PASS and the end of a scrub (R159) -/

theorem exec_scrubPass {s : State} {stripe block : Nat} (up : stopped s = false) (hs : stripe < stripeCount s) (hb : block < 1832)
    (new : bandKey stripe block ∉ s.ledger.scrubbed) (idle : ∀ c ∈ s.ledger.care, c.job = 3 → c.band ≠ bandKey stripe block) :
    exec (.scrubPass stripe block) s = .next (startCare s 3 (bandKey stripe block)) := by
  have none_ : s.ledger.care.any (fun c => c.job = 3 && c.band = bandKey stripe block) = false :=
    List.any_eq_false.mpr (fun c hc => by simpa using idle c hc)
  have fresh : s.ledger.scrubbed.contains (bandKey stripe block) = false := by simpa using new
  change execScrubPass stripe block s = _
  simp only [execScrubPass, flashRuns, up, hs, hb, none_, fresh]
  rfl

theorem bandOfLoc_congr {s t : State} (h : t.ledger.bands = s.ledger.bands) (loc : Nat) : bandOfLoc t loc = bandOfLoc s loc := by
  simp only [bandOfLoc, bandAt, h]

/-- The read job, the work and the entry of a scrub are over. -/
def scrubOver (s : State) (k : Nat) (j : ReadJob) : State :=
  let t := count (dropRead s j) 0x6008 0 (4 * j.units.length)
  freeFamily { t with ledger := { t.ledger with care := t.ledger.care.filter (fun c => !(c.job = 3 && c.band = k)) } } j.entry

/-- The band is noted, and with the last band that holds pages a new cycle begins. -/
theorem scrubDone_eq (s : State) (k : Nat) (j : ReadJob) : scrubDone s k j =
    let u := scrubOver s k j
    if (scrubBands u).all (fun b => (u.ledger.scrubbed ++ [k]).contains b) then
      { u with ledger := { u.ledger with scrubbed := [], scrubStart := u.bell.count } }
    else { u with ledger := { u.ledger with scrubbed := u.ledger.scrubbed ++ [k] } } := rfl

/-- What the end of a scrub leaves of what its cycle looks at. -/
theorem scrubOver_stands (s : State) (k : Nat) (j : ReadJob) : scrubBands (scrubOver s k j) = scrubBands s ∧
    (scrubOver s k j).ledger.scrubbed = s.ledger.scrubbed ∧ (scrubOver s k j).bell = s.bell ∧
    (scrubOver s k j).flash.pages = s.flash.pages ∧ (scrubOver s k j).ledger.map = s.ledger.map := by
  have counted := count_only (dropRead s j) 0x6008 0 (4 * j.units.length)
  have ledger : (count (dropRead s j) 0x6008 0 (4 * j.units.length)).ledger = s.ledger := counted .ledger (by decide)
  have pages : (scrubOver s k j).flash.pages = s.flash.pages := (congrArg Flash.pages (counted .flash (by decide)) :)
  have bands : (scrubOver s k j).ledger.bands = s.ledger.bands := (congrArg Ledger.bands ledger :)
  refine ⟨?_, (congrArg Ledger.scrubbed ledger :), counted .bell (by decide), pages, (congrArg Ledger.map ledger :)⟩
  simp only [scrubBands, pages, bandOfLoc_congr bands]

/-! ## CHECKPOINT_SEGMENT (R164) -/

/-- A segment is next where it is dirty, or none is. -/
theorem dirty_first {s : State} {seg : Nat} (due : s.ledger.dirty = [] ∨ seg ∈ s.ledger.dirty) :
    (s.ledger.dirty ≠ [] && !s.ledger.dirty.contains seg) = false := by simpa using or_iff_not_imp_left.mp due

section
variable {s : State} {seg : Nat} (up : stopped s = false) (due : s.ledger.dirty = [] ∨ seg ∈ s.ledger.dirty)
include up due

/-- A segment that has no job yet is asked for. -/
theorem exec_checkpointSegment_asks (none_ : jobEntry s 6 seg = none) (quiet : ∀ r ∈ s.tally.waiting, r.origin ≠ .internal 6 seg) :
    exec (.checkpointSegment seg) s = .next (await s (jobReq 6 seg 1 1)) := by
  have entries : s.tally.entries.any (fun p => p.2.origin = .internal 6 seg) = false := by
    have absent := List.find?_eq_none.mp (Option.map_eq_none_iff.mp none_)
    exact List.any_eq_false.mpr absent
  have waits : s.tally.waiting.any (fun r => r.origin = .internal 6 seg) = false :=
    List.any_eq_false.mpr (fun r hr => by simpa using quiet r hr)
  change execCheckpointSegment seg s = _
  simp only [execCheckpointSegment, flashRuns, up, dirty_first due, none_, askOnce, entries, waits]
  rfl

/-- The job that has its entry writes the segment. -/
theorem exec_checkpointSegment_writes {i : Nat} (found : jobEntry s 6 seg = some i) :
    exec (.checkpointSegment seg) s = .next (freeFamily (checkpointSegment s seg) i) := by
  change execCheckpointSegment seg s = _
  simp only [execCheckpointSegment, flashRuns, up, dirty_first due, found]
  rfl

end

/-- A table written over another reads its own entries first. -/
theorem tget_foldl_tput {α : Type} {l : Table α} (h : keysRising l = true) (m : Table α) (k : Nat) :
    tget (l.foldl (fun m p => tput m p.1 p.2) m) k = (tget l k).or (tget m k) := by
  induction l generalizing m with
  | nil => rfl
  | cons q l ih =>
    obtain ⟨b, y⟩ := q
    obtain ⟨above, rising⟩ := (keysRising_cons b y l).mp h
    rw [List.foldl_cons, ih rising]
    by_cases hk : k = b
    · subst hk
      have absent : tget l k = none :=
        Option.eq_none_iff_forall_ne_some.mpr (fun v hv => absurd (above _ (tget_mem hv)) (Nat.lt_irrefl k))
      rw [absent, tget_tput_same]
      simp [tget]
    · rw [tget_tput_other _ _ _ _ hk]
      simp [tget, hk]

/-- The stored checkpoint of a segment agrees with the map. -/
theorem checkpointSegment_agrees {s : State} (h : keysRising s.ledger.map = true) {seg iu : Nat} (hs : segmentOf iu = seg) :
    tget (checkpointSegment s seg).ledger.checkpoint iu = tget s.ledger.map iu := by
  have kept := tget_filter_key s.ledger.map (fun n => segmentOf n = seg) iu
  have gone := tget_filter_key s.ledger.checkpoint (fun n => segmentOf n ≠ seg) iu
  simp only [hs] at kept gone
  refine (tget_foldl_tput (filter_rising _ (fun p => segmentOf p.1 = seg) h) _ iu).trans ?_
  rw [kept, gone]
  simp

/-- No record of the segment is left to replay. -/
theorem checkpointSegment_journal (s : State) (seg : Nat) : ∀ r ∈ (checkpointSegment s seg).ledger.journal, segmentOf r.iu ≠ seg :=
  fun _ hr => of_decide_eq_true (List.mem_filter.mp hr).2

end Sys2Proof.Machine

open Sys2Proof Sys2Proof.Machine in
/-- Settles O40, job by job: what it asks for in a drive whose flash engines run, and what it does once it has its entry. -/
theorem ledgerJobsRun : Obligations.LedgerJobsRun := by
  unfold Obligations.LedgerJobsRun
  refine ⟨?gather, ?reclaim, ?copy, ?wear, ?scrub, ?scrubEnd, ?checkpoint⟩
  case gather =>
    intro s die since k b up hd open_ due found
    have media := gateProgram_media s die (dieBlock s k (positionOf die)) (currentLine b) false (gatherPages s k (positionOf die))
    exact ⟨_, exec_gatherTimeout up hd open_ due found, rfl, media.map, media.pages⟩
  case reclaim =>
    intro s rg job die block up hg _
    refine ⟨fun k none_ target => ?_, fun c i found entry => ?_⟩
    · exact ⟨_, _, exec_reclaimJob_asks _ up hg none_ target, rfl, rfl, rfl, rfl, rfl, startCare_only s job k⟩
    · have worked : MediaStand gateParts s (if (bandOf s c.band).valid = 0 then eraseBand s c.band else readForCopy s i c.band) :=
        .ite (eraseBand_media ..) (readForCopy_media ..)
      have media := worked.trans (copyTo_media _ rg die block)
      exact ⟨_, exec_reclaimJob_goesOn _ up hg found entry, rfl, media.map, media.pages, media.only⟩
  case copy =>
    intro s i k quiet placed unread
    obtain ⟨ps, hj⟩ := addJob_stands s
      (jobFor i (.copy k) 0 ((unreadIus s k).take 12) (((unreadIus s k).take 12).flatMap (copySpots s)))
    rw [readForCopy_reads quiet placed unread]
    exact ⟨_, hj, rfl, rfl, rfl⟩
  case wear =>
    intro s rg k b up hg rw_ found
    obtain ⟨armed, ledger⟩ := wearCheck_ledger s
    have band (j : Nat) : bandOf (wearCheck s) j = bandOf s j := by simp only [bandOf, ledger]
    exact ⟨_, exec_wearLevelJob up hg rw_ found, congrArg Band.level (tgetD_tput_same _ _ _ _),
      fun j hj => (tgetD_tput_other _ _ _ _ _ hj).trans (band j), (congrArg Ledger.map ledger :),
      (wearCheck_only s).comp (bandMod_only _ _ _)⟩
  case scrub =>
    intro s stripe block up hs hb new idle
    exact ⟨_, _, exec_scrubPass up hs hb new idle, rfl, rfl, rfl, rfl, rfl, rfl, startCare_only s 3 _⟩
  case scrubEnd =>
    intro s k j
    obtain ⟨bands, scrubbed, bell, pages, map⟩ := scrubOver_stands s k j
    rw [scrubDone_eq]
    dsimp only
    rw [bands, scrubbed, bell]
    refine ⟨fun all_ => ?_, fun ⟨b, hb, left⟩ => ?_, ?_, ?_⟩
    · rw [if_pos (List.all_eq_true.mpr (fun b hb => List.contains_iff_mem.mpr (all_ b hb)))]
      exact ⟨rfl, rfl⟩
    · rw [if_neg (fun all_ => left (List.contains_iff_mem.mp (List.all_eq_true.mp all_ b hb)))]
    · split <;> exact pages
    · split <;> exact map
  case checkpoint =>
    intro s seg up due
    refine ⟨fun none_ quiet => ?_, fun i found => ?_⟩
    · exact ⟨_, _, exec_checkpointSegment_asks up due none_ quiet, rfl, rfl, rfl, await_only s _⟩
    · exact ⟨_, exec_checkpointSegment_writes up due found, rfl, checkpointSegment_journal s seg,
        fun rising iu hs => checkpointSegment_agrees rising hs, rfl, rfl,
        (checkpointSegment_only s seg).comp (freeFamily_completion _ i)⟩
end

section
/-!
SUPPORT. Rounding to nearest with ties to even, and the values of magnitude bits and of FP32 words (R175, R232).
-/

namespace Sys2Proof.Machine

/-! ## The nearest integer -/

/-- `r` is the integer nearest to `w`, and the even one of two that are equally near. -/
def NearestEven (r : Nat) (w : Rat) : Prop := |(r : Rat) - w| ≤ 1 / 2 ∧ (|(r : Rat) - w| = 1 / 2 → r % 2 = 0)

theorem NearestEven.of_eq {r : Nat} {w : Rat} (h : (r : Rat) = w) : NearestEven r w := by
  simp [NearestEven, h]

/-- No integer is nearer, and where another is as near, this one is even. -/
theorem NearestEven.le {r : Nat} {w : Rat} (h : NearestEven r w) (j : Int) :
    |(r : Rat) - w| ≤ |j - w| ∧ (|(r : Rat) - w| = |j - w| → (j : Rat) ≠ r → r % 2 = 0) := by
  obtain ⟨near, even⟩ := h
  by_cases hj : (j : Rat) = r
  · rw [hj]
    exact ⟨le_rfl, fun _ other => absurd rfl other⟩
  · have apart : (1 : Rat) ≤ |(j : Rat) - r| := by
      have : (1 : Int) ≤ |j - r| := Int.one_le_abs (sub_ne_zero.mpr (fun e => hj (by exact_mod_cast e)))
      exact_mod_cast this
    have between : |(j : Rat) - r| ≤ |(j : Rat) - w| + |(r : Rat) - w| := abs_sub_comm w (r : Rat) ▸ abs_sub_le _ _ _
    exact ⟨by linarith, fun tie _ => even (by linarith)⟩

theorem roundShift_nearest (m k : Nat) : NearestEven (roundShift m k) (m / 2 ^ k) := by
  unfold roundShift
  split
  · next h => exact .of_eq (by simp [h])
  · dsimp only
    have pos : (0 : Rat) < 2 ^ k := by positivity
    have parts : (m : Rat) / 2 ^ k = (m / 2 ^ k : Nat) + (m % 2 ^ k : Nat) / 2 ^ k := by
      rw [div_eq_iff pos.ne', add_mul, div_mul_cancel₀ _ pos.ne', mul_comm]
      exact_mod_cast (Nat.div_add_mod m (2 ^ k)).symm
    have rest : ((m % 2 ^ k : Nat) : Rat) / 2 ^ k < 1 := (div_lt_one pos).mpr (by exact_mod_cast Nat.mod_lt m (Nat.two_pow_pos k))
    have rest0 : 0 ≤ ((m % 2 ^ k : Nat) : Rat) / 2 ^ k := by positivity
    have half : (2 * (m % 2 ^ k) < 2 ^ k ↔ ((m % 2 ^ k : Nat) : Rat) / 2 ^ k < 1 / 2) ∧
        (2 * (m % 2 ^ k) = 2 ^ k ↔ ((m % 2 ^ k : Nat) : Rat) / 2 ^ k = 1 / 2) := by
      rw [div_lt_iff₀ pos, div_eq_iff pos.ne', ← Nat.cast_lt (α := Rat), ← Nat.cast_inj (R := Rat)]
      push_cast
      constructor <;> constructor <;> intro h <;> linarith
    rw [parts]
    generalize ((m % 2 ^ k : Nat) : Rat) / 2 ^ k = x at *
    split
    · next up =>
      have : 1 / 2 ≤ x := not_lt.mp (fun h => by have := half.1.mpr h; omega)
      rw [NearestEven]
      push_cast
      rw [show (m / 2 ^ k : Nat) + 1 - ((m / 2 ^ k : Nat) + x) = 1 - x by ring, abs_of_pos (by linarith)]
      refine ⟨by linarith, fun tie => ?_⟩
      have := half.2.mpr (by linarith)
      omega
    · next down =>
      have : x ≤ 1 / 2 := by
        by_contra h
        have h1 := mt half.1.mp (by linarith)
        have h2 := mt half.2.mp (by linarith)
        omega
      rw [NearestEven, show ((m / 2 ^ k : Nat) : Rat) - ((m / 2 ^ k : Nat) + x) = -x by ring, abs_neg, abs_of_nonneg rest0]
      refine ⟨this, fun tie => ?_⟩
      have := half.2.mpr tie
      omega

/-! ## Magnitude bits -/

/-- The value of magnitude bits. -/
def magRat (mb bias x : Nat) : Rat := (unpackMag mb bias x).1 * 2 ^ (unpackMag mb bias x).2

/-- The exponent of the least step of a format. -/
def lowExp (mb bias : Nat) : Int := 1 - (bias : Int) - (mb : Int)

/-- A mantissa `r` behind the exponent field `a` has the value r · 2^a in least steps; a mantissa that has carried is as good. -/
theorem magRat_fields {mb bias a r : Nat} (hr : r ≤ 2 ^ (mb + 1)) (ha : a = 0 ∨ 2 ^ mb ≤ r) :
    magRat mb bias (a * 2 ^ mb + r) = r * 2 ^ (lowExp mb bias + a) := by
  have pos : 0 < 2 ^ mb := Nat.two_pow_pos mb
  rw [pow_succ] at hr
  rcases Nat.lt_or_ge r (2 ^ mb) with small | large
  · obtain rfl : a = 0 := ha.resolve_right (Nat.not_le.mpr small)
    simp [magRat, unpackMag, lowExp, Nat.div_eq_of_lt small, Nat.mod_eq_of_lt small]
  · obtain ⟨d, rfl⟩ := Nat.exists_eq_add_of_le large
    rw [show a * 2 ^ mb + (2 ^ mb + d) = (a + 1) * 2 ^ mb + d by ring]
    rcases Nat.lt_or_ge d (2 ^ mb) with inside | carried
    · have ex : ((a + 1) * 2 ^ mb + d) / 2 ^ mb = a + 1 := by
        rw [Nat.add_comm, Nat.add_mul_div_right _ _ pos, Nat.div_eq_of_lt inside, Nat.zero_add]
      have man : ((a + 1) * 2 ^ mb + d) % 2 ^ mb = d := by
        rw [Nat.add_comm, Nat.add_mul_mod_self_right, Nat.mod_eq_of_lt inside]
      simp only [magRat, unpackMag, ex, man, if_neg (Nat.succ_ne_zero a), lowExp]
      rw [show ((a + 1 : Nat) : Int) - bias - mb = 1 - bias - mb + a by push_cast; ring, Nat.add_comm d]
    · obtain rfl : d = 2 ^ mb := by omega
      have ex : ((a + 1) * 2 ^ mb + 2 ^ mb) / 2 ^ mb = a + 2 := by
        rw [← Nat.succ_mul, Nat.mul_div_cancel _ pos]
      have man : ((a + 1) * 2 ^ mb + 2 ^ mb) % 2 ^ mb = 0 := by
        rw [← Nat.succ_mul, Nat.mul_mod_left]
      simp only [magRat, unpackMag, ex, man, if_neg (Nat.succ_ne_zero (a + 1)), lowExp]
      rw [show ((a + 2 : Nat) : Int) - bias - mb = 1 - bias - mb + a + 1 by push_cast; ring, zpow_add_one₀ two_ne_zero]
      push_cast
      ring

/-- Every value of magnitude bits is a mantissa of `mb + 1` bits at an exponent that is not below the least step's. -/
theorem magRat_form (mb bias x : Nat) : ∃ n b : Nat, n < 2 ^ (mb + 1) ∧ magRat mb bias x = n * 2 ^ (lowExp mb bias + b) := by
  have man : x % 2 ^ mb < 2 ^ mb := Nat.mod_lt x (Nat.two_pow_pos mb)
  rw [pow_succ]
  by_cases h : x / 2 ^ mb = 0
  · exact ⟨x % 2 ^ mb, 0, by omega, by simp [magRat, unpackMag, h, lowExp]⟩
  · obtain ⟨b, hb⟩ := Nat.exists_eq_succ_of_ne_zero h
    refine ⟨x % 2 ^ mb + 2 ^ mb, b, by omega, ?_⟩
    simp only [magRat, unpackMag, hb, if_neg (Nat.succ_ne_zero b), lowExp]
    rw [show ((b.succ : Nat) : Int) - bias - mb = 1 - bias - mb + b by push_cast; ring]

/-- What `packMag` rounds to: the mantissa `r` at the exponent field `a`, nearest to the value in steps of that exponent. Past the least
exponent the value is no smaller than the least mantissa with the hidden bit. -/
structure Packed (mb bias m : Nat) (e : Int) (a r : Nat) : Prop where
  bits : packMag mb bias m e = a * 2 ^ mb + r
  nearest : NearestEven r (m * 2 ^ (e - (lowExp mb bias + a)))
  above : a = 0 ∨ (2 : Rat) ^ mb ≤ m * 2 ^ (e - (lowExp mb bias + a))
  below : (m : Rat) * 2 ^ (e - (lowExp mb bias + a)) < 2 ^ (mb + 1)

theorem packMag_packed (mb bias m : Nat) (e : Int) : ∃ a r, Packed mb bias m e a r := by
  by_cases hm : m = 0
  · subst hm
    exact ⟨0, 0, by simp [packMag], .of_eq (by simp), .inl rfl, by simp⟩
  · let q : Int := max ((Nat.log2 m : Int) + e - mb) (lowExp mb bias)
    obtain ⟨a, ha⟩ : ∃ a : Nat, q = lowExp mb bias + a := ⟨(q - lowExp mb bias).toNat, by omega⟩
    refine ⟨a, if q - e ≤ 0 then m * 2 ^ (-(q - e)).toNat else roundShift m (q - e).toNat, ?bits, ?nearest, ?above, ?below⟩
    case bits =>
      have : (q - lowExp mb bias).toNat = a := by omega
      simp only [packMag, if_neg hm]
      rw [← this]
      rfl
    case nearest =>
      rw [← ha]
      split
      · next h =>
        refine .of_eq ?_
        push_cast
        rw [← zpow_natCast, Int.toNat_of_nonneg (by omega), show -(q - e) = e - q by ring]
      · next h =>
        have near := roundShift_nearest m (q - e).toNat
        rwa [div_eq_mul_inv, ← zpow_natCast, Int.toNat_of_nonneg (by omega), ← zpow_neg, neg_sub] at near
    case above =>
      rw [← ha]
      have low : (2 : Rat) ^ (m.log2 : Int) ≤ m := by exact_mod_cast Nat.log2_self_le hm
      by_cases hq : a = 0
      · exact .inl hq
      · right
        have top : q = m.log2 + e - mb := by omega
        calc (2 : Rat) ^ mb = 2 ^ (m.log2 : Int) * 2 ^ (e - q) := by
              rw [← zpow_add₀ two_ne_zero, ← zpow_natCast]; congr 1; omega
          _ ≤ m * 2 ^ (e - q) := by gcongr
    case below =>
      rw [← ha]
      have high : (m : Rat) < 2 ^ ((m.log2 : Int) + 1) := by exact_mod_cast Nat.lt_log2_self (n := m)
      calc (m : Rat) * 2 ^ (e - q) < 2 ^ ((m.log2 : Int) + 1) * 2 ^ (e - q) := by gcongr
        _ = 2 ^ ((m.log2 : Int) + 1 + (e - q)) := (zpow_add₀ two_ne_zero _ _).symm
        _ ≤ 2 ^ ((mb + 1 : Nat) : Int) := zpow_le_zpow_right₀ one_le_two (by omega)
        _ = 2 ^ (mb + 1) := zpow_natCast _ _

namespace Packed

variable {mb bias m a r : Nat} {e : Int} (h : Packed mb bias m e a r)
include h

theorem fits : r ≤ 2 ^ (mb + 1) := by
  have near := (abs_le.mp h.nearest.1).2
  have : (r : Rat) < (2 ^ (mb + 1) + 1 : Nat) := by push_cast; linarith [h.below]
  exact Nat.lt_succ_iff.mp (by exact_mod_cast this)

theorem hidden : a = 0 ∨ 2 ^ mb ≤ r := by
  refine h.above.imp_right (fun above => ?_)
  have near := (abs_le.mp h.nearest.1).1
  have : ((2 ^ mb : Nat) : Rat) < (r + 1 : Nat) := by push_cast; linarith
  exact Nat.lt_succ_iff.mp (by exact_mod_cast this)

/-- The value of the bits that `packMag` answers. -/
theorem value : magRat mb bias (packMag mb bias m e) = r * 2 ^ (lowExp mb bias + a) := by
  rw [h.bits, magRat_fields h.fits h.hidden]

theorem parity (hb : mb ≠ 0) : packMag mb bias m e % 2 = r % 2 := by
  obtain ⟨k, rfl⟩ := Nat.exists_eq_succ_of_ne_zero hb
  rw [h.bits, pow_succ, ← mul_assoc, Nat.add_comm, Nat.add_mul_mod_self_right]

end Packed

/-- A value of the format lies on the steps of any higher exponent, or below the least mantissa with the hidden bit there. -/
theorem grid_or_small {mb n b a : Nat} (low : Int) (hn : n < 2 ^ (mb + 1)) :
    (∃ j : Nat, (n : Rat) * 2 ^ (low + b) = j * 2 ^ (low + a)) ∨ (a ≠ 0 ∧ (n : Rat) * 2 ^ (low + b) < 2 ^ mb * 2 ^ (low + a)) := by
  rcases Nat.le_or_ge a b with higher | lower
  · obtain ⟨c, rfl⟩ := Nat.exists_eq_add_of_le higher
    refine .inl ⟨n * 2 ^ c, ?_⟩
    push_cast
    rw [← add_assoc, zpow_add₀ two_ne_zero _ (c : Int), zpow_natCast]
    ring
  · rcases Nat.eq_or_lt_of_le lower with rfl | lower
    · exact .inl ⟨n, rfl⟩
    · refine .inr ⟨by omega, ?_⟩
      have hn' : (n : Rat) < 2 ^ (mb + 1) := by exact_mod_cast hn
      calc (n : Rat) * 2 ^ (low + b) < 2 ^ (mb + 1) * 2 ^ (low + b) := by gcongr
        _ = 2 ^ mb * 2 ^ (low + b + 1) := by rw [zpow_add_one₀ two_ne_zero]; ring
        _ ≤ 2 ^ mb * 2 ^ (low + a) := mul_le_mul_of_nonneg_left (zpow_le_zpow_right₀ one_le_two (by omega)) (by positivity)

/-- Rounding to a format is to nearest, ties to even: no value of the format, of either sign, is nearer to m · 2^e than what `packMag`
answers, and where another is as near, the bits are even. -/
theorem packMag_nearest {mb bias : Nat} (hb : mb ≠ 0) (m : Nat) (e : Int) (neg : Bool) (x : Nat) :
    let v := (m : Rat) * 2 ^ e
    let y := magRat mb bias (packMag mb bias m e)
    let z := (if neg then -1 else 1) * magRat mb bias x
    |y - v| ≤ |z - v| ∧ (|y - v| = |z - v| → z ≠ y → packMag mb bias m e % 2 = 0) := by
  obtain ⟨a, r, packed⟩ := packMag_packed mb bias m e
  obtain ⟨n, b, hn, form⟩ := magRat_form mb bias x
  intro v y z
  let step : Rat := 2 ^ (lowExp mb bias + a)
  let w : Rat := m * 2 ^ (e - (lowExp mb bias + a))
  have pos : 0 < step := by positivity
  have hv : v = w * step := by simp only [v, w, step, mul_assoc, ← zpow_add₀ (two_ne_zero' Rat), sub_add_cancel]
  have hy : y = r * step := packed.value
  have steps (c : Rat) : |c * step - v| = |c - w| * step := by rw [hv, ← sub_mul, abs_mul, abs_of_pos pos]
  have integral {j : Int} (hz : z = j * step) :
      |y - v| ≤ |z - v| ∧ (|y - v| = |z - v| → z ≠ y → packMag mb bias m e % 2 = 0) := by
    obtain ⟨near, even⟩ := packed.nearest.le j
    rw [hy, hz, steps, steps, packed.parity hb]
    exact ⟨by gcongr, fun tie other => even (mul_right_cancel₀ pos.ne' tie) (fun same => other (by rw [same]))⟩
  rcases grid_or_small (a := a) (b := b) (lowExp mb bias) hn with ⟨j, grid⟩ | ⟨ha, small⟩
  · refine integral (j := if neg then -j else j) ?_
    simp only [z, form, grid]
    split <;> push_cast <;> ring
  · have above : (2 : Rat) ^ mb ≤ w := packed.above.resolve_left ha
    have hz : z < 2 ^ mb * step := by
      refine lt_of_le_of_lt ?_ small
      have : 0 ≤ (n : Rat) * 2 ^ (lowExp mb bias + b) := by positivity
      simp only [z, form]
      split <;> linarith
    have hvw : 2 ^ mb * step ≤ v := hv ▸ mul_le_mul_of_nonneg_right above pos.le
    have least : |y - v| ≤ v - 2 ^ mb * step := by
      rw [hy, steps, hv, ← sub_mul]
      gcongr
      calc |(r : Rat) - w| ≤ |((2 ^ mb : Nat) : Int) - w| := (packed.nearest.le _).1
        _ = w - 2 ^ mb := by push_cast; rw [abs_sub_comm, abs_of_nonneg (by linarith)]
    have far : |y - v| < |z - v| := by
      rw [abs_sub_comm z, abs_of_pos (by linarith : 0 < v - z)]
      linarith
    exact ⟨far.le, fun tie => absurd tie far.ne⟩

/-! ## FP32 words -/

theorem fvRat_fin (neg : Bool) (m : Nat) (e : Int) : fvRat (.fin neg m e) = some ((if neg then -1 else 1) * ((m : Rat) * 2 ^ e)) := by
  rw [fvRat, mul_assoc]

/-- The value of a finite FP32 word is that of its magnitude bits with a sign. -/
theorem f32Val_finite {w : Nat} {z : Rat} (h : fvRat (f32Val w) = some z) :
    ∃ (neg : Bool) (x : Nat), z = (if neg then -1 else 1) * magRat 23 127 x := by
  unfold f32Val at h
  dsimp only at h
  split at h
  · cases h
  · split at h
    · cases h
    · rw [fvRat_fin] at h
      exact ⟨_, _, (Option.some.inj h).symm⟩

theorem f32Val_signed {p : Nat} (neg : Bool) (hp : p < 0x7F800000) :
    f32Val (signBit neg 32 + p) = .fin neg (unpackMag 23 127 p).1 (unpackMag 23 127 p).2 := by
  have mag : (signBit neg 32 + p) % 2 ^ 32 % 2 ^ 31 = p := by cases neg <;> simp [signBit] <;> omega
  have sign : decide (2 ^ 31 ≤ (signBit neg 32 + p) % 2 ^ 32) = neg := by cases neg <;> simp [signBit] <;> omega
  simp only [f32Val, mag, sign, if_neg (show ¬0x7F800000 < p by omega), if_neg (show p ≠ 0x7F800000 by omega)]

theorem f32Val_infinite (neg : Bool) : f32Val (signBit neg 32 + 0x7F800000) = .inf neg := by cases neg <;> rfl

/-- Where the rounded word is finite, no limit of the exponent has met it. -/
theorem f32Of_finite {neg : Bool} {m : Nat} {e : Int} {y : Rat} (h : fvRat (f32Val (f32Of (.fin neg m e))) = some y) :
    f32Of (.fin neg m e) = signBit neg 32 + packMag 23 127 m e ∧
      y = (if neg then -1 else 1) * magRat 23 127 (packMag 23 127 m e) := by
  rw [f32Of] at h ⊢
  rcases Nat.lt_or_ge (packMag 23 127 m e) 0x7F800000 with inside | beyond
  · rw [Nat.min_eq_left inside.le] at h ⊢
    rw [f32Val_signed neg inside, fvRat_fin] at h
    exact ⟨rfl, (Option.some.inj h).symm⟩
  · rw [Nat.min_eq_right beyond, f32Val_infinite] at h
    cases h

theorem abs_sign_sub (neg : Bool) (p q : Rat) :
    |(if neg then -1 else 1) * p - (if neg then -1 else 1) * q| = |p - q| := by
  cases neg
  · simp
  · rw [← mul_sub, abs_mul]; simp

end Sys2Proof.Machine
end

open Sys2Proof Sys2Proof.Machine in
/-- Settles O43: seen from the exact value's own sign, the word's magnitude bits are what `packMag` rounds to. -/
theorem roundingIsToNearestEven : Obligations.RoundingIsToNearestEven := by
  intro v q y hv hy x z hz
  cases v with
  | nan => cases hv
  | inf neg => cases hv
  | fin neg m e =>
    obtain ⟨word, rfl⟩ := f32Of_finite hy
    obtain ⟨other, bits, rfl⟩ := f32Val_finite hz
    rw [fvRat_fin] at hv
    obtain rfl := Option.some.inj hv
    have turned : (if other then -1 else 1) * magRat 23 127 bits =
        (if neg then -1 else 1) * ((if (other ^^ neg) then -1 else 1) * magRat 23 127 bits) := by
      cases other <;> cases neg <;> simp
    obtain ⟨near, even⟩ := packMag_nearest (bias := 127) (by decide : 23 ≠ 0) m e (other ^^ neg) bits
    rw [turned, abs_sign_sub, abs_sign_sub]
    refine ⟨near, fun tie differs => ?_⟩
    have := even tie (fun same => differs (by rw [same]))
    rw [word]
    cases neg <;> simp [signBit] <;> omega

section
/-!
SUPPORT. The exact arithmetic of finite values (R175), what a NaN gives (R232), and the gang instructions that write one register from the
sources of each lane.
-/

namespace Sys2Proof.Machine

/-! ## Exact values -/

/-- The value of a mantissa brought down to a lower exponent. -/
theorem scaled_value {neg : Bool} {m : Nat} {e q : Int} (h : q ≤ e) :
    fvRat (.fin neg m e) = some ((scaled neg m e q : Rat) * 2 ^ q) := by
  have shift : (2 : Rat) ^ e = 2 ^ (e - q).toNat * 2 ^ q := by
    rw [← zpow_natCast, Int.toNat_of_nonneg (by omega), ← zpow_add₀ two_ne_zero, sub_add_cancel]
  rw [fvRat_fin, shift]
  cases neg <;> simp [scaled] <;> ring

theorem signed_natAbs (v : Int) : (if decide (v < 0) then -1 else 1) * (v.natAbs : Rat) = v := by
  rw [Nat.cast_natAbs]
  rcases lt_or_ge v 0 with h | h
  · simp [h, abs_of_neg]
  · simp [not_lt.mpr h, abs_of_nonneg h]

/-- What is finite is a sign, a mantissa and an exponent. -/
theorem fvRat_some {x : Fv} {p : Rat} (h : fvRat x = some p) : ∃ neg m e, x = .fin neg m e := by
  cases x with
  | nan => cases h
  | inf neg => cases h
  | fin neg m e => exact ⟨neg, m, e, rfl⟩

section
variable {x y : Fv} {p q : Rat} (hx : fvRat x = some p) (hy : fvRat y = some q)
include hx hy

/-- Two finite values as mantissas at the lower of their exponents. -/
theorem common_exponent : ∃ a m e b n f, x = .fin a m e ∧ y = .fin b n f ∧
    p = (scaled a m e (min e f) : Rat) * 2 ^ min e f ∧ q = (scaled b n f (min e f) : Rat) * 2 ^ min e f := by
  obtain ⟨a, m, e, rfl⟩ := fvRat_some hx
  obtain ⟨b, n, f, rfl⟩ := fvRat_some hy
  rw [scaled_value (min_le_left e f)] at hx
  rw [scaled_value (min_le_right e f)] at hy
  exact ⟨a, m, e, b, n, f, rfl, rfl, (Option.some.inj hx).symm, (Option.some.inj hy).symm⟩

theorem fvAdd_exact : fvRat (fvAdd x y) = some (p + q) := by
  obtain ⟨a, m, e, b, n, f, rfl, rfl, rfl, rfl⟩ := common_exponent hx hy
  rw [fvAdd, ← add_mul]
  split
  · next zero => rw [fvRat_fin, ← Int.cast_add, zero]; simp
  · rw [fvRat_fin, ← mul_assoc, signed_natAbs, Int.cast_add]

theorem fvMul_exact : fvRat (fvMul x y) = some (p * q) := by
  obtain ⟨a, m, e, rfl⟩ := fvRat_some hx
  obtain ⟨b, n, f, rfl⟩ := fvRat_some hy
  rw [fvRat_fin] at hx hy
  rw [fvMul, fvRat_fin, ← Option.some.inj hx, ← Option.some.inj hy, zpow_add₀ two_ne_zero]
  cases a <;> cases b <;> simp <;> ring

theorem fvLt_exact : fvLt x y = true ↔ p < q := by
  obtain ⟨a, m, e, b, n, f, rfl, rfl, rfl, rfl⟩ := common_exponent hx hy
  have pos : (0 : Rat) < 2 ^ min e f := by positivity
  rw [fvLt, decide_eq_true_iff, mul_lt_mul_iff_left₀ pos, Int.cast_lt]

theorem fvEq_exact : fvEq x y = true ↔ p = q := by
  obtain ⟨a, m, e, b, n, f, rfl, rfl, rfl, rfl⟩ := common_exponent hx hy
  have pos : (0 : Rat) < 2 ^ min e f := by positivity
  rw [fvEq, decide_eq_true_iff, mul_left_inj' pos.ne', Int.cast_inj]

end

/-! ## NaN, zeros and classes -/

theorem fvAdd_nan (x : Fv) : fvAdd .nan x = .nan ∧ fvAdd x .nan = .nan := by cases x <;> exact ⟨rfl, rfl⟩

theorem fvMul_nan (x : Fv) : fvMul .nan x = .nan ∧ fvMul x .nan = .nan := by cases x <;> exact ⟨rfl, rfl⟩

theorem fvMin_nan (x : Fv) : fvMin .nan x = .nan ∧ fvMin x .nan = .nan := by cases x <;> exact ⟨rfl, rfl⟩

theorem fvMax_nan (x : Fv) : fvMax .nan x = .nan ∧ fvMax x .nan = .nan := by cases x <;> exact ⟨rfl, rfl⟩

theorem fvDiv_nan (x : Fv) : fvDiv .nan x = .nan ∧ fvDiv x .nan = .nan := by cases x <;> exact ⟨rfl, rfl⟩

/-- The class mask has one bit, that of the branch that the word falls in. -/
theorem fclassMask_one (w : Nat) : ∃ k, k < 9 ∧ fclassMask w = 2 ^ k := by
  have pick (c : Bool) {i j : Nat} (hi : i < 9) (hj : j < 9) : ∃ k, k < 9 ∧ (if c then 2 ^ i else 2 ^ j) = 2 ^ k := by
    cases c
    · exact ⟨j, hj, rfl⟩
    · exact ⟨i, hi, rfl⟩
  unfold fclassMask
  dsimp only
  split
  · exact ⟨8, by decide, rfl⟩
  · split
    · exact pick _ (i := 0) (j := 7) (by decide) (by decide)
    · split
      · exact pick _ (i := 3) (j := 4) (by decide) (by decide)
      · split
        · exact pick _ (i := 2) (j := 5) (by decide) (by decide)
        · exact pick _ (i := 1) (j := 6) (by decide) (by decide)

/-- FCMP of a NaN holds for NE alone. -/
theorem fcmpHolds_word (code : Nat) (a b : Fv) : (if fcmpHolds code a b then 1 else 0 : Word) =
    if a = .nan ∨ b = .nan then (if code = 1 then 1 else 0) else if condHolds code (fvLt a b) (fvEq a b) then 1 else 0 := by
  unfold fcmpHolds
  split <;> simp

/-! ## Instructions that write one register -/

theorem rOk_rd {r : RFields} {mask : Nat} (h : rOk r mask = true) : r.rd < 256 := by
  simp only [rOk, Bool.and_eq_true, decide_eq_true_eq] at h
  obtain ⟨⟨⟨⟨⟨hrd, -⟩, -⟩, -⟩, -⟩, -⟩ := h
  exact hrd

/-- An R-form instruction with valid fields writes its function of the lane's sources. -/
theorem gangWrites_alu {c : Instr} {s : State} {ref : GangRef} {v : Invocation} {g : Gang} {mask : Nat} (T : GangTurn s ref v g mask)
    {r : RFields} {k : Nat} {extra : Bool} {f : Word → Word → Word → Word} (hc : exec c s = .next (gangAlu s ref r k extra f))
    (ok : rOk r k = true) (he : extra = true)
    {out : Nat → Word} (ho : ∀ i, out i = f (regAt g i r.ra) (regAt g i r.rb) (regAt g i r.rc)) : GangWrites c s ref g mask r.rd out := by
  rw [gangAlu, ok, he] at hc
  obtain rfl := funext ho
  exact gangWrites_of T (rOk_rd ok) hc

end Sys2Proof.Machine
end

open Sys2Proof Sys2Proof.Machine in
/-- Settles O42: each instruction is one `gangAlu`, and what its function gives is said of the values above. -/
theorem gangFloatOperations : Obligations.GangFloatOperations := by
  unfold Obligations.GangFloatOperations
  refine ⟨fun s ref v g mask T r => ⟨fun ok => ?two, fun ok => ?one, fun ok cond => ?compare, fun ok => ?round, fun ok => ?class_,
    fun ok src dst => ?convert⟩, fun x y p q hx hy => ?exact_, fun x => ?nan, fun n m => ?zeros, fclassMask_one, fun w => rfl⟩
  case two => and_intros <;> exact gangWrites_alu T rfl ok rfl (fun _ => rfl)
  case one => and_intros <;> exact gangWrites_alu T rfl ok rfl (fun _ => rfl)
  case compare =>
    simp only [← fcmpHolds_word]
    exact gangWrites_alu T rfl ok (decide_eq_true cond) (fun _ => rfl)
  case round => exact gangWrites_alu T rfl ok rfl (fun _ => rfl)
  case class_ => exact gangWrites_alu T rfl ok rfl (fun _ => rfl)
  case convert => exact gangWrites_alu T rfl ok (by rw [src, dst]; rfl) (fun _ => rfl)
  case exact_ => exact ⟨fvAdd_exact hx hy, fvMul_exact hx hy, fvLt_exact hx hy, fvEq_exact hx hy⟩
  case nan =>
    simp only [fvAdd_nan, fvMul_nan, fvMin_nan, fvMax_nan, fvDiv_nan]
    exact ⟨rfl, rfl, rfl, rfl, rfl, rfl, rfl, rfl, rfl, rfl⟩
  case zeros => cases n <;> cases m <;> exact ⟨by decide, by decide⟩

section
/-!
SUPPORT. Loom Direct at its turn (R187, R188), and what the end of a loom's step leaves: a loom without a step, the rows written, the
ticket DONE (R188, R206).
-/

namespace Sys2Proof.Machine

/-! ## Loom Direct at its turn -/

/-- A refusal while the command is still ADMITTED completes it and disturbs nothing. -/
theorem IoTurn.refusedAdmitted {s : State} {h : HostId} {i : Nat} (t : IoTurn s h i) (st : Status) :
    Completes s (finish s i st 0 0) h.sq h.cid [] st 0 0 ∧ Undisturbed [] s (finish s i st 0 0) := by
  obtain ⟨e, he, ho, -⟩ := t.fresh
  exact ⟨completes_finish t.found he ho (findHost_state t.tally t.found he) st 0 0, finish_undisturbed s i st 0 0⟩

/-- The record of a Loom Direct that no tile has run of. -/
def newDirect (i : Nat) (buf : Bytes) : Direct :=
  let tiles := fieldAt buf 0 2 / 64 * (fieldAt buf 2 2 / 64)
  ⟨i, buf, List.range tiles, tiles, [], 0, [], fieldAt buf 11 1⟩

theorem exec_loomDirect {s : State} {h : HostId} {i length : Nat} {desc mats : Bytes} (t : IoTurn s h i) (hr : h.reservedOk = true)
    (new : directGoes s i = false) : exec (.loomDirect h length desc mats) s = .next (
      if odVal s 0x2403 0 = 0 then finish s i .invalidOpcode 0 0
      else if directBad s length (desc ++ mats) then finish s i .invalidField 0 0
      else { s with compute := { s.compute with directs := s.compute.directs ++ [newDirect i (desc ++ mats)] } }) := by
  change execLoomDirect h length desc mats s = _
  rw [execLoomDirect, meetVendorIo_turn t hr, new]
  rfl

/-! ## Looms without a step -/

theorem tget_map_value {α : Type} (t : Table α) (f : α → α) (k : Nat) :
    tget (t.map (fun p => (p.1, f p.2))) k = (tget t k).map f := by
  induction t with
  | nil => rfl
  | cons q t ih =>
    simp only [List.map_cons, tget]
    split
    · rfl
    · exact ih

theorem tget_filter_of {α : Type} {t : Table α} {f : Nat × α → Bool} {k : Nat} {v : α} (h : tget t k = some v) (hf : f (k, v) = true) :
    tget (t.filter f) k = some v := by
  induction t with
  | nil => cases h
  | cons q t ih =>
    obtain ⟨b, x⟩ := q
    simp only [tget] at h
    split at h
    · next hk => subst hk; cases h; simp [hf, tget]
    · next hk =>
      rw [List.filter_cons]
      split
      · simpa only [tget, if_neg hk] using ih h
      · exact ih h

theorem loomOf_freeFamily (s : State) (i l : Nat) : loomOf (freeFamily s i) l = (loomOf s l).without (family s i) := by
  change (tget (s.compute.looms.map (fun p => (p.1, p.2.without (family s i)))) l).getD .reset =
    ((tget s.compute.looms l).getD .reset).without _
  rw [tget_map_value]
  cases tget s.compute.looms l <;> rfl

/-- A loom without a step has none after entries are freed. -/
theorem freeFamily_noStep {s : State} {l : Nat} (h : (loomOf s l).step = none) (i : Nat) : (loomOf (freeFamily s i) l).step = none := by
  simp [loomOf_freeFamily, Loom.without, h]

theorem finishData_noStep {s : State} {l : Nat} (h : (loomOf s l).step = none) (i : Nat) (st : Status) (dw0 dw1 : Nat)
    (data : List Nat) (dma : Bool) : (loomOf (finishData s i st dw0 dw1 data dma) l).step = none := by
  unfold finishData
  split
  · exact h
  · split
    · split
      · exact h
      · exact freeFamily_noStep h i
    · exact freeFamily_noStep h i

/-! ## A loom cleared of its step, and counted -/

theorem family_congr {s t : State} (h : t.tally = s.tally) (i : Nat) : family t i = family s i := by simp only [family, h]

/-- What changes the compute state but not Subsystem Local Memory, besides units, records and counters, disturbs nothing. -/
theorem undisturbed_of_slm {ps qs : List Part} {s t : State} (a : OnlyChanges ps s t) (slm : t.compute.slm = s.compute.slm)
    (h : ps ⊆ qs ++ completionParts := by decide) (hm : .ledger ∉ ps ∧ .flash ∉ ps ∧ .host ∉ ps := by decide) : Undisturbed qs s t := by
  obtain ⟨hl, hf, hh⟩ := hm
  exact ⟨a.mono h, congrArg Ledger.map (a .ledger hl), congrArg Flash.pages (a .flash hf), slm,
    fun _ => by have e : t.host = s.host := a .host hh; simp [OnlyPostings, e]⟩

/-- Of the compute state, `u` differs from `s` in that loom `l` has no step. -/
structure Cleared (s : State) (l : Nat) (u : State) : Prop where
  only : OnlyChanges [.compute, .units, .counters, .sticky] s u
  compute : u.compute = (loomMod s l (fun x => { x with step := none, slots := 0 })).compute

theorem clearStep_cleared (s : State) (l : Nat) : Cleared s l (clearStep s l) :=
  ⟨(loomMod_only s l _).comp (taskEnds_only _ _), taskEnds_only _ _ .compute (by decide)⟩

namespace Cleared

variable {s u : State} {l : Nat} (c : Cleared s l u)
include c

theorem count (idx sub n : Nat) : Cleared s l (count u idx sub n) :=
  ⟨c.only.comp (count_only u idx sub n), (count_compute u idx sub n).trans c.compute⟩

theorem noStep : (loomOf u l).step = none := by
  rw [loomOf, c.compute]
  exact congrArg Loom.step (tgetD_tput_same _ _ _ _)

theorem tally : u.tally = s.tally := c.only .tally (by decide)

theorem invs : u.compute.invs = s.compute.invs := c.compute ▸ rfl

theorem cores : u.compute.cores = s.compute.cores := c.compute ▸ rfl

theorem directs : u.compute.directs = s.compute.directs := c.compute ▸ rfl

theorem undisturbed : Undisturbed [.units, .sticky, .counters] s u := undisturbed_of_slm c.only (c.compute ▸ rfl)

end Cleared

/-! ## The end of a tile of a Loom Direct -/

theorem exec_tileComplete {s : State} {loom tile : Nat} {st : LoomStep} (kv : Option KvPut) (up : stopped s = false)
    (hs : (loomOf s loom).step = some st) (hk : st.kind = .direct tile) :
    exec (.loomStepComplete loom ⟨st.child, kv⟩) s = .next (tileDrained s loom st tile) := by
  change execLoomStepComplete loom ⟨st.child, kv⟩ s = _
  simp [execLoomStepComplete, up, hs, hk]

/-- What the fuller gives for a tile: the rows, the number of saturated outputs, no channels. -/
def tileRows (d : Direct) (st : LoomStep) (tile : Nat) : List (List Nat) × Nat × List Channel :=
  fullerRows (directFuller d.buf tile) (stepAcc st (fieldAt d.buf 8 1) (fieldAt d.buf 9 1) (fieldAt d.buf 4 4) 64) 64 [] 64

/-- C with the rows of a tile. -/
def tileOut (d : Direct) (st : LoomStep) (tile : Nat) : Mem :=
  let n := fieldAt d.buf 2 2
  let f := directFuller d.buf tile
  ((tileRows d st tile).1.zipIdx).foldl (fun (o : Mem) x =>
    mwrite o (elemBytes f.outFmt ((64 * (tile / (n / 64)) + x.2) * n + 64 * (tile % (n / 64)))) (packCodes f.outFmt x.1)) d.out

/-- The record of a Loom Direct after a tile has drained. -/
def tileJoins (st : LoomStep) (tile : Nat) (d d' : Direct) : Direct :=
  { d' with out := tileOut d st tile, undrained := d'.undrained - 1, saturated := d'.saturated + (tileRows d st tile).2.1 }

theorem tileJoins_eq (st : LoomStep) (tile : Nat) (d : Direct) : tileJoins st tile d = fun d' =>
    { d' with out := tileOut d st tile, undrained := d'.undrained - 1, saturated := d'.saturated + (tileRows d st tile).2.1 } := rfl

/-- A tile's rows join C, and its child is freed; the last one's end completes the command. -/
theorem tileDrained_joins {s : State} {l tile entry : Nat} {st : LoomStep} {c : Entry} {d : Direct} (hc : entryAt s st.child = some c)
    (hp : c.parent = some entry) (hd : s.compute.directs.find? (fun d => d.entry = entry) = some d) :
    ∃ u, Cleared s l u ∧ tileDrained s l st tile =
      (let t := freeFamily (directMod u entry (tileJoins st tile d)) st.child
       if d.undrained ≤ 1 then
         finishData t entry .success (sat 32 (d.saturated + (tileRows d st tile).2.1)) d.loomsUsed.length
           (mread (tileOut d st tile) 0 (elemBytes (directFuller d.buf tile).outFmt (fieldAt d.buf 0 2 * fieldAt d.buf 2 2))) true
       else t) := by
  refine ⟨_, (((clearStep_cleared s l).count (0x6108 + l) 5 1).count (0x6108 + l) 6 1).count (0x6108 + l) 4 (tileRows d st tile).2.1, ?_⟩
  simp only [tileDrained, hc, Option.bind_some, hp, hd, directDims, tileRows, tileOut, tileJoins_eq]

/-- What a tile's end leaves: the loom without a step, the command's entry and record, the rest as it was. -/
theorem tileFreed_leaves {s u : State} {l entry child : Nat} (c : Cleared s l u) (outside : entry ∉ family s child)
    (f : Direct → Direct) (kept : ∀ d, (f d).entry = d.entry) :
    let t := freeFamily (directMod u entry f) child
    (loomOf t l).step = none ∧ entryAt t entry = entryAt s entry ∧
      (∀ d ∈ s.compute.directs, d.entry = entry → f d ∈ t.compute.directs) ∧ Undisturbed [.units, .sticky, .counters] s t := by
  have same : family (directMod u entry f) child = family s child := family_congr (s := s) (t := directMod u entry f) c.tally child
  refine ⟨freeFamily_noStep c.noStep child, ?_, fun d hd he => ?_,
    c.undisturbed.trans ((undisturbed_of_slm (directMod_only u entry f) rfl).trans ((freeFamily_undisturbed _ child).mono (by decide)))⟩
  · rw [entryAt_freeFamily, same, if_neg outside]
    exact entryAt_congr (t := directMod u entry f) c.tally entry
  · refine List.mem_filter.mpr ⟨List.mem_map.mpr ⟨d, c.directs ▸ hd, if_pos he⟩, ?_⟩
    rw [same, kept, he]
    simpa using outside

/-! ## The end of a ticket's step -/

theorem exec_ticketComplete {s : State} {loom inv n plan : Nat} {st : LoomStep} (kv : Option KvPut) (up : stopped s = false)
    (hs : (loomOf s loom).step = some st) (hk : st.kind = .ticket inv n plan) :
    exec (.loomStepComplete loom ⟨st.child, kv⟩) s = .next (ticketDrained s loom st inv n plan kv) := by
  change execLoomStepComplete loom ⟨st.child, kv⟩ s = _
  simp [execLoomStepComplete, up, hs, hk]

/-- Once a step's rows are written, its ticket ends, its child is freed, and TICKETs that wait for a slot are tried again. -/
def ticketGone (s : State) (inv n child : Nat) : State := retryTickets (freeFamily (endTicket s inv n 1) child)

/-- What the fuller gives for a TILE entry without STATE: the rows, the number of saturated outputs, no channels. -/
def planRows (st : LoomStep) (b : Bytes) (f : Fuller) : List (List Nat) × Nat × List Channel :=
  fullerRows f (stepAcc st (fieldAt b 1 1) (fieldAt b 2 1) (planK b) (planN b)) (planN b) [] (planM b)

theorem invMod_invMod (s : State) (inv : Nat) (f g : Invocation → Invocation) :
    invMod (invMod s inv f) inv g = invMod s inv (fun v => g (f v)) := by
  have maps : (s.compute.invs.map (fun p => if p.1 = inv then (p.1, f p.2) else p)).map
      (fun p => if p.1 = inv then (p.1, g p.2) else p) = s.compute.invs.map (fun p => if p.1 = inv then (p.1, g (f p.2)) else p) := by
    rw [List.map_map]
    exact List.map_congr_left (fun p _ => by by_cases h : p.1 = inv <;> simp [h])
  simp only [invMod, maps]

/-- The codes of the rows of a step: those of its tile, or of its COARSE pass. -/
def stepCodes (p : Program) (v : Invocation) (b : Bytes) (st : LoomStep) : List Nat :=
  if planTile b then (planRows st b (planFuller p v b st)).1.flatten else (coarsePass p b st).1

/-- A page in the loft window is there whatever the rest of the state. -/
theorem kvTarget_window {b : Bytes} (h : planTarget b = 0) (s t : State) (v : Invocation) (kv : Option KvPut) :
    kvTarget s v b kv = kvTarget t v b kv := by
  simp only [kvTarget, targetMem, h]

section
variable {s : State} {l inv n plan : Nat} {st : LoomStep} {kv : Option KvPut} {v : Invocation} {p : Program} {b : Bytes}
  (hv : tget s.compute.invs inv = some v) (hp : p = programOf s v.program) (hb : b = planEntry p plan) (target : planTarget b = 0)
include hv hp hb target

/-- The rows of a ticket's step go to its output address in the loft window, or, of a token write, into the KV page that the command names;
then the ticket ends. -/
theorem ticketDrained_writes (live : planTile b = true → v.stream = none) :
    ∃ u f, Cleared s l u ∧ ticketDrained s l st inv n plan kv = ticketGone (invMod u inv f) inv n st.child ∧
      (f v).entry = v.entry ∧ (f v).tickets = v.tickets ∧
      (planTile b = false ∨ kvTarget s v b kv = none →
        (f v).window = mwrite v.window st.outAddr (packCodes (fieldAt b 3 1) (stepCodes p v b st)) ∧ (f v).kvRows = v.kvRows) ∧
      (∀ k m a, planTile b = true → kvTarget s v b kv = some (k, m, a) → ((f v).kvRows, (f v).window) =
        kvWrite false k a v.kvRows m (planRows st b (kvFuller (planFuller p v b st) m a k.value)).1) := by
  have cleared := (clearStep_cleared s l).count (0x6108 + l) 5 1
  have same := kvTarget_window target (count (clearStep s l) (0x6108 + l) 5 1) s v kv
  let writes (v' : Invocation) : Invocation :=
    { v' with window := mwrite v'.window st.outAddr (packCodes (fieldAt b 3 1) (stepCodes p v b st)) }
  cases tile : planTile b with
  | false =>
    refine ⟨_, writes, (cleared.count (0x6108 + l) 7 1).count (0x6108 + l) 4 (coarsePass p b st).2, ?_, rfl, rfl, fun _ => ⟨rfl, rfl⟩,
      nofun⟩
    simp only [ticketDrained, hv, ← hp, ← hb, tile, Bool.false_eq_true, if_false, writeOutput, target, stepCodes, ticketGone, writes]
  | true =>
    cases page : kvTarget s v b kv with
    | none =>
      refine ⟨_, writes, cleared.count (0x6108 + l) 4 (planRows st b (planFuller p v b st)).2.1, ?_, rfl, rfl,
        fun _ => ⟨rfl, rfl⟩, nofun⟩
      simp only [ticketDrained, hv, ← hp, ← hb, tile, if_true, live tile, same, page, Option.bind_none, Option.getD_none, writeOutput,
        target, stepCodes, planRows, ticketGone, writes]
    | some x =>
      obtain ⟨k, m, a⟩ := x
      let w := kvWrite false k a v.kvRows m (planRows st b (kvFuller (planFuller p v b st) m a k.value)).1
      refine ⟨_, fun v' => { v' with window := w.2, kvRows := w.1 },
        cleared.count (0x6108 + l) 4 (planRows st b (kvFuller (planFuller p v b st) m a k.value)).2.1, ?_, rfl, rfl, nofun, ?_⟩
      · rw [← invMod_invMod _ inv (fun v' => { v' with window := w.2 }) (fun v' => { v' with kvRows := w.1 })]
        simp only [ticketDrained, hv, ← hp, ← hb, tile, if_true, live tile, same, page, Option.bind_none, Option.getD_none, putTarget,
          target, planRows, ticketGone, Nat.zero_ne_one, decide_false, w]
      · rintro _ _ _ - ⟨⟩
        rfl

end

/-! ## The invocation after its ticket -/

theorem tget_invMod {s : State} {inv : Nat} {v : Invocation} (h : tget s.compute.invs inv = some v) (f : Invocation → Invocation) :
    tget (invMod s inv f).compute.invs inv = some (f v) := by
  rw [invMod_compute, tget_map_key, if_pos rfl, h, Option.map_some]

theorem tget_invMod_other (s : State) {inv j : Nat} (h : j ≠ inv) (f : Invocation → Invocation) :
    tget (invMod s inv f).compute.invs j = tget s.compute.invs j := by
  rw [invMod_compute, tget_map_key, if_neg h]

/-- Of every invocation the window, the KV rows and every ticket stand; other tickets may have been taken behind them. -/
structure TicketsGrow (s t : State) : Prop where
  only : OnlyChanges [.compute, .counters, .sticky] s t
  slm : t.compute.slm = s.compute.slm
  looms : t.compute.looms = s.compute.looms
  invs : ∀ inv v, tget s.compute.invs inv = some v → ∃ w, tget t.compute.invs inv = some w ∧ w.window = v.window ∧ w.kvRows = v.kvRows ∧
    v.tickets <+: w.tickets

theorem TicketsGrow.refl (s : State) : TicketsGrow s s :=
  ⟨.refl _ s, rfl, rfl, fun _ v h => ⟨v, h, rfl, rfl, List.prefix_rfl⟩⟩

theorem TicketsGrow.trans {s t u : State} (a : TicketsGrow s t) (b : TicketsGrow t u) : TicketsGrow s u := by
  refine ⟨a.only.trans b.only, b.slm.trans a.slm, b.looms.trans a.looms, fun inv v h => ?_⟩
  obtain ⟨w, hw, window, rows, grown⟩ := a.invs inv v h
  obtain ⟨x, hx, window', rows', grown'⟩ := b.invs inv w hw
  exact ⟨x, hx, window'.trans window, rows'.trans rows, grown.trans grown'⟩

/-- A change of cores, counters and fault numbers alone leaves every ticket. -/
theorem TicketsGrow.of_invs {s t : State} (only : OnlyChanges [.compute, .counters, .sticky] s t) (slm : t.compute.slm = s.compute.slm)
    (looms : t.compute.looms = s.compute.looms) (invs : t.compute.invs = s.compute.invs) : TicketsGrow s t :=
  ⟨only, slm, looms, fun _ v h => ⟨v, by rw [invs, h], rfl, rfl, List.prefix_rfl⟩⟩

theorem invMod_grows (s : State) (inv next : Nat) (more : List Ticket) :
    TicketsGrow s (invMod s inv (fun v => { v with nextTicket := next, tickets := v.tickets ++ more })) := by
  refine ⟨(invMod_only s inv _).mono (by decide), rfl, rfl, fun j v h => ?_⟩
  by_cases hj : j = inv
  · subst hj
    exact ⟨_, tget_invMod h _, rfl, rfl, List.prefix_append ..⟩
  · exact ⟨v, (tget_invMod_other s hj _).trans h, rfl, rfl, List.prefix_rfl⟩

theorem takeTicket_grows (s : State) (ref : GangRef) (g : Gang) (v : Invocation) (lane rd plan at_ : Nat) :
    TicketsGrow s (takeTicket s ref g v lane rd plan at_) := by
  have counted (t : State) (idx sub n : Nat) : TicketsGrow t (count t idx sub n) :=
    .of_invs ((count_only t idx sub n).mono (by decide)) (by rw [count_compute]) (by rw [count_compute]) (by rw [count_compute])
  have put (g : Gang) : TicketsGrow s (gangPut s ref g) := .of_invs ((gangPut_only s ref g).mono (by decide)) rfl rfl rfl
  exact ((put _).trans (invMod_grows _ _ _ _)).trans (counted _ _ _ _)

theorem retryOne_grows (s : State) (ref : GangRef) : TicketsGrow s (retryOne s ref) := by
  unfold retryOne
  split
  · exact .refl s
  · split
    · split
      · exact .refl s
      · dsimp only
        split
        · exact .of_invs ((faultWith_only s ref _ _).mono (by decide)) rfl rfl rfl
        · exact takeTicket_grows ..
    · exact .refl s

theorem retryTickets_grows (s : State) : TicketsGrow s (retryTickets s) :=
  foldl_rel .refl (fun _ _ _ => .trans) retryOne_grows _ s

/-- No lane of the invocation's gangs waits for the ticket. -/
def Unawaited (s : State) (inv n : Nat) : Prop :=
  ∀ c ∈ s.compute.cores, ∀ g ∈ c.2.gangs, g.2.inv = inv → ∀ x ∈ g.2.blocked, waitsFor n x.2 = false

/-- The ticket of the number, QUEUED in `v`, is DONE in `w`. -/
def MarksDone (n : Nat) (v w : Invocation) : Prop :=
  ∀ k, ticketNo v n = some k → k.state = 0 → ticketNo w n = some { k with state := 1 }

theorem ticketNo_number {v : Invocation} {n : Nat} {k : Ticket} (h : ticketNo v n = some k) : k.number = n := by
  simpa using List.find?_some h

/-- A ticket that ends with no lane waiting for it is DONE. -/
theorem endTicket_done {s : State} {inv n : Nat} {v : Invocation} (hv : tget s.compute.invs inv = some v) :
    ∃ w, tget (endTicket s inv n 1).compute.invs inv = some w ∧ w.window = v.window ∧ w.kvRows = v.kvRows ∧ w.entry = v.entry ∧
      (Unawaited s inv n → MarksDone n v w) := by
  simp only [endTicket, hv]
  split
  · next none_ =>
    refine ⟨v, hv, rfl, rfl, rfl, fun _ k hk h0 => ?_⟩
    simp only [Bool.not_eq_true', List.any_eq_false, Bool.and_eq_true, decide_eq_true_eq, not_and] at none_
    exact absurd h0 (none_ k (List.mem_of_find?_eq_some hk) (ticketNo_number hk))
  · refine ⟨_, tget_invMod (s := gangsMod s inv _) hv _, rfl, rfl, rfl, fun quiet k hk h0 => ?_⟩
    have none_ : s.compute.cores.any (fun c => c.2.gangs.any (fun g => g.2.inv = inv && g.2.blocked.any (fun p => waitsFor n p.2))) =
        false := by
      simp only [List.any_eq_false, Bool.and_eq_true, decide_eq_true_eq, not_and, Bool.not_eq_true]
      exact quiet
    have number (k : Ticket) : (if k.number = n then { k with state := 1 } else k).number = k.number := by split <;> rfl
    have hn := ticketNo_number hk
    rw [ticketNo] at hk
    simp only [none_, Bool.false_eq_true, if_false, ticketNo, List.find?_map, Function.comp_def, number, hk, Option.map_some, hn, if_true]

theorem endTicket_stands (s : State) (inv n st : Nat) :
    (endTicket s inv n st).compute.slm = s.compute.slm ∧ (endTicket s inv n st).compute.looms = s.compute.looms := by
  unfold endTicket
  split
  · exact ⟨rfl, rfl⟩
  · split <;> exact ⟨rfl, rfl⟩

theorem tget_freeFamily {s : State} {inv child : Nat} {v : Invocation} (hv : tget s.compute.invs inv = some v)
    (outside : v.entry ∉ family s child) : tget (freeFamily s child).compute.invs inv = some v :=
  tget_filter_of hv (by simpa using outside)

theorem MarksDone.grow {n : Nat} {v w x : Invocation} (h : MarksDone n v w) (grown : w.tickets <+: x.tickets) : MarksDone n v x :=
  fun k hk h0 => List.IsPrefix.find?_eq_some grown (h k hk h0)

/-- What the end of a ticket leaves, once its rows are written to its invocation: the loom without a step, the rows, the ticket DONE. -/
theorem ticketGone_leaves {s u : State} {l inv n child : Nat} {v : Invocation} (c : Cleared s l u)
    (hv : tget s.compute.invs inv = some v) (outside : v.entry ∉ family s child) {f : Invocation → Invocation}
    (entry : (f v).entry = v.entry) (tickets : (f v).tickets = v.tickets) :
    let t := ticketGone (invMod u inv f) inv n child
    (loomOf t l).step = none ∧ (∃ w, tget t.compute.invs inv = some w ∧ w.window = (f v).window ∧ w.kvRows = (f v).kvRows ∧
      (Unawaited s inv n → MarksDone n v w)) ∧ Undisturbed [.units, .sticky, .counters] s t := by
  have put : OnlyChanges [.compute] u (invMod u inv f) := invMod_only u inv f
  obtain ⟨w, hw, window, rows, entry', done⟩ := endTicket_done (n := n) (tget_invMod (c.invs ▸ hv) f)
  have ended := endTicket_only (invMod u inv f) inv n 1
  obtain ⟨slm, looms⟩ := endTicket_stands (invMod u inv f) inv n 1
  have same : family (endTicket (invMod u inv f) inv n 1) child = family s child :=
    family_congr (((put.trans ended) .tally (by decide)).trans c.tally) child
  have grown := retryTickets_grows (freeFamily (endTicket (invMod u inv f) inv n 1) child)
  obtain ⟨x, hx, window', rows', more⟩ := grown.invs inv w (tget_freeFamily hw (by rwa [same, entry', entry]))
  refine ⟨?_, ⟨x, hx, window'.trans window, rows'.trans rows, fun quiet => ?_⟩, ?_⟩
  · rw [ticketGone, loomOf, grown.looms]
    exact freeFamily_noStep (by rw [loomOf, looms]; exact c.noStep) child
  · have marks := done (fun k hk => quiet k (c.cores ▸ hk))
    exact (show MarksDone n v w from fun k hk => marks k (by rwa [ticketNo, tickets])).grow more
  · exact c.undisturbed.trans <| (undisturbed_of_slm (put.trans ended) slm).trans <|
      ((freeFamily_undisturbed _ child).mono (by decide)).trans (undisturbed_of_slm grown.only grown.slm)

/-! ## The integer accumulator -/

theorem satAdd_fits {a b : Int} (low : -2147483648 ≤ a + b) (high : a + b ≤ 2147483647) : satAdd a b = a + b := by
  unfold satAdd
  omega

theorem toInt_ofInt {x : Int} (low : -2147483648 ≤ x) (high : x ≤ 2147483647) : toInt 32 (ofInt 32 x) = x := by
  simp only [toInt, ofInt]
  omega

/-- While every partial sum fits, no addition saturates. -/
theorem satAdd_foldl (f : Nat → Int) (k : Nat)
    (fits : ∀ j, j ≤ k → -2147483648 ≤ ((List.range j).map f).sum ∧ ((List.range j).map f).sum ≤ 2147483647) :
    (List.range k).foldl (fun acc i => satAdd acc (f i)) 0 = ((List.range k).map f).sum := by
  induction k with
  | zero => rfl
  | succ k ih =>
    obtain ⟨low, high⟩ := fits (k + 1) le_rfl
    simp only [List.range_succ, List.map_append, List.map_cons, List.map_nil, List.sum_append, List.sum_singleton] at low high ⊢
    rw [List.foldl_append, ih (fun j hj => fits j (by omega))]
    exact satAdd_fits low high

theorem accumulate_exact {west north k : Nat} {a b : Nat → Nat} (ints : intPair west = true)
    (fits : ∀ j, j ≤ k → -2147483648 ≤ ((List.range j).map (fun i => elemInt west (a i) * elemInt north (b i))).sum ∧
      ((List.range j).map (fun i => elemInt west (a i) * elemInt north (b i))).sum ≤ 2147483647) :
    toInt 32 (accumulate west north a b k) = ((List.range k).map (fun i => elemInt west (a i) * elemInt north (b i))).sum := by
  obtain ⟨low, high⟩ := fits k le_rfl
  rw [accumulate, if_pos ints, satAdd_foldl _ k fits, toInt_ofInt low high]

end Sys2Proof.Machine
end

open Sys2Proof Sys2Proof.Machine in
/-- Settles O46: the three answers of Loom Direct; a tile's rows join C; a ticket's rows go to the window or its page; the sum of products. -/
theorem loomsRunTheirTiles : Obligations.LoomsRunTheirTiles := by
  unfold Obligations.LoomsRunTheirTiles
  refine ⟨?direct, ?tile, ?ticket, fun west north k a b ints => accumulate_exact ints⟩
  case direct =>
    intro s h i length desc mats t hr new
    refine ⟨fun off => ?_, fun on bad => ?_, fun on ok => ?_⟩
    · obtain ⟨ends, rest⟩ := t.refusedAdmitted .invalidOpcode
      exact ⟨_, (exec_loomDirect t hr new).trans (by rw [if_pos off]), ends, rest⟩
    · obtain ⟨ends, rest⟩ := t.refusedAdmitted .invalidField
      exact ⟨_, (exec_loomDirect t hr new).trans (by rw [if_neg on, if_pos bad]), ends, rest⟩
    · exact ⟨_, newDirect i (desc ++ mats), (exec_loomDirect t hr new).trans (by rw [if_neg on, if_neg (by simp [ok])]),
        rfl, rfl, rfl, rfl, rfl, rfl, only_compute s _⟩
  case tile =>
    intro s kv loom tile entry st c d up hs hk hc hp hd outside
    obtain ⟨u, cleared, drained⟩ := tileDrained_joins (l := loom) (tile := tile) hc hp hd
    obtain ⟨noStep, kept, joined, rest⟩ := tileFreed_leaves cleared outside (tileJoins st tile d) (fun _ => rfl)
    have ran := (exec_tileComplete kv up hs hk).trans (congrArg _ drained)
    refine ⟨fun more => ?_, fun sq cid stands last => ?_⟩
    · rw [if_neg (by omega)] at ran
      exact ⟨_, ran, noStep, joined d (List.mem_of_find?_eq_some hd) (by simpa using List.find?_some hd), rest⟩
    · rw [if_pos last] at ran
      obtain ⟨e, he, ho, hr⟩ := stands.entry
      exact ⟨_, ran, finishData_noStep noStep .., ends_finishData stands.found (kept.trans he) ho hr ..,
        rest.trans ((finishData_undisturbed ..).mono (by decide))⟩
  case ticket =>
    intro s kv loom inv n plan st v up hs hk hv outside p b rows target live
    obtain ⟨u, f, cleared, drained, entry, tickets, written, paged⟩ :=
      ticketDrained_writes (l := loom) (st := st) (n := n) (kv := kv) hv rfl rfl target live
    obtain ⟨noStep, ⟨w, hw, window, kvRows, done⟩, rest⟩ := ticketGone_leaves (n := n) cleared hv outside entry tickets
    refine ⟨_, w, (exec_ticketComplete kv up hs hk).trans (congrArg _ drained), noStep, hw, fun nowhere => ?_, fun k m a tile page => ?_,
      done, rest⟩
    · obtain ⟨atWindow, rows'⟩ := written nowhere
      exact ⟨window.trans atWindow, kvRows.trans rows'⟩
    · rw [kvRows, window]
      exact paged k m a tile page

section
/-!
SUPPORT. How a gang that meets its turn leaves its slot: put back, or stopped by a fault, whatever was counted on the way (R208).
-/

namespace Sys2Proof.Machine

/-! ## What counting leaves -/

theorem compute_of_counted {s u : State} (c : OnlyChanges [.counters, .sticky] s u) : u.compute = s.compute := c .compute (by decide)

theorem coreOf_congr {s t : State} (h : t.compute.cores = s.compute.cores) (u : Nat) : coreOf t u = coreOf s u := by
  simp only [coreOf, h]

theorem gangAt_congr {s t : State} (h : t.compute.cores = s.compute.cores) (ref : GangRef) : gangAt t ref = gangAt s ref := by
  simp only [gangAt, coreOf_congr h]

theorem programOf_congr {s t : State} (h : t.compute.programs = s.compute.programs) (p : Nat) : programOf t p = programOf s p := by
  simp only [programOf, h]

theorem progressMode_congr {s t : State} (h : t.compute.programs = s.compute.programs) (p : Nat) :
    progressMode t p = progressMode s p := by
  simp only [progressMode, programOf_congr h]

theorem instrCount_congr {s t : State} (h : t.compute.programs = s.compute.programs) (p : Nat) : instrCount t p = instrCount s p := by
  simp only [instrCount, programOf_congr h]

theorem OnlyGang.of_cores {s u t v : State} {ref : GangRef} (o : OnlyGang u t ref) (before : u.compute.cores = s.compute.cores)
    (after : v.compute.cores = t.compute.cores) : OnlyGang s v ref := by
  obtain ⟨gangs, cores⟩ := o
  refine ⟨fun r hr => ?_, fun n => ?_⟩
  · rw [gangAt_congr after, gangs r hr, gangAt_congr before]
  · rw [coreOf_congr after, ← coreOf_congr before]
    exact cores n

/-! ## The gang that issues -/

theorem settle_inv (n : Nat) (g : Gang) : (settle g n).inv = g.inv := by
  induction n generalizing g with
  | zero => rfl
  | succ n ih =>
    unfold settle
    split
    · rfl
    · split
      · split <;> exact ih _
      · rfl

theorem chooseConverge_inv {g h : Gang} {mask : Nat} (c : chooseConverge g = some (h, mask)) : h.inv = g.inv := by
  simp only [chooseConverge] at c
  split at c
  · cases c
  · split at c
    · cases c
    · cases c; exact settle_inv _ g

theorem chooseProgress_inv {g h : Gang} {mask : Nat} (c : chooseProgress g = some (h, mask)) : h.inv = g.inv := by
  simp only [chooseProgress] at c
  split at c
  · cases c
  · cases c; rfl

/-- The gang that issues is the one in the slot, as its mode of divergence has chosen its lanes (R198, R199). -/
theorem issuing_cases {s : State} {ref : GangRef} {v : Invocation} {g : Gang} {mask : Nat} (h : issuing s ref = some (v, g, mask)) :
    ∃ r, gangAt s ref = some r ∧ r.fault = none ∧ tget s.compute.invs r.inv = some v ∧
      (if progressMode s v.program then chooseProgress r else chooseConverge r) = some (g, mask) := by
  unfold issuing at h
  split at h
  · cases h
  · split at h
    · cases h
    · next r hr =>
      split at h
      · cases h
      · next hf =>
        split at h
        · cases h
        · next w hw =>
          obtain ⟨⟨k, m⟩, hk, hm⟩ := Option.map_eq_some_iff.mp h
          cases hm
          exact ⟨r, hr, by simpa using hf, hw, hk⟩

theorem issuing_inv {s : State} {ref : GangRef} {v : Invocation} {g : Gang} {mask : Nat} (h : issuing s ref = some (v, g, mask)) :
    tget s.compute.invs g.inv = some v := by
  obtain ⟨r, -, -, hv, chosen⟩ := issuing_cases h
  split at chosen
  · rwa [chooseProgress_inv chosen]
  · rwa [chooseConverge_inv chosen]

/-! ## Put back, or stopped -/

/-- The frame of an issue that puts its gang back. -/
theorem gangPut_frame_counted {s u : State} (c : OnlyChanges [.counters, .sticky] s u) (ref : GangRef) (h : Gang)
    (hu : 24 ≤ ref.unit ∧ ref.unit ≤ 71) : GangFrame s (gangPut u ref h) ref := by
  have compute := compute_of_counted c
  refine ⟨(gangPut_onlyGang u ref h hu).of_cores (congrArg Compute.cores compute) rfl, ?_, c.comp (gangPut_only u ref h)⟩
  simp [OnlyCores, gangPut, coreMod, compute]

/-- What a gang that is stopped leaves, whatever was counted before. -/
theorem faultWith_leaves {s u : State} (c : OnlyChanges [.counters, .sticky] s u) (ref : GangRef) (g : Gang) (f : GangFault)
    (hu : 24 ≤ ref.unit ∧ ref.unit ≤ 71) : let t := faultWith u ref g f
    gangAt t ref = some { g with fault := some f, faultNo := s.compute.faultNo, faultChime := chimeNow s } ∧ OnlyGang s t ref ∧
    { t.compute with cores := s.compute.cores, faultNo := s.compute.faultNo } = s.compute ∧
    t.compute.faultNo = s.compute.faultNo + 1 ∧ OnlyChanges [.compute, .counters, .sticky] s t := by
  have compute := compute_of_counted c
  have bell : u.bell = s.bell := c .bell (by decide)
  refine ⟨?_, (gangPut_onlyGang _ ref _ hu).of_cores (congrArg Compute.cores compute) rfl, ?_, ?_, c.comp (faultWith_only u ref g f)⟩
  · rw [faultWith, gangAt_gangPut_same _ _ _ hu, compute, chimeNow, bell, chimeNow]
  · simp [faultWith, gangPut, coreMod, compute]
  · simp [faultWith, gangPut, coreMod, compute]

section
variable {s : State} {ref : GangRef} {v : Invocation} {g : Gang} {mask : Nat} (T : GangTurn s ref v g mask) {c : Instr} {ok : Bool}
  {act : State → Invocation → Gang → Nat → State} (run : exec c s = .next (gangStep s ref ok act)) (valid : ok = true)
include T run valid

/-- An instruction at its turn acts on the state in which its issue has been counted. -/
theorem GangTurn.acts : ∃ u, exec c s = .next (act u v g mask) ∧ OnlyChanges [.counters, .sticky] s u := by
  subst valid
  exact ⟨_, run.trans (congrArg _ (gangStep_turn T act)), count_only s _ 6 1⟩

theorem GangTurn.puts {h : Gang} (put : ∀ u, OnlyChanges [.counters, .sticky] s u → act u v g mask = gangPut u ref h) :
    GangPuts c s ref h := by
  obtain ⟨u, ran, counted⟩ := T.acts run valid
  rw [put u counted] at ran
  have hu := issuing_unit T.issues
  exact ⟨_, ran, gangAt_gangPut_same _ _ _ hu, gangPut_frame_counted counted ref h hu⟩

theorem GangTurn.faults {f : GangFault} (stop : ∀ u, OnlyChanges [.counters, .sticky] s u → act u v g mask = faultWith u ref g f) :
    GangFaults c s ref g f := by
  obtain ⟨u, ran, counted⟩ := T.acts run valid
  rw [stop u counted] at ran
  exact ⟨_, ran, faultWith_leaves counted ref g f (issuing_unit T.issues)⟩

end

/-! ## Lanes -/

theorem mem_lanesOf {mask i : Nat} : i ∈ lanesOf mask ↔ i < 32 ∧ bit mask i = true := by simp [lanesOf]

theorem lane_lt {mask i : Nat} (h : i ∈ lanesOf mask) : i < 32 := (mem_lanesOf.mp h).1

/-- A table after the keys of a list have been written. -/
theorem tget_foldl_put {α : Type} (f : Nat → α) (ls : List Nat) (t : Table α) (j : Nat) :
    tget (ls.foldl (fun t i => tput t i (f i)) t) j = if j ∈ ls then some (f j) else tget t j := by
  induction ls generalizing t with
  | nil => simp
  | cons i ls ih =>
    rw [List.foldl_cons, ih]
    by_cases hj : j = i
    · subst hj; simp
    · simp [hj, tget_tput_other]

theorem lanePc_jumpLanes (g : Gang) (ls : List Nat) (pc i : Nat) : lanePc (jumpLanes g ls pc) i = if i ∈ ls then pc else lanePc g i := by
  simp only [lanePc, jumpLanes, tgetD, tget_foldl_put (fun _ => pc)]
  split <;> rfl

theorem lanePc_advance (g : Gang) {ls : List Nat} (nodup : ls.Nodup) (i : Nat) :
    lanePc (advance g ls) i = if i ∈ ls then lanePc g i + 1 else lanePc g i := pcFold ls nodup g.pcs i

theorem advance_advanced (g : Gang) (mask : Nat) : Advanced g (advance g (lanesOf mask)) mask := lanePc_advance g (lanesOf_nodup mask)

end Sys2Proof.Machine
end

section
/-!
SUPPORT. Branches (R198, R199, R234), arrivals at a barrier (R202), and the exit of lanes (R228).
-/

namespace Sys2Proof.Machine

/-! ## Branches -/

theorem filter_not_taking (ls : List Nat) (p : Nat → Bool) :
    ls.filter (fun i => !(ls.filter p).contains i) = ls.filter (fun i => !p i) := by
  refine List.filter_congr (fun i hi => ?_)
  simp [List.contains_eq_mem, List.mem_filter, hi]

/-- A lane's history after a divergence of some lanes has been noted: it is at the head of theirs, and the others stand. -/
theorem noteSplit_splits (ls : List Nat) (x : Split) (g : Gang) (i : Nat) :
    (i ∈ ls → (tgetD (noteSplit g ls x).splits i []).head? = some x) ∧
    (i ∉ ls → tgetD (noteSplit g ls x).splits i [] = tgetD g.splits i []) := by
  have noted (h : List Split) : (if h.head? = some x then h else x :: h).head? = some x := by
    split
    · assumption
    · rfl
  suffices go : ∀ t : Table (List Split),
      let u := ls.foldl (fun t i => tmod t i [] (fun h => if h.head? = some x then h else x :: h)) t
      (i ∈ ls ∨ (tgetD t i []).head? = some x → (tgetD u i []).head? = some x) ∧ (i ∉ ls → tgetD u i [] = tgetD t i []) by
    obtain ⟨heads, stands⟩ := go g.splits
    exact ⟨fun h => heads (.inl h), stands⟩
  induction ls with
  | nil => exact fun t => ⟨fun h => h.resolve_left (by simp), fun _ => rfl⟩
  | cons k ls ih =>
    intro t
    obtain ⟨heads, stands⟩ := ih (tmod t k [] (fun h => if h.head? = some x then h else x :: h))
    refine ⟨fun h => heads ?_, fun h => ?_⟩
    · by_cases hk : i = k
      · subst hk
        exact .inr ((congrArg List.head? (tgetD_tput_same _ _ _ _)).trans (noted _))
      · refine h.imp (fun m => (List.mem_cons.mp m).resolve_left hk) (fun m => ?_)
        rwa [tmod, tgetD_tput_other _ _ _ _ _ hk]
    · obtain ⟨hk, hl⟩ := not_or.mp (fun m => h (List.mem_cons.mpr m))
      exact (stands hl).trans (tgetD_tput_other _ _ _ _ _ hk)

/-- The lanes of a mask that take a branch, and those that fall through. -/
abbrev takingOf (mask : Nat) (p : Nat → Bool) : List Nat := (lanesOf mask).filter p
abbrev fallingOf (mask : Nat) (p : Nat → Bool) : List Nat := (lanesOf mask).filter (fun i => !p i)

/-- The gang after a branch: the lanes that take it stand at the target, the others go on. -/
def branched (g : Gang) (mask target : Nat) (p : Nat → Bool) : Gang :=
  advance (jumpLanes g (takingOf mask p) target) (fallingOf mask p)

/-- The gang that goes on as two splinters (R199). -/
def splintered (g : Gang) (mask target point : Nat) (p : Nat → Bool) : Gang :=
  noteSplit (noteSplit (branched g mask target p) (takingOf mask p) ⟨point, lanePc g (lowLane mask), true⟩) (fallingOf mask p)
    ⟨point, lanePc g (lowLane mask), false⟩

/-- The gang whose fall-through lanes run while the others wait on the stack (R198). -/
def stacked (g : Gang) (mask target point : Nat) (p : Nat → Bool) : Gang :=
  { branched g mask target p with
    active := maskOf (fallingOf mask p), stack := ⟨point, maskOf (takingOf mask p), target, mask⟩ :: g.stack }

theorem lanePc_branched (g : Gang) (mask target : Nat) (p : Nat → Bool) (i : Nat) : lanePc (branched g mask target p) i =
    if i ∈ takingOf mask p then target else if i ∈ fallingOf mask p then lanePc g i + 1 else lanePc g i := by
  rw [branched, lanePc_advance _ ((lanesOf_nodup mask).filter _), lanePc_jumpLanes]
  cases h : p i <;> simp [h]

theorem splintered_heads (g : Gang) (mask target point : Nat) (p : Nat → Bool) : let h := splintered g mask target point p
    (∀ i ∈ takingOf mask p, (tgetD h.splits i []).head? = some ⟨point, lanePc g (lowLane mask), true⟩) ∧
    ∀ i ∈ fallingOf mask p, (tgetD h.splits i []).head? = some ⟨point, lanePc g (lowLane mask), false⟩ := by
  refine ⟨fun i hi => ?_, fun i hi => (noteSplit_splits _ _ _ i).1 hi⟩
  have other : i ∉ fallingOf mask p := by simp [(List.mem_filter.mp hi).2]
  rw [splintered, (noteSplit_splits _ _ _ i).2 other]
  exact (noteSplit_splits _ _ _ i).1 hi

theorem branchLanes_eq (s : State) (ref : GangRef) (v : Invocation) (g : Gang) (mask target point : Nat) (p : Nat → Bool) :
    branchLanes s ref v g mask target point (takingOf mask p) =
      if takingOf mask p = [] ∨ fallingOf mask p = [] then gangPut s ref (branched g mask target p)
      else if progressMode s v.program then gangPut s ref (splintered g mask target point p)
      else if 32 ≤ g.stack.length then faultWith s ref g ⟨0x04, mask, 0, 0⟩
      else gangPut s ref (stacked g mask target point p) := by
  rw [branchLanes, filter_not_taking]
  simp only [Bool.or_eq_true, decide_eq_true_eq]
  rfl

section
variable {s : State} {ref : GangRef} {v : Invocation} {g : Gang} {mask : Nat} (T : GangTurn s ref v g mask) {c : Instr} {ok : Bool}
  {act : State → Invocation → Gang → Nat → State} (run : exec c s = .next (gangStep s ref ok act)) (valid : ok = true)
  {target point : Nat} {p : Nat → Bool}
  (branches : ∀ u, OnlyChanges [.counters, .sticky] s u → act u v g mask = branchLanes u ref v g mask target point (takingOf mask p))
include T run valid branches

/-- Lanes that agree, or that diverge with room on the stack, go their ways. -/
theorem GangTurn.branch_puts : let parts := takingOf mask p ≠ [] ∧ fallingOf mask p ≠ []
    let split := progressMode s v.program = false ∧ parts
    ¬(split ∧ 32 ≤ g.stack.length) → ∃ h, GangPuts c s ref h ∧
      (∀ i, lanePc h i = if i ∈ takingOf mask p then target else if i ∈ fallingOf mask p then lanePc g i + 1 else lanePc g i) ∧
      (¬parts → { h with pcs := g.pcs } = g) ∧
      (parts → progressMode s v.program = true → { h with pcs := g.pcs, splits := g.splits } = g ∧
        (∀ i ∈ takingOf mask p, (tgetD h.splits i []).head? = some ⟨point, lanePc g (lowLane mask), true⟩) ∧
        ∀ i ∈ fallingOf mask p, (tgetD h.splits i []).head? = some ⟨point, lanePc g (lowLane mask), false⟩) ∧
      (split → h.active = maskOf (fallingOf mask p) ∧ h.stack = ⟨point, maskOf (takingOf mask p), target, mask⟩ :: g.stack ∧
        { h with pcs := g.pcs, active := g.active, stack := g.stack } = g) := by
  intro parts split room
  have pcs := lanePc_branched g mask target p
  have step (u : State) (counted : OnlyChanges [.counters, .sticky] s u) :=
    (branches u counted).trans (branchLanes_eq u ref v g mask target point p)
  have mode_eq (u : State) (counted : OnlyChanges [.counters, .sticky] s u) : progressMode u v.program = progressMode s v.program :=
    progressMode_congr (congrArg Compute.programs (compute_of_counted counted)) _
  by_cases agree : parts
  · have differ : ¬(takingOf mask p = [] ∨ fallingOf mask p = []) := not_or.mpr agree
    cases mode : progressMode s v.program with
    | true =>
      exact ⟨splintered g mask target point p,
        T.puts run valid (fun u counted => by rw [step u counted, if_neg differ, mode_eq u counted, if_pos mode]), pcs,
        fun h => absurd agree h, fun _ _ => ⟨rfl, splintered_heads g mask target point p⟩, fun h => absurd h.1 (by simp [mode])⟩
    | false =>
      have hs : ¬32 ≤ g.stack.length := fun h => room ⟨⟨mode, agree⟩, h⟩
      exact ⟨stacked g mask target point p,
        T.puts run valid (fun u counted => by
          rw [step u counted, if_neg differ, mode_eq u counted, if_neg (by simp [mode]), if_neg hs]), pcs,
        fun h => absurd agree h, nofun, fun _ => ⟨rfl, rfl, rfl⟩⟩
  · have one : takingOf mask p = [] ∨ fallingOf mask p = [] := by simpa only [parts, ne_eq, not_and_or, not_not] using agree
    exact ⟨branched g mask target p, T.puts run valid (fun u counted => by rw [step u counted, if_pos one]), pcs, fun _ => rfl,
      fun h => absurd h agree, fun h => absurd h.2 agree⟩

/-- A divergence beyond the 32 entries of the stack stops the gang. -/
theorem GangTurn.branch_faults (mode : progressMode s v.program = false) (parts : takingOf mask p ≠ [] ∧ fallingOf mask p ≠ [])
    (full : 32 ≤ g.stack.length) : GangFaults c s ref g ⟨0x04, mask, 0, 0⟩ :=
  T.faults run valid (fun u counted => by
    rw [branches u counted, branchLanes_eq, if_neg (not_or.mpr parts),
      progressMode_congr (congrArg Compute.programs (compute_of_counted counted)), if_neg (by simp [mode]), if_pos full])

end

/-! ## A slot and its invocation together -/

/-- A change of one slot's gang in the table of its core changes that slot alone. -/
theorem coreMod_slot (s : State) (ref : GangRef) (f : Table Gang → Table Gang) (hu : 24 ≤ ref.unit ∧ ref.unit ≤ 71)
    (others : ∀ t k, k ≠ ref.slot → tget (f t) k = tget t k) :
    let t := coreMod s ref.unit (fun c => { c with gangs := f c.gangs })
    gangAt t ref = tget (f (coreOf s ref.unit).gangs) ref.slot ∧ OnlyGang s t ref := by
  intro t
  have same (n : Nat) (h : n - 24 = ref.unit - 24) : coreOf t n = { coreOf s ref.unit with gangs := f (coreOf s ref.unit).gangs } := by
    rw [coreOf, h]
    exact tgetD_tput_same _ _ _ _
  have other (n : Nat) (h : n - 24 ≠ ref.unit - 24) : coreOf t n = coreOf s n := tgetD_tput_other _ _ _ _ _ h
  refine ⟨by rw [gangAt, if_pos hu, same _ rfl], fun r hr => ?_, fun n => ?_⟩
  · by_cases hn : 24 ≤ r.unit ∧ r.unit ≤ 71
    · rw [gangAt, gangAt, if_pos hn, if_pos hn]
      by_cases h : r.unit = ref.unit
      · rw [same _ (by rw [h]), h]
        exact others _ _ (fun e => hr (by cases r; cases ref; simp_all))
      · rw [other _ (by omega)]
    · rw [gangAt, gangAt, if_neg hn, if_neg hn]
  · by_cases h : n - 24 = ref.unit - 24
    · rw [same n h, coreOf, coreOf, h]
      exact ⟨rfl, rfl⟩
    · rw [other n h]
      exact ⟨rfl, rfl⟩

/-- What a change of one slot and of one invocation leaves, whatever was counted or drawn before. -/
theorem invMod_slot {ps : List Part} {s u t : State} (c : OnlyChanges ps s u) {ref : GangRef} {inv : Nat} {v : Invocation}
    (hv : tget s.compute.invs inv = some v) (o : OnlyGang u t ref) (only : OnlyChanges [.compute] u t)
    (invs : t.compute.invs = u.compute.invs) (f : Invocation → Invocation) (hp : .compute ∉ ps := by decide) :
    gangAt (invMod t inv f) ref = gangAt t ref ∧ tget (invMod t inv f).compute.invs inv = some (f v) ∧
      OnlyGang s (invMod t inv f) ref ∧ OnlyChanges (.compute :: ps) s (invMod t inv f) := by
  have compute : u.compute = s.compute := c .compute hp
  have self : [Part.compute] ⊆ .compute :: ps := List.cons_subset_cons _ (List.nil_subset ps)
  exact ⟨gangAt_congr (t := invMod t inv f) rfl ref, tget_invMod (by rw [invs, compute, hv]) f,
    o.of_cores (v := invMod t inv f) (congrArg Compute.cores compute) rfl,
    (c.comp only (List.subset_cons_self ..) self).trans ((invMod_only t inv f).mono self)⟩

/-- Where no barrier is complete, none is released. -/
theorem checkBarriers_none {s : State} {inv : Nat} {v : Invocation} (hv : tget s.compute.invs inv = some v)
    (incomplete : ∀ b ∈ v.barriers, barrierComplete s v inv b = false) : checkBarriers s inv = s := by
  have none_ : v.barriers.filter (barrierComplete s v inv) = [] := List.filter_eq_nil_iff.mpr (fun b hb => by simp [incomplete b hb])
  simp only [checkBarriers, hv, none_, List.foldl_nil]

/-! ## Barriers -/

/-- The gang whose lanes wait at a barrier (R202). -/
def barredGang (g : Gang) (lanes : List Nat) (scope ident : Nat) : Gang :=
  progressed { g with blocked := lanes.foldl (fun t i => tput t i ⟨1, 0, scope, ident, 0⟩) g.blocked }

/-- The barriers of an invocation after arrivals: they join the barrier that they belong to, or are the first at it, `new`. -/
def joinBarriers (same : Barrier → Bool) (new : Barrier) (bs : List Barrier) : List Barrier :=
  if bs.any same then bs.map (fun b => if same b then { b with arrived := b.arrived ++ new.arrived } else b) else bs ++ [new]

/-- Some barrier among them holds what has arrived. -/
theorem joinBarriers_holds {same : Barrier → Bool} {new : Barrier} (self : same new = true) (bs : List Barrier)
    (keeps : ∀ b more, same b = true → same { b with arrived := more } = true) :
    ∃ b ∈ joinBarriers same new bs, same b = true ∧ ∀ x ∈ new.arrived, x ∈ b.arrived := by
  unfold joinBarriers
  split
  · next any =>
    obtain ⟨b, hb, hs⟩ := List.any_eq_true.mp any
    exact ⟨_, List.mem_map.mpr ⟨b, hb, if_pos hs⟩, keeps b _ hs, fun x hx => List.mem_append_right _ hx⟩
  · exact ⟨new, by simp, self, fun x hx => hx⟩

/-- The barrier that arrivals found where none stands. -/
def firstArrival (s : State) (ref : GangRef) (g : Gang) (lanes : List Nat) (scope ident : Nat) : Barrier :=
  ⟨scope, ident, if scope = 1 then ref.unit else 0, if scope = 0 then g.index else 0, barrierMembers s scope ref.unit g,
    lanes.map (fun i => (g.index, i)), s.bell.ticks⟩

/-- The arrival of lanes, before the barriers are looked at. -/
def barred (s : State) (ref : GangRef) (g : Gang) (lanes : List Nat) (scope ident : Nat) : State :=
  invMod (gangPut s ref (barredGang g lanes scope ident)) g.inv (fun v => { v with
    barriers := joinBarriers (sameBarrier scope ident ref.unit g.index) (firstArrival s ref g lanes scope ident) v.barriers })

theorem arriveBarrier_eq (s : State) (ref : GangRef) (g : Gang) (lanes : List Nat) (scope ident : Nat) :
    arriveBarrier s ref g lanes scope ident = checkBarriers (barred s ref g lanes scope ident) g.inv := rfl

theorem firstArrival_same (s : State) (ref : GangRef) (g : Gang) (lanes : List Nat) (scope ident : Nat) :
    sameBarrier scope ident ref.unit g.index (firstArrival s ref g lanes scope ident) = true := by
  by_cases h0 : scope = 0 <;> by_cases h1 : scope = 1 <;> simp [sameBarrier, firstArrival, h0, h1]

theorem sameBarrier_scope {scope ident unit index : Nat} {b : Barrier} (h : sameBarrier scope ident unit index b = true) :
    b.scope = scope ∧ b.ident = ident := by
  simp only [sameBarrier, Bool.and_eq_true, decide_eq_true_eq] at h
  obtain ⟨⟨both, -⟩, -⟩ := h
  exact both

/-! ## The exit of lanes -/

/-- The gang without the lanes that exit. -/
def exitedGang (g : Gang) (mask : Nat) : Gang := progressed { g with live := maskSub g.live mask }

/-- The slot of a gang whose lanes exit: free after the last one (R191). -/
def exitSlot (s : State) (ref : GangRef) (g : Gang) (mask : Nat) : State :=
  if maskSub g.live mask = 0 then coreMod s ref.unit (fun c => { c with gangs := tdel c.gangs ref.slot })
  else gangPut s ref (exitedGang g mask)

/-- The invocation with the values of the lanes that exit (R228). -/
def exitedInv (s : State) (g : Gang) (mask : Nat) (value : Nat → Nat) (v : Invocation) : Invocation :=
  { v with
    exitOr := (lanesOf mask).foldl (fun a i => Nat.lor a (value i)) v.exitOr
    exitCount := v.exitCount + ((lanesOf mask).filter (fun i => value i ≠ 0)).length
    gangsDone := if maskSub g.live mask = 0 then v.gangsDone + 1 else v.gangsDone
    exited := if maskSub g.live mask = 0 && decide (v.gangs ≤ v.gangsDone + 1) then some (s.bell.count, s.bell.ticks) else v.exited }

theorem exitSlot_only (s : State) (ref : GangRef) (g : Gang) (mask : Nat) : OnlyChanges [.compute] s (exitSlot s ref g mask) := by
  unfold exitSlot
  split
  · exact only_compute s _
  · exact gangPut_only s ref _

theorem exitLanes_eq (s : State) (ref : GangRef) (g : Gang) (mask : Nat) (value : Nat → Nat) :
    exitLanes s ref g mask value = checkBarriers (invMod (exitSlot s ref g mask) g.inv (exitedInv s g mask value)) g.inv := by
  have bell : (exitSlot s ref g mask).bell = s.bell := exitSlot_only s ref g mask .bell (by decide)
  rw [show exitedInv s g mask value = exitedInv (exitSlot s ref g mask) g mask value by unfold exitedInv; rw [bell]]
  rfl

theorem exitSlot_leaves (s : State) (ref : GangRef) (g : Gang) (mask : Nat) (hu : 24 ≤ ref.unit ∧ ref.unit ≤ 71) :
    gangAt (exitSlot s ref g mask) ref = (if maskSub g.live mask = 0 then none else some (exitedGang g mask)) ∧
      OnlyGang s (exitSlot s ref g mask) ref ∧ (exitSlot s ref g mask).compute.invs = s.compute.invs := by
  unfold exitSlot
  split
  · obtain ⟨gone, only⟩ := coreMod_slot s ref (fun t => tdel t ref.slot) hu (fun t k hk => by rw [tget_tdel, if_neg hk])
    exact ⟨gone.trans (by rw [tget_tdel, if_pos rfl]), only, rfl⟩
  · exact ⟨gangAt_gangPut_same _ _ _ hu, gangPut_onlyGang s ref _ hu, rfl⟩

end Sys2Proof.Machine
end

section
/-!
SUPPORT. The control operations of gang code at their turn, and the values of SREG, SHFL and VOTE (Table 9.12).
-/

namespace Sys2Proof.Machine

section
variable {s : State} {ref : GangRef} {v : Invocation} {g : Gang} {mask : Nat} (T : GangTurn s ref v g mask)
include T

/-- An instruction whose only effect is that its lanes go on. -/
theorem GangTurn.goesOn {c : Instr} {ok : Bool} (run : exec c s = .next (gangStep s ref ok (fun s _ h mask =>
    gangPut s ref (advance h (lanesOf mask))))) (valid : ok = true) :
    ∃ h, GangPuts c s ref h ∧ Advanced g h mask ∧ { h with pcs := g.pcs } = g :=
  ⟨_, T.puts run valid (fun _ _ => rfl), advance_advanced g mask, rfl⟩

theorem GangTurn.writes {c : Instr} {ok : Bool} {rd : Nat} {f : Invocation → Gang → Nat → Nat → Word}
    (run : exec c s = .next (gangWrite s ref ok rd f)) (valid : ok = true) (hrd : rd < 256) :
    GangWrites c s ref g mask rd (f v g mask) := by
  subst valid
  exact gangWrites_of T hrd run

theorem GangTurn.bra {target : Nat} (inside : target < instrCount s v.program) :
    ∃ h, GangPuts (.bra ref target) s ref h ∧ { h with pcs := g.pcs } = g ∧
      ∀ i, lanePc h i = if i ∈ lanesOf mask then target else lanePc g i := by
  have all : takingOf mask (fun _ => true) = lanesOf mask := List.filter_true _
  have none_ : fallingOf mask (fun _ => true) = [] := List.filter_false _
  refine ⟨branched g mask target (fun _ => true), T.puts (ok := true) rfl rfl (fun u counted => ?_), rfl, fun i => ?_⟩
  · rw [if_neg (by rw [instrCount_congr (congrArg Compute.programs (compute_of_counted counted))]; omega), ← all, branchLanes_eq,
      if_pos (.inr none_)]
  · rw [lanePc_branched, all, none_]
    simp

/-- A barrier of GANG scope that not all live lanes of a CONVERGE gang reach together faults; otherwise the lanes arrive (R202). -/
theorem GangTurn.bar {scope ident : Nat} (hs : scope ≤ 2) (hi : ident < 16) :
    let apart := scope = 0 ∧ progressMode s v.program = false ∧ mask ≠ g.live
    (apart → GangFaults (.bar ref scope ident) s ref g ⟨0x03, mask, 0, ident⟩) ∧
    (¬apart → ∃ u, OnlyChanges [.counters, .sticky] s u ∧
      exec (.bar ref scope ident) s = .next (checkBarriers (barred u ref g (lanesOf mask) scope ident) g.inv)) := by
  intro apart
  have valid : (decide (scope ≤ 2) && decide (ident < 16)) = true := by simp [hs, hi]
  have mode (u : State) (counted : OnlyChanges [.counters, .sticky] s u) : progressMode u v.program = progressMode s v.program :=
    progressMode_congr (congrArg Compute.programs (compute_of_counted counted)) _
  refine ⟨fun h => T.faults rfl valid (fun u counted => ?_), fun h => ?_⟩
  · rw [mode u counted, if_pos h]
    rfl
  · obtain ⟨u, ran, counted⟩ := T.acts (c := .bar ref scope ident) rfl valid
    rw [mode u counted, if_neg h] at ran
    exact ⟨u, counted, ran⟩

/-- What stands once the lanes have arrived at their barrier. -/
theorem GangTurn.barred_leaves {u : State} (counted : OnlyChanges [.counters, .sticky] s u) (scope ident : Nat) :
    let t := barred u ref g (lanesOf mask) scope ident
    gangAt t ref = some (barredGang g (lanesOf mask) scope ident) ∧
      (∃ w b, tget t.compute.invs g.inv = some w ∧ b ∈ w.barriers ∧ b.scope = scope ∧ b.ident = ident ∧
        ∀ i ∈ lanesOf mask, (g.index, i) ∈ b.arrived) ∧ OnlyGang s t ref ∧ OnlyChanges [.compute, .counters, .sticky] s t := by
  have hu := issuing_unit T.issues
  obtain ⟨gang, inv, only, parts⟩ := invMod_slot counted (issuing_inv T.issues)
    (gangPut_onlyGang u ref (barredGang g (lanesOf mask) scope ident) hu) (gangPut_only _ _ _) rfl (fun v => { v with
      barriers := joinBarriers (sameBarrier scope ident ref.unit g.index) (firstArrival u ref g (lanesOf mask) scope ident) v.barriers })
  obtain ⟨b, hb, same, holds⟩ := joinBarriers_holds (firstArrival_same u ref g (lanesOf mask) scope ident) v.barriers (fun _ _ h => h)
  obtain ⟨bscope, bident⟩ := sameBarrier_scope same
  exact ⟨gang.trans (gangAt_gangPut_same _ _ _ hu),
    ⟨_, b, inv, hb, bscope, bident, fun i hi => holds _ (List.mem_map.mpr ⟨i, hi, rfl⟩)⟩, only, parts⟩

theorem GangTurn.exit {ra : Nat} (hra : ra < 256) : ∃ u, OnlyChanges [.counters, .sticky] s u ∧ exec (.exitOp ref ra) s =
    .next (checkBarriers (invMod (exitSlot u ref g mask) g.inv (exitedInv s g mask (fun i => (regAt g i ra).toNat))) g.inv) := by
  obtain ⟨u, ran, counted⟩ := T.acts (c := .exitOp ref ra) (ok := decide (ra < 256)) rfl (by simp [hra])
  have bell : u.bell = s.bell := counted .bell (by decide)
  refine ⟨u, counted, ran.trans (congrArg _ ((exitLanes_eq ..).trans ?_))⟩
  unfold exitedInv
  rw [bell]

end

/-! ## SREG, SHFL and VOTE -/

theorem specialValue_eq (s : State) (ref : GangRef) (v : Invocation) (g : Gang) (mask i : Nat) {sel : Nat} (h : sel ≤ 9) :
    specialValue s ref v g mask i sel = BitVec.ofNat 32 ([i, g.index, v.gangs, ref.unit, s.bell.count, s.bell.count / 2 ^ 32, mask,
      g.live, v.windowSize, partBytes s ref.unit v.program].getD sel 0) := by
  interval_cases sel <;> rfl

theorem shuffleFrom_eq {mode : Nat} (h : mode < 4) (i : Nat) (b : Word) : shuffleFrom mode i b =
    ([(b.toNat : Int), (i : Int) - b.toNat, (i : Int) + b.toNat, (Nat.xor i b.toNat : Nat)].getD mode 0 : Int) := by
  interval_cases mode <;> rfl

theorem voteVal_eq {mode : Nat} (h : mode < 3) (mask : Nat) (set : Nat → Bool) : BitVec.ofNat 32 (voteVal mode mask set) =
    [if (lanesOf mask).all set then (1 : Word) else 0, if (lanesOf mask).any set then 1 else 0,
      BitVec.ofNat 32 (maskOf ((lanesOf mask).filter set))].getD mode 0 := by
  interval_cases mode
  · exact apply_ite (BitVec.ofNat 32) _ 1 0
  · exact apply_ite (BitVec.ofNat 32) _ 1 0
  · rfl

theorem sourceLane_iff (mask : Nat) (src : Int) :
    (0 ≤ src ∧ src < 32 ∧ bit mask src.toNat = true) ↔ (0 ≤ src ∧ src < 32 ∧ src.toNat ∈ lanesOf mask) := by
  refine ⟨fun ⟨low, high, h⟩ => ⟨low, high, mem_lanesOf.mpr ⟨by omega, h⟩⟩, fun ⟨low, high, h⟩ => ⟨low, high, (mem_lanesOf.mp h).2⟩⟩

end Sys2Proof.Machine
end

open Sys2Proof Sys2Proof.Machine in
/-- Settles O44: each operation puts its gang back, stops it, or goes on to the barriers that its lanes change. -/
theorem gangControlFlow : Obligations.GangControlFlow := by
  unfold Obligations.GangControlFlow
  refine ⟨fun s ref v g mask T => ⟨fun target inside => T.bra inside, fun ra target point hra ht hp => ?branch, ?onward, ?pulse,
    fun scope ident hs hi => ?barrier, fun ra hra => ?exit_, fun imm hi => ?trap, fun rd imm hrd hi => ?special, fun r ok => ?lanes⟩,
    fun s ref v g mask issues past => ?ill⟩
  case branch =>
    have inside (u : State) (counted : OnlyChanges [.counters, .sticky] s u) : ¬instrCount u v.program ≤ max target point := by
      rw [instrCount_congr (congrArg Compute.programs (compute_of_counted counted))]
      omega
    have valid : decide (ra < 256) = true := by simp [hra]
    simp only [List.forall_mem_cons]
    refine ⟨⟨?_, ?_⟩, ⟨?_, ?_⟩, nofun⟩
    · exact T.branch_puts rfl valid (p := fun i => decide (regAt g i ra = 0)) (fun u counted => if_neg (inside u counted))
    · rintro ⟨mode, parts⟩ full
      exact T.branch_faults rfl valid (p := fun i => decide (regAt g i ra = 0)) (fun u counted => if_neg (inside u counted)) mode parts full
    · exact T.branch_puts rfl valid (p := fun i => decide (regAt g i ra ≠ 0)) (fun u counted => if_neg (inside u counted))
    · rintro ⟨mode, parts⟩ full
      exact T.branch_faults rfl valid (p := fun i => decide (regAt g i ra ≠ 0)) (fun u counted => if_neg (inside u counted)) mode parts full
  case onward =>
    simp only [List.forall_mem_cons]
    exact ⟨T.goesOn (ok := true) rfl rfl, T.goesOn (ok := true) rfl rfl, T.goesOn (c := .fence ref 1) rfl rfl,
      T.goesOn (c := .fence ref 2) rfl rfl, nofun⟩
  case pulse =>
    exact ⟨progressed (advance g (lanesOf mask)), T.puts (ok := true) rfl rfl (fun _ _ => rfl), advance_advanced g mask, rfl⟩
  case barrier =>
    obtain ⟨apart, together⟩ := T.bar hs hi
    refine ⟨apart, fun h => ?_⟩
    obtain ⟨u, counted, ran⟩ := together h
    obtain ⟨gang, ⟨w, b, hw, hb, bscope, bident, arrived⟩, only, parts⟩ := T.barred_leaves counted scope ident
    exact ⟨_, _, w, b, ran, gang, rfl, rfl, rfl, rfl, fun i hm => (tget_foldl_put _ _ _ i).trans (if_pos hm),
      fun i hm => (tget_foldl_put _ _ _ i).trans (if_neg hm), hw, hb, bscope, bident, arrived, only, parts, checkBarriers_none hw⟩
  case exit_ =>
    have hu := issuing_unit T.issues
    obtain ⟨u, counted, ran⟩ := T.exit hra
    obtain ⟨slot, slotOnly, slotInvs⟩ := exitSlot_leaves u ref g mask hu
    obtain ⟨gang, inv, only, parts⟩ := invMod_slot counted (issuing_inv T.issues) slotOnly (exitSlot_only u ref g mask) slotInvs
      (exitedInv s g mask (fun i => (regAt g i ra).toNat))
    refine ⟨_, _, ran, gang.trans slot, inv, rfl, rfl, rfl, rfl, ?_, only, parts, fun none_ => checkBarriers_none inv ?_⟩
    · simp only [exitedInv, Bool.and_eq_true, decide_eq_true_eq]
    · simp [exitedInv, none_]
  case trap => exact T.faults (ok := decide (imm < 65536)) rfl (by simp [hi]) (fun _ _ => rfl)
  case special =>
    have valid : (decide (rd < 256) && decide (imm ≤ 9)) = true := by simp [hrd, hi]
    simpa only [specialValue_eq _ _ _ _ _ _ hi] using T.writes (c := .sreg ref rd imm) rfl valid hrd
  case lanes =>
    refine ⟨?_, fun defined => ?_⟩
    · simpa only [sourceLane_iff, shuffleFrom_eq (Nat.mod_lt r.modifier (by decide : 4 > 0))] using
        T.writes (c := .shfl ref r) rfl ok (rOk_rd ok)
    · have valid : (rOk r 3 && decide (r.modifier % 4 < 3)) = true := by simp [ok, defined]
      simpa only [voteVal_eq defined] using T.writes (c := .vote ref r) rfl valid (rOk_rd ok)
  case ill =>
    have stops {c : Instr} {act : State → Invocation → Gang → Nat → State} (run : exec c s = .next (gangStep s ref true act)) :
        GangFaults c s ref g ⟨0x0B, mask, 0, 0⟩ := by
      refine ⟨_, run.trans (congrArg _ ?_), faultWith_leaves (.refl _ s) ref g _ (issuing_unit issues)⟩
      simp only [gangStep, issues, if_pos past]
      rfl
    simp only [List.forall_mem_cons]
    exact ⟨stops rfl, stops rfl, stops rfl, stops rfl, stops (c := .movi ref 0 0) rfl, nofun⟩

section
/-!
SUPPORT. An issue has at least one lane (R198, R199), and what TICKET, WAIT and POLL read and leave (R205, R206, R214, R215).
-/

namespace Sys2Proof.Machine

/-! ## Some lane issues -/

theorem bit_setBit_self (n i : Nat) : bit (setBit n i) i = true := by
  unfold setBit
  split
  · assumption
  · next h => rw [bit_eq_testBit] at h ⊢; rw [Nat.add_comm, Nat.testBit_two_pow_add_eq]; simpa using h

theorem lanesOf_maskOf_ne {ls : List Nat} (some_ : ls ≠ []) (small : ∀ i ∈ ls, i < 32) : lanesOf (maskOf ls) ≠ [] := by
  obtain ⟨init, last, rfl⟩ := (List.eq_nil_or_concat' ls).resolve_left some_
  have lane : last ∈ lanesOf (maskOf (init ++ [last])) := by
    refine mem_lanesOf.mpr ⟨small last (by simp), ?_⟩
    rw [maskOf, List.foldl_append]
    exact bit_setBit_self _ last
  exact List.ne_nil_of_mem lane

theorem chooseConverge_lanes {g h : Gang} {mask : Nat} (c : chooseConverge g = some (h, mask)) : lanesOf mask ≠ [] := by
  simp only [chooseConverge] at c
  split at c
  · cases c
  · split at c
    · cases c
    · next live =>
      cases c
      refine lanesOf_maskOf_ne (fun none_ => live ?_) (fun i hi => lane_lt (List.mem_filter.mp hi).1)
      rw [maskAnd, none_]
      rfl

theorem splinters_ready {g : Gang} {i : Nat} (h : i ∈ splinters g) : i ∈ readyLanes g := (List.mem_filter.mp h).1

/-- The splinter whose turn comes next is one of ready lanes (R199). -/
theorem nextSplinter_ready {g : Gang} {i : Nat} (h : nextSplinter g = some i) : i ∈ readyLanes g := by
  simp only [nextSplinter] at h
  split at h
  · cases h
  · next j hj =>
    split at h
    · cases h
      have mem := List.mem_of_head? hj
      rcases List.mem_append.mp mem with mem | mem
      · rcases List.mem_append.mp mem with mem | mem
        · exact splinters_ready (List.mem_filter.mp (mem_of_mem_sortBy (List.mem_filter.mp mem).1)).1
        · exact splinters_ready (List.mem_filter.mp (mem_of_mem_sortBy (List.mem_filter.mp mem).1)).1
      · exact splinters_ready (List.mem_filter.mp mem).1
    · exact splinters_ready (mem_of_mem_sortBy (List.mem_of_head? h))

theorem chooseProgress_lanes {g h : Gang} {mask : Nat} (c : chooseProgress g = some (h, mask)) : lanesOf mask ≠ [] := by
  simp only [chooseProgress] at c
  split at c
  · cases c
  · next i hi =>
    cases c
    have ready : i ∈ readyLanes g := by
      split at hi
      · next stay =>
        cases hi
        simp only [Bool.and_eq_true] at stay
        exact List.contains_iff_mem.mp stay.1
      · exact nextSplinter_ready hi
    have self : i ∈ (readyLanes g).filter (sameSplinter g i) := List.mem_filter.mpr ⟨ready, by simp [sameSplinter]⟩
    exact lanesOf_maskOf_ne (List.ne_nil_of_mem self) (fun k hk => lane_lt (List.mem_filter.mp (List.mem_filter.mp hk).1).1)

theorem GangTurn.lanes_ne {s : State} {ref : GangRef} {v : Invocation} {g : Gang} {mask : Nat} (T : GangTurn s ref v g mask) :
    lanesOf mask ≠ [] := by
  obtain ⟨r, -, -, -, chosen⟩ := issuing_cases T.issues
  split at chosen
  · exact chooseProgress_lanes chosen
  · exact chooseConverge_lanes chosen

/-! ## TICKET -/

theorem stepCap_congr {s t : State} (ho : t.od = s.od) (hi : t.ident = s.ident) : stepCap t = stepCap s := by
  simp only [stepCap, chimeCycles, chimeNs, periodNs, clockMHz, odVal_congr ho hi, hi]

theorem rangesOf_congr {s t : State} (h : t.compute.rangeSets = s.compute.rangeSets) (v : Invocation) :
    rangesOf t v = rangesOf s v := by
  simp only [rangesOf, h]

theorem sliceBytes_congr {s t : State} (hp : t.compute.programs = s.compute.programs) (hs : t.streams = s.streams) (inv : Nat)
    (v : Invocation) : sliceBytes t inv v = sliceBytes s inv v := by
  simp only [sliceBytes, programOf_congr hp, hs]

theorem outputInside_congr {s t : State} (hc : t.compute = s.compute) (ho : t.od = s.od) (hi : t.ident = s.ident)
    (hs : t.streams = s.streams) (inv : Nat) (v : Invocation) (b : Bytes) (arg : Nat) :
    outputInside t inv v b arg = outputInside s inv v b arg := by
  unfold outputInside
  rw [rangesOf_congr (congrArg Compute.rangeSets hc), sliceBytes_congr (congrArg Compute.programs hc) hs,
    show odVal t = odVal s from funext₂ (odVal_congr ho hi)]

theorem ticketFault_congr {s t : State} (hc : t.compute = s.compute) (ho : t.od = s.od) (hi : t.ident = s.ident)
    (hs : t.streams = s.streams) (g : Gang) (v : Invocation) (lane plan place : Nat) :
    ticketFault t g v lane plan place = ticketFault s g v lane plan place := by
  unfold ticketFault
  rw [programOf_congr (congrArg Compute.programs hc), stepCap_congr ho hi, hs]
  simp only [outputInside_congr hc ho hi hs]

/-- The gang whose lane has taken the ticket `n` (R205). -/
def ticketedGang (g : Gang) (lane rd n : Nat) : Gang :=
  progressed (advance (regPutNat { g with outstanding := g.outstanding ++ [n], blocked := tdel g.blocked lane } lane rd n) [lane])

section
variable {s : State} {ref : GangRef} {v : Invocation} {g : Gang} {mask : Nat} (T : GangTurn s ref v g mask) {rd ra rb : Nat}
  (hd : rd < 256) (ha : ra < 256) (hb : rb < 256)
include T hd ha hb

/-- TICKET of other than one lane faults; of one it is refused, waits for a slot, or is taken. -/
theorem GangTurn.ticket : ∃ u, OnlyChanges [.counters, .sticky] s u ∧ exec (.ticket ref rd ra rb) s = .next (
    match lanesOf mask with
    | [lane] =>
      let plan := (regAt g lane ra).toNat
      let place := (regAt g lane rb).toNat
      match ticketFault s g v lane plan place with
      | some f => faultWith u ref g f
      | none =>
        if 4 ≤ g.outstanding.length then gangPut u ref { g with blocked := tput g.blocked lane ⟨4, rd, ra, rb, 0⟩ }
        else takeTicket u ref g v lane rd plan place
    | lanes => faultWith u ref g ⟨0x08, mask, 0, lanes.length⟩) := by
  obtain ⟨u, ran, counted⟩ := T.acts (c := .ticket ref rd ra rb)
    (ok := decide (rd < 256) && decide (ra < 256) && decide (rb < 256)) rfl (by simp [hd, ha, hb])
  refine ⟨u, counted, ran.trans (congrArg _ ?_)⟩
  simp only [ticketFault_congr (compute_of_counted counted) (counted .od (by decide)) (counted .ident (by decide))
    (counted .streams (by decide))]
  rfl

end

theorem nextTicketNo_eq (n : Nat) : nextTicketNo n = if n < 65535 then n + 1 else 1 := by
  unfold nextTicketNo
  split <;> split <;> omega

/-- The invocation that has issued the ticket `n`. -/
def ticketedInv (g : Gang) (ref : GangRef) (v : Invocation) (n plan place : Nat) (w : Invocation) : Invocation :=
  { w with
    nextTicket := nextTicketNo n
    tickets := w.tickets ++ [⟨n, ref.unit, g.index, plan, leNat (mread v.window place 32), 0⟩] }

theorem takeTicket_eq (s : State) (ref : GangRef) (g : Gang) (v : Invocation) (lane rd plan place : Nat) :
    takeTicket s ref g v lane rd plan place =
      (let n := if v.nextTicket = 0 then 1 else v.nextTicket
       count (invMod (gangPut s ref (ticketedGang g lane rd n)) g.inv (ticketedInv g ref v n plan place)) (0x6100 + ref.unit) 5 1) := rfl

theorem regAt_ticketedGang (g : Gang) (lane rd n : Nat) (hd : rd < 256) {i q : Nat} (hq : q < 256) :
    regAt (ticketedGang g lane rd n) i q = if i = lane ∧ q = rd then BitVec.ofNat 32 n else regAt g i q :=
  regAt_regPut { g with outstanding := g.outstanding ++ [n], blocked := tdel g.blocked lane } _ hq hd

theorem ticketedGang_advanced (g : Gang) {mask lane : Nat} (rd n : Nat) (one : lanesOf mask = [lane]) :
    Advanced g (ticketedGang g lane rd n) mask := by
  intro i
  rw [one]
  exact lanePc_advance (regPutNat { g with outstanding := g.outstanding ++ [n], blocked := tdel g.blocked lane } lane rd n)
    (List.nodup_singleton lane) i

/-- What a ticket that is taken leaves. -/
theorem takeTicket_leaves {s u : State} (c : OnlyChanges [.counters, .sticky] s u) {ref : GangRef} {g : Gang} {v : Invocation}
    (hv : tget s.compute.invs g.inv = some v) (hu : 24 ≤ ref.unit ∧ ref.unit ≤ 71) (lane rd plan place : Nat) :
    let t := takeTicket u ref g v lane rd plan place
    let n := if v.nextTicket = 0 then 1 else v.nextTicket
    gangAt t ref = some (ticketedGang g lane rd n) ∧ tget t.compute.invs g.inv = some (ticketedInv g ref v n plan place v) ∧
      OnlyGang s t ref ∧ OnlyChanges [.compute, .counters, .sticky] s t := by
  intro t n
  obtain ⟨gang, inv, only, parts⟩ := invMod_slot c hv (gangPut_onlyGang u ref (ticketedGang g lane rd n) hu) (gangPut_only _ _ _) rfl
    (ticketedInv g ref v n plan place)
  have after (w : State) : (count w (0x6100 + ref.unit) 5 1).compute = w.compute := count_compute w _ 5 1
  refine ⟨(gangAt_count ..).trans (gang.trans (gangAt_gangPut_same _ _ _ hu)), ?_, only.of_cores rfl (congrArg Compute.cores (after _)),
    parts.comp (count_only _ _ 5 1)⟩
  exact (congrArg (fun x => tget x.invs g.inv) (after _)).trans inv

/-! ## WAIT and POLL -/

theorem foundState_of_ticketNo {v : Invocation} {n : Nat} {k : Ticket} (h : ticketNo v n = some k) (s : State) (lane : Nat) :
    foundState s v n lane = k.state := by simp only [foundState, h]

theorem mustWait_of_ticketNo {v : Invocation} {n : Nat} {k : Ticket} (h : ticketNo v n = some k) :
    mustWait v n = decide (k.state = 0) := by simp only [mustWait, h]

/-- The gang whose lanes have the state of their tickets in `rd`, and go on (R206). -/
def answeredGang (s : State) (v : Invocation) (g : Gang) (mask rd ra : Nat) : Gang :=
  advance ((lanesOf mask).foldl (fun k i => regPutNat k i rd (foundState s v (regAt g i ra).toNat i)) g) (lanesOf mask)

/-- Numbers of tickets that have ended are released (R206). -/
def released (ns : List Nat) (v : Invocation) : Invocation :=
  { v with tickets := v.tickets.filter (fun t => !(t.state ≠ 0 && ns.contains t.number)) }

theorem answeredGang_frame (s : State) (v : Invocation) (g : Gang) (mask rd ra : Nat) :
    Advanced g (answeredGang s v g mask rd ra) mask ∧ (answeredGang s v g mask rd ra).blocked = g.blocked := by
  obtain ⟨r, hr⟩ := regFold_frame (lanesOf mask) g rd (fun i => BitVec.ofNat 32 (foundState s v (regAt g i ra).toNat i))
  have eq : answeredGang s v g mask rd ra = advance { g with regs := r } (lanesOf mask) := congrArg (advance · (lanesOf mask)) hr
  rw [eq]
  exact ⟨advance_advanced { g with regs := r } mask, rfl⟩

theorem regAt_answeredGang (s : State) (v : Invocation) (g : Gang) (mask : Nat) {rd : Nat} (ra : Nat) (hd : rd < 256) (i : Nat) {q : Nat}
    (hq : q < 256) : regAt (answeredGang s v g mask rd ra) i q =
      if i ∈ lanesOf mask ∧ q = rd then BitVec.ofNat 32 (foundState s v (regAt g i ra).toNat i) else regAt g i q :=
  regAt_fold (lanesOf mask) g rd (fun i => BitVec.ofNat 32 (foundState s v (regAt g i ra).toNat i)) hd i q hq

/-- A number that is asked for names a ticket afterwards only where that one is still QUEUED. -/
theorem ticketNo_released {v : Invocation} {ns : List Nat} {n : Nat} (h : n ∈ ns) :
    ticketNo (released ns v) n = none ∨ ∃ k ∈ v.tickets, k.number = n ∧ k.state = 0 := by
  cases hk : ticketNo (released ns v) n with
  | none => exact .inl rfl
  | some k =>
    obtain ⟨mem, kept⟩ := List.mem_filter.mp (List.mem_of_find?_eq_some hk)
    have number := ticketNo_number hk
    refine .inr ⟨k, mem, number, ?_⟩
    simpa [number, h] using kept

section
variable {s : State} {ref : GangRef} {v : Invocation} {g : Gang} {mask : Nat} (T : GangTurn s ref v g mask) {rd ra : Nat}
  (hd : rd < 256) (ha : ra < 256)
include T

/-- What a gang leaves that is put back after free values have been drawn, with numbers of tickets released. -/
theorem GangTurn.released_leaves {u : State} (counted : OnlyChanges [.counters, .sticky] s u) (h : Gang) (ns : List Nat) :
    let t := releaseTickets (gangPut { u with free := u.free + 32 } ref h) g.inv ns
    gangAt t ref = some h ∧ tget t.compute.invs g.inv = some (released ns v) ∧ OnlyGang s t ref ∧
      OnlyChanges [.compute, .counters, .sticky, .free] s t := by
  have hu := issuing_unit T.issues
  have drawn : OnlyChanges [.free] u { u with free := u.free + 32 } :=
    fun p h => by
      cases p
      case free => exact absurd (by decide) h
      all_goals rfl
  obtain ⟨gang, inv, only, parts⟩ := invMod_slot (counted.comp drawn (rs := [.counters, .sticky, .free])) (issuing_inv T.issues)
    (gangPut_onlyGang _ ref h hu) (gangPut_only _ _ _) rfl (released ns)
  exact ⟨gang.trans (gangAt_gangPut_same _ _ _ hu), inv, only, parts⟩

include hd ha

/-- WAIT of lanes whose tickets all stand blocks them. -/
theorem GangTurn.wait_blocks (stand : ∀ i ∈ lanesOf mask, ∃ k, ticketNo v (regAt g i ra).toNat = some k ∧ k.state = 0) :
    ∃ u, OnlyChanges [.counters, .sticky] s u ∧ exec (.waitOp ref rd ra) s = .next (releaseTickets (gangPut { u with free := u.free + 32 } ref
      { g with blocked := (lanesOf mask).foldl (fun t i => tput t i ⟨2, rd, 0, 0, (regAt g i ra).toNat⟩) g.blocked }) g.inv []) := by
  obtain ⟨u, ran, counted⟩ := T.acts (c := .waitOp ref rd ra) (ok := decide (rd < 256) && decide (ra < 256)) rfl (by simp [hd, ha])
  have waits (i : Nat) (hi : i ∈ lanesOf mask) : mustWait v (regAt g i ra).toNat = true := by
    obtain ⟨k, hk, h0⟩ := stand i hi
    simp [mustWait_of_ticketNo hk, h0]
  have blocked : (lanesOf mask).filter (fun i => mustWait v (regAt g i ra).toNat) = lanesOf mask := List.filter_eq_self.mpr waits
  have done : (lanesOf mask).filter (fun i => !mustWait v (regAt g i ra).toNat) = [] :=
    List.filter_eq_nil_iff.mpr (fun i hi => by simp [waits i hi])
  refine ⟨u, counted, ran.trans (congrArg _ ?_)⟩
  dsimp only
  rw [blocked, done]
  simp only [List.foldl_nil, List.map_nil, if_true, advance, ite_self]

/-- WAIT of lanes whose tickets have all ended gives each its end state. -/
theorem GangTurn.wait_answers (ended : ∀ i ∈ lanesOf mask, ∃ k, ticketNo v (regAt g i ra).toNat = some k ∧ k.state ≠ 0) :
    ∃ u, OnlyChanges [.counters, .sticky] s u ∧ exec (.waitOp ref rd ra) s = .next (releaseTickets (gangPut { u with free := u.free + 32 } ref
      (progressed (answeredGang u v g mask rd ra))) g.inv ((lanesOf mask).map (fun i => (regAt g i ra).toNat))) := by
  obtain ⟨u, ran, counted⟩ := T.acts (c := .waitOp ref rd ra) (ok := decide (rd < 256) && decide (ra < 256)) rfl (by simp [hd, ha])
  have goes (i : Nat) (hi : i ∈ lanesOf mask) : mustWait v (regAt g i ra).toNat = false := by
    obtain ⟨k, hk, h0⟩ := ended i hi
    simp [mustWait_of_ticketNo hk, h0]
  have blocked : (lanesOf mask).filter (fun i => mustWait v (regAt g i ra).toNat) = [] :=
    List.filter_eq_nil_iff.mpr (fun i hi => by simp [goes i hi])
  have done : (lanesOf mask).filter (fun i => !mustWait v (regAt g i ra).toNat) = lanesOf mask :=
    List.filter_eq_self.mpr (fun i hi => by simp [goes i hi])
  refine ⟨u, counted, ran.trans (congrArg _ ?_)⟩
  dsimp only
  rw [blocked, done]
  simp only [List.foldl_nil, ne_eq, not_true_eq_false, decide_false, Bool.false_and, Bool.false_eq_true, if_false, if_neg T.lanes_ne]
  rfl

theorem GangTurn.poll_answers : ∃ u, OnlyChanges [.counters, .sticky] s u ∧ exec (.pollOp ref rd ra) s = .next (releaseTickets
    (gangPut { u with free := u.free + 32 } ref (answeredGang u v g mask rd ra)) g.inv
    ((lanesOf mask).map (fun i => (regAt g i ra).toNat))) := by
  obtain ⟨u, ran, counted⟩ := T.acts (c := .pollOp ref rd ra) (ok := decide (rd < 256) && decide (ra < 256)) rfl (by simp [hd, ha])
  exact ⟨u, counted, ran⟩

end

end Sys2Proof.Machine
end

open Sys2Proof Sys2Proof.Machine in
/-- Settles O50: each branch of TICKET at its turn, and the states that WAIT and POLL find. -/
theorem ticketsAreTakenAndAwaited : Obligations.TicketsAreTakenAndAwaited := by
  unfold Obligations.TicketsAreTakenAndAwaited
  intro s ref v g mask T rd ra hd ha
  have hu := issuing_unit T.issues
  have hv := issuing_inv T.issues
  refine ⟨fun rb hb => ?ticket, fun stand => ?blocks, fun ended => ?answers, ?poll⟩
  case ticket =>
    obtain ⟨u, counted, ran⟩ := T.ticket hd ha hb
    refine ⟨fun several => ?several, fun lane one => ?one⟩
    case several =>
      refine ⟨_, ran.trans (congrArg _ ?_), faultWith_leaves counted ref g _ hu⟩
      split
      · next lane h => exact absurd h (several lane)
      · rfl
    case one =>
      simp only [one] at ran
      refine ⟨fun f hf => ?_, fun hf => ⟨fun full => ?_, fun room => ?_⟩⟩
      · rw [hf] at ran
        exact ⟨_, ran, faultWith_leaves counted ref g f hu⟩
      · simp only [hf, if_pos full] at ran
        exact ⟨_, ⟨_, ran, gangAt_gangPut_same _ _ _ hu, gangPut_frame_counted counted ref _ hu⟩, tget_tput_same .., rfl⟩
      · simp only [hf, if_neg (Nat.not_le.mpr room)] at ran
        obtain ⟨gang, inv, only, parts⟩ := takeTicket_leaves counted hv hu lane rd (regAt g lane ra).toNat (regAt g lane rb).toNat
        refine ⟨_, _, _, ran, gang, ?_, fun i q _ hq other => ?_, ticketedGang_advanced g rd _ one, rfl, rfl, inv, ?_, rfl, rfl, only, parts⟩
        · rw [regAt_ticketedGang g lane rd _ hd hd, if_pos ⟨rfl, rfl⟩]
        · rw [regAt_ticketedGang g lane rd _ hd hq, if_neg (by tauto)]
        · exact nextTicketNo_eq _
  case blocks =>
    obtain ⟨u, counted, ran⟩ := T.wait_blocks hd ha stand
    obtain ⟨gang, -, only, parts⟩ := T.released_leaves counted _ []
    exact ⟨_, _, ran, gang, rfl, rfl, fun i hi => (tget_foldl_put _ _ _ i).trans (if_pos hi), only, parts⟩
  case answers =>
    obtain ⟨u, counted, ran⟩ := T.wait_answers hd ha ended
    obtain ⟨gang, inv, only, parts⟩ := T.released_leaves counted (progressed (answeredGang u v g mask rd ra)) _
    refine ⟨_, _, _, ran, gang, (answeredGang_frame u v g mask rd ra).1, rfl, fun i hi k hk => ?_, inv,
      fun i hi => ticketNo_released (List.mem_map.mpr ⟨i, hi, rfl⟩), rfl, only, parts⟩
    exact (regAt_answeredGang u v g mask ra hd i hd).trans (by rw [if_pos ⟨hi, rfl⟩, foundState_of_ticketNo hk])
  case poll =>
    obtain ⟨u, counted, ran⟩ := T.poll_answers hd ha
    obtain ⟨gang, inv, only, parts⟩ := T.released_leaves counted (answeredGang u v g mask rd ra) _
    obtain ⟨advanced, blocked⟩ := answeredGang_frame u v g mask rd ra
    refine ⟨_, _, ran, gang, advanced, blocked, fun i hi k hk => ?_, fun i q _ hq other => ?_, only, parts⟩
    · rw [regAt_answeredGang u v g mask ra hd i hd, if_pos ⟨hi, rfl⟩, foundState_of_ticketNo hk]
    · rw [regAt_answeredGang u v g mask ra hd i hq, if_neg (by tauto)]

section
/-!
SUPPORT. Registers that hold one value together, and the bytes of a memory that hold one (R10, R233).
-/

namespace Sys2Proof.Machine

/-! ## Consecutive registers -/

theorem regAt_regsPut (g : Gang) (i : Nat) {r n : Nat} (v : Nat) (fit : r + n ≤ 256) (j : Nat) {q : Nat} (hq : q < 256) :
    regAt (regsPut g i r n v) j q =
      if j = i ∧ r ≤ q ∧ q < r + n then BitVec.ofNat 32 (v / 2 ^ (32 * (q - r))) else regAt g j q := by
  induction n with
  | zero => rw [if_neg (by omega)]; rfl
  | succ n ih =>
    have step : regsPut g i r (n + 1) v = regPutNat (regsPut g i r n v) i (r + n) (v / 2 ^ (32 * n)) := by
      simp only [regsPut, List.range_succ, List.foldl_append, List.foldl_cons, List.foldl_nil]
    rw [step, regPutNat, regAt_regPut _ _ hq (by omega), ih (by omega)]
    by_cases hj : j = i ∧ q = r + n
    · obtain ⟨rfl, rfl⟩ := hj
      simp
    · rw [if_neg hj]
      exact if_congr (by omega) rfl rfl

theorem regsPut_frame (g : Gang) (i r n v : Nat) : ∃ regs, regsPut g i r n v = { g with regs := regs } := by
  unfold regsPut
  generalize List.range n = ks
  induction ks generalizing g with
  | nil => exact ⟨g.regs, rfl⟩
  | cons k ks ih =>
    obtain ⟨regs, h⟩ := ih (regPutNat g i (r + k) (v / 2 ^ (32 * k)))
    exact ⟨regs, by rw [List.foldl_cons, h]; rfl⟩

/-- The words of a number, low part first, put together again. -/
theorem sum_words (v n : Nat) : ((List.range n).map (fun k => v / 2 ^ (32 * k) % 2 ^ 32 * 2 ^ (32 * k))).sum = v % 2 ^ (32 * n) := by
  induction n with
  | zero => simp [Nat.mod_one]
  | succ n ih =>
    rw [List.range_succ, List.map_append, List.sum_append, ih, List.map_singleton, List.sum_singleton, Nat.mul_succ, Nat.pow_add,
      Nat.mod_mul, Nat.mul_comm (v / _ % _)]

theorem regsVal_congr {g h : Gang} {i r n : Nat} (same : ∀ k, k < n → regAt h i (r + k) = regAt g i (r + k)) :
    regsVal h i r n = regsVal g i r n := by
  unfold regsVal
  exact congrArg List.sum (List.map_congr_left (fun k hk => by rw [same k (List.mem_range.mp hk)]))

theorem regsVal_of_words {h : Gang} {i r n v : Nat} (words : ∀ k, k < n → regAt h i (r + k) = BitVec.ofNat 32 (v / 2 ^ (32 * k))) :
    regsVal h i r n = v % 2 ^ (32 * n) := by
  rw [← sum_words, regsVal]
  exact congrArg List.sum (List.map_congr_left (fun k hk => by rw [words k (List.mem_range.mp hk), BitVec.toNat_ofNat]))

theorem regsVal_lt (g : Gang) (i r n : Nat) : regsVal g i r n < 2 ^ (32 * n) := by
  induction n with
  | zero => exact Nat.one_pos
  | succ n ih =>
    have word : (regAt g i (r + n)).toNat * 2 ^ (32 * n) ≤ (2 ^ 32 - 1) * 2 ^ (32 * n) :=
      Nat.mul_le_mul_right _ (Nat.le_sub_one_of_lt (regAt g i (r + n)).isLt)
    have split : regsVal g i r (n + 1) = regsVal g i r n + (regAt g i (r + n)).toNat * 2 ^ (32 * n) := by
      simp only [regsVal, List.range_succ, List.map_append, List.map_singleton, List.sum_append, List.sum_singleton]
    rw [split, Nat.mul_succ, Nat.pow_add]
    omega

theorem regsVal_regsPut (g : Gang) (i : Nat) {r n : Nat} (v : Nat) (fit : r + n ≤ 256) :
    regsVal (regsPut g i r n v) i r n = v % 2 ^ (32 * n) := by
  refine regsVal_of_words (fun k hk => ?_)
  rw [regAt_regsPut g i v fit i (by omega), if_pos ⟨rfl, by omega, by omega⟩, Nat.add_sub_cancel_left]

/-- Values written to the same registers of several lanes, each lane with its own. -/
theorem regAt_foldRegs (ls : List Nat) (g : Gang) {r n : Nat} (f : Nat → Nat) (fit : r + n ≤ 256) (j : Nat) {q : Nat} (hq : q < 256) :
    regAt (ls.foldl (fun k i => regsPut k i r n (f i)) g) j q =
      if j ∈ ls ∧ r ≤ q ∧ q < r + n then BitVec.ofNat 32 (f j / 2 ^ (32 * (q - r))) else regAt g j q := by
  induction ls generalizing g with
  | nil => simp
  | cons i ls ih =>
    rw [List.foldl_cons, ih, regAt_regsPut g i (f i) fit j hq]
    by_cases hl : j ∈ ls <;> by_cases hi : j = i <;> by_cases hr : r ≤ q ∧ q < r + n <;> simp [hl, hi, hr]

theorem foldRegs_frame (ls : List Nat) (g : Gang) (r n : Nat) (f : Nat → Nat) :
    ∃ regs, ls.foldl (fun k i => regsPut k i r n (f i)) g = { g with regs := regs } := by
  induction ls generalizing g with
  | nil => exact ⟨g.regs, rfl⟩
  | cons i ls ih =>
    obtain ⟨x, hx⟩ := regsPut_frame g i r n (f i)
    obtain ⟨y, hy⟩ := ih (regsPut g i r n (f i))
    exact ⟨y, by rw [List.foldl_cons, hy, hx]⟩

theorem regsVal_foldRegs {ls : List Nat} (g : Gang) {r n : Nat} (f : Nat → Nat) (fit : r + n ≤ 256) {i : Nat} (hi : i ∈ ls) :
    regsVal (ls.foldl (fun k i => regsPut k i r n (f i)) g) i r n = f i % 2 ^ (32 * n) := by
  refine regsVal_of_words (fun k hk => ?_)
  rw [regAt_foldRegs ls g f fit i (by omega), if_pos ⟨hi, by omega, by omega⟩, Nat.add_sub_cancel_left]

/-! ## Bytes of a memory -/

theorem leNat_leBytes_mod (n v : Nat) : leNat (leBytes n v) = v % 256 ^ n := by
  induction n generalizing v with
  | zero => simp [leBytes, leNat, Nat.mod_one]
  | succ n ih => rw [leBytes, leNat, ih, Nat.mod_mod, Nat.pow_succ', Nat.mod_mul]

theorem leNat_lt (bs : Bytes) : leNat bs < 256 ^ bs.length := by
  induction bs with
  | nil => exact Nat.one_pos
  | cons b bs ih =>
    rw [leNat, List.length_cons, Nat.pow_succ']
    omega

theorem leNat_bytes (bs : Bytes) : leNat ((List.range bs.length).map (fun i => bs.getD i 0 % 256)) = leNat bs := by
  induction bs with
  | nil => rfl
  | cons b bs ih =>
    rw [List.length_cons, List.range_succ_eq_map, List.map_cons, List.map_map, leNat, leNat, List.getD_cons_zero, Nat.mod_mod, ← ih]
    rfl

/-- What has been written is read back. -/
theorem leNat_mread_mwrite (m : Mem) (a n v : Nat) : leNat (mread (mwrite m a (leBytes n v)) a n) = v % 2 ^ (8 * n) := by
  have bytes : mread (mwrite m a (leBytes n v)) a n =
      (List.range (leBytes n v).length).map (fun i => (leBytes n v).getD i 0 % 256) := by
    rw [length_leBytes]
    refine List.map_congr_left (fun i hi => ?_)
    rw [mget_mwrite_inside _ _ _ _ (by rw [length_leBytes]; exact List.mem_range.mp hi), BitVec.toNat_ofNat]
  rw [bytes, leNat_bytes, leNat_leBytes_mod, Nat.pow_mul]

end Sys2Proof.Machine
end

section
/-!
SUPPORT. The spaces of gang code (Table 9.11): each is a part of one memory, a write changes its bytes there and nothing else.
-/

namespace Sys2Proof.Machine

/-! ## A space is a part of one memory -/

/-- The memory that a space lies in: local memory of the core, the loft window, the package, Subsystem Local Memory. -/
def spaceMem (s : State) (unit : Nat) (v : Invocation) (space : Nat) : Mem :=
  match space with
  | 0 => tgetD (coreOf s unit).localMem v.program []
  | 1 => v.window
  | 2 => (programOf s v.program).pkg
  | _ => s.compute.slm

/-- Where a space begins in its memory. -/
def spaceBase (s : State) (v : Invocation) (space : Nat) : Nat :=
  match space with
  | 0 => 0
  | 1 => 0
  | 2 => ((sectionOf (programOf s v.program).pkg 5).map (fun x => x.1)).getD 0
  | k => slmBase s v k

theorem spaceRead_eq (s : State) (unit : Nat) (v : Invocation) (space a n : Nat) :
    spaceRead s unit v space a n = leNat (mread (spaceMem s unit v space) (spaceBase s v space + a) n) := by
  rcases space with _ | _ | _ | space
  · exact congrArg (fun x => leNat (mread _ x n)) (Nat.zero_add a).symm
  · exact congrArg (fun x => leNat (mread _ x n)) (Nat.zero_add a).symm
  · rfl
  · rfl

theorem spaceRead_lt (s : State) (unit : Nat) (v : Invocation) (space a n : Nat) : spaceRead s unit v space a n < 2 ^ (8 * n) := by
  rw [spaceRead_eq, Nat.pow_mul]
  simpa [mread] using leNat_lt (mread (spaceMem s unit v space) (spaceBase s v space + a) n)

/-- The invocation as it stands: what a gang stores to changes its loft window alone. -/
def Current (s : State) (inv : Nat) (v : Invocation) : Prop := ∃ w, tget s.compute.invs inv = some { v with window := w }

theorem spaceByte_eq (s : State) (unit inv : Nat) (v : Invocation) (space a : Nat) :
    spaceByte s unit inv v space a = (mget (spaceMem s unit ((tget s.compute.invs inv).getD v) space)
      (spaceBase s ((tget s.compute.invs inv).getD v) space + a)).toNat := by
  rw [spaceByte, spaceRead_eq]
  simp only [mread, List.range_one, List.map_singleton, leNat, Nat.add_zero, Nat.mul_zero]
  exact Nat.mod_eq_of_lt (BitVec.isLt _)

/-- The bytes of a run read one by one. -/
theorem spaceBytes_eq (s : State) (unit inv : Nat) (v : Invocation) (space a n : Nat) :
    spaceBytes s unit inv v space a n = leNat ((List.range n).map (fun k => spaceByte s unit inv v space (a + k))) := by
  rw [spaceBytes, spaceRead_eq]
  refine congrArg leNat (List.map_congr_left (fun k _ => ?_))
  rw [spaceByte_eq, Nat.add_assoc]

theorem spaceBytes_congr {s t : State} {unit inv : Nat} {v : Invocation} {space a n : Nat}
    (same : ∀ k, k < n → spaceByte t unit inv v space (a + k) = spaceByte s unit inv v space (a + k)) :
    spaceBytes t unit inv v space a n = spaceBytes s unit inv v space a n := by
  rw [spaceBytes_eq, spaceBytes_eq]
  exact congrArg leNat (List.map_congr_left (fun k hk => same k (List.mem_range.mp hk)))

/-! ## What a store to a space leaves -/

/-- A gang of the invocation `inv` on the core `unit` stores to bytes of `space` that `hit` names, and changes nothing else. -/
structure StoresTo (unit inv : Nat) (v : Invocation) (space : Nat) (hit : Nat → Prop) (s t : State) : Prop where
  bytes : ∀ a, ¬hit a → spaceByte t unit inv v space a = spaceByte s unit inv v space a
  localMem : ∀ u p, (space ≠ 0 ∨ u - 24 ≠ unit - 24 ∨ p ≠ v.program) → tget (coreOf t u).localMem p = tget (coreOf s u).localMem p
  cores : ∀ u, (coreOf t u).parts = (coreOf s u).parts ∧ (coreOf t u).gangs = (coreOf s u).gangs
  invs : ∀ n, (space ≠ 1 ∨ n ≠ inv) → tget t.compute.invs n = tget s.compute.invs n
  current : Current s inv v → Current t inv v
  slm : ∀ a, (space < 4 ∨ ∀ b, hit b → a ≠ slmBase s v space + b) → mget t.compute.slm a = mget s.compute.slm a
  rest : { t.compute with cores := s.compute.cores, invs := s.compute.invs, slm := s.compute.slm } = s.compute
  only : OnlyChanges [.compute] s t

namespace StoresTo

variable {unit inv : Nat} {v : Invocation} {space : Nat} {hit more : Nat → Prop} {s t u : State}

theorem refl (s : State) : StoresTo unit inv v space hit s s :=
  ⟨fun _ _ => rfl, fun _ _ _ => rfl, fun _ => ⟨rfl, rfl⟩, fun _ _ => rfl, id, fun _ _ => rfl, rfl, .refl _ s⟩

theorem rangeSets (h : StoresTo unit inv v space hit s t) : t.compute.rangeSets = s.compute.rangeSets := by
  have e := congrArg Compute.rangeSets h.rest
  exact e

theorem programs (h : StoresTo unit inv v space hit s t) : t.compute.programs = s.compute.programs := by
  have e := congrArg Compute.programs h.rest
  exact e

theorem trans (a : StoresTo unit inv v space hit s t) (b : StoresTo unit inv v space hit t u) : StoresTo unit inv v space hit s u where
  bytes x h := (b.bytes x h).trans (a.bytes x h)
  localMem n p h := (b.localMem n p h).trans (a.localMem n p h)
  cores n := ⟨(b.cores n).1.trans (a.cores n).1, (b.cores n).2.trans (a.cores n).2⟩
  invs n h := (b.invs n h).trans (a.invs n h)
  current h := b.current (a.current h)
  slm x h := by
    have base : slmBase t v space = slmBase s v space := by simp only [slmBase, rangesOf_congr a.rangeSets]
    exact (b.slm x (base ▸ h)).trans (a.slm x h)
  rest := by rw [← a.rest, ← b.rest]
  only := a.only.trans b.only

theorem mono (a : StoresTo unit inv v space hit s t) (h : ∀ x, hit x → more x) : StoresTo unit inv v space more s t :=
  { a with
    bytes := fun x hx => a.bytes x (fun m => hx (h x m))
    slm := fun x hx => a.slm x (hx.imp_right (fun k b hb => k b (h b hb))) }

end StoresTo

/-! ## One write -/

/-- The bytes of one access. -/
def within (a n x : Nat) : Prop := a ≤ x ∧ x < a + n

/-- Spaces that can be stored to: local memory, the loft window and Subsystem Local Memory (Table 9.11). -/
def storable (space : Nat) : Prop := space ≤ 1 ∨ 4 ≤ space

/-- Where the memory of a space takes a run of bytes, those read back and the others stand. -/
theorem bytes_of_mwrite {s t : State} {unit inv : Nat} {v : Invocation} {space a n value : Nat}
    (mem : spaceMem t unit ((tget t.compute.invs inv).getD v) space = mwrite (spaceMem s unit ((tget s.compute.invs inv).getD v) space)
      (spaceBase s ((tget s.compute.invs inv).getD v) space + a) (leBytes n value))
    (base : spaceBase t ((tget t.compute.invs inv).getD v) space = spaceBase s ((tget s.compute.invs inv).getD v) space) :
    (∀ x, ¬within a n x → spaceByte t unit inv v space x = spaceByte s unit inv v space x) ∧
      spaceBytes t unit inv v space a n = value % 2 ^ (8 * n) := by
  refine ⟨fun x hx => ?_, ?_⟩
  · rw [spaceByte_eq, spaceByte_eq, mem, base, mget_mwrite_outside _ _ _ _ (by rw [length_leBytes]; unfold within at hx; omega)]
  · rw [spaceBytes, spaceRead_eq, mem, base, leNat_mread_mwrite]

section
variable {s : State} {inv : Nat} {v : Invocation} (now : Current s inv v)
include now

theorem localWrite_stores (unit a n value : Nat) : StoresTo unit inv v 0 (within a n) s (spaceWrite s unit inv v 0 a n value) ∧
    spaceBytes (spaceWrite s unit inv v 0 a n value) unit inv v 0 a n = value % 2 ^ (8 * n) := by
  obtain ⟨w, hw⟩ := now
  let grown : Core := { coreOf s unit with
    localMem := tmod (coreOf s unit).localMem v.program [] (fun m => mwrite m a (leBytes n value)) }
  have same (k : Nat) (h : k - 24 = unit - 24) : coreOf (spaceWrite s unit inv v 0 a n value) k = grown := by
    rw [coreOf, h]
    exact tgetD_tput_same _ _ _ _
  have other (k : Nat) (h : k - 24 ≠ unit - 24) : coreOf (spaceWrite s unit inv v 0 a n value) k = coreOf s k :=
    tgetD_tput_other _ _ _ _ _ h
  have here (k : Nat) (h : k - 24 = unit - 24) : coreOf s k = coreOf s unit := by rw [coreOf, coreOf, h]
  obtain ⟨bytes, back⟩ := bytes_of_mwrite (s := s) (t := spaceWrite s unit inv v 0 a n value) (unit := unit) (inv := inv) (v := v)
    (space := 0) (a := a) (n := n) (value := value) (by
      rw [show tget (spaceWrite s unit inv v 0 a n value).compute.invs inv = some { v with window := w } from hw, hw]
      simp only [spaceMem, spaceBase, Option.getD_some, same unit rfl, Nat.zero_add]
      exact tgetD_tput_same _ _ _ _) rfl
  refine ⟨⟨bytes, fun k p h => ?_, fun k => ?_, fun _ _ => rfl, id, fun _ _ => rfl, rfl, only_compute s _⟩, back⟩
  · by_cases hk : k - 24 = unit - 24
    · rw [same k hk, here k hk]
      exact tget_tput_other _ _ _ _ (by tauto)
    · rw [other k hk]
  · by_cases hk : k - 24 = unit - 24
    · rw [same k hk, here k hk]
      exact ⟨rfl, rfl⟩
    · rw [other k hk]
      exact ⟨rfl, rfl⟩

theorem windowWrite_stores (unit a n value : Nat) : StoresTo unit inv v 1 (within a n) s (spaceWrite s unit inv v 1 a n value) ∧
    spaceBytes (spaceWrite s unit inv v 1 a n value) unit inv v 1 a n = value % 2 ^ (8 * n) := by
  have current : Current s inv v → Current (spaceWrite s unit inv v 1 a n value) inv v :=
    fun ⟨w, hw⟩ => ⟨_, tget_invMod hw _⟩
  obtain ⟨w, hw⟩ := now
  have after : tget (spaceWrite s unit inv v 1 a n value).compute.invs inv = some { v with window := mwrite w a (leBytes n value) } :=
    tget_invMod hw _
  obtain ⟨bytes, back⟩ := bytes_of_mwrite (s := s) (t := spaceWrite s unit inv v 1 a n value) (unit := unit) (inv := inv) (v := v)
    (space := 1) (a := a) (n := n) (value := value) (by
      rw [after, hw]
      simp only [spaceMem, spaceBase, Option.getD_some, Nat.zero_add]) rfl
  exact ⟨⟨bytes, fun _ _ _ => rfl, fun _ => ⟨rfl, rfl⟩, fun k h => tget_invMod_other s (by tauto) _, current, fun _ _ => rfl, rfl,
    invMod_only s inv _⟩, back⟩

theorem slmStore_stores (space unit a n value : Nat) :
    StoresTo unit inv v (space + 4) (within a n) s (spaceWrite s unit inv v (space + 4) a n value) ∧
    spaceBytes (spaceWrite s unit inv v (space + 4) a n value) unit inv v (space + 4) a n = value % 2 ^ (8 * n) := by
  obtain ⟨w, hw⟩ := now
  obtain ⟨bytes, back⟩ := bytes_of_mwrite (s := s) (t := spaceWrite s unit inv v (space + 4) a n value) (unit := unit) (inv := inv)
    (v := v) (space := space + 4) (a := a) (n := n) (value := value) (by
      rw [show tget (spaceWrite s unit inv v (space + 4) a n value).compute.invs inv = some { v with window := w } from hw, hw]
      rfl) rfl
  refine ⟨⟨bytes, fun _ _ _ => rfl, fun _ => ⟨rfl, rfl⟩, fun _ _ => rfl, id, fun x hx => ?_, rfl, only_compute s _⟩, back⟩
  have outside := hx.resolve_left (by omega)
  refine mget_mwrite_outside (leBytes n value) s.compute.slm (slmBase s v (space + 4) + a) x ?_
  rw [length_leBytes]
  by_contra inside
  exact outside (x - slmBase s v (space + 4)) ⟨by omega, by omega⟩ (by omega)

end

/-- A write to a space stores its bytes there, and they read back. -/
theorem spaceWrite_stores {s : State} {unit inv : Nat} {v : Invocation} {space : Nat} (ok : storable space) (now : Current s inv v)
    (a n value : Nat) : StoresTo unit inv v space (within a n) s (spaceWrite s unit inv v space a n value) ∧
      spaceBytes (spaceWrite s unit inv v space a n value) unit inv v space a n = value % 2 ^ (8 * n) := by
  unfold storable at ok
  rcases space with _ | _ | _ | _ | space
  · exact localWrite_stores now unit a n value
  · exact windowWrite_stores now unit a n value
  · omega
  · omega
  · exact slmStore_stores now space unit a n value

end Sys2Proof.Machine
end

section
/-!
SUPPORT. Loads, stores and atomics of gang code at their turn (R203, R204, R230, R233, Table 8.6).
-/

namespace Sys2Proof.Machine

/-! ## The check of an access -/

theorem spaceSize_congr {s t : State} (h : t.compute = s.compute) (unit : Nat) (v : Invocation) (space : Nat) :
    spaceSize t unit v space = spaceSize s unit v space := by
  simp only [spaceSize, partBytes, coreOf_congr (congrArg Compute.cores h), programOf_congr (congrArg Compute.programs h),
    rangesOf_congr (congrArg Compute.rangeSets h)]

theorem accessFault_congr {s t : State} (h : t.compute = s.compute) (unit : Nat) (v : Invocation) (g : Gang) (mask : Nat)
    (m : MemFields) (store : Bool) : accessFault t unit v g mask m store = accessFault s unit v g mask m store := by
  simp only [accessFault, spaceSize_congr h]

theorem spaceRead_congr {s t : State} (h : t.compute = s.compute) (unit : Nat) (v : Invocation) (space a n : Nat) :
    spaceRead t unit v space a n = spaceRead s unit v space a n := by
  simp only [spaceRead, coreOf_congr (congrArg Compute.cores h), programOf_congr (congrArg Compute.programs h),
    rangesOf_congr (congrArg Compute.rangeSets h), h]

/-- An access goes through where every lane is aligned and inside its space, and none stores to SCALE. -/
theorem accessFault_none (s : State) (unit : Nat) (v : Invocation) (g : Gang) (mask : Nat) (m : MemFields) (store : Bool) :
    accessFault s unit v g mask m store = none ↔ ∀ i ∈ lanesOf mask, laneAddr g i m % (widthBytes m.width : Int) = 0 ∧
      0 ≤ laneAddr g i m ∧ laneAddr g i m + widthBytes m.width ≤ spaceSize s unit v m.space ∧ (store = true → m.space ≠ 2) := by
  have odd : (lanesOf mask).filter (fun i => !alignedAt (laneAddr g i m) m.width) = [] ↔
      ∀ i ∈ lanesOf mask, laneAddr g i m % (widthBytes m.width : Int) = 0 := by simp [List.filter_eq_nil_iff, alignedAt]
  have out : (lanesOf mask).filter (fun i => !insideSpace (spaceSize s unit v m.space) (laneAddr g i m) m.width ||
      (store && m.space = 2)) = [] ↔ ∀ i ∈ lanesOf mask, 0 ≤ laneAddr g i m ∧
        laneAddr g i m + widthBytes m.width ≤ spaceSize s unit v m.space ∧ (store = true → m.space ≠ 2) := by
    simp [List.filter_eq_nil_iff, insideSpace, and_assoc]
  have pass : accessFault s unit v g mask m store = none ↔
      (lanesOf mask).filter (fun i => !alignedAt (laneAddr g i m) m.width) = [] ∧
      (lanesOf mask).filter (fun i => !insideSpace (spaceSize s unit v m.space) (laneAddr g i m) m.width ||
        (store && m.space = 2)) = [] := by
    unfold accessFault
    dsimp only
    split
    · next h => exact ⟨nofun, fun k => absurd k.1 h⟩
    · next h =>
      split
      · next h' => split <;> exact ⟨nofun, fun k => absurd k.2 h'⟩
      · next h' => exact ⟨fun _ => ⟨not_not.mp h, not_not.mp h'⟩, fun _ => rfl⟩
  rw [pass, odd, out]
  exact ⟨fun ⟨a, b⟩ i hi => ⟨a i hi, b i hi⟩, fun h => ⟨fun i hi => (h i hi).1, fun i hi => (h i hi).2⟩⟩

/-! ## An access at its turn -/

section
variable {s : State} {ref : GangRef} {v : Invocation} {g : Gang} {mask : Nat} (T : GangTurn s ref v g mask) {c : Instr} {ok : Bool}
  {m : MemFields} {store load : Bool} {act : State → Invocation → Gang → List Nat → State × Gang}
  (run : exec c s = .next (gangAccess s ref ok m store load act)) (valid : ok = true)
include T run valid

theorem GangTurn.access_faults {f : GangFault} (h : accessFault s ref.unit v g mask m store = some f) : GangFaults c s ref g f :=
  T.faults run valid (fun u counted => by simp only [accessFault_congr (compute_of_counted counted), h])

theorem GangTurn.access_goes (h : accessFault s ref.unit v g mask m store = none) : ∃ u, OnlyChanges [.counters, .sticky] s u ∧
    exec c s = .next (gangPut (act u v g (lanesOf mask)).1 ref (advance (act u v g (lanesOf mask)).2 (lanesOf mask))) := by
  obtain ⟨u, ran, counted⟩ := T.acts run valid
  simp only [accessFault_congr (compute_of_counted counted), h] at ran
  exact ⟨_, counted.trans (.ite (count_only u _ 7 _) (.refl _ u)), ran⟩

end

/-- A lane that stores can reach its space. -/
theorem storable_of_access {s : State} {unit : Nat} {v : Invocation} {g : Gang} {mask : Nat} {m : MemFields}
    (h : accessFault s unit v g mask m true = none) (some_ : lanesOf mask ≠ []) (space : spaceOk m.space = true) : storable m.space := by
  obtain ⟨i, hi⟩ := List.exists_mem_of_ne_nil _ some_
  obtain ⟨-, -, -, scale⟩ := (accessFault_none ..).mp h i hi
  have := scale rfl
  simp only [spaceOk, Bool.or_eq_true, Bool.and_eq_true, decide_eq_true_eq] at space
  unfold storable
  omega

/-- What the gang's own slot and its stores leave, whatever was counted before. -/
theorem StoresTo.leaves {s u t : State} {ref : GangRef} {g h : Gang} {v : Invocation} {space : Nat} {hit : Nat → Prop}
    (c : OnlyChanges [.counters, .sticky] s u) (hv : tget s.compute.invs g.inv = some v) (hu : 24 ≤ ref.unit ∧ ref.unit ≤ 71)
    (st : StoresTo ref.unit g.inv v space hit u t) :
    gangAt (gangPut t ref h) ref = some h ∧ OtherSpaces s (gangPut t ref h) ref g.inv v space hit ∧
      (∀ a n, spaceBytes (gangPut t ref h) ref.unit g.inv v space a n = spaceBytes t ref.unit g.inv v space a n) ∧
      ∀ a, ¬hit a → spaceByte (gangPut t ref h) ref.unit g.inv v space a = spaceByte s ref.unit g.inv v space a := by
  have compute := compute_of_counted c
  obtain ⟨others, cores⟩ := gangPut_onlyGang t ref h hu
  have before (n : Nat) : coreOf u n = coreOf s n := coreOf_congr (congrArg Compute.cores compute) n
  have read (x : Invocation) (a n : Nat) : spaceRead (gangPut t ref h) ref.unit x space a n = spaceRead t ref.unit x space a n := by
    have local_ := (cores ref.unit).2
    simp only [spaceRead, local_]
    rfl
  have bytes (a n : Nat) : spaceBytes (gangPut t ref h) ref.unit g.inv v space a n = spaceBytes t ref.unit g.inv v space a n := read _ a n
  refine ⟨gangAt_gangPut_same _ _ _ hu, ⟨fun n p hn => ?_, fun n hn => ?_, ?_, fun a ha => ?_, ?_, fun n => ?_, fun r hr => ?_, ?_⟩, bytes,
    fun a ha => ?_⟩
  · rw [(cores n).2, st.localMem n p hn, before]
  · exact (st.invs n hn).trans (by rw [compute])
  · exact st.current ⟨v.window, by rw [compute, hv]⟩
  · have base : slmBase u v space = slmBase s v space := by simp only [slmBase, rangesOf_congr (congrArg Compute.rangeSets compute)]
    exact (st.slm a (base ▸ ha)).trans (by rw [compute])
  · have e := st.rest
    rw [compute] at e
    exact e
  · rw [(cores n).1, (st.cores n).1, before]
  · rw [others r hr, gangAt, (st.cores r.unit).2, before]
    rfl
  · exact (c.comp st.only).trans ((gangPut_only t ref h).mono (by decide))
  · refine (read _ a 1).trans ((st.bytes a ha).trans ?_)
    rw [spaceByte, spaceByte, compute, spaceRead_congr compute]

/-! ## LD -/

/-- Sign extension of a value of `w` bits. -/
theorem signExtend_toNat (w x : Nat) : (BitVec.signExtend 32 (BitVec.ofNat w x)).toNat = ofInt 32 (toInt w x) := by
  have value : (BitVec.ofNat w x).toInt = toInt w x := by
    have cast : ((2 ^ w : Nat) : Int) = 2 ^ w := Nat.cast_pow 2 w
    rw [BitVec.toInt_eq_toNat_cond, BitVec.toNat_ofNat, toInt, ← cast]
    split <;> split <;> omega
  rw [BitVec.signExtend, value, BitVec.toNat_ofInt, ofInt]
  rfl

theorem ofInt_lt (w : Nat) (x : Int) : ofInt w x < 2 ^ w := by
  have pos : (0 : Int) < 2 ^ w := by positivity
  have := Int.emod_lt_of_pos x pos
  have := Int.emod_nonneg x pos.ne'
  unfold ofInt
  zify
  omega

/-- The registers of a width hold its bytes. -/
theorem widthBytes_le_regs {w : Nat} (ok : w ≤ 4) : 2 ^ (8 * widthBytes w) ≤ 2 ^ (32 * widthRegs w) := by
  refine Nat.pow_le_pow_right (by decide) ?_
  interval_cases w <;> decide

/-- A loaded value fits the registers of its width. -/
theorem loadValue_mod {m : MemFields} (width : m.width ≤ 4) (short : m.sx = true → m.width < 2) {x : Nat}
    (hx : x < 2 ^ (8 * widthBytes m.width)) : loadValue m x % 2 ^ (32 * widthRegs m.width) =
      if m.sx then (BitVec.signExtend 32 (BitVec.ofNat (8 * widthBytes m.width) x)).toNat else x := by
  unfold loadValue
  split
  · next sx =>
    have one : widthRegs m.width = 1 := by
      have := short sx
      rw [widthRegs, if_neg (by omega), if_neg (by omega)]
    rw [signExtend_toNat, one, Nat.mod_eq_of_lt (ofInt_lt 32 _)]
  · exact Nat.mod_eq_of_lt (hx.trans_le (widthBytes_le_regs width))

theorem ldOk_fields {m : MemFields} (ok : ldOk m = true) :
    m.width ≤ 4 ∧ m.rd + widthRegs m.width ≤ 256 ∧ (m.sx = true → m.width < 2) := by
  simp only [ldOk, regAligned, Bool.and_eq_true, decide_eq_true_eq, Bool.or_eq_true, Bool.not_eq_true'] at ok
  obtain ⟨⟨⟨⟨⟨⟨-, width⟩, -, fit⟩, sx⟩, -⟩, -⟩, -⟩ := ok
  exact ⟨width, fit, fun h => sx.resolve_left (by simp [h])⟩

/-- The gang whose lanes have loaded (R233). -/
def loadedGang (s : State) (unit : Nat) (v : Invocation) (g : Gang) (m : MemFields) (lanes : List Nat) : Gang :=
  lanes.foldl (fun k i => regsPut k i m.rd (widthRegs m.width)
    (loadValue m (spaceRead s unit v m.space (laneAddr g i m).toNat (widthBytes m.width)))) g

/-! ## ST -/

theorem stOk_fields {m : MemFields} (ok : stOk m = true) : spaceOk m.space = true := by
  simp only [stOk, Bool.and_eq_true] at ok
  obtain ⟨⟨⟨⟨⟨⟨⟨space, -⟩, -⟩, -⟩, -⟩, -⟩, -⟩, -⟩ := ok
  exact space

theorem lanesOf_pairwise (mask : Nat) : (lanesOf mask).Pairwise (· < ·) := List.pairwise_lt_range.filter _

section
variable {inv : Nat} {v : Invocation} {space : Nat} (ok : storable space) (unit n : Nat) (addr value : Nat → Nat)
include ok

/-- Lanes that store in ascending order: what they leave, and what is read where no higher lane overlaps. -/
theorem storeLanes_stores (ls : List Nat) (ascending : ls.Pairwise (· < ·)) (s : State) (now : Current s inv v) :
    let t := ls.foldl (fun s i => spaceWrite s unit inv v space (addr i) n (value i)) s
    StoresTo unit inv v space (fun a => ∃ i ∈ ls, within (addr i) n a) s t ∧
      ∀ i ∈ ls, (∀ j ∈ ls, i < j → addr j + n ≤ addr i ∨ addr i + n ≤ addr j) →
        spaceBytes t unit inv v space (addr i) n = value i % 2 ^ (8 * n) := by
  induction ls generalizing s with
  | nil => exact ⟨.refl s, nofun⟩
  | cons i ls ih =>
    obtain ⟨first, sorted⟩ := List.pairwise_cons.mp ascending
    obtain ⟨one, read⟩ := spaceWrite_stores (unit := unit) ok now (addr i) n (value i)
    obtain ⟨others, reads⟩ := ih sorted _ (one.current now)
    refine ⟨(one.mono fun a h => ⟨i, List.mem_cons_self, h⟩).trans (others.mono fun a ⟨j, hj, h⟩ => ⟨j, List.mem_cons_of_mem i hj, h⟩),
      fun k hk apart => ?_⟩
    rcases List.mem_cons.mp hk with rfl | hk
    · refine (spaceBytes_congr fun b hb => others.bytes _ ?_).trans read
      rintro ⟨j, hj, low, high⟩
      have := apart j (List.mem_cons_of_mem k hj) (first j hj)
      omega
    · exact reads k hk (fun j hj => apart j (List.mem_cons_of_mem i hj))

end

/-! ## Atomics -/

/-- One lane's read-modify-write (R203). -/
def atomicLane (ref : GangRef) (m : MemFields) (src : Gang) (f : Nat → Nat → Option Nat) (v : Invocation) (p : State × Gang) (i : Nat) :
    State × Gang :=
  let n := widthBytes m.width
  let a := (laneAddr src i m).toNat
  let old := spaceBytes p.1 ref.unit src.inv v m.space a n
  let g := regsPut p.2 i m.rd (widthRegs m.width) old
  match f i old with
  | some new => (spaceWrite p.1 ref.unit src.inv v m.space a n new, if new ≠ old then progressed g else g)
  | none => (p.1, g)

theorem atomicLanes_cons (ref : GangRef) (m : MemFields) (src : Gang) (f : Nat → Nat → Option Nat) (p : State × Gang) (v : Invocation)
    (i : Nat) (rest : List Nat) :
    atomicLanes ref m src f p v (i :: rest) = atomicLanes ref m src f (atomicLane ref m src f v p i) v rest := by
  rw [atomicLanes, atomicLane]
  rfl

section
variable (ref : GangRef) (m : MemFields) (src : Gang) (f : Nat → Nat → Option Nat) (v : Invocation)

/-- The gang after one lane's turn has the old value in rd, and perhaps a stall count that starts again. -/
theorem atomicLane_gang (p : State × Gang) (i : Nat) : ∃ q b, (atomicLane ref m src f v p i).2 =
    { regsPut p.2 i m.rd (widthRegs m.width)
        (spaceBytes p.1 ref.unit src.inv v m.space (laneAddr src i m).toNat (widthBytes m.width)) with quiet := q, quietFresh := b } := by
  unfold atomicLane
  dsimp only
  split
  · split
    · exact ⟨0, true, rfl⟩
    · exact ⟨_, _, rfl⟩
  · exact ⟨_, _, rfl⟩

theorem regAt_atomicLane (fit : m.rd + widthRegs m.width ≤ 256) (p : State × Gang) (i j : Nat) {q : Nat} (hq : q < 256) :
    regAt (atomicLane ref m src f v p i).2 j q = if j = i ∧ m.rd ≤ q ∧ q < m.rd + widthRegs m.width then
      BitVec.ofNat 32 (spaceBytes p.1 ref.unit src.inv v m.space (laneAddr src i m).toNat (widthBytes m.width) / 2 ^ (32 * (q - m.rd)))
      else regAt p.2 j q := by
  obtain ⟨x, b, h⟩ := atomicLane_gang ref m src f v p i
  rw [h]
  exact regAt_regsPut p.2 i _ fit j hq

theorem regsVal_atomicLane (fit : m.rd + widthRegs m.width ≤ 256) (p : State × Gang) (i : Nat) :
    regsVal (atomicLane ref m src f v p i).2 i m.rd (widthRegs m.width) =
      spaceBytes p.1 ref.unit src.inv v m.space (laneAddr src i m).toNat (widthBytes m.width) % 2 ^ (32 * widthRegs m.width) := by
  obtain ⟨x, b, h⟩ := atomicLane_gang ref m src f v p i
  rw [h]
  exact regsVal_regsPut p.2 i _ fit

theorem atomicLane_frame (p : State × Gang) (i : Nat) : ∃ regs q b, (atomicLane ref m src f v p i).2 =
    { p.2 with regs := regs, quiet := q, quietFresh := b } := by
  obtain ⟨q, b, h⟩ := atomicLane_gang ref m src f v p i
  obtain ⟨regs, hr⟩ := regsPut_frame p.2 i m.rd (widthRegs m.width)
    (spaceBytes p.1 ref.unit src.inv v m.space (laneAddr src i m).toNat (widthBytes m.width))
  exact ⟨regs, q, b, by rw [h, hr]⟩

theorem atomicLanes_frame (ls : List Nat) (p : State × Gang) : ∃ regs q b, (atomicLanes ref m src f p v ls).2 =
    { p.2 with regs := regs, quiet := q, quietFresh := b } := by
  induction ls generalizing p with
  | nil => exact ⟨_, _, _, rfl⟩
  | cons i ls ih =>
    obtain ⟨r, q, b, h⟩ := atomicLane_frame ref m src f v p i
    obtain ⟨r', q', b', h'⟩ := ih (atomicLane ref m src f v p i)
    exact ⟨r', q', b', by rw [atomicLanes_cons, h', h]⟩

theorem regAt_atomicLanes_other (fit : m.rd + widthRegs m.width ≤ 256) (ls : List Nat) (p : State × Gang) {j q : Nat} (hq : q < 256)
    (other : j ∉ ls ∨ q < m.rd ∨ m.rd + widthRegs m.width ≤ q) :
    regAt (atomicLanes ref m src f p v ls).2 j q = regAt p.2 j q := by
  induction ls generalizing p with
  | nil => rfl
  | cons i ls ih =>
    rw [atomicLanes_cons, ih _ (other.imp_left (fun h k => h (List.mem_cons_of_mem i k))), regAt_atomicLane ref m src f v fit p i j hq,
      if_neg]
    rintro ⟨rfl, low, high⟩
    rcases other with h | h | h
    · exact h List.mem_cons_self
    · omega
    · omega

/-- Lanes whose function writes nothing leave memory, and have what it holds in rd. -/
theorem atomicLanes_read (fit : m.rd + widthRegs m.width ≤ 256) (a w : Nat) (ls : List Nat) (p : State × Gang)
    (same : ∀ j ∈ ls, (laneAddr src j m).toNat = a) (holds : spaceBytes p.1 ref.unit src.inv v m.space a (widthBytes m.width) = w)
    (none_ : ∀ j ∈ ls, f j w = none) : (atomicLanes ref m src f p v ls).1 = p.1 ∧
      ∀ j ∈ ls, regsVal (atomicLanes ref m src f p v ls).2 j m.rd (widthRegs m.width) = w % 2 ^ (32 * widthRegs m.width) := by
  induction ls generalizing p with
  | nil => exact ⟨rfl, nofun⟩
  | cons i ls ih =>
    have hi := same i List.mem_cons_self
    have memory : (atomicLane ref m src f v p i).1 = p.1 := by
      simp only [atomicLane, hi, holds, none_ i List.mem_cons_self]
    obtain ⟨stays, reads⟩ := ih (atomicLane ref m src f v p i) (fun j hj => same j (List.mem_cons_of_mem i hj)) (by rw [memory, holds])
      (fun j hj => none_ j (List.mem_cons_of_mem i hj))
    rw [atomicLanes_cons]
    refine ⟨stays.trans memory, fun j hj => ?_⟩
    by_cases tail : j ∈ ls
    · exact reads j tail
    · obtain rfl := (List.mem_cons.mp hj).resolve_right tail
      have value := regsVal_atomicLane ref m src f v fit p j
      rw [hi, holds] at value
      rw [← value]
      exact regsVal_congr (fun k hk => regAt_atomicLanes_other ref m src f v fit ls _ (by omega) (.inl tail))

variable {v} (ok : storable m.space)
include ok

theorem atomicLane_stores (p : State × Gang) (now : Current p.1 src.inv v) (i : Nat) : StoresTo ref.unit src.inv v m.space
    (within (laneAddr src i m).toNat (widthBytes m.width)) p.1 (atomicLane ref m src f v p i).1 := by
  unfold atomicLane
  dsimp only
  split
  · exact (spaceWrite_stores ok now _ _ _).1
  · exact .refl p.1

theorem atomicLanes_stores (ls : List Nat) (p : State × Gang) (now : Current p.1 src.inv v) : StoresTo ref.unit src.inv v m.space
    (fun a => ∃ i ∈ ls, within (laneAddr src i m).toNat (widthBytes m.width) a) p.1 (atomicLanes ref m src f p v ls).1 := by
  induction ls generalizing p with
  | nil => exact .refl p.1
  | cons i ls ih =>
    have one := atomicLane_stores ref m src f ok p now i
    rw [atomicLanes_cons]
    exact (one.mono fun a h => ⟨i, List.mem_cons_self, h⟩).trans
      ((ih _ (one.current now)).mono fun a ⟨j, hj, h⟩ => ⟨j, List.mem_cons_of_mem i hj, h⟩)

/-- A lane whose function writes leaves the new value in memory. -/
theorem spaceBytes_atomicLane (p : State × Gang) (now : Current p.1 src.inv v) {i new : Nat}
    (writes : f i (spaceBytes p.1 ref.unit src.inv v m.space (laneAddr src i m).toNat (widthBytes m.width)) = some new) :
    spaceBytes (atomicLane ref m src f v p i).1 ref.unit src.inv v m.space (laneAddr src i m).toNat (widthBytes m.width) =
      new % 2 ^ (8 * widthBytes m.width) := by
  simp only [atomicLane, writes]
  exact (spaceWrite_stores ok now _ _ _).2

end

theorem atomicOp_lt (op : Nat) {n old x : Nat} (ho : old < 2 ^ n) (hx : x < 2 ^ n) : atomicOp op n old x < 2 ^ n := by
  have either (p : Prop) [Decidable p] {a b : Nat} (ha : a < 2 ^ n) (hb : b < 2 ^ n) : (if p then a else b) < 2 ^ n := by
    split
    · exact ha
    · exact hb
  unfold atomicOp
  split
  · exact Nat.mod_lt _ (Nat.two_pow_pos n)
  · exact either _ ho hx
  · exact either _ hx ho
  · exact either _ ho hx
  · exact either _ hx ho
  · exact Nat.and_lt_two_pow _ hx
  · exact Nat.or_lt_two_pow ho hx
  · exact Nat.xor_lt_two_pow ho hx
  · exact hx

/-- The operations by number (R233). -/
theorem atomicOp_getD {op : Nat} (h : op ≤ 8) (n old x : Nat) : atomicOp op n old x =
    [(old + x) % 2 ^ n, if toInt n old ≤ toInt n x then old else x, if toInt n old ≤ toInt n x then x else old, min old x, max old x,
      Nat.land old x, Nat.lor old x, Nat.xor old x, x].getD op x := by
  interval_cases op <;> rfl

/-! ## One lane that writes -/

section
variable {ref : GangRef} {m : MemFields} {g : Gang} {v : Invocation} {u : State} {i : Nat} {f : Nat → Nat → Option Nat}
  (ok : storable m.space) (fit : m.rd + widthRegs m.width ≤ 256) (bits : 8 * widthBytes m.width = 32 * widthRegs m.width)
  (now : Current u g.inv v)
include ok fit bits now

/-- Of lanes that name one word the first writes and the others find what they do not expect: the first has the old value in rd,
the others the new one. -/
theorem atomicLanes_first {rest : List Nat} {new : Nat} (small : new < 2 ^ (8 * widthBytes m.width))
    (same : ∀ j ∈ rest, (laneAddr g j m).toNat = (laneAddr g i m).toNat) (first : i ∉ rest)
    (writes : f i (spaceBytes u ref.unit g.inv v m.space (laneAddr g i m).toNat (widthBytes m.width)) = some new)
    (none_ : ∀ j ∈ rest, f j new = none) :
    let a := (laneAddr g i m).toNat
    let p := atomicLanes ref m g f (u, g) v (i :: rest)
    spaceBytes p.1 ref.unit g.inv v m.space a (widthBytes m.width) = new ∧
      regsVal p.2 i m.rd (widthRegs m.width) = spaceBytes u ref.unit g.inv v m.space a (widthBytes m.width) ∧
      ∀ j ∈ rest, regsVal p.2 j m.rd (widthRegs m.width) = new := by
  intro a p
  have read : spaceBytes u ref.unit g.inv v m.space a (widthBytes m.width) < 2 ^ (8 * widthBytes m.width) := spaceRead_lt ..
  have memory := spaceBytes_atomicLane ref m g f ok (u, g) now writes
  rw [Nat.mod_eq_of_lt small] at memory
  obtain ⟨stays, reads⟩ := atomicLanes_read ref m g f v fit a new rest (atomicLane ref m g f v (u, g) i) same memory none_
  have step : p = atomicLanes ref m g f (atomicLane ref m g f v (u, g) i) v rest := atomicLanes_cons ..
  rw [step]
  refine ⟨by rw [stays]; exact memory, ?_, fun j hj => (reads j hj).trans (Nat.mod_eq_of_lt (bits ▸ small))⟩
  rw [regsVal_congr fun k hk => regAt_atomicLanes_other ref m g f v fit rest _ (by omega) (.inl first)]
  exact (regsVal_atomicLane ref m g f v fit (u, g) i).trans (Nat.mod_eq_of_lt (bits ▸ read))

/-- ATOM of one lane: the old value in rd, the new one in memory. -/
theorem atomicLanes_one {op x : Nat} (hx : x < 2 ^ (8 * widthBytes m.width))
    (hf : ∀ old, f i old = some (atomicOp op (8 * widthBytes m.width) old x)) :
    let a := (laneAddr g i m).toNat
    let old := spaceBytes u ref.unit g.inv v m.space a (widthBytes m.width)
    let p := atomicLanes ref m g f (u, g) v [i]
    regsVal p.2 i m.rd (widthRegs m.width) = old ∧
      spaceBytes p.1 ref.unit g.inv v m.space a (widthBytes m.width) = atomicOp op (8 * widthBytes m.width) old x := by
  intro a old p
  obtain ⟨memory, value, -⟩ := atomicLanes_first ok fit bits now (ref := ref) (atomicOp_lt op (spaceRead_lt ..) hx)
    (List.forall_mem_nil _) List.not_mem_nil (hf old) (List.forall_mem_nil _)
  exact ⟨value, memory⟩

end

theorem atomOk_fields {m : MemFields} {op : Nat} (ok : atomOk m op = true) :
    spaceOk m.space = true ∧ m.rd + widthRegs m.width ≤ 256 ∧ 8 * widthBytes m.width = 32 * widthRegs m.width ∧ op ≤ 8 := by
  simp only [atomOk, regAligned, Bool.and_eq_true, decide_eq_true_eq, Bool.or_eq_true] at ok
  obtain ⟨⟨⟨⟨⟨⟨⟨⟨⟨⟨space, -⟩, -⟩, width⟩, -, fit⟩, -⟩, -⟩, -⟩, op8⟩, -⟩, -⟩ := ok
  exact ⟨space, fit, by rcases width with h | h <;> rw [h] <;> rfl, op8⟩

theorem casOk_fields {m : MemFields} (ok : casOk m = true) :
    spaceOk m.space = true ∧ m.rd + widthRegs m.width ≤ 256 ∧ 8 * widthBytes m.width = 32 * widthRegs m.width := by
  simp only [casOk, regAligned, Bool.and_eq_true, decide_eq_true_eq, Bool.or_eq_true] at ok
  obtain ⟨⟨⟨⟨⟨⟨⟨⟨⟨⟨space, -⟩, -⟩, width⟩, -, fit⟩, -⟩, -⟩, -⟩, -⟩, -⟩, -⟩ := ok
  exact ⟨space, fit, by rcases width with h | h <;> rw [h] <;> rfl⟩

/-! ## Each access as the obligation states it -/

section
variable {s : State} {ref : GangRef} {v : Invocation} {g : Gang} {mask : Nat} (T : GangTurn s ref v g mask) {m : MemFields}
include T

theorem GangTurn.unit : 24 ≤ ref.unit ∧ ref.unit ≤ 71 := issuing_unit T.issues

theorem GangTurn.ld (ok : ldOk m = true) (pass : accessFault s ref.unit v g mask m false = none) : ∃ t h,
    exec (.ld ref m) s = .next t ∧ gangAt t ref = some h ∧
    (∀ i ∈ lanesOf mask, regsVal h i m.rd (widthRegs m.width) =
      (let x := spaceRead s ref.unit v m.space (laneAddr g i m).toNat (widthBytes m.width)
       if m.sx then (BitVec.signExtend 32 (BitVec.ofNat (8 * widthBytes m.width) x)).toNat else x)) ∧
    (∀ i q, i < 32 → q < 256 → (i ∉ lanesOf mask ∨ q < m.rd ∨ m.rd + widthRegs m.width ≤ q) → regAt h i q = regAt g i q) ∧
    Advanced g h mask ∧ { h with regs := g.regs, pcs := g.pcs } = g ∧ GangFrame s t ref := by
  obtain ⟨width, fit, short⟩ := ldOk_fields ok
  obtain ⟨u, counted, ran⟩ := T.access_goes (c := .ld ref m) rfl ok pass
  obtain ⟨regs, frame⟩ := foldRegs_frame (lanesOf mask) g m.rd (widthRegs m.width)
    (fun i => loadValue m (spaceRead u ref.unit v m.space (laneAddr g i m).toNat (widthBytes m.width)))
  refine ⟨_, _, ran, gangAt_gangPut_same _ _ _ T.unit, fun i hi => ?_, fun i q _ hq other => ?_, ?_, ?_,
    gangPut_frame_counted counted ref _ T.unit⟩
  · refine (regsVal_foldRegs g _ fit hi).trans ?_
    rw [spaceRead_congr (compute_of_counted counted)]
    exact loadValue_mod width short (spaceRead_lt ..)
  · refine (regAt_foldRegs (lanesOf mask) g _ fit i hq).trans (if_neg ?_)
    rintro ⟨lane, low, high⟩
    rcases other with h | h | h
    · exact h lane
    · omega
    · omega
  · dsimp only
    rw [frame]
    exact advance_advanced { g with regs := regs } mask
  · dsimp only
    rw [frame]
    rfl

theorem GangTurn.current {u : State} (counted : OnlyChanges [.counters, .sticky] s u) : Current u g.inv v :=
  ⟨v.window, by rw [compute_of_counted counted, issuing_inv T.issues]⟩

theorem GangTurn.spaceBytes_counted {u : State} (counted : OnlyChanges [.counters, .sticky] s u) (space a n : Nat) :
    spaceBytes u ref.unit g.inv v space a n = spaceRead s ref.unit v space a n := by
  rw [spaceBytes, compute_of_counted counted, issuing_inv T.issues, Option.getD_some, spaceRead_congr (compute_of_counted counted)]

theorem GangTurn.st (ok : stOk m = true) (pass : accessFault s ref.unit v g mask m true = none) :
    let n := widthBytes m.width
    let addr := fun i => (laneAddr g i m).toNat
    let hit := fun a : Nat => ∃ i ∈ lanesOf mask, addr i ≤ a ∧ a < addr i + n
    ∃ t h, exec (.st ref m) s = .next t ∧ gangAt t ref = some h ∧
      (∀ i ∈ lanesOf mask, (∀ j ∈ lanesOf mask, i < j → addr j + n ≤ addr i ∨ addr i + n ≤ addr j) →
        spaceBytes t ref.unit g.inv v m.space (addr i) n = regsVal g i m.rb (widthRegs m.width) % 2 ^ (8 * n)) ∧
      (∀ a, ¬hit a → spaceByte t ref.unit g.inv v m.space a = spaceByte s ref.unit g.inv v m.space a) ∧
      Advanced g h mask ∧ h.regs = g.regs ∧ h.quiet = 0 ∧ { h with pcs := g.pcs, quiet := g.quiet, quietFresh := g.quietFresh } = g ∧
      OtherSpaces s t ref g.inv v m.space hit := by
  intro n addr hit
  obtain ⟨u, counted, ran⟩ := T.access_goes (c := .st ref m) rfl ok pass
  obtain ⟨stores, reads⟩ := storeLanes_stores (storable_of_access pass T.lanes_ne (stOk_fields ok)) ref.unit n addr
    (fun i => regsVal g i m.rb (widthRegs m.width)) (lanesOf mask) (lanesOf_pairwise mask) u (T.current counted)
  obtain ⟨gang, others, after, stand⟩ := stores.leaves (h := advance (progressed g) (lanesOf mask)) counted (issuing_inv T.issues) T.unit
  exact ⟨_, _, ran, gang, fun i hi apart => (after _ _).trans (reads i hi apart), stand, advance_advanced (progressed g) mask, rfl, rfl,
    rfl, others⟩

/-- Read-modify-writes of the lanes: the registers and the bytes are those of the lanes' turns, and nothing else changes. -/
theorem GangTurn.atomics {c : Instr} {ok load : Bool} {f : Nat → Nat → Option Nat} {act : State → Invocation → Gang → List Nat → State × Gang}
    (run : exec c s = .next (gangAccess s ref ok m true load act)) (acts : ∀ u, act u v g (lanesOf mask) =
      atomicLanes ref m g f (u, g) v (lanesOf mask)) (valid : ok = true) (space : spaceOk m.space = true)
    (fit : m.rd + widthRegs m.width ≤ 256) (pass : accessFault s ref.unit v g mask m true = none) :
    let n := widthBytes m.width
    let k := widthRegs m.width
    let addr := fun i => (laneAddr g i m).toNat
    let hit := fun a : Nat => ∃ i ∈ lanesOf mask, addr i ≤ a ∧ a < addr i + n
    ∃ u t h, OnlyChanges [.counters, .sticky] s u ∧ exec c s = .next t ∧ gangAt t ref = some h ∧
      (∀ i r, regsVal h i r k = regsVal (atomicLanes ref m g f (u, g) v (lanesOf mask)).2 i r k) ∧
      (∀ a, spaceBytes t ref.unit g.inv v m.space a n =
        spaceBytes (atomicLanes ref m g f (u, g) v (lanesOf mask)).1 ref.unit g.inv v m.space a n) ∧
      (∀ i q, i < 32 → q < 256 → (i ∉ lanesOf mask ∨ q < m.rd ∨ m.rd + k ≤ q) → regAt h i q = regAt g i q) ∧
      (∀ a, ¬hit a → spaceByte t ref.unit g.inv v m.space a = spaceByte s ref.unit g.inv v m.space a) ∧
      Advanced g h mask ∧ { h with regs := g.regs, pcs := g.pcs, quiet := g.quiet, quietFresh := g.quietFresh } = g ∧
      OtherSpaces s t ref g.inv v m.space hit := by
  intro n k addr hit
  obtain ⟨u, counted, ran⟩ := T.access_goes run valid pass
  rw [acts] at ran
  have stores := atomicLanes_stores ref m g f (storable_of_access pass T.lanes_ne space) (lanesOf mask) (u, g) (T.current counted)
  obtain ⟨gang, others, after, stand⟩ := stores.leaves
    (h := advance (atomicLanes ref m g f (u, g) v (lanesOf mask)).2 (lanesOf mask)) counted (issuing_inv T.issues) T.unit
  obtain ⟨regs, q, b, frame⟩ := atomicLanes_frame ref m g f v (lanesOf mask) (u, g)
  refine ⟨u, _, _, counted, ran, gang, fun _ _ => rfl, fun a => after a n,
    fun i q _ hq other => regAt_atomicLanes_other ref m g f v fit (lanesOf mask) (u, g) hq other, stand, ?_, ?_, others⟩
  · rw [frame]
    exact advance_advanced { g with regs := regs, quiet := q, quietFresh := b } mask
  · rw [frame]
    rfl

end

end Sys2Proof.Machine
end

open Sys2Proof Sys2Proof.Machine in
/-- Settles O45: `accessFault` decides whether the lanes act at all; loads write the registers `rd` alone, and what stores and atomics
change is a run of `spaceWrite`s, each of which changes the bytes it names in one memory (`spaceWrite_stores`). -/
theorem gangMemoryAccesses : Obligations.GangMemoryAccesses := by
  unfold Obligations.GangMemoryAccesses
  intro s ref v g mask T m n k addr hit
  refine ⟨fun c store which f fault => ?_, accessFault_none s ref.unit v g mask m, T.ld, T.st, fun op ok pass => ?_, fun ok pass => ?_⟩
  · rcases which with ⟨h, ok⟩ | ⟨h, ok⟩ | ⟨op, h, ok⟩ | ⟨h, ok⟩
    · obtain ⟨rfl, rfl⟩ := Prod.mk.inj (List.mem_singleton.mp h)
      exact T.access_faults rfl ok fault
    · obtain ⟨rfl, rfl⟩ := Prod.mk.inj (List.mem_singleton.mp h)
      exact T.access_faults rfl ok fault
    · obtain ⟨rfl, rfl⟩ := Prod.mk.inj h
      exact T.access_faults rfl ok fault
    · obtain ⟨rfl, rfl⟩ := Prod.mk.inj h
      exact T.access_faults rfl ok fault
  · obtain ⟨space, fit, bits, op8⟩ := atomOk_fields ok
    obtain ⟨u, t, h, counted, ran, gang, value, byte, regs, stand, advanced, frame, others⟩ :=
      T.atomics (c := .atom ref m op) rfl (fun _ => rfl) ok space fit pass
    refine ⟨t, h, ran, gang, fun i one => ?_, regs, stand, advanced, frame, others⟩
    intro old x
    have hx : x < 2 ^ (8 * n) := by
      rw [bits]
      exact regsVal_lt ..
    obtain ⟨inReg, inMemory⟩ := atomicLanes_one (storable_of_access pass T.lanes_ne space) fit bits (T.current counted) (ref := ref)
      (i := i) (f := fun i old => some (atomicOp op (8 * n) old (regsVal g i m.rb k))) hx (fun _ => rfl)
    rw [T.spaceBytes_counted counted] at inReg inMemory
    rw [value, byte, one]
    exact ⟨inReg, inMemory.trans (atomicOp_getD op8 ..)⟩
  · obtain ⟨space, fit, bits⟩ := casOk_fields ok
    obtain ⟨u, t, h, counted, ran, gang, value, byte, regs, stand, advanced, frame, others⟩ :=
      T.atomics (c := .cas ref m) rfl (fun _ => rfl) ok space fit pass
    refine ⟨t, h, ran, gang, fun i rest old lanes same holds expects differs => ?_, regs, stand, advanced, frame, others⟩
    have first : i ∉ rest := fun again =>
      lt_irrefl i ((List.pairwise_cons.mp (lanes ▸ lanesOf_pairwise mask)).1 i again)
    have new : regsVal g i (m.rb + k) k < 2 ^ (8 * n) := by
      rw [bits]
      exact regsVal_lt ..
    have found := (T.spaceBytes_counted counted m.space (addr i) n).trans holds
    obtain ⟨inMemory, inReg, inRest⟩ := atomicLanes_first (storable_of_access pass T.lanes_ne space) fit bits (T.current counted)
      (ref := ref) (f := fun i old => if old = regsVal g i m.rb k then some (regsVal g i (m.rb + k) k) else none) new same first
      (if_pos (found.trans (expects i List.mem_cons_self).symm))
      (fun j hj => if_neg (fun again => differs (again.trans (expects j (List.mem_cons_of_mem i hj)))))
    rw [lanes] at value byte
    refine ⟨(byte _).trans inMemory, (value i _).trans (inReg.trans found), fun j hj => (value j _).trans (inRest j hj)⟩

section
/-!
SUPPORT. Sorting, the compute state where a command ends (R18, R191), and gangs that are stopped (R201, R202, R208).
-/

namespace Sys2Proof.Machine

/-! ## Sorting -/

theorem length_insertBy {α : Type} (le : α → α → Bool) (x : α) (l : List α) : (insertBy le x l).length = l.length + 1 := by
  induction l with
  | nil => rfl
  | cons y l ih =>
    unfold insertBy
    split
    · rfl
    · rw [List.length_cons, ih, List.length_cons]

theorem length_sortBy {α : Type} (le : α → α → Bool) (l : List α) : (sortBy le l).length = l.length := by
  induction l with
  | nil => rfl
  | cons x l ih => exact (length_insertBy le x _).trans (congrArg (· + 1) ih)

/-! ## The compute state where a command ends -/

/-- Of the compute state the end of a family touches the invocations, their gangs, and the work of the looms. -/
theorem freeFamily_compute (s : State) (i : Nat) : { (freeFamily s i).compute with
    cores := s.compute.cores, invs := s.compute.invs, directs := s.compute.directs, looms := s.compute.looms } = s.compute := rfl

theorem freeFamily_invs (s : State) (i : Nat) :
    (freeFamily s i).compute.invs = s.compute.invs.filter (fun p => !(family s i).contains p.2.entry) := rfl

/-- The cores keep their partitions and what those hold. -/
theorem coreOf_freeFamily (s : State) (i u : Nat) : (coreOf (freeFamily s i) u).parts = (coreOf s u).parts ∧
    (coreOf (freeFamily s i) u).localMem = (coreOf s u).localMem := by
  let ended := (s.compute.invs.filter (fun p => (family s i).contains p.2.entry)).map (fun p => p.1)
  have cores : (freeFamily s i).compute.cores = s.compute.cores.map (fun p =>
      (p.1, { p.2 with gangs := p.2.gangs.filter (fun g => !ended.contains g.2.inv) })) := rfl
  simp only [coreOf, tgetD, cores, tget_map_value s.compute.cores
    (fun c => { c with gangs := c.gangs.filter (fun g => !ended.contains g.2.inv) })]
  cases tget s.compute.cores (u - 24) <;> exact ⟨rfl, rfl⟩

/-- No gang of an invocation stays whose entry goes. -/
theorem gangsOf_freeFamily {s : State} {i inv : Nat} {v : Invocation} (hv : tget s.compute.invs inv = some v)
    (hi : v.entry ∈ family s i) : gangsOf (freeFamily s i) inv = [] := by
  let ended := (s.compute.invs.filter (fun p => (family s i).contains p.2.entry)).map (fun p => p.1)
  have gone : inv ∈ ended :=
    List.mem_map.mpr ⟨(inv, v), List.mem_filter.mpr ⟨tget_mem hv, List.contains_iff_mem.mpr hi⟩, rfl⟩
  have cores : (freeFamily s i).compute.cores = s.compute.cores.map (fun p =>
      (p.1, { p.2 with gangs := p.2.gangs.filter (fun g => !ended.contains g.2.inv) })) := rfl
  simp only [gangsOf, cores, List.flatMap_map, List.flatMap_eq_nil_iff, List.map_eq_nil_iff, List.filter_filter, List.filter_eq_nil_iff,
    Bool.and_eq_true, decide_eq_true_eq, not_and]
  rintro c - g - rfl
  simpa using gone

section
variable {u : State} {i sq cid : Nat} {e : Entry} (he : entryAt u i = some e) (ho : e.origin = .host sq cid) (hr : e.state ≠ .replying)
include he ho hr

theorem finishData_compute (st : Status) (dw0 dw1 : Nat) (data : List Nat) (dma : Bool) :
    (finishData u i st dw0 dw1 data dma).compute = (freeFamily u i).compute := by
  rw [finishData_line u i sq cid e st dw0 dw1 data dma he ho hr]
  rfl

theorem finish_compute (st : Status) (dw0 dw1 : Nat) : (finish u i st dw0 dw1).compute = (freeFamily u i).compute :=
  finishData_compute he ho hr st dw0 dw1 [] false

end

/-! ## Gangs that are stopped -/

theorem gangAt_unit {s : State} {ref : GangRef} {g : Gang} (h : gangAt s ref = some g) : 24 ≤ ref.unit ∧ ref.unit ≤ 71 := by
  unfold gangAt at h
  split at h
  · assumption
  · cases h

/-- Gangs stopped one after another, each with its fault. -/
def stopGangs (f : Gang → GangFault) (s : State) (xs : List (Nat × Nat × Gang)) : State :=
  xs.foldl (fun s x => faultWith s ⟨x.1, x.2.1⟩ x.2.2 (f x.2.2)) s

/-- The gangs of a list, which names each slot once or with one gang, are stopped and numbered; the others stand. -/
theorem stopGangs_leaves (f : Gang → GangFault) (xs : List (Nat × Nat × Gang)) (s : State)
    (one : ∀ x ∈ xs, ∀ y ∈ xs, x.1 = y.1 → x.2.1 = y.2.1 → x = y) (units : ∀ x ∈ xs, 24 ≤ x.1 ∧ x.1 ≤ 71) :
    let t := stopGangs f s xs
    (∀ ref g, (ref.unit, ref.slot, g) ∈ xs → ∃ n, s.compute.faultNo ≤ n ∧ n < t.compute.faultNo ∧
      gangAt t ref = some { g with fault := some (f g), faultNo := n, faultChime := chimeNow s }) ∧
    (∀ ref : GangRef, (∀ g, (ref.unit, ref.slot, g) ∉ xs) → gangAt t ref = gangAt s ref) ∧
    { t.compute with cores := s.compute.cores, faultNo := s.compute.faultNo } = s.compute ∧ s.compute.faultNo ≤ t.compute.faultNo ∧
    OnlyChanges [.compute] s t := by
  induction xs generalizing s with
  | nil => exact ⟨nofun, fun _ _ => rfl, rfl, le_rfl, .refl _ s⟩
  | cons x xs ih =>
    obtain ⟨unit, slot, k⟩ := x
    let a := faultWith s ⟨unit, slot⟩ k (f k)
    have step : stopGangs f s ((unit, slot, k) :: xs) = stopGangs f a xs := rfl
    rw [step]
    obtain ⟨gang, ⟨others, -⟩, rest, number, -⟩ :=
      faultWith_leaves (.refl _ s) ⟨unit, slot⟩ k (f k) (units _ List.mem_cons_self)
    obtain ⟨stopped_, stand, after, more, only⟩ := ih a (fun y hy z hz => one y (List.mem_cons_of_mem _ hy) z (List.mem_cons_of_mem _ hz))
      (fun y hy => units y (List.mem_cons_of_mem _ hy))
    have count : a.compute.faultNo = s.compute.faultNo + 1 := number
    have compute : { a.compute with cores := s.compute.cores, faultNo := s.compute.faultNo } = s.compute := rest
    have chime : chimeNow a = chimeNow s := rfl
    refine ⟨fun ref g hg => ?_, fun ref hn => ?_, ?_, by omega, (faultWith_only s _ k _).trans only⟩
    · by_cases tail : ∃ h, (ref.unit, ref.slot, h) ∈ xs
      · obtain ⟨h, hh⟩ := tail
        cases one _ hg _ (List.mem_cons_of_mem _ hh) rfl rfl
        obtain ⟨n, low, high, at_⟩ := stopped_ ref g hh
        exact ⟨n, by omega, high, chime ▸ at_⟩
      · have same : (ref.unit, ref.slot, g) = (unit, slot, k) := (List.mem_cons.mp hg).resolve_right (fun h => tail ⟨g, h⟩)
        cases same
        exact ⟨s.compute.faultNo, le_rfl, by omega, (stand ref (not_exists.mp tail)).trans gang⟩
    · refine (stand ref (fun g h => hn g (List.mem_cons_of_mem _ h))).trans (others ref (fun h => ?_))
      exact hn k (h ▸ List.mem_cons_self)
    · exact (congrArg (fun c => { c with cores := s.compute.cores, faultNo := s.compute.faultNo }) after).trans compute

/-- The end of a barrier's limit stops the gangs that have a lane waiting at it. -/
theorem timeOutBarrier_eq (s : State) (inv : Nat) (b : Barrier) :
    let lanes := fun g : Gang => (g.blocked.filter (fun p => waitsAt b p.2)).map (fun p => p.1)
    timeOutBarrier inv s b = stopGangs (fun g => ⟨0x02, maskOf (lanes g), 0, 256 * b.scope + b.ident⟩) s ((gangsOf s inv).filter
      (fun x => !(lanes x.2.2 = [] || !barrierHolds b x.1 x.2.2 || x.2.2.fault.isSome))) := by
  intro lanes
  rw [stopGangs, List.foldl_filter]
  simp only [timeOutBarrier, Bool.not_eq_true', ← Bool.not_eq_true, ite_not]
  rfl

end Sys2Proof.Machine
end

section
/-!
SUPPORT. The entry of a gang fault in the Kernel Fault log (R208, R209, Table 8.8).
-/

namespace Sys2Proof.Machine

/-- The drive once a gang fault has been noted: one more entry in a log of at most 64, event 6, and the core's fault counter. -/
def faultNoted (s : State) (unit : Nat) (e : KernelFaultEntry) : State :=
  let log := s.compute.faultLog ++ [e]
  count (raiseEvent { s with compute := { s.compute with
    faultLog := log.drop (log.length - 64), faultsWritten := s.compute.faultsWritten + 1 } } 6) (0x6100 + unit) 4 1

theorem faultNoted_compute (s : State) (unit : Nat) (e : KernelFaultEntry) : (faultNoted s unit e).compute = { s.compute with
    faultLog := (s.compute.faultLog ++ [e]).drop ((s.compute.faultLog ++ [e]).length - 64)
    faultsWritten := s.compute.faultsWritten + 1 } :=
  (count_compute _ _ 4 1).trans (raiseEvent_only _ 6 .compute (by decide))

theorem faultNoted_only (s : State) (unit : Nat) (e : KernelFaultEntry) :
    OnlyChanges [.compute, .host, .counters, .sticky] s (faultNoted s unit e) := by
  have raised : OnlyChanges [.compute, .host] s (raiseEvent { s with compute := { s.compute with
      faultLog := (s.compute.faultLog ++ [e]).drop ((s.compute.faultLog ++ [e]).length - 64)
      faultsWritten := s.compute.faultsWritten + 1 } } 6) := (only_compute s _).comp (raiseEvent_only _ 6)
  exact raised.comp (count_only _ _ 4 1)

theorem faultLog_getLast (log : List KernelFaultEntry) (e : KernelFaultEntry) :
    ((log ++ [e]).drop ((log ++ [e]).length - 64)).getLast? = some e := by
  rw [List.getLast?_drop, if_neg (by rw [List.length_append]; simp only [List.length_singleton]; omega), List.getLast?_concat]

theorem gangFault_eq {s : State} {inv : Nat} {v : Invocation} {x : Nat × Nat × Gang} {rest : List (Nat × Nat × Gang)}
    (up : stopped s = false) (hv : tget s.compute.invs inv = some v)
    (first : sortBy (fun (a b : Nat × Nat × Gang) => decide (a.2.2.faultNo ≤ b.2.2.faultNo))
      ((gangsOf s inv).filter (fun x => x.2.2.fault.isSome && decide (x.2.2.faultChime < chimeNow s))) = x :: rest) :
    ∃ part, exec (.gangFault inv) s = .next (failRequest
      (faultNoted (drawFree s).2 x.1 (faultEntry s v x (x.2.2.fault.getD ⟨0, 0, 0, 0⟩) rest.length part)) v.entry .kernelFault
      (s.compute.faultsWritten % 2 ^ 32)) := by
  have others : ((gangsOf s inv).filter (fun x => x.2.2.fault.isSome && decide (x.2.2.faultChime < chimeNow s))).length - 1 =
      rest.length := by rw [← length_sortBy, first, List.length_cons, Nat.add_sub_cancel]
  refine ⟨(drawFree s).1 % max 1 (chimeCycles (drawFree s).2), ?_⟩
  show execGangFault inv s = _
  simp only [execGangFault, hv, first, up, others]
  rfl

end Sys2Proof.Machine
end

open Sys2Proof Sys2Proof.Machine in
/-- Settles O49: the gangs of a fault or of a barrier's limit are stopped one after another (`stopGangs_leaves`); the fault that was
detected first is noted in the log, and the end of the command's family takes the gangs of its invocation away. -/
theorem gangsFaultAndEnd : Obligations.GangsFaultAndEnd := by
  unfold Obligations.GangsFaultAndEnd
  refine ⟨fun s ref g up hg sound => ⟨fun young => ?_, fun old => ?_⟩, fun s inv scope ident v b up hv late placed => ?_,
    fun s inv sq cid v x rest up tally hv stands first => ?_⟩
  · show execGangStall ref s = _
    simp [execGangStall, hg, up, sound, young]
  · obtain ⟨gang, only, rest, number, parts⟩ := faultWith_leaves (.refl _ s) ref g ⟨0x01, runningLanes s g, 0, odVal s 0x2501 0⟩ (gangAt_unit hg)
    refine ⟨count (faultWith s ref g ⟨0x01, runningLanes s g, 0, odVal s 0x2501 0⟩) (0x6100 + ref.unit) 8 1, ?_,
      (gangAt_count ..).trans gang, only.of_cores rfl (congrArg Compute.cores (count_compute ..)), ?_, ?_,
      parts.comp (count_only _ _ 8 1)⟩
    · show execGangStall ref s = _
      simp only [execGangStall, hg, up, sound, Nat.not_lt.mpr old]
      rfl
    · rw [count_compute]
      exact rest
    · rw [count_compute]
      exact number
  · intro lanes hit
    obtain ⟨-, hb⟩ := List.mem_filter.mp (late ▸ List.mem_singleton_self b)
    simp only [Bool.and_eq_true, decide_eq_true_eq] at hb
    obtain ⟨⟨rfl, rfl⟩, -⟩ := hb
    let waits := (gangsOf s inv).filter (fun x => !(lanes x.2.2 = [] || !barrierHolds b x.1 x.2.2 || x.2.2.fault.isSome))
    have ran : exec (.barrierTimeout inv b.scope b.ident) s = .next (timeOutBarrier inv s b) := by
      show execBarrierTimeout inv b.scope b.ident s = _
      simp only [execBarrierTimeout, hv, up, late]
      rfl
    have mem (ref : GangRef) (g : Gang) : (ref.unit, ref.slot, g) ∈ waits ↔ hit ref g := by
      simp [waits, hit, List.mem_filter, and_assoc]
    have at_ (x : Nat × Nat × Gang) (hx : x ∈ waits) : gangAt s ⟨x.1, x.2.1⟩ = some x.2.2 := placed x (List.mem_filter.mp hx).1
    obtain ⟨stopped_, stand, after, -, only⟩ := stopGangs_leaves (fun g => ⟨0x02, maskOf (lanes g), 0, 256 * b.scope + b.ident⟩) waits s
      (fun x hx y hy unit slot => Prod.ext unit (Prod.ext slot (Option.some.inj (by rw [← at_ x hx, ← at_ y hy, unit, slot]))))
      (fun x hx => gangAt_unit (at_ x hx))
    rw [timeOutBarrier_eq] at ran
    exact ⟨_, ran, fun ref g _ h => stopped_ ref g ((mem ref g).mpr h),
      fun ref h => stand ref (fun g hg => h g (at_ _ hg) ((mem ref g).mp hg)), after, only⟩
  · obtain ⟨found, e, he, ho, hr⟩ := stands
    obtain ⟨part, ran⟩ := gangFault_eq up hv first
    have bad : x ∈ (gangsOf s inv).filter (fun x => x.2.2.fault.isSome && decide (x.2.2.faultChime < chimeNow s)) :=
      mem_of_mem_sortBy (first ▸ List.mem_cons_self)
    obtain ⟨f, hf⟩ := Option.isSome_iff_exists.mp ((Bool.and_eq_true _ _).mp (List.mem_filter.mp bad).2).1
    rw [hf, Option.getD_some] at ran
    let u := faultNoted (drawFree s).2 x.1 (faultEntry s v x f rest.length part)
    have only : OnlyChanges [.free, .compute, .host, .counters, .sticky] s u := (drawFree_only s).comp (faultNoted_only _ _ _)
    have compute : u.compute = _ := faultNoted_compute ..
    have entry : entryAt u v.entry = some e := (entryAt_congr (only .tally (by decide)) _).trans he
    rw [failRequest_host (rootOf_root entry (tally.root he ho) 4) entry ho] at ran
    have ended := finish_compute entry ho hr .kernelFault (s.compute.faultsWritten % 2 ^ 32) 0
    have noted : Undisturbed [.counters, .sticky, .free, .host] s u :=
      ⟨only.mono (by decide), congrArg Ledger.map (only .ledger (by decide)), congrArg Flash.pages (only .flash (by decide)),
        (congrArg Compute.slm compute).trans rfl, fun h => absurd (by decide) h⟩
    refine ⟨_, f, part, ran, completes_finish found entry ho hr .., hf, ?_, ?_, ?_, ?_, ?_, fun n => ?_,
      noted.trans ((finish_undisturbed ..).mono (by decide))⟩
    · rw [ended]
      exact (congrArg (fun c => c.faultLog.getLast?) compute).trans (faultLog_getLast ..)
    · rw [ended]
      exact congrArg Compute.faultsWritten compute
    · rw [ended]
      refine (congrArg (fun c => c.faultLog.length) compute).trans_le ?_
      simp only [List.length_drop]
      omega
    · rw [show gangsOf (finish u v.entry .kernelFault (s.compute.faultsWritten % 2 ^ 32) 0) inv = gangsOf (freeFamily u v.entry) inv by
        simp only [gangsOf, ended]]
      exact gangsOf_freeFamily ((congrArg (fun c => tget c.invs inv) compute).trans hv) (mem_family_self entry)
    · rw [ended]
      show u.compute.programs = _
      exact (congrArg Compute.programs compute).trans rfl
    · rw [coreOf_congr (congrArg Compute.cores ended), (coreOf_freeFamily u v.entry n).1]
      exact congrArg Core.parts (coreOf_congr ((congrArg Compute.cores compute).trans rfl) n)

section
/-!
SUPPORT. Programs and invocations: what a translation leaves, the order of a list that is sorted, how an invocation is added and how its
start ends (R190, R224 to R227).
-/

namespace Sys2Proof.Machine

/-! ## The least of a sorted list -/

/-- A list that is sorted by a total order begins with its least. -/
theorem sortBy_head_le {α : Type} {le : α → α → Bool} (total : ∀ a b, le a b = true ∨ le b a = true)
    (trans : ∀ a b c, le a b = true → le b c = true → le a c = true) {x : α} {l : List α} (h : (sortBy le l).head? = some x) :
    x ∈ l ∧ ∀ y ∈ l, le x y = true := by
  refine ⟨mem_of_mem_sortBy (List.mem_of_head? h), ?_⟩
  induction l generalizing x with
  | nil => cases h
  | cons a l ih =>
    replace h : (insertBy le a (sortBy le l)).head? = some x := h
    cases hs : sortBy le l with
    | nil =>
      have none_ : l = [] := List.eq_nil_of_length_eq_zero (by rw [← length_sortBy le, hs]; rfl)
      rw [hs] at h
      cases h
      subst none_
      exact List.forall_mem_singleton.mpr ((total a a).elim id id)
    | cons z zs =>
      have least := ih (x := z) (by rw [hs]; rfl)
      rw [hs, insertBy] at h
      intro y hy
      split at h
      · next first =>
        cases h
        rcases List.mem_cons.mp hy with rfl | hy
        · exact (total y y).elim id id
        · exact trans _ _ _ first (least y hy)
      · next later =>
        cases h
        rcases List.mem_cons.mp hy with rfl | hy
        · exact (total _ _).resolve_right later
        · exact least y hy

/-! ## Programs -/

theorem programOf_programMod (s : State) (p : Nat) (f : Program → Program) : programOf (programMod s p f) p = f (programOf s p) :=
  tgetD_tput_same ..

theorem programOf_programMod_other (s : State) {p q : Nat} (h : q ≠ p) (f : Program → Program) :
    programOf (programMod s p f) q = programOf s q := tgetD_tput_other _ _ _ _ _ h

/-- The program with the translation of its code (R190, R225). -/
def translated (p : Program) : Program := { p with digest := headerDigest p, physRegs := physRegsOf (headerDigest p) }

/-- A translation that is put into the program and counted. -/
theorem count_translated (s : State) (p k : Nat) (cache : List (Nat × Nat)) :
    let d := headerDigest (programOf s p)
    let t := count (programMod { s with compute := { s.compute with cache := cache } } p
      (fun q => { q with digest := d, physRegs := physRegsOf d })) 0x600C k 1
    { t.compute with programs := s.compute.programs, cache := s.compute.cache } = s.compute ∧
    programOf t p = translated (programOf s p) ∧ (∀ q, q ≠ p → programOf t q = programOf s q) ∧
    OnlyChanges [.compute, .counters, .sticky] s t := by
  intro d t
  let u := programMod { s with compute := { s.compute with cache := cache } } p (fun q => { q with digest := d, physRegs := physRegsOf d })
  have compute : t.compute = u.compute := count_compute u _ k 1
  have only : OnlyChanges [.compute] s u := (only_compute s _).trans (programMod_only _ p _)
  refine ⟨by rw [compute]; rfl, ?_, fun q hq => ?_, only.comp (count_only u _ k 1)⟩
  · exact (programOf_congr (congrArg Compute.programs compute) p).trans (programOf_programMod _ p _)
  · exact (programOf_congr (congrArg Compute.programs compute) q).trans (programOf_programMod_other _ hq _)

/-- What a translation leaves: the store of programs and translations alone may differ, and of the programs this one. -/
theorem translate_leaves (s : State) (p : Nat) : let t := (translate s p).2
    { t.compute with programs := s.compute.programs, cache := s.compute.cache } = s.compute ∧
    programOf t p = (if (translate s p).1 = 0 then translated (programOf s p) else programOf s p) ∧
    (∀ q, q ≠ p → programOf t q = programOf s q) ∧ OnlyChanges [.compute, .counters, .sticky] s t := by
  unfold translate
  dsimp only
  split
  · exact count_translated s p 4 s.compute.cache
  · split
    · next full => exact ⟨rfl, (if_neg (Nat.sub_ne_zero_of_lt full)).symm, fun _ _ => rfl, .refl _ s⟩
    · exact count_translated s p 3 _

/-! ## The start of an invocation -/

/-- An invocation that is added stands under the next number, and its command's entry waits. -/
theorem addInvocation_leaves (s : State) (v : Invocation) {e : Entry} (he : entryAt s v.entry = some e) :
    let t := (addInvocation s v).2
    tget t.compute.invs s.compute.nextInv = some v ∧
    (∀ n, n ≠ s.compute.nextInv → tget t.compute.invs n = tget s.compute.invs n) ∧ t.compute.nextInv = s.compute.nextInv + 1 ∧
    (∃ f, entryAt t v.entry = some f ∧ f.state = .waiting) ∧ t.compute.slm = s.compute.slm ∧ OnlyChanges [.tally, .compute] s t :=
  ⟨tget_tput_same .., fun _ hn => tget_tput_other _ _ _ _ hn, rfl, ⟨_, setState_entryAt (s := { s with compute := _ }) _ he, rfl⟩, rfl,
    (only_compute s _).comp (setState_only _ _ _)⟩

/-- The start of an invocation ends: its program is translated, its command runs, and its gangs are due after `chime`. -/
theorem beginGangs_leaves {s : State} {inv : Nat} {w : Invocation} (v : Invocation) (chime : Nat) (hw : tget s.compute.invs inv = some w)
    (active : (programOf s v.program).state = 2 ∨ (programOf s v.program).state = 3) :
    let t := beginGangs s inv v chime
    tget t.compute.invs inv = some { w with readyAt := some chime } ∧ (programOf t v.program).state = 2 ∧
    t.compute.cores = s.compute.cores ∧ (∀ e, entryAt s v.entry = some e → ∃ f, entryAt t v.entry = some f ∧ f.state = .running) ∧
    t.compute.slm = s.compute.slm ∧ OnlyChanges [.tally, .compute, .counters, .sticky] s t := by
  let u := if (programOf s v.program).state = 3 then
    programMod (translate s v.program).2 v.program (fun p => { p with state := 2 }) else s
  obtain ⟨rest, -, -, only⟩ := translate_leaves s v.program
  have compute : u.compute.invs = s.compute.invs ∧ u.compute.cores = s.compute.cores ∧ u.compute.slm = s.compute.slm := by
    unfold u
    split
    · exact ⟨(congrArg Compute.invs rest).trans rfl, (congrArg Compute.cores rest).trans rfl, (congrArg Compute.slm rest).trans rfl⟩
    · exact ⟨rfl, rfl, rfl⟩
  have state : (programOf u v.program).state = 2 := by
    unfold u
    split
    · rw [programOf_programMod]
    · next h => exact active.resolve_right h
  have parts : OnlyChanges [.compute, .counters, .sticky] s u := .ite (only.comp (programMod_only _ _ _)) (.refl _ s)
  obtain ⟨invs, cores, slm⟩ := compute
  let x := invMod u inv (fun v => { v with readyAt := some chime })
  have ran : (setRunning x v.entry).compute = x.compute := setRunning_only x v.entry .compute (by decide)
  have only' : OnlyChanges [.compute, .counters, .sticky] s x := parts.comp (invMod_only u inv _)
  refine ⟨?_, ?_, ?_, fun e he => ?_, ?_, only'.comp (setRunning_only x v.entry)⟩
  · exact (congrArg (fun c => tget c.invs inv) ran).trans (tget_invMod (by rw [invs, hw]) _)
  · exact (congrArg Program.state (programOf_congr (congrArg Compute.programs ran) v.program)).trans state
  · exact (congrArg Compute.cores ran).trans cores
  · obtain ⟨d, hd⟩ := entryAt_setRunning ((entryAt_congr (only' .tally (by decide)) v.entry).trans he)
    exact ⟨_, hd, rfl⟩
  · exact (congrArg Compute.slm ran).trans slm

end Sys2Proof.Machine
end

section
/-!
SUPPORT. Which core takes a gang (R190, R191), and what a placement of gangs leaves.
-/

namespace Sys2Proof.Machine

/-! ## The core of the next gang -/

/-- The core that is chosen can take the gang and has the most free slots, the lower number on ties. -/
theorem coreFor_best {s : State} {cls c : Nat} {p : Program} (h : coreFor s cls p = some c) : c ∈ p.cores ∧
    coreTakes s cls p.physRegs c = true ∧ ∀ d ∈ p.cores, coreTakes s cls p.physRegs d = true →
      freeSlots (coreOf s (d + 24)) < freeSlots (coreOf s (c + 24)) ∨ freeSlots (coreOf s (d + 24)) = freeSlots (coreOf s (c + 24)) ∧ c ≤ d := by
  obtain ⟨mem, least⟩ := sortBy_head_le
    (fun a b => by simp only [Bool.or_eq_true, Bool.and_eq_true, decide_eq_true_eq]; omega)
    (fun a b d => by simp only [Bool.or_eq_true, Bool.and_eq_true, decide_eq_true_eq]; omega) h
  obtain ⟨listed, takes⟩ := List.mem_filter.mp mem
  refine ⟨listed, takes, fun d hd ok => ?_⟩
  have order := least d (List.mem_filter.mpr ⟨hd, ok⟩)
  simp only [Bool.or_eq_true, Bool.and_eq_true, decide_eq_true_eq] at order
  omega

theorem tget_isSome_mem {α : Type} {t : Table α} {k : Nat} (h : (tget t k).isSome = true) : k ∈ t.map (fun p => p.1) := by
  obtain ⟨x, hx⟩ := Option.isSome_iff_exists.mp h
  exact List.mem_map.mpr ⟨(k, x), tget_mem hx, rfl⟩

/-- A core with room for a gang has a free slot, and `freeSlotOf` finds it. -/
theorem freeSlotOf_free {c : Core} (room : c.gangs.length < 16) : tget c.gangs (freeSlotOf c) = none := by
  have found : ((List.range 16).find? (fun k => (tget c.gangs k).isNone)).isSome = true := by
    by_contra all
    have taken : List.range 16 ⊆ c.gangs.map (fun p => p.1) := fun k hk => by
      have := List.find?_eq_none.mp (Option.not_isSome_iff_eq_none.mp all) k hk
      exact tget_isSome_mem (Option.ne_none_iff_isSome.mp (by simpa using this))
    have := (List.nodup_range.subperm taken).length_le
    simp only [List.length_range, List.length_map] at this
    omega
  obtain ⟨k, hk⟩ := Option.isSome_iff_exists.mp found
  rw [freeSlotOf, hk, Option.getD_some]
  exact Option.isNone_iff_eq_none.mp (List.find?_some (p := fun k => (tget c.gangs k).isNone) hk)

theorem room_of_coreTakes {s : State} {cls regs c : Nat} (h : coreTakes s cls regs c = true) : (coreOf s (c + 24)).gangs.length < 16 := by
  simp only [coreTakes, Bool.and_eq_true] at h
  obtain ⟨⟨-, slots⟩, -⟩ := h
  have := of_decide_eq_true slots
  unfold freeSlots at this
  omega

/-! ## What a placement leaves -/

/-- Gangs have been placed on the way from `s` to `t`: resident gangs stay, each new gang is one that was due of an invocation that had
started, and of the invocations only the number of the next gang grows. -/
structure GangsPlaced (s t : State) : Prop where
  resident : ∀ ref g, gangAt s ref = some g → gangAt t ref = some g
  placed : ∀ ref g, gangAt s ref = none → gangAt t ref = some g → ∃ v, tget s.compute.invs g.inv = some v ∧ v.started = true ∧
    v.nextGang ≤ g.index ∧ g.index < v.gangs ∧ g = newGang g.inv g.index (programOf s v.program).physRegs (invClass s v = 0)
  invs : ∀ n w, tget t.compute.invs n = some w → ∃ v, tget s.compute.invs n = some v ∧ v.nextGang ≤ w.nextGang ∧
    w = { v with nextGang := w.nextGang }
  programs : t.compute.programs = s.compute.programs
  only : OnlyChanges [.compute, .power, .counters, .sticky] s t

theorem invClass_congr {s t : State} (h : t.tally = s.tally) (v : Invocation) : invClass t v = invClass s v := by
  simp only [invClass, classAt, entryAt_congr h]

namespace GangsPlaced

variable {s t u : State}

theorem of_only (only : OnlyChanges [.power, .counters, .sticky] s t) : GangsPlaced s t := by
  have compute : t.compute = s.compute := only .compute (by decide)
  have gangs (ref : GangRef) : gangAt t ref = gangAt s ref := gangAt_congr (congrArg Compute.cores compute) ref
  exact ⟨fun ref g h => (gangs ref).trans h, fun ref g none_ some_ => by simp [gangs, none_] at some_,
    fun n w h => ⟨w, by rw [← compute, h], le_rfl, rfl⟩, congrArg Compute.programs compute, only.mono (by decide)⟩

theorem refl (s : State) : GangsPlaced s s := of_only (.refl _ s)

theorem trans (a : GangsPlaced s t) (b : GangsPlaced t u) : GangsPlaced s u where
  resident ref g h := b.resident ref g (a.resident ref g h)
  placed ref g none_ some_ := by
    cases mid : gangAt t ref with
    | some k =>
      cases (b.resident ref k mid).symm.trans some_
      exact a.placed ref _ none_ mid
    | none =>
      obtain ⟨w, hw, started, low, high, new⟩ := b.placed ref g mid some_
      obtain ⟨v, hv, grows, same⟩ := a.invs _ w hw
      have class_ : invClass t w = invClass s v := by
        rw [invClass_congr (a.only .tally (by decide)), same]
        rfl
      have program : w.program = v.program := (congrArg Invocation.program same).trans rfl
      have start : w.started = v.started := (congrArg Invocation.started same).trans rfl
      have gangs : w.gangs = v.gangs := (congrArg Invocation.gangs same).trans rfl
      rw [class_, programOf_congr a.programs, program] at new
      exact ⟨v, hv, start ▸ started, grows.trans low, gangs ▸ high, new⟩
  invs n w h := by
    obtain ⟨v, hv, low, same⟩ := b.invs n w h
    obtain ⟨x, hx, lower, same'⟩ := a.invs n v hv
    exact ⟨x, hx, lower.trans low, by rw [same, same']⟩
  programs := b.programs.trans a.programs
  only := a.only.trans b.only

end GangsPlaced

/-! ## One gang -/

/-- The gang in a slot after another slot, or the same, has been filled. -/
theorem gangAt_gangPut (s : State) {r : GangRef} (g : Gang) (low : 24 ≤ r.unit) (ref : GangRef) :
    gangAt (gangPut s r g) ref = if ref = r ∧ r.unit ≤ 71 then some g else gangAt s ref := by
  by_cases inside : r.unit ≤ 71
  · by_cases same : ref = r
    · rw [if_pos ⟨same, inside⟩, same, gangAt_gangPut_same _ _ _ ⟨low, inside⟩]
    · rw [if_neg (fun h => same h.1), (gangPut_onlyGang s r g ⟨low, inside⟩).1 ref same]
  · rw [if_neg (fun h => inside h.2), gangAt, gangAt]
    split
    · next unit =>
      have apart : ref.unit - 24 ≠ r.unit - 24 := by omega
      rw [show coreOf (gangPut s r g) ref.unit = coreOf s ref.unit from tgetD_tput_other _ _ _ _ _ apart]
    · rfl

/-- The next gang of the invocation `inv` starts on the core `c` (R191, R228). -/
def placeGang (s : State) (inv : Nat) (v : Invocation) (c : Nat) : State :=
  invMod (gangPut s ⟨c + 24, freeSlotOf (coreOf s (c + 24))⟩
    (newGang inv v.nextGang (programOf s v.program).physRegs (invClass s v = 0))) inv (fun v => { v with nextGang := v.nextGang + 1 })

section
variable {s : State} {inv c : Nat} {v : Invocation} (hv : tget s.compute.invs inv = some v) (due : gangsDue s v = true)
  (core : coreFor s (invClass s v) (programOf s v.program) = some c)

theorem gangAt_placeGang (ref : GangRef) : gangAt (placeGang s inv v c) ref =
    if ref = ⟨c + 24, freeSlotOf (coreOf s (c + 24))⟩ ∧ c + 24 ≤ 71 then
      some (newGang inv v.nextGang (programOf s v.program).physRegs (invClass s v = 0)) else gangAt s ref :=
  gangAt_gangPut s _ (Nat.le_add_left 24 c) ref

include hv due core

theorem placeGang_placed : GangsPlaced s (placeGang s inv v c) where
  resident ref g h := by
    rw [gangAt_placeGang, if_neg]
    · exact h
    · rintro ⟨rfl, inside⟩
      obtain ⟨-, takes, -⟩ := coreFor_best core
      rw [gangAt, if_pos ⟨Nat.le_add_left 24 c, inside⟩, freeSlotOf_free (room_of_coreTakes takes)] at h
      cases h
  placed ref g none_ some_ := by
    rw [gangAt_placeGang] at some_
    split at some_
    · cases some_
      simp only [gangsDue, Bool.and_eq_true, decide_eq_true_eq] at due
      obtain ⟨⟨started, more⟩, -⟩ := due
      exact ⟨v, hv, started, le_rfl, more, rfl⟩
    · rw [none_] at some_
      cases some_
  invs n w h := by
    by_cases hn : n = inv
    · subst hn
      cases (tget_invMod (s := gangPut s _ _) hv _).symm.trans h
      exact ⟨v, hv, Nat.le_succ _, rfl⟩
    · rw [placeGang, tget_invMod_other _ hn] at h
      exact ⟨w, h, le_rfl, rfl⟩
  programs := rfl
  only := ((gangPut_only s _ _).trans (invMod_only _ _ _)).mono (by decide)

theorem placeGangs_next (n : Nat) : placeGangs s inv (n + 1) = placeGangs (placeGang s inv v c) inv n := by
  rw [placeGangs, hv]
  simp only [due, core]
  rfl

end

theorem placeGangs_placed (inv n : Nat) (s : State) : GangsPlaced s (placeGangs s inv n) := by
  induction n generalizing s with
  | zero => exact .refl s
  | succ n ih =>
    cases hv : tget s.compute.invs inv with
    | none =>
      simp only [placeGangs, hv]
      exact .refl s
    | some v =>
      cases due : gangsDue s v with
      | false =>
        simp only [placeGangs, hv, due]
        exact .refl s
      | true =>
        cases core : coreFor s (invClass s v) (programOf s v.program) with
        | none =>
          simp only [placeGangs, hv, due, core]
          exact .refl s
        | some c =>
          rw [placeGangs_next hv due core]
          exact (placeGang_placed hv due core).trans (ih _)

theorem placeInvocation_placed (s : State) (inv : Nat) : GangsPlaced s (placeInvocation s inv) := by
  unfold placeInvocation
  split
  · exact .refl s
  · split
    · exact .refl s
    · unfold withBudget
      split
      · exact (GangsPlaced.of_only ((charge_only s _).mono (by decide))).trans (placeGangs_placed inv allSlots _)
      · exact .of_only (defer_only s _)

theorem placements_placed (ls : List Nat) (s : State) : GangsPlaced s (ls.foldl placeInvocation s) := by
  induction ls generalizing s with
  | nil => exact .refl s
  | cons inv ls ih => exact (placeInvocation_placed s inv).trans (ih _)

end Sys2Proof.Machine
end

section
/-!
SUPPORT. Run Kernel, the start of an invocation and the end of one, as their commands meet them (R226 to R229).
-/

namespace Sys2Proof.Machine

theorem no_invocation {s : State} {i : Nat} (h : ∀ v ∈ s.compute.invs, v.2.entry ≠ i) :
    s.compute.invs.any (fun v => v.2.entry = i) = false := by
  simpa [List.any_eq_false] using h

theorem unitsOf_nil (ns : Namespace) (lba n : Nat) : unitsOf ns lba n = [] ↔ n = 0 := by
  have units : 0 < unitsPerLba ns.lbaf := by
    unfold unitsPerLba
    split <;> decide
  simp [unitsOf, units.ne']

/-- The invocation `inv` with its first window, as its start begins (R227). -/
def openedInv (s : State) (inv : Nat) : State := invMod s inv (fun v => { v with started := true, window := firstWindow s v })

theorem invocation_goes {s : State} {inv : Nat} (up : stopped s = false) (awake : s.dev.state ≠ .paused)
    (first : (invsBy s (canBegin s)).head? = some inv) :
    (stopped s || decide (s.dev.state = .paused) || decide ((invsBy s (canBegin s)).head? ≠ some inv)) = false := by
  simp [up, awake, first]

section
variable {s : State} {inv : Nat} {v : Invocation} (up : stopped s = false) (awake : s.dev.state ≠ .paused)
  (hv : tget s.compute.invs inv = some v) (first : (invsBy s (canBegin s)).head? = some inv)
include up awake hv first

/-- An invocation without a staged read is ready when it starts. -/
theorem invocationStart_ready (none_ : nsOf s v.nsid = none ∨ v.stagedLen = 0) :
    exec (.invocationStart inv) s = .next (beginGangs (openedInv s inv) inv v (chimeNow s)) := by
  show execInvocationStart inv s = _
  simp only [execInvocationStart, hv, invocation_goes up awake first, Bool.false_eq_true, if_false,
    show nsOf (invMod s inv _) v.nsid = nsOf s v.nsid from rfl]
  cases hn : nsOf s v.nsid with
  | none => rfl
  | some ns =>
    simp only [(unitsOf_nil ..).mpr (none_.resolve_left (by simp [hn]))]
    rfl

/-- One with a staged read asks for it. -/
theorem invocationStart_reads {ns : Namespace} (hn : nsOf s v.nsid = some ns) (len : v.stagedLen ≠ 0)
    (ledger : ledgerDown s (iusOf ns (unitsOf ns v.stagedLba v.stagedLen)) = false) : exec (.invocationStart inv) s =
      .next (readUnits (openedInv s inv) v.entry (.staged inv) v.nsid ns (unitsOf ns v.stagedLba v.stagedLen)) := by
  show execInvocationStart inv s = _
  have units : unitsOf ns v.stagedLba v.stagedLen ≠ [] := fun h => len ((unitsOf_nil ..).mp h)
  simp only [execInvocationStart, hv, invocation_goes up awake first, Bool.false_eq_true, if_false,
    show nsOf (invMod s inv _) v.nsid = some ns from hn, units, show ledgerDown (invMod s inv _) _ = false from ledger]
  rfl

/-- What the start of an invocation without a staged read leaves. -/
theorem invocationStart_leaves (none_ : nsOf s v.nsid = none ∨ v.stagedLen = 0)
    (active : (programOf s v.program).state = 2 ∨ (programOf s v.program).state = 3) : ∃ t, exec (.invocationStart inv) s = .next t ∧
      tget t.compute.invs inv = some { v with started := true, window := firstWindow s v, readyAt := some (chimeNow s) } ∧
      (programOf t v.program).state = 2 ∧ t.compute.cores = s.compute.cores ∧
      (∀ e, entryAt s v.entry = some e → ∃ f, entryAt t v.entry = some f ∧ f.state = .running) ∧
      t.compute.slm = s.compute.slm ∧ OnlyChanges [.tally, .compute, .counters, .sticky] s t := by
  obtain ⟨started, state, cores, runs, slm, only⟩ := beginGangs_leaves (s := openedInv s inv) v (chimeNow s) (tget_invMod hv _) active
  exact ⟨_, invocationStart_ready up awake hv first none_, started, state, cores, runs, slm, (invMod_only s inv _).comp only⟩

/-- What the start of an invocation with a staged read leaves: the read stands for it. -/
theorem invocationStart_stages {ns : Namespace} (hn : nsOf s v.nsid = some ns) (len : v.stagedLen ≠ 0)
    (ledger : ledgerDown s (iusOf ns (unitsOf ns v.stagedLba v.stagedLen)) = false) : ∃ t j, exec (.invocationStart inv) s = .next t ∧
      tget t.compute.invs inv = some { v with started := true, window := firstWindow s v } ∧ j ∈ t.flash.jobs ∧ j.entry = v.entry ∧
      j.use = .staged inv ∧ j.units = unitsOf ns v.stagedLba v.stagedLen ∧ t.compute.cores = s.compute.cores ∧
      OnlyChanges [.flash, .compute, .counters, .sticky] s t := by
  let units := unitsOf ns v.stagedLba v.stagedLen
  have only := readUnits_only (openedInv s inv) v.entry (.staged inv) v.nsid ns units
  have compute : (readUnits (openedInv s inv) v.entry (.staged inv) v.nsid ns units).compute = (openedInv s inv).compute :=
    only .compute (by decide)
  obtain ⟨j, stands, entry, use, read⟩ := readUnits_job (openedInv s inv) v.entry (.staged inv) v.nsid ns units
  refine ⟨_, j, invocationStart_reads up awake hv first hn len ledger, ?_, stands, entry, use, read,
    (congrArg Compute.cores compute).trans rfl, (invMod_only s inv _).comp only⟩
  exact (congrArg (fun c => tget c.invs inv) compute).trans (tget_invMod hv _)

end

/-- Staged data that has come without loss lies in the window, and the invocation is ready. -/
theorem stagedDone_ready {s : State} {inv : Nat} {v : Invocation} {j : ReadJob} (hv : tget s.compute.invs inv = some v) (whole : j.lost = [])
    (active : (programOf s v.program).state = 2) : tget (stagedDone s inv j).compute.invs inv =
      some { v with window := mwrite v.window v.stagedAt j.bytes, readyAt := some (chimeNow s - 1) } := by
  have step : stagedDone s inv j =
      beginGangs (invMod (dropRead s j) inv (fun v => { v with window := mwrite v.window v.stagedAt j.bytes })) inv v (chimeNow s - 1) := by
    have here : tget (dropRead s j).compute.invs inv = some v := hv
    simp only [stagedDone, here, whole]
    rfl
  obtain ⟨ready, -⟩ := beginGangs_leaves
    (s := invMod (dropRead s j) inv (fun v => { v with window := mwrite v.window v.stagedAt j.bytes })) v (chimeNow s - 1)
    (tget_invMod (s := dropRead s j) hv _) (.inl active)
  rw [step]
  exact ready

/-- The last gang of the one invocation that is due goes to the core that `coreFor` gives. -/
theorem placements_last {s : State} {inv c : Nat} {v : Invocation} (alone : invsBy s (gangsDue s) = [inv])
    (hv : tget s.compute.invs inv = some v) (due : gangsDue s v = true) (energy : affords s v.entry = true)
    (core : coreFor s (invClass s v) (programOf s v.program) = some c) (small : c < 48) :
    ∃ k, gangAt ((invsBy s (gangsDue s)).foldl placeInvocation s) ⟨c + 24, k⟩ =
      some (newGang inv v.nextGang (programOf s v.program).physRegs (invClass s v = 0)) := by
  let u := charge s v.entry
  have step : placeInvocation s inv = placeGangs (placeGang u inv v c) inv 767 := by
    simp only [placeInvocation, hv, core, withBudget, energy]
    exact placeGangs_next (s := u) hv due core 767
  have here := gangAt_placeGang (s := u) (inv := inv) (c := c) (v := v) ⟨c + 24, freeSlotOf (coreOf u (c + 24))⟩
  rw [if_pos ⟨rfl, by omega⟩] at here
  rw [alone, List.foldl_cons, List.foldl_nil, step]
  exact ⟨_, (placeGangs_placed inv 767 _).resident _ _ here⟩

/-- The end of an invocation whose lanes have all exited, and which is no chunk of a stream. -/
theorem invocationEnd_ends {s : State} {inv sq cid : Nat} {v : Invocation} (up : stopped s = false) (awake : s.dev.state ≠ .paused)
    (hv : tget s.compute.invs inv = some v) (exited : allExited v = true) (closed : sliceOpen s inv = false)
    (chunk : chunkOfInv s inv = none) (stands : Stands s sq cid v.entry) : ∃ t, exec (.invocationEnd inv) s = .next t ∧
      Ends s t sq cid (mread v.window v.outAt v.outLen) .success v.exitOr (sat 32 v.exitCount) (decide (v.outLen ≠ 0)) ∧
      (∀ p ∈ t.compute.invs, p.2.entry ≠ v.entry) ∧ t.compute.programs = s.compute.programs ∧ Undisturbed [] s t := by
  obtain ⟨found, e, he, ho, hr⟩ := stands
  have ran : exec (.invocationEnd inv) s = .next (endInvocation s v v.entry (sat 32 v.exitCount)) := by
    show execInvocationEnd inv s = _
    simp [execInvocationEnd, hv, up, awake, exited, closed, chunk]
  have compute := finishData_compute he ho hr .success v.exitOr (sat 32 v.exitCount) (mread v.window v.outAt v.outLen) (v.outLen ≠ 0)
  refine ⟨_, ran, ends_finishData found he ho hr .., fun p hp same => ?_, (congrArg Compute.programs compute).trans rfl,
    finishData_undisturbed ..⟩
  have stays : p ∈ (freeFamily s v.entry).compute.invs := compute ▸ hp
  rw [freeFamily_invs] at stays
  have := (List.mem_filter.mp stays).2
  simp [same, mem_family_self he] at this

end Sys2Proof.Machine
end

open Sys2Proof Sys2Proof.Machine in
/-- Settles O48: a run adds an invocation whose entry waits; its start ends in `beginGangs`; every placement keeps `GangsPlaced`; and the
end of an invocation ends the command that it stands for. -/
theorem invocationsStartAndEnd : Obligations.InvocationsStartAndEnd := by
  unfold Obligations.InvocationsStartAndEnd
  refine ⟨fun s h i pind rsid gangs length buf T reserved new fields => ⟨fun idle => ?_, fun active manifest inside => ?_⟩,
    fun s h i pind rsid data T new index set_ => ?_,
    fun s inv v up awake hv first active => ⟨fun none_ => invocationStart_leaves up awake hv first none_ active,
      fun ns hn len ledger => invocationStart_stages up awake hv first hn len ledger⟩,
    fun s inv v j hv whole active => stagedDone_ready hv whole active, fun s up awake hold => ?_, fun s cls c p => coreFor_best,
    fun s inv sq cid v up awake hv exited closed chunk stands => invocationEnd_ends up awake hv exited closed chunk stands⟩
  · obtain ⟨completes, undisturbed⟩ := T.refusedAdmitted .commandSequenceError
    refine ⟨_, ?_, completes, undisturbed⟩
    show execRunKernel h pind rsid gangs length buf s = _
    simp [execRunKernel, meetVendorIo_turn T reserved, no_invocation new, fields, idle]
  · obtain ⟨e, he, -⟩ := T.fresh
    refine ⟨_, ?_, addInvocation_leaves s (runInvocation s i pind rsid gangs h.nsid buf) he⟩
    show execRunKernel h pind rsid gangs length buf s = _
    simp [execRunKernel, meetVendorIo_turn T reserved, no_invocation new, fields, active, manifest, inside]
  · have fields : ¬(31 < pind ∨ 0xC0 ≠ 0xC0 ∨ rsid ≠ 0 ∧ (tget s.compute.rangeSets rsid).isNone = true) := by
      rintro (high | other | ⟨some_, none_⟩)
      · omega
      · exact other rfl
      · rw [← Option.not_isSome, set_.resolve_left some_] at none_
        cases none_
    refine ⟨fun idle => ?_, fun active => ?_⟩
    · obtain ⟨completes, undisturbed⟩ := T.refusedAdmitted .commandSequenceError
      refine ⟨_, ?_, completes, undisturbed⟩
      show execExecuteProgram h pind 0xC0 rsid data s = _
      simp only [execExecuteProgram, meetIo_turn T, no_invocation new, if_neg fields, idle]
      rfl
    · obtain ⟨e, he, -⟩ := T.fresh
      let v : Invocation := { runInvocation s i pind rsid 0 0 [] with input := data.take (manifestField (programOf s pind) 52 4) }
      obtain ⟨added, -, -, waits, -, only⟩ := addInvocation_leaves s v he
      refine ⟨_, v, ?_, added, rfl, rfl, rfl, rfl, rfl, rfl, rfl, waits, only⟩
      show execExecuteProgram h pind 0xC0 rsid data s = _
      simp only [execExecuteProgram, meetIo_turn T, no_invocation new, if_neg fields, active]
      rfl
  · have placed := placements_placed (invsBy s (gangsDue s)) s
    refine ⟨_, ?_, placed.resident, placed.placed, placed.only, fun inv v c alone hv due last energy core small =>
      placements_last alone hv due energy core small⟩
    show execGangPlacement s = _
    simp [execGangPlacement, up, awake, hold]

section
/-!
SUPPORT. Admin commands on programs at their turn (R219 to R223): the state that they act on, and what their end leaves.
-/

namespace Sys2Proof.Machine

/-! ## The state that an admin command acts on -/

/-- The state in which an admin command is served: its entry runs. -/
def inService (s : State) (i : Nat) : State := { s with tally := (setRunning s i).tally }

theorem AdminTurn.serves {s : State} {h : HostId} {i : Nat} (T : AdminTurn s h i) : setRunning s i = inService s i := by
  rw [inService, T.setRunning_eq]
  rfl

theorem inService_only (s : State) (i : Nat) : OnlyChanges [.tally] s (inService s i) := only_tally s _

/-- What the end of an admin command leaves of the compute state. -/
structure ComputeStands (u t : State) : Prop where
  rest : { t.compute with cores := u.compute.cores, invs := u.compute.invs, directs := u.compute.directs, looms := u.compute.looms } =
    u.compute
  cores : ∀ n, (coreOf t n).parts = (coreOf u n).parts ∧ (coreOf t n).localMem = (coreOf u n).localMem

theorem ComputeStands.programs {u t : State} (h : ComputeStands u t) : t.compute.programs = u.compute.programs :=
  (congrArg Compute.programs h.rest).trans rfl

theorem ComputeStands.programOf_eq {u t : State} (h : ComputeStands u t) (p : Nat) : programOf t p = programOf u p :=
  programOf_congr h.programs p

theorem AdminTurn.ends {s : State} {h : HostId} {i : Nat} (T : AdminTurn s h i) {u : State} (tally : u.tally = (setRunning s i).tally)
    (st : Status) (dw0 dw1 : Nat) :
    Completes s (finish u i st dw0 dw1) 0 h.cid [] st dw0 dw1 ∧ ComputeStands u (finish u i st dw0 dw1) := by
  obtain ⟨e, he, ho, -, -⟩ := T.fresh
  obtain ⟨d, hd⟩ := entryAt_setRunning he
  have entry := (entryAt_congr tally i).trans hd
  refine ⟨T.sq ▸ completes_finish T.found entry ho (by simp) st dw0 dw1, ?_⟩
  have compute := finish_compute entry ho (by simp) st dw0 dw1
  exact ⟨by rw [compute]; rfl, fun n => by rw [coreOf_congr (congrArg Compute.cores compute)]; exact coreOf_freeFamily u i n⟩

/-! ## Cores that are changed one after another -/

/-- What a change gives every core that it is made to. -/
theorem coreOf_foldl_coreMod {f : Core → Core} {P : Core → Prop} (gives : ∀ x, P (f x)) (cs : List Nat) (s : State) {c : Nat}
    (h : c ∈ cs ∨ P (coreOf s (c + 24))) : P (coreOf (cs.foldl (fun s c => coreMod s (c + 24) f) s) (c + 24)) := by
  induction cs generalizing s with
  | nil => exact h.resolve_left List.not_mem_nil
  | cons d cs ih =>
    rw [List.foldl_cons]
    refine ih _ ?_
    by_cases same : c = d
    · subst same
      have here : coreOf (coreMod s (c + 24) f) (c + 24) = f (coreOf s (c + 24)) := tgetD_tput_same ..
      exact .inr (here ▸ gives _)
    · refine h.imp (fun m => (List.mem_cons.mp m).resolve_left same) (fun stays => ?_)
      rwa [show coreOf (coreMod s (d + 24) f) (c + 24) = coreOf s (c + 24) from tgetD_tput_other _ _ _ _ _ (by omega)]

theorem foldl_coreMod_frame (f : Core → Core) (cs : List Nat) (s : State) :
    ∃ x, cs.foldl (fun s c => coreMod s (c + 24) f) s = { s with compute := { s.compute with cores := x } } := by
  induction cs generalizing s with
  | nil => exact ⟨s.compute.cores, rfl⟩
  | cons d cs ih =>
    obtain ⟨x, h⟩ := ih (coreMod s (d + 24) f)
    exact ⟨x, h⟩

/-! ## Activation -/

theorem physRegsOf_bounds (d : Nat) : 16 ≤ physRegsOf d ∧ physRegsOf d ≤ 256 ∧ physRegsOf d % 8 = 0 := by
  unfold physRegsOf
  omega

/-- The partitions that are chosen lie on cores of the drive, and are no more than the manifest wants. -/
theorem partitionCores_cores (s : State) (p : Program) : (partitionCores s p).2.length ≤ manifestField p 45 1 ∧
    ∀ c ∈ (partitionCores s p).2, c < 48 := by
  refine ⟨List.length_take_le _ _, fun c hc => ?_⟩
  exact List.mem_range.mp (List.mem_filter.mp (mem_of_mem_sortBy (List.mem_of_mem_take hc))).1

/-- The program once it is active on the cores `cs` (R220, R221). -/
def activated (p : Program) (cs : List Nat) : Program := { translated p with cores := cs, state := 2 }

theorem manifestField_congr {p q : Program} (h : q.pkg = p.pkg) (off n : Nat) : manifestField q off n = manifestField p off n := by
  simp only [manifestField, h]

/-- What giving a program its partitions leaves. -/
theorem allocate_leaves (s : State) (p : Nat) (cs : List Nat) :
    let t := programMod (allocate s p cs) p (fun q => { q with state := 2 })
    programOf t p = { programOf s p with cores := cs, state := 2 } ∧ (∀ q, q ≠ p → programOf t q = programOf s q) ∧
    (∀ c ∈ cs, tget (coreOf t (c + 24)).parts p = some (1024 * manifestField (programOf s p) 42 2)) ∧
    t.compute.slm = s.compute.slm ∧ OnlyChanges [.compute] s t := by
  intro t
  let size := 1024 * manifestField (programOf s p) 42 2
  let give : Core → Core := fun x => { x with parts := tput x.parts p size }
  let u := cs.foldl (fun s c => coreMod s (c + 24) give) s
  have step : t = programMod (programMod u p (fun q => { q with cores := cs })) p (fun q => { q with state := 2 }) := rfl
  obtain ⟨x, hx⟩ := foldl_coreMod_frame give cs s
  have frame : u = { s with compute := { s.compute with cores := x } } := hx
  have program (q : Nat) : programOf u q = programOf s q := by rw [frame]; rfl
  refine ⟨?_, fun q hq => ?_, fun c hc => ?_, ?_, ?_⟩
  · rw [step, programOf_programMod, programOf_programMod, program]
  · rw [step, programOf_programMod_other _ hq, programOf_programMod_other _ hq, program]
  · exact coreOf_foldl_coreMod (P := fun k => tget k.parts p = some size) (fun k => tget_tput_same ..) cs s (.inl hc)
  · rw [step, frame]
    rfl
  · rw [step, frame]
    exact only_compute s _

/-- What taking a program's partitions away leaves. -/
theorem deallocate_leaves (s : State) (p : Nat) : let t := programMod (deallocate s p) p (fun q => { q with state := 1 })
    programOf t p = { programOf s p with cores := [], state := 1 } ∧ (∀ q, q ≠ p → programOf t q = programOf s q) ∧
    (∀ c ∈ (programOf s p).cores, tget (coreOf t (c + 24)).parts p = none ∧ tget (coreOf t (c + 24)).localMem p = none) ∧
    t.compute.slm = s.compute.slm ∧ OnlyChanges [.compute] s t := by
  intro t
  let take : Core → Core := fun x => { x with parts := tdel x.parts p, localMem := tdel x.localMem p }
  let u := (programOf s p).cores.foldl (fun s c => coreMod s (c + 24) take) s
  have step : t = programMod (programMod u p (fun q => { q with cores := [] })) p (fun q => { q with state := 1 }) := rfl
  obtain ⟨x, hx⟩ := foldl_coreMod_frame take (programOf s p).cores s
  have frame : u = { s with compute := { s.compute with cores := x } } := hx
  have program (q : Nat) : programOf u q = programOf s q := by rw [frame]; rfl
  refine ⟨?_, fun q hq => ?_, fun c hc => ?_, ?_, ?_⟩
  · rw [step, programOf_programMod, programOf_programMod, program]
  · rw [step, programOf_programMod_other _ hq, programOf_programMod_other _ hq, program]
  · refine coreOf_foldl_coreMod (P := fun k => tget k.parts p = none ∧ tget k.localMem p = none) (fun k => ?_) _ s (.inl hc)
    exact ⟨(tget_tdel ..).trans (if_pos rfl), (tget_tdel ..).trans (if_pos rfl)⟩
  · rw [step, frame]
    rfl
  · rw [step, frame]
    exact only_compute s _

theorem freeLocal_congr {s t : State} (h : t.compute.cores = s.compute.cores) (c : Nat) : freeLocal t c = freeLocal s c := by
  simp only [freeLocal, coreOf_congr h]

theorem partitionCores_congr {s t : State} (h : t.compute.cores = s.compute.cores) (p : Program) :
    partitionCores t p = partitionCores s p := by
  simp only [partitionCores, freeLocal_congr h]

/-- What the kernel store is short of for a translation (R224, R225). -/
theorem translate_short (s : State) (p : Nat) : (translate s p).1 =
    if s.compute.cache.any (fun c => c.1 = headerDigest (programOf s p)) then 0
    else storeInUse { s with compute := { s.compute with cache := s.compute.cache.drop (s.compute.cache.length - 63) ++
      [(headerDigest (programOf s p), physRegsOf (headerDigest (programOf s p)))] } } - storeLimit := by
  unfold translate
  dsimp only
  split
  · rfl
  · split
    · rfl
    · next fits => exact (Nat.sub_eq_zero_of_le (not_lt.mp fits)).symm

theorem translate_short_congr {s t : State} (h : t.compute = s.compute) (p : Nat) : (translate t p).1 = (translate s p).1 := by
  simp only [translate_short, programOf_congr (congrArg Compute.programs h), storeInUse, h]

/-- Whether an activation fails, and with what, is said by the compute state alone. -/
theorem activate_result_congr {s t : State} (h : t.compute = s.compute) (p : Nat) : (activate t p).1 = (activate s p).1 := by
  obtain ⟨rest, program, -⟩ := translate_leaves s p
  obtain ⟨rest', program', -⟩ := translate_leaves t p
  have cores : (translate t p).2.compute.cores = (translate s p).2.compute.cores := by
    refine ((congrArg Compute.cores rest').trans rfl).trans ?_
    rw [h]
    exact ((congrArg Compute.cores rest).trans rfl).symm
  have same : programOf (translate t p).2 p = programOf (translate s p).2 p := by
    rw [program, program', translate_short_congr h, programOf_congr (congrArg Compute.programs h)]
  simp only [activate, apply_ite Prod.fst, translate_short_congr h, same, partitionCores_congr cores]

/-- An activation that fails leaves its program as it was but for a translation, and the others untouched. -/
theorem activate_fails {s : State} {p : Nat} {x : Nat × Nat} (h : (activate s p).1 = some x) :
    (programOf (activate s p).2 p).state = (programOf s p).state ∧ (∀ q, q ≠ p → programOf (activate s p).2 q = programOf s q) ∧
    (activate s p).2.compute.slm = s.compute.slm ∧ OnlyChanges [.compute, .counters, .sticky] s (activate s p).2 := by
  obtain ⟨rest, program, others, only⟩ := translate_leaves s p
  unfold activate at h ⊢
  dsimp only at h ⊢
  split
  · exact ⟨rfl, fun _ _ => rfl, rfl, .refl _ s⟩
  · next short =>
    rw [if_neg short] at h
    rw [if_pos (not_not.mp short)] at program
    split
    · exact ⟨(congrArg Program.state program).trans rfl, others, (congrArg Compute.slm rest).trans rfl, only⟩
    · next few =>
      rw [if_neg few] at h
      cases h

/-- An activation that passes leaves its program active on the cores that have room. -/
theorem activate_passes {s : State} {p : Nat} (h : (activate s p).1 = none) : ∃ cs, manifestField (programOf s p) 44 1 ≤ cs.length ∧
    cs.length ≤ manifestField (programOf s p) 45 1 ∧ (∀ c ∈ cs, c < 48) ∧
    programOf (activate s p).2 p = activated (programOf s p) cs ∧ (∀ q, q ≠ p → programOf (activate s p).2 q = programOf s q) ∧
    (∀ c ∈ cs, tget (coreOf (activate s p).2 (c + 24)).parts p = some (1024 * manifestField (programOf s p) 42 2)) ∧
    (activate s p).2.compute.slm = s.compute.slm ∧ OnlyChanges [.compute, .counters, .sticky] s (activate s p).2 := by
  obtain ⟨rest, program, others, only⟩ := translate_leaves s p
  unfold activate at h ⊢
  dsimp only at h ⊢
  split
  · next short =>
    rw [if_pos short] at h
    cases h
  · next short =>
    rw [if_neg short] at h
    rw [if_pos (not_not.mp short)] at program
    rw [program] at h ⊢
    split
    · next few =>
      rw [if_pos few] at h
      cases h
    · next enough =>
      obtain ⟨most, small⟩ := partitionCores_cores (translate s p).2 (translated (programOf s p))
      obtain ⟨active, stand, parts, slm, only'⟩ := allocate_leaves (translate s p).2 p
        (partitionCores (translate s p).2 (translated (programOf s p))).2
      rw [program] at active parts
      exact ⟨_, not_lt.mp enough, most, small, active, fun q hq => (stand q hq).trans (others q hq), parts,
        slm.trans ((congrArg Compute.slm rest).trans rfl), only.comp only'⟩

/-- The last activation as it is recorded and counted (OD 0x2613). -/
theorem recordActivation_leaves (s : State) (p code detail : Nat) : (recordActivation s p code detail).compute =
      { s.compute with actProgram := p, actResult := code, actDetail := detail } ∧
    OnlyChanges [.compute, .counters, .sticky] s (recordActivation s p code detail) := by
  have only : OnlyChanges [.compute] s { s with compute := { s.compute with actProgram := p, actResult := code, actDetail := detail } } :=
    only_compute s _
  exact ⟨count_compute _ _ _ 1, only.comp (count_only _ _ _ 1)⟩

end Sys2Proof.Machine
end

section
/-!
SUPPORT. Each command on programs and range sets as its obligation states it (R219 to R223, R230).
-/

namespace Sys2Proof.Machine

open Host (Outcome)

section
variable {s : State} {h : HostId} {i : Nat} (T : AdminTurn s h i)
include T

/-- What the end of an admin command leaves that has changed the state of its service to `u`. -/
theorem AdminTurn.leaves {ps qs : List Part} {u : State} (only : OnlyChanges ps (inService s i) u) (slm : u.compute.slm = s.compute.slm)
    (st : Status) (dw0 dw1 : Nat) (hq : ps ⊆ qs ++ completionParts := by decide)
    (media : .ledger ∉ ps ∧ .flash ∉ ps ∧ .host ∉ ps := by decide) (entry : .tally ∉ ps := by decide) :
    Completes s (finish u i st dw0 dw1) 0 h.cid [] st dw0 dw1 ∧ ComputeStands u (finish u i st dw0 dw1) ∧
      Undisturbed qs s (finish u i st dw0 dw1) := by
  obtain ⟨completes, stands⟩ := T.ends (only .tally entry) st dw0 dw1
  have service : Undisturbed [] s (inService s i) := (inService_only s i).undisturbed
  exact ⟨completes, stands, (service.mono (List.nil_subset qs)).trans
    ((undisturbed_of_slm only slm hq media).trans ((finish_undisturbed u i st dw0 dw1).mono (List.nil_subset qs)))⟩

end

/-! ## LOAD_PROGRAM -/

section
variable {s : State} {h : HostId} {i pind : Nat} (T : AdminTurn s h i) (quiet : activating s = false) (index : pind ≤ 31)
include T quiet index

theorem loadProgram_active {off : Nat} {data : Bytes} (fits : off + data.length ≤ 67108864) (active : programActive s pind = true) :
    ∃ t, exec (.loadProgram h pind off data) s = .next t ∧ Completes s t 0 h.cid [] .commandSequenceError 0 0 ∧
      t.compute.programs = s.compute.programs ∧ Undisturbed [] s t := by
  have active' : programActive (inService s i) pind = true := active
  obtain ⟨completes, stands, undisturbed⟩ := T.leaves (qs := []) (.refl [] _) rfl .commandSequenceError 0 0
  refine ⟨_, ?_, completes, stands.programs, undisturbed⟩
  show Outcome.next (serveQuietAdmin s h _) = _
  rw [serveQuietAdmin_turn T quiet, T.serves, if_neg (by omega), if_pos active']

theorem loadProgram_stores {off : Nat} {data : Bytes} (fits : off + data.length ≤ 67108864) (idle : programActive s pind = false) :
    let base := if off = 0 then Program.reset else programOf s pind
    let next := { base with
      pkg := mwrite base.pkg off data, stored := max base.stored (off + data.length)
      parts := addRun base.parts off (off + data.length), state := 1 }
    storeInUse s - receivedBytes (programOf s pind) + receivedBytes next ≤ storeLimit →
    ∃ t, exec (.loadProgram h pind off data) s = .next t ∧ Completes s t 0 h.cid [] .success 0 0 ∧ programOf t pind = next ∧
      (∀ p, p ≠ pind → programOf t p = programOf s p) ∧ Undisturbed [] s t := by
  intro base next room
  have idle' : ¬programActive (inService s i) pind = true := by
    rw [show programActive (inService s i) pind = false from idle]
    exact Bool.false_ne_true
  have room' : ¬storeLimit < storeInUse (inService s i) - receivedBytes (programOf (inService s i) pind) + receivedBytes next := not_lt.mpr room
  obtain ⟨completes, stands, undisturbed⟩ := T.leaves (qs := []) (programMod_only (inService s i) pind (fun _ => next)) rfl .success 0 0
  refine ⟨_, ?_, completes, (stands.programOf_eq pind).trans (programOf_programMod _ _ _),
    fun p hp => (stands.programOf_eq p).trans (programOf_programMod_other _ hp _), undisturbed⟩
  show Outcome.next (serveQuietAdmin s h _) = _
  rw [serveQuietAdmin_turn T quiet, T.serves, if_neg (by omega), if_neg idle']
  exact congrArg Outcome.next (if_neg room')

/-! ## PROGRAM_ACTIVATE -/

theorem programActivate_active (active : programActive s pind = true) : ∃ t, exec (.programActivate h pind) s = .next t ∧
    Completes s t 0 h.cid [] .success 0 0 ∧ t.compute.programs = s.compute.programs ∧ Undisturbed [] s t := by
  have active' : programActive (inService s i) pind = true := active
  obtain ⟨completes, stands, undisturbed⟩ := T.leaves (qs := []) (.refl [] _) rfl .success 0 0
  refine ⟨_, ?_, completes, stands.programs, undisturbed⟩
  show Outcome.next (serveQuietAdmin s h _) = _
  rw [serveQuietAdmin_turn T quiet, T.serves, if_neg (by omega), if_pos active']

section
variable (idle : programActive s pind = false)
include idle

/-- What an activation of an idle program does: the checks of its package, then `activate`. -/
theorem programActivate_idle : exec (.programActivate h pind) s = .next (
    match checkPackage s (programOf s pind), activate (inService s i) pind with
    | some (code, some d), _ => finish (recordActivation (inService s i) pind code d) i .invalidField code 0
    | some (code, none), _ => finish (recordActivation (drawFree (inService s i)).2 pind code ((drawFree (inService s i)).1 % 2 ^ 32)) i
        .invalidField code 0
    | none, (some (code, d), u) => finish (recordActivation u pind code d) i .invalidField code 0
    | none, (none, u) => finish (recordActivation u pind 0 0) i .success 0 0) := by
  have idle' : ¬programActive (inService s i) pind = true := by
    rw [show programActive (inService s i) pind = false from idle]
    exact Bool.false_ne_true
  have same : checkPackage (inService s i) (programOf (inService s i) pind) = checkPackage s (programOf s pind) := rfl
  show Outcome.next (serveQuietAdmin s h _) = _
  rw [serveQuietAdmin_turn T quiet, T.serves, if_neg (by omega), if_neg idle', same]
  rcases checkPackage s (programOf s pind) with _ | ⟨code, _ | d⟩
  · rcases activate (inService s i) pind with ⟨_ | ⟨code, d⟩, u⟩ <;> rfl
  · rfl
  · rfl

omit quiet index idle in
/-- An activation that its package's checks refuse, as it is recorded and ends. -/
theorem AdminTurn.refusedActivation {w : State} (only : OnlyChanges [.free] (inService s i) w) (code n : Nat) :
    let t := finish (recordActivation w pind code n) i .invalidField code 0
    Completes s t 0 h.cid [] .invalidField code 0 ∧ t.compute.programs = s.compute.programs ∧ t.compute.actProgram = pind ∧
      t.compute.actResult = code ∧ t.compute.actDetail = n ∧ Undisturbed [.counters, .sticky, .free] s t := by
  intro t
  have before : w.compute = s.compute := only .compute (by decide)
  obtain ⟨compute, recorded⟩ := recordActivation_leaves w pind code n
  have both : OnlyChanges [.free, .compute, .counters, .sticky] (inService s i) (recordActivation w pind code n) := only.comp recorded
  obtain ⟨completes, stands, undisturbed⟩ := T.leaves (qs := [.counters, .sticky, .free]) both (by rw [compute, before]) .invalidField code 0
  have rest := stands.rest
  rw [compute, before] at rest
  exact ⟨completes, (congrArg Compute.programs rest).trans rfl, (congrArg Compute.actProgram rest).trans rfl,
    (congrArg Compute.actResult rest).trans rfl, (congrArg Compute.actDetail rest).trans rfl, undisturbed⟩

theorem programActivate_refused {code : Nat} {d : Option Nat} (bad : checkPackage s (programOf s pind) = some (code, d)) :
    ∃ t, exec (.programActivate h pind) s = .next t ∧ Completes s t 0 h.cid [] .invalidField code 0 ∧
      t.compute.programs = s.compute.programs ∧ t.compute.actProgram = pind ∧ t.compute.actResult = code ∧
      (∀ n, d = some n → t.compute.actDetail = n) ∧ Undisturbed [.counters, .sticky, .free] s t := by
  have ran := programActivate_idle T quiet index idle
  rw [bad] at ran
  cases d with
  | none =>
    obtain ⟨completes, programs, program, result, -, undisturbed⟩ := T.refusedActivation (pind := pind) (drawFree_only (inService s i)) code
      ((drawFree (inService s i)).1 % 2 ^ 32)
    exact ⟨_, ran, completes, programs, program, result, nofun, undisturbed⟩
  | some n =>
    obtain ⟨completes, programs, program, result, detail, undisturbed⟩ := T.refusedActivation (pind := pind) (.refl _ (inService s i)) code n
    exact ⟨_, ran, completes, programs, program, result, fun m hm => detail.trans (Option.some.inj hm), undisturbed⟩

theorem programActivate_fails (sound : checkPackage s (programOf s pind) = none) {code d : Nat}
    (fails : (activate s pind).1 = some (code, d)) : ∃ t, exec (.programActivate h pind) s = .next t ∧
      Completes s t 0 h.cid [] .invalidField code 0 ∧ programActive t pind = false ∧ t.compute.actProgram = pind ∧
      t.compute.actResult = code ∧ t.compute.actDetail = d ∧ (∀ p, p ≠ pind → programOf t p = programOf s p) ∧
      Undisturbed [.counters, .sticky] s t := by
  have ran := programActivate_idle T quiet index idle
  have fails' : (activate (inService s i) pind).1 = some (code, d) := (activate_result_congr (s := s) (t := inService s i) rfl pind).trans fails
  obtain ⟨state, others, slm, only⟩ := activate_fails fails'
  obtain ⟨u, hu⟩ : ∃ u, activate (inService s i) pind = (some (code, d), u) := ⟨_, Prod.ext fails' rfl⟩
  rw [sound, hu] at ran
  rw [hu] at state others slm only
  obtain ⟨compute, recorded⟩ := recordActivation_leaves u pind code d
  obtain ⟨completes, stands, undisturbed⟩ := T.leaves (qs := [.counters, .sticky]) (only.trans recorded)
    ((congrArg Compute.slm compute).trans slm) .invalidField code 0
  have programs := stands.programs.trans (congrArg Compute.programs compute)
  have rest := stands.rest
  rw [compute] at rest
  refine ⟨_, ran, completes, ?_, (congrArg Compute.actProgram rest).trans rfl, (congrArg Compute.actResult rest).trans rfl,
    (congrArg Compute.actDetail rest).trans rfl, fun p hp => (programOf_congr programs p).trans (others p hp), undisturbed⟩
  rw [programActive, programOf_congr programs pind, state]
  exact idle

theorem programActivate_passes (sound : checkPackage s (programOf s pind) = none) (passes : (activate s pind).1 = none) :
    ∃ t, exec (.programActivate h pind) s = .next t ∧ Completes s t 0 h.cid [] .success 0 0 ∧
      (let p := programOf t pind
       p.state = 2 ∧ p.pkg = (programOf s pind).pkg ∧ 16 ≤ p.physRegs ∧ p.physRegs ≤ 256 ∧ p.physRegs % 8 = 0 ∧
       manifestField p 44 1 ≤ p.cores.length ∧ p.cores.length ≤ manifestField p 45 1 ∧
       ∀ c ∈ p.cores, c < 48 ∧ tget (coreOf t (c + 24)).parts pind = some (1024 * manifestField p 42 2)) ∧
      (∀ p, p ≠ pind → programOf t p = programOf s p) ∧ t.compute.actResult = 0 ∧ Undisturbed [.counters, .sticky] s t := by
  have ran := programActivate_idle T quiet index idle
  have passes' : (activate (inService s i) pind).1 = none := (activate_result_congr (s := s) (t := inService s i) rfl pind).trans passes
  obtain ⟨cs, least, most, small, program, others, parts, slm, only⟩ := activate_passes passes'
  obtain ⟨u, hu⟩ : ∃ u, activate (inService s i) pind = (none, u) := ⟨_, Prod.ext passes' rfl⟩
  rw [sound, hu] at ran
  rw [hu] at program others parts slm only
  obtain ⟨compute, recorded⟩ := recordActivation_leaves u pind 0 0
  obtain ⟨completes, stands, undisturbed⟩ := T.leaves (qs := [.counters, .sticky]) (only.trans recorded)
    ((congrArg Compute.slm compute).trans slm) .success 0 0
  have programs := stands.programs.trans (congrArg Compute.programs compute)
  have rest := stands.rest
  rw [compute] at rest
  have active : programOf (finish (recordActivation u pind 0 0) i .success 0 0) pind = activated (programOf s pind) cs :=
    (programOf_congr programs pind).trans program
  obtain ⟨low, high, eights⟩ := physRegsOf_bounds (headerDigest (programOf s pind))
  refine ⟨_, ran, completes, ?_, fun p hp => (programOf_congr programs p).trans (others p hp), (congrArg Compute.actResult rest).trans rfl,
    undisturbed⟩
  rw [active]
  refine ⟨rfl, rfl, low, high, eights, least, most, fun c hc => ⟨small c hc, ?_⟩⟩
  rw [(stands.cores (c + 24)).1, coreOf_congr (s := u) ((congrArg Compute.cores compute).trans rfl)]
  exact parts c hc

end

/-! ## PROGRAM_DEACTIVATE -/

theorem programDeactivate_busy (busy : invsOf s pind ≠ 0) : ∃ t, exec (.programDeactivate h pind) s = .next t ∧
    Completes s t 0 h.cid [] .commandSequenceError 0 0 ∧ t.compute.programs = s.compute.programs ∧ Undisturbed [] s t := by
  have busy' : invsOf (inService s i) pind ≠ 0 := busy
  obtain ⟨completes, stands, undisturbed⟩ := T.leaves (qs := []) (.refl [] _) rfl .commandSequenceError 0 0
  refine ⟨_, ?_, completes, stands.programs, undisturbed⟩
  show Outcome.next (serveQuietAdmin s h _) = _
  rw [serveQuietAdmin_turn T quiet, T.serves, if_neg (by omega), if_pos busy']

theorem programDeactivate_idle (unused : invsOf s pind = 0) (active : programActive s pind = true) :
    ∃ t, exec (.programDeactivate h pind) s = .next t ∧ Completes s t 0 h.cid [] .success 0 0 ∧
      programOf t pind = { programOf s pind with cores := [], state := 1 } ∧
      (∀ c ∈ (programOf s pind).cores, tget (coreOf t (c + 24)).parts pind = none ∧ tget (coreOf t (c + 24)).localMem pind = none) ∧
      (∀ p, p ≠ pind → programOf t p = programOf s p) ∧ Undisturbed [] s t := by
  have unused' : ¬invsOf (inService s i) pind ≠ 0 := not_not.mpr unused
  have active' : programActive (inService s i) pind = true := active
  obtain ⟨program, others, gone, slm, only⟩ := deallocate_leaves (inService s i) pind
  obtain ⟨completes, stands, undisturbed⟩ := T.leaves (qs := []) only slm .success 0 0
  refine ⟨_, ?_, completes, (stands.programOf_eq pind).trans program, fun c hc => ?_, fun p hp => (stands.programOf_eq p).trans (others p hp),
    undisturbed⟩
  · show Outcome.next (serveQuietAdmin s h _) = _
    rw [serveQuietAdmin_turn T quiet, T.serves, if_neg (by omega), if_neg unused', if_pos active']
  · obtain ⟨parts, localMem⟩ := stands.cores (c + 24)
    rw [parts, localMem]
    exact gone c hc

end

/-! ## MEMORY_RANGE_SET_MANAGEMENT -/

section
variable {s : State} {h : HostId} {i rsid : Nat} {ranges : List (Nat × Nat)} (T : AdminTurn s h i)
include T

theorem rangeSet_created (low : 1 ≤ rsid) (high : rsid ≤ 65535) (unknown : tget s.compute.rangeSets rsid = none)
    (some_ : 1 ≤ ranges.length) (few : ranges.length ≤ 8) (inside : ∀ r ∈ ranges, r.1 + r.2 ≤ slmSize) :
    ∃ t, exec (.memoryRangeSetManagement h true rsid ranges) s = .next t ∧ Completes s t 0 h.cid [] .success rsid 0 ∧
      tget t.compute.rangeSets rsid = some ranges ∧
      (∀ r, r ≠ rsid → tget t.compute.rangeSets r = tget s.compute.rangeSets r) ∧ Undisturbed [] s t := by
  have none_ : tget (inService s i).compute.rangeSets rsid = none := unknown
  have fields : (decide (rsid = 0) || decide (65535 < rsid) || (none : Option (List (Nat × Nat))).isSome || decide (ranges = []) ||
      decide (8 < ranges.length) || ranges.any (fun r => decide (slmSize < r.1 + r.2))) = false := by
    have outside : ranges.any (fun r => decide (slmSize < r.1 + r.2)) = false := by simpa [List.any_eq_false] using inside
    have nonempty : ranges ≠ [] := List.ne_nil_of_length_pos some_
    rw [outside]
    simp [nonempty]
    omega
  let u : State := { inService s i with compute := { s.compute with rangeSets := tput s.compute.rangeSets rsid ranges } }
  obtain ⟨completes, stands, undisturbed⟩ := T.leaves (qs := []) (u := u) (only_compute (inService s i) _) rfl .success rsid 0
  have sets : (finish u i .success rsid 0).compute.rangeSets = tput s.compute.rangeSets rsid ranges :=
    (congrArg Compute.rangeSets stands.rest).trans rfl
  refine ⟨_, ?_, completes, sets ▸ tget_tput_same .., fun r hr => sets ▸ tget_tput_other _ _ _ _ hr, undisturbed⟩
  show Outcome.next (serveAdmin s h false _) = _
  rw [serveAdmin_turn T, T.serves, none_]
  dsimp only
  rw [fields]
  rfl

variable (known : (tget s.compute.rangeSets rsid).isSome = true)
include known

theorem rangeSet_inUse (used : s.compute.invs.any (fun v => v.2.rsid = rsid) = true) :
    ∃ t, exec (.memoryRangeSetManagement h false rsid ranges) s = .next t ∧ Completes s t 0 h.cid [] .commandSequenceError 0 0 ∧
      t.compute.rangeSets = s.compute.rangeSets ∧ Undisturbed [] s t := by
  have known' : (tget (inService s i).compute.rangeSets rsid).isSome = true := known
  have used' : (inService s i).compute.invs.any (fun v => v.2.rsid = rsid) = true := used
  obtain ⟨completes, stands, undisturbed⟩ := T.leaves (qs := []) (.refl [] _) rfl .commandSequenceError 0 0
  refine ⟨_, ?_, completes, (congrArg Compute.rangeSets stands.rest).trans rfl, undisturbed⟩
  show Outcome.next (serveAdmin s h false _) = _
  rw [serveAdmin_turn T, T.serves, known']
  dsimp only
  rw [used']
  rfl

theorem rangeSet_deleted (unused : s.compute.invs.any (fun v => v.2.rsid = rsid) = false) :
    ∃ t, exec (.memoryRangeSetManagement h false rsid ranges) s = .next t ∧ Completes s t 0 h.cid [] .success 0 0 ∧
      tget t.compute.rangeSets rsid = none ∧ Undisturbed [] s t := by
  have known' : (tget (inService s i).compute.rangeSets rsid).isSome = true := known
  have unused' : (inService s i).compute.invs.any (fun v => v.2.rsid = rsid) = false := unused
  let u : State := { inService s i with compute := { s.compute with rangeSets := tdel s.compute.rangeSets rsid } }
  obtain ⟨completes, stands, undisturbed⟩ := T.leaves (qs := []) (u := u) (only_compute (inService s i) _) rfl .success 0 0
  have sets : (finish u i .success 0 0).compute.rangeSets = tdel s.compute.rangeSets rsid :=
    (congrArg Compute.rangeSets stands.rest).trans rfl
  refine ⟨_, ?_, completes, sets ▸ (tget_tdel ..).trans (if_pos rfl), undisturbed⟩
  show Outcome.next (serveAdmin s h false _) = _
  rw [serveAdmin_turn T, T.serves, known']
  dsimp only
  rw [unused']
  rfl

end

end Sys2Proof.Machine
end

open Sys2Proof Sys2Proof.Machine in
/-- Settles O47: each command acts on the state of its service, where only its entry has changed, and its end keeps the programs, the
partitions and the range sets (`AdminTurn.leaves`). -/
theorem programsAreLoadedAndActivated : Obligations.ProgramsAreLoadedAndActivated := by
  unfold Obligations.ProgramsAreLoadedAndActivated
  exact ⟨fun s h i pind off data T quiet index fits =>
      ⟨loadProgram_active T quiet index fits, loadProgram_stores T quiet index fits⟩,
    fun s h i pind T quiet index => ⟨programActivate_active T quiet index, fun idle =>
      ⟨fun code d => programActivate_refused T quiet index idle, fun sound code d => programActivate_fails T quiet index idle sound,
        fun sound => programActivate_passes T quiet index idle sound⟩⟩,
    fun s h i pind T quiet index => ⟨programDeactivate_busy T quiet index, programDeactivate_idle T quiet index⟩,
    fun s h i rsid ranges T => ⟨rangeSet_created T, fun known => ⟨rangeSet_inUse T known, rangeSet_deleted T known⟩⟩⟩
